-- ==== Sys2Proof/Word.lean ====
section
/-! DEFINITION. The word types of the device: bytes, 32-bit register words and 64-bit words. -/

namespace Sys2Proof

/-- One byte of memory, of a table entry or of a frame. -/
abbrev Byte := BitVec 8

/-- One 32-bit register word of BAR0 (R42). -/
abbrev Word := BitVec 32

/-- A run of bytes, lowest address first. -/
abbrev Bytes := List Byte

end Sys2Proof
end

