-- ==== Sys2Proof/Syntax.lean ====
section
/-! DEFINITION. Syntax: the commands of the block, one constructor per row of the table of operations and events, and the
data those commands carry. A mailbox command carries its 64-byte entry whole; an event row carries what the outside
world brings with it (a frame, an edge's instant, a measurement). -/

namespace Sys2Proof

/-- A mailbox command entry (R50) as the device holds it once fetched: the 64 bytes, and the ring and slot it came from. -/
structure Cmd where
  /-- the entry, byte 0 in bits [7:0] (R6, R50) -/
  bits : BitVec 512
  /-- command ring the entry came from, 0-3 -/
  ring : BitVec 2
  /-- index of the entry in its ring -/
  slot : BitVec 8
  deriving DecidableEq, Repr

/-- A host write of BAR0 by its width (R42): narrower than 32 bits, 32 bits, or 64 bits. -/
inductive BarWrite where
  | narrow
  | word (v : Word)
  | double (v : BitVec 64)
  deriving DecidableEq, Repr

/-- What an Announce message carries of the data set BMCA compares, of its flags, and of the profile's TLV (R133, R134). -/
structure PtpAnnounce where
  domain : BitVec 8
  priority1 : BitVec 8
  clockClass : BitVec 8
  accuracy : BitVec 8
  variance : BitVec 16
  priority2 : BitVec 8
  identity : BitVec 64
  stepsRemoved : BitVec 16
  /-- clockIdentity of the sending port -/
  sender : BitVec 64
  utcOfs : BitVec 16
  utcValid : Bool
  leap61 : Bool
  leap59 : Bool
  /-- totalTimeInaccuracy of the IEEE C37.238 TLV in ns; 0 where the message has none -/
  totalInacc : BitVec 32
  deriving DecidableEq, Repr

/-- A PTP event message as the engine takes it: times in ns, TAI. -/
structure PtpEvent where
  domain : BitVec 8
  seq : BitVec 16
  /-- originTimestamp, or the turnaround's part of it, in ns -/
  origin : Nat
  /-- correctionField in ns -/
  correction : Int
  /-- local time, TAI in ns, at which the frame's SFD crossed the PCS boundary (R136) -/
  stamp : Nat
  /-- the twoStepFlag -/
  twoStep : Bool
  deriving DecidableEq, Repr

/-- The kinds of message the PTP engine sends at its profile intervals (R133). -/
inductive PtpKind where
  | announce | sync | pdelayReq
  deriving DecidableEq, Repr

/-- One IRIG-B frame as decoded (R140). -/
structure IrigFrame where
  /-- local time, TAI in ns, of the reference marker Pr -/
  stamp : Nat
  /-- years since 2000, from the year field or the IEEE 1344 extension -/
  year : Nat
  /-- day of the year 1-366 and second of the day -/
  day : Nat
  second : Nat
  parityOk : Bool
  /-- IEEE 1344 local-time offset in half hours, time quality, and leap-second bits -/
  localOfs : Int
  quality : BitVec 4
  leap61 : Bool
  leap59 : Bool
  deriving DecidableEq, Repr

/-- Which clock CLOCK_FAILURE concerns, and whether it fails or is back (R128). -/
inductive ClockPart where
  | refclk | cwClk | counter
  deriving DecidableEq, Repr

/-- What the calibration of one phase measured (Table: Calibration step): results per gain (OFS_CAL in 1/256 LSB, GC_CAL in
0.01 ppm), and the mean and RMS difference of the two units in 1/256 LSB. -/
structure CalMeas where
  ofs : List Int := [0, 0, 0]
  gc : List Int := [0, 0, 0]
  mean : Int := 0
  rms : Nat := 0
  deriving DecidableEq, Repr

/-- The two attempts of a slice (0-47) or spare (48-50) at its initial calibration (R166); the second is made where the first fails. -/
structure SliceCal where
  unit : Nat
  first : CalMeas := {}
  second : CalMeas := {}
  deriving DecidableEq, Repr

/-- What the boot steps find (Table: Boot steps, Table: Boot failures); every default is a step passed. -/
structure BootReport where
  /-- 0x01: the supervisor's self-test -/
  selfTest : Bool := true
  /-- 0x02: the backup domain has lost its contents (R440), and its RTC in seconds, where it differs from what the model kept -/
  contentsLost : Bool := false
  rtc : Option Nat := none
  /-- 0x03, 0x04: which image slots hold an image whose digest, key and signature verify -/
  slots : List Bool := [true, true]
  ddr : Bool := true
  /-- 0x06: active clusters and standbys that fail -/
  clusters : List Nat := []
  standbys : List Nat := []
  /-- 0x07: the PLLs lock; the clock monitor's finding on CW_CLK and REFCLK -/
  pll : Bool := true
  cwClk : Bool := false
  refclk : Bool := true
  /-- 0x08: the initial calibrations; of a unit that is not listed every result is 0 -/
  slices : List SliceCal := []
  mram : Bool := true
  deriving DecidableEq, Repr

/-- The three forms of the console's TEST (R562, R565). -/
inductive KomirTest where
  | start (id : BitVec 8) (unit : BitVec 16) (param : BitVec 32)
  | stop
  | result (id : BitVec 8)
  deriving DecidableEq, Repr

/-- The IEC 62351-6 extension of a received frame as its fields stand: algorithm (1 HMAC-SHA256, 2 AES-GMAC), the octets it
covers, its nonce and its tag (R187). -/
structure AuthExt where
  alg : BitVec 2
  signed : Bytes
  nonce : Bytes
  tag : Bytes
  deriving DecidableEq, Repr

/-- Head of a received frame: port, addresses, APPID, sequence number of the PRP trailer or HSR tag, simulation bit, and the
monotonic time in ns at which its SFD crossed the PCS boundary. -/
structure FrameHead where
  port : BitVec 2
  src : BitVec 48
  dst : BitVec 48
  appid : BitVec 16
  seq : Option (BitVec 16)
  sim : Bool
  stamp : Nat
  auth : Option AuthExt
  deriving DecidableEq, Repr

/-- An IEC 61850 quality: validity (0 good, 1 invalid, 2 reserved, 3 questionable) and its detail (R194, R213). -/
structure Quality61850 where
  validity : BitVec 2 := 0
  overflow : Bool := false
  outOfRange : Bool := false
  badReference : Bool := false
  oscillatory : Bool := false
  failure : Bool := false
  oldData : Bool := false
  inconsistent : Bool := false
  inaccurate : Bool := false
  substituted : Bool := false
  test : Bool := false
  operatorBlocked : Bool := false
  deriving DecidableEq, Repr

/-- One ASDU of a sampled-value frame: eight INT32 values with their qualities (R189). -/
structure SvAsdu where
  svId : Bytes
  smpCnt : BitVec 16
  confRev : BitVec 32
  smpSynch : BitVec 8
  vals : List Int
  quals : List Quality61850
  deriving DecidableEq, Repr

structure SvFrame where
  head : FrameHead
  asdus : List SvAsdu
  deriving DecidableEq, Repr

/-- A member of a received GOOSE data set. -/
inductive GooseVal where
  | bool (b : Bool)
  /-- 0 intermediate, 1 off, 2 on, 3 bad state -/
  | dbpos (d : BitVec 2)
  | quality (q : Quality61850)
  | int (i : Int)
  /-- a type no input map takes -/
  | other
  deriving DecidableEq, Repr

structure GooseFrame where
  head : FrameHead
  gocbRef : Bytes
  datSet : Bytes
  confRev : BitVec 32
  numEntries : Nat
  stNum : BitVec 32
  sqNum : BitVec 32
  /-- timeAllowedtoLive in ms -/
  tal : Nat
  ndsCom : Bool
  members : List GooseVal
  deriving DecidableEq, Repr

/-- Why a frame is discarded before any context sees it (R182): a bad FCS, an EtherType that is not accepted, or no matching
context. A whole frame comes with the number its redundancy tag or trailer bears, if it bears one (R184-R186). -/
inductive Discard where
  | badFcs | etherType (seq : Option (BitVec 16)) | noMatch (seq : Option (BitVec 16))
  deriving DecidableEq, Repr

/-- A conversion of the auxiliary converter (R173, R177): its code, and whether class P6 drops the write of its result (R541). -/
structure AuxCode where
  code : BitVec 12
  p6 : Bool := false
  deriving DecidableEq, Repr

/-- An access of a DMA channel (R487): descriptor fetch, count-word read, a read or write beat by its position in transfer order,
write-back. -/
inductive DmaAccess where
  | fetch | count | read (pos : Nat) | write (pos : Nat) | back
  deriving DecidableEq, Repr

/-- The conversions of one slice or spare in one Milestone (R152, R154): its codes in order, and the positions at which its
comparator tripped. -/
structure SliceIn where
  unit : BitVec 6
  codes : List (BitVec 18) := []
  ovr : List Nat := []
  deriving DecidableEq, Repr

/-- What the outside world brings to the Milestone that ends: the conversions of the slices (a unit not named here, and a position past
the end of its list, converted code 0), the regions whose record buffer is full (R463), and whether class P6 drops its work (R541). -/
structure MsIn where
  slices : List SliceIn := []
  drops : BitVec 4 := 0
  p6 : Bool := false
  deriving DecidableEq, Repr


/-- The commands of the block: one constructor per row of the table of operations and events. -/
inductive Instr where
  /-- SYS_CAPS (R58). Writes the 256-byte block of units present and in service to BUF. -/
  | sysCaps (c : Cmd)
  /-- SYS_MODE (R77). Requests CONFIGURE, COMMISSION or SERVICE; checks run and protection starts or stops at the
  next boundary. -/
  | sysMode (c : Cmd)
  /-- SYS_STATUS (R95). Writes the 128-byte mode, cause and behaviour status block. -/
  | sysStatus (c : Cmd)
  /-- SYS_RESTART_WARM (R90). Accepts a warm restart that begins at the first boundary after its OK completion has
  been written. -/
  | sysRestartWarm (c : Cmd)
  /-- SYS_RESTART_COLD (R90). Accepts a cold restart when no TRIP output is asserted; the restart begins at the
  first boundary after the completion. -/
  | sysRestartCold (c : Cmd)
  /-- TBL_BASE (R59). Places a configuration table and clears SEQ_VALID of its cached entries. -/
  | tblBase (c : Cmd)
  /-- TBL_SYNC (R63). Reads, checks and stages table entries and group blocks in table-then-index order. -/
  | tblSync (c : Cmd)
  /-- TBL_READ (R62). Returns one cached table entry or group block with its SEQ and its in-force Milestone. -/
  | tblRead (c : Cmd)
  /-- BAY_GROUP (R286). Switches the active setting group of a bay at the next boundary. -/
  | bayGroup (c : Cmd)
  /-- BAY_BEH (R81). Sets or removes a behaviour override of a bay. -/
  | bayBeh (c : Cmd)
  /-- BAY_READ (R282). Writes the 2048-byte measurand, element and chain block of a bay. -/
  | bayRead (c : Cmd)
  /-- BAY_READ_SECTION (R314). Writes the 64-byte bus-section status block. -/
  | bayReadSection (c : Cmd)
  /-- BAY_READ_TRIP_STATUS (R386). Writes the 800-byte trip pin and binary input status block. -/
  | bayReadTripStatus (c : Cmd)
  /-- BAY_READ_LOOP (R422). Writes the 128-byte status block of a loop and clears SWB and LIM_CONFLICT. -/
  | bayReadLoop (c : Cmd)
  /-- BAY_RESET (R317). Resets the selected lockout, thermal, energy, locator, HIF latch or counter state at the
  next boundary. -/
  | bayReset (c : Cmd)
  /-- FILT_STOP (R240). Stops the filter chain of a cluster at the next boundary. -/
  | filtStop (c : Cmd)
  /-- FILT_START (R241). Starts the chain of a cluster in native or T12 mode with a synchronising reset. -/
  | filtStart (c : Cmd)
  /-- FILT_COEF (R242). Loads a user stage-1 or stage-3 coefficient set into a stopped cluster and its standby copy. -/
  | filtCoef (c : Cmd)
  /-- AUX_SEQ (R171). Loads the auxiliary sequencer table and the urgent settings. -/
  | auxSeq (c : Cmd)
  /-- SV_PUB (R206). Loads one SV publication from a 128-byte block. -/
  | svPub (c : Cmd)
  /-- SV_PUB_PORT_SET (R179). Loads the NET port set block of modes, speeds, MACs and redundancy timers. -/
  | svPubPortSet (c : Cmd)
  /-- SV_STATS (R221). Writes the SV statistics of a context or publication. -/
  | svStats (c : Cmd)
  /-- GOOSE_PUB (R216). Loads one GOOSE publication from a 512-byte block. -/
  | goosePub (c : Cmd)
  /-- GOOSE_STATS (R221). Writes the GOOSE statistics of a context or publication. -/
  | gooseStats (c : Cmd)
  /-- CURVE_LOAD (R329). Loads a user inverse-time curve slot on a compute die. -/
  | curveLoad (c : Cmd)
  /-- LOGIC_LOAD (R359). Writes a program image into the inactive bank of a bay. -/
  | logicLoad (c : Cmd)
  /-- LOGIC_VERIFY (R360). Verifies the inactive bank and reports WCET, stack depth, FITS and TKO_FIT. -/
  | logicVerify (c : Cmd)
  /-- LOGIC_SWITCH (R367). Exchanges the program banks at the first boundary with no logic cycle running, carrying
  data over by ID. -/
  | logicSwitch (c : Cmd)
  /-- LOGIC_FORCE (R372). Sets or changes a force on an address or a VAR identifier of a bay. -/
  | logicForce (c : Cmd)
  /-- LOGIC_UNFORCE (R372). Removes one force, or every force, of a bay. -/
  | logicUnforce (c : Cmd)
  /-- LOGIC_RESTART (R366). Restarts the logic of a bay warm or cold at the next boundary. -/
  | logicRestart (c : Cmd)
  /-- LOGIC_READ (R374). Writes the 4352-byte logic state block of a bay. -/
  | logicRead (c : Cmd)
  /-- GRID_MODE (R100). Applies the whole grid configuration at the next boundary. -/
  | gridMode (c : Cmd)
  /-- GRID_SYNC_SLEW (R114). Slews the Milestone boundary toward the last measured sync error. -/
  | gridSyncSlew (c : Cmd)
  /-- GRID_SYNC_STEP (R114). Ends the Milestone in progress at the aligned instant and performs a synchronising
  reset. -/
  | gridSyncStep (c : Cmd)
  /-- TIME_STEP (R144). Applies a pending, absolute or relative step to TAI at the next boundary. -/
  | timeStep (c : Cmd)
  /-- TIME_SOURCE (R130). Loads the 64-byte time configuration block. -/
  | timeSource (c : Cmd)
  /-- TIME_READ (R148). Writes the 128-byte time and grid status block. -/
  | timeRead (c : Cmd)
  /-- REC_ARM (R451). Arms disturbance recording of a region from the arm block. -/
  | recArm (c : Cmd)
  /-- REC_DISARM (R454). Disarms a region, closing its open records at the next boundary. -/
  | recDisarm (c : Cmd)
  /-- REC_FORCE (R458). Fires trigger cause 8 in the addressed armed regions. -/
  | recForce (c : Cmd)
  /-- REC_LIST (R466). Writes record descriptors, a record information block or the region status. -/
  | recList (c : Cmd)
  /-- REC_CFG (R467). Writes the COMTRADE .cfg of one reduction of a closed record. -/
  | recCfg (c : Cmd)
  /-- REC_FREE (R464). Frees one closed record, or every closed record up to one, for reclamation. -/
  | recFree (c : Cmd)
  /-- DMA_START (R477). Starts a DMA channel on the first descriptor of a chain. -/
  | dmaStart (c : Cmd)
  /-- DMA_HALT (R478). Stops read issue, drains staged data and halts a channel with cause HOST. -/
  | dmaHalt (c : Cmd)
  /-- DMA_STAT (R490). Writes the channel status blocks and clears PEND and PEND_OVF. -/
  | dmaStat (c : Cmd)
  /-- EVT_READ (R503). Copies Cairn records from a given SEQ to BUF and may raise READ_MARK. -/
  | evtRead (c : Cmd)
  /-- EVT_READ_STATUS (R505). Writes the 64-byte log status block. -/
  | evtReadStatus (c : Cmd)
  /-- EVT_CLEAR (R506). Enters a cleared record whose sealing starts a new log. -/
  | evtClear (c : Cmd)
  /-- LOOP_XFER (R411). Transfers a user loop between manual and automatic at its next update. -/
  | loopXfer (c : Cmd)
  /-- LOOP_BANK (R410). Starts a cross-fade of a user loop toward a coefficient bank. -/
  | loopBank (c : Cmd)
  /-- LOOP_SETPT (R412). Sets the working set-point target of a user loop. -/
  | loopSetpt (c : Cmd)
  /-- LOOP_INJECT (R416). Starts an injection with capture on a user loop. -/
  | loopInject (c : Cmd)
  /-- LOOP_INJECT_STOP (R416). Ends the running injection at the next update. -/
  | loopInjectStop (c : Cmd)
  /-- LOOP_TRACE (R419). Starts a multi-probe trace into DDR4 (K64 only). -/
  | loopTrace (c : Cmd)
  /-- LOOP_TRACE_STOP (R419). Ends the running trace. -/
  | loopTraceStop (c : Cmd)
  /-- PWR_STATUS (R441). Writes the 64-byte power and hold-up status block. -/
  | pwrStatus (c : Cmd)
  /-- KEY_LOAD (R515). Unwraps and loads a key into a slot under a KEY_ADMIN token. -/
  | keyLoad (c : Cmd)
  /-- KEY_LOAD_TAMPER_POLICY (R523). Loads the tamper policy block into the backup domain. -/
  | keyLoadTamperPolicy (c : Cmd)
  /-- KEY_ERASE (R517). Erases one key slot or every slot. -/
  | keyErase (c : Cmd)
  /-- KEY_ERASE_TAMPER_LATCH (R526). Clears TLATCH, TFIRST, L2 and the held TAMPER cause. -/
  | keyEraseTamperLatch (c : Cmd)
  /-- KEY_STATUS (R527). Writes the 576-byte key, tamper and firmware status block. -/
  | keyStatus (c : Cmd)
  /-- FW_LOAD (R520). Writes image bytes into the inactive slot; with FINAL, starts its verification. -/
  | fwLoad (c : Cmd)
  /-- FW_ACTIVATE (R521). Makes the valid inactive slot active and starts a warm restart. -/
  | fwActivate (c : Cmd)
  /-- TEST_RUN (R562). Starts one self-test on a unit. -/
  | testRun (c : Cmd)
  /-- TEST_RUN_STOP (R562). Ends the running self-test at the next boundary with outcome ABORTED. -/
  | testRunStop (c : Cmd)
  /-- TEST_RESULT (R565). Writes the result block of the last run of a test. -/
  | testResult (c : Cmd)
  /-- WMK_SEL (R558). Selects the source of a Waymark output at the next boundary. -/
  | wmkSel (c : Cmd)
  /-- SUPV_COUNT (R543). Writes the capacity, source summary, acquisition or section-check part. -/
  | supvCount (c : Cmd)
  /-- UNKNOWN_COMMAND (R68). Completes a command that is not in the Xarik command set with REFUSED, reason UNKNOWN. -/
  | unknownCommand (c : Cmd)
  /-- COMMAND_FETCH (R53). Fetches a posted command entry, checks its tag and token, and orders it against other
  commands. -/
  | commandFetch
  /-- COMMAND_START_TIMEOUT (R542). Under P5 overload, completes a command not started within 50 ms of fetch with
  REFUSED, reason OVERLOAD. -/
  | commandStartTimeout (tag : BitVec 8)
  /-- TBL_SYNC_CHECK_DONE (R64). Ends the check of a TBL.SYNC, stages its entries for the next boundary and writes
  its report. -/
  | tblSyncCheckDone
  /-- FW_VERIFY_DONE (R520). Ends the verification of a loaded image and marks the slot VALID or refuses it. -/
  | fwVerifyDone
  /-- GRID_FOLLOW_RELOCK (R116). Completes the PLL relock to CW_CLK that a GRID.MODE into FOLLOW waits for. -/
  | gridFollowRelock
  /-- MB_DOORBELL (R47). A doorbell write posts the entries of a command ring, or is ignored with MBERR. -/
  | mbDoorbell (k : BitVec 2) (tail : BitVec 8)
  /-- RING_ENABLE (R47). Setting MBk_CFG.EN enables fetching from a command ring after the ring checks. -/
  | ringEnable (k : BitVec 2) (log2n : BitVec 4)
  /-- CQ_HEAD_WRITE (R55). Advancing CQ_HEAD frees ring space so that held completions are written. -/
  | cqHeadWrite (head : BitVec 8)
  /-- CQ_ENABLE (R56). Setting CQ_CFG.EN resets CQ_TAIL, writes held entries and resumes fetching. -/
  | cqEnable (log2n : BitVec 4)
  /-- CQ_DISABLE (R56). Clearing CQ_CFG.EN holds completions, sets CQSTALL and stops fetching. -/
  | cqDisable
  /-- IRQ_STAT_WRITE (R45). A W1C write clears interrupt cause bits. -/
  | irqStatWrite (v : Word)
  /-- IRQ_MASK_WRITE (R46). Sets interrupt enables and sends a message for an enabled cause already pending. -/
  | irqMaskWrite (v : Word)
  /-- TAI_SEC_LO_READ (R127). A read of TAI_SEC_LO latches TAI_SEC_HI and TAI_NS. -/
  | taiSecLoRead
  /-- REGISTER_WRITE (R44). Writes a register field that has no behaviour of its own. -/
  | registerWrite (off : BitVec 14) (w : BarWrite)
  /-- QSPI_READ (R48). A QSPI READ frame returns register, mailbox or DDR4-window bytes. -/
  | qspiRead (addr : BitVec 24) (len : Nat) (mhz : Nat)
  /-- QSPI_WRITE (R48). A QSPI WRITE frame writes register words or memory bytes, discarding a partial word. -/
  | qspiWrite (addr : BitVec 24) (data : Bytes)
  /-- QSPI_STAT (R48). A QSPI STAT frame returns INT, BUSY and ERR and clears ERR. -/
  | qspiStat
  /-- PERST_N (R590). PERST_N low holds the PCIe endpoint in reset without resetting the device. -/
  | perstN (low : Bool)
  /-- POWER_ON (R426). Powers the rails up in order from BACKUP and releases reset. -/
  | powerOn (r : BootReport)
  /-- RST_N (R91). An RST_N low pulse resets the device into BOOT. -/
  | rstN (r : BootReport)
  /-- BROWN_OUT (R425). A rail more than 8 % low for 10 µs starts reset 0x01. -/
  | brownOut (rail : BitVec 3)
  /-- BROWN_OUT_LATCH (R425). A brown-out lasting 10 ms, or a third within 60 s, latches a power fault and powers
  down. -/
  | brownOutLatch
  /-- RAIL_OVERVOLTAGE (R425). A rail more than 8 % high for 10 µs latches a power fault and powers down. -/
  | railOvervoltage (rail : BitVec 3)
  /-- VIN_LOSS (R430). VIN below its threshold starts the hold-up buck and, at the next boundary, ride-through. -/
  | vinLoss
  /-- VIN_GOOD (R427). VIN rises above its good threshold and charging resumes. -/
  | vinGood
  /-- VIN_GOOD_50MS (R434). After VIN has been good for 50 ms, the device leaves RIDE-THROUGH and restores shed
  loads. -/
  | vinGood50ms
  /-- VIN_OV (R427). VIN above 16.5 V sets VIN_OV and writes a record. -/
  | vinOv
  /-- HOLD_FULL (R428). HOLD reaches 37.6 V and HU_STATE reads FULL. -/
  | holdFull
  /-- HOLD_CAP_MEASURED (R429). A charge through 20 V to 36 V yields a HOLD_CAP measurement and may set CAP_LOW. -/
  | holdCapMeasured (us : Nat)
  /-- HOLD_30V (R432). HOLD at 30 V on hold-up sheds disturbance recording. -/
  | hold30v
  /-- HOLD_20V (R433). HOLD at 20 V on hold-up parks the eligible standby clusters. -/
  | hold20v
  /-- HOLD_10V (R435). HOLD at 10 V with VIN lost starts the power-down sequence. -/
  | hold10v
  /-- TJ_HIGH (R437). I/O-die junction above 120 °C sets TJ_HIGH. -/
  | tjHigh (above : Bool)
  /-- OVERTEMP_POWER_DOWN (R437). Junction above 130 °C for 10 ms powers down with fault code 4. -/
  | overtempPowerDown
  /-- VBAT_CHECK (R440). Compares VBAT with 2.20 V once per 60 s and may set VBAT_LOW. -/
  | vbatCheck (low : Bool)
  /-- VAUX18_CHANGEOVER (R439). Moves the backup domain to VBAT when VAUX18 leaves its band. -/
  | vaux18Changeover
  /-- OP_MINUTE_TICK (R438). Raises the operating minutes once per 60 s of the monotonic count. -/
  | opMinuteTick
  /-- DEVICE_LOOP_UPDATE (R396). Updates a power-stage or servo device loop on factory coefficients. -/
  | deviceLoopUpdate (i : BitVec 5) (y : Int)
  /-- MILESTONE_BOUNDARY (R21). Opens Milestone n, takes the snapshots, runs protection cycle n and releases the
  outputs of the cycle before it. -/
  | milestoneBoundary (m : MsIn)
  /-- CYCLE_FRAME_END (R264). At Milestone 95 modulo 96, forms interharmonic bands, HIF frames, background learning
  and T2/T3 rows. -/
  | cycleFrameEnd
  /-- STAGE_TD_EXPIRY (R292). A picked-up stage operates when its definite delay has elapsed. -/
  | stageTdExpiry (bay : BitVec 6) (elem : BitVec 6)
  /-- STAGE_RESET_TIMEOUT (R292). The held elapsed time of a dropped-out stage is cleared at the end of RESET_T. -/
  | stageResetTimeout (bay : BitVec 6) (i : BitVec 5)
  /-- CURVE_OPERATE (R324). A 51 stage operates when its integrator reaches 1.0 and TMIN has passed. -/
  | curveOperate (bay : BitVec 6) (i : BitVec 5)
  /-- CURVE_RESET_TIMEOUT (R325). A definite reset time ends and the curve integrator is cleared. -/
  | curveResetTimeout (bay : BitVec 6) (i : BitVec 5)
  /-- DEAD_TIME_END (R305). The 79 dead time ends and the close command is issued. -/
  | deadTimeEnd (bay : BitVec 6)
  /-- RECLAIM_END (R305). The reclaim time ends and 79 returns to READY. -/
  | reclaimEnd (bay : BitVec 6)
  /-- CLOSE_T_END (R305). The close command lasts CLOSE_T without the breaker closing and 79 locks out. -/
  | closeTEnd (bay : BitVec 6)
  /-- TRIPPED_TIMEOUT (R305). 79 locks out after 2 s in TRIPPED without the breaker opening. -/
  | trippedTimeout (bay : BitVec 6)
  /-- BF_RETRIP (R304). 50BF sets RETRIP at T1. -/
  | bfRetrip (bay : BitVec 6)
  /-- BF_BKTRIP (R304). 50BF sets BKTRIP at T2, a bus trip with BF_BUS. -/
  | bfBktrip (bay : BitVec 6)
  /-- SOTF_ARMED (R302). SOTF arms after DEAD_T of open breaker or dead line. -/
  | sotfArmed (bay : BitVec 6)
  /-- SOTF_WINDOW_END (R302). The SOTF window closes after WIN_T. -/
  | sotfWindowEnd (bay : BitVec 6)
  /-- CLP_DEENERGISED (R301). A bay counts as de-energised after DEAD_S with every phase below LIVE_I. -/
  | clpDeenergised (bay : BitVec 6)
  /-- CLP_ACT_END (R301). Cold-load pickup ends after ACT_S. -/
  | clpActEnd (bay : BitVec 6)
  /-- INRUSH_WINDOW_END (R300). The energisation window closes after INIT_N Milestones. -/
  | inrushWindowEnd (bay : BitVec 6)
  /-- INRUSH_HOLD_END (R300). The ratio condition stops holding HOLD_N Milestones after it ends. -/
  | inrushHoldEnd (bay : BitVec 6) (phase : BitVec 2)
  /-- RI_TD_EXPIRY (R312). Reverse interlock operates after RI_TD. -/
  | riTdExpiry (sect : BitVec 4)
  /-- SAT_BLK_END (R311). The external-fault block of 87B ends after SAT_BLK. -/
  | satBlkEnd (sect : BitVec 4)
  /-- FRZ_TRIP_END (R341). The freeze after a trip ends after FRZ_TRIP. -/
  | frzTripEnd (bay : BitVec 6)
  /-- HIF_BACKGROUND_VALID (R346). A lane's HIF background becomes valid once its learning time reaches HIF_WARM. -/
  | hifBackgroundValid (bay : BitVec 6) (lane : BitVec 2)
  /-- PLAUSIBILITY_LASTING (R275). A check's exceedance count reaches PLB_N; QST and blocking apply from the next
  Milestone. -/
  | plausibilityLasting (unit : BitVec 16) (code : BitVec 3) (phase : BitVec 2)
  /-- PLAUSIBILITY_CLEARED (R276). A lasting check clears after PLB_W evaluated Milestones without an exceedance. -/
  | plausibilityCleared (unit : BitVec 16) (code : BitVec 3) (phase : BitVec 2)
  /-- PLAUSIBILITY_EPISODE_END (R277). A transient exceedance episode ends and its record is written or folded. -/
  | plausibilityEpisodeEnd (unit : BitVec 16) (code : BitVec 3) (phase : BitVec 2)
  /-- MIN_PULSE_END (R378). A TRIP pin without demand deasserts when its minimum pulse ends. -/
  | minPulseEnd (p : BitVec 5)
  /-- SEAL_MAX_END (R379). Seal-in ends at SEAL_MAX and the pin deasserts with SEAL_TO. -/
  | sealMaxEnd (p : BitVec 5)
  /-- LOGIC_OVERRUN (R362). A logic cycle not at END by its release boundary holds outputs and continues in the next
  Milestone. -/
  | logicOverrun (bay : BitVec 6)
  /-- LOGIC_ABORT (R363). A logic cycle not at END one Milestone late is aborted as a lockstep mismatch. -/
  | logicAbort (bay : BitVec 6)
  /-- LOGIC_TIMER_EXPIRY (R355). A TON, TOF or TP timer reaches its preset against the release time of a logic
  cycle. -/
  | logicTimerExpiry (bay : BitVec 6) (t : BitVec 8)
  /-- NOP (R353). Does nothing. -/
  | opNop (bay : BitVec 6)
  /-- LD (R353). Loads a bit into ACC. -/
  | opLd (bay : BitVec 6) (a : BitVec 24)
  /-- LDN (R353). Loads the inverse of a bit into ACC. -/
  | opLdn (bay : BitVec 6) (a : BitVec 24)
  /-- AND (R353). ANDs a bit into ACC. -/
  | opAnd (bay : BitVec 6) (a : BitVec 24)
  /-- ANDN (R353). ANDs the inverse of a bit into ACC. -/
  | opAndn (bay : BitVec 6) (a : BitVec 24)
  /-- OR (R353). ORs a bit into ACC. -/
  | opOr (bay : BitVec 6) (a : BitVec 24)
  /-- ORN (R353). ORs the inverse of a bit into ACC. -/
  | opOrn (bay : BitVec 6) (a : BitVec 24)
  /-- XOR (R353). XORs a bit into ACC. -/
  | opXor (bay : BitVec 6) (a : BitVec 24)
  /-- NOT (R353). Inverts ACC. -/
  | opNot (bay : BitVec 6)
  /-- APUSH (R353). Pushes ACC with tag AND. -/
  | opApush (bay : BitVec 6)
  /-- OPUSH (R353). Pushes ACC with tag OR. -/
  | opOpush (bay : BitVec 6)
  /-- POP (R353). Pops an entry and combines it with ACC by its tag. -/
  | opPop (bay : BitVec 6)
  /-- DUP (R353). Pushes ACC with tag NONE. -/
  | opDup (bay : BitVec 6)
  /-- RDS (R353). Reads the top stack bit into ACC. -/
  | opRds (bay : BitVec 6)
  /-- DROP (R353). Pops the top entry into ACC. -/
  | opDrop (bay : BitVec 6)
  /-- ST (R353). Stores ACC into an OUT or VAR bit. -/
  | opSt (bay : BitVec 6) (a : BitVec 24)
  /-- STN (R353). Stores the inverse of ACC into an OUT or VAR bit. -/
  | opStn (bay : BitVec 6) (a : BitVec 24)
  /-- SET (R353). Sets an OUT or VAR bit when ACC is 1. -/
  | opSet (bay : BitVec 6) (a : BitVec 24)
  /-- RST (R353). Clears an OUT or VAR bit when ACC is 1. -/
  | opRst (bay : BitVec 6) (a : BitVec 24)
  /-- RISE (R353). Detects a rising edge of ACC against an edge memory. -/
  | opRise (bay : BitVec 6) (a : BitVec 24)
  /-- FALL (R353). Detects a falling edge of ACC against an edge memory. -/
  | opFall (bay : BitVec 6) (a : BitVec 24)
  /-- TON (R355). Runs an on-delay timer on ACC. -/
  | opTon (bay : BitVec 6) (a : BitVec 24)
  /-- TOF (R355). Runs an off-delay timer on ACC. -/
  | opTof (bay : BitVec 6) (a : BitVec 24)
  /-- TP (R355). Runs a pulse timer on ACC. -/
  | opTp (bay : BitVec 6) (a : BitVec 24)
  /-- TRST (R353). Resets a timer when ACC is 1. -/
  | opTrst (bay : BitVec 6) (a : BitVec 24)
  /-- CTU (R353). Counts up on a rise of ACC. -/
  | opCtu (bay : BitVec 6) (a : BitVec 24)
  /-- CTD (R353). Counts down on a rise of ACC. -/
  | opCtd (bay : BitVec 6) (a : BitVec 24)
  /-- CRST (R353). Resets a counter when ACC is 1. -/
  | opCrst (bay : BitVec 6) (a : BitVec 24)
  /-- CLD (R353). Loads a counter with its preset when ACC is 1. -/
  | opCld (bay : BitVec 6) (a : BitVec 24)
  /-- CGE (R353). Compares a counter with its preset into ACC. -/
  | opCge (bay : BitVec 6) (a : BitVec 24)
  /-- JMPC (R353). Jumps forward when ACC is 1. -/
  | opJmpc (bay : BitVec 6) (a : BitVec 24)
  /-- JMPNC (R353). Jumps forward when ACC is 0. -/
  | opJmpnc (bay : BitVec 6) (a : BitVec 24)
  /-- JMP (R353). Jumps forward unconditionally. -/
  | opJmp (bay : BitVec 6) (a : BitVec 24)
  /-- END (R353). Ends the logic cycle. -/
  | opEnd (bay : BitVec 6)
  /-- LOCKSTEP_MISMATCH (R22). The halves of a cluster disagree; its outputs are withheld and its bays go to the
  standby. -/
  | lockstepMismatch (c : BitVec 3)
  /-- SRAM_ECC_CORRECTED (R23). A corrected SRAM error is counted against its window. -/
  | sramEccCorrected (u : BitVec 4)
  /-- SRAM_ECC_UNCORRECTABLE (R23). An uncorrectable SRAM error is handled as a lockstep mismatch. -/
  | sramEccUncorrectable (u : BitVec 4)
  /-- STANDBY_TAKEOVER (R28). The standby loads the sealed checkpoint, replays cycle n and releases cycle n+1. -/
  | standbyTakeover (c : BitVec 3)
  /-- STANDBY_REPLAY_MISMATCH (R392). A standby mismatch during takeover leaves the cluster uncovered and leads to
  SAFE. -/
  | standbyReplayMismatch (r : BitVec 2)
  /-- STANDBY_SELFTEST_MISMATCH (R27). A standby fails its self-test and is retired. -/
  | standbySelftestMismatch (r : BitVec 2)
  /-- SUPV_WATCHDOG_EXPIRY (R93). Xarik misses the watchdog service and a warm restart starts. -/
  | supvWatchdogExpiry
  /-- WARM_RESTART (R93). Reloads and verifies Xarik while protection continues. -/
  | warmRestart
  /-- WARM_RESTART_DONE (R93). Ends a warm restart, serving the rings again or entering SAFE on a failed image. -/
  | warmRestartDone (ok : Bool)
  /-- SUPV_LOCKSTEP_RESTART (R94). Restores the supervisor core from its last compared state. -/
  | supvLockstepRestart
  /-- COLD_RESTART (R91). Begins a cold restart into BOOT with tables, units and logic re-decided. -/
  | coldRestart (r : BootReport)
  /-- LASTING_FAULT_DECLARED (R529). A monitored count reaches N in its window and the fault becomes lasting. -/
  | lastingFaultDeclared (id : BitVec 5) (inst : BitVec 16)
  /-- LASTING_FAULT_CLEARED (R531). A lasting fault clears after its clearing time without an event. -/
  | lastingFaultCleared (id : BitVec 5) (inst : BitVec 16)
  /-- TRANSIENT_EPISODE_END (R532). A transient episode ends after a full window without reaching N. -/
  | transientEpisodeEnd (id : BitVec 5) (inst : BitVec 16)
  /-- FAULT_HANDLER (R533). Runs the Xarik handler of an open error, by severity and nesting. -/
  | faultHandler
  /-- PTP_SYNC_RX (R132). A Sync message yields an offset measurement that steers the addend or is refused over
  JUMP_THR. -/
  | ptpSyncRx (port : BitVec 2) (m : PtpEvent)
  /-- PTP_ANNOUNCE_RX (R134). An Announce message feeds BMCA and the grandmaster data sets. -/
  | ptpAnnounceRx (port : BitVec 2) (m : PtpAnnounce)
  /-- PTP_PDELAY_REQ_RX (R134). A Pdelay_Req is answered in hardware with a one-step Pdelay_Resp. -/
  | ptpPdelayReqRx (port : BitVec 2) (m : PtpEvent)
  /-- PTP_PDELAY_RESP_RX (R137). A Pdelay response yields a link delay measurement. -/
  | ptpPdelayRespRx (port : BitVec 2) (m : PtpEvent)
  /-- PTP_MESSAGE_TX (R133). Sends Announce, Sync or Pdelay_Req at its profile interval. -/
  | ptpMessageTx (port : BitVec 2) (kind : PtpKind)
  /-- PTP_ANNOUNCE_TIMEOUT (R131). announceReceiptTimeout expires and the PTP source is lost. -/
  | ptpAnnounceTimeout (port : BitVec 2)
  /-- PTP_SYNC_TIMEOUT (R131). No Sync for 3 intervals and the PTP source is lost. -/
  | ptpSyncTimeout (port : BitVec 2)
  /-- IRIG_FRAME (R140). An IRIG-B frame yields an offset measurement or is invalid. -/
  | irigFrame (m : IrigFrame)
  /-- IRIG_TIMEOUT (R131). No valid IRIG-B frame for 3 s and the source is lost. -/
  | irigTimeout
  /-- PPS_IN_EDGE (R141). A PPS_IN edge yields an offset modulo one second or is discarded. -/
  | ppsInEdge (t : Nat)
  /-- PPS_IN_TIMEOUT (R131). No PPS_IN edge for 2.5 s and the source is lost. -/
  | ppsInTimeout
  /-- TIME_SOURCE_SWITCH (R131). A higher-priority source locked for 10 s replaces the source in use. -/
  | timeSourceSwitch (src : BitVec 2)
  /-- TIME_SECOND_TICK (R129). Once per second recomputes the error bound and TQ and writes the RTC while LOCKED. -/
  | timeSecondTick
  /-- PPS_OUT_EDGE (R142). Drives PPS_OUT high at each TAI second for PPS_OUT_W. -/
  | ppsOutEdge
  /-- LEAP_SECOND (R126). Changes the UTC offset by one at the end of an announced UTC day. -/
  | leapSecond
  /-- GRID_SYNC_EDGE (R110). A PPS_IN or PTP 1 PPS edge gives a sync error that is accepted or refused. -/
  | gridSyncEdge (t : Nat)
  /-- GRID_SYNC_LOST (R113). No sync edge for 2.5 s and the grid sync state becomes lost. -/
  | gridSyncLost
  /-- CW_SYNC_PULSE (R117). A follower measures a CW_SYNC pulse, moves its boundary and may lock and align frames. -/
  | cwSyncPulse (t : Nat) (long : Bool)
  /-- CW_SYNC_LOSS (R118). No CW_SYNC pulse for 4 expected Milestones and the follower acts by FOLLOW_FB. -/
  | cwSyncLoss
  /-- CW_CLK_LOSS (R116). A follower whose CW_CLK fails falls back to REFCLK. -/
  | cwClkLoss
  /-- REF_PRIORITY_SWITCH (R107). A higher-priority reference valid for 2 s replaces the one in use. -/
  | refPrioritySwitch (k : BitVec 2)
  /-- GRID_HOLDOVER_TIMEOUT (R108). After HOLD_T in holdover with HOLD_MODE 1, f_grid slews to NOMINAL. -/
  | gridHoldoverTimeout
  /-- CAL_PHASE_END (R160). A calibration phase ends, its check is decided and the step advances or fails. -/
  | calPhaseEnd (g : BitVec 2) (m : CalMeas)
  /-- AUX_CONVERSION_DONE (R173). An auxiliary sequencer conversion completes and the entry advances. -/
  | auxConversionDone (code : AuxCode)
  /-- AUX_DELAY_END (R173). An entry's DELAY ends and the next sequencer entry starts. -/
  | auxDelayEnd
  /-- URG_EDGE (R176). A URG rising edge aborts a sequencer conversion and starts, latches or counts an urgent
  conversion. -/
  | urgEdge
  /-- URGENT_CONVERSION_DONE (R177). An urgent conversion completes and a latched one or the aborted conversion
  starts. -/
  | urgentConversionDone (code : AuxCode)
  /-- SV_FRAME_RX (R195). An SV frame is matched, verified, de-duplicated and its samples taken or discarded. -/
  | svFrameRx (f : SvFrame)
  /-- SV_SAMPLE_DEADLINE (R196). A sample not received by its deadline is missing and is held or made INV. -/
  | svSampleDeadline (ctx : BitVec 8)
  /-- SV_SYNC_LOSS_TIMEOUT (R197). An unsynchronised stream's words carry INV after SYNC_LOSS_T. -/
  | svSyncLossTimeout (ctx : BitVec 8)
  /-- SV_PUB_FRAME_TX (R208). Sends an SV publication frame carrying two samples. -/
  | svPubFrameTx (p : BitVec 3)
  /-- GOOSE_FRAME_RX (R212). A GOOSE frame is matched and checked and its state taken or discarded. -/
  | gooseFrameRx (f : GooseFrame)
  /-- GOOSE_TAL_EXPIRY (R214). The supervision deadline of a GOOSE context passes and its inputs become invalid. -/
  | gooseTalExpiry (ctx : BitVec 8)
  /-- GOOSE_RETRANSMIT (R218). Sends the next GOOSE frame of a publication on its retransmission schedule. -/
  | gooseRetransmit (i : BitVec 6)
  /-- PRP_SUPERVISION_TX (R184). Sends a PRP supervision frame every LIFE_CHECK. -/
  | prpSupervisionTx (pair : BitVec 1)
  /-- PRP_SUPERVISION_RX (R184). A received supervision frame updates the node table. -/
  | prpSupervisionRx (h : FrameHead)
  /-- DUPLICATE_ENTRY_FORGET (R186). A duplicate-discard entry expires after ENTRY_FORGET and a missing copy counts
  in FRAME_LOSS. -/
  | duplicateEntryForget (pair : BitVec 1) (src : BitVec 48) (seq : BitVec 16)
  /-- NODE_FORGET (R184). A node-table entry expires after NODE_FORGET. -/
  | nodeForget (pair : BitVec 1) (src : BitVec 48)
  /-- LINK_DOWN (R186). A NET port loses link and raises PORT_LOST. -/
  | linkDown (port : BitVec 2)
  /-- LINK_UP (R186). A NET port regains link. -/
  | linkUp (port : BitVec 2)
  /-- PORT_RECOVERED (R85). Link up and frame loss below threshold for 10 s clears PORT_LOST. -/
  | portRecovered (port : BitVec 2)
  /-- BI_EDGE (R385). A raw binary-input edge starts its debounce and is time-stamped. -/
  | biEdge (i : BitVec 6) (level : Bool) (t : Nat)
  /-- BI_DEBOUNCE_END (R385). A level held for the debounce time is accepted. -/
  | biDebounceEnd (i : BitVec 6)
  /-- RB_MISMATCH_START (R382). A readback difference lasting 20 µs starts a mismatch episode. -/
  | rbMismatchStart (p : BitVec 5) (level : Bool)
  /-- RB_MISMATCH_END (R382). Agreement for 20 µs ends a mismatch episode. -/
  | rbMismatchEnd (p : BitVec 5) (level : Bool)
  /-- TCS_ALARM (R383). A trip circuit unhealthy for TCS_T goes into alarm. -/
  | tcsAlarm (p : BitVec 5)
  /-- TCS_CLEAR (R383). A trip circuit healthy for TCS_T leaves alarm. -/
  | tcsClear (p : BitVec 5)
  /-- TCS_STALE (R383). No TCS result for 1 s makes the supervision STALE. -/
  | tcsStale (p : BitVec 5)
  /-- SYSTEM_TRIGGER_EDGE (R448). A TRIGIN or CW_TRG edge is time-stamped and triggers every armed region. -/
  | systemTriggerEdge (j : BitVec 3) (rising : Bool) (t : Nat)
  /-- TRIGGER_TIMEOUT (R445). A timeout condition fires after its level has held for T_MIN. -/
  | triggerTimeout (bay : BitVec 6) (c : BitVec 4)
  /-- RECORD_CLOSE (R455). A record closes after n_last, its measurements are written and IRQ_STAT.REC is set. -/
  | recordClose (r : BitVec 2)
  /-- AUTO_RECORD (R457). After AUTO_T without a record, the region opens one with cause 9. -/
  | autoRecord (r : BitVec 2)
  /-- CAIRN_SEAL (R493). The supervisor takes the next queued event, numbers it, seals it and writes it to MRAM. -/
  | cairnSeal
  /-- QUEUE_OVERFLOW_RECORD (R499). When the queue drains to 768, enters the overflow record of the lost events. -/
  | queueOverflowRecord
  /-- LOG_CHAIN_VERIFY (R502). From CONFIGURE verifies every seal of the log and records a chain break. -/
  | logChainVerify
  /-- USER_LOOP_UPDATE (R406). Runs one update of a user loop every 2^RATE_DIV Milestones. -/
  | userLoopUpdate (i : BitVec 5)
  /-- INJECTION_CAPTURE_DONE (R418). Writes the capture after its last point and gives the final completion of
  LOOP.INJECT. -/
  | injectionCaptureDone
  /-- TRACE_TRIGGER (R420). The trace trigger arrives and the remaining points are counted. -/
  | traceTrigger
  /-- TRACE_DONE (R420). The trace ends, writes its header and gives its final completion. -/
  | traceDone (overrun : Bool)
  /-- DMA_DESCRIPTOR_FETCHED (R475). A descriptor fetch completes and is checked; the channel chooses its direction
  or halts. -/
  | dmaDescriptorFetched (ch : BitVec 5) (err : Bool)
  /-- DMA_BEAT_DONE (R480). A read completion or write acknowledgement of a beat arrives. -/
  | dmaBeatDone (ch : BitVec 5) (write : Bool) (pos : Nat) (err : Bool)
  /-- DMA_WRITEBACK (R479). A completed descriptor is written back and the chain continues or halts. -/
  | dmaWriteback (ch : BitVec 5) (err : Bool)
  /-- DMA_ACCESS_TIMEOUT (R487). An access gets no response within its timeout. -/
  | dmaAccessTimeout (ch : BitVec 5) (a : DmaAccess)
  /-- DMA_ACCESS_RETRY (R487). A failed access is issued again 1 µs later or the channel halts. -/
  | dmaAccessRetry (ch : BitVec 5) (a : DmaAccess)
  /-- DMA_PACE_POLL (R485). A paced channel reads its count word every 1 µs and may resume. -/
  | dmaPacePoll (ch : BitVec 5) (err : Bool)
  /-- TAMPER_FIRE (R524). A tamper source fires and the device responds at its level. -/
  | tamperFire (j : BitVec 3)
  /-- TAMPER_REARM (R522). A tamper source re-arms after its condition has been absent for 1 s. -/
  | tamperRearm (j : BitVec 3)
  /-- TEST_END (R562). A self-test ends with its outcome and values and gives its final completion. -/
  | testEnd (m : List Int)
  /-- TEST_TRIP_PULSE_END (R564). The test pulse of TEST 4 ends at a boundary. -/
  | testTripPulseEnd
  /-- KOMIR_HELP (R554). Lists the console commands. -/
  | komirHelp
  /-- KOMIR_ID (R554). Shows identity, capabilities, DEV_UID and the firmware version. -/
  | komirId
  /-- KOMIR_STATUS (R554). Shows mode, boot code, reset source and causes. -/
  | komirStatus
  /-- KOMIR_BAUD (R548). Changes the UART rate after the OK line. -/
  | komirBaud (n : Nat)
  /-- KOMIR_ECHO (R549). Turns console echo on or off. -/
  | komirEcho (on : Bool)
  /-- KOMIR_UNLOCK_NONCE (R552). Issues a nonce, slot and CTR for unlocking. -/
  | komirUnlockNonce
  /-- KOMIR_UNLOCK_TOKEN (R552). Verifies an unlock token and unlocks the session, or refuses it after 1 s. -/
  | komirUnlockToken (slot : BitVec 8) (token : BitVec 64)
  /-- KOMIR_LOCK (R553). Locks the session and writes the session-ended record. -/
  | komirLock
  /-- KOMIR_CAPS (R554). Shows the units present and in service. -/
  | komirCaps
  /-- KOMIR_LOG (R554). Shows decoded Cairn records from its own position. -/
  | komirLog (seq : Option (BitVec 64)) (n : Option (BitVec 16))
  /-- KOMIR_SLICE (R554). Shows the status of one slice. -/
  | komirSlice (x : BitVec 8)
  /-- KOMIR_BAY (R554). Shows the measurands and element states of a bay. -/
  | komirBay (b : BitVec 8)
  /-- KOMIR_PINS (R554). Shows pin, readback and binary-input levels. -/
  | komirPins
  /-- KOMIR_TIME (R554). Shows time and grid status. -/
  | komirTime
  /-- KOMIR_SUPV (R554). Shows capacity and the source summary. -/
  | komirSupv
  /-- KOMIR_WMK (R558). Selects a Waymark output source from the console. -/
  | komirWmk (ch : BitVec 16) (kind : BitVec 4) (unit : BitVec 9) (sel : BitVec 8) (e : BitVec 8) (diff : Bool) (level : BitVec 12)
  /-- KOMIR_TEST (R562). Starts, stops or reads a self-test from the console. -/
  | komirTest (t : KomirTest)
  /-- KOMIR_LOOP (R554). Transfers a loop to manual with a value, or to automatic. -/
  | komirLoop (l : BitVec 16) (man : Option (BitVec 32))
  /-- KOMIR_RESTART_WARM (R557). Starts reset 0x07 at the next boundary. -/
  | komirRestartWarm
  /-- KOMIR_RESTART_COLD (R557). Asks for confirmation, then starts reset 0x04 on a second command within 10 s. -/
  | komirRestartCold
  /-- KOMIR_FWD (R556). In fatal BOOT, writes 64 image bytes into the active slot. -/
  | komirFwd (off : Nat) (data : Bytes)
  /-- KOMIR_FWE (R556). In fatal BOOT, checks the loaded image slot. -/
  | komirFwe
  /-- KOMIR_BREAK (R548). A break of 50 ms on SVC_RXD returns the rate to 115200 and ends the session. -/
  | komirBreak
  /-- KOMIR_IDLE_TIMEOUT (R553). An unlocked session ends after 900 s without a line. -/
  | komirIdleTimeout
  /-- KOMIR_NONCE_EXPIRY (R552). An unlock nonce expires 60 s after it was issued. -/
  | komirNonceExpiry
  /-- BOOT_COMPLETE (R73). The boot sequence reaches BOOT_CODE 0x0A; Xarik serves the rings and the device enters
  CONFIGURE. -/
  | bootComplete
  /-- RAILS_GOOD (R425). After a core-rail brown-out, every rail has been back in its band for 1 ms and BOOT begins. -/
  | railsGood (r : BootReport)
  /-- SUPV_LOCKSTEP_RESTART_DONE (R94). The supervisor lockstep restart ends within 5 ms; SUPV_RST clears, the rings
  are served again and the in-flight commands receive their final completions. -/
  | supvLockstepRestartDone
  /-- CLOCK_FAILURE (R128). The PLL loses both CW_CLK and REFCLK, or the time counter fails its self-test, and
  ClockFailure rises. -/
  | clockFailure (part : ClockPart)
  /-- PCIE_LINK_TRAINED (R59). The PCIe data link layer becomes active (DL_Active). -/
  | pcieLinkTrained
  /-- PCIE_LINK_LOST (R487). The PCIe data link layer leaves DL_Active, so that later space-1 accesses are bus
  errors and table reads fail with MEMORY. -/
  | pcieLinkLost
  /-- DISCARDED_FRAME_RX (R182). A frame with a bad FCS, an unaccepted EtherType or no matching context is received,
  counted and discarded, and in HSR forwarded. -/
  | discardedFrameRx (port : BitVec 2) (src : BitVec 48) (why : Discard)
  /-- PTP_FOLLOW_UP_RX (R133). A Follow_Up from a two-step master completes the offset measurement of its Sync. -/
  | ptpFollowUpRx (port : BitVec 2) (m : PtpEvent)
  /-- ENERGY_COUNTERS_SAVE (R270). Every 60 s the energy counters of every bay are saved to MRAM. -/
  | energyCountersSave
  /-- MEM_T_END (R297). MEM_T passes after the last update of V1_mem, and the positive-sequence memory may no longer
  polarise 67P. -/
  | memTEnd (bay : BitVec 6)
  /-- RI_HOLD_END (R312). RI_HOLD after a feeder start's dropout ends, and that feeder no longer holds off reverse
  interlock. -/
  | riHoldEnd (sect : BitVec 4)
  /-- DIE_TO_DIE_LINK_RETRY (R530). A die-to-die link retries a transfer and counts towards the lasting fault of
  source ID 6. -/
  | dieToDieLinkRetry (die : BitVec 1)
  /-- KOMIR_SYNTAX_ERROR (R549). A console line that is too long or not understood is discarded and answered ER 01
  SYNTAX. -/
  | komirSyntaxError
  deriving DecidableEq, Repr

end Sys2Proof
end

