-- ==== Sys2Proof/Machine/Bits.lean ====
section
/-! DEFINITION. Byte order, bit fields and sign of the layouts of the spec (R6, R7): every multi-byte field is
little-endian with bit 0 least significant, signed fields are two's complement. -/

namespace Sys2Proof.Machine

/-- Bits `[lo + w - 1 : lo]` of a number. -/
def bitsOf (x lo w : Nat) : Nat := (x >>> lo) % 2 ^ w

/-- The two's-complement value of the `w` low bits of `x` (R7). -/
def signedOf (x w : Nat) : Int := if (x % 2 ^ w) < 2 ^ (w - 1) then (x % 2 ^ w : Nat) else ((x % 2 ^ w : Nat) : Int) - (2 ^ w : Nat)

/-- The `w`-bit two's-complement code of an integer. -/
def codeOf (x : Int) (w : Nat) : Nat := (x % ((2 ^ w : Nat) : Int)).toNat

/-- The byte at an offset of a layout; a byte beyond the stored run is 0. -/
def byteAt (b : Bytes) (off : Nat) : Nat := (b.getD off 0#8).toNat

/-- `n` bytes from `off`, little-endian (R6). -/
def leAt (b : Bytes) (off : Nat) : Nat → Nat
  | 0 => 0
  | n + 1 => byteAt b off + 256 * leAt b (off + 1) n

/-- The field `[lo + w - 1 : lo]` of the 32-bit word at `off`. -/
def fld (b : Bytes) (off lo w : Nat) : Nat := bitsOf (leAt b off 4) lo w

def u16At (b : Bytes) (off : Nat) : Nat := leAt b off 2
def u32At (b : Bytes) (off : Nat) : Nat := leAt b off 4
def u64At (b : Bytes) (off : Nat) : Nat := leAt b off 8
def s16At (b : Bytes) (off : Nat) : Int := signedOf (u16At b off) 16
def s32At (b : Bytes) (off : Nat) : Int := signedOf (u32At b off) 32
def s64At (b : Bytes) (off : Nat) : Int := signedOf (u64At b off) 64
def bitAt (b : Bytes) (off i : Nat) : Bool := fld b off i 1 == 1

/-- The `n` little-endian bytes of a number (R6). -/
def leBytes : Nat → Nat → Bytes
  | 0, _ => []
  | n + 1, x => BitVec.ofNat 8 x :: leBytes n (x / 256)

/-- The `n` big-endian bytes of a number, for fields whose standard is big-endian (R6). -/
def beBytes (n x : Nat) : Bytes := (leBytes n x).reverse

/-- The number a run of big-endian bytes spells. -/
def beNat (b : Bytes) : Nat := b.foldl (fun a x => a * 256 + x.toNat) 0

/-- A run of `n` zero bytes. -/
def zeros (n : Nat) : Bytes := List.replicate n 0#8

/-- `b` cut or zero-padded to `n` bytes. -/
def padTo (n : Nat) (b : Bytes) : Bytes := (b ++ zeros (n - b.length)).take n

/-- `b` with the bytes `v` written at offset `off`. -/
def patch (b : Bytes) (off : Nat) (v : Bytes) : Bytes := b.take off ++ v ++ b.drop (off + v.length)

/-- `v` placed at the `w`-bit field that starts at bit `lo`. -/
def place (v lo w : Nat) : Nat := (v % 2 ^ w) <<< lo

/-- 1 for true: a flag as a one-bit field. -/
def flag (b : Bool) : Nat := if b then 1 else 0

/-- A 64-bit (or wider) set of units as a number, bit `i` set where `f i`. -/
def maskOf (n : Nat) (f : Nat → Bool) : Nat :=
  (List.range n).foldl (fun a i => if f i then a + 2 ^ i else a) 0

/-- Saturation of a counter at `2 ^ w - 1`. -/
def satN (w x : Nat) : Nat := min x (2 ^ w - 1)

/-- Saturation of a signed value to `w` bits. -/
def satZ (w : Nat) (x : Int) : Int :=
  max (-((2 ^ (w - 1) : Nat) : Int)) (min x (((2 ^ (w - 1) : Nat) : Int) - 1))

/-- Element `i` of a list with one element changed by `f`; indices beyond the list change nothing. -/
def modAt {α : Type} (l : List α) (i : Nat) (f : α → α) : List α := l.modify i f

/-- Lowest index below `n` whose predicate holds. -/
def findIdxBelow (n : Nat) (p : Nat → Bool) : Option Nat := (List.range n).find? p

/-- Integer division rounded to the nearest, ties away from zero. -/
def divRoundAway (a : Int) (b : Nat) : Int :=
  if 0 ≤ a then (2 * a + (b : Int)) / (2 * (b : Int)) else -((2 * (-a) + (b : Int)) / (2 * (b : Int)))

/-- Integer square root by binary search on `fuel` bits: the largest `r < 2 ^ fuel` with `r * r ≤ x`. -/
def isqrtBits (x : Nat) : Nat → Nat → Nat
  | 0, r => r
  | k + 1, r => let c := r + 2 ^ k; if c * c ≤ x then isqrtBits x k c else isqrtBits x k r

def isqrt (x : Nat) : Nat := isqrtBits x (Nat.log2 x / 2 + 1) 0

end Sys2Proof.Machine
end

