-- ==== Sys2Proof/Machine/Crypto.lean ====
section
/-! DEFINITION. The ciphers and signatures the spec names by their standards: AES (FIPS 197), AES key wrap (NIST SP
800-38F KW; R515), GMAC (NIST SP 800-38D; R187), and ECDSA P-256 (FIPS 186; R74, R519). -/

namespace Sys2Proof.Machine

/-! ### AES -/

/-- Multiplication by x in GF(2^8) modulo x^8 + x^4 + x^3 + x + 1. -/
def xtime (a : Nat) : Nat := if 128 ≤ a then ((2 * a) % 256) ^^^ 0x1B else 2 * a

/-- Product in GF(2^8); the count is the bits of `b` still to take. -/
def gmulBits : Nat → Nat → Nat → Nat
  | 0, _, _ => 0
  | n + 1, a, b => (if b % 2 == 1 then a else 0) ^^^ gmulBits n (xtime a) (b / 2)

def gmul (a b : Nat) : Nat := gmulBits 8 a b

/-- The inverse in GF(2^8), `a ^ 254`; 0 for 0. -/
def ginv (a : Nat) : Nat :=
  let a2 := gmul a a
  let a4 := gmul a2 a2
  let a8 := gmul a4 a4
  let a16 := gmul a8 a8
  let a32 := gmul a16 a16
  let a64 := gmul a32 a32
  let a128 := gmul a64 a64
  gmul a2 (gmul a4 (gmul a8 (gmul a16 (gmul a32 (gmul a64 a128)))))

def rotl8 (x k : Nat) : Nat := (x * 2 ^ k) % 256 + x / 2 ^ (8 - k)

def subByte (a : Nat) : Nat :=
  let b := ginv a
  b ^^^ rotl8 b 1 ^^^ rotl8 b 2 ^^^ rotl8 b 3 ^^^ rotl8 b 4 ^^^ 0x63

def invSubByte (a : Nat) : Nat := ginv (rotl8 a 1 ^^^ rotl8 a 3 ^^^ rotl8 a 6 ^^^ 5)

def xorList (a b : List Nat) : List Nat := List.zipWith (· ^^^ ·) a b

/-- Key expansion: words of four bytes, newest first, grown by `n`; `nk` is the key's length in words. -/
def expandKey (nk : Nat) : Nat → Nat → List (List Nat) → List (List Nat)
  | 0, _, w => w
  | n + 1, rcon, w =>
    let i := w.length
    let t := w.headD []
    let t' := if i % nk == 0 then
        (match t.map subByte with | [a, b, c, d] => [b ^^^ rcon, c, d, a] | l => l)
      else if nk == 8 && i % nk == 4 then t.map subByte else t
    expandKey nk n (if i % nk == 0 then xtime rcon else rcon) (xorList (w.getD (nk - 1) []) t' :: w)

def chunks (k : Nat) : Nat → List Nat → List (List Nat)
  | 0, _ => []
  | n + 1, l => l.take k :: chunks k n (l.drop k)

/-- The round keys, 16 bytes each, first round first. -/
def roundKeys (key : Bytes) : List (List Nat) :=
  let nk := key.length / 4
  let w0 := (chunks 4 nk (key.map BitVec.toNat)).reverse
  let w := (expandKey nk (4 * (nk + 7) - nk) 1 w0).reverse
  chunks 16 (nk + 7) w.flatten

/-- Byte `4 c + r` of a state is row `r`, column `c`. -/
def shiftRows (s : List Nat) : List Nat :=
  (List.range 16).map (fun i => s.getD ((i + 4 * (i % 4)) % 16) 0)
def invShiftRows (s : List Nat) : List Nat :=
  (List.range 16).map (fun i => s.getD ((i + 16 - 4 * (i % 4)) % 16) 0)

def mixWith (m : List Nat) (s : List Nat) : List Nat :=
  (List.range 16).map (fun i =>
    let c := 4 * (i / 4)
    (List.range 4).foldl (fun a j => a ^^^ gmul (m.getD ((j + 4 - i % 4) % 4) 0) (s.getD (c + j) 0)) 0)

def mixColumns : List Nat → List Nat := mixWith [2, 3, 1, 1]
def invMixColumns : List Nat → List Nat := mixWith [14, 11, 13, 9]

def toBytes (l : List Nat) : Bytes := l.map (BitVec.ofNat 8)

/-- AES encryption of one block. -/
def aesEncrypt (key block : Bytes) : Bytes :=
  match roundKeys key with
  | [] => block
  | k0 :: ks =>
    let s := xorList (block.map BitVec.toNat) k0
    let mid := ks.dropLast.foldl (fun s k => xorList (mixColumns (shiftRows (s.map subByte))) k) s
    toBytes (xorList (shiftRows (mid.map subByte)) (ks.getLastD []))

/-- AES decryption of one block. -/
def aesDecrypt (key block : Bytes) : Bytes :=
  match (roundKeys key).reverse with
  | [] => block
  | k0 :: ks =>
    let s := xorList (block.map BitVec.toNat) k0
    let mid := ks.dropLast.foldl (fun s k => invMixColumns (xorList ((invShiftRows s).map invSubByte) k)) s
    toBytes (xorList ((invShiftRows mid).map invSubByte) (ks.getLastD []))

/-- One step of KW unwrapping: counter value `t`, block number `i`. -/
def unwrapStep (kek : Bytes) (st : Bytes × List Bytes) (t i : Nat) : Bytes × List Bytes :=
  let a := List.zipWith (· ^^^ ·) st.1 (beBytes 8 t)
  let b := aesDecrypt kek (a ++ st.2.getD (i - 1) [])
  (b.take 8, st.2.set (i - 1) (b.drop 8))

/-- AES key unwrap: the key data, or none where the integrity value is wrong (R515). -/
def keyUnwrap (kek wrapped : Bytes) : Option Bytes :=
  let n := wrapped.length / 8 - 1
  let r := (List.range n).map (fun i => (wrapped.drop (8 * (i + 1))).take 8)
  let steps := ((List.range (6 * n)).map (· + 1)).reverse
  let (a, r) := steps.foldl (fun st t => unwrapStep kek st t ((t - 1) % n + 1)) (wrapped.take 8, r)
  if a == List.replicate 8 0xA6#8 then some r.flatten else none

/-! ### GMAC -/

/-- Product in GF(2^128) of GCM: bits most significant first. -/
def ghashMulBits : Nat → Nat → Nat → Nat → Nat
  | 0, _, _, z => z
  | n + 1, x, v, z =>
    let z := if x / 2 ^ n % 2 == 1 then z ^^^ v else z
    ghashMulBits n x (if v % 2 == 1 then (v / 2) ^^^ (0xE1 * 2 ^ 120) else v / 2) z

def ghashMul (x h : Nat) : Nat := ghashMulBits 128 x h 0

def ghash (h : Nat) : Nat → Bytes → Nat → Nat
  | 0, _, y => y
  | n + 1, b, y => ghash h n (b.drop 16) (ghashMul (y ^^^ beNat (padTo 16 b)) h)

/-- GMAC of a message: the 16-byte tag of GCM over additional data alone, with a 12-byte nonce. -/
def gmac (key nonce m : Bytes) : Bytes :=
  let h := beNat (aesEncrypt key (zeros 16))
  let y := ghash h ((m.length + 15) / 16) m 0
  let y := ghashMul (y ^^^ (8 * m.length * 2 ^ 64)) h
  List.zipWith (· ^^^ ·) (aesEncrypt key (nonce ++ beBytes 4 1)) (beBytes 16 y)

/-! ### ECDSA P-256 -/

/-- The prime of P-256, the order of its base point, its coefficient b, and its base point. -/
def p256P : Nat := 0xffffffff00000001000000000000000000000000ffffffffffffffffffffffff
def p256N : Nat := 0xffffffff00000000ffffffffffffffffbce6faada7179e84f3b9cac2fc632551
def p256B : Nat := 0x5ac635d8aa3a93e7b3ebbd55769886bc651d06b0cc53b0f63bce3c3e27d2604b
def p256G : Nat × Nat :=
  (0x6b17d1f2e12c4247f8bce6e563a440f277037d812deb33a0f4a13945d898c296,
   0x4fe342e2fe1a7f9b8ee7eb4a7c0f9e162bce33576b315ececbb6406837bf51f5)

/-- `a ^ e` modulo `m` over the low `n` bits of the exponent. -/
def powMod (m : Nat) : Nat → Nat → Nat → Nat
  | 0, _, _ => 1
  | n + 1, a, e => let r := powMod m n (a * a % m) (e / 2); if e % 2 == 1 then a * r % m else r

/-- The inverse modulo a prime. -/
def invMod (m a : Nat) : Nat := powMod m 256 (a % m) (m - 2)

def subMod (m a b : Nat) : Nat := (a + m - b % m) % m

/-- The sum of two points of the curve; none is the point at infinity. -/
def ecAdd : Option (Nat × Nat) → Option (Nat × Nat) → Option (Nat × Nat)
  | none, q => q
  | p, none => p
  | some (x1, y1), some (x2, y2) =>
    if x1 == x2 && (y1 + y2) % p256P == 0 then none
    else
      let l := if x1 == x2 then subMod p256P (3 * x1 * x1) 3 * invMod p256P (2 * y1) % p256P
        else subMod p256P y2 y1 * invMod p256P (subMod p256P x2 x1) % p256P
      let x := subMod p256P (subMod p256P (l * l) x1) x2
      some (x, subMod p256P (l * subMod p256P x1 x) y1)

def ecMul : Nat → Nat → Option (Nat × Nat) → Option (Nat × Nat)
  | 0, _, _ => none
  | n + 1, k, p => let r := ecMul n (k / 2) (ecAdd p p); if k % 2 == 1 then ecAdd p r else r

/-- A public key that is a point of the curve. -/
def onCurve (x y : Nat) : Bool :=
  decide (x < p256P ∧ y < p256P) && (y * y % p256P == subMod p256P (x * x * x + p256B) (3 * x))

/-- Verification of a signature, r then s, over a digest under a public key, X then Y (R519). -/
def ecdsaVerify (pub sig digest : Bytes) : Bool :=
  let x := beNat (pub.take 32)
  let y := beNat ((pub.drop 32).take 32)
  let r := beNat (sig.take 32)
  let t := beNat ((sig.drop 32).take 32)
  if !onCurve x y || r == 0 || t == 0 || decide (p256N ≤ r) || decide (p256N ≤ t) then false
  else
    let w := invMod p256N t
    let q := ecAdd (ecMul 256 (beNat digest * w % p256N) (some p256G)) (ecMul 256 (r * w % p256N) (some (x, y)))
    match q with
    | none => false
    | some (vx, _) => vx % p256N == r

end Sys2Proof.Machine
end

