-- ==== Sys2Proof/Machine/Angle.lean ====
section
/-! DEFINITION. Angles as fractions of a turn in fixed point: the arc tangent of a phasor and the cosine and sine of an
angle, by shifts and additions on integers. -/

namespace Sys2Proof.Machine

/-- One turn. -/
def turn : Int := 2 ^ 48

/-- The arc tangent of 2^-i in units of 2^-48 turn, i = 0 to 45. -/
def cordicTable : List Int :=
  [35184372088832, 20770547670515, 10974586953444, 5570871696862, 2796246208089, 1399486241028, 699913886760, 349978300884] ++
  [174991820497, 87496244017, 43748163730, 21874087080, 10937044192, 5468522177, 2734261099, 1367130551] ++
  [683565276, 341782638, 170891319, 85445659, 42722830, 21361415, 10680707, 5340354] ++
  [2670177, 1335088, 667544, 333772, 166886, 83443, 41722, 20861] ++
  [10430, 5215, 2608, 1304, 652, 326, 163, 81] ++
  [41, 20, 10, 5, 3, 1]

/-- The reciprocal of the gain of the 46 rotations, in units of 2^-60. -/
def cordicGain : Int := 700114967507363238

/-- Vectoring: turns (x, y) onto the positive x axis and answers the angle turned, in units of 2^-48 turn. -/
def vectoring : List Int → Nat → Int → Int → Int → Int
  | [], _, _, _, z => z
  | a :: t, i, x, y, z =>
    if 0 ≤ y then vectoring t (i + 1) (x + (y >>> i)) (y - (x >>> i)) (z + a)
    else vectoring t (i + 1) (x - (y >>> i)) (y + (x >>> i)) (z - a)

/-- The angle of (x, y) in units of 2^-48 turn, in (-2^47, 2^47]; the angle of (0, 0) is 0. -/
def angleOf (y x : Int) : Int :=
  if x = 0 ∧ y = 0 then 0
  else if 0 ≤ x then vectoring cordicTable 0 (x * 2 ^ 50) (y * 2 ^ 50) 0
  else if 0 ≤ y then turn / 2 - vectoring cordicTable 0 (-x * 2 ^ 50) (y * 2 ^ 50) 0
  else -(turn / 2) + vectoring cordicTable 0 (-x * 2 ^ 50) (-y * 2 ^ 50) 0

/-- An angle wrapped to (-2^47, 2^47]. -/
def wrapTurn (a : Int) : Int := let r := a % turn; if turn / 2 < r then r - turn else r

/-- Rotation: (x, y) turned by the angle z. -/
def rotation : List Int → Nat → Int → Int → Int → Int × Int
  | [], _, x, y, _ => (x, y)
  | a :: t, i, x, y, z =>
    if 0 ≤ z then rotation t (i + 1) (x - (y >>> i)) (y + (x >>> i)) (z - a)
    else rotation t (i + 1) (x + (y >>> i)) (y - (x >>> i)) (z + a)

/-- Cosine and sine of an angle in units of 2^-48 turn, in units of 2^-40. -/
def cosSin (a : Int) : Int × Int :=
  let w := wrapTurn a
  let q := turn / 4
  let r := if q < w then (w - turn / 2, true) else if w < -q then (w + turn / 2, true) else (w, false)
  let p := rotation cordicTable 0 cordicGain 0 r.1
  let c := (p.1 + 2 ^ 19) >>> (20 : Nat)
  let s := (p.2 + 2 ^ 19) >>> (20 : Nat)
  if r.2 then (-c, -s) else (c, s)

end Sys2Proof.Machine
end

