-- ==== Sys2Proof/Config.lean ====
section
/-! DEFINITION. What one part fixes: the variant's counts (R1), fused and factory values, and the free values, each an
opaque constant that nothing can evaluate (their log entries are named beside them). -/

namespace Sys2Proof

/-- The three variants of the family (R1). -/
inductive Variant where
  | k64 | k32 | k8
  deriving DecidableEq, Repr

namespace Variant

def bays : Variant → Nat | k64 => 64 | k32 => 32 | k8 => 8
def lanes (v : Variant) : Nat := 8 * v.bays
def clusters : Variant → Nat | k64 => 8 | k32 => 4 | k8 => 1
def standbys : Variant → Nat | k64 => 4 | k32 => 2 | k8 => 1
def regions : Variant → Nat | k64 => 4 | k32 => 2 | k8 => 1
def dies : Variant → Nat | k64 => 2 | _ => 1
def sections : Variant → Nat | k64 => 16 | k32 => 8 | k8 => 2
def svSubs : Variant → Nat | k64 => 256 | k32 => 128 | k8 => 32
def goosePubs : Variant → Nat | k64 => 64 | k32 => 32 | k8 => 8
def gooseSubs : Variant → Nat | k64 => 256 | k32 => 128 | k8 => 32
/-- DEV_ID.PART (Table: DEV_ID and DEV_CAPS0-DEV_CAPS3). -/
def part : Variant → Nat | k64 => 0x40 | k32 => 0x20 | k8 => 0x08
def pcieLanes : Variant → Nat | k8 => 1 | _ => 4
/-- Bit of the image header's VARIANTS (Table: Image header). -/
def imageBit : Variant → Nat | k64 => 0 | k32 => 1 | k8 => 2

end Variant

namespace Config

/-- Silicon stepping of the part, DEV_ID.STEP (per stepping). -/
opaque step : BitVec 4
/-- DEV_UID, a fused value different in every device (R511). -/
opaque devUid : BitVec 64
/-- SHA-256 of the signing public key, in the fuses (R74). -/
opaque keyHash : List (BitVec 8)
/-- Rounding the spec leaves open: whether the value `x / d` at place `k` is rounded up (log entry 3). -/
opaque roundUp : Nat → Int → Nat → Bool
/-- Free values: a number the spec leaves open at place `k`, for the operands given (log entry 4). -/
opaque freeInt : Nat → List Int → Int
/-- Free choices: a truth value the spec leaves open at place `k`, for the operands given (log entry 4). -/
opaque freeBool : Nat → List Int → Bool

end Config

end Sys2Proof
end

