-- ==== Sys2Proof/Machine/Real.lean ====
section
/-! DEFINITION. Real-number helpers in integers: binary32 encoding, logarithm and exponential of base 2, complex sums. The
formulas are evaluated with at least 40 fractional bits (log entry 14). -/

namespace Sys2Proof.Machine

/-- A quotient whose rounding the spec leaves open: its floor or its ceiling (log entry 3). -/
def roundOpen (k : Nat) (x : Int) (d : Nat) : Int :=
  if x % (d : Int) = 0 then x / (d : Int) else if Config.roundUp k x d then x / (d : Int) + 1 else x / (d : Int)

/-- IEEE 754 binary32 of `num / den`; the rounding of the last bit is left open (log entry 3). Values outside the range of
normal numbers become 0 or infinity. -/
def f32 (num : Int) (den : Nat) : Nat :=
  if num = 0 then 0
  else
    let s := if num < 0 then 2 ^ 31 else 0
    let a := num.natAbs
    let e : Int := (Nat.log2 a : Int) - (Nat.log2 den : Int)
    let scaled (e : Int) : Nat := (roundOpen 40 ((a * 2 ^ (if e < 23 then (23 - e).toNat else 0) : Nat) : Int)
      (den * 2 ^ (if 23 < e then (e - 23).toNat else 0))).toNat
    let e := if scaled e < 2 ^ 23 then e - 1 else e
    let m := scaled e
    let (m, e) := if 2 ^ 24 ≤ m then (m / 2, e + 1) else (m, e)
    if e < -126 then s else if 127 < e then s + 0x7F800000 else s + (e + 127).toNat * 2 ^ 23 + (m - 2 ^ 23)

/-- The square roots of 3 and 2 in steps of 2^-40. -/
def sqrt3 : Int := 1904410002820
def root2 : Int := 1554944255987

def cmul (a b : Int × Int) : Int × Int := (a.1 * b.1 - a.2 * b.2, a.1 * b.2 + a.2 * b.1)
def cshr (a : Int × Int) (k : Nat) : Int × Int := (a.1 / 2 ^ k, a.2 / 2 ^ k)

/-- Fractional bits of log2 of a number in [1, 2) given in 2^-64: `n` of them by repeated squaring. -/
def logBits : Nat → Nat → Nat → Nat
  | 0, _, acc => acc
  | n + 1, x, acc =>
    let y := x * x / 2 ^ 64
    if 2 ^ 65 ≤ y then logBits n (y / 2) (2 * acc + 1) else logBits n y (2 * acc)

/-- log2 of `num / den` in steps of 2^-48. -/
def log2Fix (num den : Nat) : Int :=
  let x := num * 2 ^ 64 / den
  let k := Nat.log2 x
  let m := if k ≤ 64 then x * 2 ^ (64 - k) else x / 2 ^ (k - 64)
  ((k : Int) - 64) * 2 ^ 48 + (logBits 48 m 0 : Nat)

/-- 2 to a fraction given in 2^-48 (its 48 bits from the top), in steps of 2^-64; `c` is 2^(2^-j) in 2^-64. -/
def expBits : Nat → Nat → Nat → Nat → Nat
  | 0, _, _, acc => acc
  | n + 1, x, c, acc =>
    let c := isqrt (c * 2 ^ 64)
    expBits n x c (if x / 2 ^ n % 2 == 1 then acc * c / 2 ^ 64 else acc)

/-- 2 to the power `x` (in 2^-48), in steps of 2^-64. -/
def exp2Fix (x : Int) : Nat :=
  let i := x / 2 ^ 48
  let m := expBits 48 (x % 2 ^ 48).toNat (2 ^ 65) (2 ^ 64)
  if 0 ≤ i then m * 2 ^ i.toNat else m / 2 ^ (-i).toNat

/-- The sum of `c i * e^(-2 pi j i num / den)` by Horner's rule, in 2^-40. -/
def horner (c : List Int) (num den : Nat) : Int × Int :=
  let z := cosSin (-((2 ^ 48 * (num % den) / den : Nat) : Int))
  c.foldr (fun k a => let b := cshr (cmul a z) 40; (b.1 + k * 2 ^ 40, b.2)) (0, 0)

end Sys2Proof.Machine
end

