-- ==== Sys2Proof/Machine/Memory.lean ====
section
/-! DEFINITION. Byte memories as canonical lists of cells: addresses strictly rising, no entry equal to what an unlisted
address reads as, which is the byte 0 (DESIGN CHOICE, log entry 1: the spec gives no power-on contents). -/

namespace Sys2Proof.Machine

abbrev Memory := List Host.Cell

/-- The byte at an address; an unlisted address reads 0 (DESIGN CHOICE, log entry 1). -/
def Memory.read : Memory → Nat → Byte
  | [], _ => 0
  | (a, v) :: m, x => if x = a then v else Memory.read m x

/-- The memory without an entry at `x`. -/
def Memory.erase : Memory → Nat → Memory
  | [], _ => []
  | (a, v) :: m, x => if x = a then m else (a, v) :: Memory.erase m x

/-- The memory with the entry `(x, v)` in its place. -/
def Memory.insert : Memory → Nat → Byte → Memory
  | [], x, v => [(x, v)]
  | (a, w) :: m, x, v =>
    if x = a then (x, v) :: m else if x < a then (x, v) :: (a, w) :: m else (a, w) :: Memory.insert m x v

/-- One byte written: writing 0 removes the entry, so that equal memories are equal lists. -/
def Memory.write (m : Memory) (x : Nat) (v : Byte) : Memory :=
  if v = 0 then m.erase x else m.insert x v

/-- Bytes written at rising addresses from `x`. -/
def Memory.writeBytes (m : Memory) : Nat → Bytes → Memory
  | _, [] => m
  | x, b :: bs => (m.write x b).writeBytes (x + 1) bs

/-- `n` bytes read at rising addresses from `x`. -/
def Memory.readBytes (m : Memory) (x : Nat) : Nat → Bytes
  | 0 => []
  | n + 1 => m.read x :: m.readBytes (x + 1) n

/-- The canonical form: addresses strictly rising, no listed byte 0. -/
def Memory.wf : Memory → Bool
  | [] => true
  | [(_, v)] => v != 0
  | (a, v) :: (b, w) :: m => v != 0 && decide (a < b) && Memory.wf ((b, w) :: m)

/-- The memories of the block: mailbox memory (128 KiB on chip), DDR4, and the host memory that lies behind PCIe. -/
structure Mems where
  mbx : Memory := []
  ddr : Memory := []
  host : Memory := []
  deriving DecidableEq, Repr

/-- All memories are in canonical form. -/
def Mems.wf (m : Mems) : Bool := m.mbx.wf && m.ddr.wf && m.host.wf

/-- The address spaces a buffer, ring, table or descriptor may name. -/
inductive Space where
  | mbx | ddr | host
  deriving DecidableEq, Repr

def Mems.read (m : Mems) : Space → Nat → Nat → Bytes
  | .mbx, a, n => m.mbx.readBytes a n
  | .ddr, a, n => m.ddr.readBytes a n
  | .host, a, n => m.host.readBytes a n

def Mems.write (m : Mems) : Space → Nat → Bytes → Mems
  | .mbx, a, b => { m with mbx := m.mbx.writeBytes a b }
  | .ddr, a, b => { m with ddr := m.ddr.writeBytes a b }
  | .host, a, b => { m with host := m.host.writeBytes a b }

end Sys2Proof.Machine
end

