-- ==== Sys2Proof/Machine/Clock.lean ====
section
/-! DEFINITION. The time base (R123, R124): the monotonic count and TAI advance together; one unit `u` of the model's
clock is 1/(9 * 2^32) ns, in which the addend of R123 (2^-32 ns) and a Milestone at 4800 Hz and at 5760 Hz are whole
numbers. A step (R145) changes the distance of TAI to the monotonic count and nothing else. -/

namespace Sys2Proof.Machine

/-- Units of the model's clock in one nanosecond. -/
def uPerNs : Nat := 9 * 2 ^ 32

def usU (us : Nat) : Nat := us * 1000 * uPerNs
def msU (ms : Nat) : Nat := ms * 1000000 * uPerNs
def secU (s : Nat) : Nat := s * 1000000000 * uPerNs

/-- The clocks: monotonic count, TAI's distance to it, and the Milestone in progress. -/
structure Clock where
  /-- monotonic count in units `u` since the power-on or brown-out reset (R124) -/
  mono : Nat := 0
  /-- TAI less the monotonic count, in units `u` -/
  taiOfs : Int := 0
  /-- addend per 4 ns tick in units of 2^-32 ns, within +-200 ppm (R123) -/
  addend : Int := 0
  /-- Milestone number (R97) -/
  ms : Nat := 0
  /-- monotonic time at which the Milestone in progress was opened -/
  openedAt : Nat := 0
  /-- length of the Milestone in progress in units `u`, as set at its opening -/
  len : Nat := 1875000 * 2 ^ 32
  /-- TAI of the Milestone in progress, in units `u` (R96) -/
  msTai : Nat := 0
  /-- SCLK runs: set at boot step 0x07 (R97) -/
  sclk : Bool := false
  deriving DecidableEq, Repr

/-- TAI in units `u` since the PTP epoch; never below 0. -/
def Clock.taiU (c : Clock) : Nat := ((c.mono : Int) + c.taiOfs).toNat

/-- TAI in whole nanoseconds (R123). -/
def Clock.taiNs (c : Clock) : Nat := c.taiU / uPerNs

/-- TAI seconds and nanoseconds (R127). -/
def Clock.taiSec (c : Clock) : Nat := (c.taiNs / 1000000000) % 2 ^ 48
def Clock.taiSubNs (c : Clock) : Nat := c.taiNs % 1000000000

/-- Monotonic count in whole nanoseconds, 64 bits (R124). -/
def Clock.monoNs (c : Clock) : Nat := (c.mono / uPerNs) % 2 ^ 64

/-- Short time: the low 32 bits of the TAI nanosecond count (R147). -/
def Clock.shortTime (c : Clock) : Nat := c.taiNs % 2 ^ 32

/-- One tick of the 250 MHz time counter: 4 ns plus the addend (R123). -/
def Clock.tickU (c : Clock) : Nat := (((4 * uPerNs : Nat) : Int) + 9 * c.addend).toNat

def Clock.tick (c : Clock) : Clock := { c with mono := c.mono + c.tickU }

/-- The count moved on to an instant; an instant already past is now (the count is never stepped back, R124). -/
def Clock.advance (c : Clock) (t : Nat) : Clock := { c with mono := max c.mono t }

/-- TAI stepped by a signed number of nanoseconds (R144); the monotonic count is untouched (R145). -/
def Clock.step (c : Clock) (ns : Int) : Clock := { c with taiOfs := c.taiOfs + ns * (uPerNs : Int) }

/-- TAI set so that it reads `ns` now (R125, R144). -/
def Clock.setTai (c : Clock) (ns : Nat) : Clock := { c with taiOfs := ((ns * uPerNs : Nat) : Int) - (c.mono : Int) }

/-- Length of one Milestone at a grid frequency given in units of 2^-26 Hz (R98). -/
def milestoneLen (f : Nat) : Nat := (1000000000 * uPerNs * 2 ^ 26) / (96 * f)

end Sys2Proof.Machine
end

