-- ==== Sys2Proof/Machine/StGrid.lean ====
section
/-! DEFINITION. State of the Milestone grid and of the time base's discipline (chapters "The Milestone grid and
frequency tracking" and "Network time and time-stamps"). -/

namespace Sys2Proof.Machine

/-- The command a later completion answers: ring, slot and tag. -/
structure CmdRef where
  ring : BitVec 2
  slot : BitVec 8
  tag : BitVec 8
  /-- carried out for the Komir console (R554), not for a ring -/
  console : Bool := false
  deriving DecidableEq, Repr

/-- The configuration GRID.MODE carries (Table: GRID.MODE arguments); defaults are the Boot column. -/
structure GridCfg where
  gmode : Nat := 0
  frate : Nat := 0
  syncSrc : Nat := 0
  cwLead : Bool := false
  nominal : Nat := 0
  holdMode : Bool := false
  followFb : Bool := false
  slew : Nat := 50
  /-- REF0-REF3 descriptors -/
  refs : List Nat := [0, 0, 0, 0]
  vmin : Nat := 50
  holdT : Nat := 10
  cwDlySync : Nat := 0
  cwDlyTrg : List Nat := [0, 0, 0, 0]
  syncOfs : Int := 0
  deriving DecidableEq, Repr

/-- Grid sync state (Table: Grid status, SYNC). -/
inductive SyncState where
  | none | acquiring | locked | lost
  deriving DecidableEq, Repr

def SyncState.code : SyncState → Nat
  | .none => 0 | .acquiring => 1 | .locked => 2 | .lost => 3

structure GridSt where
  cfg : GridCfg := {}
  /-- GRID.MODE into FOLLOW waits for its relock (R116): the configuration and the command -/
  relock : Option (GridCfg × CmdRef) := none
  /-- f_grid in units of 2^-26 Hz (R98, R415) -/
  fGrid : Nat := 50 * 2 ^ 26
  /-- loop 8: integrator and last output, 2^-26 Hz (R415, R109) -/
  loop8I : Int := 0
  loop8Last : Int := 0
  /-- loop 8's last update: Milestone, error, P term, and the feedback (R415, R422) -/
  loop8Ms : Nat := 0
  loop8E : Int := 0
  loop8P : Int := 0
  loop8Y : Int := 0
  /-- f_grid of the last 96 Milestones, newest first (R104) -/
  fHist : List Nat := []
  /-- reference phasors of REF0-REF3 at the last 96 Milestones, newest first -/
  refHist : List (List (Int × Int)) := [[], [], [], []]
  /-- f_ref of the reference in use, 2^-26 Hz; 0 when none -/
  fRef : Nat := 0
  refSel : Option Nat := none
  /-- validity of REF0-REF3 and the monotonic time since when each has been valid (R107) -/
  refValidSince : List (Option Nat) := [none, none, none, none]
  hold : Bool := false
  holdSince : Nat := 0
  toNominal : Bool := false
  slewLimited : Bool := false
  sync : SyncState := .none
  /-- last measured sync error, in units `u` and ns; none since the last change of SYNC_SRC -/
  err : Option Int := none
  refused : Bool := false
  /-- consecutive edges or pulses with |e| at most 100 ns -/
  lockCount : Nat := 0
  lastEdge : Nat := 0
  /-- correction of the boundary still to be made (units `u`), the Milestones left of the frame of 96 in progress and what
  is still to be moved in it (R111) -/
  corr : Int := 0
  corrLeft : Nat := 0
  corrFrame : Int := 0
  /-- a GRID.SYNC SLEW is under way (R114) -/
  slewing : Bool := false
  /-- a STEP takes effect in this Milestone: edges are discarded (R122) -/
  stepNow : Bool := false
  /-- SCLK rate trim in units of 0.001 ppm (R111) -/
  trim : Int := 0
  refusals : Nat := 0
  refSwitches : Nat := 0
  frameMismatch : Bool := false
  /-- PLL reference: true CW_CLK -/
  pllCw : Bool := false
  cwClkGood : Bool := false
  refclkGood : Bool := true
  /-- follower: the count is to be set at the next long pulse, and at the next boundary (R117) -/
  alignReq : Bool := false
  alignNow : Bool := false
  lastPulse : Option Nat := none
  /-- pulses have returned to a follower of a running mode and its rate has not reached theirs yet (R118) -/
  returning : Bool := false
  /-- what a leader drives: the clock at CW_CLK in Hz, 0 none, and the nanoseconds of the CW_SYNC pulse at the last boundary (R115) -/
  cwClkHz : Nat := 0
  cwPulseNs : Nat := 0
  deriving DecidableEq, Repr

/-- Time states (Table: Time states). -/
inductive TState where
  | free | hostset | locking | locked | holdover
  deriving DecidableEq, Repr

def TState.code : TState → Nat
  | .free => 0 | .hostset => 1 | .locking => 2 | .locked => 3 | .holdover => 4

/-- Board latencies of one NET port (Table: Time configuration block). -/
structure PortLat where
  rxLat : Nat := 0
  txLat : Nat := 0
  asym : Int := 0
  deriving DecidableEq, Repr

/-- The TIME.SOURCE block in force; defaults are its Reset column (R130). -/
structure TimeCfg where
  src : List Nat := [0, 0, 0]
  ptpPorts : Nat := 0
  profile : Nat := 0
  slaveOnly : Bool := true
  irigCode : Nat := 2
  irig1344 : Bool := false
  ppsOutEn : Bool := false
  domain : Nat := 0
  priority1 : Nat := 128
  priority2 : Nat := 128
  jumpThr : Nat := 1000
  utcOfs : Int := 37
  utcOfsValid : Bool := false
  ppsInDly : Nat := 0
  irigDly : Nat := 0
  holdDrift : Nat := 200
  ppsOutW : Nat := 100
  lat : List PortLat := List.replicate 4 {}
  deriving DecidableEq, Repr

/-- Lock progress of one source: PTP, IRIG-B, PPS_IN (Table: Source lock and loss). -/
structure SrcSt where
  /-- being acquired: it has delivered a measurement and is not lost -/
  live : Bool := false
  locked : Bool := false
  lockedSince : Nat := 0
  /-- consecutive measurements within the lock criterion -/
  good : Nat := 0
  /-- consecutive measurements above 1 us (R132) -/
  bad : Nat := 0
  offset : Int := 0
  lastAt : Nat := 0
  /-- source's own accuracy bound in ns (R129) -/
  inacc : Nat := 0
  deriving DecidableEq, Repr

/-- The data set an Announce carries, as BMCA compares it. -/
structure GmData where
  priority1 : Nat := 0
  clockClass : Nat := 0
  accuracy : Nat := 0
  variance : Nat := 0
  priority2 : Nat := 0
  identity : Nat := 0
  stepsRemoved : Nat := 0
  utcOfs : Int := 0
  utcValid : Bool := false
  leap61 : Bool := false
  leap59 : Bool := false
  totalInacc : Nat := 0
  sender : Nat := 0
  deriving DecidableEq, Repr

/-- One port of the PTP pair (R135). -/
structure PtpPort where
  /-- IEEE 1588-2019 portState -/
  portState : Nat := 3
  foreign : Option GmData := none
  announceAt : Nat := 0
  syncAt : Nat := 0
  /-- sequenceId and receive time of a two-step Sync that waits for its Follow_Up -/
  twoStep : Option (Nat × Int × Int) := none
  /-- the Pdelay_Req sent last: sequenceId and departure time -/
  pdelayReq : Option (Nat × Int) := none
  seqAnnounce : Nat := 0
  seqSync : Nat := 0
  seqPdelay : Nat := 0
  /-- monotonic times of the last Announce, Sync and Pdelay_Req sent -/
  announceTx : Option Nat := none
  syncTx : Option Nat := none
  pdelayTx : Option Nat := none
  linkDelay : Int := 0
  linkDelayKnown : Bool := false
  offset : Int := 0
  deriving DecidableEq, Repr

/-- A PTP message that leaves a NET port (R133-R137): its kind (1588 messageType: 0 Sync, 2 Pdelay_Req, 3 Pdelay_Resp, 11 Announce),
Ethernet addressing, domain and sequence, the times written on departure in 0.1 ns, and what an Announce carries. -/
structure PtpTx where
  port : Nat
  kind : Nat
  dst : Nat
  etherType : Nat := 0x88F7
  domain : Nat
  seq : Nat
  origin : Int := 0
  correction : Int := 0
  announce : Option GmData := none
  /-- totalTimeInaccuracy of the IEEE_C37_238 TLV and the offset of the ALTERNATE_TIME_OFFSET_INDICATOR TLV, in that profile only -/
  c37 : Option (Nat × Int) := none
  deriving DecidableEq, Repr

structure TimeSt where
  cfg : TimeCfg := {}
  /-- a TIME.SOURCE has been accepted since the last cold restart -/
  configured : Bool := false
  state : TState := .free
  /-- source in use: 0 none, 1 PTP, 2 IRIG-B, 3 PPS_IN -/
  used : Nat := 0
  ptp : SrcSt := {}
  irig : SrcSt := {}
  pps : SrcSt := {}
  /-- PTP has locked at least once since it became the source in use (R110) -/
  ptpLockedOnce : Bool := false
  ptpSecond : Bool := false
  ports : List PtpPort := [{}, {}]
  activePort : Option Nat := none
  /-- consecutive Syncs with the two ports more than 1 us apart (R135) -/
  portsApart : Nat := 0
  pending : Option Int := none
  /-- a TIME.SOURCE of the boundary in progress has discarded the pending offset (R146) -/
  pendCut : Bool := false
  utcOfs : Int := 37
  utcValid : Bool := false
  leap61 : Bool := false
  leap59 : Bool := false
  stepCnt : BitVec 8 := 0
  clockFailure : Bool := false
  counterOk : Bool := true
  /-- error bound in ns, none while unknown (R129) -/
  bound : Option Nat := none
  /-- the last bound of LOCKED, from which HOLDOVER starts, and the source locked to then (R129, R134) -/
  lockedBound : Option Nat := none
  lockedTo : Nat := 0
  /-- a reset has made LOCKED into HOLDOVER; its record is written at boot step 0x09 (R125, R149) -/
  fellBack : Bool := false
  /-- the last 16 offset measurements, newest first -/
  offsets : List Int := []
  refusedOfs : Nat := 0
  srcSwitches : Nat := 0
  /-- the backup RTC: its seconds when last written, and the monotonic time of that write -/
  rtcSec : Nat := 0
  rtcAt : Nat := 0
  ppsOut : Bool := false
  ppsOutAt : Option Nat := none
  ppsOmitted : Nat := 0
  ppsInDiscards : Nat := 0
  ppsInAt : Option Nat := none
  /-- UTC second of the last IRIG-B frame -/
  irigPrev : Option Int := none
  lastOffset : Int := 0
  deriving DecidableEq, Repr

end Sys2Proof.Machine
end

