-- ==== Sys2Proof/Machine/StAcq.lean ====
section
/-! DEFINITION. State of the protection slices, their background calibration and the auxiliary converter (chapter "Local
acquisition: protection slices and auxiliary converter"). -/

namespace Sys2Proof.Machine

/-- One slice (0-47) or spare (48-50). Calibration results per gain: OFS_CAL in 1/256 LSB, GC_CAL in 0.01 ppm (R158). -/
structure SliceSt where
  ofs : List Int := [0, 0, 0]
  gc : List Int := [0, 0, 0]
  /-- monotonic time of the last step that passed -/
  calAt : Nat := 0
  retired : Bool := false
  ovrCnt : Nat := 0
  clipCnt : Nat := 0
  calFails : Nat := 0
  calSteps : Nat := 0
  deriving DecidableEq, Repr

/-- The rotation of one group (R160-R164). -/
structure CalGroup where
  /-- slice of the group whose step runs, 0-15, and its phase 1-4 -/
  idx : Nat := 0
  phase : Nat := 1
  /-- monotonic time at which the phase began -/
  begun : Nat := 0
  /-- the step found its slice parked: no shadow, no substitution, no return (R160) -/
  idle : Bool := false
  /-- results of the step, per gain, not yet in use -/
  ofsNew : List Int := [0, 0, 0]
  gcNew : List Int := [0, 0, 0]
  /-- what the phase in progress has measured: it ends at the first boundary at or after its nominal end -/
  due : Option CalMeas := none
  /-- the slice to which the spare is bound for good (R164) -/
  bound : Option Nat := none
  deriving DecidableEq, Repr

/-- A result of the auxiliary converter (Table: Auxiliary results), or the one in progress. -/
structure AuxResult where
  input : Nat := 0
  sum : Nat := 0
  min : Nat := 0
  max : Nat := 0
  last : Nat := 0
  pass : Nat := 0
  time : Nat := 0
  n : Nat := 0
  aborts : Nat := 0
  deriving DecidableEq, Repr

structure AuxEntry where
  input : Nat
  repeat_ : Nat
  delay : Nat
  deriving DecidableEq, Repr

/-- What AUX.SEQ loads (R171); the default is the boot table (R172). -/
structure AuxCfg where
  entries : List AuxEntry := [⟨16, 15, 1000⟩, ⟨17, 15, 1000⟩, ⟨18, 15, 1000⟩, ⟨19, 15, 1000⟩]
  lowPwr : Bool := false
  urgInput : Nat := 0
  urgEn : Bool := false
  /-- result block: address with LOC in bit 0; 0 none -/
  block : Nat := 0
  deriving DecidableEq, Repr

/-- One source of urgent requests: the URG pin (0) or the brown-out sense (1) (R175-R177). -/
structure UrgentSt where
  pending : Bool := false
  latched : Bool := false
  latchedCount : Nat := 0
  overruns : Nat := 0
  code : Nat := 0
  time : Nat := 0
  n : Nat := 0
  deriving DecidableEq, Repr

structure AuxSt where
  cfg : AuxCfg := {}
  entry : Nat := 0
  /-- the boot table's first entry: input 16, pass 1, no code yet -/
  cur : AuxResult := { input := 16, pass := 1, min := 4095 }
  /-- a sequencer conversion runs, or has been aborted and is to start again -/
  converting : Bool := true
  aborted : Bool := false
  /-- its result is to be discarded (R172) -/
  discard : Bool := false
  /-- monotonic time at which the sequencer conversion in progress has started, and at which it ends -/
  convAt : Nat := 0
  convEnd : Nat := 36000 * 2 ^ 32
  /-- the entry's delay runs until this monotonic time -/
  delayEnd : Option Nat := none
  pass : Nat := 1
  /-- results of the entries, and the two urgent ones -/
  results : List AuxResult := List.replicate 64 {}
  /-- latest code of each input, and the latest MEAN with its monotonic time -/
  latest : List Nat := List.replicate 20 0
  means : List (Option (Nat × Nat)) := List.replicate 20 none
  urgent : List UrgentSt := [{}, {}]
  urgRunning : Option Nat := none
  /-- monotonic time at which the urgent conversion in progress has started, and at which it ends -/
  urgAt : Nat := 0
  urgEnd : Nat := 0
  /-- Milestone of the last write of each slot of the result block (64 and 65 the urgent ones), and slots that wait -/
  wroteMs : List (Option Nat) := List.replicate 66 none
  dirty : List Bool := List.replicate 66 false
  deriving DecidableEq, Repr

structure AcqSt where
  slices : List SliceSt := List.replicate 51 {}
  groups : List CalGroup := List.replicate 3 {}
  /-- Milestones of STL and of INV that a lane still has from a change of its input (R167, R168) -/
  laneStl : List Nat := List.replicate 512 0
  laneInv : List Nat := List.replicate 512 0
  deriving DecidableEq, Repr

end Sys2Proof.Machine
end

