-- ==== Sys2Proof/Machine/StMode.lean ====
section
/-! DEFINITION. Operating-mode state (chapter "Operating modes, start-up and restart") and the roles of clusters and
standbys. Defaults are the values right after reset: BOOT, BOOT_CODE 0x00. -/

namespace Sys2Proof.Machine

/-- The operating modes (R39); BACKUP has no DEV_STATE code. -/
inductive Mode where
  | backup | boot | configure | commission | service | rideThrough | degraded | safe
  deriving DecidableEq, Repr

/-- DEV_STATE.MODE codes (Table: DEV_STATE). -/
def Mode.code : Mode → Nat
  | .backup => 0 | .boot => 1 | .configure => 2 | .commission => 3 | .service => 4
  | .rideThrough => 5 | .degraded => 6 | .safe => 7

/-- Modes in which protection cycles run (R39). -/
def Mode.runs : Mode → Bool
  | .commission | .service | .rideThrough | .degraded | .safe => true
  | _ => false

/-- Modes that accept configuration-changing commands (R68). -/
def Mode.configurable : Mode → Bool
  | .configure | .commission | .service | .degraded => true
  | _ => false

/-- A standby cluster (Table: SYS.CAPS result, STBY). -/
inductive StbyState where
  | absent | ready | inUse (covers : BitVec 1) | retired
  deriving DecidableEq, Repr

/-- An active cluster: in service, its role held by its standby, left without cover after a fault, or out of service since
boot step 0x06 with no standby to take its role (R75). -/
inductive ClusterState where
  | active | covered | uncovered | outOfService
  deriving DecidableEq, Repr

/-- A takeover under way for one cluster (R28): its fault was detected in Milestone `ms` (kind as in R390), its standby
replays that Milestone's cycle, or the standby that holds its role has failed. -/
inductive Takeover where
  | none | failed (kind ms : Nat) | replaying (ms : Nat) | lost (kind ms : Nat)
  deriving DecidableEq, Repr

/-- A restart accepted and waiting for its boundary (R90, R557); the source code is that of Table: Reset effects. -/
structure RestartReq where
  src : Nat
  /-- the SYS.RESTART whose completion entry must have been written first -/
  cmd : Option CmdRef := none
  deriving DecidableEq, Repr

structure ModeSt where
  mode : Mode := .boot
  prev : Mode := .boot
  bootCode : BitVec 8 := 0
  /-- a fatal boot failure holds the device in BOOT (R75) -/
  fatal : Bool := false
  mbReady : Bool := false
  supvRst : Bool := false
  resetSrc : Nat := 0
  fallback : Bool := false
  /-- DEG_CAUSE bits 3:0 (Table: DEGRADED causes) -/
  deg : BitVec 4 := 0
  /-- SAFE_CAUSE bits 4:0, raised or held (Table: SAFE causes) -/
  safe : BitVec 5 := 0
  /-- Milestone number of the last mode change (R95) -/
  modeMs : Nat := 0
  warmRestarts : Nat := 0
  supvRestarts : Nat := 0
  /-- BAY.BEH overrides in force, 0 none (R81) -/
  override : List Nat := List.replicate 64 0
  /-- effective behaviour in force at entry to SAFE (R82) -/
  safeBeh : List Nat := List.replicate 64 0
  /-- bays driven by their fail-safe policy (R88) -/
  fsActive : List Bool := List.replicate 64 false
  restart : Option RestartReq := none
  /-- entry to SAFE waits for the boundary (R69, R86): the bit of the first cause -/
  safePend : Option Nat := none
  /-- a warm restart reloads and verifies Xarik: its source (R93) -/
  warm : Option Nat := none
  clusters : List ClusterState := List.replicate 8 .active
  standbys : List StbyState := List.replicate 4 .ready
  tko : List Takeover := List.replicate 8 .none
  /-- standbys parked on hold-up (R433), and those that take the checkpoint after it (R434) -/
  parked : List Bool := List.replicate 4 false
  unparking : List Bool := List.replicate 4 false
  deriving DecidableEq, Repr

end Sys2Proof.Machine
end

