-- ==== Sys2Proof/Machine/StChain.lean ====
section
/-! DEFINITION. State of the lanes' filter and decimation chains and of their estimators (chapter "Filter and decimation
chain"). Histories are lists, newest first. -/

namespace Sys2Proof.Machine

/-! Quality bits (R11). -/

namespace Qb
def ovr : Nat := 1
def stl : Nat := 2
def sub : Nat := 4
def hld : Nat := 8
def rsm : Nat := 16
def tst : Nat := 32
def qst : Nat := 64
def inv : Nat := 128
end Qb

/-- A word of a chain: its 24-bit value and its quality. A word that was never produced is 0 with INV. -/
structure QW where
  v : Int := 0
  q : Nat := 128
  deriving DecidableEq, Repr

/-- A record-tap word or lane word with the grid angle of its analogue instant, in 2^-48 turn (R247). -/
structure TW where
  v : Int := 0
  q : Nat := 128
  th : Nat := 0
  deriving DecidableEq, Repr

/-- A phasor: RMS, real and imaginary, in 2^-8 of a lane LSB, and its quality (R248). -/
structure Phasor where
  re : Int := 0
  im : Int := 0
  q : Nat := 128
  deriving DecidableEq, Repr

structure LaneSt where
  /-- slice samples before the Milestone in progress -/
  samples : List QW := []
  /-- stage-0 words, stage-2 input words (record rate), stage-2 output words -/
  s0 : List QW := []
  s1 : List QW := []
  s2 : List QW := []
  /-- record tap and lane words -/
  tap : List TW := []
  words : List TW := []
  /-- fine phasors with FINE_MODE 0 and 1: both are computed at every Milestone (R246) -/
  fineDft : Phasor := {}
  fineCos : Phasor := {}
  /-- fast phasors of the four record words of the Milestone, oldest first -/
  fast : List Phasor := [{}, {}, {}, {}]
  /-- words of the monitor tap in the Milestone, oldest first: four at MON_DIV 0, else one (R224) -/
  monitor : List QW := [{}]
  /-- the same as released with the cycle before (R404) -/
  monRel : List QW := [{}]
  /-- stages that mark STL on the words of the Milestone in progress (R253) -/
  mark : List Bool := List.replicate 5 false
  sat : List Bool := List.replicate 5 false
  satCnt : Nat := 0
  /-- Milestone until which an output carries STL from a synchronising reset (R252) -/
  fillEnd : Nat := 0
  d4 : Nat := 0
  front : Nat := 0
  /-- what a command did to the chain at the last boundary is in it: a replay of the Milestone's words starts from here (R28) -/
  touched : Bool := false
  deriving DecidableEq, Repr

/-- A user coefficient set: its coefficients and the delay and gain computed at its load (R242). -/
structure CoefSet where
  c : List Int := []
  delay : Nat := 0
  gain : Nat := 0
  deriving DecidableEq, Repr

/-- The chain of one cluster (R240-R243). -/
structure ChainSt where
  running : Bool := true
  t12 : Bool := false
  /-- user sets: stage 1 set 1, stage 3 sets 2 and 3 -/
  user : List CoefSet := [{}, {}, {}]
  deriving DecidableEq, Repr

/-- The context of one lane's Milestone: its entry, its cluster's chain, its delays and the Milestone's number and length. -/
structure LaneCtx where
  b : Bytes
  ch : ChainSt
  lane : Nat
  ms : Nat
  len : Nat
  stl : Bool
  inv : Bool
  front : Nat
  align : Nat
  deriving DecidableEq, Repr

/-- What the I/O die delivers to a lane's cluster in one Milestone (R15, R223): stage-0 words with the mark that the limit of stage 0
acted, resampler words, or nothing. -/
inductive LaneWords where
  | stage0 (l : List (QW × Bool))
  | resampled (l : List QW)
  | none
  deriving DecidableEq, Repr

structure FiltSt where
  lanes : List LaneSt := List.replicate 512 {}
  chains : List ChainSt := List.replicate 8 {}
  deriving DecidableEq, Repr

end Sys2Proof.Machine
end

