-- ==== Sys2Proof/Machine/StLog.lean ====
section
/-! DEFINITION. State of the Cairn event log, of supervision and of keys, tamper monitor and firmware slots (chapters
"Cairn event log", "Supervision, fault counting and capacity", "Keys, authorisation and tamper response"). -/

namespace Sys2Proof.Machine

/-- An event as it stands in the hardware event queue (R491, R492): everything of its record but SEQ and SEAL. -/
structure Event where
  taiSec : Nat := 0
  taiNs : Nat := 0
  tq : Nat := 0
  replay : Bool := false
  direct : Bool := false
  pwrCycles : Nat := 0
  opMin : Nat := 0
  source : Nat := 0
  stepCnt : Nat := 0
  code : Nat := 0
  unit : Nat := 0
  data : Bytes := []
  /-- the cleared record of an EVT.CLEAR: the command and its key slot (R507) -/
  clear : Option (CmdRef × Nat) := none
  deriving DecidableEq, Repr

/-- Events lost to a full queue and not yet entered as an overflow record (R499). -/
structure Overflow where
  count : Nat
  firstSource : Nat
  firstMs : Nat
  lastMs : Nat
  /-- the first lost event, for its time -/
  first : Event
  deriving DecidableEq, Repr

structure LogSt where
  /-- the event queue, oldest first (R498) -/
  queue : List Event := []
  /-- time records of the Milestone in progress, which follow its grid records (R149) -/
  timeRecs : List Event := []
  overflow : Option Overflow := none
  /-- the sealed records of the ring, newest first, 64 bytes each (R501) -/
  records : List Bytes := []
  headSeq : Nat := 0
  /-- LOG_START, kept in MRAM -/
  logStart : Nat := 1
  readMark : Nat := 1
  wm : Nat := 256
  lostTotal : Nat := 0
  ovfRecords : Nat := 0
  clearDenied : Nat := 0
  chainBreaks : Nat := 0
  overwrittenUnread : Nat := 0
  /-- copies in MRAM of the power-cycle count and operating minutes (R440) -/
  pwrCopy : Nat := 0
  opCopy : Nat := 0
  pwrCycles : Nat := 0
  opMin : Nat := 0
  deriving DecidableEq, Repr

/-- One monitored instance (R529): its events in the window and its lasting or episode state. -/
structure FaultInst where
  id : Nat
  inst : Nat
  /-- monotonic instants (or the source's own unit) of the events in the window, newest first -/
  events : List Nat := []
  lasting : Bool := false
  since : Nat := 0
  lastEvent : Nat := 0
  /-- a transient episode is open, with its peak count -/
  episode : Bool := false
  peak : Nat := 0
  /-- time of the last episode record and the episodes since it (R532) -/
  recAt : Option Nat := none
  folded : Nat := 0
  deriving DecidableEq, Repr

/-- An open error (R533); the first in handling order is the one whose handler runs. -/
structure OpenError where
  id : Nat
  sev : Nat
  inst : Nat
  nested : Bool
  begun : Bool := false
  deriving DecidableEq, Repr

/-- Totals of one source since the cold restart (Table: Source summary). -/
structure SrcTotals where
  events : Nat := 0
  lasting : Nat := 0
  episodes : Nat := 0
  deriving DecidableEq, Repr

/-- Outcome counters of one service class (R541). -/
structure ClassCount where
  delayed : Nat := 0
  refused : Nat := 0
  dropped : Nat := 0
  deriving DecidableEq, Repr

structure SupvSt where
  insts : List FaultInst := []
  totals : List SrcTotals := List.replicate 23 {}
  /-- open errors in handling order -/
  open_ : List OpenError := []
  /-- declarations of the instant in progress: ID, instance, count in the window (R536) -/
  batch : List (Nat × Nat × Nat) := []
  depthMax : Nat := 0
  nested : Nat := 0
  preempts : Nat := 0
  handlerLost : Nat := 0
  classes : List ClassCount := List.replicate 7 {}
  deriving DecidableEq, Repr

/-- One key slot (R509, R510). -/
structure KeySlot where
  use : Nat := 0
  alg : Nat := 0
  key : Bytes := []
  ctr : Nat := 0
  kcv : Nat := 0
  loadSec : Nat := 0
  /-- copy of CTR in MRAM (R510) -/
  ctrMram : Nat := 0
  deriving DecidableEq, Repr

/-- The tamper policy (Table: Tamper policy block); defaults are its Reset column. -/
structure TamperPolicy where
  level : List Nat := List.replicate 7 0
  en : List Bool := List.replicate 7 true
  pol : List Bool := List.replicate 7 false
  pinFilt : Nat := 100
  bfN : Nat := 5
  bfW : Nat := 10
  deriving DecidableEq, Repr

/-- One firmware image slot of MRAM (R519, R520). -/
structure FwSlot where
  image : Bytes := []
  valid : Bool := false
  /-- a load is under way: the bytes loaded so far are `image` -/
  loading : Bool := false
  deriving DecidableEq, Repr

structure SecSt where
  slots : List KeySlot := List.replicate 32 {}
  /-- keys SV and GOOSE use: what the slots held at the last boundary (R515, R517) -/
  lineKeys : List KeySlot := List.replicate 32 {}
  setAuth : Bool := false
  keysLost : Bool := false
  authFails : Nat := 0
  /-- AUTH completions since the last AUTH_FAIL record, and its time (R514) -/
  authSince : Nat := 0
  authRecAt : Option Nat := none
  policy : TamperPolicy := {}
  tlatch : List Bool := List.replicate 7 false
  l2 : Bool := false
  tactive : List Bool := List.replicate 7 false
  /-- a source re-arms once its condition has been absent for 1 s (R522) -/
  tarmed : List Bool := List.replicate 7 true
  /-- a source whose condition still stands fires again 1 s after the clear (R526): not before this instant -/
  tnotBefore : List Nat := List.replicate 7 0
  tfirst : Nat := 0
  /-- firings in BACKUP whose records are written at boot step 0x09 (R525) -/
  tpendRec : List Nat := []
  /-- instants of the failed console unlocks in the window BF_W (R522) -/
  bfTimes : List Nat := []
  fw : List FwSlot := List.replicate 2 {}
  active : Nat := 0
  minSvn : Nat := 0
  /-- FW.LOAD with FINAL waiting for its verification: the command -/
  verify : Option CmdRef := none
  /-- FW.ACTIVATE with COMMIT waiting for the restarted image to verify -/
  commit : Bool := false
  deriving DecidableEq, Repr

end Sys2Proof.Machine
end

