-- ==== Sys2Proof/Machine/StNet.lean ====
section
/-! DEFINITION. State of the NET ports and of the process-bus engines (chapter "Process bus: sampled values, GOOSE and
redundancy"). -/

namespace Sys2Proof.Machine

/-- The Reset column of the port set block: ENTRY_FORGET 400, LIFE_CHECK 2000, NODE_FORGET 60 (R179). -/
def portSetReset : Bytes := zeros 0x28 ++ leBytes 2 400 ++ leBytes 2 2000 ++ leBytes 2 60 ++ zeros 18

structure NetPort where
  link : Bool := false
  /-- the port keeps the cause PORT_LOST raised; since when it has been sound (R85) -/
  lost : Bool := false
  soundAt : Nat := 0
  /-- instants of the last 32 FCS errors and lost frames, newest first (R85, R222) -/
  errs : List Nat := []
  fcsErr : Nat := 0
  other : Nat := 0
  noMatch : Nat := 0
  frameLoss : Nat := 0
  deriving DecidableEq, Repr

/-- An entry of duplicate discard: pair, source and sequence number, the port of the first copy, whether both came, and whether a copy
has been taken (R183, R186). -/
structure DupEntry where
  pair : Nat
  src : Nat
  seq : Nat
  port : Nat
  at_ : Nat
  both : Bool := false
  taken : Bool := false
  deriving DecidableEq, Repr

structure NodeEntry where
  pair : Nat
  src : Nat
  at_ : Nat
  deriving DecidableEq, Repr

/-- A sample a subscription context holds: its smpCnt, instant (TAI in units of the clock), whether it was missing, and its
eight values as 24-bit codes with their quality. -/
structure SvSample where
  cnt : Nat
  t : Int
  missing : Bool
  ch : List QW
  deriving DecidableEq, Repr

structure SvCtx where
  /-- samples held, newest first, at most 64 -/
  buf : List SvSample := []
  /-- counts discarded as EARLY or LATE that LOST has already counted -/
  lostCnts : List Nat := []
  /-- consecutive samples taken since the start or a restart; lanes carry INV below 4 (R195) -/
  held : Nat := 0
  restarting : Bool := false
  seen : Bool := false
  /-- smpCnt of the last sample taken, none since the start or a restart -/
  last : Option Nat := none
  missRun : Nat := 0
  sync : Bool := false
  unsyncAt : Nat := 0
  goodRun : Nat := 0
  /-- resynchronised: placement returns at the next boundary (R198) -/
  resync : Bool := false
  /-- the words carry INV by SYNC_LOSS_T (R197) -/
  lossInv : Bool := false
  /-- record words that still carry STL -/
  stl : Nat := 0
  transits : List Int := []
  smpSynch : Nat := 0
  lastPort : Nat := 0
  frames : Nat := 0
  lost : Nat := 0
  heldCnt : Nat := 0
  late : Nat := 0
  early : Nat := 0
  authFail : Nat := 0
  confErr : Nat := 0
  dup : Nat := 0
  restarts : Nat := 0
  transitMax : Int := 0
  marginMin : Option Int := none
  syncLosses : Nat := 0
  /-- words of the record slots of the Milestone in progress that have passed, oldest first, eight channels each -/
  slots : List (List QW) := []
  /-- resampler words of the Milestone that has ended, per channel, four each -/
  words : List (List QW) := []
  deriving DecidableEq, Repr

/-- The Reset column of the SV and GOOSE publication blocks: PCP 4 (R206, R216). -/
def svPubReset : Bytes := zeros 5 ++ leBytes 1 0x40 ++ zeros 122
def goosePubReset : Bytes := zeros 6 ++ leBytes 1 0x40 ++ zeros 505

/-- A publication of sampled values: its block, and the sample pair sent next. -/
structure SvPub where
  block : Bytes := svPubReset
  /-- number since the TAI epoch, at 4800 per second, of the next sample; none before the first frame -/
  next : Option Nat := none
  frames : Nat := 0
  authFail : Nat := 0
  smpSynch : Nat := 0
  deriving DecidableEq, Repr

/-- One GOOSE input (R213). -/
structure GooseIn where
  value : Bool := false
  valid : Bool := false
  test : Bool := false
  /-- last valid value -/
  lastValid : Bool := false
  deriving DecidableEq, Repr

structure GooseCtx where
  seen : Bool := false
  expired : Bool := false
  stNum : Nat := 0
  sqNum : Nat := 0
  deadline : Option Nat := none
  nds : Bool := false
  inputs : List GooseIn := List.replicate 16 {}
  frames : Nat := 0
  talExp : Nat := 0
  authFail : Nat := 0
  confErr : Nat := 0
  old : Nat := 0
  stMissed : Nat := 0
  dup : Nat := 0
  lastRx : Nat := 0
  deriving DecidableEq, Repr

/-- A GOOSE member as published: a value and an IEC 61850 quality word. -/
inductive PubVal where
  | bool (b : Bool)
  | dbpos (on : Bool)
  /-- validity, operatorBlocked, test -/
  | quality (validity : Nat) (blocked test : Bool)
  | int (i : Int)
  deriving DecidableEq, Repr

structure GoosePub where
  block : Bytes := goosePubReset
  sending : Bool := false
  stNum : Nat := 0
  sqNum : Nat := 0
  vals : List PubVal := []
  /-- t of the last change: TAI less UTC offset in ns, and TQ -/
  t : Int := 0
  tq : Nat := 0
  test : Bool := false
  /-- interval to the next frame in 0.1 ms, its number in the sequence, and the instant of the next frame -/
  interval : Nat := 0
  step : Nat := 0
  nextAt : Option Nat := none
  frames : Nat := 0
  authFail : Nat := 0
  lastTx : Nat := 0
  tripLatMax : Nat := 0
  deriving DecidableEq, Repr

/-- Addressing of a frame the device sends: ports, source and destination, VLAN ID and PCP, EtherType, APPID, the sequence number of its
redundancy trailer or tag (PRP, HSR), and the tag of its IEC 62351-6 extension. -/
structure TxHead where
  ports : List Nat
  src : Nat
  dst : Nat
  vid : Nat := 0
  pcp : Nat := 0
  etherType : Nat
  appid : Nat := 0
  red : Option Nat := none
  tag : Option Bytes := none
  deriving DecidableEq, Repr

/-- What leaves the NET ports: a publication's frame with its APDU, a supervision frame, a forwarded ring frame. -/
inductive TxFrame where
  | sv (h : TxHead) (pub cnt synch : Nat) (vals : List (List (Int × Quality61850))) (apdu : Bytes)
  | goose (h : TxHead) (pub stNum sqNum tal : Nat) (t : Int) (tq : Nat) (test : Bool) (vals : List PubVal) (apdu : Bytes)
  | prpSupervision (h : TxHead)
  | forward (port : Nat) (corrupt : Bool)
  deriving DecidableEq, Repr

structure NetSt where
  /-- the port set in force (Table: Port set block) -/
  portSet : Bytes := portSetReset
  ports : List NetPort := List.replicate 4 {}
  dups : List DupEntry := []
  nodes : List NodeEntry := []
  /-- per pair: the next sequence number of redundancy, and the time of the last supervision frame (R184) -/
  redSeq : List Nat := [0, 0]
  superTx : List (Option Nat) := [none, none]
  sv : List SvCtx := List.replicate 256 {}
  svPubs : List SvPub := List.replicate 6 {}
  goose : List GooseCtx := List.replicate 256 {}
  goosePubs : List GoosePub := List.replicate 64 {}
  /-- the GOOSE-input snapshot of the Milestone in progress (R215) -/
  snap : List (List GooseIn) := List.replicate 256 (List.replicate 16 {})
  deriving DecidableEq, Repr

end Sys2Proof.Machine
end

