-- ==== Sys2Proof/Machine/StProt.lean ====
section
/-! DEFINITION. State of the protection cycle: measurands, plausibility, elements, curves, adaptation, bus sections and scheme
logic (chapters 09 to 13). Primary phasors are integers in 2^-31 mA or mV; a bay keeps the cycle in progress and the last
released one. -/

namespace Sys2Proof.Machine

/-! ### Measurands -/

/-- What a bay measures in one cycle (R259-R271). -/
structure Meas where
  ms : Nat := 0
  tq : Nat := 0
  /-- TAI of the analogue instant of the lane word in units of the clock, and the grid angle there in 2^-48 turn -/
  anaTai : Nat := 0
  theta : Nat := 0
  /-- full scales of the eight lanes -/
  fs : List Nat := []
  /-- raw fine phasors, the four sets of fast phasors, and reported phasors, in primary units -/
  fine : List Phasor := []
  fast : List (List Phasor) := []
  rep : List Phasor := []
  words : List QW := []
  /-- the four record-tap words of the Milestone, per lane, oldest first, in 2^-23 of full scale times full scale -/
  taps : List (List QW) := []
  /-- sum of the squares of the 96 lane words, and its quality -/
  rms : List (Nat × Nat) := []
  /-- X_h for h = 2 to 15 per lane, in primary units -/
  harm : List (List (Int × Int)) := []
  f : Nat := 0
  fQ : Nat := 128
  /-- df/dt in 2^-26 Hz/s -/
  dfdt : Int := 0
  dfQ : Nat := 128
  /-- lanes the plausibility model marks QST -/
  qst : Nat := 0
  deriving DecidableEq, Repr

/-- What a bay's measurands keep from cycle to cycle. -/
structure MeasHist where
  /-- source of FREQ_SRC and its phasor, newest first, 96 entries -/
  y : List (Nat × Phasor) := []
  /-- the bay's fine phasors before the leakage correction, newest first, 96 entries -/
  fine : List (List Phasor) := []
  /-- f and its quality, newest first, 672 entries -/
  f : List (Nat × Nat) := []
  /-- thermal state in 2^-64, and its quality -/
  th : Nat := 0
  thQ : Nat := 128
  /-- bands G1-G8 of lanes 0-3 squared, in (2^-31 mA)^2, with one quality -/
  bands : List (List Nat) := List.replicate 4 (List.replicate 8 0)
  bandQ : Nat := 128
  bandQs : List Nat := List.replicate 4 128
  deriving DecidableEq, Repr

/-! ### Plausibility (R273-R278) -/

/-- One check. Residual and bound are in 2^-31 mA or mV. -/
structure Chk where
  /-- exceeding Milestones of the window, newest first -/
  win : List Nat := []
  /-- lasting as decided in this cycle, and as it acts in this cycle -/
  last : Bool := false
  act : Bool := false
  streak : Nat := 0
  ep : Bool := false
  peak : Nat := 0
  peakB : Nat := 0
  cnt : Nat := 0
  lastExc : Nat := 0
  recAt : Option Nat := none
  folded : Nat := 0
  r : Nat := 0
  b : Nat := 0
  exc : Bool := false
  susp : Bool := false
  /-- lanes marked while it acts -/
  lanes : List Nat := []
  /-- member the check named last (voltage agreement), 0xFFFF none -/
  member : Nat := 0xFFFF
  deriving DecidableEq, Repr

/-! ### Stages and curves -/

/-- One stage (R291, R292) with the curve and adaptive state it may have. Times are monotonic, in units of the clock. -/
structure StageSt where
  ph : List Bool := [false, false, false]
  cntPu : List Nat := [0, 0, 0]
  cntDo : List Nat := [0, 0, 0]
  qb : List Bool := [false, false, false]
  pu : Bool := false
  op : Bool := false
  blk : Bool := false
  qblk : Bool := false
  opAbc : Nat := 0
  tPu : Nat := 0
  /-- held elapsed time and the end of RESET_T (R292) -/
  held : Nat := 0
  heldTo : Nat := 0
  prog : Nat := 0
  /-- effective pickup of the cycle, 2^-32 of mA, mV, mHz or mHz/s -/
  eff : Nat := 0
  /-- adaptive: adapted value A, target and flags (R339, R347) -/
  a : Option Nat := none
  target : Nat := 0
  adFlags : Nat := 0
  /-- curve: integrator, M in 2^-16, pickup cycle, H_96, OP_OFS (R323, R334) -/
  h : Nat := 0
  m : Nat := 0
  puMs : Option Nat := none
  h96 : Nat := 0xFFFFFFFF
  opOfs : Nat := 0xFFFFFFFF
  tm : Nat := 0xFFFFFFFF
  phase : Nat := 0
  rstAt : Option Nat := none
  tminWait : Bool := false
  below : Bool := false
  dirReset : Bool := false
  mPh : Nat := 0
  deriving DecidableEq, Repr

/-- A pickup with a definite delay: 46BC, HIF. -/
structure DelaySt where
  pu : Bool := false
  op : Bool := false
  blk : Bool := false
  qblk : Bool := false
  tPu : Nat := 0
  prog : Nat := 0
  deriving DecidableEq, Repr

/-- 79 (R305): 0 OFF, 1 READY, 2 TRIPPED, 3 DEAD, 4 CLOSING, 5 RECLAIM, 6 LOCKOUT, 7 OPEN. -/
structure ArSt where
  st : Nat := 0
  c : Nat := 0
  final : Bool := false
  close : Bool := false
  at_ : Nat := 0
  cbPrev : Option Bool := none
  lockReset : Bool := false
  deriving DecidableEq, Repr

/-- Elements of one bay apart from its stages. -/
structure Elems where
  bc : DelaySt := {}
  thPu : Bool := false
  thOp : Bool := false
  /-- 50BF (R304): start instant, RETRIP, BKTRIP; current present in A, B, C, N -/
  bfAt : Option Nat := none
  bfPrev : Bool := false
  bfRe : Bool := false
  bfBk : Bool := false
  bfBlk : Bool := false
  bfCur : List Bool := [false, false, false, false]
  ar : ArSt := {}
  /-- inrush (R300): Milestones below LIVE_I, first Milestone of the window, Milestone of the last ratio condition per phase,
  window open, INRUSH_p -/
  below : Nat := 0
  winAt : Option Nat := none
  win : Bool := false
  ratioMs : List (Option Nat) := [none, none, none]
  inrush : List Bool := [false, false, false]
  inrBlk : List Bool := [false, false, false]
  /-- cold-load pickup (R301): since when below LIVE_I, de-energised, start of CLP_ACT -/
  deadSince : Option Nat := none
  dead : Bool := false
  clpAt : Option Nat := none
  clp : Bool := false
  /-- SOTF (R302) -/
  armSince : Option Nat := none
  armed : Bool := false
  sotfAt : Option Nat := none
  sotfCnt : List Nat := [0, 0, 0]
  sotfOp : Bool := false
  sotfWin : Bool := false
  cbPrev : Option Bool := none
  /-- phases at or above LIVE_I in the last cycle -/
  livePrev : List Bool := [false, false, false]
  /-- directional memory (R297) and decisions of the fine path for A, B, C, Q, N -/
  vmem : Option (Int × Int × Nat) := none
  dirs : List Nat := [0, 0, 0, 0, 0]
  memUse : Bool := false
  /-- HIF (R306): the last 60 frames of each lane IA, IB, IC and IN, newest first -/
  hifFrames : List (List Bool) := [[], [], [], []]
  hif : DelaySt := {}
  hifLatch : Bool := false
  /-- fault locator (R307, R308): first Milestone of the episode, the last with a stage picked up, phasors of n_pre, the trip -/
  flStart : Option Nat := none
  flLast : Nat := 0
  flPre : List Phasor := []
  flLoc : List Phasor := []
  flNloc : Nat := 0
  flTrip : Bool := false
  flHist : List (List Phasor) := []
  flMs : Nat := 0
  flDist : Int × Nat := (0, 1)
  flR : Int × Nat := (0, 1)
  flX : Int × Nat := (0, 1)
  flI : Nat := 0
  flLoop : Nat := 0
  flLowq : Bool := false
  flValid : Bool := false
  bayTrip : Bool := false
  tripPrev : Bool := false
  btSect : Nat := 0
  /-- adaptation (R338, R341): load estimate in 2^-32 A, its quality, freeze causes, boundary of the last trip -/
  load : Option Nat := none
  loadQ : Nat := 128
  frz : Nat := 0
  tripAt : Option Nat := none
  /-- HIF background (R345): per lane the squared-free B_i in 2^-31 mA, and learning time summed in units of the clock -/
  bkg : List (List (Option Nat)) := List.replicate 4 (List.replicate 8 none)
  bkgAge : List Nat := [0, 0, 0, 0]
  bkgLearnt : List Bool := [false, false, false, false]
  bkgOk : List Bool := [false, false, false, false]
  /-- status words -/
  pu : Nat := 0
  op : Nat := 0
  blk : Nat := 0
  qblk : Nat := 0
  deriving DecidableEq, Repr

/-- One cycle of one bay, or what the last one left. -/
structure BayRun where
  ran : Bool := false
  meas : Meas := {}
  hist : MeasHist := {}
  /-- Milestone whose cycle frame has been closed -/
  frameMs : Option Nat := none
  inChk : Chk := {}
  vxChk : Chk := {}
  /-- Milestone of the last FD_I condition (R274) -/
  fdMs : Option Nat := none
  stages : List StageSt := List.replicate 25 {}
  el : Elems := {}
  /-- group in force, and the Milestone of the last switch -/
  group : Nat := 0
  groupMs : Nat := 0
  deriving DecidableEq, Repr

/-! ### Sections -/

structure SectRun where
  ran : Bool := false
  ms : Nat := 0
  conn : Nat := 0
  /-- Milestone of the last change of the connected set -/
  topoMs : Option Nat := none
  fdMs : Option Nat := none
  kir : List Chk := [{}, {}, {}]
  vag : Chk := {}
  /-- agreed voltage (R281) with its full scale, members in disagreement -/
  agreed : Phasor := {}
  agreedFs : Nat := 0
  disagree : Nat := 0
  /-- 87B and check zone: per phase counts and pickup (R309) -/
  cnt : List (Nat × Nat × Bool) := List.replicate 3 (0, 0, false)
  cz : List (Nat × Nat × Bool) := List.replicate 3 (0, 0, false)
  id : List Nat := [0, 0, 0]
  ir : List Nat := [0, 0, 0]
  czId : Nat := 0
  pu : Nat := 0
  op : Nat := 0
  czPu : Bool := false
  qblk : Bool := false
  plbBlk : Bool := false
  /-- external-fault detector (R311): per phase words below the level, words since the onset and whether all were external;
  end of the block; evaluations toward its early end -/
  satQuiet : List Nat := [384, 384, 384]
  satRun : List (Option (Nat × Bool)) := [none, none, none]
  satEnd : Option Nat := none
  satIn : Nat := 0
  /-- reverse interlock (R312): pickup instant, held feeders with the instant of their dropout -/
  riPu : Bool := false
  riAt : Nat := 0
  riOp : Bool := false
  riFeeder : Bool := false
  riHold : List (Nat × Nat) := []
  b87Ops : Nat := 0
  riOps : Nat := 0
  deriving DecidableEq, Repr

/-! ### Scheme logic -/

structure LTimer where
  inn : Bool := false
  q : Bool := false
  run : Bool := false
  /-- start and elapsed time in µs of the monotonic count -/
  start : Nat := 0
  et : Nat := 0
  /-- resumes with its elapsed time at its first execution after a warm start (R365) -/
  resume : Bool := false
  deriving DecidableEq, Repr

structure LCounter where
  cv : Nat := 0
  cu : Bool := false
  cd : Bool := false
  deriving DecidableEq, Repr

/-- A force (R371): a fixed address or a VAR identifier. -/
structure Force where
  ident : Bool
  where_ : Nat
  value : Bool
  deriving DecidableEq, Repr

structure Bank where
  image : Bytes := []
  verified : Bool := false
  wcet : Nat := 0
  depth : Nat := 0
  deriving DecidableEq, Repr

/-- Working data of a bay's program: variables, timers, counters, edges, output image (R349, R353). -/
structure LData where
  out : List Bool := List.replicate 128 false
  var : List Bool := []
  tmr : List LTimer := []
  cnt : List LCounter := []
  edg : List Bool := []
  deriving DecidableEq, Repr

inductive STag where
  | and | or | none
  deriving DecidableEq, Repr

/-- The accumulator machine of a bay: ACC, stack, index of the next instruction, clocks used; and its snapshot. -/
structure LExec where
  acc : Bool := false
  stack : List (Bool × STag) := []
  idx : Nat := 0
  clocks : Nat := 0
  running : Bool := false
  /-- snapshot Milestone, t_n and r_n in µs, element bits, flags and BI; GOOSE inputs are those of `net.snap` -/
  ms : Nat := 0
  tn : Nat := 0
  rn : Nat := 0
  elm : Nat := 0
  flg : Nat := 0
  bi : Nat := 0
  deriving DecidableEq, Repr

structure LogicBay where
  banks : List Bank := [{}, {}]
  act : Nat := 0
  /-- bank that last ran, none once it holds another image (R365) -/
  lastBank : Option Nat := none
  data : LData := {}
  /-- data before the cycle in progress: the checkpoint of R364 -/
  chk : LData := {}
  exec : LExec := {}
  /-- released output image and counters -/
  rel : List Bool := List.replicate 128 false
  relCnt : List Nat := []
  forces : List Force := []
  /-- kind of the last start (0 none, 1 cold, 2 warm, 3 switch, 4 takeover), and the first-cycle flag to give -/
  start : Nat := 0
  first : Nat := 0
  running : Bool := false
  /-- a cycle has run whose outputs wait for the boundary -/
  ran : Bool := false  /-- 0 none, 1 the cycle of this Milestone overruns, 2 it goes on in the Milestone after its own (R362) -/
  overrunState : Nat := 0
  overrunFlag : Bool := false
  skipNext : Bool := false
  lastMs : Nat := 0
  cycles : Nat := 0
  overruns : Nat := 0
  skips : Nat := 0
  skipRecAt : Option Nat := none
  skipFolded : Nat := 0
  execLast : Nat := 0
  execMax : Nat := 0
  switchMs : Nat := 0
  nextOpen : Option Nat := none
  deriving DecidableEq, Repr

/-! ### The whole -/

/-- BAY_TRIP and the output image of a replayed cycle, and TAI of its Milestone in units of the clock (R389). -/
structure ReplayKept where
  trip : Bool := false
  out : List Bool := []
  tai : Nat := 0
  deriving DecidableEq, Repr

structure BayProt where
  cur : BayRun := {}
  rel : BayRun := {}
  /-- group a BAY.GROUP has chosen in CONFIGURE, or the group in force -/
  group : Nat := 0
  groupMs : Nat := 0
  grpReq : Nat := 0
  opcnt : List Nat := List.replicate 36 0
  /-- energy accumulators of R269 in µW times clock units, and their copy in MRAM -/
  energy : List Nat := [0, 0, 0, 0]
  energySaved : List Nat := [0, 0, 0, 0]
  /-- counters as released with the last cycle -/
  energyRel : List Nat := [0, 0, 0, 0]
  opcntRel : List Nat := List.replicate 36 0
  logic : LogicBay := {}
  /-- what a replayed cycle adds to the release of the cycle after it (R389) -/
  replay : Option ReplayKept := none
  deriving DecidableEq, Repr

/-- What a cycle leaves for its release: a record, a monitored event, the end of an episode, a declaration or a
clearing of a fault. -/
inductive StagedItem where
  | event (e : Event)
  | monitored (id inst : Nat)
  | episode (id inst : Nat)
  | declare (id inst count : Nat)
  | clear (id inst : Nat)
  deriving DecidableEq, Repr

/-- One Milestone of the region sample rings (R26): what the clusters consumed in it. -/
structure RingMs where
  ms : Nat
  /-- stage-0 or resampler words of the lanes that run, with the context of their chain -/
  lanes : List (LaneCtx × LaneWords) := []
  /-- binary-input and GOOSE-input snapshots -/
  bi : List Bool := []
  goose : List (List GooseIn) := []
  deriving DecidableEq, Repr

/-- A sealed checkpoint of a cluster in the shadow SRAM of its region's standby (R25): lanes, bays and the sections at home there. At
the start of a cycle it takes in what the boundary's commands have done; `ranBays` and `ranSects` are what the cycle in progress made of
it. -/
structure Ckpt where
  ms : Nat
  lanes : List LaneSt := []
  bays : List BayProt := []
  sects : List (Nat × SectRun) := []
  ranBays : List BayRun := []
  ranSects : List SectRun := []
  deriving DecidableEq, Repr

structure ProtSt where
  bays : List BayProt := List.replicate 64 {}
  sects : List SectRun := List.replicate 16 {}
  sectRel : List SectRun := List.replicate 16 {}
  /-- durations of the last 960 Milestones, newest first -/
  lens : List Nat := []
  /-- what the cycle in progress leaves for its release, under its cluster, or 8 + the home cluster of a section -/
  staged : List (Nat × StagedItem) := []
  /-- a cycle is in progress -/
  inCycle : Bool := false
  /-- the region sample rings, newest Milestone first, 384 at most (R26), and the clusters' sealed checkpoints (R25) -/
  ring : List RingMs := []
  ckpts : List (Option Ckpt) := List.replicate 8 none
  /-- user curve slots of the two dies -/
  curves : List (List Bytes) := List.replicate 2 (List.replicate 4 [])
  deriving DecidableEq, Repr

end Sys2Proof.Machine
end

