-- ==== Sys2Proof/Machine/StRec.lean ====
section
/-! DEFINITION. State of triggers and disturbance records (chapter "Triggers and disturbance records"). The history ring is kept
as the values its rows are made of; the files of records are bytes of DDR4. -/

namespace Sys2Proof.Machine

/-- What one Milestone gives a recorded bay: record-tap words and lane words times full scale (2^-23 mA or mV), per lane. -/
structure RecBay where
  bay : Nat
  /-- per lane the four record-tap words, oldest first -/
  taps : List (List QW) := []
  words : List QW := []
  /-- DIG0-DIG15 as released -/
  dig : Nat := 0
  /-- true RMS of lanes 0-7, binary32 -/
  rms : List Nat := []
  /-- at the end of a cycle frame the 28 channels of T2, binary32 -/
  t2 : List Nat := []
  /-- current threshold of R379 in 0.1 A, BAY_TRIP, CB52A, start of the locator episode, a locator result of the cycle -/
  thr : Nat := 0
  trip : Bool := false
  cb : Bool := false
  episode : Option Nat := none
  fl : Option (Nat × Nat × Bool) := none
  /-- f of the bay, binary32 -/
  f : Nat := 0
  deriving DecidableEq, Repr

/-- One Milestone of the history: its number, the monotonic and TAI times of its opening boundary, its length, its bays. -/
structure RecMs where
  ms : Nat
  t : Nat
  prev : Nat
  tai : Nat
  bays : List RecBay := []
  dropped : Bool := false
  deriving DecidableEq, Repr

/-- A file of a record: its first byte in DDR4, its length, rows, the ring it lies in, and the bytes reserved for it once fixed. -/
structure RecFile where
  start : Nat := 0
  bytes : Nat := 0
  rows : Nat := 0
  ring : Nat := 0
  ringLen : Nat := 0
  fixed : Option Nat := none
  /-- monotonic and TAI times of its first row -/
  firstT : Nat := 0
  firstTai : Nat := 0
  deriving DecidableEq, Repr

structure RecTrig where
  ms : Nat
  cause : Nat
  slot : Nat
  ext : Bool := false
  deriving DecidableEq, Repr

inductive RecState where
  | open_ | closed | freed
  deriving DecidableEq, Repr

/-- Path delays of a bay's lanes at the trigger Milestone in ns: record tap and lane word, and the skew of T12 per lane. -/
structure RecDelay where
  bay : Nat
  tap : List Nat
  word : List Nat
  deriving DecidableEq, Repr

/-- A disturbance record (Table: Record descriptor, Table: Record information block). -/
structure Rec where
  id : Nat
  state : RecState := .open_
  trunc : Nat := 0
  preShort : Bool := false
  gaps : Bool := false
  step : Bool := false
  test : Bool := false
  cap : Bool := false
  red : Nat := 0
  trigMs : Nat := 0
  trigTai : Nat := 0
  trigSlot : Nat := 0
  /-- monotonic time of the trigger row of T0 -/
  trigRowT : Nat := 0
  primary : Nat := 0
  tq : Nat := 0
  tmq : Nat := 0
  leap : Nat := 0
  utcOfs : Int := 0
  nominal : Nat := 0
  first : Nat := 0
  last : Nat := 0
  bays : List Nat := []
  ntrig : Nat := 0
  lost : Nat := 0
  gapMs : Nat := 0
  files : List RecFile := [{}, {}, {}, {}]
  /-- monotonic times of the trigger Milestone, of the first trigger, and the end time -/
  trigT : Nat := 0
  endT : Nat := 0
  sysMask : Nat := 0
  bayMask : List Nat := List.replicate 64 0
  stepNs : Int := 0
  stepMs : Nat := 0
  trigs : List RecTrig := []
  f : List Nat := []
  preRms : List (List Nat) := []
  delays : List RecDelay := []
  fsList : List (List Nat) := []
  /-- Milestones of the record, newest first, while it is open -/
  rows : List RecMs := []
  /-- its last row has been written; it waits for its closing (R455) -/
  ended : Bool := false
  meas : Bytes := []
  /-- STATION and DEVICE_ID of its arming, bays with QUAL_CH, row widths -/
  names : Bytes := []
  quals : List Nat := []
  deriving DecidableEq, Repr

/-- The arming of a region: the arm block with the region's own areas, and the bays recorded. -/
structure ArmSt where
  block : Bytes := []
  hist : Nat := 0
  histKib : Nat := 0
  store : Nat := 0
  storeKib : Nat := 0
  bays : List Nat := []
  quals : List Nat := []
  deriving DecidableEq, Repr

/-- State of one trigger condition: the level was met, the last value and its time, an excursion since and its extreme. -/
structure TcSt where
  met : Bool := false
  prev : Option ((Int × Nat) × Nat) := none
  since : Option Nat := none
  reached : Bool := false
  fired : Bool := false
  /-- set while protection runs: a bit that stands already does not rise -/
  late : Bool := false
  deriving DecidableEq, Repr

structure RegionRec where
  armed : Option ArmSt := none
  full : Bool := false
  /-- a REC.FREE since the last boundary (R463) -/
  freed : Bool := false
  /-- the history, newest first -/
  hist : List RecMs := []
  /-- records not reclaimed, oldest first -/
  recs : List Rec := []
  /-- head of each ring: offset of the next free byte -/
  heads : List Nat := [0, 0, 0, 0]
  /-- store, its KiB and ring lengths that the heads belong to -/
  area : List Nat := []
  trigLost : Nat := 0
  overwritten : Nat := 0
  droppedMs : Nat := 0
  /-- monotonic time from which AUTO_T runs, and a record with cause 9 due at the next boundary (R457) -/
  autoAt : Nat := 0
  autoPend : Bool := false
  /-- triggers that wait for the end of a Milestone: Milestone, cause, slot -/
  pend : List (Nat × Nat × Nat) := []
  deriving DecidableEq, Repr

structure RecSt where
  regions : List RegionRec := List.replicate 4 {}
  nextId : Nat := 1
  /-- condition states, 16 per bay -/
  tc : List (List TcSt) := List.replicate 64 (List.replicate 16 {})
  /-- true RMS (binary32) of the lanes of each bay in the last 128 Milestones, newest first -/
  rmsHist : List (List (Nat × List Nat)) := List.replicate 64 []
  /-- edges on CW_TRGj are ignored until this monotonic time; lines driven at the last boundary, and to be driven at the next (R449) -/
  cwIgnore : List Nat := [0, 0, 0, 0]
  cwPulse : List Nat := []
  cwPend : List Nat := []
  /-- no trigger is accepted (R432) -/
  shed : Bool := false
  deriving DecidableEq, Repr

end Sys2Proof.Machine
end

