-- ==== Sys2Proof/Machine/StSvc.lean ====
section
/-! DEFINITION. State of field service: the console session, the Waymark outputs, the self-tests (chapter "Field service with meter
and serial cable"). -/

namespace Sys2Proof.Machine

/-- A line the console sends: a status line, a data line whose text the spec gives, or a data line with the bytes of a result
whose spelling the spec does not give (log entry 28). -/
inductive UartLine where
  | ok
  | er (code : Nat)
  | text (t : String)
  | vals (b : Bytes)
  deriving DecidableEq, Repr

/-- A Waymark selection (Table: Waymark selection); the default is off. -/
structure WmkSel where
  kind : Nat := 0
  unit : Nat := 0
  sel : Nat := 0
  diff : Bool := false
  e : Int := 0
  level : Nat := 0
  deriving DecidableEq, Repr

/-- A running self-test (R562). -/
structure TestRun where
  id : Nat
  unit : Nat
  param : Nat
  /-- started from the console -/
  console : Bool := false
  cmd : Option CmdRef := none
  startMs : Nat := 0
  at_ : Nat := 0
  /-- accepted edges of the input watched by test 5; readback episodes at the start; record of test 11 -/
  rises : Nat := 0
  falls : Nat := 0
  base : Nat := 0
  /-- whether the calibration step or phase of test 1 has passed, once it is over -/
  verdict : Option Bool := none
  deriving DecidableEq, Repr

/-- Result of a test's last run (Table: Test result). -/
structure TestRes where
  outcome : Nat := 0
  unit : Nat := 0
  fail : Nat := 0
  console : Bool := false
  startMs : Nat := 0
  endMs : Nat := 0
  vals : List Nat := []
  deriving DecidableEq, Repr

structure SvcSt where
  baud : Nat := 115200
  echo : Bool := false
  unlocked : Bool := false
  /-- monotonic time of the last received line -/
  lineAt : Nat := 0
  /-- nonce, slot and time of issue (R552), and nonces issued so far: the model's own count for fresh values -/
  nonce : Option (Nat × Nat × Nat) := none
  nonces : Nat := 0
  /-- a refusal that is answered 1 s after its line -/
  late : Option Nat := none
  /-- a first RESTART COLD waits for the second until this time (R557) -/
  confirmTo : Option Nat := none
  /-- the console's own position in the log (R554) -/
  logPos : Nat := 0
  /-- end of the bytes loaded by FWD, and an image that FWE has accepted: VERSION, SVN (R556) -/
  fwdEnd : Nat := 0
  recovery : Option (Nat × Nat) := none
  /-- Waymark selections in force, and output levels in µV at the four record slots of the Milestone, slot by slot -/
  wmk : List WmkSel := [{}, {}]
  wmkOut : List (List Nat) := List.replicate 4 [0, 0]
  /-- per slice and spare: sum of squares and count of its corrected samples in the cycle frame in progress, and in the last -/
  sliceAcc : List (Nat × Nat) := List.replicate 51 (0, 0)
  sliceRms : List (Nat × Nat) := List.replicate 51 (0, 0)
  test : Option TestRun := none
  /-- the pulse of test 4 starts at the next boundary (R564) -/
  pulseStart : Bool := false
  /-- the running test ends at the next boundary with outcome ABORTED -/
  testStop : Bool := false
  results : List TestRes := List.replicate 16 {}
  deriving DecidableEq, Repr

end Sys2Proof.Machine
end

