-- ==== Sys2Proof/Machine/StTables.lean ====
section
/-! DEFINITION. State of the configuration tables and their caches (R59-R67). A cached entry is kept as the bytes that
were accepted; an entry never accepted reads as zeros. -/

namespace Sys2Proof.Machine

/-- A table's place (R59); a COUNT of 0 in the register of a table no TBL.BASE has placed reads no memory. -/
structure TblBase where
  placed : Bool := false
  ddr : Bool := false
  addr : Nat := 0
  count : Nat := 0
  deriving DecidableEq, Repr

/-- One cached entry or setting-group block (R61, R62). -/
structure CacheEntry where
  bytes : Bytes := []
  /-- SEQ_VALID: a sequence has been accepted from the present place -/
  seqValid : Bool := false
  /-- accepted since the last BOOT -/
  cached : Bool := false
  /-- Milestone from which it has been in force -/
  since : Nat := 0
  deriving DecidableEq, Repr

/-- EN of a cached entry. -/
def CacheEntry.en (e : CacheEntry) : Bool := bitAt e.bytes 0 0

/-- A TBL.SYNC whose check is running (R64): its mask and range, and the command. -/
structure SyncJob where
  cmd : CmdRef
  mask : Nat
  first : Nat
  count : Nat
  /-- the places of the tables as the check found them at its beginning (R59) -/
  base : List TblBase
  deriving DecidableEq, Repr

/-- An entry staged for the next boundary: table 0-5, or 6 for a setting-group block, with its place and bytes. -/
structure Staged where
  table : Nat
  index : Nat
  bytes : Bytes
  deriving DecidableEq, Repr

/-- A checked TBL.SYNC whose staged entries wait for the boundary, with what its completion will say (R66). -/
structure SyncDone where
  cmd : CmdRef
  status : Nat
  detail : Nat
  result : Nat
  report : Bytes
  any : Bool
  /-- class D fields have taken effect as their entries were staged (R63): its action stands through a restart of the core (R57) -/
  applied : Bool := false
  deriving DecidableEq, Repr

structure TblSt where
  base : List TblBase := List.replicate 6 {}
  bay : List CacheEntry := List.replicate 64 {}
  lane : List CacheEntry := List.replicate 512 {}
  stream : List CacheEntry := List.replicate 256 {}
  section_ : List CacheEntry := List.replicate 16 {}
  trigger : List CacheEntry := List.replicate 64 {}
  loop : List CacheEntry := List.replicate 32 {}
  /-- setting-group blocks, bay 6 * b + g -/
  group : List CacheEntry := List.replicate 384 {}
  job : Option SyncJob := none
  staged : List Staged := []
  done : Option SyncDone := none
  /-- tables that a TBL.BASE has placed anew since the last TBL.SYNC began (R61) -/
  rebased : List Bool := List.replicate 6 false
  deriving DecidableEq, Repr

end Sys2Proof.Machine
end

