-- ==== Sys2Proof/Machine/StActs.lean ====
section
/-! DEFINITION. Accepted commands whose effect waits for a Milestone boundary. -/

namespace Sys2Proof.Machine

/-- What a command does at the boundary. -/
inductive BAct where
  /-- SYS.MODE (R77-R79) -/
  | sysMode (target : Mode) (logicWarm : Bool)
  /-- BAY.GROUP (R286) -/
  | bayGroup (bay group : Nat)
  /-- BAY.BEH (R81) -/
  | bayBeh (bay value : Nat)
  /-- GRID.MODE (R100) -/
  | gridMode (cfg : GridCfg)
  /-- GRID.SYNC (R114) -/
  | gridSlew (err : Int)
  | gridStep
  /-- TIME.SOURCE (R130) -/
  | timeSource (cfg : TimeCfg)
  /-- TIME.STEP (R144): OP and, for 2 and 3, the TAI or the step in ns -/
  | timeStep (op : Nat) (ns : Int)
  /-- AUX.SEQ (R172) -/
  | auxSeq (cfg : AuxCfg)
  /-- FILT.STOP and FILT.START (R240, R241) -/
  | filtStop (c : Nat)
  | filtStart (c : Nat) (t12 : Bool)
  /-- SV.PUB with the port set or a publication, GOOSE.PUB (R179, R206, R216) -/
  | portSet (b : Bytes)
  | svPub (i : Nat) (b : Bytes)
  | goosePub (i : Nat) (b : Bytes)
  /-- LOGIC.SWITCH, LOGIC.RESTART, LOGIC.FORCE and LOGIC.UNFORCE (R366, R367, R372) -/
  | logicSwitch (bay : Nat)
  | logicRestart (unit kind : Nat)
  | logicForce (bay : Nat) (f : Force)
  | logicUnforce (bay : Nat) (f : Force) (all : Bool)
  /-- BAY.RESET with its bits (R317) -/
  | bayReset (bay bits : Nat)
  /-- REC.ARM with the arming of each region, REC.DISARM and REC.FORCE with their regions (R451, R454, R458) -/
  | recArm (l : List (Nat × ArmSt))
  | recDisarm (l : List Nat)
  | recForce (l : List Nat)
  /-- WMK.SEL (R558) and TEST.RUN with STOP (R562) -/
  | wmkSel (ch : Nat) (w : WmkSel)
  | testStop
  deriving DecidableEq, Repr

/-- An accepted command waiting for the boundary: the command and the action. -/
structure PendAct where
  cmd : CmdRef
  /-- DETAIL and RESULT of its OK completion -/
  detail : Nat := 0
  result : Nat := 0
  /-- boundaries it has waited beyond the next one (R367) -/
  late : Nat := 0
  /-- it answers no command: a part of another (R563) -/
  quiet : Bool := false
  act : BAct
  deriving DecidableEq, Repr

end Sys2Proof.Machine
end

