-- ==== Sys2Proof/Machine/StDma.lean ====
section
/-! DEFINITION. State of the DMA channels (chapter "DMA engine"). -/

namespace Sys2Proof.Machine

inductive DmaState where
  | idle | running | paced | halted
  deriving DecidableEq, Repr

def DmaState.code : DmaState → Nat
  | .idle => 0 | .running => 1 | .paced => 2 | .halted => 3

/-- An access in progress: when it was issued, its failures, and the time of its next issue while it waits for one. -/
structure DmaOp where
  a : DmaAccess
  at_ : Nat
  fails : Nat := 0
  retryAt : Option Nat := none
  deriving DecidableEq, Repr

/-- A beat: its position in transfer order, its length, and its data once read. -/
structure DmaBeat where
  pos : Nat
  n : Nat
  data : Bytes := []
  deriving DecidableEq, Repr

structure DmaCh where
  st : DmaState := .idle
  cause : Nat := 0
  prio : Nat := 0
  retry : Nat := 0
  pace : Nat := 0
  paceSp : Nat := 0
  paceAddr : Nat := 0
  hi : Nat := 0
  lo : Nat := 0
  chainMax : Nat := 4096
  pend : Nat := 0
  pendOvf : Bool := false
  haltNs : Nat := 0
  /-- space and address of the descriptor in hand, and its bytes as fetched -/
  descSp : Nat := 0
  desc : Nat := 0
  d : Option Bytes := none
  /-- the descriptor copies descending -/
  down : Bool := false
  /-- bytes whose reads are issued, and bytes issued for writing, of the descriptor -/
  issued : Nat := 0
  wissued : Nat := 0
  reads : List DmaBeat := []
  staged : List DmaBeat := []
  writes : List DmaBeat := []
  acked : List DmaBeat := []
  done : Nat := 0
  halfSent : Bool := false
  /-- short time of the last acknowledgement -/
  stamp : Nat := 0
  /-- bytes issued and written since DMA.START, descriptors completed since the last RING -/
  total : Nat := 0
  count : Nat := 0
  descs : Nat := 0
  /-- last count word, bytes issued since it was read, and its next read while paced -/
  lastCount : Nat := 0
  sinceCount : Nat := 0
  pollAt : Nat := 0
  ops : List DmaOp := []
  failAddr : Nat := 0
  failSp : Nat := 0
  /-- draining before a halt with this cause -/
  halting : Option Nat := none
  deriving DecidableEq, Repr

structure DmaSt where
  ch : List DmaCh := List.replicate 32 {}
  /-- DMA.HALT commands that wait, with their channels -/
  halts : List (CmdRef × List Nat) := []
  /-- channel served last at each priority level -/
  last : List Nat := [31, 31, 31, 31]
  deriving DecidableEq, Repr

end Sys2Proof.Machine
end

