-- ==== Sys2Proof/Machine/StHost.lean ====
section
/-! DEFINITION. Host-interface state: ring registers, interrupt registers, QSPI target, MSI-X table, commands in flight
and completions held (chapter "Host interface, mailboxes and tables"). Defaults are the reset values. -/

namespace Sys2Proof.Machine

/-- Command ring k: MBk_BASE_LO, MBk_BASE_HI, MBk_CFG, MBk_HEAD and the doorbell's TAIL (Table: Ring registers). -/
structure Ring where
  baseLo : Word := 0
  baseHi : Word := 0
  log2n : BitVec 4 := 0
  en : Bool := false
  head : BitVec 8 := 0
  tail : BitVec 8 := 0
  deriving DecidableEq, Repr

/-- The completion ring: CQ_BASE_LO/HI, CQ_CFG, CQ_TAIL, CQ_HEAD and the PHASE the next entry is written with (R51). -/
structure CompRing where
  baseLo : Word := 0
  baseHi : Word := 0
  log2n : BitVec 4 := 0
  en : Bool := false
  tail : BitVec 8 := 0
  head : BitVec 8 := 0
  phase : Bool := true
  deriving DecidableEq, Repr

/-- One MSI-X table entry of 16 bytes (R42, R46). -/
structure MsixEntry where
  addr : BitVec 64 := 0
  data : Word := 0
  ctrl : Word := 1
  deriving DecidableEq, Repr

/-- The registers of BAR0 that hold a value of their own (R44). -/
structure Regs where
  /-- IRQ_STAT, bits 12:0 (R45) -/
  irqStat : BitVec 13 := 0
  /-- IRQ_MASK, bits 12:0 (R45) -/
  irqMask : BitVec 13 := 0
  /-- TAI_SEC_HI and TAI_NS as the last read of TAI_SEC_LO latched them; TQ reads 0x3F at reset (R127) -/
  taiHi : Word := 0x3F000000
  taiNs : Word := 0
  qspiQuad : Bool := false
  /-- the form the target uses: QUAD takes effect at the next CS_N rise -/
  qspiQuadNow : Bool := false
  qspiDummy : BitVec 6 := 8
  qspiWin : BitVec 13 := 0
  /-- QSPI STAT bit 2 ERR (R48) -/
  qspiErr : Bool := false
  /-- bytes the last QSPI READ frame returned -/
  qspiOut : Bytes := []
  msix : List MsixEntry := List.replicate 32 {}
  /-- MSI-X pending-bit array -/
  pba : Word := 0
  deriving DecidableEq, Repr

/-- The verdict of the token check of a fetched command (R512). -/
inductive TokenVerdict where
  | notNeeded | ok | noToken | wrong | slotBad | provisioning
  deriving DecidableEq, Repr

/-- A completion entry before it is written (R51): everything but PHASE and DONE_NS, which are set at the write. -/
structure Completion where
  tag : BitVec 8 := 0
  status : BitVec 8 := 0
  ring : BitVec 2 := 0
  slot : BitVec 8 := 0
  final : Bool := true
  noEffect : Bool := true
  detail : BitVec 16 := 0
  resLen : BitVec 16 := 0
  result : BitVec 64 := 0
  effectMs : BitVec 32 := 0xFFFFFFFF
  deriving DecidableEq, Repr

/-- A command in flight (R53): fetched, and without a final completion. -/
structure InFlight where
  cmd : Cmd
  /-- place in the order of fetching -/
  order : Nat := 0
  /-- monotonic time of the fetch -/
  at_ : Nat := 0
  token : TokenVerdict := .notNeeded
  /-- monotonic time from which its waiting to start counts (R542) -/
  waitFrom : Nat := 0
  /-- it has started -/
  started : Bool := false
  /-- Milestones by which it started after its normal point, 0 without overload (R542) -/
  late : Nat := 0
  /-- it has been accepted and its effect waits for a boundary (R53) -/
  waiting : Bool := false
  /-- a tamper response has erased its slot or its authorising key since its fetch (R518) -/
  tampered : Bool := false
  /-- finished while the supervisor core restarts: its completion waits (R57) -/
  applied : Option Completion := none
  deriving DecidableEq, Repr

/-- Host interface: registers, rings, commands in flight and held completions. -/
structure HostIf where
  regs : Regs := {}
  rings : List Ring := List.replicate 4 {}
  cq : CompRing := {}
  /-- the ring of MB1-MB3 whose turn is next (R53) -/
  turn : BitVec 2 := 1
  inflight : List InFlight := []
  fetched : Nat := 0
  /-- completions held in order under R55 and R56 -/
  held : List Completion := []
  /-- fetching is stopped: after SYS.RESTART (R90) -/
  fetchStop : Bool := false
  /-- the PCIe data link layer is active (R59) -/
  pcieLink : Bool := false
  /-- PERST_N low holds the endpoint in reset (R590) -/
  perst : Bool := false
  deriving DecidableEq, Repr

end Sys2Proof.Machine
end

