-- ==== Sys2Proof/Machine/StLoop.lean ====
section
/-! DEFINITION. State of the loop engine's user loops, of the injection and of the trace (chapter "Loop engine"). Signals are
signed Q0.31 (R398). -/

namespace Sys2Proof.Machine

/-- A command that waits for a loop's next update (R410-R412). -/
inductive LoopReq where
  | xfer (dst : Nat) (setman : Bool) (man : Int)
  | bank (b n : Nat)
  | setpt (t : Int)
  deriving DecidableEq, Repr

/-- One user loop (R406, Table: Loop status). -/
structure LoopSt where
  on : Bool := false
  /-- no update that formed the loop's terms has run since the start -/
  fresh : Bool := true
  auto : Bool := false
  handed : Bool := false
  moving : Bool := false
  dir : Int := 0
  swb : Bool := false
  /-- fade: position with 31 fractional bits, its start, target bank, updates made and to make -/
  lam : Nat := 0
  lam0 : Nat := 0
  fadeTgt : Nat := 0
  fadeJ : Nat := 0
  fadeN : Nat := 0
  /-- the fade was asked for at the update in progress: it moves on from the next one -/
  fadeNew : Bool := false
  windup : Bool := false
  held : Bool := false
  limConf : Bool := false
  target : Int := 0
  r : Int := 0
  y : Int := 0
  e : Int := 0
  p : Int := 0
  i : Int := 0
  dd : Int := 0
  ff : Int := 0
  u : Int := 0
  yhat : Int := 0
  resid : Int := 0
  bound : Int := 0
  /-- derivative states of the two banks, and the feedback of the update before -/
  ds : List Int := [0, 0]
  yPrev : Int := 0
  man : Int := 0
  /-- limits the last update used -/
  umin : Int := 0
  umax : Int := 0
  /-- automatic updates of the window, newest first: true where exceeding (R413) -/
  win : List Bool := []
  switchbacks : Nat := 0
  handovers : Nat := 0
  heldCnt : Nat := 0
  repeated : Nat := 0
  dropped : Nat := 0
  lastPreset : Int := 0
  lastRem : Int := 0
  /-- Milestone and monotonic time of the last update, and the Milestone last served -/
  lastMs : Nat := 0
  lastAt : Nat := 0
  servedMs : Option Nat := none
  /-- commands that wait for the next update, each with the command it answers -/
  req : List (Option CmdRef × LoopReq) := []
  deriving DecidableEq, Repr

/-- The injection and its capture (R416-R418). -/
structure InjSt where
  loop : Nat
  cmd : CmdRef
  block : Bytes
  /-- updates since the command's first -/
  k : Nat := 0
  /-- Milestone, TAI seconds and nanoseconds of the first point -/
  first : Option (Nat × Nat × Nat) := none
  /-- points captured, newest first: r + inj_sp, y, u, injection value -/
  pts : List (List Int) := []
  reg : List Bool := []
  phase : Nat := 0
  stop : Bool := false
  early : Bool := false
  heldN : Nat := 0
  capDone : Bool := false
  written : Bool := false
  deriving DecidableEq, Repr

/-- The trace (R419-R421). -/
structure TraceSt where
  cmd : CmdRef
  block : Bytes
  /-- points taken so far, and the number of the trigger point with its Milestone -/
  count : Nat := 0
  trig : Option (Nat × Nat) := none
  /-- last value of the trigger's logic bit -/
  prev : Bool := true
  ended : Bool := false
  cause : Nat := 0
  deriving DecidableEq, Repr

structure LoopsSt where
  loops : List LoopSt := List.replicate 32 {}
  inj : Option InjSt := none
  trace : Option TraceSt := none
  /-- the last output each device loop of the power stages and of the servo gave (R396) -/
  device : List Int := List.replicate 10 0
  deriving DecidableEq, Repr

end Sys2Proof.Machine
end

