-- ==== Sys2Proof/Machine/StPower.lean ====
section
/-! DEFINITION. State of the supply, the hold-up store and the backup domain's power status (chapter "Power, hold-up and
backup domain"). Defaults: right after reset the rails are good and VIN is good. -/

namespace Sys2Proof.Machine

/-- HU_STATE (Table: PWR.STATUS result). -/
inductive HuState where
  | off | charging | full | discharging | powerDown
  deriving DecidableEq, Repr

def HuState.code : HuState → Nat
  | .off => 0 | .charging => 1 | .full => 2 | .discharging => 3 | .powerDown => 4

structure PowerSt where
  vinGood : Bool := true
  vinOv : Bool := false
  hu : HuState := .charging
  /-- rails in their bands, in the order of RAIL_OK, and the latched brown-outs of RAIL_BO -/
  railOk : List Bool := List.replicate 6 true
  railBo : List Bool := List.replicate 6 false
  /-- instants of the brown-outs of the last 60 s (R425), on the present monotonic count -/
  boTimes : List Int := []
  /-- a core-rail brown-out holds the device before BOOT until the rails are good (R425) -/
  waitRails : Bool := false
  /-- a latched power fault keeps the device in BACKUP; VIN has fallen since (R425, R436) -/
  latched : Bool := false
  vinFell : Bool := false
  capLow : Bool := false
  vbatLow : Bool := false
  vbatLost : Bool := false
  tjHigh : Bool := false
  holdCap : Nat := 0
  rtCount : Nat := 0
  rtLast : Nat := 0
  /-- when VIN was lost, and when it became good again, on the present monotonic count -/
  lostAt : Int := 0
  goodAt : Int := 0
  /-- loads shed: steps 1-3 (R432) -/
  shed1 : Bool := false
  shed2 : Bool := false
  shed3 : Bool := false
  /-- a change to RIDE-THROUGH waits for the boundary (R430); VIN has been good for 50 ms and shed loads are to be restored
  at the boundary (R434) -/
  ridePend : Bool := false
  backPend : Bool := false
  pfault : Nat := 0
  /-- monotonic time from which the operating minute in progress runs (R438) -/
  minAt : Nat := 0
  /-- the backup domain runs from VBAT (R439) -/
  onVbat : Bool := false
  deriving DecidableEq, Repr

end Sys2Proof.Machine
end

