-- ==== Sys2Proof/Machine/StTrip.lean ====
section
/-! DEFINITION. State of the trip-output block and of the binary inputs (chapter "Trip path, outputs and takeover").
Defaults are the values right after reset: pins high impedance, nothing owned. -/

namespace Sys2Proof.Machine

/-- Trip-circuit supervision of a pin (Table: Trip and input status, TCS). -/
inductive Tcs where
  | off | healthy | alarm | stale
  deriving DecidableEq, Repr

def Tcs.code : Tcs → Nat
  | .off => 0 | .healthy => 1 | .alarm => 2 | .stale => 3

structure PinSt where
  /-- the bay and trip slot that own the pin, and the 16 bytes of the slot whose settings are in force -/
  owner : Option (Nat × Nat) := none
  cfg : Bytes := zeros 16
  level : Bool := false
  /-- last released demand and seal condition (R377, R379) -/
  demand : Bool := false
  sealCond : Bool := false
  /-- the level is that of the fail-safe policy (R88) -/
  fs : Bool := false
  /-- boundary of the last assertion, and since when the demand has been 0 -/
  tOn : Nat := 0
  tOff : Option Nat := none
  sealTo : Bool := false
  /-- a slot change has taken the demand away (R380): the bay whose seal condition still counts -/
  slotGone : Option Nat := none
  /-- held by its minimum pulse, held by seal-in -/
  minp : Bool := false
  sealed : Bool := false
  lastOn : Nat := 0
  ops : Nat := 0
  changedAt : Nat := 0
  rbFail : Bool := false
  rbAt : Nat := 0
  rbEpis : Nat := 0
  tcs : Tcs := .off
  /-- the circuit is in alarm, also while supervision is suspended -/
  tcsAlarm : Bool := false
  /-- since when the circuit has been healthy or unhealthy without a break, and which (R383) -/
  tcsSince : Option (Bool × Nat) := none
  tcsCode : Nat := 0
  deriving DecidableEq, Repr

/-- One binary input (R385). -/
structure BiSt where
  raw : Bool := false
  rawAt : Nat := 0
  /-- short time of the raw edge -/
  rawShort : Nat := 0
  accepted : Bool := false
  edge : Nat := 0
  deriving DecidableEq, Repr

structure TripSt where
  pins : List PinSt := List.replicate 32 {}
  /-- level of each TRB input as last told; none where it follows its pin through a healthy circuit -/
  trb : List (Option Bool) := List.replicate 32 none
  bi : List BiSt := List.replicate 64 {}
  /-- snapshot of the Milestone in progress, and levels at the last boundary at which pins were set -/
  snap : List Bool := List.replicate 64 false
  rawAtSet : List Bool := List.replicate 64 false
  snapAtSet : List Bool := List.replicate 64 false
  setMs : Nat := 0
  pinsAtSet : List PinSt := List.replicate 32 {}
  /-- pin and TRB levels as masks, and BI_EDGE of each input, at that boundary -/
  levelAtSet : Nat := 0
  trbAtSet : Nat := 0
  edgeAtSet : List Nat := List.replicate 64 0
  /-- pins drive (not high impedance) -/
  driven : Bool := false
  /-- a test pulse of TEST 4: pin and its end (R564) -/
  pulse : Option (Nat × Nat) := none
  deriving DecidableEq, Repr

end Sys2Proof.Machine
end

