-- ==== Sys2Proof/Machine/State.lean ====
section
/-! DEFINITION. The state of the block, plain data throughout; every default is the field's reset value. -/

namespace Sys2Proof.Machine

/-- Why the block stops with a fault. -/
inductive Fault where
  /-- raised by no meaning: kept for a command that would need a value the spec does not give and could not go on; safe -/
  | specSilent
  deriving DecidableEq, Repr

/-- Why a command has no meaning. -/
inductive Refusal where
  /-- raised by exec's arm of a command that has no meaning yet; safe -/
  | notModelled (mnemonic : String)
  deriving DecidableEq, Repr

/-- What has left the block and not yet been carried away: MSI-X messages (vector, address, data) and console lines. -/
structure OutSt where
  msix : List (Nat × Nat × Nat) := []
  uart : List UartLine := []
  /-- PTP messages -/
  ptp : List PtpTx := []
  /-- SV, GOOSE and redundancy frames -/
  wire : List TxFrame := []
  deriving DecidableEq, Repr

structure State where
  variant : Variant := .k64
  /-- commands waiting, first in first out: the model's own queue -/
  pending : List Instr := []
  clk : Clock := {}
  host : HostIf := {}
  mem : Mems := {}
  /-- accepted commands waiting for the boundary, in order of acceptance -/
  acts : List PendAct := []
  mode : ModeSt := {}
  pwr : PowerSt := {}
  acq : AcqSt := {}
  aux : AuxSt := {}
  filt : FiltSt := {}
  prot : ProtSt := {}
  rec_ : RecSt := {}
  loops : LoopsSt := {}
  dma : DmaSt := {}
  svc : SvcSt := {}
  trip : TripSt := {}
  tbl : TblSt := {}
  grid : GridSt := {}
  time : TimeSt := {}
  net : NetSt := {}
  log : LogSt := {}
  supv : SupvSt := {}
  sec : SecSt := {}
  out : OutSt := {}
  deriving DecidableEq, Repr

/-- The machine right after reset: every field at its default. -/
def State.reset : State := {}

end Sys2Proof.Machine
end

