-- ==== Sys2Proof/Machine/Ops.lean ====
section
/-! DEFINITION. The shared operations: raising an interrupt, entering an event into the Cairn queue, reaching memory,
writing a completion. -/

namespace Sys2Proof.Machine

/-- A free truth value at place `k` (log entry 4). -/
def openBool (k : Nat) (ops : List Int) : Bool := Config.freeBool k ops

/-- A free value of `w` bits at place `k` (log entry 4). -/
def openNat (k w : Nat) (ops : List Int) : Nat := (Config.freeInt k ops % ((2 ^ w : Nat) : Int)).toNat

/-! ### Time quality -/

/-- The largest `n` from 1 to 24 with 2^-n s not below the bound (Table: Time quality byte). -/
def timeAccuracy (bound : Nat) : Nat :=
  match (List.range 24).reverse.find? (fun i => decide (bound * 2 ^ (i + 1) ≤ 1000000000)) with
  | some i => i + 1
  | none => openNat 1 5 [bound]

/-- ClockNotSynchronized (Table: Time states; also while a step is pending). -/
def notSynchronized (t : TimeSt) : Bool :=
  t.pending.isSome || match t.state with
  | .free | .hostset | .locking => true
  | .locked => false
  | .holdover => match t.bound with | some b => decide (1000 < b) | none => true

/-- The time quality byte TQ (R128). -/
def tqByte (t : TimeSt) : Nat :=
  place (flag t.utcValid) 7 1 + place (flag t.clockFailure) 6 1 + place (flag (notSynchronized t)) 5 1 +
  (match t.state, t.bound with
   | .free, _ => 31 | .hostset, _ => 31 | _, none => 31
   | _, some b => timeAccuracy b)

/-! ### Interrupts (R43, R45, R46) -/

namespace Irq
def cq : Nat := 0
def mberr : Nat := 1
def mode : Nat := 2
def trip : Nat := 3
def rec : Nat := 4
def evt : Nat := 5
def time : Nat := 6
def supv : Nat := 7
def tamper : Nat := 8
def loop : Nat := 9
def dma : Nat := 10
def power : Nat := 11
def cqstall : Nat := 12
end Irq

/-- The endpoint reaches the host: link active and not held by PERST_N. -/
def HostIf.linkUp (h : HostIf) : Bool := h.pcieLink && !h.perst

/-- An MSI-X message of one vector: sent, or pending while the vector's mask bit is set (R46). -/
def sendMsix (v : Nat) (s : State) : State :=
  let e := s.host.regs.msix.getD v {}
  if e.ctrl.getLsbD 0 then
    { s with host := { s.host with regs := { s.host.regs with pba := s.host.regs.pba ||| BitVec.ofNat 32 (2 ^ v) } } }
  else if s.host.linkUp then
    { s with out := { s.out with msix := s.out.msix ++ [(v, e.addr.toNat, e.data.toNat)] } }
  else s

/-- Cause `i` of IRQ_STAT set; a 0-to-1 transition of an enabled cause sends its vector's message (R45, R46). -/
def raiseIrq (i : Nat) (s : State) : State :=
  let r := s.host.regs
  let s' := { s with host := { s.host with regs := { r with irqStat := r.irqStat ||| BitVec.ofNat 13 (2 ^ i) } } }
  if !r.irqStat.getLsbD i && r.irqMask.getLsbD i then sendMsix i s' else s'

/-- INT_N is driven low while an enabled cause is set (R43). -/
def intLow (s : State) : Bool := (s.host.regs.irqStat &&& s.host.regs.irqMask) != 0

/-! ### Entering an event (R492, R495, R498, R499) -/

namespace Src
def sys : Nat := 0x01
def power : Nat := 0x02
def time : Nat := 0x03
def grid : Nat := 0x04
def acq : Nat := 0x05
def net : Nat := 0x06
def plb : Nat := 0x07
def prot : Nat := 0x08
def trip : Nat := 0x09
def logic : Nat := 0x0A
def loop : Nat := 0x0B
def rec : Nat := 0x0C
def dma : Nat := 0x0D
def supv : Nat := 0x0E
def sec : Nat := 0x0F
def log : Nat := 0x10
def service : Nat := 0x11
end Src

/-- Sources with the queue's reserve (R498). -/
def hasReserve (src : Nat) : Bool :=
  src == Src.sys || src == Src.time || src == Src.trip || src == Src.supv || src == Src.sec || src == Src.log

/-- DATA items (Table: DATA items). -/
def dMs (n : Nat) : Bytes := leBytes 8 n
def dOfs (x : Int) : Bytes := leBytes 8 (codeOf x 64)
def dTai (sec ns : Nat) : Bytes := leBytes 6 sec ++ leBytes 4 ns
def dWord (x : Nat) : Bytes := leBytes 4 x
def dCount (x : Nat) : Bytes := leBytes 4 (satN 32 x)
def dCode (x : Nat) : Bytes := leBytes 1 x
def dUnit (x : Nat) : Bytes := leBytes 2 x
/-- A duration item: µs, saturating (Table: DATA items). -/
def dDur (u : Nat) : Bytes := dCount (u / usU 1)

/-- An event at a TAI instant, with the quality, step count and life counters in force now (R492). -/
def mkEventAt (s : State) (taiU src code unit : Nat) (data : Bytes) : Event :=
  { taiSec := (taiU / uPerNs / 1000000000) % 2 ^ 48, taiNs := taiU / uPerNs % 1000000000,
    tq := tqByte s.time, stepCnt := s.time.stepCnt.toNat, pwrCycles := s.log.pwrCycles, opMin := s.log.opMin,
    source := src, code := code, unit := unit, data := data }

/-- An event counted as lost (R499). -/
def loseEvent (ms : Nat) (e : Event) (l : LogSt) : LogSt :=
  { l with
    lostTotal := satN 32 (l.lostTotal + 1)
    overflow := match l.overflow with
      | none => some { count := 1, firstSource := e.source, firstMs := ms, lastMs := ms, first := e }
      | some o => some { o with count := o.count + 1, lastMs := ms } }

/-- An event entered into the queue, or lost: below 1024 entries for a source with the reserve, below 960 for any
other, and never for the latter from the first loss until the overflow record (R498, R499). -/
def enqueue (ms : Nat) (e : Event) (l : LogSt) : LogSt :=
  if hasReserve e.source then
    if l.queue.length < 1024 then { l with queue := l.queue ++ [e] } else loseEvent ms e l
  else if l.overflow.isNone && decide (l.queue.length < 960) then { l with queue := l.queue ++ [e] }
  else loseEvent ms e l

/-- Enters an event detected now. -/
def postEvent (src code unit : Nat) (data : Bytes) (s : State) : State :=
  { s with log := enqueue s.clk.ms (mkEventAt s s.clk.taiU src code unit data) s.log }

/-- Enters a time event: while Milestones run its record follows the grid records of the Milestone in progress (R149). -/
def postTime (code unit : Nat) (data : Bytes) (s : State) : State :=
  if s.clk.sclk then { s with log := { s.log with timeRecs := s.log.timeRecs ++ [mkEventAt s s.clk.taiU Src.time code unit data] } }
  else postEvent Src.time code unit data s

/-- The time records of the Milestone that ends enter the queue. -/
def flushTime (s : State) : State :=
  { s with log := s.log.timeRecs.foldl (fun l e => enqueue s.clk.ms e l) { s.log with timeRecs := [] } }

/-- Enters an event that results from the protection cycle of the Milestone in progress: it bears that Milestone's TAI
(R35, R492). -/
def postCycle (src code unit : Nat) (data : Bytes) (s : State) : State :=
  { s with log := enqueue s.clk.ms (mkEventAt s s.clk.msTai src code unit data) s.log }

/-! ### Reaching memory -/

/-- Size of the on-chip mailbox memory. -/
def mbxSize : Nat := 128 * 1024

/-- Bytes of DDR4 fitted: the largest the device addresses (DESIGN CHOICE, log entry 5). -/
def ddrSize : Nat := 2 ^ 33

/-- Whether `n` bytes at `a` of a space exist and answer now: host memory needs the trained link. -/
def reachable (s : State) (sp : Space) (a n : Nat) : Bool :=
  match sp with
  | .mbx => decide (a + n ≤ mbxSize)
  | .ddr => decide (a + n ≤ ddrSize)
  | .host => s.host.linkUp && decide (a + n ≤ 2 ^ 64)

def memRead (s : State) (sp : Space) (a n : Nat) : Bytes := s.mem.read sp a n

def memWrite (sp : Space) (a : Nat) (b : Bytes) (s : State) : State := { s with mem := s.mem.write sp a b }

/-- Bytes written where they can be reached, and dropped where not. -/
def memWriteIf (sp : Space) (a : Nat) (b : Bytes) (s : State) : State :=
  if reachable s sp a b.length then memWrite sp a b s else s

/-! ### Completions (R51, R55, R56) -/

/-- A ring's memory: LOC and the 64-byte aligned address of BASE_LO and BASE_HI (Table: Ring registers). -/
def ringSpace (lo : Word) : Space := if lo.getLsbD 0 then .mbx else .host
def ringAddr (lo hi : Word) : Nat := lo.toNat / 64 * 64 + 2 ^ 32 * hi.toNat

/-- The 32 bytes of a completion entry (Table: Completion entry). -/
def Completion.encode (c : Completion) (phase : Bool) (doneNs : Nat) : Bytes :=
  leBytes 4 (c.tag.toNat + place c.status.toNat 8 8 + place c.ring.toNat 16 2 + place (flag phase) 18 1 +
    place (flag c.final) 19 1 + place (flag c.noEffect) 20 1 + place c.slot.toNat 24 8) ++
  leBytes 4 (c.detail.toNat + place c.resLen.toNat 16 16) ++ leBytes 8 c.result.toNat ++
  leBytes 4 c.effectMs.toNat ++ leBytes 4 doneNs ++ zeros 8

def CompRing.size (q : CompRing) : Nat := 2 ^ q.log2n.toNat

/-- A ring of 2^LOG2N slots holds at most 2^LOG2N - 1 entries (R47). -/
def CompRing.full (q : CompRing) : Bool := (q.tail.toNat + 1) % q.size == q.head.toNat

/-- The slot after `i` of a ring of `n`. -/
def nextSlot (i n : Nat) : BitVec 8 := BitVec.ofNat 8 (if i + 1 < n then i + 1 else 0)

/-- The completion of an accepted SYS.RESTART names the Milestone that opens next once it is written (R90). -/
def restartEffect (c : Completion) (s : State) : Completion :=
  match s.mode.restart with
  | some { cmd := some r, .. } =>
    if r.ring == c.ring && r.slot == c.slot && r.tag == c.tag then { c with effectMs := BitVec.ofNat 32 (s.clk.ms + 1) } else c
  | _ => c

/-- One entry written at CQ_TAIL with the present PHASE, which inverts on each wrap; IRQ_STAT.CQ is set (R51, R45). While the ring's
memory cannot be reached the entry is lost, and CQ_TAIL and IRQ_STAT.CQ go on (DESIGN CHOICE, log entry 58). -/
def putCompletion (c : Completion) (s : State) : State :=
  let c := restartEffect c s
  let q := s.host.cq
  let a := ringAddr q.baseLo q.baseHi + 32 * q.tail.toNat
  let s := memWriteIf (ringSpace q.baseLo) a (c.encode q.phase s.clk.shortTime) s
  let wraps := decide (q.size ≤ q.tail.toNat + 1)
  raiseIrq Irq.cq
    { s with host := { s.host with cq := { q with tail := nextSlot q.tail.toNat q.size, phase := q.phase ^^ wraps } } }

/-- A completion written, or held in order with CQSTALL while the ring is full or disabled (R55, R56). -/
def complete (c : Completion) (s : State) : State :=
  if s.host.cq.en && !s.host.cq.full && s.host.held.isEmpty then putCompletion c s
  else raiseIrq Irq.cqstall { s with host := { s.host with held := s.host.held ++ [c] } }

/-- Held completions written in order while the ring has space (R55). -/
def flushHeld : List Completion → State → State
  | [], s => { s with host := { s.host with held := [] } }
  | c :: cs, s =>
    if s.host.cq.en && !s.host.cq.full then flushHeld cs (putCompletion c s)
    else { s with host := { s.host with held := c :: cs } }

end Sys2Proof.Machine
end

