-- ==== Sys2Proof/Machine/Command.lean ====
section
/-! DEFINITION. The common course of a mailbox command (R50-R54, R57, R68, R512, R542): its fields, its order against
the commands in flight, its judgement in the order of R52, and its completion. -/

namespace Sys2Proof.Machine

end Sys2Proof.Machine

namespace Sys2Proof

open Machine

/-! ### Fields of the entry (R50) -/

/-- The field `[lo + w - 1 : lo]` counted from byte `off` of the entry. -/
def Cmd.at_ (c : Cmd) (off lo w : Nat) : Nat := bitsOf c.bits.toNat (8 * off + lo) w

def Cmd.tag (c : Cmd) : Nat := c.at_ 0 0 8
def Cmd.family (c : Cmd) : Nat := c.at_ 0 8 8
def Cmd.verb (c : Cmd) : Nat := c.at_ 0 16 8
def Cmd.fence (c : Cmd) : Bool := c.at_ 0 24 1 == 1
def Cmd.interim (c : Cmd) : Bool := c.at_ 0 25 1 == 1
def Cmd.auth (c : Cmd) : Bool := c.at_ 0 26 1 == 1
def Cmd.unit (c : Cmd) : Nat := c.at_ 4 0 16
def Cmd.buf (c : Cmd) : Nat := c.at_ 8 0 64
def Cmd.bufLen (c : Cmd) : Nat := c.at_ 0x10 0 32
def Cmd.keySlot (c : Cmd) : Nat := c.at_ 0x34 0 8
def Cmd.token (c : Cmd) : Bytes := leBytes 8 (c.at_ 0x38 0 64)
/-- FAMILY.VERB as the code of Table: Xarik command set. -/
def Cmd.code (c : Cmd) : Nat := 256 * c.family + c.verb
/-- The entry's 64 bytes. -/
def Cmd.bytes (c : Cmd) : Bytes := leBytes 64 c.bits.toNat
/-- Bits ARGS+off of the argument area, by entry offset. -/
def Cmd.sargs (c : Cmd) (off lo w : Nat) : Int := signedOf (c.at_ off lo w) w

/-- BUF's space and address (Table: Command entry: bit 0 is LOC; 8-byte aligned). -/
def Cmd.bufSpace (c : Cmd) : Space := if c.buf % 2 == 1 then .mbx else .host
def Cmd.bufAddr (c : Cmd) : Nat := c.buf / 8 * 8
/-- Room in BUF: an address of 0 means none. -/
def Cmd.room (c : Cmd) : Nat := if c.buf == 0 then 0 else c.bufLen

end Sys2Proof

namespace Sys2Proof.Machine

/-- The bits of the entry's own fields outside ARGS: everything else outside ARGS is reserved (Table: Command entry). -/
def headerUsed : List (Nat × Nat × Nat) :=
  [(0, 0, 27), (4, 0, 16), (8, 0, 1), (8, 3, 61), (0x10, 0, 32), (0x34, 0, 8), (0x38, 0, 64)]

/-- A mask with ones at the fields given as (offset, low bit, width). -/
def usedMask (l : List (Nat × Nat × Nat)) : Nat :=
  l.foldl (fun m f => m ||| ((2 ^ f.2.2 - 1) <<< (8 * f.1 + f.2.1))) 0

/-- Offset, rounded down to a multiple of 4, of the first byte with a non-zero bit outside `used` (R50). -/
def cmdReservedAt (c : Cmd) (args : List (Nat × Nat × Nat)) : Option Nat :=
  let bad := c.bits.toNat &&& (2 ^ 512 - 1 - usedMask (headerUsed ++ args))
  (findIdxBelow 16 (fun i => bitsOf bad (32 * i) 32 != 0)).map (4 * ·)

/-! ### Completion statuses (Table: Completion status) -/

namespace St
def ok : Nat := 0x00
def queued : Nat := 0x01
def delayed : Nat := 0x02
def refused : Nat := 0x03
def absent : Nat := 0x04
def locked : Nat := 0x05
def auth : Nat := 0x06
def range : Nat := 0x07
def fault : Nat := 0x08
end St

namespace Rsn
def unknown : Nat := 1
def mode : Nat := 2
def capacity : Nat := 3
def overload : Nat := 4
def tagBusy : Nat := 5
def check : Nat := 6
def state : Nat := 7
def buffer : Nat := 8
end Rsn

/-- What a command's action answers. -/
structure Reply where
  status : Nat := 0
  detail : Nat := 0
  result : Nat := 0
  /-- bytes for BUF; none where the command returns nothing there -/
  out : Option Bytes := none
  /-- Milestone whose protection cycle is the first to use the change; none where no Milestone carries it (R51) -/
  effect : Option Nat := none
  deriving DecidableEq, Repr

def Reply.refuse (reason : Nat) : Reply := { status := St.refused, detail := reason }
def Reply.range (off : Nat) : Reply := { status := St.range, detail := off }
def Reply.fail (status detail : Nat) : Reply := { status := status, detail := detail }

/-- Outcome of a command's action: done now; accepted, with its effect and its completion at the next boundary; or going
on with a final completion to follow. -/
inductive Action where
  | done (r : Reply) (s : State)
  | atBoundary (detail result : Nat) (a : BAct) (s : State)
  | goesOn (s : State)

/-! ### Tokens (R511, R512) -/

/-- Commands that change configuration (Table: Xarik command set). -/
def changesConfig (code : Nat) : Bool :=
  [0x0102, 0x0104, 0x0201, 0x0202, 0x0301, 0x0302, 0x0304, 0x0401, 0x0402, 0x0403, 0x0501, 0x0601, 0x0701, 0x0801,
   0x0901, 0x0903, 0x0904, 0x0905, 0x0906, 0x0A01, 0x0A02].contains code ||
  [0x0B01, 0x0B02, 0x0C01, 0x0C02, 0x0C06, 0x0E02, 0x0F01, 0x0F02, 0x0F03, 0x0F04, 0x0F05, 0x1101, 0x1102, 0x1201,
   0x1202].contains code

/-- Commands whose Auth column reads "by setting" (Table: Xarik command set). -/
def bySetting (code : Nat) : Bool :=
  [0x0102, 0x0104, 0x0202, 0x0301, 0x0302, 0x0801, 0x0903, 0x0904, 0x0905, 0x0906, 0x0A01].contains code

/-- The codes of Table: Xarik command set. -/
def knownCode (code : Nat) : Bool :=
  changesConfig code ||
  [0x0101, 0x0103, 0x0203, 0x0303, 0x0602, 0x0702, 0x0902, 0x0907, 0x0B03, 0x0C03, 0x0C04, 0x0C05, 0x0D01, 0x0D02,
   0x0D03, 0x0E01, 0x1001, 0x1103, 0x1301, 0x1302, 0x1401, 0x1501].contains code

/-- The device is in provisioning while no slot holds a key of use 6 (R516). -/
def provisioning (s : SecSt) : Bool := !s.slots.any (fun k => k.use == 6)

/-- Key use a command's token needs now, where it needs one (R512). -/
def tokenUse (s : SecSt) (code : Nat) : Option Nat :=
  if bySetting code then if s.setAuth then some 3 else none
  else if code == 0x0E02 then some 4
  else if code == 0x1101 || code == 0x1102 then some 6
  else if code == 0x1202 then some 7
  else none

/-- The token of a command under a key: the first 8 bytes of HMAC-SHA256 over the 68 bytes of R511. -/
def tokenOf (key : Bytes) (c : Cmd) (ctr : Nat) : Bytes :=
  (hmacSha256 key (c.bytes.take 0x34 ++ leBytes 4 c.keySlot ++ leBytes 4 ctr ++ leBytes 8 Config.devUid.toNat)).take 8

/-- The verdict on a command's token against the key slots (R511, R512, R513, R516). -/
def judgeToken (s : SecSt) (c : Cmd) : TokenVerdict :=
  match tokenUse s c.code with
  | none => .notNeeded
  | some use =>
    if (c.code == 0x1101 || c.code == 0x1102) && provisioning s then
      if c.code == 0x1101 && !c.auth then .provisioning else .slotBad
    else if use == 3 && !s.slots.any (fun k => k.use == 3) then .slotBad
    else if !c.auth then .noToken
    else
      let k := s.slots.getD c.keySlot {}
      if c.keySlot ≥ 32 || k.use != use then .slotBad
      else if k.ctr < 2 ^ 32 - 1 && c.token == tokenOf k.key c k.ctr then .ok else .wrong

/-- CTR of a slot raised by 1, and its MRAM copy written whenever it has risen by 1024 since the last (R510). -/
def raiseCtr (s : SecSt) (slot : Nat) : SecSt :=
  let k := s.slots.getD slot {}
  let ks := modAt s.slots slot (fun k => { k with ctr := k.ctr + 1 })
  if k.ctrMram + 1024 ≤ k.ctr + 1 then { s with slots := ks.map (fun q => { q with ctrMram := q.ctr }) }
  else { s with slots := ks }

/-- The token check of a fetched command: a verified token raises the slot's CTR at once (R512). -/
def checkToken (c : Cmd) (s : State) : TokenVerdict × State :=
  let v := judgeToken s.sec c
  (v, if v == .ok then { s with sec := raiseCtr s.sec c.keySlot } else s)

/-- The AUTH detail of a failed verdict (Table: Completion status). -/
def authDetail : TokenVerdict → Option Nat
  | .noToken => some 1
  | .wrong => some 2
  | .slotBad => some 3
  | _ => none

/-- Every AUTH completion counts; at most one AUTH_FAIL record per 60 s carries the count since the last (R514). -/
def countAuthFail (s : State) : State :=
  let n := s.sec.authSince + 1
  let due := match s.sec.authRecAt with | none => true | some t => decide (t + secU 60 ≤ s.clk.mono)
  let sec :=
    { s.sec with
      authFails := satN 32 (s.sec.authFails + 1), authSince := if due then 0 else n,
      authRecAt := if due then some s.clk.mono else s.sec.authRecAt }
  let s := { s with sec := sec }
  if due then postEvent Src.sec 3 0 (dCount n) s else s

/-- A refused EVT.CLEAR: one record with the key slot and the AUTH detail, and CLEAR_DENIED (R506). -/
def clearDenied (c : Cmd) (detail : Nat) (s : State) : State :=
  postEvent Src.log 3 c.keySlot (dCode detail) { s with log := { s.log with clearDenied := satN 32 (s.log.clearDenied + 1) } }

/-! ### Commands in flight (R53) -/

/-- Entry `f` is the command `c`. -/
def InFlight.is (f : InFlight) (c : Cmd) : Bool := f.cmd.ring == c.ring && f.cmd.slot == c.slot && f.cmd.bits == c.bits

def findInFlight (s : State) (c : Cmd) : Option InFlight := s.host.inflight.find? (·.is c)

/-- SYS.MODE and SYS.RESTART run as if FENCE were set. -/
def cmdFenced (c : Cmd) : Bool := c.fence || c.code == 0x0102 || c.code == 0x0104

/-- LOGIC commands of one bay are executed one at a time (R358). -/
def logicOrder (c d : Cmd) : Bool :=
  c.family == 0x09 && d.family == 0x09 && (c.unit == d.unit || c.unit == 0x00FF || d.unit == 0x00FF)

/-- Commands whose own effect comes at a Milestone boundary: behind an earlier one of its ring, FAMILY and UNIT it takes effect at
that boundary too, in the order of R146, R286 and R370 (DEDUCED, log entry 64). -/
def boundaryTied (code : Nat) : Bool :=
  [0x0102, 0x0301, 0x0302, 0x0304, 0x0401, 0x0402, 0x0501, 0x0601, 0x0701, 0x0903, 0x0904, 0x0905, 0x0906, 0x0A01, 0x0A02, 0x0B01,
   0x0B02, 0x0C01, 0x0C02, 0x0C03, 0x1401].contains code

/-- The order of one ring's commands with the same FAMILY and UNIT: a later one waits until the earlier one has started, and until an
effect that comes at a boundary has come, unless its own comes at a boundary too (R53; DEDUCED, log entry 64). -/
def ringOrder (g f : InFlight) : Bool :=
  f.cmd.ring == g.cmd.ring && f.cmd.family == g.cmd.family && f.cmd.unit == g.cmd.unit &&
  (!g.started || (g.waiting && !boundaryTied f.cmd.code))

/-- Whether an earlier command in flight holds `f` back: a fence on either, one ring's order of one FAMILY and UNIT, for
TBL.SYNC the check of an earlier one, and a LOGIC command of the bay (R53, R64, R358). -/
def blocks (g f : InFlight) : Bool :=
  decide (g.order < f.order) &&
    (cmdFenced f.cmd || cmdFenced g.cmd || ringOrder g f || (f.cmd.code == 0x0202 && g.cmd.code == 0x0202) || logicOrder f.cmd g.cmd)

def mayStart (fs : List InFlight) (f : InFlight) : Bool := !fs.any (fun g => blocks g f)

/-- P5 overload: a fetched command has waited more than 1 ms to start, waits by order not counted (R542). -/
def overload (s : State) : Bool :=
  s.host.inflight.any (fun f => !f.started && mayStart s.host.inflight f && decide (f.waitFrom + msU 1 < s.clk.mono))

/-- A command leaves flight; the wait of those it alone held back starts to count now (R542). -/
def dropInFlight (c : Cmd) (s : State) : State :=
  let old := s.host.inflight
  let new := old.filter (fun f => !f.is c)
  let upd := new.map (fun f => if !mayStart old f && mayStart new f then { f with waitFrom := s.clk.mono } else f)
  { s with host := { s.host with inflight := upd } }

def markInFlight (c : Cmd) (g : InFlight → InFlight) (s : State) : State :=
  { s with host := { s.host with inflight := s.host.inflight.map (fun f => if f.is c then g f else f) } }

/-! ### Replies -/

/-- The completion of a command from a reply (R51, R52): NOEFFECT and 0xFFFF_FFFF when no Milestone carries an effect. -/
def Reply.completion (r : Reply) (tag : BitVec 8) (ring : BitVec 2) (slot : BitVec 8) (resLen : Nat) : Completion :=
  { tag := tag, status := BitVec.ofNat 8 r.status, ring := ring, slot := slot, final := true,
    noEffect := r.effect.isNone, detail := BitVec.ofNat 16 r.detail, resLen := BitVec.ofNat 16 resLen,
    result := BitVec.ofNat 64 r.result,
    effectMs := match r.effect with | none => 0xFFFFFFFF | some m => BitVec.ofNat 32 m }

/-- A command leaves flight with its final completion; while the supervisor core restarts, the completion waits for the end of
the restart (R57). -/
def conclude (c : Cmd) (x : Completion) (s : State) : State :=
  if s.mode.supvRst then markInFlight c (fun f => { f with applied := some x }) s else complete x (dropInFlight c s)

/-- The QUEUED interim entry (R51). -/
def queuedEntry (c : Cmd) (s : State) : State :=
  if c.interim then
    complete { tag := BitVec.ofNat 8 c.tag, status := BitVec.ofNat 8 St.queued, ring := c.ring, slot := c.slot, final := false } s
  else s

/-- One outcome of Table: Loser outcomes counted for class Pk (R541). -/
def bumpClass (k : Nat) (f : ClassCount → ClassCount) (s : State) : State :=
  { s with supv := { s.supv with classes := modAt s.supv.classes k f } }

def ClassCount.delay (c : ClassCount) : ClassCount := { c with delayed := satN 32 (c.delayed + 1) }
def ClassCount.refuse (c : ClassCount) : ClassCount := { c with refused := satN 32 (c.refused + 1) }
def ClassCount.drop (c : ClassCount) : ClassCount := { c with dropped := satN 32 (c.dropped + 1) }

/-- Under overload a command that starts late completes DELAYED with the Milestones beyond its normal point (R542, R52);
its normal point is 2 Milestones after its wait began (R54; log entry 6). -/
def lateReply (late : Nat) (r : Reply) : Reply :=
  if r.status == St.ok && late != 0 then { r with status := St.delayed, detail := satN 16 late } else r

/-- Milestones by which a command starts after its normal point, 0 without overload (log entry 6). -/
def lateness (s : State) (f : InFlight) : Nat :=
  if overload s && decide (f.waitFrom + msU 1 < s.clk.mono) && !f.started then (s.clk.mono - f.waitFrom) / s.clk.len - 2 else 0

/-- Milestones by which the command in flight started late. -/
def lateOf (c : Cmd) (s : State) : Nat := ((findInFlight s c).map (·.late)).getD 0

/-- A command's reply with the delay of a late start, which its class counts (R541, R542). -/
def delayed (c : Cmd) (r : Reply) (s : State) : Reply × State :=
  (lateReply (lateOf c s) r, if lateOf c s != 0 && r.status == St.ok then bumpClass 5 ClassCount.delay s else s)

/-- A result of `n` bytes is returned in BUF: it fits and the memory answers (R54). -/
def returns (c : Cmd) (n : Nat) (s : State) : Bool := decide (n ≤ c.room) && reachable s c.bufSpace c.bufAddr n

/-- A reply whose result is not returned: REFUSED, reason BUFFER, where it does not fit, FAULT, detail MEMORY, where the memory does not
answer; what the command has already put in force is still reported (R54, R66). -/
def Reply.unreturned (r : Reply) (c : Cmd) (n : Nat) : Reply :=
  { (if c.room < n then Reply.refuse Rsn.buffer else Reply.fail St.fault 3) with
    effect := r.effect, result := if r.effect.isSome then r.result else 0 }

/-- The final completion of a command: the result buffer first, then the entry (R54), DELAYED where it started late. -/
def finish (c : Cmd) (r : Reply) (s : State) : State :=
  let (r, s) := delayed c r s
  let s := if r.status == St.auth then countAuthFail s else s
  let s := if r.status == St.auth && c.code == 0x0E02 then clearDenied c r.detail s else s
  match r.out with
  | none => conclude c (r.completion (BitVec.ofNat 8 c.tag) c.ring c.slot 0) s
  | some b =>
    if returns c b.length s then
      conclude c (r.completion (BitVec.ofNat 8 c.tag) c.ring c.slot b.length) (memWrite c.bufSpace c.bufAddr b s)
    else conclude c ((r.unreturned c b.length).completion (BitVec.ofNat 8 c.tag) c.ring c.slot 0) s

/-- What is judged of a command before its action, in the order of R52. -/
structure Judge where
  absent : Bool := false
  modeBad : Bool := false
  /-- fields of ARGS in use, as (entry offset, low bit, width): every other bit of ARGS is reserved (R50) -/
  used : List (Nat × Nat × Nat) := []
  /-- range checks: (violated, offset of the field) -/
  range : List (Bool × Nat) := []
  locked : Bool := false

/-- The lowest offending offset, reserved bits among them (Table: Completion status, RANGE). -/
def Judge.rangeAt (j : Judge) (c : Cmd) : Option Nat :=
  let offs := (cmdReservedAt c j.used).toList ++ (j.range.filter (·.1)).map (·.2)
  offs.foldl (fun m o => match m with | none => some o | some x => some (min x o)) none

/-- The first status that applies, in the order ABSENT, REFUSED MODE, AUTH, RANGE, LOCKED (R52). -/
def Judge.verdict (j : Judge) (c : Cmd) (t : TokenVerdict) (cfgMode : Bool) : Option Reply :=
  if j.absent then some (Reply.fail St.absent 0)
  else if j.modeBad || cfgMode then some (Reply.refuse Rsn.mode)
  else match authDetail t with
    | some d => some (Reply.fail St.auth d)
    | none =>
      match j.rangeAt c with
      | some o => some (Reply.range o)
      | none => if j.locked then some (Reply.fail St.locked 0) else none

/-- Rings are served: MB_READY, no supervisor restart, and no SUPV cause in SAFE (R44, R57, R87). -/
def served (s : State) : Bool :=
  s.mode.mbReady && !s.mode.supvRst && !(s.mode.mode == .safe && s.mode.safe.getLsbD 3)

/-- R68: a configuration-changing command in RIDE-THROUGH or SAFE. -/
def cfgRefused (s : State) (code : Nat) : Bool :=
  changesConfig code && (s.mode.mode == .rideThrough || s.mode.mode == .safe)

/-- The command a later completion answers. -/
def refOf (c : Cmd) : CmdRef := { ring := c.ring, slot := c.slot, tag := BitVec.ofNat 8 c.tag }

/-- An accepted command put among those that wait for the boundary, its QUEUED entry written where it was asked for. -/
def addAct (c : Cmd) (detail result : Nat) (a : BAct) (s : State) : State :=
  let s := queuedEntry c (markInFlight c (fun f => { f with waiting := true }) s)
  { s with acts := s.acts ++ [{ cmd := refOf c, detail := detail, result := result, act := a }] }

/-- The command has started, as late as it is. -/
def begun (c : Cmd) (s : State) : State := markInFlight c (fun f => { f with started := true, late := lateness s f }) s

/-- The command is accepted: it answers OK, with its result returned. -/
def accepted (c : Cmd) (r : Reply) (s : State) : Bool :=
  r.status == St.ok && match r.out with | none => true | some b => returns c b.length s

/-- A command's action answers at once: the QUEUED entry of an accepted one where it was asked for, then the final one (R50, R51). -/
def answer (c : Cmd) (r : Reply) (s : State) : State := finish c r (if accepted c r s then queuedEntry c s else s)

/-- A posted entry taken in: refused while its TAG is in flight, else its token is checked and the command is in flight (R53, R512). -/
def enterFlight (c : Cmd) (s : State) : State :=
  if s.host.inflight.any (fun f => f.cmd.tag == c.tag) then
    complete ((Reply.refuse Rsn.tagBusy).completion (BitVec.ofNat 8 c.tag) c.ring c.slot 0) s
  else
    let (t, s) := checkToken c s
    let f : InFlight := { cmd := c, order := s.host.fetched, at_ := s.clk.mono, waitFrom := s.clk.mono, token := t }
    { s with host := { s.host with inflight := s.host.inflight ++ [f], fetched := s.host.fetched + 1 } }

/-- A command in flight that nothing holds back: judged, then its action runs; one that answers later writes its QUEUED entry where it
is accepted. -/
def startCommand (c : Cmd) (f : InFlight) (j : State → Judge) (act : State → TokenVerdict → Action) (s : State) : State :=
  match (j s).verdict c f.token (cfgRefused s c.code) with
  | some r => finish c r s
  | none =>
    match act (begun c s) f.token with
    | .done r t => answer c r t
    | .atBoundary d x a t => addAct c d x a t
    | .goesOn t => t

/-- The course of a command: it waits (no change) while the rings are not served or an earlier command holds it back;
then it starts. A command that no COMMAND_FETCH brought is taken in here. -/
def runCommand (c : Cmd) (j : State → Judge) (act : State → TokenVerdict → Action) (s : State) : State :=
  if !served s then s
  else
    let s := if (findInFlight s c).isSome then s else enterFlight c s
    match findInFlight s c with
    | none => s
    | some f => if f.started || !mayStart s.host.inflight f then s else startCommand c f j act s

/-- The block a command carries in BUF, or the reply that stands in its way: BUFLEN must be the length required, and the
memory must answer (R52, R54). -/
def readBlock (c : Cmd) (n : Nat) (s : State) : Except Reply Bytes :=
  if c.room != n then .error (Reply.refuse Rsn.buffer)
  else if !reachable s c.bufSpace c.bufAddr n then .error (Reply.fail St.fault 3)
  else .ok (memRead s c.bufSpace c.bufAddr n)

/-- The command in flight that a reference names. -/
def openCmd (s : State) (x : CmdRef) : Option Cmd :=
  (s.host.inflight.find? (fun f => f.cmd.ring == x.ring && f.cmd.slot == x.slot && f.cmd.tag == x.tag.toNat)).map (·.cmd)

/-- A line of the console (R549). -/
def uartLine (l : UartLine) (s : State) : State := { s with out := { s.out with uart := s.out.uart ++ [l] } }

/-- Console code of a completion (Table: Console errors). -/
def consoleCode (r : Reply) : Nat :=
  if r.status == St.refused then
    (if r.detail == Rsn.mode then 4 else if r.detail == Rsn.capacity || r.detail == Rsn.overload then 5 else 8)
  else if r.status == St.absent then 7
  else if r.status == St.locked then 8
  else if r.status == St.auth then 3
  else if r.status == St.range then 6
  else 9

/-- A reply on the console: its data, then the status line (R549, R550). -/
def consoleReply (r : Reply) (s : State) : State :=
  if r.status == St.ok || r.status == St.delayed then
    uartLine .ok (match r.out with
      | some b => uartLine (.vals b) s
      | none => if r.result == 0 then s else uartLine (.vals (leBytes 8 r.result)) s)
  else uartLine (.er (consoleCode r)) s

/-- The final completion of a command that went on. -/
def finishOpen (x : CmdRef) (r : Reply) (s : State) : State :=
  if x.console then consoleReply r s
  else match openCmd s x with
  | some c => finish c r s
  | none => s

/-- The number of the Milestone that the next boundary opens. -/
def nextMs (s : State) : Nat := s.clk.ms + 1

/-- One command of its own name: judged and done. -/
def command (c : Cmd) (j : State → Judge) (act : State → Action) (s : State) : State :=
  runCommand c j (fun s _ => act s) s

end Sys2Proof.Machine
end

