-- ==== Sys2Proof/Machine/HostRegs.lean ====
section
/-! DEFINITION. BAR0 registers, the QSPI target, the rings and the fetching of commands (R41-R57). -/

namespace Sys2Proof.Machine

/-! ### Reading registers -/

/-- DEV_CAPS0 (Table: DEV_ID and DEV_CAPS0-DEV_CAPS3). -/
def devCaps0 (v : Variant) : Nat :=
  v.bays + place v.clusters 8 4 + place v.standbys 12 3 + place v.regions 15 3 + place v.dies 18 2 + place v.sections 20 5
def devCaps1 (v : Variant) : Nat := v.svSubs + place 6 9 3 + place v.goosePubs 12 7 + place v.gooseSubs 19 9
def devCaps2 (v : Variant) : Nat :=
  (if v == .k8 then 1 else 3) + place v.pcieLanes 2 3 + place (flag (v == .k64)) 5 1 + place 1 6 1 + place 48 7 6 +
  place 3 13 2 + place 22 15 5

/-- VERSION of the image in a slot (Table: Image header). -/
def imageVersion (f : FwSlot) : Nat := u16At f.image 8

/-- DEV_CAPS3: XARIK_VER, 0 until MB_READY. -/
def devCaps3 (s : State) : Nat := if s.mode.mbReady then imageVersion (s.sec.fw.getD s.sec.active {}) else 0

def devId (v : Variant) : Nat := place 0x5A1 20 12 + place v.part 12 8 + place Config.step.toNat 8 4

/-- DEV_STATE (Table: DEV_STATE). -/
def devState (s : State) : Nat :=
  s.mode.mode.code + place (flag s.mode.mbReady) 4 1 + place (flag s.tbl.job.isSome) 5 1 +
  place (flag s.mode.supvRst) 6 1 + place s.mode.bootCode.toNat 8 8

def qspiCfg (r : Regs) : Nat := flag r.qspiQuad + place r.qspiDummy.toNat 1 6

def ringCfg (log2n : BitVec 4) (en : Bool) : Nat := log2n.toNat + place (flag en) 8 1

/-- One word of an MSI-X table entry. -/
def msixWord (e : MsixEntry) (i : Nat) : Nat :=
  if i == 0 then e.addr.toNat % 2 ^ 32 else if i == 1 then e.addr.toNat / 2 ^ 32 else if i == 2 then e.data.toNat else e.ctrl.toNat

/-- The value a read of BAR0 at an aligned offset returns; an undefined offset and a WO field return 0 (R42, R8). -/
def barValue (s : State) (off : Nat) : Nat :=
  let r := s.host.regs
  let q := s.host.cq
  match off with
  | 0x0000 => devId s.variant
  | 0x0010 => devCaps0 s.variant
  | 0x0014 => devCaps1 s.variant
  | 0x0018 => devCaps2 s.variant
  | 0x001C => devCaps3 s
  | 0x0020 => devState s
  | 0x0040 => r.irqStat.toNat
  | 0x0044 => r.irqMask.toNat
  | 0x0060 => s.clk.taiSec % 2 ^ 32
  | 0x0064 => r.taiHi.toNat
  | 0x0068 => r.taiNs.toNat
  | 0x0080 => qspiCfg r
  | 0x0084 => r.qspiWin.toNat
  | 0x0140 => q.baseLo.toNat
  | 0x0144 => q.baseHi.toNat
  | 0x0148 => ringCfg q.log2n q.en
  | 0x014C => q.tail.toNat
  | 0x0150 => q.head.toNat
  | 0x3000 => r.pba.toNat
  | _ =>
    if 0x0100 ≤ off ∧ off < 0x0140 then
      let g := s.host.rings.getD ((off - 0x0100) / 16) {}
      match off % 16 with
      | 0 => g.baseLo.toNat
      | 4 => g.baseHi.toNat
      | 8 => ringCfg g.log2n g.en
      | 12 => g.head.toNat
      | _ => 0
    else if 0x2000 ≤ off ∧ off < 0x2200 then msixWord (r.msix.getD ((off - 0x2000) / 16) {}) (off % 16 / 4)
    else 0

/-- A read of TAI_SEC_LO latches TAI_SEC_HI, STEP_CNT and TQ, and TAI_NS (R127). -/
def latchTai (s : State) : State :=
  let hi := s.clk.taiSec / 2 ^ 32 + place s.time.stepCnt.toNat 16 8 + place (tqByte s.time) 24 8
  { s with host := { s.host with regs :=
    { s.host.regs with taiHi := BitVec.ofNat 32 hi, taiNs := BitVec.ofNat 32 s.clk.taiSubNs } } }

/-- A read and its effect: only TAI_SEC_LO has one. -/
def barRead (off : Nat) (s : State) : Nat × State :=
  (barValue s off, if off == 0x0060 then latchTai s else s)

/-! ### Writing registers -/

def setRegs (f : Regs → Regs) (s : State) : State := { s with host := { s.host with regs := f s.host.regs } }
def setRing (k : Nat) (f : Ring → Ring) (s : State) : State := { s with host := { s.host with rings := modAt s.host.rings k f } }
def setCq (f : CompRing → CompRing) (s : State) : State := { s with host := { s.host with cq := f s.host.cq } }

/-- A ring register write or doorbell ignored under R47. -/
def mbErr (s : State) : State := raiseIrq Irq.mberr s

/-- W1C write of IRQ_STAT (R8, R45). -/
def writeIrqStat (v : Word) (s : State) : State :=
  setRegs (fun r => { r with irqStat := r.irqStat &&& ~~~(v.setWidth 13) }) s

/-- IRQ_MASK: a bit set whose cause is already pending sends its message (R46). -/
def writeIrqMask (v : Word) (s : State) : State :=
  let old := s.host.regs.irqMask
  let s := setRegs (fun r => { r with irqMask := v.setWidth 13 }) s
  (List.range 13).foldl
    (fun s i => if v.getLsbD i && !old.getLsbD i && s.host.regs.irqStat.getLsbD i then sendMsix i s else s) s

/-- Bytes of mailbox memory a ring occupies, where LOC is 1: (start, end); `entry` is 64 or 32 bytes. -/
def ringSpan (lo hi : Word) (log2n : BitVec 4) (entry : Nat) : Option (Nat × Nat) :=
  if lo.getLsbD 0 then some (ringAddr lo hi, ringAddr lo hi + entry * 2 ^ log2n.toNat) else none

/-- The spans in mailbox memory of the enabled rings other than number `skip` (4 is the completion ring). -/
def enabledSpans (s : State) (skip : Nat) : List (Nat × Nat) :=
  ((List.range 4).filterMap (fun k =>
    let g := s.host.rings.getD k {}
    if k != skip && g.en then ringSpan g.baseLo g.baseHi g.log2n 64 else none)) ++
  (if skip != 4 && s.host.cq.en then (ringSpan s.host.cq.baseLo s.host.cq.baseHi s.host.cq.log2n 32).toList else [])

/-- The checks of R47 on setting EN to 1: LOG2N 1-8, and a ring in mailbox memory fits and overlaps no enabled one. -/
def ringOk (s : State) (skip : Nat) (lo hi : Word) (log2n : BitVec 4) (entry : Nat) : Bool :=
  decide (1 ≤ log2n.toNat ∧ log2n.toNat ≤ 8) &&
  match ringSpan lo hi log2n entry with
  | none => true
  | some (a, b) => decide (b ≤ mbxSize) && !(enabledSpans s skip).any (fun p => decide (a < p.2 ∧ p.1 < b))

/-- Write of MBk_CFG (R47): LOG2N is class C, EN class D. -/
def writeRingCfg (k : Nat) (log2n : BitVec 4) (en : Bool) (s : State) : State :=
  let g := s.host.rings.getD k {}
  if g.en && log2n != g.log2n then mbErr s
  else if en && !ringOk s k g.baseLo g.baseHi log2n 64 then mbErr s
  else setRing k (fun g => { g with log2n := log2n, en := en }) s

/-- Setting CQ_CFG.EN: CQ_TAIL to 0, a new first pass with PHASE 1, the held entries first, in order (R56). -/
def enableCq (log2n : BitVec 4) (s : State) : State :=
  if s.host.cq.en then (if log2n != s.host.cq.log2n then mbErr s else s)
  else if !ringOk s 4 s.host.cq.baseLo s.host.cq.baseHi log2n 32 then mbErr s
  else
    let s := setCq (fun q => { q with log2n := log2n, en := true, tail := 0, phase := true }) s
    flushHeld s.host.held s

/-- Clearing CQ_CFG.EN: commands in flight go on, their completions are held; CQSTALL is set where commands are in
flight, and fetching stops (R56). -/
def disableCq (s : State) : State :=
  if !s.host.cq.en then s
  else
    let s := setCq (fun q => { q with en := false }) s
    if s.host.inflight.isEmpty then s else raiseIrq Irq.cqstall s

/-- Write of CQ_CFG. -/
def writeCqCfg (log2n : BitVec 4) (en : Bool) (s : State) : State :=
  if en then enableCq log2n s
  else if s.host.cq.en then (if log2n != s.host.cq.log2n then mbErr s else disableCq s)
  else setCq (fun q => { q with log2n := log2n }) s

/-- CQ_HEAD: the host consumes entries, and held completions are written as space allows (R55). -/
def writeCqHead (v : BitVec 8) (s : State) : State :=
  let s := setCq (fun q => { q with head := v }) s
  if s.host.cq.en then flushHeld s.host.held s else s

/-- A doorbell: ignored with MBERR while EN or MB_READY is 0 or when its value is not below 2^LOG2N (R47). -/
def ringDoorbell (k : Nat) (v : BitVec 8) (s : State) : State :=
  let g := s.host.rings.getD k {}
  if !g.en || !s.mode.mbReady || decide (2 ^ g.log2n.toNat ≤ v.toNat) then mbErr s
  else setRing k (fun g => { g with tail := v }) s

/-- A doorbell word: one whose upper bits are not 0 is a value not below 2^LOG2N (R47). -/
def doorbellWord (k : Nat) (v : Word) (s : State) : State := if 256 ≤ v.toNat then mbErr s else ringDoorbell k (v.setWidth 8) s

/-- The writable bits of BASE_LO: ADDR [31:6] and LOC. -/
def baseLoMask : Word := 0xFFFFFFC1

/-- Write of one word of an MSI-X table entry; clearing a mask bit with its message pending sends it. -/
def writeMsix (v i : Nat) (w : Word) (s : State) : State :=
  let s := setRegs (fun r => { r with msix := modAt r.msix v (fun e =>
    if i == 0 then { e with addr := (e.addr >>> 32 <<< 32) ||| (w.setWidth 64 &&& 0xFFFFFFFC) }
    else if i == 1 then { e with addr := (e.addr &&& 0xFFFFFFFF) ||| (w.setWidth 64 <<< 32) }
    else if i == 2 then { e with data := w } else { e with ctrl := w &&& 1 }) }) s
  if i == 3 && !w.getLsbD 0 && s.host.regs.pba.getLsbD v then
    sendMsix v (setRegs (fun r => { r with pba := r.pba &&& ~~~(BitVec.ofNat 32 (2 ^ v)) }) s)
  else s

/-- A write of BAR0 at an aligned offset: RO fields and undefined offsets ignore it (R8, R42, R44, R47). -/
def barWrite (off : Nat) (v : Word) (s : State) : State :=
  match off with
  | 0x0040 => writeIrqStat v s
  | 0x0044 => writeIrqMask v s
  | 0x0080 => setRegs (fun r => { r with qspiQuad := v.getLsbD 0, qspiDummy := (v >>> 1).setWidth 6 }) s
  | 0x0084 => setRegs (fun r => { r with qspiWin := v.setWidth 13 }) s
  | 0x0140 => if s.host.cq.en then mbErr s else setCq (fun q => { q with baseLo := v &&& baseLoMask }) s
  | 0x0144 => if s.host.cq.en then mbErr s else setCq (fun q => { q with baseHi := v }) s
  | 0x0148 => writeCqCfg (v.setWidth 4) (v.getLsbD 8) s
  | 0x0150 => writeCqHead (v.setWidth 8) s
  | 0x0200 => doorbellWord 0 v s
  | 0x0204 => doorbellWord 1 v s
  | 0x0208 => doorbellWord 2 v s
  | 0x020C => doorbellWord 3 v s
  | _ =>
    if 0x0100 ≤ off ∧ off < 0x0140 then
      let k := (off - 0x0100) / 16
      let g := s.host.rings.getD k {}
      match off % 16 with
      | 0 => if g.en then mbErr s else setRing k (fun g => { g with baseLo := v &&& baseLoMask }) s
      | 4 => if g.en then mbErr s else setRing k (fun g => { g with baseHi := v }) s
      | 8 => writeRingCfg k (v.setWidth 4) (v.getLsbD 8) s
      | _ => s
    else if 0x2000 ≤ off ∧ off < 0x2200 then writeMsix ((off - 0x2000) / 16) (off % 16 / 4) v s
    else s

/-- A write access of the host at a 4-byte aligned offset (R42): a narrower one is discarded, a 64-bit one split, lower address first. -/
def hostWrite (off : Nat) (w : BarWrite) (s : State) : State :=
  match w with
  | .narrow => s
  | .word v => barWrite (off / 4 * 4) v s
  | .double v =>
    barWrite (off / 8 * 8 + 4) ((v >>> 32).setWidth 32) (barWrite (off / 8 * 8) (v.setWidth 32) s)

/-! ### Fetching (R53, R54, R56) -/

def ringPosted (g : Ring) : Bool := g.en && g.head != g.tail

/-- The ring the device fetches from next: MB0 first, then MB1-MB3 in turn (R53). -/
def nextRing (h : HostIf) : Option Nat :=
  if ringPosted (h.rings.getD 0 {}) then some 0
  else [0, 1, 2].findSome? (fun i =>
    let k := (h.turn.toNat + 2 + i) % 3 + 1
    if ringPosted (h.rings.getD k {}) then some k else none)

/-- Fetching is possible: the rings are served, the completion ring is enabled, not full and nothing is held, no SYS.RESTART has
stopped it, and a tag is free: with 256 commands in flight nothing is fetched, so that no TAG_BUSY is answered then (DESIGN
CHOICE, log entry 58) (R53, R55, R56, R90). -/
def canFetch (s : State) : Bool :=
  served s && s.host.cq.en && !s.host.cq.full && s.host.held.isEmpty && !s.host.fetchStop && decide (s.host.inflight.length < 256)

/-- One posted entry fetched and taken in (R53, R512); while the ring's memory cannot be reached the entry waits unfetched (DESIGN
CHOICE, log entry 58). -/
def fetchOne (s : State) : State :=
  if !canFetch s then s else
  match nextRing s.host with
  | none => s
  | some k =>
    let g := s.host.rings.getD k {}
    let n := 2 ^ g.log2n.toNat
    let i := g.head.toNat % n
    let sp := ringSpace g.baseLo
    let a := ringAddr g.baseLo g.baseHi + 64 * i
    if !reachable s sp a 64 then s else
    let c : Cmd := { bits := BitVec.ofNat 512 (leAt (memRead s sp a 64) 0 64), ring := BitVec.ofNat 2 k, slot := BitVec.ofNat 8 i }
    let s := setRing k (fun g => { g with head := nextSlot i n }) s
    let s := if k == 0 then s else { s with host := { s.host with turn := BitVec.ofNat 2 (k % 3 + 1) } }
    enterFlight c s

/-- Under overload a command not started within 50 ms of its fetch is refused (R542). -/
def startTimeout (tag : BitVec 8) (s : State) : State :=
  match s.host.inflight.find? (fun f => f.cmd.tag == tag.toNat) with
  | none => s
  | some f =>
    if f.started || !mayStart s.host.inflight f then s
    else
      let s := { s with clk := s.clk.advance (f.waitFrom + msU 50) }
      finish f.cmd (Reply.refuse Rsn.overload) (bumpClass 5 ClassCount.refuse s)

/-! ### QSPI target (R48, R49) -/

/-- One byte read through the QSPI address map: registers, mailbox memory, DDR4 window; elsewhere the byte is free. -/
def qspiByte (a : Nat) (s : State) : Nat × State :=
  if a < 0x4000 then
    let w := if a % 4 == 0 then barRead a s else (barValue s (a / 4 * 4), s)
    (bitsOf w.1 (8 * (a % 4)) 8, w.2)
  else if 0x010000 ≤ a ∧ a < 0x030000 then ((s.mem.mbx.read (a - 0x010000)).toNat, s)
  else if 0x100000 ≤ a ∧ a < 0x200000 then ((s.mem.ddr.read (s.host.regs.qspiWin.toNat * 2 ^ 20 + (a - 0x100000))).toNat, s)
  else (openNat 2 8 [a], s)

/-- `n` bytes at rising addresses; a word's upper bytes come from the word read at its first byte. -/
def qspiBytes : Nat → Nat → State → Bytes × State
  | 0, _, s => ([], s)
  | n + 1, a, s =>
    let (b, s) := qspiByte (a % 2 ^ 24) s
    let (bs, s) := qspiBytes n (a + 1) s
    (BitVec.ofNat 8 b :: bs, s)

/-- The dummy clocks in force: 8-32, other values act as 32 (Table: QSPI_CFG and QSPI_WIN). -/
def dummyClocks (r : Regs) : Nat := if 8 ≤ r.qspiDummy.toNat ∧ r.qspiDummy.toNat ≤ 32 then r.qspiDummy.toNat else 32

/-- CS_N rises: QUAD takes effect, and ERR tells whether the frame was rejected (R48). -/
def csRise (err : Bool) (s : State) : State := setRegs (fun r => { r with qspiQuadNow := r.qspiQuad, qspiErr := err }) s

/-- A READ frame. The minimum of DUMMY in the DDR4 window is applied at a clock of 50 MHz and above, and the frame's start address alone
decides whether it falls in the window (R49; DESIGN CHOICE, log entry 55). -/
def qspiReadFrame (addr len mhz : Nat) (s : State) : State :=
  let inDdr := decide (0x100000 ≤ addr ∧ addr < 0x200000)
  if inDdr && decide (50 ≤ mhz) && decide (dummyClocks s.host.regs < 24) then
    csRise true (setRegs (fun r => { r with qspiOut := List.replicate len 0xFF#8 }) s)
  else
    let (bs, s) := qspiBytes len addr s
    csRise false (setRegs (fun r => { r with qspiOut := bs }) s)

/-- The data of a WRITE frame, byte by byte, at addresses that wrap at 2^24: `acc` holds the bytes of the register word in progress,
lowest first, and a register is written when the fourth byte of its aligned word arrives. Answers whether the frame is rejected: a
register word of which not all four bytes came, or a byte with no target, which is dropped (DESIGN CHOICE, log entry 55). -/
def qspiWriteBytes : Nat → Bytes → Bytes → Bool → State → Bool × State
  | _, [], acc, bad, s => (bad || !acc.isEmpty, s)
  | a', b :: bs, acc, bad, s =>
    let a := a' % 2 ^ 24
    if a < 0x4000 then
      if a % 4 != acc.length then qspiWriteBytes (a + 1) bs [] true s
      else if acc.length == 3 then
        qspiWriteBytes (a + 1) bs [] bad (barWrite (a / 4 * 4) (BitVec.ofNat 32 (leAt (acc ++ [b]) 0 4)) s)
      else qspiWriteBytes (a + 1) bs (acc ++ [b]) bad s
    else if 0x010000 ≤ a ∧ a < 0x030000 then qspiWriteBytes (a + 1) bs [] bad (memWrite .mbx (a - 0x010000) [b] s)
    else if 0x100000 ≤ a ∧ a < 0x200000 then
      qspiWriteBytes (a + 1) bs [] bad (memWrite .ddr (s.host.regs.qspiWin.toNat * 2 ^ 20 + (a - 0x100000)) [b] s)
    else qspiWriteBytes (a + 1) bs [] true s

def qspiWriteFrame (addr : Nat) (data : Bytes) (s : State) : State :=
  let (err, s) := qspiWriteBytes addr data [] false s
  csRise err s

/-- STAT: INT, BUSY (a write is posted at once here) and ERR, which the read clears (R48). -/
def qspiStatFrame (s : State) : State :=
  let b := flag (intLow s) + place (flag s.host.regs.qspiErr) 2 1
  csRise false (setRegs (fun r => { r with qspiOut := [BitVec.ofNat 8 b] }) s)

end Sys2Proof.Machine
end

