-- ==== Sys2Proof/Machine/HostExec.lean ====
section
/-! DEFINITION. The rows of the host interface: fetching, doorbells, ring and interrupt registers, the QSPI target, and
the PCIe link. -/

namespace Sys2Proof.Machine

/-- The three outcomes of a command. -/
abbrev Out := Host.Outcome State Fault Refusal

/-- UNKNOWN_COMMAND (R68): an entry whose code is not in the command set is ordered like any other and completes with REFUSED, reason
UNKNOWN. -/
def execUnknownCommand (c : Cmd) (s : State) : Out :=
  .next (command c (fun _ => { used := [(0x14, 0, 256)] }) (fun s => .done (Reply.refuse Rsn.unknown) s) s)

/-- COMMAND_FETCH (R53). -/
def execCommandFetch (s : State) : Out := .next (fetchOne s)

/-- COMMAND_START_TIMEOUT (R542). -/
def execCommandStartTimeout (tag : BitVec 8) (s : State) : Out := .next (startTimeout tag s)

/-- MB_DOORBELL (R47). -/
def execMbDoorbell (k : BitVec 2) (tail : BitVec 8) (s : State) : Out := .next (ringDoorbell k.toNat tail s)

/-- RING_ENABLE (R47): MBk_CFG written with EN 1. -/
def execRingEnable (k : BitVec 2) (log2n : BitVec 4) (s : State) : Out := .next (writeRingCfg k.toNat log2n true s)

/-- CQ_HEAD_WRITE (R55). -/
def execCqHeadWrite (head : BitVec 8) (s : State) : Out := .next (writeCqHead head s)

/-- CQ_ENABLE (R56): CQ_CFG written with EN 1. -/
def execCqEnable (log2n : BitVec 4) (s : State) : Out := .next (enableCq log2n s)

/-- CQ_DISABLE (R56): CQ_CFG.EN cleared. -/
def execCqDisable (s : State) : Out := .next (disableCq s)

/-- IRQ_STAT_WRITE (R45). -/
def execIrqStatWrite (v : Word) (s : State) : Out := .next (writeIrqStat v s)

/-- IRQ_MASK_WRITE (R46). -/
def execIrqMaskWrite (v : Word) (s : State) : Out := .next (writeIrqMask v s)

/-- TAI_SEC_LO_READ (R127). -/
def execTaiSecLoRead (s : State) : Out := .next (latchTai s)

/-- REGISTER_WRITE (R42, R44): a write of BAR0 at `off`. -/
def execRegisterWrite (off : BitVec 14) (w : BarWrite) (s : State) : Out := .next (hostWrite off.toNat w s)

/-- QSPI_READ (R48, R49): `mhz` is the QSPI clock. -/
def execQspiRead (addr : BitVec 24) (len mhz : Nat) (s : State) : Out := .next (qspiReadFrame addr.toNat len mhz s)

/-- QSPI_WRITE (R48). -/
def execQspiWrite (addr : BitVec 24) (data : Bytes) (s : State) : Out := .next (qspiWriteFrame addr.toNat data s)

/-- QSPI_STAT (R48). -/
def execQspiStat (s : State) : Out := .next (qspiStatFrame s)

end Sys2Proof.Machine
end

