-- ==== Sys2Proof/Machine/Grid.lean ====
section
/-! DEFINITION. The Milestone grid: GRID.MODE, GRID.SYNC, the sync edge, Causeway, references and loop 8 (R96-R122). -/

namespace Sys2Proof.Machine

def setGrid (f : GridSt → GridSt) (s : State) : State := { s with grid := f s.grid }
def setClk (f : Clock → Clock) (s : State) : State := { s with clk := f s.clk }

/-! ### Status and records (R120, R121) -/

/-- The status word at 0x40 (Table: Grid status). -/
def gridStatus (g : GridSt) : Nat :=
  g.cfg.gmode + place g.sync.code 2 2 + place (flag g.hold) 4 1 + place (flag g.toNominal) 5 1 + place (flag g.refused) 6 1 +
  place (flag g.slewLimited) 7 1 + place (match g.refSel with | none => 7 | some k => k) 8 3 + place (flag g.cfg.cwLead) 11 1 +
  place (flag g.pllCw) 12 1 + place (flag g.frameMismatch) 13 1

/-- A grid event: IRQ_STAT.TIME and one record with what its own rule names, the Milestone number and the status word
(R121, R112; the order is log entry 8). -/
def gridEvent (code : Nat) (more : Bytes) (s : State) : State :=
  raiseIrq Irq.time (postEvent Src.grid code 0 (more ++ dMs s.clk.ms ++ dWord (gridStatus s.grid)) s)

/-- Sync state changed, with the record of a change. -/
def setSync (x : SyncState) (s : State) : State :=
  if s.grid.sync = x then s else gridEvent 1 [] (setGrid (fun g => { g with sync := x }) s)

/-! ### GRID.MODE (R100-R102, R116) -/

def gridCfgOf (c : Cmd) : GridCfg :=
  { gmode := c.at_ 0x14 0 2, frate := c.at_ 0x14 2 1, syncSrc := c.at_ 0x14 4 2, cwLead := c.at_ 0x14 6 1 == 1,
    nominal := c.at_ 0x14 7 1, holdMode := c.at_ 0x14 8 1 == 1, followFb := c.at_ 0x14 9 1 == 1, slew := c.at_ 0x14 16 16,
    refs := [c.at_ 0x18 0 16, c.at_ 0x18 16 16, c.at_ 0x1C 0 16, c.at_ 0x1C 16 16], vmin := c.at_ 0x20 0 16,
    holdT := c.at_ 0x20 16 16, cwDlySync := c.at_ 0x24 0 16,
    cwDlyTrg := [c.at_ 0x28 0 16, c.at_ 0x28 16 16, c.at_ 0x2C 0 16, c.at_ 0x2C 16 16], syncOfs := c.sargs 0x30 0 16 }

def refKind (d : Nat) : Nat := bitsOf d 14 2
def refNum (d : Nat) : Nat := bitsOf d 0 9

/-- The fields of GRID.MODE that are not reserved. -/
def gridUsed : List (Nat × Nat × Nat) :=
  [(0x14, 0, 3), (0x14, 4, 6), (0x14, 16, 16), (0x18, 0, 9), (0x18, 14, 11), (0x18, 30, 2), (0x1C, 0, 9), (0x1C, 14, 11),
   (0x1C, 30, 2), (0x20, 0, 32), (0x24, 0, 16), (0x28, 0, 32), (0x2C, 0, 32), (0x30, 0, 16)]

/-- SYNC_SRC and CW_LEAD allowed with GMODE (Table: GRID.MODE arguments). -/
def gridCombinationBad (c : GridCfg) : Bool :=
  c.gmode == 3 || (c.gmode == 0 && c.syncSrc == 3) || (c.gmode == 1 && c.syncSrc != 0) || (c.gmode == 2 && c.syncSrc != 3) ||
  (c.cwLead && c.gmode == 2)

/-- A descriptor that names a lane with k below 4 (R101), or a number its KIND does not have. -/
def refBad (d : Nat) : Bool :=
  (refKind d == 1 && refNum d % 8 < 4) || (refKind d == 2 && 64 ≤ refNum d) || (refKind d == 3 && 16 ≤ refNum d)

/-- A descriptor of a unit the variant lacks (R101). -/
def refAbsent (v : Variant) (d : Nat) : Bool :=
  (refKind d == 1 && v.lanes ≤ refNum d) || (refKind d == 2 && v.bays ≤ refNum d) || (refKind d == 3 && v.sections ≤ refNum d)

def gridRange (c : GridCfg) : List (Bool × Nat) :=
  [(gridCombinationBad c || c.slew < 5 || 500 < c.slew, 0x14),
   (refBad (c.refs.getD 0 0) || refBad (c.refs.getD 1 0), 0x18), (refBad (c.refs.getD 2 0) || refBad (c.refs.getD 3 0), 0x1C),
   (c.vmin < 10 || 500 < c.vmin || c.holdT < 1 || 3600 < c.holdT, 0x20), (1000 < c.cwDlySync, 0x24),
   (1000 < c.cwDlyTrg.getD 0 0 || 1000 < c.cwDlyTrg.getD 1 0, 0x28), (1000 < c.cwDlyTrg.getD 2 0 || 1000 < c.cwDlyTrg.getD 3 0, 0x2C),
   (c.syncOfs < -20000 || 20000 < c.syncOfs, 0x30)]

/-- The configuration that will be in force after the next boundary. -/
def gridLatest (s : State) : GridCfg :=
  s.acts.foldl (fun c a => match a.act with | .gridMode g => g | _ => c) s.grid.cfg

/-- A class C change outside CONFIGURE (R102). -/
def gridLocked (s : State) (c : GridCfg) : Bool :=
  let old := gridLatest s
  s.mode.mode != .configure && ((c.gmode == 2) != (old.gmode == 2) || c.cwLead != old.cwLead)

def gridJudge (c : Cmd) (s : State) : Judge :=
  { used := gridUsed, range := gridRange (gridCfgOf c), locked := gridLocked s (gridCfgOf c) }

/-- References of units the variant lacks (R101: DETAIL). -/
def gridWarnings (v : Variant) (c : GridCfg) : Nat := (c.refs.filter (refAbsent v)).length

/-- GRID_MODE (R100): applied as a whole at the next boundary; into FOLLOW after the relock of R116, which ends with GRID_FOLLOW_RELOCK
where CW_CLK is valid and with CW_CLK_LOSS where it is not. -/
def execGridMode (c : Cmd) (s : State) : Out :=
  .next (command c (gridJudge c) (fun s =>
    let g := gridCfgOf c
    if g.gmode == 2 && (gridLatest s).gmode != 2 then
      .goesOn (setGrid (fun x => { x with relock := some (g, refOf c) }) (queuedEntry c s))
    else
      .atBoundary (gridWarnings s.variant g) 0 (.gridMode g) s) s)

/-- The PLLs take another reference, with its record (R116, R121). -/
def setPll (cw : Bool) (s : State) : State :=
  if s.grid.pllCw = cw then s else gridEvent 7 [] (setGrid (fun x => { x with pllCw := cw }) s)

/-- CW_CLK is valid no longer, or is not valid: PLLs locked to it fall back to REFCLK, and a GRID.MODE into FOLLOW that waits for it is
refused (R38, R116). -/
def loseCwClk (s : State) : State :=
  let t := setPll false (setGrid (fun g => { g with cwClkGood := false, relock := none }) s)
  match s.grid.relock with
  | none => t
  | some (_, x) => finishOpen x (Reply.refuse Rsn.state) t

/-- GRID_FOLLOW_RELOCK (R116): the clock monitor has found a valid CW_CLK and the PLLs have relocked to it. -/
def execGridFollowRelock (s : State) : Out :=
  .next (match s.grid.relock with
    | none => s
    | some (g, x) =>
      let s := setPll true (setGrid (fun x => { x with cwClkGood := true, relock := none }) s)
      { s with acts := s.acts ++ [{ cmd := x, detail := gridWarnings s.variant g, act := .gridMode g }] })

/-! ### The sync error (R110-R113) -/

/-- Time `b` less time `e`, wrapped to one Milestone around 0 (R110). -/
def wrapErr (b e : Int) (len : Nat) : Int :=
  let x := (b - e) % (len : Int)
  if (len : Int) ≤ 2 * x then x - len else x

/-- 2 % of a Milestone: what a boundary may move in one cycle frame (R111). -/
def frameMove (len : Nat) : Int := (len : Int) / 50

def inNs (x : Int) : Int := x / (uPerNs : Int)

/-- A refused measurement (R112): nothing moves; the first refusal after an accepted one is recorded. The SYNC field has no code for
it: it shows acquiring (DESIGN CHOICE, log entry 51). -/
def refuseEdge (e : Int) (s : State) : State :=
  let first := !s.grid.refused
  let s := setGrid (fun g => { g with err := some e, lockCount := 0, refused := true, refusals := satN 16 (g.refusals + 1) }) s
  let s := setSync .acquiring s
  if first then gridEvent 2 (dOfs (inNs e)) s else s

/-- An accepted measurement (R111): the boundary is to move by e, the trim follows, and three in a row within 100 ns lock. -/
def acceptEdge (e trim : Int) (need : Nat) (counts : Bool) (s : State) : State :=
  let good := decide (e.natAbs ≤ 100 * uPerNs)
  let n := if good then (if counts then s.grid.lockCount + 1 else s.grid.lockCount) else 0
  let s := setGrid (fun g => { g with
    err := some e, refused := false, lockCount := n, corr := e, corrLeft := 0, corrFrame := 0, trim := trim }) s
  setSync (if need ≤ n then .locked else .acquiring) s

/-- The trim an accepted error needs, in 0.001 ppm: the integral term's gain is the device's own (log entry 7). -/
def trimNeeded (g : GridSt) (e : Int) : Int := Config.freeInt 5 [g.trim, e]

/-- One measurement judged: accepted up to 25 % with a trim within 100 ppm, refused above (R111, R112). -/
def judgeEdge (e : Int) (need : Nat) (counts : Bool) (s : State) : State :=
  let trim := trimNeeded s.grid e
  if 4 * e.natAbs ≤ s.clk.len ∧ trim.natAbs ≤ 100000 then acceptEdge e trim need counts s else refuseEdge e s

/-- The monotonic instant of the last TAI second (the PTP 1 PPS edge, R110). -/
def lastSecond (c : Clock) : Int := (c.mono : Int) - (c.taiU % secU 1 : Nat)

/-- GRID_SYNC_EDGE (R110): an edge of PPS_IN at a monotonic time in ns, or the PTP 1 PPS edge of the time counter. An edge
in the Milestone in which a STEP takes effect is discarded (R122). -/
def execGridSyncEdge (t : Nat) (s : State) : Out :=
  .next (
    let s := setClk (·.advance (t * uPerNs)) s
    let src := s.grid.cfg.syncSrc
    if s.grid.stepNow || !(src == 1 || (src == 2 && s.time.ptpSecond)) then s
    else
      let edge := (if src == 1 then ((t * uPerNs : Nat) : Int) else lastSecond s.clk) + s.grid.cfg.syncOfs * uPerNs
      judgeEdge (wrapErr s.clk.openedAt edge s.clk.len) 3 true (setGrid (fun g => { g with lastEdge := s.clk.mono }) s))

/-- GRID_SYNC_LOST (R113): no edge for 2.5 s. -/
def execGridSyncLost (s : State) : Out :=
  .next (
    if s.grid.sync == .none || s.grid.sync == .lost || !(s.grid.cfg.syncSrc == 1 || s.grid.cfg.syncSrc == 2) then s
    else
      setSync .lost (setGrid (fun g => { g with lockCount := 0 }) (setClk (·.advance (s.grid.lastEdge + msU 2500)) s)))

/-! ### GRID.SYNC (R114) -/

/-- The error GRID.SYNC acts on: the present one of a correction under way, else the last measured. -/
def presentErr (g : GridSt) : Option Int := if g.slewing then some g.corr else g.err

def framesNeeded (e : Int) (len : Nat) : Nat :=
  let m := (frameMove len).natAbs
  if m = 0 then 0 else (e.natAbs + m - 1) / m

/-- OP 1 SLEW, 2 STEP; STEP has its own modes. -/
def syncJudge (c : Cmd) (s : State) : Judge :=
  let op := c.at_ 0x14 0 2
  { used := [(0x14, 0, 2)], modeBad := if op == 2 then !(s.mode.mode == .configure || s.mode.mode == .commission) else !s.mode.mode.configurable, range := [(op != 1 && op != 2, 0x14)] }

/-- The part SLEW and STEP share: refused without a measurement, without effect up to 2 %. -/
def gridSync (frames : Int → Nat → Nat) (act : Int → BAct) (now : Int → State → State) (s : State) : Action :=
  match presentErr s.grid with
  | none => .done (Reply.refuse Rsn.state) s
  | some e =>
    if s.grid.cfg.syncSrc == 0 then .done (Reply.refuse Rsn.state) s
    else
      let r : Nat := codeOf (inNs e) 32
      if e.natAbs ≤ (frameMove s.clk.len).natAbs then .done { result := r } s
      else .atBoundary 0 (r + place (frames e s.clk.len) 32 16) (act e) (now e s)

/-- The Milestone in progress is to end at the aligned instant. -/
def stepNow (e : Int) (s : State) : State :=
  setClk (fun k => { k with len := ((k.len : Int) - e).toNat })
    (setGrid (fun g => { g with slewing := false, corr := 0, corrLeft := 0, corrFrame := 0 }) s)

def gridSyncAct (c : Cmd) (s : State) : Action :=
  if c.at_ 0x14 0 2 == 2 then gridSync (fun _ _ => 0) (fun _ => .gridStep) stepNow s
  else gridSync framesNeeded .gridSlew (fun _ s => s) s

/-- GRID_SYNC_SLEW and GRID_SYNC_STEP (R114): the two OPs of one command. -/
def execGridSyncSlew (c : Cmd) (s : State) : Out := .next (command c (syncJudge c) (gridSyncAct c) s)
def execGridSyncStep (c : Cmd) (s : State) : Out := .next (command c (syncJudge c) (gridSyncAct c) s)

/-- A SLEW takes effect. -/
def applyGridSlew (e : Int) (s : State) : State :=
  setSync .acquiring (setGrid (fun g => { g with slewing := true, corr := e, corrLeft := 0, corrFrame := 0, lockCount := 0 }) s)

/-! ### Causeway follower (R116-R118) -/

/-- f_grid from the measured period of CW_SYNC, within 40-70 Hz (R117, R98). -/
def fOfPeriod (per : Nat) : Nat :=
  if per = 0 then 70 * 2 ^ 26
  else max (40 * 2 ^ 26) (min (70 * 2 ^ 26) ((1000000000 * uPerNs * 2 ^ 26) / (96 * per)))

/-- The largest change of f_grid in one Milestone: SLEW over the grid rate (R104), in 2^-26 Hz. -/
def slewLimit (g : GridSt) : Nat := (g.cfg.slew * 2 ^ 26 * 2 ^ 26) / (100 * 96 * g.fGrid)

def clampF (x : Int) : Nat := (max (40 * 2 ^ 26) (min (70 * 2 ^ 26) x)).toNat

/-- f_grid moved towards a target, as a step in CONFIGURE and within the slew limit in a running mode (R103). -/
def moveF (running : Bool) (target : Nat) (g : GridSt) : GridSt :=
  let lim : Int := slewLimit g
  let d := (target : Int) - g.fGrid
  if running then
    let m := max (-lim) (min lim d)
    { g with fGrid := clampF ((g.fGrid : Int) + m), slewLimited := m != d }
  else { g with fGrid := clampF target, slewLimited := false }

/-- The Milestone number at the boundary that a long pulse marks: the next multiple of 96 (R117). -/
def alignUp (n : Nat) : Nat := (n + 95) / 96 * 96

/-- Tracking of references ends (R118, R121): holdover is left and no reference is in use, each with its record. -/
def endTracking (s : State) : State :=
  let s := if s.grid.hold then gridEvent 3 [] (setGrid (fun g => { g with hold := false, toNominal := false }) s) else s
  let s := setGrid (fun g => { g with fRef := 0, slewLimited := false }) s
  if s.grid.refSel.isNone then s
  else gridEvent 5 [] (setGrid (fun g => { g with refSel := none, refSwitches := satN 16 (g.refSwitches + 1) }) s)

/-- f_grid from the period of CW_SYNC: after a loss in a running mode within the slew limit, until it is reached (R117, R118). -/
def followPeriod (runs : Bool) (per : Nat) (g : GridSt) : GridSt :=
  let g := moveF (runs && g.returning) (fOfPeriod per) g
  { g with returning := g.returning && g.slewLimited }

/-- CW_SYNC_PULSE (R117): a rising edge at a monotonic time in ns, long where it opens the leader's cycle frame. -/
def execCwSyncPulse (t : Nat) (long : Bool) (s : State) : Out :=
  .next (
    let s := setClk (·.advance (t * uPerNs)) s
    if s.grid.cfg.gmode != 2 || s.grid.stepNow then s
    else
      let s := if s.grid.sync == .lost then endTracking s else s
      let edge : Int := ((t : Int) - s.grid.cfg.cwDlySync) * uPerNs
      let e := wrapErr s.clk.openedAt edge s.clk.len
      let per := s.grid.lastPulse.map (fun p => s.clk.mono - p)
      let s := setGrid (fun g =>
        let g := { g with lastEdge := s.clk.mono, lastPulse := some s.clk.mono }
        match per with
        | none => g
        | some p => followPeriod s.mode.mode.runs p g) s
      let wasLocked := s.grid.sync == .locked
      let s := judgeEdge e 3 long s
      let nowLocked := s.grid.sync == .locked
      let early := decide (2 * (s.clk.mono - s.clk.openedAt) < s.clk.len)
      let marked := if early then s.clk.ms else s.clk.ms + 1
      if nowLocked && !wasLocked then
        if s.mode.mode == .configure then setGrid (fun g => { g with alignReq := true, frameMismatch := false }) s
        else if long && marked % 96 != 0 then setGrid (fun g => { g with frameMismatch := true }) s
        else s
      else if s.grid.alignReq && long && s.mode.mode == .configure then
        if early then setGrid (fun g => { g with alignReq := false }) (setClk (fun k => { k with ms := alignUp k.ms }) s)
        else setGrid (fun g => { g with alignReq := false, alignNow := true }) s
      else s)

/-- CW_SYNC_LOSS (R118): no pulse for 4 expected Milestones; FOLLOW_FB 1 then tracks the package's own references. -/
def execCwSyncLoss (s : State) : Out :=
  .next (
    if s.grid.cfg.gmode != 2 || s.grid.sync == .lost then s
    else
      setSync .lost (setGrid (fun g => { g with lockCount := 0, lastPulse := none, returning := true })
        (setClk (·.advance (s.grid.lastEdge + 4 * s.clk.len)) s)))

/-- CW_CLK_LOSS (R116): the clock monitor finds no valid CW_CLK; the PLLs fall back to REFCLK, and following of CW_SYNC goes on. -/
def execCwClkLoss (s : State) : Out := .next (loseCwClk s)

/-! ### References and tracking (R104-R109) -/

/-- A reference at this Milestone: its phasor, quality, squared magnitude and the squared full scale it is judged by. -/
structure RefSample where
  re : Int
  im : Int
  q : Nat
  magSq : Nat
  fsSq : Nat
  deriving DecidableEq, Repr

/-- f_ref(n) from the phasor now and 96 Milestones ago (R104), in 2^-26 Hz. -/
def fRefOf (f96 : Nat) (now old : Int × Int) : Nat :=
  let d := angleOf (now.2 * old.1 - now.1 * old.2) (now.1 * old.1 + now.2 * old.2)
  ((f96 : Int) + divRoundAway ((f96 : Int) * d) (2 ^ 48)).toNat

/-- f_ref of reference k, where 96 Milestones of history are there. -/
def refFreq (g : GridSt) (k : Nat) (r : RefSample) : Option Nat :=
  match (g.refHist.getD k []).getD 95 (0, 0), g.fHist.getD 95 0, decide (96 ≤ (g.refHist.getD k []).length) with
  | old, f96, true => some (fRefOf f96 (r.re, r.im) old)
  | _, _, false => none

/-- Validity of a reference (R106). -/
def refValid (s : State) (k : Nat) : Option RefSample → Bool
  | none => false
  | some r =>
    (r.q &&& 0b11000011) == 0 && (!(r.q.testBit 5) || s.mode.mode == .commission) &&
    decide (s.grid.cfg.vmin ^ 2 * r.fsSq ≤ 1000000 * r.magSq) &&
    match refFreq s.grid k r with
    | none => false
    | some f => decide (40 * 2 ^ 26 ≤ f ∧ f ≤ 70 * 2 ^ 26)

/-- Tracking runs: TRACK, or FOLLOW with CW_SYNC lost and FOLLOW_FB 1 (R118). -/
def tracking (g : GridSt) : Bool := g.cfg.gmode == 1 || (g.cfg.gmode == 2 && g.sync == .lost && g.cfg.followFb)

/-- A change of the reference in use, with its record (R107, R121). -/
def setRef (k : Option Nat) (s : State) : State :=
  if s.grid.refSel = k then s
  else
    let s := setGrid (fun g => { g with refSel := k, refSwitches := satN 16 (g.refSwitches + 1) }) s
    gridEvent 5 [] s

/-- The choice of reference (R107, R108): the one in use while valid, a higher one after 2 s, the lowest valid one after
a loss or out of holdover; none valid is holdover. -/
def chooseRef (valid : List Bool) (s : State) : State :=
  let since := (List.range 4).map (fun k =>
    if valid.getD k false then some ((s.grid.refValidSince.getD k none).getD s.clk.mono) else none)
  let s := setGrid (fun g => { g with refValidSince := since }) s
  if !tracking s.grid then s else
  let lowest := findIdxBelow 4 (fun k => valid.getD k false)
  let higher (k : Nat) := findIdxBelow k (fun j => match since.getD j none with | some t => decide (t + secU 2 ≤ s.clk.mono) | none => false)
  match s.grid.refSel with
  | some k =>
    if valid.getD k false then
      match higher k with
      | some j => setRef (some j) s
      | none => s
    else match lowest with
      | some j => setRef (some j) s
      | none => gridEvent 3 [] (setGrid (fun g => { g with hold := true, holdSince := s.clk.mono, refSel := none, fRef := 0 }) s)
  | none =>
    match lowest with
    | some j =>
      let s := if s.grid.hold then gridEvent 3 [] (setGrid (fun g => { g with hold := false, toNominal := false }) s) else s
      setRef (some j) s
    | none =>
      if s.grid.hold then s
      else gridEvent 3 [] (setGrid (fun g => { g with hold := true, holdSince := s.clk.mono, fRef := 0 }) s)

/-- REF_PRIORITY_SWITCH (R107): reference k has been valid for 2 s. -/
def execRefPrioritySwitch (k : BitVec 2) (s : State) : Out :=
  .next (
    match s.grid.refSel, s.grid.refValidSince.getD k.toNat none with
    | some j, some t =>
      if tracking s.grid && decide (k.toNat < j) then setRef (some k.toNat) (setClk (·.advance (t + secU 2)) s) else s
    | _, _ => s)

/-- The return to NOMINAL after HOLD_T (R108). -/
def startNominal (s : State) : State :=
  if s.grid.hold && s.grid.cfg.holdMode && !s.grid.toNominal && decide (s.grid.holdSince + secU s.grid.cfg.holdT ≤ s.clk.mono) then
    gridEvent 4 [] (setGrid (fun g => { g with toNominal := true }) s)
  else s

/-- GRID_HOLDOVER_TIMEOUT (R108). -/
def execGridHoldoverTimeout (s : State) : Out :=
  .next (
    if s.grid.hold && s.grid.cfg.holdMode && !s.grid.toNominal then
      startNominal (setClk (·.advance (s.grid.holdSince + secU s.grid.cfg.holdT)) s)
    else s)

/-- A coefficient slot: mantissa and shift (Table: Coefficient slot). -/
structure Coef where
  c : Int
  sh : Nat
  deriving DecidableEq, Repr

def coefAt (b : Bytes) (off : Nat) : Coef := { c := s32At b off, sh := bitsOf (u32At b (off + 4)) 0 5 }

/-- A term: C * x shifted right by SH, rounded to nearest with ties away from zero (R398). -/
def term (k : Coef) (x : Int) : Int := divRoundAway (k.c * x) (2 ^ k.sh)

def lim32 (x : Int) : Int := satZ 32 x

/-- The coefficients of loop 8: entry 8's KP0 and KI0 where enabled, else the boot values (R415). -/
def loop8Coefs (e : CacheEntry) : Coef × Coef :=
  if e.en then (coefAt e.bytes 0x40, coefAt e.bytes 0x48) else ({ c := 0x00AAAAAB, sh := 31 }, { c := 0x00015555, sh := 31 })

/-- One update of loop 8: the PI part of R406, its output the change of f_grid, clamped to the slew limit (R104, R415). -/
def loop8Step (k : Coef × Coef) (err : Int) (g : GridSt) : GridSt :=
  let lim : Int := slewLimit g
  let e := lim32 err
  let pp := lim32 (term k.1 e)
  let di := lim32 (term k.2 e)
  let iTry := g.loop8I + di
  let raw := pp + iTry
  let iTry := if (lim < raw ∧ 0 < di) ∨ (raw < -lim ∧ di < 0) then g.loop8I else iTry
  let i := max (-lim) (min lim iTry)
  let u := max (-lim) (min lim (pp + i))
  { g with
    loop8I := i, loop8Last := u, loop8E := e, loop8P := pp, loop8Y := lim32 g.fGrid, fGrid := clampF ((g.fGrid : Int) + u), slewLimited := u != pp + i }

def freqOfCode (n : Nat) : Nat := if n == 0 then 50 * 2 ^ 26 else 60 * 2 ^ 26

/-- Loop 8's update of f_grid, step 5 of R122: tracking follows f_ref, holdover keeps or returns to NOMINAL; a withheld reference
repeats the last output (R109). -/
def updateF (refs : List (Option RefSample)) (withheld : Bool) (s : State) : State :=
  let g := s.grid
  if !tracking g then s
  else if withheld then
    setGrid (fun g => { g with fGrid := clampF ((g.fGrid : Int) + g.loop8Last) }) s
  else if g.hold then
    if g.toNominal then setGrid (moveF s.mode.mode.runs (freqOfCode g.cfg.nominal)) s else setGrid (fun g => { g with slewLimited := false }) s
  else match g.refSel with
    | none => s
    | some k =>
      match (refs.getD k none).bind (refFreq g k) with
      | none => s
      | some f =>
        setGrid (fun g => loop8Step (loop8Coefs (s.tbl.loop.getD 8 {})) ((f : Int) - g.fGrid) { g with fRef := f, loop8Ms := s.clk.ms }) s

/-- FIXED: f_grid moves to FRATE as a Milestone is opened (R99, R103). -/
def fixedF (s : State) : State :=
  if s.grid.cfg.gmode == 0 then setGrid (moveF s.mode.mode.runs (freqOfCode s.grid.cfg.frate)) s else s

/-- The history of f_grid and of the reference phasors, one Milestone further, `f` that of the Milestone (R104). -/
def pushHistory (f : Nat) (refs : List (Option RefSample)) (g : GridSt) : GridSt :=
  { g with
    fHist := (f :: g.fHist).take 96
    refHist := (List.range 4).map (fun k =>
      match refs.getD k none with
      | none => []
      | some r => ((r.re, r.im) :: g.refHist.getD k []).take 96) }

/-! ### The boundary -/

/-- An accepted GRID.MODE applied (R100, R103, R113): a change of SYNC_SRC abandons the correction and starts anew; a configuration
that does not track ends holdover and the use of a reference. Out of FOLLOW, as under any configuration that does not select it, the
PLLs lock to REFCLK while it is good: R38 has them on CW_CLK where that is configured as the reference (DEDUCED, log entry 61). -/
def applyGridCfg (c : GridCfg) (s : State) : State :=
    let changed := c.syncSrc != s.grid.cfg.syncSrc
    let s := setGrid (fun g =>
      let g := { g with
        cfg := c
        refHist := (List.range 4).map (fun k => if c.refs.getD k 0 == g.cfg.refs.getD k 0 then g.refHist.getD k [] else [])
        refValidSince := (List.range 4).map (fun k =>
          if c.refs.getD k 0 == g.cfg.refs.getD k 0 then g.refValidSince.getD k none else none) }
      if changed then
        { g with err := none, corr := 0, corrLeft := 0, corrFrame := 0, slewing := false, lockCount := 0, refused := false,
                 lastEdge := s.clk.mono, lastPulse := none, returning := false }
      else g) s
    let s := if changed then setSync (if c.syncSrc == 0 then .none else .acquiring) s else s
    let s := if tracking s.grid then s else endTracking s
    if c.gmode == 2 || !s.grid.refclkGood then s else setPll false s

/-- A GRID.SYNC STEP takes effect (R114): the boundary is aligned; the caller resets the filter histories. -/
def applyGridStep (s : State) : State :=
  gridEvent 6 [] (setSync .acquiring (setGrid (fun g => { g with stepNow := true, refused := false, lockCount := 0 }) s))

/-- The part of the correction that the Milestone opened now makes: at most 2 % per cycle frame, in equal parts over its 96
Milestones (R111). -/
def moveBoundary (g : GridSt) (len : Nat) : GridSt × Int :=
  let m := frameMove len
  let g := if g.corrLeft = 0 then { g with corrLeft := if g.corr = 0 then 0 else 96, corrFrame := max (-m) (min m g.corr) } else g
  if g.corrLeft = 0 then (g, 0)
  else
    let part := Int.tdiv g.corrFrame g.corrLeft
    ({ g with corr := g.corr - part, corrFrame := g.corrFrame - part, corrLeft := g.corrLeft - 1 }, part)

/-- The length of the Milestone opened now: f_grid, the rate trim and the correction (R98, R111). -/
def openMilestone (s : State) : State :=
  let base := milestoneLen s.grid.fGrid
  let trimmed := ((base : Int) * 1000000000 / (1000000000 + s.grid.trim)).toNat
  let (g, part) := moveBoundary s.grid base
  let s := { s with grid := g, clk := { s.clk with len := ((trimmed : Int) - part).toNat } }
  if s.grid.slewing && decide (s.grid.corr.natAbs ≤ (frameMove base).natAbs) then
    gridEvent 6 [] (setGrid (fun g => { g with slewing := false }) s)
  else s

/-- A leader drives CW_CLK at 10 MHz, and CW_SYNC for 1 us at a boundary that opens a cycle frame and 0.5 us at every other (R115). -/
def driveCwSync (s : State) : State :=
  setGrid (fun g => { g with
    cwClkHz := if g.cfg.cwLead then 10000000 else 0
    cwPulseNs := if g.cfg.cwLead then (if s.clk.ms % 96 == 0 then 1000 else 500) else 0 }) s

/-- Milestone n is opened at its scheduled instant: the number rises by 1, or to the next multiple of 96 where a follower
aligns its frames (R97, R117). -/
def openNext (s : State) : State :=
  let at_ := s.clk.openedAt + s.clk.len
  let n := if s.grid.alignNow then alignUp (s.clk.ms + 1) else s.clk.ms + 1
  setGrid (fun g => { g with alignNow := false }) (setClk (fun k => { k.advance at_ with openedAt := at_, ms := n }) s)

/-- The grid status block, offsets 0x40 to 0x5F of TIME.READ (R120). -/
def gridBlock (s : State) : Bytes :=
  leBytes 4 (gridStatus s.grid) ++ leBytes 4 (s.grid.fGrid / 4) ++ leBytes 4 (s.grid.fRef / 4) ++
  leBytes 4 (codeOf (inNs (s.grid.err.getD 0)) 32) ++ leBytes 8 s.clk.ms ++
  leBytes 4 (s.grid.refusals + place s.grid.refSwitches 16 16) ++ leBytes 4 (codeOf s.grid.trim 32)

end Sys2Proof.Machine
end

