-- ==== Sys2Proof/Machine/Time.lean ====
section
/-! DEFINITION. Network time: the time counter's sources, PTP, IRIG-B, PPS, offset steps, time quality (R123-R149). -/

namespace Sys2Proof.Machine

def setTime (f : TimeSt → TimeSt) (s : State) : State := { s with time := f s.time }

/-! ### Records (R149) -/

/-- The Time status word at 0x0C (Table: Time status). -/
def timeStatus (t : TimeSt) : Nat :=
  codeOf t.utcOfs 16 + place (flag t.utcValid) 16 1 + place (flag t.leap61) 17 1 + place (flag t.leap59) 18 1 +
  place t.used 19 2 + place t.state.code 21 3 + place (flag t.pending.isSome) 24 1

/-- A time event: IRQ_STAT.TIME and one record: what its own rule names, then the status word (R149, log entry 8). -/
def timeEvent (code unit : Nat) (data : Bytes) (s : State) : State :=
  raiseIrq Irq.time (postTime code unit (data ++ dWord (timeStatus s.time)) s)

/-- A change of time state, with its record (R149); HOLDOVER's bound starts from the last of LOCKED (R129). -/
def setTState (x : TState) (s : State) : State :=
  if s.time.state = x then s
  else timeEvent 1 0 [] (setTime (fun t =>
    { t with state := x, bound := if x == .holdover then t.lockedBound else t.bound, lockedTo := if x == .locked then t.used else t.lockedTo }) s)

/-! ### UTC offset (R126) -/

/-- The grandmaster in use: what the port in use last heard from its master. -/
def gmInUse (t : TimeSt) : Option GmData :=
  if t.used == 1 then t.activePort.bind (fun p => (t.ports.getD (p % 2) {}).foreign) else none

/-- The offset and its validity by the list of R126. -/
def utcDecision (t : TimeSt) : Int × Bool :=
  match gmInUse t with
  | some g => if g.utcValid then (g.utcOfs, true) else if t.cfg.utcOfsValid then (t.cfg.utcOfs, true) else (t.utcOfs, false)
  | none => if t.cfg.utcOfsValid then (t.cfg.utcOfs, true) else (t.utcOfs, false)

/-- The offset decided anew, with the record of a change in its value or validity (R126, R149). -/
def setUtc (s : State) : State :=
  let d := utcDecision s.time
  if d = (s.time.utcOfs, s.time.utcValid) then s
  else timeEvent 5 0 [] (setTime (fun t => { t with utcOfs := d.1, utcValid := d.2 }) s)

/-! ### Error bound and time quality (R128, R129) -/

/-- Three times the RMS of the last 16 offsets, whole nanoseconds; the rounding of the root is left open (log entry 3). -/
def rms3 (l : List Int) : Nat :=
  let l := l.take 16
  if l.isEmpty then 0
  else
    let sq := l.foldl (fun a x => a + x.natAbs ^ 2) 0
    let r := isqrt (9 * sq / l.length)
    if r * r * l.length = 9 * sq then r else if Config.roundUp 10 sq l.length then r + 1 else r

def srcSt (t : TimeSt) (k : Nat) : SrcSt := if k == 1 then t.ptp else if k == 2 then t.irig else t.pps
def setSrc (k : Nat) (f : SrcSt → SrcSt) (t : TimeSt) : TimeSt :=
  if k == 1 then { t with ptp := f t.ptp } else if k == 2 then { t with irig := f t.irig } else { t with pps := f t.pps }

/-- The error bound one second later (R129). -/
def nextBound (t : TimeSt) : Option Nat :=
  match t.state with
  | .free | .hostset => none
  | .locking => some (t.lastOffset.natAbs + 50)
  | .locked => some (50 + rms3 t.offsets + (srcSt t t.used).inacc)
  | .holdover => t.bound.map (· + t.cfg.holdDrift)

/-- TIME_SECOND_TICK (R129, R125): the bound recomputed, and TAI seconds written to the RTC while LOCKED. -/
def execTimeSecondTick (s : State) : Out :=
  .next (setTime (fun t =>
    let t := { t with bound := nextBound t }
    if t.state == .locked then { t with lockedBound := t.bound, rtcSec := s.clk.taiSec, rtcAt := s.clk.mono } else t) s)

/-- The RTC's seconds now: it counts on from its last write (R438). -/
def rtcNow (s : State) : Nat := (s.time.rtcSec + (s.clk.mono - s.time.rtcAt) / secU 1) % 2 ^ 48

/-! ### The source in use (R131, R132) -/

/-- Priority of a source: its place among SRC0-SRC2. -/
def srcRank (t : TimeSt) (k : Nat) : Option Nat := findIdxBelow 3 (fun i => t.cfg.src.getD i 0 == k)

/-- The configured sources in priority order. -/
def srcList (t : TimeSt) : List Nat := t.cfg.src.filter (fun k => k != 0 && (k != 2 || t.utcValid))

def lowestLocked (t : TimeSt) : Option Nat := (srcList t).find? (fun k => (srcSt t k).locked)
def lowestLive (t : TimeSt) : Option Nat := (srcList t).find? (fun k => (srcSt t k).live)

/-- A source is locked or being acquired. -/
def anySource (t : TimeSt) : Bool := (lowestLive t).isSome || (lowestLocked t).isSome

/-- Source `k` is to be acquired anew: its lock and its count of good measurements are gone. -/
def unlock (k : Nat) (t : TimeSt) : TimeSt := setSrc k (fun x => { x with locked := false, good := 0 }) t

/-- An offset of the source in use refused (R143): HOLDOVER with the step pending, the addend kept, one record for the first; the
source is to be reacquired. -/
def refuseOffset (x : Int) (s : State) : State :=
  match s.time.pending with
  | some _ => setTime (fun t => { unlock t.used t with pending := some x }) s
  | none =>
    let s := setTime (fun t => { unlock t.used t with pending := some x, refusedOfs := satN 16 (t.refusedOfs + 1) }) s
    setTState .holdover (timeEvent 2 0 (dOfs x) s)

/-- The part of a change of source or port in use that both share (R131, R149): the pending offset and the measurements of the old one
are discarded, the change is counted and recorded. -/
def changeUse (unit : Nat) (f : TimeSt → TimeSt) (s : State) : State :=
  timeEvent 4 unit [] (setTime (fun t => f { t with pending := none, pendCut := t.pendCut || t.pending.isSome, offsets := [], srcSwitches := satN 16 (t.srcSwitches + 1) }) s)

/-- After a change from a source that measured `old` to one that measured `x`: without a step where the two lie at most JUMP_THR apart,
else the offset is refused (R131, R143). -/
def judgeChange (old x : Int) (locked : Bool) (s : State) : State :=
  if s.time.cfg.jumpThr < (x - old).natAbs then refuseOffset x s
  else setTState (if locked then .locked else .locking) s

/-- What the source in use last measured; the device's own time where none is in use or it is lost. -/
def usedOffset (t : TimeSt) : Int := if t.used != 0 && (srcSt t t.used).live then (srcSt t t.used).offset else 0

/-- Source `k` becomes the one in use (R131). -/
def takeSource (k : Nat) (s : State) : State :=
  let old := usedOffset s.time
  let s := changeUse 0 (fun t =>
    { t with used := k, ptpLockedOnce := k == 1 && t.ptp.locked, ptpSecond := k == 1 && t.ptp.locked }) s
  let x := srcSt s.time k
  setUtc (judgeChange old x.offset x.locked s)

/-- Source `k` is lost (Table: Source lock and loss, R132): where it is in use, another locked source takes over, or HOLDOVER; its
pending offset goes with it. -/
def loseSource (k : Nat) (s : State) : State :=
  let s := setTime (setSrc k (fun x => { x with live := false, locked := false, good := 0, bad := 0 })) s
  if s.time.used != k then s
  else match lowestLocked s.time with
    | some j => takeSource j s
    | none => raiseIrq Irq.time (setTState .holdover (setTime (fun t => { t with pending := none }) s))

/-- IRIG-B in use while the UTC offset is not valid is lost (R140). -/
def dropIrig (s : State) : State := if s.time.used == 2 && !s.time.utcValid then loseSource 2 s else s

def useSource (k : Nat) (s : State) : State := dropIrig (takeSource k s)
def decideUtc (s : State) : State := dropIrig (setUtc s)

/-- The choice after a source has locked or been acquired: a locked one over one that is not, a higher-priority one only
after 10 s of lock (R131). -/
def selectSource (s : State) : State :=
  let t := s.time
  let cur := t.used != 0 && (srcSt t t.used).live && (srcList t).contains t.used
  let take (o : Option Nat) : State := match o with | some k => if k == t.used then s else useSource k s | none => s
  if !cur then take ((lowestLocked t).orElse (fun _ => lowestLive t))
  else
    let higher := (srcList t).find? (fun k =>
      match srcRank t k, srcRank t t.used with
      | some a, some b => decide (a < b) && (srcSt t k).locked && decide ((srcSt t k).lockedSince + secU 10 ≤ s.clk.mono)
      | _, _ => false)
    match higher with
    | some k => useSource k s
    | none =>
      if (srcSt t t.used).locked then s
      else match lowestLocked t with
        | some k => match srcRank t k, srcRank t t.used with
          | some a, some b => if b < a then useSource k s else s
          | _, _ => s
        | none => s

/-- Criterion of lock: offset bound in ns and the measurements in a row (Table: Source lock and loss). -/
def lockBound (k : Nat) : Nat := if k == 2 then 1000 else 100
def lockRun (k : Nat) : Nat := if k == 1 then 8 else 3

/-- The addend loop 9 sets from an offset, limited to +-200 ppm (R123, R134): its law is the device's own (log entry 7). -/
def servoAddend (a x : Int) : Int := max (-3435973) (min 3435973 (Config.freeInt 6 [a, x]))

/-- The time counter follows a source: in HOLDOVER and FREE the addend stays as it is (R132, R143). -/
def steers (t : TimeSt) : Bool := (t.state == .locking || t.state == .locked) && t.pending.isNone

/-- A source's lock progress after a measurement `x` (Table: Source lock and loss, R132). -/
def measured1 (k : Nat) (x : Int) (inacc now : Nat) (c : SrcSt) : SrcSt :=
  let n := if x.natAbs ≤ lockBound k then c.good + 1 else 0
  let b := if 1000 < x.natAbs then c.bad + 1 else 0
  let locked := if c.locked then decide (b < 3) else decide (lockRun k ≤ n)
  { c with live := true, offset := x, lastAt := now, good := if c.locked && !locked then 0 else n, bad := b, inacc := inacc, locked := locked,
           lockedSince := if locked && !c.locked then now else c.lockedSince }

/-- One offset measurement of source `k`, local time less source time in ns (R131, R132, R143): of the source in use it is among the
last 16; at most JUMP_THR it steers the addend, above it is refused. -/
def measureOffset (k : Nat) (x : Int) (inacc : Nat) (s : State) : State :=
  let s := selectSource (setTime (setSrc k (measured1 k x inacc s.clk.mono)) s)
  if s.time.used != k then s
  else
    let s := setTime (fun t => { t with lastOffset := x, offsets := (x :: t.offsets).take 16 }) s
    if s.time.cfg.jumpThr < x.natAbs then refuseOffset x s
    else
      let s := setTime (fun t => { t with pending := none }) s
      let s := setClk (fun c => { c with addend := servoAddend c.addend x }) s
      let locked := (srcSt s.time k).locked
      let s := setTime (fun t => { t with
        ptpLockedOnce := t.ptpLockedOnce || (k == 1 && locked), ptpSecond := t.ptpSecond || (k == 1 && locked) }) s
      setTState (if locked then .locked else .locking) s

/-- TIME_SOURCE_SWITCH (R131): a higher-priority source has been locked for 10 s. -/
def execTimeSourceSwitch (src : BitVec 2) (s : State) : Out :=
  .next (
    let k := src.toNat
    let t := s.time
    match srcRank t k, srcRank t t.used with
    | some a, some b =>
      if a < b && (srcSt t k).locked then selectSource (setClk (·.advance ((srcSt t k).lockedSince + secU 10)) s) else s
    | _, _ => s)

/-! ### PTP (R133-R139) -/

/-- The NET port is enabled (R182) and belongs to the pair PTP runs on, which is no HSR ring (R139). -/
def ptpOn (s : State) (port : Nat) : Bool :=
  s.time.cfg.ptpPorts != 0 && port / 2 + 1 == s.time.cfg.ptpPorts && fld s.net.portSet 0 (8 + port) 1 == 1 && !(port < 2 && fld s.net.portSet 0 0 2 == 2)

/-- A PTP frame that an enabled port of an HSR ring receives goes on round the ring unchanged (R139, R185). -/
def ringPtp (port : Nat) (s : State) : State :=
  if port < 2 && fld s.net.portSet 0 0 2 == 2 && fld s.net.portSet 0 (8 + port) 1 == 1 then
    { s with out := { s.out with wire := s.out.wire ++ [.forward (1 - port) false] } }
  else s

/-- A received PTP message: taken where PTP runs and the domain is its own (R133), else only forwarded round a ring. -/
def takePtp (port domain : Nat) (f : State → State) (s : State) : State :=
  if ptpOn s port && domain == s.time.cfg.domain then f s else ringPtp port s

def ptpPort (t : TimeSt) (port : Nat) : PtpPort := t.ports.getD (port % 2) {}
def setPtpPort (port : Nat) (f : PtpPort → PtpPort) (s : State) : State :=
  setTime (fun t => { t with ports := modAt t.ports (port % 2) f }) s

/-- Device receive and transmit latency in 0.1 ns (Table: Device PHY latencies). -/
def phyLatency (s : State) (port : Nat) : Nat × Nat :=
  let b := s.net.portSet
  if port < 2 then (if bitAt b 0 2 then (384, 320) else (1120, 880))
  else if bitAt b 0 (3 + port) then (1200, 960) else (1120, 880)

/-- A receive time at the connector in 0.1 ns: device latency and RX_LAT taken away (R136). -/
def rxTime (s : State) (port stamp : Nat) : Int :=
  10 * (stamp : Int) - (phyLatency s port).1 - 10 * ((s.time.cfg.lat.getD port {}).rxLat : Int)

/-- A transmit time at the connector in 0.1 ns: device latency and TX_LAT added (R136). -/
def txTime (s : State) (port stamp : Nat) : Int :=
  10 * (stamp : Int) + (phyLatency s port).2 + 10 * ((s.time.cfg.lat.getD port {}).txLat : Int)

/-- The order of BMCA on announced data sets: smaller is better, field by field, then topology. -/
def gmKey (g : GmData) : List Nat :=
  [g.priority1, g.clockClass, g.accuracy, g.variance, g.priority2, g.identity, g.stepsRemoved, g.sender]

def keyLess : List Nat → List Nat → Bool
  | a :: as, b :: bs => decide (a < b) || (a == b && keyLess as bs)
  | _, _ => false

/-- The device's own data set as BMCA compares it (R134): clockClass 6 while locked to IRIG-B or PPS_IN, 7 in HOLDOVER
after such a lock, 248 otherwise; its identity and what the spec does not give are free (log entry 4). -/
def ownClass (t : TimeSt) : Nat :=
  match t.state with
  | .locked => if t.used == 2 || t.used == 3 then 6 else 248
  | .holdover => if t.lockedTo == 2 || t.lockedTo == 3 then 7 else 248
  | _ => 248

def ownGm (t : TimeSt) : GmData :=
  { priority1 := t.cfg.priority1, clockClass := ownClass t, accuracy := openNat 11 8 [], variance := openNat 12 16 [],
    priority2 := t.cfg.priority2, identity := openNat 13 64 [Config.devUid.toNat], utcOfs := t.utcOfs, utcValid := t.utcValid
    leap61 := t.leap61, leap59 := t.leap59, sender := openNat 13 64 [Config.devUid.toNat] }

/-- The port of the pair whose master ranks best (R135); the device's own set wins only where it may be master. -/
def bestPort (t : TimeSt) : Option Nat :=
  let base := 2 * (t.cfg.ptpPorts - 1)
  match (t.ports.getD 0 {}).foreign, (t.ports.getD 1 {}).foreign with
  | none, none => none
  | some _, none => some base
  | none, some _ => some (base + 1)
  | some a, some b => some (if keyLess (gmKey b) (gmKey a) then base + 1 else base)

/-- The device is grandmaster: SLAVE_ONLY 0 and no announced set better than its own (R134). -/
def isMaster (t : TimeSt) : Bool :=
  t.cfg.ptpPorts != 0 && !t.cfg.slaveOnly &&
  t.ports.all (fun p => match p.foreign with | none => true | some g => keyLess (gmKey (ownGm t)) (gmKey g))

/-- The port in use becomes `p`, as a change of source (R131, R135). -/
def changePort (a p : Nat) (s : State) : State :=
  let old := (ptpPort s.time a).offset
  let s := changeUse p (fun t => { t with activePort := some p }) s
  let s := if s.time.used == 1 then judgeChange old (ptpPort s.time p).offset s.time.ptp.locked s else s
  decideUtc s

/-- BMCA at the Announce rate: the port states (1588: 4 LISTENING, 6 MASTER, 7 PASSIVE, 9 SLAVE) and the port in use, of which a change
is a change of source; without a port PTP is lost (R131, R134, R135). -/
def runBmca (s : State) : State :=
  if s.time.cfg.ptpPorts == 0 then
    setTime (fun t => { t with activePort := none, ports := t.ports.map (fun p => { p with portState := 3 }) }) s
  else
    let master := isMaster s.time
    let best := if master then none else bestPort s.time
    let old := s.time.activePort
    let s := setTime (fun t => { t with
      ports := (List.range 2).map (fun i =>
        let p := t.ports.getD i {}
        { p with portState := if master then 6 else if best == some (2 * (t.cfg.ptpPorts - 1) + i) then 9
                              else if p.foreign.isSome then 7 else 4 }) }) s
    match old, best with
    | some a, some b => if a == b then s else changePort a b s
    | some _, none => loseSource 1 (setTime (fun t => { t with activePort := none }) s)
    | none, b => setTime (fun t => { t with activePort := b }) s

def gmOfAnnounce (m : PtpAnnounce) : GmData :=
  { priority1 := m.priority1.toNat, clockClass := m.clockClass.toNat, accuracy := m.accuracy.toNat,
    variance := m.variance.toNat, priority2 := m.priority2.toNat, identity := m.identity.toNat,
    stepsRemoved := m.stepsRemoved.toNat, utcOfs := m.utcOfs.toInt, utcValid := m.utcValid, leap61 := m.leap61,
    leap59 := m.leap59, totalInacc := m.totalInacc.toNat, sender := m.sender.toNat }

/-- What of a grandmaster decides the UTC offset: which it is, and its offset and validity (R126). -/
def utcData (g : Option GmData) : Option (Nat × Int × Bool) := g.map (fun g => (g.identity, g.utcOfs, g.utcValid))

/-- PTP_ANNOUNCE_RX (R133, R134, R126): feeds BMCA and the grandmaster's data; the UTC offset is decided when the grandmaster in use,
its currentUtcOffset or currentUtcOffsetValid changes. -/
def execPtpAnnounceRx (port : BitVec 2) (m : PtpAnnounce) (s : State) : Out :=
  .next (takePtp port.toNat m.domain.toNat (fun s =>
    let was := utcData (gmInUse s.time)
    let s := runBmca (setPtpPort port.toNat (fun p => { p with foreign := some (gmOfAnnounce m), announceAt := s.clk.mono }) s)
    if s.time.activePort == some port.toNat && s.time.used == 1 then
      let s := setTime (fun t => { t with leap61 := m.leap61, leap59 := m.leap59 }) s
      if utcData (gmInUse s.time) == was then s else decideUtc s
    else s) s)

/-- A complete Sync measurement of a port: the offset of the port in use steers, and is compared with that of the other (R132, R135). -/
def ptpMeasure (port : Nat) (rx : Int) (origin : Nat) (corr : Int) (s : State) : State :=
  let p := ptpPort s.time port
  let asym := (s.time.cfg.lat.getD port {}).asym
  let x := roundOpen 14 (rx - 10 * ((origin : Int) + corr + asym + p.linkDelay)) 10
  let s := setPtpPort port (fun p => { p with offset := x, syncAt := s.clk.mono, twoStep := none }) s
  if s.time.activePort == some port then
    let apart := ((s.time.ports.getD 0 {}).offset - (s.time.ports.getD 1 {}).offset).natAbs
    let live := (s.time.ports.getD 0 {}).foreign.isSome && (s.time.ports.getD 1 {}).foreign.isSome
    let n := if live && decide (1000 < apart) then s.time.portsApart + 1 else 0
    let s := setTime (fun t => { t with portsApart := n }) s
    let s := if n == 8 then postTime 7 port [] s else s
    measureOffset 1 x (if s.time.cfg.profile == 1 then ((ptpPort s.time port).foreign.map (·.totalInacc)).getD 0 else 0) s
  else s

/-- PTP_SYNC_RX (R132, R133): a one-step Sync measures at once, a two-step one with its Follow_Up. -/
def execPtpSyncRx (port : BitVec 2) (m : PtpEvent) (s : State) : Out :=
  .next (takePtp port.toNat m.domain.toNat (fun s =>
    let rx := rxTime s port.toNat m.stamp
    if m.twoStep then setPtpPort port.toNat (fun p => { p with twoStep := some (m.seq.toNat, rx, m.correction), syncAt := s.clk.mono }) s
    else ptpMeasure port.toNat rx m.origin m.correction s) s)

/-- PTP_FOLLOW_UP_RX (R133): completes the measurement of the Sync with its sequence number. -/
def execPtpFollowUpRx (port : BitVec 2) (m : PtpEvent) (s : State) : Out :=
  .next (takePtp port.toNat m.domain.toNat (fun s =>
    match (ptpPort s.time port.toNat).twoStep with
    | some (seq, rx, corr) => if seq == m.seq.toNat then ptpMeasure port.toNat rx m.origin (corr + m.correction) s else s
    | none => s) s)

/-! What the engine sends -/

def sendPtp (m : PtpTx) (s : State) : State := { s with out := { s.out with ptp := s.out.ptp ++ [m] } }

/-- Announce and Sync go to one address, the peer delay messages to the other (R133). -/
def ptpDst (kind : Nat) : Nat := if kind == 2 || kind == 3 then 0x0180C200000E else 0x011B19000000

def ptpMessage (s : State) (port kind seq : Nat) : PtpTx :=
  { port := port, kind := kind, dst := ptpDst kind, domain := s.time.cfg.domain, seq := seq }

/-- PTP_PDELAY_REQ_RX (R134, R137): answered with a one-step Pdelay_Resp whose correctionField holds the turnaround, from the receive to
the departure, both at the connector. -/
def execPtpPdelayReqRx (port : BitVec 2) (m : PtpEvent) (s : State) : Out :=
  .next (takePtp port.toNat m.domain.toNat (fun s =>
    sendPtp { ptpMessage s port.toNat 3 m.seq.toNat with
      correction := txTime s port.toNat s.clk.taiNs - rxTime s port.toNat m.stamp + 10 * m.correction } s) s)

/-- PTP_PDELAY_RESP_RX (R137): half of the round trip less the responder's turnaround is the link delay. -/
def execPtpPdelayRespRx (port : BitVec 2) (m : PtpEvent) (s : State) : Out :=
  .next (takePtp port.toNat m.domain.toNat (fun s =>
    match (ptpPort s.time port.toNat).pdelayReq with
    | some (seq, t1) =>
      if seq == m.seq.toNat then
        let d := roundOpen 15 (rxTime s port.toNat m.stamp - t1 - 10 * m.correction) 20
        setPtpPort port.toNat (fun p => { p with linkDelay := d, linkDelayKnown := true, pdelayReq := none }) s
      else s
    | none => s) s)

/-- What an Announce of the device carries: its data set, and in the profile IEEE C37.238-2017 that profile's TLVs (R133, R134); what the
TLVs say is left open (log entry 4). -/
def announceBody (s : State) (m : PtpTx) : PtpTx :=
  { m with
    announce := some (ownGm s.time)
    c37 := if s.time.cfg.profile == 1 then some (openNat 65 32 [(s.time.bound.getD 0 : Int)], Config.freeInt 62 []) else none }

/-- When a message of a port is due: 1 s after the last (Table: PTP profile parameters), the first at once. -/
def ptpDue (last : Option Nat) (s : State) : State := match last with | some t => setClk (·.advance (t + secU 1)) s | none => s

/-- The message of a kind that leaves now: originTimestamp and correctionField are those of its departure at the connector (R137). -/
def sendKind (port : Nat) (kind : PtpKind) (s : State) : State :=
  let p := ptpPort s.time port
  let t := txTime s port s.clk.taiNs
  match kind with
  | .announce =>
    setPtpPort port (fun p => { p with seqAnnounce := (p.seqAnnounce + 1) % 2 ^ 16, announceTx := some s.clk.mono })
      (sendPtp (announceBody s (ptpMessage s port 11 p.seqAnnounce)) s)
  | .sync =>
    setPtpPort port (fun p => { p with seqSync := (p.seqSync + 1) % 2 ^ 16, syncTx := some s.clk.mono })
      (sendPtp { ptpMessage s port 0 p.seqSync with origin := t / 10 * 10, correction := t % 10 } s)
  | .pdelayReq =>
    setPtpPort port (fun p =>
      { p with seqPdelay := (p.seqPdelay + 1) % 2 ^ 16, pdelayReq := some (p.seqPdelay, t), pdelayTx := some s.clk.mono })
      (sendPtp { ptpMessage s port 2 p.seqPdelay with correction := -10 * (s.time.cfg.lat.getD port {}).asym } s)

/-- PTP_MESSAGE_TX (R133, R134): Announce and Sync as master, Pdelay_Req in either role, each port with its own sequence and interval. -/
def execPtpMessageTx (port : BitVec 2) (kind : PtpKind) (s : State) : Out :=
  .next (
    let p := ptpPort s.time port.toNat
    let last := match kind with | .announce => p.announceTx | .sync => p.syncTx | .pdelayReq => p.pdelayTx
    if !ptpOn s port.toNat || !(kind == .pdelayReq || isMaster s.time) then s
    else sendKind port.toNat kind (ptpDue last s))

/-- A port loses its master: the other port takes over, or PTP is lost as a source (R131, R135). -/
def losePort (port : Nat) (s : State) : State := runBmca (setPtpPort port (fun p => { p with foreign := none, twoStep := none }) s)

/-- PTP_ANNOUNCE_TIMEOUT (R131): announceReceiptTimeout of 3 intervals of 1 s expires. -/
def execPtpAnnounceTimeout (port : BitVec 2) (s : State) : Out :=
  .next (
    if !ptpOn s port.toNat || (ptpPort s.time port.toNat).foreign.isNone then s
    else losePort port.toNat (setClk (·.advance ((ptpPort s.time port.toNat).announceAt + secU 3)) s))

/-- PTP_SYNC_TIMEOUT (R131): no Sync for 3 intervals of 1 s. -/
def execPtpSyncTimeout (port : BitVec 2) (s : State) : Out :=
  .next (
    if !ptpOn s port.toNat || (ptpPort s.time port.toNat).foreign.isNone then s
    else losePort port.toNat (setClk (·.advance ((ptpPort s.time port.toNat).syncAt + secU 3)) s))

/-! ### IRIG-B and PPS (R140-R142) -/

def isLeap (y : Nat) : Bool := (y % 4 == 0 && y % 100 != 0) || y % 400 == 0
/-- Days from 1970-01-01 to the first day of year `y`. -/
def daysToYear (y : Nat) : Nat :=
  let p := y - 1
  365 * (y - 1970) + (p / 4 - p / 100 + p / 400) - (1969 / 4 - 1969 / 100 + 1969 / 400)

/-- The year in which a count of UTC seconds since 1970 falls. -/
def yearOf (sec : Nat) : Nat := 1970 + ((List.range 400).filter (fun i => decide (daysToYear (1971 + i) * 86400 ≤ sec))).length

/-- The UTC second that a frame marks (R140): the year from the extension, the field of B006 and B007, or the current TAI; the local
offset is subtracted. -/
def irigUtc (s : State) (m : IrigFrame) : Int :=
  let c := s.time.cfg
  let year := if c.irig1344 || c.irigCode == 6 || c.irigCode == 7 then 2000 + m.year
    else yearOf ((s.clk.taiSec : Int) - s.time.utcOfs).toNat
  ((daysToYear year + m.day - 1) * 86400 + m.second : Nat) - (if c.irig1344 then 1800 * m.localOfs else 0)

/-- Its TAI second: the UTC offset added (R140). -/
def irigTai (s : State) (m : IrigFrame) : Nat := (irigUtc s m + s.time.utcOfs).toNat

/-- IRIG_FRAME (R140): an offset measurement, or an invalid frame. -/
def execIrigFrame (m : IrigFrame) (s : State) : Out :=
  .next (
    let c := s.time.cfg
    if (srcRank s.time 2).isNone || !s.time.utcValid then s
    else
      let tai := irigTai s m
      let utc := irigUtc s m
      let follows := match s.time.irigPrev with | none => true | some p => utc == p + 1
      let s := setTime (fun t => { t with irigPrev := some utc }) s
      if (c.irig1344 && !m.parityOk) || !follows then setTime (setSrc 2 (fun x => { x with good := 0 })) s
      else if c.irig1344 && m.quality == 0xF then loseSource 2 s
      else
        let x : Int := (m.stamp : Int) - c.irigDly - (tai : Int) * 1000000000
        let inacc := if c.irig1344 then (Config.freeInt 16 [m.quality.toNat]).toNat else 0
        let s := measureOffset 2 x inacc s
        if s.time.used == 2 && c.irig1344 then setTime (fun t => { t with leap61 := m.leap61, leap59 := m.leap59 }) s else s)

/-- IRIG_TIMEOUT (R131): no valid frame for 3 s. -/
def execIrigTimeout (s : State) : Out :=
  .next (if s.time.irig.live then loseSource 2 (setClk (·.advance (s.time.irig.lastAt + secU 3)) s) else s)

/-- PPS_IN_EDGE (R141): a rising edge at a monotonic time in ns, its offset modulo one second in (-0.5 s, +0.5 s]; an edge
less than 0.9 s or more than 1.1 s after the previous one is discarded and counted. In BOOT and BACKUP the ball is ignored (R570). -/
def execPpsInEdge (t : Nat) (s : State) : Out :=
  .next (
    if s.mode.mode == .boot || s.mode.mode == .backup then s else
    let s := setClk (·.advance (t * uPerNs)) s
    let prev := s.time.ppsInAt
    let s := setTime (fun t => { t with ppsInAt := some s.clk.mono }) s
    let bad := match prev with
      | none => false
      | some p => decide (s.clk.mono < p + msU 900 ∨ p + msU 1100 < s.clk.mono)
    if bad then setTime (fun t => { t with ppsInDiscards := t.ppsInDiscards + 1 }) s
    else if (srcRank s.time 3).isNone then s
    else
      let f : Int := ((s.clk.taiNs : Int) - s.time.cfg.ppsInDly) % 1000000000
      measureOffset 3 (if 500000000 < f then f - 1000000000 else f) 0 s)

/-- PPS_IN_TIMEOUT (R131): no edge for 2.5 s. -/
def execPpsInTimeout (s : State) : Out :=
  .next (if s.time.pps.live then loseSource 3 (setClk (·.advance (s.time.pps.lastAt + msU 2500)) s) else s)

/-- PPS_OUT is driven: enabled, or under self-test 10 (R142, R563). -/
def ppsDriven (s : State) : Bool := s.time.cfg.ppsOutEn || (match s.svc.test with | some t => t.id == 10 | none => false)

/-- PPS_OUT_EDGE (R142): PPS_OUT rises at the TAI second; an edge less than 500 ms after the previous one is omitted. -/
def execPpsOutEdge (s : State) : Out :=
  .next (
    if !ppsDriven s then setTime (fun t => { t with ppsOut := false }) s
    else
      let k := s.clk.taiU % secU 1
      let s := if k == 0 then s else setClk (·.advance (s.clk.mono + (secU 1 - k))) s
      match s.time.ppsOutAt with
      | some p =>
        if s.clk.mono < p + msU 500 then setTime (fun t => { t with ppsOmitted := t.ppsOmitted + 1 }) s
        else setTime (fun t => { t with ppsOut := true, ppsOutAt := some s.clk.mono }) s
      | none => setTime (fun t => { t with ppsOut := true, ppsOutAt := some s.clk.mono }) s)

/-- PPS_OUT is high for PPS_OUT_W after its edge while enabled (R142). -/
def ppsOutLevel (s : State) : Bool :=
  ppsDriven s && s.time.ppsOut &&
  match s.time.ppsOutAt with | some p => decide (s.clk.mono < p + msU s.time.cfg.ppsOutW) | none => false

/-- LEAP_SECOND (R126): at the end of an announced UTC day the offset changes by one; TAI is not stepped. -/
def execLeapSecond (s : State) : Out :=
  .next (
    let t := s.time
    let d : Int := if t.leap61 then 1 else if t.leap59 then -1 else 0
    if d = 0 then s
    else timeEvent 5 0 [] (setTime (fun t => { t with utcOfs := t.utcOfs + d, leap61 := false, leap59 := false }) s))

/-- ClockFailure as its causes stand (Table: Time quality byte): both references lost, or the counter failed. -/
def clockFailed (s : State) : Bool := (!s.grid.refclkGood && !s.grid.cwClkGood) || !s.time.counterOk

/-! ### TIME.SOURCE and TIME.STEP (R130, R144-R146) -/

def timeCfgOf (b : Bytes) : TimeCfg :=
  { src := [fld b 0 0 2, fld b 0 2 2, fld b 0 4 2], ptpPorts := fld b 0 6 2, profile := fld b 0 8 1, slaveOnly := bitAt b 0 9,
    irigCode := fld b 0 10 3, irig1344 := bitAt b 0 13, ppsOutEn := bitAt b 0 14, domain := fld b 4 0 8,
    priority1 := fld b 4 8 8, priority2 := fld b 4 16 8, jumpThr := u32At b 8, utcOfs := s16At b 0x0C, utcOfsValid := bitAt b 0x0C 16,
    ppsInDly := u16At b 0x10, irigDly := u16At b 0x12, holdDrift := u16At b 0x14, ppsOutW := fld b 0x14 16 9,
    lat := (List.range 4).map (fun p =>
      { rxLat := u16At b (0x18 + 8 * p), txLat := u16At b (0x1A + 8 * p), asym := s16At b (0x1C + 8 * p) }) }

/-- The reserved fields of the time configuration block. -/
def timeReserved (b : Bytes) : List (Bool × Nat) :=
  [(fld b 0 15 17 != 0, 0), (fld b 4 24 8 != 0, 4), (fld b 0x0C 17 15 != 0, 0x0C), (fld b 0x14 25 7 != 0, 0x14)] ++
  (List.range 4).map (fun p => (fld b (0x1C + 8 * p) 16 16 != 0, 0x1C + 8 * p)) ++
  [(u32At b 0x38 != 0, 0x38), (u32At b 0x3C != 0, 0x3C)]

def srcTwice (l : List Nat) : Bool :=
  let l := l.filter (· != 0)
  !decide l.Nodup

/-- The port set that will be in force after the next boundary. -/
def portSetLatest (s : State) : Bytes :=
  s.acts.foldl (fun c a => match a.act with | .portSet b => b | _ => c) s.net.portSet

/-- The range checks of the block, in offset order (R130, R139): a pair that is HSR, or will be at the next boundary, runs no PTP. -/
def timeRange (s : State) (b : Bytes) : List (Bool × Nat) :=
  let c := timeCfgOf b
  let hsr := c.ptpPorts == 1 && fld (portSetLatest s) 0 0 2 == 2
  [(srcTwice c.src || c.ptpPorts == 3 || ! [2, 3, 6, 7].contains c.irigCode || (c.src.contains 1 && c.ptpPorts == 0) || hsr, 0),
   (c.jumpThr < 100 || 1000000000 < c.jumpThr, 8),
   (c.holdDrift < 1 || 50000 < c.holdDrift || c.ppsOutW < 1 || 500 < c.ppsOutW, 0x14)]

/-- The lowest violated offset of a block, as the DETAIL of a RANGE: 0x40 plus the offset (R52, R171). -/
def blockRange (l : List (Bool × Nat)) : Option Nat :=
  (l.filter (·.1)).foldl (fun m o => match m with | none => some (0x40 + o.2) | some x => some (min x (0x40 + o.2))) none

/-- The time configuration that will be in force after the next boundary. -/
def timeLatest (s : State) : TimeCfg :=
  s.acts.foldl (fun c a => match a.act with | .timeSource g => g | _ => c) s.time.cfg

/-- A class C field of the block differs (Table: Time configuration block). -/
def timeClassC (a b : TimeCfg) : Bool :=
  a.ptpPorts != b.ptpPorts || a.profile != b.profile || a.slaveOnly != b.slaveOnly || a.domain != b.domain

/-- TIME_SOURCE (R130). -/
def execTimeSource (c : Cmd) (s : State) : Out :=
  .next (command c (fun _ => {}) (fun s =>
    match readBlock c 64 s with
    | .error r => .done r s
    | .ok b =>
      match blockRange (timeReserved b ++ timeRange s b) with
      | some o => .done (Reply.range o) s
      | none =>
        if s.mode.mode != .configure && timeClassC (timeLatest s) (timeCfgOf b) then .done (Reply.fail St.locked 0) s
        else .atBoundary 0 0 (.timeSource (timeCfgOf b)) s) s)

/-- The configuration in force is `c`: PTP starts anew on other ports, a source no longer named is forgotten. -/
def timeCfgIn (c : TimeCfg) (t : TimeSt) : TimeSt :=
  let t := if t.cfg.ptpPorts == c.ptpPorts then { t with cfg := c } else { t with cfg := c, ports := [{}, {}], activePort := none, ptp := {} }
  (List.range 3).foldl (fun t i => if (srcRank t (i + 1)).isNone then setSrc (i + 1) (fun _ => {}) t else t) { t with configured := true }

/-- The source in use is no longer configured: none is in use, with the record of the change; LOCKED or LOCKING becomes HOLDOVER. -/
def dropUsed (s : State) : State :=
  if s.time.used == 0 || (srcRank s.time s.time.used).isSome then s
  else
    let s := changeUse 0 (fun t => { t with used := 0, ptpSecond := false, ptpLockedOnce := false }) s
    if s.time.state == .locked || s.time.state == .locking then raiseIrq Irq.time (setTState .holdover s) else s

/-- An accepted time configuration takes effect (R130, R126). -/
def applyTimeSource (c : TimeCfg) (s : State) : State := decideUtc (selectSource (dropUsed (runBmca (setTime (timeCfgIn c) s))))

def stepJudge (c : Cmd) (_ : State) : Judge :=
  let op := c.at_ 0x14 0 2
  { used := [(0x14, 0, 2)] ++ (if op == 2 then [(0x18, 0, 48), (0x20, 0, 30)] else if op == 3 then [(0x18, 0, 64)] else []),
    range := [(op == 0, 0x14), (op == 2 && decide (1000000000 ≤ c.at_ 0x20 0 30), 0x20)] }

/-- TIME_STEP (R144). -/
def execTimeStep (c : Cmd) (s : State) : Out :=
  .next (command c (stepJudge c) (fun s =>
    let op := c.at_ 0x14 0 2
    if op == 1 then
      match s.time.pending with
      | none => .done (Reply.refuse Rsn.state) s
      | some _ => .atBoundary 0 0 (.timeStep 1 0) s
    else if op == 2 then .atBoundary 0 0 (.timeStep 2 ((c.at_ 0x18 0 48 * 1000000000 + c.at_ 0x20 0 30 : Nat) : Int)) s
    else .atBoundary 0 0 (.timeStep 3 (c.sargs 0x18 0 64)) s) s)

/-- A step applied at the boundary (R144, R145): TAI moves, STEP_CNT rises, one record; the state becomes LOCKING, or HOSTSET without a
source; every source is to be reacquired. Answers the step in ns, none where a PENDING step's offset has been discarded (R146). -/
def applyTimeStep (op : Nat) (x : Int) (s : State) : Option Int × State :=
  let ns : Option Int :=
    if op == 1 then (if s.time.pendCut then none else s.time.pending.map (fun p => -p)) else if op == 2 then some (x - s.clk.taiNs) else some x
  match ns with
  | none => (none, s)
  | some d =>
    let before := s.clk
    let s := if op == 2 then setClk (·.setTai x.toNat) s else setClk (·.step d) s
    let s := setTime (fun t => { unlock 1 (unlock 2 (unlock 3 t)) with stepCnt := t.stepCnt + 1, pending := none }) s
    let s := timeEvent 3 0 (dTai before.taiSec before.taiSubNs ++ dOfs d) s
    (some d, setTState (if anySource s.time then .locking else .hostset) s)

/-! ### TIME.READ (R148) -/

def boundWord (t : TimeSt) : Nat :=
  match t.state, t.bound with
  | .free, _ => 2 ^ 32 - 1 | .hostset, _ => 2 ^ 32 - 1 | _, none => 2 ^ 32 - 1
  | _, some b => satN 32 b

/-- The addend as a frequency adjustment in 0.001 ppm (Table: Time status). -/
def freqAdj (a : Int) : Int := roundOpen 17 (a * 1000000000) (4 * 2 ^ 32)

def timeBlock (s : State) : Bytes :=
  let t := s.time
  let gm := gmInUse t
  leBytes 4 s.clk.taiSec ++
  leBytes 4 (s.clk.taiSec / 2 ^ 32 + place t.stepCnt.toNat 16 8 + place (tqByte t) 24 8) ++
  leBytes 4 s.clk.taiSubNs ++ leBytes 4 (timeStatus t) ++ leBytes 8 (codeOf (t.pending.getD 0) 64) ++
  leBytes 4 (boundWord t) ++ leBytes 4 (codeOf (freqAdj s.clk.addend) 32) ++ leBytes 8 s.clk.monoNs ++
  leBytes 4 (codeOf (satZ 32 t.lastOffset) 32) ++
  leBytes 4 (codeOf (match t.activePort with | some p => (ptpPort t p).linkDelay | none => 0) 32) ++
  leBytes 8 ((gm.map (·.identity)).getD 0) ++
  leBytes 4 ((gm.map (·.clockClass)).getD 0 + place (t.ports.getD 0 {}).portState 8 8 + place (t.ports.getD 1 {}).portState 16 8 +
    place (t.activePort.getD 0xFF) 24 8) ++
  leBytes 4 (t.refusedOfs + place t.srcSwitches 16 16) ++ gridBlock s ++ zeros 32

/-- TIME_READ (R148). -/
def execTimeRead (c : Cmd) (s : State) : Out :=
  .next (command c (fun _ => {}) (fun s => .done { out := some (timeBlock s) } s) s)

end Sys2Proof.Machine
end

