-- ==== Sys2Proof/Machine/Supv.lean ====
section
/-! DEFINITION. Supervision: causes of SAFE and DEGRADED, the counting of monitored sources, episodes, lasting faults, and
the open errors (R85, R86, R529-R536, R547). -/

namespace Sys2Proof.Machine

def setMode (f : ModeSt → ModeSt) (s : State) : State := { s with mode := f s.mode }
def setSupv (f : SupvSt → SupvSt) (s : State) : State := { s with supv := f s.supv }

/-! ### Causes -/

/-- A SAFE cause raised (R86, R89): from a running mode the device enters SAFE at the next boundary; in BOOT and CONFIGURE
the cause is held. -/
def raiseSafe (bit : Nat) (s : State) : State :=
  setMode (fun m =>
    { m with
      safe := m.safe ||| BitVec.ofNat 5 (2 ^ bit)
      safePend := if m.mode.runs && m.mode != .safe && m.safePend.isNone then some bit else m.safePend }) s

/-- A DEGRADED cause raised (R72, R85): it is recorded at once and changes the mode at a boundary. -/
def raiseDeg (bit : Nat) (s : State) : State := setMode (fun m => { m with deg := m.deg ||| BitVec.ofNat 4 (2 ^ bit) }) s
def clearDeg (bit : Nat) (s : State) : State := setMode (fun m => { m with deg := m.deg &&& ~~~(BitVec.ofNat 4 (2 ^ bit)) }) s

namespace DegCause
def stbyInUse : Nat := 0
def stbyRetired : Nat := 1
def sliceRetired : Nat := 2
def portLost : Nat := 3
end DegCause

namespace SafeCause
def uncovered : Nat := 0
def nesting : Nat := 1
def tamper : Nat := 2
def supv : Nat := 3
def policy : Nat := 4
end SafeCause

/-! ### Clusters and standbys -/

/-- A cluster has failed in the cycle in progress (R22, R23, R363): an active one waits for its takeover at the boundary; one
whose role a standby holds is lost with that standby (R392). -/
def failCluster (c kind : Nat) (s : State) : State :=
  match s.mode.clusters.getD c .outOfService, s.mode.tko.getD c .none with
  | .active, .none => setMode (fun m => { m with tko := modAt m.tko c (fun _ => .failed kind s.clk.ms) }) s
  | _, .replaying ms => setMode (fun m => { m with tko := modAt m.tko c (fun _ => .lost kind ms) }) s
  | .covered, .none => setMode (fun m => { m with tko := modAt m.tko c (fun _ => .lost kind s.clk.ms) }) s
  | _, _ => s

/-- A standby fails (R27): a ready one is retired; one in use leaves its cluster without cover (R392). -/
def failStandby (r kind : Nat) (s : State) : State :=
  match s.mode.standbys.getD r .absent with
  | .ready =>
    raiseDeg DegCause.stbyRetired (setMode (fun m =>
      { m with standbys := modAt m.standbys r (fun _ => .retired), parked := modAt m.parked r (fun _ => false) }) s)
  | .inUse k =>
    setMode (fun m => { m with standbys := modAt m.standbys r (fun _ => .retired) }) (failCluster (2 * r + k.toNat) kind s)
  | _ => s

/-! ### Monitored sources (Table: Monitored sources) -/

/-- N, W in units of the model's clock, clearing time in seconds, severity, and whether the source's own chapter requires
the declaration's record (R532). -/
structure Monitor where
  n : Nat
  w : Nat
  clear : Option Nat
  sev : Nat
  own : Bool
  deriving DecidableEq, Repr

def monitor (id : Nat) : Monitor :=
  match id with
  | 1 => ⟨1, 0, none, 4, true⟩
  | 2 => ⟨1, 0, none, 4, false⟩
  | 3 => ⟨1, 0, none, 4, false⟩
  | 4 => ⟨1, 0, none, 3, true⟩
  | 5 => ⟨16, secU 1, some 1, 1, false⟩
  | 6 => ⟨32, msU 10, none, 4, false⟩
  | 7 => ⟨2, secU 10, none, 3, true⟩
  | 8 => ⟨16, secU 1, some 10, 1, false⟩
  | 9 => ⟨8, msU 100, some 1, 2, true⟩
  | 10 => ⟨32, secU 1, none, 3, true⟩
  | 11 => ⟨3, secU 60, some 60, 2, false⟩
  | 12 => ⟨1, 0, none, 2, true⟩
  | 13 => ⟨4, secU 1, some 1, 1, false⟩
  | 14 => ⟨1, 0, some 10, 2, true⟩
  | 15 => ⟨1, 0, none, 2, true⟩
  | 16 => ⟨8, secU 1, some 1, 1, true⟩
  | 17 => ⟨8, secU 1, some 1, 1, false⟩
  | 18 => ⟨64, secU 1, some 1, 1, false⟩
  | 19 => ⟨4, secU 60, some 60, 2, false⟩
  | 20 => ⟨3, secU 60, none, 4, false⟩
  | 21 => ⟨3, secU 60, none, 4, false⟩
  | 22 => ⟨4, secU 60, some 60, 3, false⟩
  | _ => ⟨1, 0, none, 4, false⟩

def isInst (id inst : Nat) (f : FaultInst) : Bool := f.id == id && f.inst == inst

def findInst (v : SupvSt) (id inst : Nat) : FaultInst := (v.insts.find? (isInst id inst)).getD { id := id, inst := inst }

def putInst (f : FaultInst) (v : SupvSt) : SupvSt := { v with insts := f :: v.insts.filter (fun g => !isInst f.id f.inst g) }

def setTotals (id : Nat) (f : SrcTotals → SrcTotals) (v : SupvSt) : SupvSt := { v with totals := modAt v.totals (id - 1) f }

def isLasting (s : State) (id inst : Nat) : Bool := (findInst s.supv id inst).lasting

/-- A transient episode ends (R532): counted, and recorded at most once per 60 s for its instance with the count of those
folded into it; ID 12 writes its own chapter's record. -/
def endEpisode (f : FaultInst) (s : State) : State :=
  let due := match f.recAt with | none => true | some t => decide (t + secU 60 ≤ s.clk.mono)
  let rec_ := due && f.id != 12
  let g := { f with episode := false, events := [], peak := 0,
                    recAt := if rec_ then some s.clk.mono else f.recAt, folded := if rec_ then 0 else f.folded + 1 }
  let s := setSupv (fun v => putInst g (setTotals f.id (fun t => { t with episodes := satN 32 (t.episodes + 1) }) v)) s
  if rec_ then postEvent Src.supv 3 f.inst (dCode f.id ++ dCount f.peak ++ dCount (f.folded + 1)) s else s

/-- A lasting fault clears (R531, R532): its count restarts at 0; ID 12 has its own record. -/
def clearLasting (id inst : Nat) (s : State) : State :=
  let f := findInst s.supv id inst
  if !f.lasting then s
  else
    let s := setSupv (putInst { f with lasting := false, events := [], episode := false, peak := 0 }) s
    if id == 12 then s else postEvent Src.supv 5 inst (dCode id ++ dDur (s.clk.mono - f.since)) s

/-- A lasting fault whose clearing time has passed without an event (R531). -/
def clearDue (id inst : Nat) (s : State) : State :=
  let f := findInst s.supv id inst
  match (monitor id).clear with
  | some t => if f.lasting && decide (f.lastEvent + secU t ≤ s.clk.mono) then clearLasting id inst s else s
  | none => s

/-- The count and lasting state of an instance cleared by a change of N or W (R531). -/
def resetInst (id inst : Nat) (s : State) : State :=
  setSupv (fun v => { v with insts := v.insts.filter (fun g => !isInst id inst g) }) s

/-- What the action of a lasting declaration adds here: the SAFE causes of IDs 20, 21 and 23 (Table: Monitored sources). The
actions of the other sources belong to their own rules. -/
def lastingAction (id : Nat) (s : State) : State :=
  if id == 20 then raiseSafe SafeCause.supv s
  else if id == 21 || id == 23 then raiseSafe SafeCause.policy s
  else s

/-- A fault declared lasting now with a count in its window (R529, R532). -/
def declare (id inst count : Nat) (s : State) : State :=
  let f := findInst s.supv id inst
  if f.lasting then s
  else
    let s := setSupv (fun v => setTotals id (fun t => { t with lasting := satN 32 (t.lasting + 1) })
      (putInst { f with lasting := true, since := s.clk.mono, lastEvent := s.clk.mono, episode := false } v)) s
    let s := setSupv (fun v => { v with batch := v.batch ++ [(id, inst, count)] }) (raiseIrq Irq.supv s)
    lastingAction id s

/-- One event of a monitored source (R529, R532). -/
def countEvent (id inst : Nat) (s : State) : State :=
  let m := monitor id
  let now := s.clk.mono
  let s := clearDue id inst s
  let f := findInst s.supv id inst
  let s := setSupv (setTotals id (fun t => { t with events := satN 32 (t.events + 1) })) s
  if f.lasting then setSupv (putInst { f with lastEvent := now }) s
  else
    let kept := f.events.filter (fun t => decide (now < t + m.w))
    let s := if f.episode && kept.isEmpty then endEpisode f s else s
    let f := findInst s.supv id inst
    let events := now :: kept
    let f := { f with events := events, lastEvent := now, episode := true, peak := max f.peak events.length }
    let s := setSupv (putInst f) s
    if m.n ≤ events.length then declare id inst events.length s else s

/-! ### Open errors (R533-R536) -/

/-- Insertion behind every open error of equal or higher severity (R534). -/
def insertError (e : OpenError) : List OpenError → List OpenError
  | [] => [e]
  | x :: xs => if x.sev < e.sev then e :: x :: xs else x :: insertError e xs

/-- The head of the handling order has its handler running. -/
def startHandler (v : SupvSt) : SupvSt :=
  { v with open_ := match v.open_ with | [] => [] | e :: es => { e with begun := true } :: es }

/-- One declaration opened (R534-R536): nesting, the lasting record of R547, the NESTING cause at depth 5, and a handler
lost beyond 8. -/
def openError (d : Nat × Nat × Nat) (s : State) : State :=
  let (id, inst, count) := d
  let m := monitor id
  let old := s.supv.open_
  let nested := !old.isEmpty
  let s := setSupv (fun v => { v with nested := if nested then satN 32 (v.nested + 1) else v.nested }) s
  let depth := min 8 (old.length + 1)
  let s := if m.own then s
    else postEvent Src.supv 4 inst (dCode id ++ dCode m.sev ++ dCode (depth + place (flag nested) 7 1) ++ dCount count) s
  if 8 ≤ old.length then
    let n := satN 32 (s.supv.handlerLost + 1)
    postEvent Src.supv 7 inst (dCode id ++ dCount n) (setSupv (fun v => { v with handlerLost := n }) s)
  else
    let new := insertError { id := id, sev := m.sev, inst := inst, nested := nested } old
    let preempts := match old with | [] => false | x :: _ => decide (x.sev < m.sev) && !s.mode.supvRst
    let s := setSupv (fun v => startHandler { v with
      open_ := new, depthMax := max v.depthMax (min 7 new.length)
      preempts := if preempts then satN 32 (v.preempts + 1) else v.preempts }) s
    if new.length == 5 then postEvent Src.supv 6 inst (dCode id ++ dCode 5) (raiseSafe SafeCause.nesting s) else s

/-- The order of declarations of one instant: severity, highest first, then ID, then instance (R536). -/
def declLe (a b : Nat × Nat × Nat) : Bool :=
  let x := (monitor a.1).sev
  let y := (monitor b.1).sev
  decide (y < x) || (x == y && (decide (a.1 < b.1) || (a.1 == b.1 && decide (a.2.1 ≤ b.2.1))))

def insertDecl (d : Nat × Nat × Nat) : List (Nat × Nat × Nat) → List (Nat × Nat × Nat)
  | [] => [d]
  | x :: xs => if declLe d x then d :: x :: xs else x :: insertDecl d xs

/-- The declarations of this instant opened in their order (R536). -/
def settle (s : State) : State :=
  let ds := s.supv.batch.foldr insertDecl []
  ds.foldl (fun s d => openError d s) (setSupv (fun v => { v with batch := [] }) s)

/-- The running handler ends (R533); none runs while the supervisor core restarts. -/
def endHandler (s : State) : State :=
  if s.mode.supvRst then s else setSupv (fun v => startHandler { v with open_ := v.open_.drop 1 }) s

/-- Episodes and lasting faults whose time has passed end (R531, R532). -/
def sweepFaults (s : State) : State :=
  s.supv.insts.foldl (fun s f =>
    let m := monitor f.id
    if f.lasting then clearDue f.id f.inst s
    else if f.episode && f.id != 12 && f.id != 15 && decide (f.lastEvent + m.w ≤ s.clk.mono) then endEpisode f s
    else s) s

/-! ### Rows -/

/-- LASTING_FAULT_CLEARED (R531): the clearing time of a lasting fault ends without an event. -/
def execLastingFaultCleared (id : BitVec 5) (inst : BitVec 16) (s : State) : Out :=
  .next (
    let f := findInst s.supv id.toNat inst.toNat
    match f.lasting, (monitor id.toNat).clear with
    | true, some t => clearLasting f.id f.inst (setClk (·.advance (f.lastEvent + secU t)) s)
    | _, _ => s)

/-- TRANSIENT_EPISODE_END (R532): a full window has passed without an event. -/
def execTransientEpisodeEnd (id : BitVec 5) (inst : BitVec 16) (s : State) : Out :=
  .next (
    let f := findInst s.supv id.toNat inst.toNat
    if f.episode && !f.lasting then endEpisode f (setClk (·.advance (f.lastEvent + (monitor f.id).w)) s) else s)

/-- FAULT_HANDLER (R533): the handler of the first open error runs to its end. -/
def execFaultHandler (s : State) : Out := .next (endHandler s)

/-- A retry on the link of a compute die (R530): at 32 in 10 ms every active cluster of the die fails as by a lockstep mismatch. -/
def linkRetry (die : Nat) (s : State) : State :=
  let was := isLasting s 6 die
  let s := countEvent 6 die s
  settle (if !was && isLasting s 6 die then
      ((List.range 8).filter (fun c => c / 4 == die)).foldl (fun s c => failCluster c 1 s) s
    else s)

/-- DIE_TO_DIE_LINK_RETRY (R530). -/
def execDieToDieLinkRetry (die : BitVec 1) (s : State) : Out := .next (if die.toNat < s.variant.dies then linkRetry die.toNat s else s)

/-- ClockFailure rises where the clocks have failed (R128): an event of source 23. -/
def clockJudged (s : State) : State :=
  if clockFailed s && !s.time.clockFailure then
    settle (countEvent 23 0 (timeEvent 6 0 [] (setTime (fun t => { t with clockFailure := true }) s)))
  else s

/-- CLOCK_FAILURE (R128): a clock fails or its counter does; ClockFailure rises with both references lost or the counter
failed, is recorded, and is lasting at once (Table: Monitored sources). -/
def execClockFailure (part : ClockPart) (s : State) : Out :=
  .next (
    let s := match part with
      | .refclk => setGrid (fun g => { g with refclkGood := false }) s
      | .cwClk => loseCwClk s
      | .counter => setTime (fun t => { t with counterOk := false }) s
    clockJudged s)

end Sys2Proof.Machine
end

