-- ==== Sys2Proof/Machine/Log.lean ====
section
/-! DEFINITION. The Cairn event log: sealing, overflow, reading, clearing, verification, the power-down record
(R491-R508). -/

namespace Sys2Proof.Machine

def setLog (f : LogSt → LogSt) (s : State) : State := { s with log := f s.log }

/-- Slots of the ring (R501). -/
def logSlots : Nat := 32768

/-- Bytes 0x00-0x37 of a record (Table: Cairn record). -/
def recordBody (seq : Nat) (e : Event) : Bytes :=
  leBytes 8 seq ++ leBytes 6 e.taiSec ++ leBytes 1 e.tq ++ leBytes 1 (flag e.replay + place (flag e.direct) 1 1) ++
  leBytes 4 e.taiNs ++ leBytes 4 e.pwrCycles ++ leBytes 4 e.opMin ++ leBytes 1 e.source ++ leBytes 1 e.stepCnt ++
  leBytes 2 e.code ++ leBytes 2 e.unit ++ padTo 22 e.data

/-- SEAL (R493). -/
def sealOf (prev body : Bytes) : Bytes := (sha256 (prev ++ body)).take 8

def recSeq (r : Bytes) : Nat := u64At r 0
def recSeal (r : Bytes) : Bytes := (r.drop 0x38).take 8

/-- OLDEST_SEQ (R501). -/
def oldestSeq (l : LogSt) : Nat := max l.logStart (l.headSeq - (logSlots - 1))

/-- SEAL of the newest record; 8 zero bytes before the first record the device writes (R493). -/
def lastSeal (l : LogSt) : Bytes := match l.records with | [] => zeros 8 | r :: _ => recSeal r

/-- A record appended with the next sequence number; the record 32 768 before it is overwritten (R496, R501), READ_MARK
rises to OLDEST_SEQ (R504). -/
def appendRecord (e : Event) (l : LogSt) : LogSt :=
  let seq := l.headSeq + 1
  let body := recordBody seq e
  let isOver := decide (l.logStart + logSlots ≤ seq ∧ l.readMark + logSlots ≤ seq)
  let l := { l with
    records := (body ++ sealOf (lastSeal l) body) :: l.records.take (logSlots - 1)
    headSeq := seq
    overwrittenUnread := if isOver then satN 32 (l.overwrittenUnread + 1) else l.overwrittenUnread }
  { l with readMark := max l.readMark (oldestSeq l) }

/-- IRQ_STAT.EVT when the unread count reaches WM from below (R504). -/
def watermark (before : LogSt) (s : State) : State :=
  if before.headSeq + 1 - before.readMark < s.log.wm ∧ s.log.wm ≤ s.log.headSeq + 1 - s.log.readMark then raiseIrq Irq.evt s else s

/-- DATA of a cleared record at its sealing (R507): LOG_START until now, the records that become unreadable, the key slot,
and the lost count not yet entered (LOG_START as a count of 8 bytes, DEDUCED from R502, log entry 12). -/
def clearedData (l : LogSt) (slot : Nat) : Bytes :=
  dMs l.logStart ++ dCount (l.headSeq + 1 - oldestSeq l) ++ dCode slot ++ dCount ((l.overflow.map (·.count)).getD 0)

/-- The overflow record entered once the queue has drained to 768 (R499). -/
def enterOverflow (s : State) : State :=
  match s.log.overflow with
  | none => s
  | some o =>
    if 768 < s.log.queue.length then s
    else
      let e := { o.first with
        source := Src.log, code := 1, unit := o.firstSource, replay := false, clear := none
        data := dCount o.count ++ dMs o.firstMs ++ dMs o.lastMs }
      setLog (fun l => { l with queue := l.queue ++ [e], overflow := none, ovfRecords := satN 32 (l.ovfRecords + 1) }) s

/-- Sealing runs: not in BACKUP, not before the head has been found at boot step 0x09, and not during a restart of the
supervisor (R498, R502). -/
def sealing (s : State) : Bool :=
  s.mode.mode != .backup && !s.mode.supvRst && !(s.mode.mode == .boot && decide (s.mode.bootCode.toNat < 9))

/-- The first queued event sealed (R493, R498); a cleared record begins the new log and completes its command (R507). -/
def sealOne (s : State) : State :=
  match s.log.queue with
  | [] => s
  | e :: q =>
    let before := s.log
    match e.clear with
    | none => enterOverflow (watermark before (setLog (fun l => appendRecord e { l with queue := q }) s))
    | some (x, slot) =>
      let e := { e with data := clearedData s.log slot }
      let s := setLog (fun l =>
        let l := appendRecord e { l with queue := q, overflow := none }
        { l with logStart := l.headSeq, records := l.records.take 1, readMark := max l.readMark l.headSeq }) s
      enterOverflow (finishOpen x { result := s.log.headSeq } (watermark before s))

/-- CAIRN_SEAL (R493). -/
def execCairnSeal (s : State) : Out := .next (if sealing s then sealOne s else s)

/-- QUEUE_OVERFLOW_RECORD (R499). -/
def execQueueOverflowRecord (s : State) : Out := .next (enterOverflow s)

/-- The power-down record, written directly with the next SEQ; the queue and a pending overflow are lost (R500). -/
def writeDirect (code : Nat) (data : Bytes) (s : State) : State :=
  let e := { mkEventAt s s.clk.taiU Src.power code 0 data with direct := true }
  setLog (fun l => { appendRecord e l with queue := [], overflow := none }) s

/-- Sequence numbers of the records whose seal fails, newest first; the oldest record held is checked only where the one
before it is known to be none (R493, R502). -/
def brokenSeals : List Bytes → List Nat
  | r :: p :: rs =>
    (if recSeal r == sealOf (recSeal p) (r.take 0x38) then [] else [recSeq r]) ++ brokenSeals (p :: rs)
  | [r] => if recSeq r == 1 && recSeal r != sealOf (zeros 8) (r.take 0x38) then [1] else []
  | [] => []

/-- LOG_CHAIN_VERIFY (R502): each failing seal raises CHAIN_BREAKS and is recorded; from CONFIGURE onward. -/
def execLogChainVerify (s : State) : Out :=
  .next (
    if s.mode.mode == .boot || s.mode.mode == .backup then s
    else (brokenSeals s.log.records).foldl (fun s q =>
      postEvent Src.log 4 0 (dMs q) (setLog (fun l => { l with chainBreaks := satN 32 (l.chainBreaks + 1) }) s)) s)

/-! ### EVT.READ (R503-R505) -/

/-- The record with a sequence number, as stored. -/
def recordAt (l : LogSt) (q : Nat) : Bytes := l.records.getD (l.headSeq - q) (zeros 64)

def logStatus (l : LogSt) : Bytes :=
  leBytes 8 l.headSeq ++ leBytes 8 (oldestSeq l) ++ leBytes 8 l.logStart ++ leBytes 8 l.readMark ++
  leBytes 4 (l.queue.length + place l.wm 16 16) ++ leBytes 4 l.lostTotal ++ leBytes 4 l.ovfRecords ++
  leBytes 4 l.clearDenied ++ leBytes 4 l.chainBreaks ++ leBytes 4 l.overwrittenUnread ++ zeros 8

def evtReadJudge (c : Cmd) (s : State) : Judge :=
  let mode := c.at_ 0x1C 0 2
  { used := (if mode == 0 then [(0x14, 0, 64), (0x1C, 0, 3)] else [(0x1C, 0, 2)]) ++ [(0x20, 0, 16)]
    range := [(mode == 0 && decide (s.log.headSeq + 1 < c.at_ 0x14 0 64), 0x14), (decide (1 < mode), 0x1C),
              (decide (logSlots < c.at_ 0x20 0 16), 0x20)] }

/-- READ_MARK set to a sequence number when that is higher (R504). -/
def raiseMark (q : Nat) (s : State) : State := setLog (fun l => { l with readMark := max l.readMark q }) s

/-- The watermark set by WM of an EVT.READ that returns its `n` bytes; 0 leaves it (R503). -/
def setMark (c : Cmd) (n : Nat) (s : State) : State :=
  let wm := c.at_ 0x20 0 16
  if wm != 0 && returns c n s then setLog (fun l => { l with wm := wm }) s else s

def evtReadAct (c : Cmd) (s : State) : Action :=
  if c.room < 64 then .done (Reply.refuse Rsn.buffer) s
  else
    if c.at_ 0x1C 0 2 == 1 then let s := setMark c 64 s; .done { out := some (logStatus s.log) } s
    else
      let from_ := c.at_ 0x14 0 64
      let old := oldestSeq s.log
      let first := if from_ == 0 then old else max from_ old
      let n := min (c.room / 64) (s.log.headSeq + 1 - first)
      let out := (List.range n).flatMap (fun i => recordAt s.log (first + i))
      let r : Reply :=
        { detail := if from_ == 0 then 0 else satN 16 (first - from_), result := first + n, out := some out }
      let s := setMark c (64 * n) s
      .done r (if c.at_ 0x1C 2 1 == 1 && returns c (64 * n) s then raiseMark (first + n) s else s)

/-- EVT_READ (R503): MODE 0 of EVT.READ. -/
def execEvtRead (c : Cmd) (s : State) : Out := .next (command c (evtReadJudge c) (evtReadAct c) s)

/-- EVT_READ_STATUS (R505): MODE 1 of EVT.READ. -/
def execEvtReadStatus (c : Cmd) (s : State) : Out := .next (command c (evtReadJudge c) (evtReadAct c) s)

/-! ### EVT.CLEAR (R506-R508) -/

/-- EVT_CLEAR: the cleared record enters the queue; the command completes when it is sealed. A record that finds the queue
full is lost (R499), and the command is then refused (log entry 13). -/
def execEvtClear (c : Cmd) (s : State) : Out :=
  .next (command c (fun _ => { range := [(c.unit != 0, 0x04)] }) (fun s =>
    let e := { mkEventAt s s.clk.taiU Src.log 2 0 [] with clear := some (refOf c, c.keySlot) }
    let full := decide (1024 ≤ s.log.queue.length)
    let s := setLog (enqueue s.clk.ms e) s
    if full then .done (Reply.refuse Rsn.state) s else .goesOn (queuedEntry c s)) s)

end Sys2Proof.Machine
end

