-- ==== Sys2Proof/Machine/Security.lean ====
section
/-! DEFINITION. Keys, firmware images and the tamper response (R509-R528). -/

namespace Sys2Proof.Machine

def setSec (f : SecSt → SecSt) (s : State) : State := { s with sec := f s.sec }

/-- A record of SOURCE SEC (R528). -/
def secRecord (code unit : Nat) (data : Bytes) (s : State) : State := postEvent Src.sec code unit data s

/-! ### Erasing -/

/-- An erased slot is zero-filled; CTR stays (R510, R517). -/
def eraseSlot (k : KeySlot) : KeySlot := { ctr := k.ctr, ctrMram := k.ctrMram }

/-- Every slot that satisfies `p` erased. -/
def eraseWhere (p : Nat → KeySlot → Bool) (x : SecSt) : SecSt :=
  { x with slots := x.slots.mapIdx (fun i k => if p i k then eraseSlot k else k) }

/-- KEY.LOADs fetched and not yet written whose slot or authorising key a tamper response erases (R518). -/
def tamperLoads (p : Nat → KeySlot → Bool) (s : State) : State :=
  let hit (i : Nat) : Bool := decide (i < 32) && p i (s.sec.slots.getD i {})
  { s with host := { s.host with inflight := s.host.inflight.map (fun f =>
      if f.cmd.code == 0x1101 && !f.started && (hit f.cmd.unit || hit f.cmd.keySlot) then { f with tampered := true } else f) } }

/-! ### KEY.LOAD (R515, R516) -/

/-- Key length that USE and ALG ask for (Table: Key uses). -/
def keyLength (use alg : Nat) : Nat := if use == 2 && alg == 0 then 16 else 32

/-- KCV: the first 4 bytes of HMAC-SHA256(key, "ULUTAL-KCV"). -/
def kcvOf (key : Bytes) : Nat :=
  u32At (hmacSha256 key [0x55#8, 0x4C#8, 0x55#8, 0x54#8, 0x41#8, 0x4C#8, 0x2D#8, 0x4B#8, 0x43#8, 0x56#8]) 0

/-- Range checks of the key load block, reserved fields and the unused rest of KEYDATA among them. -/
def keyBlockRange (prov : Bool) (b : Bytes) : List (Bool × Nat) :=
  let use := fld b 0 0 4
  let used := fld b 4 0 8 + (if bitAt b 0 5 then 0 else 8)
  [(use == 0 || decide (7 < use) || (use != 2 && bitAt b 0 4) || (bitAt b 0 5 && !prov) || fld b 0 6 26 != 0, 0),
   ((fld b 4 0 8 != 16 && fld b 4 0 8 != 32) || fld b 4 8 24 != 0, 4)] ++
  (List.range 10).map (fun i => (decide (used ≤ 4 * i) && u32At b (8 + 4 * i) != 0, 8 + 4 * i)) ++
  [(u32At b 0x34 != 0, 0x34), (u32At b 0x38 != 0, 0x38), (u32At b 0x3C != 0, 0x3C)]

/-- The key written to its slot: it serves the mailboxes at once, the lines from the next boundary (R513, R515). -/
def storeKey (slot use alg : Nat) (key : Bytes) (kcv : Nat) (s : State) : State :=
  secRecord 1 slot (dCode use ++ dWord kcv)
    (setSec (fun x =>
      { x with
        slots := modAt x.slots slot (fun k =>
          { k with use := use, alg := alg, key := key, kcv := kcv, loadSec := s.clk.taiSec % 2 ^ 32 })
        setAuth := x.setAuth || use == 3
        keysLost := false }) s)

/-- The load of one slot from its block, judged after the token: RANGE, then CHECK (R515, R518). -/
def keyLoadSlot (c : Cmd) (prov : Bool) (b : Bytes) (s : State) : Action :=
  match blockRange (keyBlockRange prov b) with
  | some o => .done (Reply.range o) s
  | none =>
    let use := fld b 0 0 4
    let alg := fld b 0 4 1
    let klen := fld b 4 0 8
    let kek := (s.sec.slots.getD c.keySlot {}).key
    let key := if bitAt b 0 5 then some ((b.drop 8).take klen) else keyUnwrap kek ((b.drop 8).take (klen + 8))
    if ((findInFlight s c).map (·.tampered)).getD false then .done (Reply.refuse Rsn.state) s
    else match key with
      | none => .done (Reply.refuse Rsn.check) s
      | some k =>
        if klen != keyLength use alg || kcvOf k != u32At b 0x30 then .done (Reply.refuse Rsn.check) s
        else .done { effect := some (nextMs s) } (storeKey c.unit use alg k (u32At b 0x30) s)

/-- The policy word 0x00 (Table: Tamper policy block). -/
def policyWord (p : TamperPolicy) : Nat :=
  (List.range 7).foldl (fun a j =>
    a + place (p.level.getD j 0 + place (flag (p.en.getD j true)) 2 1 + place (flag (p.pol.getD j false)) 3 1) (4 * j) 4) 0

def policyBytes (p : TamperPolicy) : Bytes :=
  leBytes 4 (policyWord p) ++ leBytes 4 (p.pinFilt + place p.bfN 16 8) ++ leBytes 4 p.bfW ++ zeros 4

def policyOf (b : Bytes) : TamperPolicy :=
  { level := (List.range 7).map (fun j => fld b 0 (4 * j) 2), en := (List.range 7).map (fun j => bitAt b 0 (4 * j + 2)),
    pol := (List.range 7).map (fun j => bitAt b 0 (4 * j + 3)), pinFilt := u16At b 4, bfN := fld b 4 16 8, bfW := u16At b 8 }

def policyRange (b : Bytes) : List (Bool × Nat) :=
  let p := policyOf b
  [(p.level.contains 3 || (List.range 7).any (fun j => j != 4 && j != 5 && p.pol.getD j false) || fld b 0 28 4 != 0, 0),
   (p.pinFilt < 1 || 10000 < p.pinFilt || p.bfN < 1 || fld b 4 24 8 != 0, 4),
   (p.bfW < 1 || 1440 < p.bfW || fld b 8 16 16 != 0, 8), (u32At b 0x0C != 0, 0x0C)]

/-- UNIT of KEY.LOAD: a slot, or 0x0100 for the tamper policy; in provisioning outside CONFIGURE the token's outcome comes
first (R52, R516). -/
def keyLoadJudge (c : Cmd) (s : State) : Judge :=
  { range := [(!(provisioning s.sec && s.mode.mode != .configure) && decide (32 ≤ c.unit) && c.unit != 0x0100, 0x04)] }

/-- KEY.LOAD after its token: in provisioning only a clear key of use 6 in CONFIGURE is accepted (R516). -/
def keyLoadAct (c : Cmd) (s : State) (t : TokenVerdict) : Action :=
  let prov := t == .provisioning
  if prov && (s.mode.mode != .configure || c.unit == 0x0100) then .done (Reply.fail St.auth 3) s
  else if c.unit == 0x0100 then
    match readBlock c 16 s with
    | .error r => .done r s
    | .ok b =>
      match blockRange (policyRange b) with
      | some o => .done (Reply.range o) s
      | none => .done {} (secRecord 6 0 (b.take 4) (setSec (fun x => { x with policy := policyOf b }) s))
  else
    match readBlock c 64 s with
    | .error r => .done r s
    | .ok b =>
      if prov && !(fld b 0 0 4 == 6 && bitAt b 0 5) then .done (Reply.fail St.auth 3) s else keyLoadSlot c prov b s

/-- KEY_LOAD (R515). -/
def execKeyLoad (c : Cmd) (s : State) : Out := .next (runCommand c (keyLoadJudge c) (keyLoadAct c) s)

/-- KEY_LOAD_TAMPER_POLICY (R523): KEY.LOAD with UNIT 0x0100. -/
def execKeyLoadTamperPolicy (c : Cmd) (s : State) : Out := .next (runCommand c (keyLoadJudge c) (keyLoadAct c) s)

/-! ### KEY.ERASE (R517, R526) -/

def keyEraseJudge (c : Cmd) (_ : State) : Judge :=
  { range := [(decide (32 ≤ c.unit) && c.unit != 0x00FF && c.unit != 0x0100, 0x04)] }

def hasUse (x : SecSt) (use : Nat) : Bool := x.slots.any (fun k => k.use == use)

/-- Slots erased by command: SET_AUTH falls when the last key of use 3 goes (R513), one record per key erased. -/
def eraseKeys (p : Nat → Bool) (s : State) : State :=
  let gone := (List.range 32).filter (fun i => p i && (s.sec.slots.getD i {}).use != 0)
  let had := hasUse s.sec 3
  let s := setSec (fun x =>
    let y := eraseWhere (fun i _ => p i) x
    { y with setAuth := y.setAuth && !(had && !hasUse y 3) }) s
  gone.foldl (fun s i => secRecord 2 i [] s) s

/-- The tamper latch cleared with the held cause TAMPER; a condition that still stands fires again 1 s later (R526). -/
def clearLatch (s : State) : State :=
  secRecord 5 0 []
    (setMode (fun m => { m with safe := m.safe &&& ~~~(BitVec.ofNat 5 4) })
      (setSec (fun x =>
        { x with
          tlatch := List.replicate 7 false, l2 := false, tfirst := 0
          tarmed := List.replicate 7 true
          tnotBefore := x.tactive.map (fun a => if a then s.clk.mono + secU 1 else 0) }) s))

def keyEraseAct (c : Cmd) (s : State) : Action :=
  if c.unit == 0x0100 then .done {} (clearLatch s)
  else
    let p (i : Nat) : Bool := c.unit == 0x00FF || i == c.unit
    if (List.range 32).any (fun i => p i && (s.sec.slots.getD i {}).use != 0) then
      .done { effect := some (nextMs s) } (eraseKeys p s)
    else .done {} s

/-- KEY_ERASE (R517). -/
def execKeyErase (c : Cmd) (s : State) : Out := .next (command c (keyEraseJudge c) (keyEraseAct c) s)

/-- KEY_ERASE_TAMPER_LATCH (R526): KEY.ERASE with UNIT 0x0100. -/
def execKeyEraseTamperLatch (c : Cmd) (s : State) : Out := .next (command c (keyEraseJudge c) (keyEraseAct c) s)

/-! ### KEY.STATUS (R527) -/

def imageSvn (f : FwSlot) : Nat := byteAt f.image 0x0A
def inactive (x : SecSt) : Nat := 1 - x.active
def boolBits (l : List Bool) : Nat := maskOf l.length (fun i => l.getD i false)

def keyStatusBlock (x : SecSt) : Bytes :=
  let f := x.fw.getD (inactive x) {}
  padTo 0x40 (
    leBytes 8 Config.devUid.toNat ++
    leBytes 4 (flag (provisioning x) + place (flag x.setAuth) 1 1 + place (flag x.keysLost) 2 1 + place x.active 3 1 +
      place (flag f.valid) 4 1 + place x.minSvn 8 8 + place (if f.valid then imageSvn f else 0) 16 8) ++
    leBytes 4 (boolBits x.tlatch + place (flag x.l2) 7 1 + place (boolBits x.tactive) 8 7) ++
    leBytes 4 x.tfirst ++ leBytes 4 x.authFails ++ policyBytes x.policy) ++
  (List.range 32).flatMap (fun i =>
    let k := x.slots.getD i {}
    leBytes 4 (k.use + place k.alg 4 1 + place (flag (k.use == 1 || k.use == 2)) 5 1) ++ leBytes 4 k.ctr ++
      leBytes 4 k.kcv ++ leBytes 4 k.loadSec)

/-- KEY_STATUS (R527). -/
def execKeyStatus (c : Cmd) (s : State) : Out :=
  .next (command c (fun _ => {}) (fun s => .done { out := some (keyStatusBlock s.sec) } s) s)

/-! ### Firmware images (R519-R521) -/

def slotSize : Nat := 2 * 1024 * 1024

/-- The rule an image fails, in the order of FW.LOAD's RESULT; none for a valid image (R519, R520). -/
def imageFault (v : Variant) (minSvn : Nat) (b : Bytes) : Option Nat :=
  if u32At b 0 != 0x58524B31 then some 1
  else if u32At b 4 != b.length then some 2
  else if !bitAt b 8 (24 + v.imageBit) then some 3
  else if byteAt b 0x0A < minSvn then some 4
  else if sha256 ((b.drop 0x40).take 64) != Config.keyHash then some 5
  else if !ecdsaVerify ((b.drop 0x40).take 64) ((b.drop 0x80).take 64) (sha256 (b.take 0x80 ++ b.drop 0x100)) then some 6
  else none

def setFw (i : Nat) (f : FwSlot → FwSlot) (s : State) : State := setSec (fun x => { x with fw := modAt x.fw i f }) s

def fwLoadJudge (c : Cmd) (_ : State) : Judge :=
  let o := c.at_ 0x14 0 32
  { used := [(0x14, 0, 32), (0x18, 0, 1)], range := [(o % 4096 != 0, 0x14)] }

/-- A part of an image written at the end of the previous one; FINAL starts the verification. -/
def fwLoadAct (c : Cmd) (s : State) : Action :=
  let o := c.at_ 0x14 0 32
  if c.room % 4096 != 0 || decide (c.room < 4096) || decide (65536 < c.room) then .done (Reply.refuse Rsn.buffer) s
  else
    let i := inactive s.sec
    let f := s.sec.fw.getD i {}
    if s.sec.verify.isSome || (o != 0 && (!f.loading || f.image.length != o)) || decide (slotSize < o + c.room) then
      .done (Reply.refuse Rsn.state) s
    else match readBlock c c.room s with
      | .error r => .done r s
      | .ok b =>
        let image := if o == 0 then b else f.image ++ b
        let s := setFw i (fun _ => { image := image, valid := false, loading := true }) s
        if c.at_ 0x18 0 1 == 1 then .goesOn (setSec (fun x => { x with verify := some (refOf c) }) (queuedEntry c s)) else .done {} s

/-- FW_LOAD (R520). -/
def execFwLoad (c : Cmd) (s : State) : Out := .next (command c (fwLoadJudge c) (fwLoadAct c) s)

/-- FW_VERIFY_DONE (R520): the slot is marked VALID, or the load is refused with the rule that failed. -/
def execFwVerifyDone (s : State) : Out :=
  .next (match s.sec.verify with
    | none => s
    | some x =>
      let i := inactive s.sec
      let f := s.sec.fw.getD i {}
      let s := setSec (fun y => { y with verify := none }) s
      match imageFault s.variant s.sec.minSvn f.image with
      | none =>
        finishOpen x {} (secRecord 8 0 (leBytes 2 (u16At f.image 8) ++ leBytes 1 (imageSvn f))
          (setFw i (fun f => { f with valid := true, loading := false }) s))
      | some k =>
        finishOpen x { status := St.refused, detail := Rsn.check, result := k }
          (secRecord 7 0 (dCode k) (setFw i (fun f => { f with loading := false }) s)))

/-- A partial image is discarded at entry to RIDE-THROUGH or SAFE (R520). -/
def dropPartial (s : State) : State :=
  if s.sec.verify.isSome then s else setFw (inactive s.sec) (fun f => if f.loading then {} else f) s

/-- FW_ACTIVATE (R521). -/
def execFwActivate (c : Cmd) (s : State) : Out :=
  .next (command c (fun _ => { used := [(0x14, 0, 1)] }) (fun s =>
    let i := inactive s.sec
    let f := s.sec.fw.getD i {}
    if !f.valid then .done (Reply.refuse Rsn.state) s
    else
      let commit := c.at_ 0x14 0 1
      let s := setSec (fun x => { x with active := i, commit := commit == 1 }) s
      let s := setMode (fun m => { m with restart := some { src := 5, cmd := some (refOf c) } }) s
      .done {} (secRecord 9 0 (leBytes 2 (u16At f.image 8) ++ leBytes 1 commit) s)) s)

/-! ### Tamper response (R522-R525) -/

/-- A source is watched in BACKUP (Table: Tamper sources); of GLITCH and CLOCK, with the rails down, the part that is the backup
domain's own. -/
def watchedInBackup (j : Nat) : Bool := decide (j < 6)

/-- The response at a level: session keys from 1, every key and the SAFE cause from 2 (R524). -/
def tamperAct (level : Nat) (s : State) : State :=
  let p (_ : Nat) (k : KeySlot) : Bool := k.use != 0 && (level == 2 || k.use == 1 || k.use == 2)
  let some_ := (List.range 32).any (fun i => p i (s.sec.slots.getD i {}))
  if level == 0 then s
  else
    let hit (i : Nat) (k : KeySlot) : Bool := level == 2 || p i k
    let s := tamperLoads hit s
    let s := setSec (fun x =>
      { eraseWhere hit x with
        lineKeys := x.lineKeys.mapIdx (fun i k => if hit i k then eraseSlot k else k)
        keysLost := x.keysLost || some_, l2 := x.l2 || level == 2 }) s
    if level == 2 then raiseSafe SafeCause.tamper s else s

/-- Source `j` fires (R522, R524; sources that fire together come as one row each, log entry 56): latched, answered at its level, recorded; in BACKUP the record waits for boot step 0x09. -/
def fireTamper (j : Nat) (s : State) : State :=
  let x := s.sec
  if !(x.policy.en.getD j false) || !(x.tarmed.getD j false) || (s.mode.mode == .backup && !watchedInBackup j) then s
  else
    let level := x.policy.level.getD j 0
    let s := setClk (·.advance (x.tnotBefore.getD j 0)) s
    let first := if x.tlatch.contains true then x.tfirst else rtcNow s % 2 ^ 32
    let s := setSec (fun x =>
      { x with
        tlatch := modAt x.tlatch j (fun _ => true), tactive := modAt x.tactive j (fun _ => true)
        tarmed := modAt x.tarmed j (fun _ => false), tfirst := first }) s
    let s := tamperAct level s
    if s.mode.mode == .backup then setSec (fun x => { x with tpendRec := x.tpendRec ++ [j] }) s
    else secRecord 4 j (dCode level ++ dWord first) (raiseIrq Irq.tamper s)

/-- TAMPER_FIRE (R524). -/
def execTamperFire (j : BitVec 3) (s : State) : Out := .next (fireTamper j.toNat s)

/-- TAMPER_REARM (R522): the condition has been absent for 1 s; TACTIVE falls here (log entry 56). -/
def execTamperRearm (j : BitVec 3) (s : State) : Out :=
  .next (setSec (fun x =>
    { x with tactive := modAt x.tactive j.toNat (fun _ => false), tarmed := modAt x.tarmed j.toNat (fun _ => true) }) s)

/-- Records of firings in BACKUP, with TFIRST as their time (R525). -/
def tamperBootRecords (s : State) : State :=
  let s' := s.sec.tpendRec.foldl (fun s j =>
    let e := mkEventAt s (s.sec.tfirst * secU 1) Src.sec 4 j (dCode (s.sec.policy.level.getD j 0) ++ dWord s.sec.tfirst)
    setLog (enqueue s.clk.ms e) s) s
  setSec (fun x => { x with tpendRec := [] }) s'

/-- The keys after VBAT_LOST: slots empty, each CTR at its MRAM copy plus 65 536, the policy at its Reset column (R510,
R440, R523). -/
def vbatKeysLost (s : State) : State :=
  setSec (fun x =>
    { x with
      slots := x.slots.map (fun k => { ctr := satN 32 (k.ctrMram + 65536), ctrMram := k.ctrMram })
      keysLost := x.keysLost || x.slots.any (fun k => k.use != 0), policy := {}, tlatch := List.replicate 7 false, l2 := false, tfirst := 0 }) s

end Sys2Proof.Machine
end

