-- ==== Sys2Proof/Machine/TableFields.lean ====
section
/-! DEFINITION. Fields of the cached table entries that several units read: bay modes, lanes and their sources (R13, R60,
R80, R156). -/

namespace Sys2Proof.Machine

/-! ### Bays -/

def bayBytes (s : State) (b : Nat) : Bytes := (s.tbl.bay.getD b {}).bytes
/-- EN of the cached Bay Table entry of a bay the variant has. -/
def bayEn (s : State) (b : Nat) : Bool := decide (b < s.variant.bays) && bitAt (bayBytes s b) 0 0
def clusterOf (b : Nat) : Nat := b / 8
def regionOf (c : Nat) : Nat := c / 2

def beh (s : State) (b : Nat) : Nat := fld (bayBytes s b) 4 0 3
def commTrip (s : State) (b : Nat) : Bool := bitAt (bayBytes s b) 4 3
def fsPolicy (s : State) (b : Nat) : Nat := fld (bayBytes s b) 4 4 2
def stbyShed (s : State) (b : Nat) : Bool := bitAt (bayBytes s b) 0x100 0

/-- A cluster in service: it runs itself, or its standby holds its role. -/
def clusterOk (s : State) (c : Nat) : Bool :=
  decide (c < s.variant.clusters) && match s.mode.clusters.getD c .outOfService with | .active => true | .covered => true | _ => false

/-- A bay present and in service. -/
def bayOk (s : State) (b : Nat) : Bool := decide (b < s.variant.bays) && clusterOk s (clusterOf b)

def override (s : State) (b : Nat) : Nat := s.mode.override.getD b 0

/-- The effective behaviour of a bay (R82, Table: SYS.STATUS result): 0 not running or absent, 1-5 as BEH, 6 fail-safe. -/
def effBeh (s : State) (b : Nat) : Nat :=
  if !bayEn s b || !s.mode.mode.runs then 0
  else if s.mode.fsActive.getD b false then 6
  else if !bayOk s b then 0
  else match s.mode.mode with
    | .commission => if override s b == 5 || beh s b == 5 then 5 else if commTrip s b then 3 else 4
    | .safe => s.mode.safeBeh.getD b 0
    | _ => if override s b != 0 then override s b else beh s b

/-- TRIP outputs live (on, test); elements evaluated (all but off); test inputs taken as valid (test, test/blocked). -/
def tripsLive (beh : Nat) : Bool := beh == 1 || beh == 3
def evaluated (beh : Nat) : Bool := beh == 1 || beh == 2 || beh == 3 || beh == 4
def testValid (beh : Nat) : Bool := beh == 3 || beh == 4

/-! ### Lanes -/

def laneBytes (s : State) (l : Nat) : Bytes := (s.tbl.lane.getD l {}).bytes
def laneEn (s : State) (l : Nat) : Bool := decide (l < s.variant.lanes) && bitAt (laneBytes s l) 0 0
/-- SRC of an enabled lane: 0 none, 1 local slice, 2 SV channel. -/
def laneSrc (s : State) (l : Nat) : Nat := if laneEn s l then fld (laneBytes s l) 4 0 2 else 0
def laneSlice (s : State) (l : Nat) : Nat := fld (laneBytes s l) 4 8 6
def laneGain (s : State) (l : Nat) : Nat := fld (laneBytes s l) 0x10 0 2
def laneInvert (s : State) (l : Nat) : Bool := bitAt (laneBytes s l) 0x10 2
def laneFsPrimary (s : State) (l : Nat) : Nat := u32At (laneBytes s l) 0x14
def laneBrdGain (s : State) (l : Nat) : Int := s16At (laneBytes s l) 0x18
def laneBrdOfs (s : State) (l : Nat) : Int := s16At (laneBytes s l) 0x1A

/-- The enabled lane that names a slice (R157). -/
def laneOfSlice (s : State) (x : Nat) : Option Nat :=
  findIdxBelow s.variant.lanes (fun l => laneSrc s l == 1 && laneSlice s l == x)

/-- A slice no enabled lane names is parked (R159). -/
def parked (s : State) (x : Nat) : Bool := (laneOfSlice s x).isNone

/-! ### Bays and sections at run time; the plausibility model's marks (R275) -/

def setProt (f : ProtSt → ProtSt) (s : State) : State := { s with prot := f s.prot }
def bayProt (s : State) (b : Nat) : BayProt := s.prot.bays.getD b {}
def setBay (b : Nat) (f : BayProt → BayProt) (s : State) : State := setProt (fun p => { p with bays := modAt p.bays b f }) s
def bayRun (s : State) (b : Nat) : BayRun := (bayProt s b).cur
def setRun (b : Nat) (f : BayRun → BayRun) (s : State) : State := setBay b (fun x => { x with cur := f x.cur }) s
def sectRun (s : State) (k : Nat) : SectRun := s.prot.sects.getD k {}
def setSect (k : Nat) (f : SectRun → SectRun) (s : State) : State := setProt (fun p => { p with sects := modAt p.sects k f }) s

def chkMarks (c : Chk) (l : Nat) : Bool := c.act && c.lanes.contains l

/-- The plausibility model marks a lane QST in the Milestone in progress (R275). -/
def plbMarked (s : State) (l : Nat) : Bool :=
  let x := bayRun s (l / 8)
  chkMarks x.inChk l || chkMarks x.vxChk l || s.prot.sects.any (fun k => k.kir.any (fun c => chkMarks c l) || chkMarks k.vag l)

end Sys2Proof.Machine
end

