-- ==== Sys2Proof/Machine/Acq.lean ====
section
/-! DEFINITION. Protection slices: correction, background calibration, retirement, settling and status (R150-R169). -/

namespace Sys2Proof.Machine

def setAcq (f : AcqSt → AcqSt) (s : State) : State := { s with acq := f s.acq }
def sliceSt (s : State) (x : Nat) : SliceSt := s.acq.slices.getD x {}
def setSlice (x : Nat) (f : SliceSt → SliceSt) (s : State) : State := setAcq (fun a => { a with slices := modAt a.slices x f }) s
def calGroup (s : State) (g : Nat) : CalGroup := s.acq.groups.getD g {}
def setGroup (g : Nat) (f : CalGroup → CalGroup) (s : State) : State := setAcq (fun a => { a with groups := modAt a.groups g f }) s
def spareOf (g : Nat) : Nat := 48 + g

/-- The group calibrates (R165): its spare is neither bound nor retired. -/
def groupCals (s : State) (g : Nat) : Bool := (calGroup s g).bound.isNone && !(sliceSt s (spareOf g)).retired

/-- The unit that serves a slice's lane: the bound spare, the spare in phases 3 and 4 of a step, or the slice itself; none
for a retired slice without a spare (R160, R164, R166). -/
def server (s : State) (x : Nat) : Option Nat :=
  let g := x / 16
  let c := calGroup s g
  if c.bound == some x then some (spareOf g)
  else if (sliceSt s x).retired then none
  else if groupCals s g && c.idx == x % 16 && decide (3 ≤ c.phase) && !c.idle then some (spareOf g)
  else some x

/-- The end codes of a slice. -/
def satCode (v : Int) : Int := satZ 18 v

/-- The correction unit (R158); the rounding to a code is left open (log entry 3). -/
def correct (ofs gc brdGain brdOfs code : Int) : Int :=
  let num := (256 * code - ofs) * (100000000 + gc) * (1000000 + brdGain)
  satCode (roundOpen 18 num (256 * 100000000 * 1000000) + brdOfs)

/-- A slice sample as the lane takes it: corrected by the serving unit's results at the gain in force, then inverted. -/
def sliceValue (s : State) (l unit : Nat) (code : Int) : Int :=
  let g := laneGain s l
  let u := sliceSt s unit
  let v := correct (u.ofs.getD g 0) (u.gc.getD g 0) (laneBrdGain s l) (laneBrdOfs s l) code
  if laneInvert s l then satCode (-v) else v

/-! ### Calibration (Table: Calibration step) -/

/-- OFS_CAL within 0.5 % of full scale and GC_CAL within 1.5 % (phases 1 and 3). -/
def calOk (ofs gc : Int) : Bool := decide (100 * ofs.natAbs * 2 ≤ 131072 * 256 ∧ gc.natAbs ≤ 1500000)

/-- Mean difference at most 0.02 % and RMS difference at most 0.05 % of full scale (phases 2 and 4), in 1/256 LSB. -/
def diffOk (mean : Int) (rms : Nat) : Bool := decide (5000 * mean.natAbs ≤ 131072 * 256 ∧ 2000 * rms ≤ 131072 * 256)

/-- Nominal length of a phase in ms. -/
def phaseMs (p : Nat) : Nat := match p with | 1 => 10 | 2 => 20 | 3 => 50 | _ => 20

/-- A step begins at phase 1; the rotation moves to the next slice of the group (R160). -/
def beginStep (g idx : Nat) (s : State) : State :=
  setGroup g (fun c => { c with idx := idx, phase := 1, begun := s.clk.mono, due := none, idle := parked s (16 * g + idx) }) s

def nextSlice (g : Nat) (s : State) : State := beginStep g (((calGroup s g).idx + 1) % 16) s

def retireRecord (unit phase : Nat) (ofs gc : Int) (s : State) : State :=
  raiseIrq Irq.supv (postEvent Src.acq 1 unit (dCode phase ++ dWord (codeOf ofs 32) ++ dWord (codeOf gc 32)) s)

/-- A slice retired: its lane goes for good to the spare that is free to take it, and SLICE_RETIRED is raised; a spare retired leaves its
group without calibration (R164, R166). -/
def retireUnit (unit phase : Nat) (ofs gc : Int) (s : State) : State :=
  let s := setSlice unit (fun u => { u with retired := true }) s
  let free := unit < 48 && groupCals s (unit / 16)
  let s := if free then setGroup (unit / 16) (fun c => { c with bound := some unit }) s else s
  let s := if unit < 48 then raiseDeg DegCause.sliceRetired s else s
  retireRecord unit phase ofs gc s

/-- A calibration failure of a unit, counted with N = 2 in 10 s; the second retires it (R162, R164). -/
def calFailure (unit phase : Nat) (ofs gc : Int) (s : State) : State :=
  let s := countEvent 7 unit (setSlice unit (fun u => { u with calFails := satN 16 (u.calFails + 1) }) s)
  if isLasting s 7 unit then retireUnit unit phase ofs gc s else s

/-- The calibration step that test 1 runs on a unit, or the phase 1 that it runs on a spare, is over (R563). -/
def noteTest (unit : Nat) (pass : Bool) (s : State) : State :=
  match s.svc.test with
  | some t => if t.id == 1 && t.unit == unit && t.verdict.isNone then { s with svc := { s.svc with test := some { t with verdict := some pass } } } else s
  | none => s

/-- Test 1 runs on a spare: phase 1 only (R563). -/
def spareTested (s : State) (spare : Nat) : Bool :=
  match s.svc.test with | some t => t.id == 1 && t.unit == spare && t.verdict.isNone | none => false

/-- End of the phase in progress of a group, judged on what was measured (R160-R164): results per gain for phases 1 and 3,
mean and RMS difference for phases 2 and 4. A parked slice's phases 2 and 4 check nothing. -/
def endPhase (g : Nat) (m : CalMeas) (s : State) : State :=
  let c := calGroup s g
  let slice := 16 * g + c.idx
  let spare := spareOf g
  let idle := c.idle
  let gain := match laneOfSlice s slice with | some l => laneGain s l | none => 0
  let ofs (k : Nat) := m.ofs.getD k 0
  let gc (k : Nat) := m.gc.getD k 0
  let go (p : Nat) (s : State) : State := setGroup g (fun c => { c with phase := p, begun := s.clk.mono, due := none }) s
  match c.phase with
  | 1 =>
    if calOk (ofs gain) (gc gain) then
      let t := setSlice spare (fun u => { u with ofs := u.ofs.set gain (ofs gain), gc := u.gc.set gain (gc gain) }) s
      if spareTested s spare then beginStep g c.idx (noteTest spare true t) else go 2 t
    else nextSlice g (noteTest spare false (noteTest slice false (calFailure spare 1 (ofs gain) (gc gain) s)))
  | 2 =>
    if idle || diffOk m.mean m.rms then go 3 s
    else nextSlice g (noteTest slice false <| calFailure spare 2 ((sliceSt s spare).ofs.getD gain 0) ((sliceSt s spare).gc.getD gain 0) s)
  | 3 =>
    let s := setGroup g (fun c => { c with ofsNew := [ofs 0, ofs 1, ofs 2], gcNew := [gc 0, gc 1, gc 2] }) s
    if [0, 1, 2].all (fun k => calOk (ofs k) (gc k)) then go 4 s
    else go 3 (noteTest slice false (calFailure slice 3 (ofs gain) (gc gain) s))
  | _ =>
    if idle || diffOk m.mean m.rms then
      let passed (u : SliceSt) : SliceSt := { u with calAt := s.clk.mono, calSteps := (u.calSteps + 1) % 65536 }
      nextSlice g (noteTest slice true <| setSlice spare passed (setSlice slice (fun u => { passed u with ofs := c.ofsNew, gc := c.gcNew }) s))
    else go 3 (noteTest slice false (calFailure slice 4 (c.ofsNew.getD gain 0) (c.gcNew.getD gain 0) s))

/-- Background calibration runs in the group: it calibrates, and the mode is CONFIGURE or a later one (R160, R165). -/
def calRuns (s : State) (g : Nat) : Bool := decide (g < 3) && groupCals s g && !(s.mode.mode == .boot || s.mode.mode == .backup)

/-- CAL_PHASE_END (R160): what the phase in progress of a group has measured; the phase ends at the first Milestone boundary at or after
its nominal end. -/
def execCalPhaseEnd (g : BitVec 2) (m : CalMeas) (s : State) : Out :=
  .next (if calRuns s g.toNat then setGroup g.toNat (fun c => { c with due := some m }) s else s)

/-- The phases that end at the boundary that opens the Milestone in progress: their checks are decided here (R160, R161, R164). -/
def calBoundary (s : State) : State :=
  (List.range 3).foldl (fun s g =>
    let c := calGroup s g
    match c.due with
    | some m => if calRuns s g && decide (c.begun + msU (phaseMs c.phase) ≤ s.clk.openedAt) then endPhase g m s else s
    | none => s) s

/-- The initial calibration of a unit (R166): at each attempt the criteria of phase 3; what the attempt that passes has measured is in
use, a second failure retires the unit. -/
def bootUnit (l : List SliceCal) (s : State) (u : Nat) : State :=
  let x := (l.find? (fun x => x.unit == u)).getD { unit := u }
  let ok (m : CalMeas) : Bool := [0, 1, 2].all (fun k => calOk (m.ofs.getD k 0) (m.gc.getD k 0))
  let use (m : CalMeas) (s : State) : State := setSlice u (fun y => { y with ofs := m.ofs, gc := m.gc }) s
  if ok x.first then use x.first s
  else
    let s := calFailure u 3 (x.first.ofs.getD 0 0) (x.first.gc.getD 0 0) s
    if ok x.second then use x.second s else calFailure u 3 (x.second.ofs.getD 0 0) (x.second.gc.getD 0 0) (use x.second s)

/-- Boot step 0x08 (R166): the spares first, then the slices in order, so that a spare goes to the lowest slice of its group that
fails both attempts. -/
def bootCalibrate (l : List SliceCal) (s : State) : State :=
  let s := { s with acq := { s.acq with
    slices := List.replicate 51 { calAt := s.clk.mono }, groups := List.replicate 3 { begun := s.clk.mono } } }
  settle (([48, 49, 50] ++ List.range 48).foldl (bootUnit l) s)

/-! ### Settling (Table: Acquisition settling) -/

/-- Milestones of STL and of INV that a change of a lane's entry calls for: the longest count of what it changes (R167, R168);
`wasParked` is whether the slice it names now was parked before. -/
def settling (old new : Bytes) (wasParked : Bool) : Nat × Nat :=
  let en (b : Bytes) := bitAt b 0 0 && fld b 4 0 2 == 1
  let source := !en old || fld old 4 8 6 != fld new 4 8 6
  let gain := if fld old 0x10 0 2 != fld new 0x10 0 2 then 2 else 0
  let board := if fld old 0x10 2 1 != fld new 0x10 2 1 || u32At old 0x18 != u32At new 0x18 then 1 else 0
  if !en new then (0, 0)
  else if source && wasParked then (18, 16)
  else (max gain (max board (if source then 1 else 0)), 0)

/-- The settling of a changed lane entry, the longer of counts that overlap (R167, R168), and what the change does to a
calibration step (R163). -/
def laneChanged (l : Nat) (old new : Bytes) (wasParked : Bool) (s : State) : State :=
  let (a, b) := settling old new wasParked
  let s := setAcq (fun q => { q with laneStl := modAt q.laneStl l (max a), laneInv := modAt q.laneInv l (max b) }) s
  let named (x : Bytes) : Option Nat := if bitAt x 0 0 && fld x 4 0 2 == 1 then some (fld x 4 8 6) else none
  match named old with
  | none => s
  | some x =>
    let g := x / 16
    let c := calGroup s g
    if !groupCals s g || c.idx != x % 16 then s
    else if named new != some x then nextSlice g s
    else if fld old 0x10 0 2 != fld new 0x10 0 2 then beginStep g c.idx s
    else s

/-- One Milestone of settling passes. -/
def settlePass (s : State) : State :=
  setAcq (fun q => { q with laneStl := q.laneStl.map (· - 1), laneInv := q.laneInv.map (· - 1) }) s

/-! ### Status (R169) -/

def sliceState (s : State) (x : Nat) : Nat :=
  if x < 48 then
    if (sliceSt s x).retired then 4
    else match laneOfSlice s x with
      | none => 0
      | some l => if s.acq.laneInv.getD l 0 != 0 then 1 else if server s x == some x then 2 else 3
  else if (sliceSt s x).retired then 7 else if (calGroup s (x - 48)).bound.isSome then 6 else 5

/-- The lane a unit serves. -/
def servedLane (s : State) (x : Nat) : Option Nat :=
  if x < 48 then (if server s x == some x then laneOfSlice s x else none)
  else
    let c := calGroup s (x - 48)
    let y := match c.bound with | some y => y | none => 16 * (x - 48) + c.idx
    if server s y == some x then laneOfSlice s y else none

def sliceBlock (s : State) (x : Nat) : Bytes :=
  let u := sliceSt s x
  let lane := servedLane s x
  let of := if x < 48 then x else match (calGroup s (x - 48)).bound with | some y => y | none => 16 * (x - 48) + (calGroup s (x - 48)).idx
  let gain := match laneOfSlice s of with | some l => laneGain s l | none => 0
  let g := if x < 48 then x / 16 else x - 48
  let inStep := groupCals s g && (decide (48 ≤ x) || (calGroup s g).idx == x % 16)
  let fails := ((findInst s.supv 7 x).events.filter (fun t => decide (s.clk.mono < t + secU 10))).length
  leBytes 4 (sliceState s x + place gain 3 2 + place (flag inStep) 5 1 + place (lane.getD 0x1FF) 8 9 + place (min 3 fails) 17 2) ++
  leBytes 4 (codeOf (u.ofs.getD gain 0) 32) ++ leBytes 4 (codeOf (u.gc.getD gain 0) 32) ++
  leBytes 4 (satN 32 ((s.clk.mono - u.calAt) / msU 100)) ++ leBytes 4 u.ovrCnt ++ leBytes 4 u.clipCnt ++
  leBytes 4 (u.calFails + place u.calSteps 16 16) ++ zeros 4

end Sys2Proof.Machine
end

