-- ==== Sys2Proof/Machine/AuxConv.lean ====
section
/-! DEFINITION. The auxiliary converter: AUX.SEQ, the sequencer, urgent requests, the result block (R170-R178). -/

namespace Sys2Proof.Machine

def setAux (f : AuxSt → AuxSt) (s : State) : State := { s with aux := f s.aux }

/-! ### Result block (R174) -/

/-- A quotient with four fractional bits; its rounding is left open (log entry 3). -/
def meanOf (r : AuxResult) : Nat := if r.n == 0 then 0 else (roundOpen 19 (16 * r.sum : Nat) r.n).toNat

/-- The 16 bytes of a result (Table: Auxiliary results). -/
def auxBytes (r : AuxResult) : Bytes :=
  leBytes 4 (place (meanOf r) 0 16 + place r.min 16 12 + place r.input 28 4) ++
  leBytes 4 (place r.max 0 12 + place r.last 12 12 + place r.pass 24 8) ++ leBytes 4 r.time ++
  leBytes 4 (place r.n 0 9 + place (r.input / 16) 9 1 + place r.aborts 16 16)

/-- An urgent slot: one code, the latched count in PASS and the overrun count in ABORTS. -/
def urgentResult (input : Nat) (u : UrgentSt) : AuxResult :=
  { input := input, sum := u.code, min := u.code, max := u.code, last := u.code, pass := u.latchedCount, time := u.time,
    n := u.n, aborts := satN 16 u.overruns }

/-- The slot's present result; slots 64 and 65 are the urgent ones. -/
def slotResult (a : AuxSt) (k : Nat) : AuxResult :=
  if k == 64 then urgentResult a.cfg.urgInput (a.urgent.getD 0 {})
  else if k == 65 then urgentResult 16 (a.urgent.getD 1 {})
  else a.results.getD k {}

/-- The slot written now. -/
def writeSlot (k : Nat) (s : State) : State :=
  let s := setAux (fun a =>
    { a with wroteMs := modAt a.wroteMs k (fun _ => some s.clk.ms), dirty := modAt a.dirty k (fun _ => false) }) s
  if s.aux.cfg.block == 0 then s
  else
    let b := s.aux.cfg.block
    memWriteIf (if b % 2 == 1 then .mbx else .host) (b / 16 * 16 + 16 * k) (auxBytes (slotResult s.aux k)) s

/-- A slot's write that class P6 drops: it is counted, and the slot is written later, with a newer result (R174, R541). -/
def dropSlot (k : Nat) (s : State) : State :=
  let s := setAux (fun a => { a with dirty := modAt a.dirty k (fun _ => false) }) s
  if s.aux.cfg.block == 0 then s else bumpClass 6 ClassCount.drop s

/-- A slot written at most once per Milestone: now, or when the next Milestone opens (R174); `p6` says that class P6 drops the write. -/
def offerSlot (p6 : Bool) (k : Nat) (s : State) : State :=
  if (s.aux.wroteMs.getD k none) == some s.clk.ms then setAux (fun a => { a with dirty := modAt a.dirty k (fun _ => true) }) s
  else if p6 then dropSlot k s
  else writeSlot k s

/-- Slots that waited for the next Milestone. -/
def flushSlots (p6 : Bool) (s : State) : State :=
  (List.range 66).foldl (fun s k => if s.aux.dirty.getD k false then (if p6 then dropSlot k s else writeSlot k s) else s) s

/-! ### AUX.SEQ (R171, R172) -/

def auxEntryOf (b : Bytes) (i : Nat) : AuxEntry :=
  { input := fld b (8 * i) 0 5, repeat_ := fld b (8 * i) 8 8, delay := fld b (8 * i) 16 16 }

def auxCfgOf (c : Cmd) (b : Bytes) : AuxCfg :=
  { entries := (List.range (c.at_ 0x14 0 7)).map (auxEntryOf b), lowPwr := c.at_ 0x14 7 1 == 1, urgInput := c.at_ 0x14 8 4,
    urgEn := c.at_ 0x14 12 1 == 1, block := c.at_ 0x18 0 64 }

def auxJudge (c : Cmd) (_ : State) : Judge :=
  { used := [(0x14, 0, 13), (0x18, 0, 64)]
    range := [(decide (64 < c.at_ 0x14 0 7), 0x14), (c.at_ 0x18 1 3 != 0, 0x18)] }

def auxRange (n : Nat) (b : Bytes) : List (Bool × Nat) :=
  (List.range n).flatMap (fun i =>
    [(decide (19 < fld b (8 * i) 0 5) || fld b (8 * i) 5 3 != 0, 8 * i), (u32At b (8 * i + 4) != 0, 8 * i + 4)])

/-- The block AUX.SEQ reads: none where COUNT is 0; BUFLEN is 8 * COUNT (R171). -/
def auxBlock (c : Cmd) (s : State) : Except Reply Bytes :=
  let n := c.at_ 0x14 0 7
  if n == 0 then (if c.bufLen == 0 then .ok [] else .error (Reply.refuse Rsn.buffer)) else readBlock c (8 * n) s

/-- AUX_SEQ (R171). -/
def execAuxSeq (c : Cmd) (s : State) : Out :=
  .next (command c (auxJudge c) (fun s =>
    match auxBlock c s with
    | .error r => .done r s
    | .ok b =>
      match blockRange (auxRange (c.at_ 0x14 0 7) b) with
      | some o => .done (Reply.range o) s
      | none => .atBoundary 0 0 (.auxSeq (auxCfgOf c b)) s) s)

/-- Time of one conversion, in units of the model's clock (R173, R178). -/
def convTime (a : AuxSt) : Nat := usU (if a.cfg.lowPwr then 80 else 4)

/-- A sequencer conversion starts. -/
def convFrom (now : Nat) (a : AuxSt) : AuxSt := { a with convAt := now, convEnd := now + convTime a }

/-- Entry `i` starts: its result is gathered anew and its first conversion runs; entry 0 opens a pass (R173). -/
def startEntry (i : Nat) (now : Nat) (a : AuxSt) : AuxSt :=
  match a.cfg.entries[i]? with
  | none => { a with converting := false, delayEnd := none }
  | some e =>
    let pass := if i == 0 then (a.pass + 1) % 256 else a.pass
    convFrom now { a with
      entry := i, pass := pass, converting := true, aborted := a.urgRunning.isSome, delayEnd := none
      cur := { input := e.input, pass := pass, min := 4095 } }

/-- An accepted AUX.SEQ takes effect (R172): a conversion in progress runs to its end and its result is discarded; an urgent one in
progress goes on, and the new table's first conversion starts after it. -/
def applyAuxSeq (c : AuxCfg) (s : State) : State :=
  setAux (fun a =>
    let running := a.converting && !a.aborted
    let e := startEntry 0 s.clk.mono { a with
      cfg := c, discard := running && !c.entries.isEmpty, results := List.replicate 64 {}
      wroteMs := List.replicate 66 none, dirty := (List.range 66).map (fun k => decide (k < 64) && c.block != 0) }
    if running then { e with convAt := a.convAt, convEnd := a.convEnd } else e) s

/-! ### The sequencer (R173) -/

/-- A completed result is available to the device and to its slot (R174); an input's MEAN is that of the lowest-numbered entry that
converts it (R402). -/
def entryDone (p6 : Bool) (s : State) : State :=
  let r := s.aux.cur
  let k := s.aux.entry
  let s := setAux (fun a =>
    { a with
      results := modAt a.results k (fun _ => r)
      means := if (a.cfg.entries.take k).any (fun e => e.input == r.input) then a.means else modAt a.means r.input (fun _ => some (meanOf r, s.clk.mono)) }) s
  offerSlot p6 k s

/-- The short time of an instant that the monotonic count has passed (R147). -/
def shortAt (s : State) (t : Nat) : Nat := (s.clk.taiU - (s.clk.mono - t)) / uPerNs % 2 ^ 32

def nextEntry (a : AuxSt) : Nat := if a.entry + 1 < a.cfg.entries.length then a.entry + 1 else 0

/-- The sequencer conversion in progress ends, 4 us or 80 us after its start, with a code `v`; the entry's last one completes its result
and starts the delay. `p6` says that class P6 drops the write of the result (R173, R174, R178). -/
def auxConverted (v : Nat) (p6 : Bool) (s : State) : State :=
  let a := s.aux
  if !a.converting || a.aborted || a.urgRunning.isSome then s
  else if a.discard then
    let s := setClk (·.advance a.convEnd) s
    setAux (fun a => convFrom s.clk.mono { a with discard := false }) s
  else
    let s := setClk (·.advance a.convEnd) s
    let c := a.cur
    let c := { c with
      sum := c.sum + v, min := min c.min v, max := max c.max v, last := v, n := c.n + 1
      time := shortAt s a.convAt }
    let s := setAux (fun a => convFrom s.clk.mono { a with cur := c, latest := a.latest.set c.input v }) s
    match a.cfg.entries[a.entry]? with
    | none => s
    | some e =>
      if c.n ≤ e.repeat_ then s
      else
        let s := entryDone p6 s
        if e.delay == 0 then setAux (fun a => startEntry (nextEntry a) s.clk.mono a) s
        else setAux (fun a => { a with converting := false, delayEnd := some (s.clk.mono + usU e.delay) }) s

/-- AUX_DELAY_END (R173): the next entry starts, or waits for the urgent conversion that runs. -/
def execAuxDelayEnd (s : State) : Out :=
  .next (match s.aux.delayEnd with
    | none => s
    | some t =>
      let s := setClk (·.advance t) s
      if s.aux.urgRunning.isSome then s else setAux (fun a => startEntry (nextEntry a) s.clk.mono a) s)

/-! ### Urgent requests (R175-R177) -/

/-- The source waits for a conversion: a request not yet served, or one latched behind the first (R177). -/
def UrgentSt.waits (u : UrgentSt) : Bool := u.pending || u.latched

/-- The urgent conversion to run next: the brown-out sense first (R176). -/
def nextUrgent (a : AuxSt) : Option Nat :=
  if (a.urgent.getD 1 {}).waits then some 1 else if (a.urgent.getD 0 {}).waits then some 0 else none

/-- A request is served: the first one, else the latched one. -/
def UrgentSt.serve (u : UrgentSt) : UrgentSt := if u.pending then { u with pending := false } else { u with latched := false }

/-- The next urgent conversion starts at `now` where none runs, aborting a sequencer conversion (R176). A conversion whose result was to
be discarded is not counted in a result's ABORTS. -/
def startUrgent (now : Nat) (a : AuxSt) : AuxSt :=
  match a.urgRunning, nextUrgent a with
  | none, some k =>
    let abort := a.converting && !a.aborted && !a.discard
    { a with
      urgRunning := some k, aborted := a.aborted || a.converting, discard := false, urgAt := now, urgEnd := now + convTime a
      urgent := modAt a.urgent k UrgentSt.serve
      cur := if abort then { a.cur with aborts := a.cur.aborts + 1 } else a.cur }
  | _, _ => a

/-- The instant at which a request that reaches the I/O core now is served: within 100 ns (R176), a free value (log entry 4). -/
def urgentStart (s : State) : Nat := s.clk.mono + openNat 64 7 [(s.clk.mono : Int)] % 101 * uPerNs

/-- An overrun of source `k` of urgent requests, an event of monitored source 8 (R177). -/
def urgentOverrun (k : Nat) (s : State) : State :=
  settle (countEvent 8 k (setAux (fun a => { a with urgent := modAt a.urgent k (fun u => { u with overruns := u.overruns + 1 }) }) s))

/-- A request of source `k` (0 the URG pin, 1 the brown-out sense): started, latched once, or counted as an overrun (R176,
R177). -/
def urgentRequest (k : Nat) (s : State) : State :=
  let u := s.aux.urgent.getD k {}
  if u.waits || s.aux.urgRunning == some k then
    if u.latched then
      urgentOverrun k s
    else
      setAux (fun a => { a with urgent := modAt a.urgent k (fun u => { u with latched := true, latchedCount := (u.latchedCount + 1) % 256 }) }) s
  else setAux (fun a => startUrgent (urgentStart s) { a with urgent := modAt a.urgent k (fun u => { u with pending := true }) }) s

/-- URG_EDGE (R175, R176). -/
def execUrgEdge (s : State) : Out := .next (if s.aux.cfg.urgEn then urgentRequest 0 s else s)

/-- URGENT_CONVERSION_DONE (R177, R178): the urgent conversion in progress ends and its code is available; a latched request follows,
then the aborted conversion starts again, or the entry whose delay has ended. -/
def execUrgentConversionDone (x : AuxCode) (s : State) : Out :=
  .next (match s.aux.urgRunning with
    | none => s
    | some k =>
      let s := setClk (·.advance s.aux.urgEnd) s
      let input := if k == 1 then 16 else s.aux.cfg.urgInput
      let now := s.clk.mono
      let s := setAux (fun a =>
        { a with
          urgRunning := none, latest := a.latest.set input x.code.toNat
          urgent := modAt a.urgent k (fun u =>
            { u with code := x.code.toNat, n := 1, time := shortAt s a.urgAt }) }) s
      let s := offerSlot x.p6 (64 + k) s
      setAux (fun a =>
        let a := startUrgent now a
        if a.urgRunning.isSome then a
        else if a.converting then convFrom now { a with aborted := false }
        else match a.delayEnd with
          | some t => if t ≤ now then startEntry (nextEntry a) now a else a
          | none => a) s)

end Sys2Proof.Machine
end

