-- ==== Sys2Proof/Machine/Dma.lean ====
section
/-! DEFINITION. The DMA engine (R472-R490). Beats are issued as soon as they may be; an access ends with its own event: a
descriptor fetch, a beat, a count-word read, a write-back, or a timeout. -/

namespace Sys2Proof.Machine

def setDma (f : DmaSt → DmaSt) (s : State) : State := { s with dma := f s.dma }
def dmaCh (s : State) (k : Nat) : DmaCh := s.dma.ch.getD k {}
def setCh (k : Nat) (f : DmaCh → DmaCh) (s : State) : State := setDma (fun d => { d with ch := modAt d.ch k f }) s

/-! ### Spaces (R473) -/

def dmaSpace (sp : Nat) : Space := if sp == 0 then .ddr else if sp == 1 then .host else .mbx

/-- Bytes of a space. -/
def dmaSize (sp : Nat) : Nat := if sp == 0 then ddrSize else if sp == 1 then 2 ^ 48 else mbxSize

def dmaTimeout (sp : Nat) : Nat := if sp == 1 then usU 100 else usU 5

/-- An access of n bytes gets an answer that is no bus error. -/
def dmaReach (s : State) (sp a n : Nat) : Bool := decide (sp < 3) && decide (a + n ≤ dmaSize sp) && reachable s (dmaSpace sp) a n

/-! ### Descriptors (R474, R476, R483) -/

def dSrc (d : Bytes) : Nat := u64At d 0 % 2 ^ 48
def dSrcSp (d : Bytes) : Nat := bitsOf (u64At d 0) 48 2
def dDst (d : Bytes) : Nat := u64At d 8 % 2 ^ 48
def dDstSp (d : Bytes) : Nat := bitsOf (u64At d 8) 48 2
def dLen (d : Bytes) : Nat := fld d 0x10 0 24
def dSwap (d : Bytes) : Nat := fld d 0x10 24 2
def dIrqHalf (d : Bytes) : Bool := bitAt d 0x10 26
def dIrqFull (d : Bytes) : Bool := bitAt d 0x10 27
def dRing (d : Bytes) : Bool := bitAt d 0x10 29
def dLast (d : Bytes) : Bool := bitAt d 0x10 30
def dNextSp (d : Bytes) : Nat := bitsOf (u64At d 0x18) 0 2
def dNext (d : Bytes) : Nat := bitsOf (u64At d 0x18) 5 43 * 32

def dOverlap (d : Bytes) : Bool :=
  dSrcSp d == dDstSp d && decide (dDst d < dSrc d + dLen d) && decide (dSrc d < dDst d + dLen d)

/-- The descriptor halts its channel with cause DESC. -/
def descBad (d : Bytes) : Bool :=
  let unit := match dSwap d with | 0 => 1 | 1 => 2 | _ => 4
  bitsOf (u64At d 0) 50 14 != 0 || bitsOf (u64At d 8) 50 14 != 0 || bitsOf (u64At d 0x18) 2 3 != 0 || bitsOf (u64At d 0x18) 48 16 != 0 ||
  dLen d == 0 || dSrcSp d == 3 || dDstSp d == 3 || (!dLast d && dNextSp d == 3) ||
  decide (dmaSize (dSrcSp d) < dSrc d + dLen d) || decide (dmaSize (dDstSp d) < dDst d + dLen d) ||
  dLen d % unit != 0 || dSrc d % unit != 0 || dDst d % unit != 0 || (dOverlap d && dDst d != dSrc d && dSwap d != 0)

/-- Length of the beat at a position of the transfer (R480). -/
def beatLen (d : Bytes) (down : Bool) (pos : Nat) : Nat :=
  let left := dLen d - pos
  if down then min left (min ((dSrc d + left - 1) % 64 + 1) ((dDst d + left - 1) % 64 + 1))
  else min left (min (64 - (dSrc d + pos) % 64) (64 - (dDst d + pos) % 64))

/-- Offset of a beat from SRC and DST. -/
def beatOff (d : Bytes) (down : Bool) (b : DmaBeat) : Nat := if down then dLen d - b.pos - b.n else b.pos

/-- Byte swap (R484). -/
def swapBytes (m : Nat) : Bytes → Bytes
  | a :: b :: c :: d :: l =>
    (match m with | 0 => [a, b, c, d] | 1 => [b, a, d, c] | 2 => [d, c, b, a] | _ => [c, d, a, b]) ++ swapBytes m l
  | [a, b] => if m == 1 then [b, a] else [a, b]
  | l => l

/-! ### Interrupts and halts (R486, R488) -/

/-- PEND bit i of a channel (0 HALF, 1 FULL, 2 HALT). -/
def dmaPend (k i : Nat) (s : State) : State :=
  let c := dmaCh s k
  let t := setCh k (fun c => { c with pend := c.pend ||| 2 ^ i, pendOvf := c.pendOvf || bitsOf c.pend i 1 == 1 }) s
  if c.pend == 0 then sendMsix (16 + k / 2) (raiseIrq Irq.dma t) else t

def dmaActive (s : State) (k : Nat) : Bool := let c := dmaCh s k; c.st == .running || c.st == .paced

/-- DMA.HALT commands all of whose channels have halted complete. -/
def dmaHaltsDone (s : State) : State :=
  (s.dma.halts.filter (fun h => !h.2.any (dmaActive s))).foldl (fun s h => finishOpen h.1 {} s)
    (setDma (fun d => { d with halts := d.halts.filter (fun h => h.2.any (dmaActive s)) }) s)

/-- The channel has drained: it is halted. -/
def dmaHalted (k cause : Nat) (s : State) : State :=
  let s := setCh k (fun c => { c with
    st := .halted, cause := cause, haltNs := s.clk.shortTime, halting := none, reads := [], staged := [], writes := [], ops := [] }) s
  let c := dmaCh s k
  let s := dmaPend k 2 s
  let rec_ := cause == 3 || cause == 4 || cause == 5 || cause == 6
  let s := if rec_ then postEvent Src.dma 1 k
      (dCode cause ++ leBytes 8 (c.desc + place c.descSp 48 2) ++ leBytes 8 (c.failAddr + place c.failSp 48 2) ++ dCount c.done) s else s
  dmaHaltsDone s

/-- Beats read without a gap from a position on. -/
def contiguous : Nat → Nat → List DmaBeat → List DmaBeat
  | 0, _, _ => []
  | n + 1, p, l => match l.find? (·.pos == p) with | some b => b :: contiguous n (p + b.n) l | none => []

/-- A halt begins: no further reads; an error keeps only what was read in transfer order before the failing point, HOST and
RESTART let the outstanding reads complete (R478, R488). -/
def dmaStop (k cause : Nat) (failPos : Option Nat) (s : State) : State :=
  setCh k (fun c =>
    let cause := c.halting.getD cause
    match failPos with
    | none => { c with halting := some cause, ops := c.ops.filter (fun o => match o.a with | .read _ => true | .write _ => true | _ => false) }
    | some p =>
      { c with
        halting := some cause, reads := [], staged := (contiguous c.staged.length c.wissued c.staged).filter (fun b => decide (b.pos < p))
        ops := c.ops.filter (fun o => match o.a with | .write q => decide (q < p) | _ => false)
        writes := c.writes.filter (fun b => decide (b.pos < p)) }) s

/-! ### Issue (R480, R481, R483, R485) -/

/-- Pacing before a read beat of n bytes (R485). -/
def pacedNow (c : DmaCh) (n : Nat) : Bool :=
  let was := c.st == .paced
  let m := 2 ^ 32
  if c.pace == 1 then
    let fill := (c.total + m - c.lastCount) % m
    let p := was && !decide (fill ≤ c.lo)
    p || decide (c.hi < fill + n)
  else if c.pace == 2 then
    let avail := (c.lastCount + m - c.total % m) % m
    let p := was && !decide (c.hi ≤ avail)
    p || decide (avail ≤ c.lo) || decide (avail < n)
  else false

/-- The destination of a beat touches source bytes whose reads are not complete (R483). -/
def readNeeds (d : Bytes) (c : DmaCh) (b : DmaBeat) : Bool :=
  let w := dDst d + beatOff d c.down b
  let meets (a n : Nat) : Bool := decide (w < a + n) && decide (a < w + b.n)
  let left := dLen d - c.issued
  dSrcSp d == dDstSp d && (meets (if c.down then dSrc d else dSrc d + c.issued) left || c.reads.any (fun r => meets (dSrc d + beatOff d c.down r) r.n))

/-- The next write beat a channel may issue. -/
def nextWrite (c : DmaCh) : Option DmaBeat :=
  match c.d with
  | none => none
  | some d =>
    if 8 ≤ c.writes.length then none
    else match c.staged.find? (·.pos == c.wissued) with
      | some b => if readNeeds d (if c.halting.isSome then { c with issued := dLen d } else c) b then none else some b
      | none => none

/-- A count word is wanted before the next read beat: 512 bytes issued since the last, or one is outstanding (R485). -/
def wantsCount (c : DmaCh) : Bool := c.pace != 0 && (decide (512 ≤ c.sinceCount) || c.ops.any (·.a == .count))

/-- Room in the buffer and in the tags for a read beat, the chain not halting (R480). -/
def mayRead_ (c : DmaCh) (d : Bytes) : Bool :=
  c.halting.isNone && decide (c.issued < dLen d) && decide (c.reads.length < 8) && !wantsCount c &&
  decide ((c.reads ++ c.staged).foldl (fun n b => n + b.n) 0 + beatLen d c.down c.issued ≤ 512)

/-- One beat of a channel issued, a write ahead of a read; none where it is not ready. -/
def issueBeat (k : Nat) (s : State) : Option State :=
  let c := dmaCh s k
  if !dmaActive s k then none
  else match nextWrite c with
    | some b =>
      some (setCh k (fun c => { c with
        staged := c.staged.filter (·.pos != b.pos), writes := c.writes ++ [b], wissued := c.wissued + b.n
        ops := c.ops ++ [{ a := .write b.pos, at_ := s.clk.mono }] }) s)
    | none =>
      match c.d with
      | none => none
      | some d =>
        if !mayRead_ c d then
          if wantsCount c && c.halting.isNone && !c.ops.any (·.a == .count) && decide (c.issued < dLen d) then
            some (setCh k (fun c => { c with sinceCount := 0, ops := c.ops ++ [{ a := .count, at_ := s.clk.mono }] }) s)
          else none
        else
          let n := beatLen d c.down c.issued
          if pacedNow c n then
            if c.st == .paced then none else some (setCh k (fun c => { c with st := .paced, pollAt := s.clk.mono + usU 1 }) s)
          else
            some (setCh k (fun c => { c with
              st := .running, reads := c.reads ++ [{ pos := c.issued, n := n }], issued := c.issued + n, total := (c.total + n) % 2 ^ 32
              sinceCount := if c.pace == 0 then 0 else c.sinceCount + n, ops := c.ops ++ [{ a := .read c.issued, at_ := s.clk.mono }] }) s)

/-- One issue slot: the highest level with a ready channel, round-robin within it (R481); none when no channel is ready. -/
def issueSlot (s : State) : Option State :=
  [3, 2, 1, 0].findSome? (fun p =>
    let from_ := s.dma.last.getD p 0
    (List.range 32).findSome? (fun i =>
      let k := (from_ + 1 + i) % 32
      if (dmaCh s k).prio == p then (issueBeat k s).map (setDma (fun d => { d with last := modAt d.last p (fun _ => k) })) else none))

/-- Beats outstanding in the engine (R480). -/
def outstanding (s : State) : Nat := s.dma.ch.foldl (fun n c => n + c.reads.length + c.writes.length) 0

def issueAll : Nat → State → State
  | 0, s => s
  | n + 1, s => if 512 ≤ outstanding s then s else match issueSlot s with | some s => issueAll n s | none => s

/-- Halting channels that have drained halt; then the beats that may be are issued. -/
def dmaRun (s : State) : State :=
  let s := issueAll 1200 s
  (List.range 32).foldl (fun s k =>
    let c := dmaCh s k
    match c.halting with
    | some cause => if c.reads.isEmpty && c.writes.isEmpty && (nextWrite c).isNone then dmaHalted k cause s else s
    | none => s) s

/-! ### Accesses (R487) -/

/-- Space, address and length of an access. -/
def accessAt (c : DmaCh) (a : DmaAccess) : Nat × Nat × Nat :=
  let d := c.d.getD []
  match a with
  | .fetch => (c.descSp, c.desc, 32)
  | .count => (c.paceSp, c.paceAddr, 4)
  | .read p => match c.reads.find? (·.pos == p) with | some b => (dSrcSp d, dSrc d + beatOff d c.down b, b.n) | none => (0, 0, 0)
  | .write p => match c.writes.find? (·.pos == p) with | some b => (dDstSp d, dDst d + beatOff d c.down b, b.n) | none => (0, 0, 0)
  | .back => (c.descSp, c.desc + 0x10, 8)

/-- The access that waits for its answer. -/
def waiting (c : DmaCh) (a : DmaAccess) : Option DmaOp := c.ops.find? (fun o => o.a == a && o.retryAt.isNone)

def dropOp (k : Nat) (a : DmaAccess) (s : State) : State := setCh k (fun c => { c with ops := c.ops.filter (fun o => o.a != a) }) s

/-- An access fails: it is issued again 1 µs later, or the channel halts with the cause of its last failure. -/
def accessFail (k : Nat) (a : DmaAccess) (bus : Bool) (s : State) : State :=
  let c := dmaCh s k
  let (sp, ad, _) := accessAt c a
  let s := settle (countEvent 16 k (setCh k (fun c => { c with failAddr := ad, failSp := sp }) s))
  match waiting c a with
  | none => s
  | some o =>
    if c.retry < o.fails + 1 then
      let pos := match a with | .read p => p | .write p => p | _ => c.issued
      dmaRun (dmaStop k (if bus then 3 else 4) (some pos) (dropOp k a s))
    else
      setCh k (fun c => { c with ops := c.ops.map (fun o =>
        if o.a == a then { o with fails := o.fails + 1, retryAt := some (s.clk.mono + usU 1) } else o) }) s

/-- The answer to an access: done by `f`, or failed by a bus error. -/
def dmaAnswer (k : Nat) (a : DmaAccess) (err : Bool) (f : State → State) (s : State) : State :=
  let c := dmaCh s k
  match waiting c a with
  | none => s
  | some _ =>
    let (sp, ad, n) := accessAt c a
    if err || !dmaReach s sp ad n then accessFail k a true s else dmaRun (f (dropOp k a s))

/-! ### Chains (R475, R479) -/

/-- The fetch of the descriptor at an address begins; a paced channel also reads its count word. -/
def startFetch (k sp a : Nat) (s : State) : State :=
  setCh k (fun c => { c with
    descSp := sp, desc := a, d := none, down := false, issued := 0, wissued := 0, reads := [], staged := [], writes := [], acked := [], done := 0
    halfSent := false, sinceCount := if c.pace == 0 then 0 else 512, ops := [{ a := .fetch, at_ := s.clk.mono }] }) s

/-- DMA_DESCRIPTOR_FETCHED (R475, R476, R483). -/
def execDmaDescriptorFetched (ch : BitVec 5) (err : Bool) (s : State) : Out :=
  .next (
    let k := ch.toNat
    dmaAnswer k .fetch err (fun s =>
      let c := dmaCh s k
      let d := memRead s (dmaSpace c.descSp) c.desc 32
      if descBad d then dmaHalted k 6 s
      else setCh k (fun c => { c with d := some d, down := dOverlap d && decide (dSrc d < dDst d) }) s) s)

/-- A read beat has completed: its data goes to the buffer, swapped. -/
def readDone (k pos : Nat) (s : State) : State :=
  let c := dmaCh s k
  let (sp, a, n) := accessAt c (.read pos)
  let b : DmaBeat := { pos := pos, n := n, data := swapBytes (dSwap (c.d.getD [])) (memRead s (dmaSpace sp) a n) }
  setCh k (fun c => { c with reads := c.reads.filter (·.pos != pos), staged := c.staged ++ [b] }) s

/-- Bytes of a descriptor written without a gap. -/
def doneBytes (c : DmaCh) : Nat := (contiguous c.acked.length c.done c.acked).foldl (fun n b => n + b.n) c.done

/-- A write beat has been acknowledged: its data is in memory; HALF, and the write-back once every byte is. -/
def writeDone (k pos : Nat) (s : State) : State :=
  let c := dmaCh s k
  let d := c.d.getD []
  let (sp, a, n) := accessAt c (.write pos)
  match c.writes.find? (·.pos == pos) with
  | none => s
  | some b =>
    let s := memWrite (dmaSpace sp) a b.data s
    let s := setCh k (fun c =>
      let c := { c with writes := c.writes.filter (·.pos != pos), acked := c.acked ++ [{ b with data := [] }], count := (c.count + n) % 2 ^ 32, stamp := s.clk.shortTime }
      let x := doneBytes c
      { c with done := x, acked := c.acked.filter (fun b => decide (x ≤ b.pos)) }) s
    let c := dmaCh s k
    let half := dIrqHalf d && !c.halfSent && decide (dLen d / 2 ≤ c.done)
    let s := if half then dmaPend k 0 (setCh k (fun c => { c with halfSent := true }) s) else s
    if c.done == dLen d && c.halting.isNone then setCh k (fun c => { c with ops := c.ops ++ [{ a := .back, at_ := s.clk.mono }] }) s else s

/-- DMA_BEAT_DONE (R480): the answer to a read beat or a write beat. -/
def execDmaBeatDone (ch : BitVec 5) (write : Bool) (pos : Nat) (err : Bool) (s : State) : Out :=
  .next (
    let k := ch.toNat
    if write then dmaAnswer k (.write pos) err (writeDone k pos) s else dmaAnswer k (.read pos) err (readDone k pos) s)

/-- After the write-back: END, LOOP, or the next descriptor (R479). -/
def nextDesc (k : Nat) (s : State) : State :=
  let c := dmaCh s k
  let d := c.d.getD []
  let n := if dRing d then 0 else c.descs + 1
  let s := setCh k (fun c => { c with descs := n }) s
  if dLast d then dmaHalted k 1 s
  else if c.chainMax ≤ n then dmaHalted k 5 s
  else startFetch k (dNextSp d) (dNext d) s

/-- DMA_WRITEBACK (R475, R479, R486). -/
def execDmaWriteback (ch : BitVec 5) (err : Bool) (s : State) : Out :=
  .next (
    let k := ch.toNat
    dmaAnswer k .back err (fun s =>
      let c := dmaCh s k
      let d := c.d.getD []
      let s := memWrite (dmaSpace c.descSp) (c.desc + 0x10) (leBytes 4 (u32At d 0x10 ||| 2 ^ 31) ++ leBytes 4 c.stamp) s
      nextDesc k (if dIrqFull d then dmaPend k 1 s else s)) s)

/-- DMA_ACCESS_TIMEOUT (R487): no answer within the time of the access's space. -/
def execDmaAccessTimeout (ch : BitVec 5) (a : DmaAccess) (s : State) : Out :=
  .next (
    let k := ch.toNat
    match waiting (dmaCh s k) a with
    | some o => accessFail k a false (setClk (·.advance (o.at_ + dmaTimeout (accessAt (dmaCh s k) a).1)) s)
    | none => s)

/-- DMA_ACCESS_RETRY (R487): a failed access is issued again. -/
def execDmaAccessRetry (ch : BitVec 5) (a : DmaAccess) (s : State) : Out :=
  .next (
    let k := ch.toNat
    match (dmaCh s k).ops.find? (·.a == a) with
    | some o =>
      match o.retryAt with
      | some t =>
        let s := setClk (·.advance t) s
        setCh k (fun c => { c with ops := c.ops.map (fun o => if o.a == a then { o with at_ := s.clk.mono, retryAt := none } else o) }) s
      | none => s
    | none => s)

/-- DMA_PACE_POLL (R485): the count word is read; a paced channel reads it every 1 µs. -/
def execDmaPacePoll (ch : BitVec 5) (err : Bool) (s : State) : Out :=
  .next (
    let k := ch.toNat
    let c := dmaCh s k
    let idle := !c.ops.any (·.a == .count)
    let s := if c.st == .paced && c.halting.isNone && idle then
        let s := setClk (·.advance c.pollAt) s
        setCh k (fun c => { c with ops := c.ops ++ [{ a := .count, at_ := s.clk.mono }] }) s
      else s
    dmaAnswer k .count err (fun s =>
      let c := dmaCh s k
      let x := leAt (memRead s (dmaSpace c.paceSp) c.paceAddr 4) 0 4
      setCh k (fun c => { c with lastCount := x, sinceCount := 0, pollAt := s.clk.mono + usU 1 }) s) s)

/-! ### Commands (R477, R478, R490) -/

/-- The argument of 64 bits at an entry offset. -/
def dmaArg (c : Cmd) (o : Nat) : Nat := c.at_ o 0 64

def dmaStartJudge (c : Cmd) (_ : State) : Judge :=
  let pace := c.at_ 0x1C 5 2
  let hi := c.at_ 0x28 0 32
  let lo := c.at_ 0x2C 0 32
  let k := c.unit
  { used := [(0x14, 0, 2), (0x14, 5, 43), (0x1C, 0, 7), (0x1C, 16, 16)] ++ (if pace == 0 then [] else [(0x20, 0, 48), (0x28, 0, 64)])
    range := [(decide (31 < k), 0x04), (c.at_ 0x14 0 2 == 3, 0x14), (pace == 3, 0x1C),
      (c.at_ 0x20 0 2 == 3, 0x20), (pace != 0 && (decide (hi < 64) || decide (2 ^ 31 < hi)), 0x28), (pace != 0 && decide (hi ≤ lo), 0x2C)] }

/-- DMA_START (R477). -/
def execDmaStart (c : Cmd) (s : State) : Out :=
  .next (command c (dmaStartJudge c) (fun s =>
    let k := c.unit
    if dmaActive s k then .done (Reply.refuse Rsn.state) s
    else
      let chainMax := c.at_ 0x1C 16 16
      let s := setCh k (fun _ =>
        { st := .running, prio := c.at_ 0x1C 0 2, retry := c.at_ 0x1C 2 3, pace := c.at_ 0x1C 5 2, paceSp := c.at_ 0x20 0 2
          paceAddr := c.at_ 0x20 2 46 * 4, hi := c.at_ 0x28 0 32, lo := c.at_ 0x2C 0 32, chainMax := if chainMax == 0 then 4096 else chainMax }) s
      .done {} (startFetch k (c.at_ 0x14 0 2) (c.at_ 0x14 5 43 * 32) s)) s)

/-- DMA_HALT (R478). -/
def execDmaHalt (c : Cmd) (s : State) : Out :=
  .next (dmaRun (command c (fun _ => { range := [(c.unit != 0x00FF && decide (31 < c.unit), 0x04)] }) (fun s =>
    let l := (if c.unit == 0x00FF then List.range 32 else [c.unit]).filter (dmaActive s)
    if l.isEmpty then .done {} s
    else .goesOn (setDma (fun d => { d with halts := d.halts ++ [(refOf c, l)] }) (l.foldl (fun s k => dmaStop k 2 none s) (queuedEntry c s)))) s))

/-- Table: DMA channel status. -/
def dmaStatus (c : DmaCh) : Bytes :=
  leBytes 4 (c.st.code + place c.cause 2 4 + place c.prio 6 2 + place c.pend 8 3 + place (flag c.pendOvf) 11 1 + place (flag c.down) 12 1) ++
  leBytes 4 c.haltNs ++ leBytes 8 (c.descSp + c.desc % 2 ^ 48 / 32 * 32) ++ leBytes 4 (c.done % 2 ^ 24) ++ leBytes 4 c.count ++
  leBytes 8 (c.failAddr % 2 ^ 48 + place c.failSp 48 2)

/-- DMA_STAT (R490). -/
def execDmaStat (c : Cmd) (s : State) : Out :=
  .next (command c (fun _ => { range := [(c.unit != 0x00FF && decide (31 < c.unit), 0x04)] }) (fun s =>
    let l := if c.unit == 0x00FF then List.range 32 else [c.unit]
    if c.room < 32 * l.length then .done (Reply.refuse Rsn.buffer) s
    else .done { out := some (l.flatMap (fun k => dmaStatus (dmaCh s k))) } (if !returns c (32 * l.length) s then s else l.foldl (fun s k => setCh k (fun c => { c with pend := 0, pendOvf := false }) s) s)) s)

/-- A warm restart halts every running or paced channel with cause RESTART (R489). -/
def dmaRestart (s : State) : State :=
  dmaRun ((List.range 32).foldl (fun s k => if dmaActive s k then dmaStop k 7 none s else s) (setDma (fun d => { d with halts := [] }) s))

end Sys2Proof.Machine
end

