-- ==== Sys2Proof/Machine/Factory.lean ====
section
/-! DEFINITION. The factory coefficient sets of the filter chain (R229, R236, R237). The spec gives no coefficient of them, only what they
do: they are free values with exactly the properties stated (log entry 4). -/

namespace Sys2Proof.Machine

/-! ### Responses -/

def binom3 (n : Int) : Int := if n < 3 then 0 else n * (n - 1) * (n - 2) / 6

/-- Tap `i` of the order-4 CIC of 16 as an FIR of 61 taps (R228). -/
def cicTap (i : Nat) : Int :=
  let n : Int := i
  binom3 (n + 3) - 4 * binom3 (n - 13) + 6 * binom3 (n - 29) - 4 * binom3 (n - 45) + binom3 (n - 61)

def cicTaps : List Int := (List.range 61).map cicTap

/-- The response of a set at `num` of `per` turns a tap: real and imaginary parts in 2^-40 of its coefficients. -/
def responseAt (c : List Int) (num per : Nat) : Int × Int :=
  c.foldl (fun (a : (Int × Int) × Nat) k =>
    let (x, y) := cosSin (2 ^ 48 * (num * a.2) / per : Nat)
    ((a.1.1 + k * x, a.1.2 - k * y), a.2 + 1)) ((0, 0), 0) |>.1

/-- The response at the fundamental of which `per` taps make a cycle. -/
def response (c : List Int) (per : Nat) : Int × Int := responseAt c 1 per

def power (z : Int × Int) : Nat := (z.1 * z.1 + z.2 * z.2).toNat

/-! ### What the spec states of the factory sets -/

/-- Stages 0, 1 and 3 together at q quarters of the fundamental have a power gain of `lo` to `hi` parts in 10^9. -/
def gainWithin (s1 s3 : List Int) (lo hi q : Nat) : Bool :=
  let p := power (responseAt cicTaps q (4 * 12288)) * power (responseAt s1 q (4 * 768)) * power (responseAt s3 q (4 * 384))
  let one := (65536 * 2 ^ 84) ^ 2 * 2 ^ 160
  decide (lo * one ≤ p * 10 ^ 9 ∧ p * 10 ^ 9 ≤ hi * one)

/-- Every quarter harmonic from a to b. -/
def allWithin (s1 s3 : List Int) (lo hi a b : Nat) : Bool := (List.range (4 * (b - a) + 1)).all (fun i => gainWithin s1 s3 lo hi (4 * a + i))

/-- A stage-1 set of unity gain at DC and at the fundamental within 0.0005 dB (R229). -/
def stage1Sound (c : List Int) : Bool :=
  let near (x : Nat) : Bool := decide (99988487 * 2 ^ 124 ≤ x * 10 ^ 8 ∧ x * 10 ^ 8 ≤ 100011514 * 2 ^ 124)
  c.length == 19 && c == c.reverse && near (power (responseAt c 0 1)) && near (power (response c 768))

/-- What both stage-3 sets do beyond the 48th harmonic: at least 80 dB where it folds onto DC to the 15th, 20 dB from the 49th to the
80th (R236). -/
def stopSound (s1 c : List Int) : Bool := allWithin s1 c 0 10 81 111 && allWithin s1 c 0 10 177 192 && allWithin s1 c 0 10000000 49 80

/-- The linear-phase set: 1 within 0.01 dB to the 15th harmonic, -3 dB at the 38th (R236). -/
def linearSound (s1 c : List Int) : Bool :=
  c.length == 63 && c == c.reverse && allWithin s1 c 997700064 1002305238 0 15 && gainWithin s1 c 495450191 506990708 152 && stopSound s1 c

/-- Phase delays of the minimum-phase set (Table: Phase delay of the factory minimum-phase set): harmonic, 1/100 record slot. -/
def phaseDelays : List (Nat × Nat) := [(1, 800), (2, 804), (3, 809), (5, 825), (7, 848), (9, 878), (11, 915), (13, 960), (15, 1010)]

/-- The minimum-phase set: 1 within 0.05 dB to the 15th harmonic, -3 dB at the 36th, and its phase delays (R236, R237). -/
def minimumSound (s1 c : List Int) : Bool :=
  c.length == 63 && allWithin s1 c 988553095 1011579454 0 15 && gainWithin s1 c 495450191 506990708 144 && stopSound s1 c &&
  phaseDelays.all (fun d =>
    let (x, y) := responseAt c d.1 384
    decide ((-(angleOf y x) * 38400 - (d.2 * d.1 * 2 ^ 48 : Nat)).natAbs ≤ d.1 * 2 ^ 47))

/-- Stage-1 set, linear-phase and minimum-phase set. -/
structure FactorySets where
  stage1 : List Int
  linear : List Int
  minimum : List Int
  deriving DecidableEq, Repr

/-- Coefficients of 24 bits with what R229, R236 and R237 state. -/
def FactorySets.sound (f : FactorySets) : Bool :=
  (f.stage1 ++ f.linear ++ f.minimum).all (fun c => decide (-(2 ^ 23) ≤ c ∧ c < 2 ^ 23)) &&
  stage1Sound f.stage1 && linearSound f.stage1 f.linear && minimumSound f.stage1 f.minimum

/-- Sets that have the properties stated: they show that these can be met together. -/
def witnessStage1 : List Int :=
  [1120, 0, -12960, 0, 72576, 0, -282240, 0, 1270080, 2097152, 1270080, 0, -282240, 0, 72576, 0, -12960, 0, 1120]

def witnessHalf : List Int :=
  [605, 1725, 2306, 2569, -354, -6147, -10022, -12258, -6579, 6809, 18626, 26565, 21877, 3501, -19294, -36830] ++
  [-38090, -18602, 17123, 50412, 62674, 40240, -18302, -90789, -141433, -131108, -34806, 149334, 388991, 627889, 805290, 870602]

def witnessMinimum : List Int :=
  [76211, 93622, 215306, 380927, 199298, 408945, 161906, -199617, 200101, -371003, 22082, 554041, 270305, 1221409, 1129249, 1005154] ++
  [1036496, 378073, -3063, -591519, -672802, -1053397, -907921, -555548, -578361, 5650, 173661, 490327, 618347, 792033, 769025, 419353] ++
  [354256, -270323, -555915, -805476, -868479, -654930, -360957, 247611, 417160, 771467, 725555, 422774, 193238, -228447, -329508, -530646] ++
  [-315546, -151383, -103546, 272395, 137536, 145044, 175106, -67888, -16762, -41373, -74471, 6428, -2536, 2891, 11873]

def witnessSets : FactorySets := { stage1 := witnessStage1, linear := witnessHalf ++ (witnessHalf.take 31).reverse, minimum := witnessMinimum }

/-- Any sets whatever, at the free places 21 and 22. -/
def anySets : FactorySets :=
  { stage1 := (List.range 19).map (fun i : Nat => Config.freeInt 21 [(i : Int)])
    linear := (List.range 63).map (fun i : Nat => Config.freeInt 22 [0, (i : Int)])
    minimum := (List.range 63).map (fun i : Nat => Config.freeInt 22 [1, (i : Int)]) }

/-- The factory sets: whatever sets have the properties that the spec states of them (log entry 4). -/
def factorySets : FactorySets := if anySets.sound then anySets else witnessSets

/-! ### The resampler's polynomials (R200, R204) -/

/-- Tap `i` of phase `p` at the residual r / 2 of the phase, in 2^-34: the polynomial of degree 4 that the coefficients give. -/
def farrowTap (f : Nat → Nat → Nat → Int) (p r i : Nat) : Int :=
  (List.range 5).foldl (fun a m => a + f p m i * (r ^ m * 2 ^ (4 - m) : Nat)) 0

/-- At 1 / per turns a sample the interpolation to the fraction (2 p + r) / 64 has an amplitude within 0.02 % and a delay within
1/2500 of the input period, 100 ns of the longest (R203, R204). -/
def farrowNear (f : Nat → Nat → Nat → Int) (p r per : Nat) : Bool :=
  let z := (List.range 4).foldl (fun (a : Int × Int) i =>
    let (x, y) := cosSin (2 ^ 48 * ((64 * i : Nat) - (64 + 2 * p + r : Nat) : Int) / (64 * per : Nat))
    let h := farrowTap f p r i
    (a.1 + h * x, a.2 + h * y)) ((0, 0) : Int × Int)
  let one : Nat := 2 ^ 148
  decide (99960004 * one ≤ power z * 10 ^ 8 ∧ power z * 10 ^ 8 ≤ 100040004 * one ∧ ((angleOf z.2 z.1) * (2500 * per : Nat)).natAbs ≤ 2 ^ 48)

/-- What R203 and R204 state of the fundamental at every profile, and of the harmonics to the 15th at the rates of PROFILE 1 and 3; with
the 4 taps of R200 no coefficients hold those of PROFILE 0 and 2 within 0.1 %. -/
def farrowSound (f : Nat → Nat → Nat → Int) : Bool :=
  (List.range 32).all (fun p => (List.range 3).all (fun r => [16, 17, 24, 57, 96, 384].all (farrowNear f p r)))

/-- The cubic of Lagrange with a term of degree 4 that flattens it: numerators over 384 of the powers of the fraction, tap by tap. -/
def witnessPoly (i j : Nat) : Int :=
  (([[0, -130, 193, -62, -1], [384, -190, -385, 190, 1], [0, 386, 191, -194, 1], [0, -66, 1, 66, -1]] : List (List Int)).getD i []).getD j 0

def choose (n k : Nat) : Nat := ((([[1], [1, 1], [1, 2, 1], [1, 3, 3, 1], [1, 4, 6, 4, 1]] : List (List Nat)).getD n []).getD k 0)

def witnessFarrow (p m i : Nat) : Int :=
  divRoundAway (8 * (List.range 5).foldl (fun a j => a + witnessPoly i j * (choose j m * p ^ (j - m) * 32 ^ (4 - j) : Nat)) 0) 3

/-- Any coefficients whatever, at the free place 28. -/
def anyFarrow (p m i : Nat) : Int := Config.freeInt 28 [(p : Int), (m : Int), (i : Int)]

/-- Coefficient of power `m` of tap `i` of a coarse phase, in 2^-30: whatever has the properties stated (log entry 4). -/
def farrowCoef (p m i : Nat) : Int := if farrowSound anyFarrow then anyFarrow p m i else witnessFarrow p m i

end Sys2Proof.Machine
end

