-- ==== Sys2Proof/Machine/Chain.lean ====
section
/-! DEFINITION. The filter and decimation chain of a lane and its estimators, Milestone by Milestone (R223-R257). Formulas in
real numbers are computed in integers with cosines and sines in steps of 2^-40, and a final rounding the spec leaves open
(log entries 3 and 14). -/

namespace Sys2Proof.Machine

def setFilt (f : FiltSt → FiltSt) (s : State) : State := { s with filt := f s.filt }
def laneSt (s : State) (l : Nat) : LaneSt := s.filt.lanes.getD l {}
def chainSt (s : State) (c : Nat) : ChainSt := s.filt.chains.getD c {}
def setChain (c : Nat) (f : ChainSt → ChainSt) (s : State) : State := setFilt (fun x => { x with chains := modAt x.chains c f }) s

/-! ### Fields (R226) -/

def laneSh (b : Bytes) (n : Nat) : Nat := fld b 0x20 (match n with | 0 => 0 | 1 => 4 | 2 => 8 | 3 => 12 | _ => 16) 4
/-- A local lane passes stage 1 (R223). -/
def laneUsesStage1 (b : Bytes) : Bool := fld b 4 0 2 == 1
def rankMode (b : Bytes) : Nat := fld b 0x24 0 2
/-- N of the rank filter and the rank k, 1 the smallest (R230). -/
def rankNK (b : Bytes) : Nat × Nat :=
  match rankMode b with
  | 0 => (1, 1) | 1 => (3, 2) | 2 => (5, 3) | _ => (fld b 0x24 2 3, fld b 0x24 5 3)
def stg1Set (b : Bytes) : Nat := fld b 0x28 0 1
def stg3Set (b : Bytes) : Nat := fld b 0x28 1 2
def fineMode (b : Bytes) : Nat := fld b 0x28 3 1
def monDiv (b : Bytes) : Nat := fld b 0x28 4 4
def brdDly (b : Bytes) : Nat := u32At b 0x2C
def laneStream (b : Bytes) : Nat := fld b 8 0 9
def laneCh (b : Bytes) : Nat := fld b 8 9 3

def streamBytes (s : State) (k : Nat) : Bytes := (s.tbl.stream.getD k {}).bytes
def latBudget (s : State) (k : Nat) : Nat := u16At (streamBytes s k) 0x20

/-! ### Coefficient sets (R229, R236) -/

/-- Stage-1 coefficients, 2^-22. -/
def stage1Coefs (ch : ChainSt) (set : Nat) : List Int := if set == 0 then factorySets.stage1 else (ch.user.getD 0 {}).c

/-- Stage-3 coefficients, 2^-22. -/
def stage3Coefs (ch : ChainSt) (set : Nat) : List Int :=
  if set == 0 then factorySets.linear else if set == 1 then factorySets.minimum else (ch.user.getD (set - 1) {}).c

/-- Delay of a stage-3 set at the fundamental, 1/256 record slot (Table: Coefficient sets). -/
def stage3Delay (ch : ChainSt) (set : Nat) : Nat :=
  if set == 0 then 31 * 256 else if set == 1 then 8 * 256 else (ch.user.getD (set - 1) {}).delay

/-- A user set that is empty (R236). -/
def setEmpty (ch : ChainSt) (stage set : Nat) : Bool :=
  if stage == 1 then set == 1 && (ch.user.getD 0 {}).c.isEmpty else decide (2 ≤ set) && (ch.user.getD (set - 1) {}).c.isEmpty

/-! ### Delays (R202, R232) -/

/-- Length of a Milestone at f_grid. -/
def gridLen (s : State) : Nat := milestoneLen s.grid.fGrid

/-- Front delay of a configured lane in ns: D_LOC = 175/128 Milestones or LAT_BUDGET, plus BRD_DLY; the rounding to ns is left
open (log entry 3). -/
def frontDelay (s : State) (l : Nat) : Nat :=
  let b := laneBytes s l
  if laneSrc s l == 2 then latBudget s (laneStream b) * 1000
  else (roundOpen 20 (175 * gridLen s : Nat) (128 * uPerNs)).toNat + brdDly b

/-- D_ALIGN of a bay: the largest front delay of its configured lanes. -/
def dAlign (s : State) (b : Nat) : Nat :=
  (List.range 8).foldl (fun m k => if laneSrc s (8 * b + k) == 0 then m else max m (frontDelay s (8 * b + k))) 0

/-! ### Words -/

/-- A stage result: `num / den` shifted right by `sh`, rounded to nearest with ties away from zero, and limited to 24 bits;
the flag says that the limit acted (R225). -/
def stageOut (num : Int) (den sh : Nat) : Int × Bool :=
  let v := divRoundAway num (den * 2 ^ sh)
  let w := satZ 24 v
  (w, w != v)

def orQ (l : List QW) : Nat := l.foldl (fun a x => a ||| x.q) 0
def orTQ (l : List TW) : Nat := l.foldl (fun a x => a ||| x.q) 0

def mkQ (r : Int × Bool) (q : Nat) (mark : Bool) : QW :=
  { v := r.1, q := q ||| (if r.2 then Qb.ovr else 0) ||| (if mark then Qb.stl else 0) }

def dot (c : List Int) (x : List Int) : Int := (List.zipWith (· * ·) c x).foldl (· + ·) 0

/-- One saturation of stage `n` noted (R225). -/
def noteSat (n : Nat) (lim : Bool) (st : LaneSt) : LaneSt :=
  if lim then { st with sat := modAt st.sat n (fun _ => true), satCnt := satN 16 (st.satCnt + 1) } else st

/-- What enters a lane's chain in one Milestone: 128 slice samples, four resampler words, or nothing. -/
inductive LaneInput where
  | samples (l : List QW)
  | words (l : List QW)
  | none
  deriving DecidableEq, Repr

/-- The `n` newest words of a history: a word never produced is 0 with INV (R15). -/
def lastWords (n : Nat) (l : List QW) : List QW := if n ≤ l.length then l.take n else l ++ List.replicate (n - l.length) ({} : QW)
def lastTaps (n : Nat) (l : List TW) : List TW := if n ≤ l.length then l.take n else l ++ List.replicate (n - l.length) ({} : TW)

/-! ### Stages 0, 1 and 2 -/

/-- Stage-0 word `w` of the Milestone over all samples, newest first, and whether its limit acted (R228). T12 shifts the decimator's
phase by 2 samples per lane (R254); STL runs by the Milestone's own samples for every lane of the cluster (R252). -/
def stage0 (x : LaneCtx) (mark : Bool) (all : List QW) (w : Nat) : QW × Bool :=
  let window (skew : Nat) : List QW := lastWords 61 (all.drop (128 - 16 * (w + 1) + skew))
  let win := window (if x.ch.t12 then 2 * (x.lane % 64) else 0)
  let r := stageOut (dot cicTaps (win.map (·.v)) * 64) 65536 (laneSh x.b 0)
  let q := (orQ win &&& (255 - Qb.stl)) ||| (orQ (window 0) &&& Qb.stl)
  (if x.inv then { v := 0, q := Qb.stl ||| Qb.inv } else mkQ r q (x.stl || mark), r.2)

/-- One stage-0 word enters the cluster. -/
def pushStage0 (st : LaneSt) (y : QW × Bool) : LaneSt := noteSat 0 y.2 { st with s0 := (y.1 :: st.s0).take 19 }

/-- Stage 1 over the last 19 stage-0 words (R229). -/
def stage1 (x : LaneCtx) (st : LaneSt) : LaneSt :=
  let win := lastWords 19 st.s0
  let r := stageOut (dot (stage1Coefs x.ch (stg1Set x.b)) (win.map (·.v))) (2 ^ 22) (laneSh x.b 1)
  let y := if setEmpty x.ch 1 (stg1Set x.b) then { v := 0, q := Qb.inv } else mkQ r (orQ win) (st.mark.getD 1 false)
  noteSat 1 r.2 { st with s1 := (y :: st.s1).take 16 }

def insertInt (a : Int) : List Int → List Int
  | [] => [a]
  | x :: xs => if a ≤ x then a :: x :: xs else x :: insertInt a xs

/-- Stage 2: the k-th of the N words around the one 3 slots ago (R230); OVR only from words that hold the value selected
(R231). -/
def stage2 (x : LaneCtx) (st : LaneSt) : LaneSt :=
  let (n, k) := rankNK x.b
  let h := (n - 1) / 2
  let win := lastWords n (st.s1.drop (3 - h))
  let v := ((win.map (·.v)).foldr insertInt []).getD (k - 1) 0
  let q := (orQ win &&& (255 - Qb.ovr)) ||| (orQ (win.filter (fun w => w.v == v)) &&& Qb.ovr)
  let r := stageOut v 1 (laneSh x.b 2)
  noteSat 2 r.2 { st with s2 := (mkQ r q (st.mark.getD 2 false) :: st.s2).take 64 }

/-! ### Stage 4 and the record tap (R233, R234) -/

/-- The grid angle of an instant `num / den` Milestones, in 2^-48 turn (R245). -/
def gridAngle (num : Int) (den : Nat) : Nat := ((num * 2 ^ 48 / ((96 * den : Nat) : Int)) % 2 ^ 48).toNat

/-- D4 in ns. -/
def d4Of (x : LaneCtx) : Nat := x.align - x.front

/-- The stage-4 value over its line, newest word first: Lagrange over words k - 1 to k + 2 with p = s - 2 - d4. -/
def stage4 (x : LaneCtx) (line : List QW) : (Int × Bool) × Nat :=
  let t4 := x.len
  let dn := 4 * d4Of x * uPerNs
  let back := dn / t4
  let rem := dn % t4
  let ahead := if rem == 0 then 0 else 1
  let m := if rem == 0 then 0 else t4 - rem
  let i := 2 + back + ahead
  let w (j : Nat) : QW := line.getD j {}
  let mu : Int := m
  let d : Int := t4
  let y := -(mu * (mu - d) * (mu - 2 * d)) * (w (i + 1)).v + 3 * ((mu + d) * (mu - d) * (mu - 2 * d)) * (w i).v
    - 3 * ((mu + d) * mu * (mu - 2 * d)) * (w (i - 1)).v + ((mu + d) * mu * (mu - d)) * (w (i - 2)).v
  (stageOut y (6 * t4 * t4 * t4) (laneSh x.b 4), (w (i + 1)).q ||| (w i).q ||| (w (i - 1)).q ||| (w (i - 2)).q)

/-- Angle of the record-tap word that leaves at record slot `out`: its output time less the path delay (R247, Table: Path delays). -/
def tapAngle (x : LaneCtx) (slot : Int) : Nat :=
  let out : Int := slot * x.len
  let pd : Int := if x.ch.t12 then (4 * x.front * uPerNs : Nat) else (4 * x.align * uPerNs + 5 * x.len : Nat)
  gridAngle (out - pd) (4 * x.len)

/-- Record-tap words and lane words kept: what the estimators, the elements and the bands of a current or of a voltage reach back to. -/
def tapDepth (l : Nat) : Nat := if l % 8 < 4 then 392 else 99
def wordDepth (l : Nat) : Nat := if l % 8 < 4 then 960 else 216

def pushTap (x : LaneCtx) (k : Nat) (v : Int) (q : Nat) (st : LaneSt) : LaneSt :=
  { st with tap := ({ v := v, q := q, th := tapAngle x (4 * (x.ms - 1) + k + 1 : Nat) } :: st.tap).take (tapDepth x.lane) }

/-- One record word through stages 2 and 4 to the record tap; T12 takes the stage-1 word itself (R254). -/
def recordWord (x : LaneCtx) (k : Nat) (st : LaneSt) : LaneSt :=
  if x.ch.t12 then let w := st.s1.getD 0 {}; pushTap x k w.v w.q st
  else
    let st := stage2 x st
    let (r, q) := stage4 x st.s2
    pushTap x k r.1 (mkQ r q (st.mark.getD 4 false)).q (noteSat 4 r.2 st)

/-! ### Stage 3 (R235) -/

/-- Angle of the lane word of Milestone `m`: output time less its path delay with the set's delay at the fundamental. -/
def wordAngle (x : LaneCtx) (m : Int) : Nat :=
  let gd := stage3Delay x.ch (stg3Set x.b)
  let out : Int := 1024 * m * x.len
  let pd : Int := if x.ch.t12 then (1024 * x.front * uPerNs + 7936 * x.len : Nat)
    else (1024 * x.align * uPerNs + 1280 * x.len + gd * x.len : Nat)
  gridAngle (out - pd) (1024 * x.len)

/-- The lane word; a lane that names an empty user set delivers 0 with INV (R236). -/
def stage3 (x : LaneCtx) (st : LaneSt) : LaneSt :=
  let win := lastTaps 63 st.tap
  let r := stageOut (dot (stage3Coefs x.ch (stg3Set x.b)) (win.map (·.v))) (2 ^ 22) (laneSh x.b 3)
  let empty := setEmpty x.ch 3 (stg3Set x.b) || (laneUsesStage1 x.b && setEmpty x.ch 1 (stg1Set x.b))
  let y : QW := if empty then { v := 0, q := Qb.inv } else mkQ r (orTQ win) (st.mark.getD 3 false)
  noteSat 3 r.2 { st with words := ({ v := y.v, q := y.q, th := wordAngle x x.ms } :: st.words).take (wordDepth x.lane) }

/-! ### Estimators (R244-R248) -/

/-- The square root of 2 in steps of 2^-40. -/
def sqrt2 : Int := 1554944255988

/-- The fine estimator with FINE_MODE 0 (R245). -/
def fineDft (w : List TW) : Phasor :=
  let l := lastTaps 96 w
  let f (g : Int × Int → Int) : Int := l.foldl (fun a x => a + x.v * g (cosSin x.th)) 0
  { re := satZ 32 (roundOpen 23 (f (·.1) * sqrt2 * 256) (96 * 2 ^ 80)),
    im := satZ 32 (roundOpen 23 (-(f (·.2)) * sqrt2 * 256) (96 * 2 ^ 80)), q := orTQ l }

/-- The cosine sum over the 96 words that begin `d` words ago, oldest first, in 2^-40. -/
def cosSum (w : List TW) (d : Nat) : Int :=
  (lastTaps 96 (w.drop d)).reverse.foldl (fun (a : Int × Nat) x => (a.1 + x.v * (cosSin (2 ^ 48 * a.2 / 96 : Nat)).1, a.2 + 1)) (0, 0) |>.1

/-- The fine estimator with FINE_MODE 1 (R246). -/
def fineCos (w : List TW) : Phasor :=
  let a := cosSum w 0
  let b := cosSum w 24
  let (c, n) := cosSin (w.getD 95 {}).th
  let re := a * c + b * n
  let im := b * c - a * n
  { re := satZ 32 (roundOpen 23 (re * sqrt2 * 256) (96 * 2 ^ 120)), im := satZ 32 (roundOpen 23 (im * sqrt2 * 256) (96 * 2 ^ 120)),
    q := orTQ (lastTaps 120 w) }

/-- The 24 four-word sums of the fast estimator with the angle at their centres, newest first (R244). -/
def fastGroups : Nat → List TW → List (Int × (Int × Int))
  | 0, _ => []
  | n + 1, l =>
    let u := (l.take 4).foldl (fun a x => a + x.v) 0
    (u, cosSin ((l.getD 0 {}).th - 2 ^ 40)) :: fastGroups n (l.drop 4)

def det3 (a b c d e f g h i : Int) : Int := a * (e * i - f * h) - b * (d * i - f * g) + c * (d * h - e * g)

/-- The fast estimator over the last 96 record-tap words: the least-squares A and B (R244). -/
def fastPhasor (w : List TW) : Phasor :=
  let w := lastTaps 96 w
  let g := fastGroups 24 w
  let sum (f : Int × (Int × Int) → Int) : Int := g.foldl (fun a x => a + f x) 0
  let cc := sum (fun x => x.2.1 * x.2.1)
  let cs := sum (fun x => x.2.1 * x.2.2)
  let ss := sum (fun x => x.2.2 * x.2.2)
  let c := sum (·.2.1)
  let n := sum (·.2.2)
  let uc := sum (fun x => x.1 * x.2.1)
  let us := sum (fun x => x.1 * x.2.2)
  let u := sum (·.1)
  let det := det3 cc cs c cs ss n c n 24
  let da := det3 uc cs c us ss n u n 24
  let db := det3 cc uc c cs us n c u 24
  let k : Int := 2 ^ 80 * 64 * 100000
  if det = 0 then { q := orTQ w }
  else
    { re := satZ 32 (roundOpen 24 (da * k) (det * sqrt2 * 99983).natAbs), im := satZ 32 (roundOpen 24 (-db * k) (det * sqrt2 * 99983).natAbs),
      q := orTQ w }

/-! ### One Milestone of one lane -/

def TW.word (w : TW) : QW := { v := w.v, q := w.q }

/-- The monitor tap: the Milestone's record-tap words, its lane word, or the mean of the last words (R224); the rounding of the mean is
left open (log entry 3). -/
def monitorTap (x : LaneCtx) (st : LaneSt) : List QW :=
  let m := monDiv x.b
  if m == 0 then ((lastTaps 4 st.tap).map TW.word).reverse
  else if m == 1 then [(st.words.getD 0 {}).word]
  else
    let n := 2 ^ (m - 1)
    let win := lastTaps n st.words
    if x.ms % n != 0 then st.monitor else [{ v := roundOpen 25 (win.foldl (fun a w => a + w.v) 0) n, q := orTQ win }]

/-- Two stage-0 words, or one resampler word, up to the record tap of record slot `k`, and the fast phasor of that slot. -/
def recordSlot (x : LaneCtx) (input : LaneWords) (st : LaneSt) (k : Nat) : LaneSt :=
  let st := match input with
    | .stage0 l => stage1 x (pushStage0 (pushStage0 st (l.getD (2 * k) ({}, false))) (l.getD (2 * k + 1) ({}, false)))
    | .resampled l => { st with s1 := (l.getD k {} :: st.s1).take 16 }
    | .none => { st with s1 := ({} :: st.s1).take 16 }
  let st := recordWord x k st
  { st with fast := (st.fast ++ [fastPhasor st.tap]).drop 1 }

/-- A lane whose chain is stopped (R240) or that has no source (R15): everything 0 with INV. -/
def stoppedLane (st : LaneSt) : LaneSt := { sat := st.sat, satCnt := st.satCnt, touched := true }

/-- The I/O die's part of a Milestone of a lane: the words that go to the cluster, and the slice samples kept for stage 0. -/
def lanesIn (x : LaneCtx) (input : LaneInput) (st : LaneSt) : LaneWords × List QW :=
  match input with
  | .samples l =>
    let all := l.reverse ++ st.samples
    (.stage0 ((List.range 8).map (stage0 x (st.mark.getD 0 false) all)), all.take 176)
  | .words l => (.resampled l, [])
  | .none => (.none, [])

/-- The cluster's part: stages 1 to 4 and the estimators on the words delivered. -/
def clusterPart (x : LaneCtx) (input : LaneWords) (st : LaneSt) : LaneSt :=
  let st := [0, 1, 2, 3].foldl (recordSlot x input) st
  let st := stage3 x st
  let st := { st with
    fineDft := fineDft st.words, fineCos := fineCos st.words, mark := List.replicate 5 false, d4 := d4Of x, front := x.front, touched := false }
  { st with monitor := monitorTap x st }

/-- The fine phasor that FINE_MODE selects (R245, R246). -/
def laneFine (s : State) (l : Nat) : Phasor := if fineMode (laneBytes s l) == 0 then (laneSt s l).fineDft else (laneSt s l).fineCos

/-! ### Synchronising reset and settling (R250-R253) -/

/-- Milestones with fill STL (R252). -/
def fillMilestones (b : Bytes) (local_ t12 : Bool) (d4 len : Nat) : Nat :=
  let qin := if local_ then 10 else 0
  let h := ((rankNK b).1 - 1) / 2
  let dn := 4 * d4 * uPerNs
  let q4 := if t12 then qin else qin + 3 + h + 3 + (dn + len - 1) / len
  let word := (q4 + 63 + 3) / 4
  max (word + (if fineMode b == 1 then 119 else 95)) ((q4 + 96 + 3) / 4)

/-- Every history of a lane zeroed at the boundary that opens Milestone `x.ms`; each zero word carries STL and the grid angle of its
own instant (R251). -/
def resetLane (x : LaneCtx) (fill : Nat) (st : LaneSt) : LaneSt :=
  let z : QW := { v := 0, q := Qb.stl }
  { sat := st.sat, satCnt := st.satCnt, d4 := st.d4, front := st.front, fillEnd := x.ms + fill, touched := true
    samples := List.replicate 176 z, s0 := List.replicate 19 z, s1 := List.replicate 16 z, s2 := List.replicate 64 z
    tap := (List.range (tapDepth x.lane)).map (fun i : Nat => { v := 0, q := Qb.stl, th := tapAngle x (4 * (x.ms : Int) - i) })
    words := (List.range (wordDepth x.lane)).map (fun i : Nat => { v := 0, q := Qb.stl, th := wordAngle x ((x.ms : Int) - i) })
    fineDft := { q := Qb.stl }, fineCos := { q := Qb.stl }, fast := List.replicate 4 { q := Qb.stl }, monitor := [z] }

/-- The chain of a lane in the Milestone in progress. -/
def laneCtx (s : State) (len l : Nat) : LaneCtx :=
  { b := laneBytes s l, ch := chainSt s (l / 64), lane := l, ms := s.clk.ms, len := len
    stl := s.acq.laneStl.getD l 0 != 0, inv := s.acq.laneInv.getD l 0 != 0, front := frontDelay s l, align := dAlign s (l / 8) }

/-- A synchronising reset of the lanes that satisfy `p` and whose chain runs (R240, R250). -/
def syncReset (p : Nat → Bool) (s : State) : State :=
  setFilt (fun x =>
    { x with lanes := x.lanes.mapIdx (fun l st =>
        if p l && laneEn s l && laneSrc s l != 0 && (chainSt s (l / 64)).running then
          let d4 := dAlign s (l / 8) - frontDelay s l
          resetLane (laneCtx s (gridLen s) l) (fillMilestones (laneBytes s l) (laneSrc s l == 1) (chainSt s (l / 64)).t12 d4 (gridLen s)) st
        else st) }) s

/-- The first stage that a change of a lane's entry affects marks STL on the words of the Milestone opened now (R253). -/
def chainMarks (old new : Bytes) : List Bool :=
  let ne (o lo w : Nat) : Bool := fld old o lo w != fld new o lo w
  [ne 0x20 0 4, ne 0x20 4 4 || ne 0x28 0 1,
   ne 0x20 8 4 || ne 0x24 0 8 || (fld old 4 0 2 != fld new 4 0 2 && fld old 4 0 2 != 0 && fld new 4 0 2 != 0) || ne 8 0 12,
   ne 0x20 12 4 || ne 0x28 1 2, ne 0x20 16 4 || u32At old 0x2C != u32At new 0x2C]

def markLane (l : Nat) (m : List Bool) (s : State) : State :=
  setFilt (fun x => { x with lanes := modAt x.lanes l (fun st => { st with mark := List.zipWith (· || ·) st.mark m, touched := true }) }) s

/-- Lanes whose D4 a change of entries has moved mark STL at stage 4, as every configured lane of a bay whose D_ALIGN has changed does
(R253). -/
def markDelays (was s : State) : State :=
  (List.range s.variant.lanes).foldl (fun s l =>
    let b := l / 8
    if laneSrc was l == 0 || laneSrc s l == 0 || (dAlign was b == dAlign s b && frontDelay was l == frontDelay s l) then s
    else markLane l [false, false, false, false, true] s) s

/-! ### FILT.STOP, FILT.START, FILT.COEF (R240-R243) -/

def filtModes (s : State) : Bool := !(s.mode.mode == .configure || s.mode.mode == .commission)

/-- The chain state after the next boundary, as pending commands leave it: running. -/
def chainLatest (s : State) (c : Nat) : Bool :=
  s.acts.foldl (fun r a => match a.act with
    | .filtStop k => if k == c then false else r
    | .filtStart k _ => if k == c then true else r
    | _ => r) (chainSt s c).running

def filtJudge (c : Cmd) (used : List (Nat × Nat × Nat)) (s : State) : Judge :=
  { absent := decide (s.variant.clusters ≤ c.unit), modeBad := filtModes s, used := used }

/-- FILT_STOP (R240). -/
def execFiltStop (c : Cmd) (s : State) : Out :=
  .next (command c (filtJudge c []) (fun s =>
    if !chainLatest s c.unit then .done {} s else .atBoundary 0 0 (.filtStop c.unit) s) s)

/-- A lane in use by a bay of the cluster: enabled with a source. -/
def laneUsed (s : State) (l : Nat) : Bool := laneSrc s l != 0

/-- The first lane of a bay whose stage-3 delay differs from that of another by more than 1/256 record slot (R238). -/
def unequalDelay (s : State) (b : Nat) : Option Nat :=
  let ch := chainSt s (clusterOf b)
  let lanes := ((List.range 8).map (8 * b + ·)).filter (fun l => laneEn s l && !setEmpty ch 3 (stg3Set (laneBytes s l)))
  let d (l : Nat) : Int := stage3Delay ch (stg3Set (laneBytes s l))
  lanes.find? (fun l => lanes.any (fun k => decide (1 < (d l - d k).natAbs)))

/-- A user stage-3 set that is not symmetric. -/
def notSymmetric (ch : ChainSt) (set : Nat) : Bool :=
  set == 1 || (decide (2 ≤ set) && (let c := (ch.user.getD (set - 1) {}).c; c != c.reverse))

/-- The cause for which T12 is refused to a lane (R241, R256). -/
def t12Cause (s : State) (l : Nat) : Option Nat :=
  let b := laneBytes s l
  if !laneEn s l then none
  else if laneSrc s l == 2 then some 2
  else if rankMode b != 0 then some 3
  else if notSymmetric (chainSt s (l / 64)) (stg3Set b) then some 4
  else if brdDly b != 0 then some 5
  else none

/-- Bays that an enabled Bus Section Table entry names: its member mask. -/
def sectionBytes (s : State) (k : Nat) : Bytes := (s.tbl.section_.getD k {}).bytes
def sectionEn (s : State) (k : Nat) : Bool := decide (k < s.variant.sections) && bitAt (sectionBytes s k) 0 0

/-- The first obstacle to FILT.START: lane or bay code, and cause. -/
def startObstacle (s : State) (member : State → Nat → Bool) (c : Nat) (t12 : Bool) : Option (Nat × Nat) :=
  let bays := (List.range 8).map (8 * c + ·)
  match bays.findSome? (unequalDelay s) with
  | some l => some (l, 1)
  | none =>
    if !t12 then none
    else match ((List.range 64).map (64 * c + ·)).findSome? (fun l => (t12Cause s l).map (fun k => (l, k))) with
      | some x => some x
      | none => (bays.find? (member s)).map (fun b => (0x8000 + b, 6))

/-- A synchronising reset of one cluster's lanes, its chain running in a mode. -/
def startChain (c : Nat) (t12 : Bool) (s : State) : State :=
  syncReset (fun l => l / 64 == c) (setChain c (fun ch => { ch with running := true, t12 := t12 }) s)

def applyFiltStop (c : Nat) (s : State) : State :=
  setFilt (fun x => { x with lanes := x.lanes.mapIdx (fun l st => if l / 64 == c then stoppedLane st else st) })
    (setChain c (fun ch => { ch with running := false }) s)

/-- Coefficients of a FILT.COEF block, sign-extended from 24 bits. -/
def coefsOf (b : Bytes) (n : Nat) : List Int := (List.range n).map (fun i => signedOf (fld b (4 * i) 0 24) 24)

/-- Gain at the fundamental with 30 fractional bits, and phase delay in 1/256 slot; the rounding is left open. -/
def gainDelay (c : List Int) (per : Nat) : Nat × Int :=
  let (x, y) := response c per
  let g := isqrt ((x * x + y * y).toNat) / 2 ^ 32
  (g, roundOpen 26 (-(angleOf y x) * (256 * per : Nat)) (2 ^ 48))

/-- Clusters a FILT.COEF addresses. -/
def coefClusters (s : State) (unit : Nat) : List Nat := if unit == 0x00FF then List.range s.variant.clusters else [unit]

def coefJudge (c : Cmd) (s : State) : Judge :=
  let stage := c.at_ 0x14 0 4
  let set := c.at_ 0x14 4 4
  { absent := c.unit != 0x00FF && decide (s.variant.clusters ≤ c.unit), used := [(0x14, 0, 8)]
    range := [(!((stage == 1 && set == 1) || (stage == 3 && (set == 2 || set == 3))), 0x14)]
    locked := (coefClusters s c.unit).any (fun k => (chainSt s k).running) }

/-- FILT_COEF (R242). -/
def execFiltCoef (c : Cmd) (s : State) : Out :=
  .next (command c (coefJudge c) (fun s =>
    let stage := c.at_ 0x14 0 4
    let n := if stage == 1 then 19 else 63
    match readBlock c (4 * n) s with
    | .error r => .done r s
    | .ok b =>
      let k := coefsOf b n
      let bad := findIdxBelow n (fun i => fld b (4 * i) 24 8 != 0 || (stage == 1 && k.getD i 0 != k.getD (18 - i) 0))
      let (g, d) := gainDelay k (if stage == 1 then 768 else 384)
      match bad with
      | some i => .done (Reply.range (0x40 + 4 * i)) s
      | none =>
        if stage == 3 && (g < 2 ^ 29 || d < 0 || 62 * 256 < d) then .done (Reply.range 0x40) s
        else
          let delay := if stage == 1 then 9 * 256 else d.toNat
          let set : CoefSet := { c := k, delay := delay, gain := g }
          let i := if stage == 1 then 0 else c.at_ 0x14 4 4 - 1
          let s := (coefClusters s c.unit).foldl (fun s q => setChain q (fun ch => { ch with user := modAt ch.user i (fun _ => set) }) s) s
          .done { result := delay + place g 16 32, effect := some s.clk.ms } s) s)

/-! ### Status (R257) -/

/-- The 16-byte lane chain status; SAT is cleared by the BAY.READ that returns it. -/
def laneStatus (s : State) (l : Nat) : Bytes :=
  let st := laneSt s l
  let ch := chainSt s (l / 64)
  let chain := if !ch.running then 0 else if ch.t12 then 2 else 1
  leBytes 4 (chain + place (flag (decide (s.clk.ms < st.fillEnd))) 2 1 + place (boolBits st.sat) 3 5 + place st.satCnt 16 16) ++
  leBytes 4 st.d4 ++ leBytes 4 st.front ++ leBytes 4 (stage3Delay ch (stg3Set (laneBytes s l)) % 2 ^ 16)

end Sys2Proof.Machine
end

