-- ==== Sys2Proof/Machine/Net.lean ====
section
/-! DEFINITION. The NET ports: the port set, the steps every received frame passes, redundancy, links and frame errors
(R179-R188, R222). Frames are modelled at the level of their decoded fields (log entry 21). -/

namespace Sys2Proof.Machine

def setNet (f : NetSt → NetSt) (s : State) : State := { s with net := f s.net }
def setNetPort (p : Nat) (f : NetPort → NetPort) (s : State) : State := setNet (fun n => { n with ports := modAt n.ports p f }) s
def netPort (s : State) (p : Nat) : NetPort := s.net.ports.getD p {}

def inc (x : Nat) : Nat := satN 32 (x + 1)

/-! ### The port set (R179-R181) -/

/-- Mode of a pair: 0 independent, 1 PRP, 2 HSR. -/
def psMode (b : Bytes) (pair : Nat) : Nat := if pair == 0 then fld b 0 0 2 else fld b 0 4 1
def psEn (b : Bytes) (p : Nat) : Bool := bitAt b 0 (8 + p)
def psMac (b : Bytes) (p : Nat) : Nat := leAt b (8 + 8 * p) 6
def pairMode (s : State) (pair : Nat) : Nat := psMode s.net.portSet pair
def portEn (s : State) (p : Nat) : Bool := psEn s.net.portSet p
def entryForget (s : State) : Nat := u16At s.net.portSet 0x28
def nodeForgetT (s : State) : Nat := u16At s.net.portSet 0x2C

/-- Source address of a port: in PRP and HSR the pair uses the address of its lower port. -/
def ownMac (s : State) (p : Nat) : Nat := psMac s.net.portSet (if pairMode s (p / 2) == 0 then p else p / 2 * 2)

/-- The first octet of a 48-bit address written as a number, most significant octet first, is even: unicast (log entry 22). -/
def unicast (mac : Nat) : Bool := bitsOf mac 40 1 == 0

/-- Range checks of the port set block, reserved fields among them (R179). -/
def portSetRange (v : Variant) (b : Bytes) : List (Bool × Nat) :=
  [(fld b 0 3 1 != 0 || fld b 0 7 1 != 0 || fld b 0 12 20 != 0 || fld b 0 0 2 == 3 || (bitAt b 0 2 && v == .k8) ||
      (psMode b 0 != 0 && psEn b 0 != psEn b 1) || (psMode b 1 != 0 && psEn b 2 != psEn b 3), 0),
   (u32At b 4 != 0, 4)] ++
  (List.range 4).flatMap (fun p => [(!unicast (psMac b p), 8 + 8 * p), (u16At b (0x0E + 8 * p) != 0, 0x0C + 8 * p)]) ++
  [(u16At b 0x28 < 10 || 10000 < u16At b 0x28 || u16At b 0x2A < 100 || 10000 < u16At b 0x2A, 0x28),
   (u16At b 0x2C < 1 || 3600 < u16At b 0x2C || u16At b 0x2E != 0, 0x2C)] ++
  (List.range 4).map (fun i => (u32At b (0x30 + 4 * i) != 0, 0x30 + 4 * i))

/-- The class C fields of a pair. -/
def pairClassC (b : Bytes) (pair : Nat) : List Nat :=
  if pair == 0 then [fld b 0 0 3, psMac b 0, psMac b 1] else [fld b 0 4 3, psMac b 2, psMac b 3]

/-- A class C field of a pair changes while the pair is enabled and stays so (R180). -/
def portSetLocked (old new : Bytes) (pair : Nat) : Bool :=
  let on (b : Bytes) : Bool := psEn b (2 * pair) || psEn b (2 * pair + 1)
  pairClassC old pair != pairClassC new pair && on old && on new

def loadPortSet (c : Cmd) (s : State) : Action :=
  match readBlock c 64 s with
  | .error r => .done r s
  | .ok b =>
    match blockRange (portSetRange s.variant b) with
    | some o => .done (Reply.range o) s
    | none =>
      let old := portSetLatest s
      if portSetLocked old b 0 || portSetLocked old b 1 then .done (Reply.fail St.locked 0) s
      else if psMode b 0 == 2 && (timeLatest s).ptpPorts == 1 then .done (Reply.refuse Rsn.state) s
      else .atBoundary 0 0 (.portSet b) s

/-- The port set in force is `b`; publications on a pair that has been disabled start anew when it is enabled again (R208, R218). -/
def applyPortSet (b : Bytes) (s : State) : State :=
  let on (x : Bytes) (pair : Nat) : Bool := psEn x (2 * pair) || psEn x (2 * pair + 1)
  setNet (fun n => { n with
    portSet := b
    svPubs := n.svPubs.map (fun p => if on n.portSet (fld p.block 0 1 1) && on b (fld p.block 0 1 1) then p else { p with next := none }) }) s

/-! ### Keys of SV and GOOSE (R187, R188) -/

/-- The slot holds an IEC 62351-6 key of the use its mode needs; slots are as at the last boundary (R515, R517). -/
def lineKey (s : State) (mode slot : Nat) : Option Bytes :=
  let k := s.sec.lineKeys.getD slot {}
  if mode != 0 && k.use == mode then some k.key else none

/-- The tag a key gives for a message: HMAC-SHA256 cut to 128 bits, or AES-GMAC. -/
def authTag (mode : Nat) (key nonce m : Bytes) : Bytes := if mode == 1 then (hmacSha256 key m).take 16 else gmac key nonce m

/-- A frame passes the authentication of its context (R187). -/
def authAccepts (s : State) (mode : Nat) (req : Bool) (keyA keyB : Nat) (e : Option AuthExt) : Bool :=
  if mode == 0 then true
  else match e with
    | none => !req
    | some x =>
      let fits (k : Nat) : Bool :=
        match lineKey s mode k with | some key => x.tag == authTag mode key x.nonce x.signed | none => false
      x.alg.toNat == mode && (fits keyA || fits keyB)

/-! ### Errors of a port (R186, R222) -/

/-- PORT_LOST raised by a port (R85, R186). -/
def losePortCause (p : Nat) (s : State) : State := raiseDeg DegCause.portLost (setNetPort p (fun x => { x with lost := true }) s)

/-- One FCS error or lost frame: an event of source 10; at the lasting threshold a NET record and PORT_LOST. From 1 s after the 32nd error
back the loss has been below its threshold (R85, R222). -/
def portError (p : Nat) (s : State) : State :=
  let was := isLasting s 10 p
  let errs := (s.clk.mono :: (netPort s p).errs).take 32
  let s := setNetPort p (fun x => { x with
    errs := errs
    soundAt := match errs[31]? with | some t => if s.clk.mono < t + secU 1 then max x.soundAt (t + secU 1) else x.soundAt | none => x.soundAt })
    (countEvent 10 p s)
  if !was && isLasting s 10 p then losePortCause p (postEvent Src.net 2 (0x0100 + p) [] s) else s

/-! ### The course of a received frame (R183-R185) -/

/-- A frame's receive time-stamp at the connector, on the monotonic count: the device's latency and RX_LAT taken away (R136). -/
def rxStamp (s : State) (h : FrameHead) : Int := rxTime s h.port.toNat h.stamp * (uPerNs : Int) / 10

def isCopy (pair src seq : Nat) (e : DupEntry) : Bool := e.pair == pair && e.src == src && e.seq == seq

/-- A frame with a redundancy trailer or tag has arrived on a port of a PRP or HSR pair: its entry, which says on which ports copies have
come, whatever becomes of the frame (R184, R186). -/
def trackCopy (port src : Nat) (seq : Option (BitVec 16)) (s : State) : State :=
  match seq with
  | none => s
  | some q =>
    if pairMode s (port / 2) == 0 then s
    else
      let hit := isCopy (port / 2) src q.toNat
      let new : DupEntry := { pair := port / 2, src := src, seq := q.toNat, port := port, at_ := s.clk.mono }
      let l := s.net.dups
      let l := if l.any hit then l.map (fun e => if hit e && e.port != port then { e with both := true } else e) else l ++ [new]
      setNet (fun n => { n with dups := l }) s

/-- The pair is an HSR ring. -/
def inRing (s : State) (p : Nat) : Bool := decide (p < 2) && pairMode s 0 == 2

/-- Steps 1 and 2: the port is enabled; in HSR a frame of the device's own is removed from the ring and every other one is
forwarded; a copy is noted. -/
def takeIn (h : FrameHead) (s : State) : Option State :=
  let p := h.port.toNat
  let s := setClk (·.advance (h.stamp * uPerNs)) s
  if !portEn s p || (inRing s p && h.src.toNat == ownMac s p) then none
  else
    let s := if inRing s p then { s with out := { s.out with wire := s.out.wire ++ [.forward (1 - p) false] } } else s
    some (trackCopy p h.src.toNat h.seq s)

/-- Step 6: the first copy that comes so far is taken; a later one within its entry's life is a duplicate (R183, R184). -/
def dedup (h : FrameHead) (s : State) : Bool × State :=
  match h.seq with
  | none => (true, s)
  | some q =>
    let hit := isCopy (h.port.toNat / 2) h.src.toNat q.toNat
    if pairMode s (h.port.toNat / 2) == 0 then (true, s)
    else if s.net.dups.any (fun e => hit e && e.taken) then (false, s)
    else (true, setNet (fun n => { n with dups := n.dups.map (fun e => if hit e then { e with taken := true } else e) }) s)

/-- A frame that no enabled context of its pair matches (R183). -/
def countNoMatch (p : Nat) (s : State) : State := setNetPort p (fun x => { x with noMatch := inc x.noMatch }) s

/-- Ports on which a pair sends: its enabled ports (log entry 23). -/
def sendPorts (s : State) (pair : Nat) : List Nat := [2 * pair, 2 * pair + 1].filter (portEn s)

/-- Addressing of a frame of a pair's own: in PRP and HSR with the pair's next sequence number (R184, R185). -/
def txHead (s : State) (pair etherType dst : Nat) : TxHead :=
  { ports := sendPorts s pair, src := ownMac s (2 * pair), dst := dst, etherType := etherType
    red := if pairMode s pair == 0 then none else some (s.net.redSeq.getD pair 0) }

def putFrame (f : TxFrame) (s : State) : State := { s with out := { s.out with wire := s.out.wire ++ [f] } }

/-- A frame of a pair leaves; the sequence of redundancy goes on. -/
def sendFrame (pair : Nat) (f : TxFrame) (s : State) : State :=
  putFrame f (if pairMode s pair == 0 then s else setNet (fun n => { n with redSeq := modAt n.redSeq pair (fun x => (x + 1) % 2 ^ 16) }) s)

/-! ### Rows -/

/-- DISCARDED_FRAME_RX (R182, R183, R185, R186): counted by its reason; in HSR it is forwarded, one with a bad FCS with a corrupted FCS,
but not one of the device's own; a copy that arrives whole is noted. -/
def execDiscardedFrameRx (port : BitVec 2) (src : BitVec 48) (why : Discard) (s : State) : Out :=
  .next (
    let p := port.toNat
    if !portEn s p then s
    else
      let own := src.toNat == ownMac s p
      let s := if inRing s p && !own then putFrame (.forward (1 - p) (why == .badFcs)) s else s
      let copy (seq : Option (BitVec 16)) (s : State) : State := if inRing s p && own then s else trackCopy p src.toNat seq s
      match why with
      | .badFcs => settle (portError p (setNetPort p (fun x => { x with fcsErr := inc x.fcsErr }) s))
      | .etherType seq => setNetPort p (fun x => { x with other := inc x.other }) (copy seq s)
      | .noMatch seq => countNoMatch p (copy seq s))

/-- LINK_DOWN (R186). -/
def execLinkDown (port : BitVec 2) (s : State) : Out :=
  .next (
    let p := port.toNat
    if !(netPort s p).link then s
    else losePortCause p (setNetPort p (fun x => { x with link := false, soundAt := max x.soundAt s.clk.mono }) s))

/-- LINK_UP (R186): the time of a sound port starts (R85). -/
def execLinkUp (port : BitVec 2) (s : State) : Out :=
  .next (setNetPort port.toNat (fun x => if x.link then x else { x with link := true, soundAt := max x.soundAt s.clk.mono }) s)

/-- PORT_RECOVERED (R85): link up and frame loss below its threshold for 10 s. -/
def execPortRecovered (port : BitVec 2) (s : State) : Out :=
  .next (
    let p := port.toNat
    let x := netPort s p
    if !x.lost || !x.link then s
    else
      let s := setClk (·.advance (x.soundAt + secU 10)) s
      let s := clearLasting 10 p (setNetPort p (fun x => { x with lost := false }) s)
      if s.net.ports.any (·.lost) then s else clearDeg DegCause.portLost s)

/-- LIFE_CHECK (Table: Port set block). -/
def lifeCheck (s : State) : Nat := u16At s.net.portSet 0x2A

/-- Destination of supervision frames: IEC 62439-3's address (PRESUMED, log entry 62). -/
def superDst : Nat := 0x01154E000100

/-- PRP_SUPERVISION_TX (R184): every LIFE_CHECK, on both ports of a PRP pair; the first at once. -/
def execPrpSupervisionTx (pair : BitVec 1) (s : State) : Out :=
  .next (
    let i := pair.toNat
    if pairMode s i != 1 || (sendPorts s i).isEmpty then s
    else
      let s := match s.net.superTx.getD i none with | some t => setClk (·.advance (t + msU (lifeCheck s))) s | none => s
      sendFrame i (.prpSupervision (txHead s i 0x88FB superDst)) (setNet (fun n => { n with superTx := modAt n.superTx i (fun _ => some s.clk.mono) }) s))

/-- PRP_SUPERVISION_RX (R184): the node's entry is made or renewed. -/
def execPrpSupervisionRx (h : FrameHead) (s : State) : Out :=
  .next (match takeIn h s with
    | none => s
    | some s =>
      let pair := h.port.toNat / 2
      let (_, s) := dedup h s
      setNet (fun n => { n with nodes := n.nodes.filter (fun e => !(e.pair == pair && e.src == h.src.toNat)) ++
        [{ pair := pair, src := h.src.toNat, at_ := s.clk.mono }] }) s)

/-- NODE_FORGET (R184). -/
def execNodeForget (pair : BitVec 1) (src : BitVec 48) (s : State) : Out :=
  .next (match s.net.nodes.find? (fun e => e.pair == pair.toNat && e.src == src.toNat) with
    | none => s
    | some e =>
      setNet (fun n => { n with nodes := n.nodes.filter (· != e) }) (setClk (·.advance (e.at_ + secU (nodeForgetT s))) s))

/-- DUPLICATE_ENTRY_FORGET (R186): an entry's life ends; a copy that never came counts in FRAME_LOSS of the partner port. -/
def execDuplicateEntryForget (pair : BitVec 1) (src : BitVec 48) (seq : BitVec 16) (s : State) : Out :=
  .next (match s.net.dups.find? (fun e => e.pair == pair.toNat && e.src == src.toNat && e.seq == seq.toNat) with
    | none => s
    | some e =>
      let s := setClk (·.advance (e.at_ + msU (entryForget s))) s
      let s := setNet (fun n => { n with dups := n.dups.filter (· != e) }) s
      let p := 2 * (e.port / 2) + (1 - e.port % 2)
      if e.both then s else settle (portError p (setNetPort p (fun x => { x with frameLoss := inc x.frameLoss }) s)))

end Sys2Proof.Machine
end

