-- ==== Sys2Proof/Machine/Frames.lean ====
section
/-! DEFINITION. The APDUs of publications and their IEC 62351-6 tag (R187, R207, R217). R217 and R207 name the standards, whose field
identifiers are written here from general knowledge (PRESUMED, log entry 62). -/

namespace Sys2Proof.Machine

/-! ### Minimal BER -/

def octet (n : Nat) : Byte := BitVec.ofNat 8 n

def berLength (n : Nat) : Bytes :=
  if n < 128 then [octet n] else if n < 256 then [octet 0x81, octet n] else octet 0x82 :: beBytes 2 n

def tlv (tag : Nat) (b : Bytes) : Bytes := octet tag :: (berLength b.length ++ b)

/-- The fewest octets, up to 8, that hold `i` in two's complement. -/
def intWidth (i : Int) : Nat := ((List.range 8).find? (fun k => decide (-(2 ^ (8 * k + 7)) ≤ i ∧ i < 2 ^ (8 * k + 7)))).getD 7 + 1

def berInt (i : Int) : Bytes := beBytes (intWidth i) (codeOf i (8 * intWidth i))

/-! ### goosePdu (R217) -/

def pubValBytes : PubVal → Bytes
  | .bool b => tlv 0x83 [octet (flag b)]
  | .dbpos on => tlv 0x84 [octet 6, octet (if on then 0x80 else 0x40)]
  | .quality v blocked test =>
    tlv 0x84 [octet 3, octet (if v == 1 then 0x40 else if v == 3 then 0xC0 else if v == 2 then 0x80 else 0), octet ((if test then 0x10 else 0) + (if blocked then 0x08 else 0))]
  | .int i => tlv 0x85 (berInt i)

/-- The time-stamp octets: seconds, a 24-bit fraction, the quality; how the fraction is rounded is left open (log entry 3). -/
def utcOctets (ns : Int) (tq : Nat) : Bytes :=
  let f := roundOpen 36 ((ns % 1000000000) * 2 ^ 24) 1000000000
  beBytes 4 (codeOf (ns / 1000000000) 32) ++ beBytes 3 (codeOf f 24) ++ [octet tq]

/-- The goosePdu of a publication block: gocbRef, timeAllowedtoLive, datSet, goID where it has one, t, stNum, sqNum, simulation false,
confRev, ndsCom false, numDatSetEntries, allData. -/
def gooseApdu (b : Bytes) (tal st sq : Nat) (t : Int) (tq : Nat) (vals : List PubVal) : Bytes :=
  let n (o : Nat) : Nat := byteAt b o
  let str := b.drop 0xA0
  let id := (str.drop (n 0x19 + n 0x1A)).take (n 0x1B)
  tlv 0x61 (
    tlv 0x80 (str.take (n 0x19)) ++ tlv 0x81 (berInt tal) ++ tlv 0x82 ((str.drop (n 0x19)).take (n 0x1A)) ++
    (if n 0x1B == 0 then [] else tlv 0x83 id) ++ tlv 0x84 (utcOctets t tq) ++ tlv 0x85 (berInt st) ++ tlv 0x86 (berInt sq) ++
    tlv 0x87 [octet 0] ++ tlv 0x88 (berInt (u32At b 0x14 : Nat)) ++ tlv 0x89 [octet 0] ++ tlv 0x8A (berInt (vals.length : Nat)) ++
    tlv 0xAB (vals.flatMap pubValBytes))

/-! ### savPdu (R207) -/

def qualityBits (q : Quality61850) : Nat :=
  q.validity.toNat + place (flag q.overflow) 2 1 + place (flag q.outOfRange) 3 1 + place (flag q.badReference) 4 1 +
  place (flag q.oscillatory) 5 1 + place (flag q.failure) 6 1 + place (flag q.oldData) 7 1 + place (flag q.inconsistent) 8 1 +
  place (flag q.inaccurate) 9 1 + place (flag q.substituted) 10 1 + place (flag q.test) 11 1 + place (flag q.operatorBlocked) 12 1

def asduBytes (b : Bytes) (cnt synch : Nat) (vals : List (Int × Quality61850)) : Bytes :=
  tlv 0x30 (
    tlv 0x80 ((b.drop 0x40).take (fld b 0x24 0 8)) ++ tlv 0x82 (beBytes 2 cnt) ++ tlv 0x83 (beBytes 4 (u32At b 0x20)) ++ tlv 0x85 [octet synch] ++
    tlv 0x87 (vals.flatMap (fun v => beBytes 4 (codeOf v.1 32) ++ beBytes 4 (qualityBits v.2))))

def svApdu (b : Bytes) (cnt synch : Nat) (vals : List (List (Int × Quality61850))) : Bytes :=
  tlv 0x60 (tlv 0x80 [octet vals.length] ++ tlv 0xA2 ((vals.mapIdx (fun j v => asduBytes b (cnt + j) synch v)).flatten))

/-! ### Authentication and addressing -/

/-- The tag of a publication's frame: by the algorithm of its mode under its one key over the APDU, with a nonce that the spec does not
give (log entry 4); none where the slot holds no key of that use (R188). -/
def pubTag (s : State) (mode slot : Nat) (apdu : Bytes) : Option Bytes :=
  (lineKey s mode slot).map (fun k => authTag mode k (leBytes 12 (openNat 63 96 [(apdu.length : Int), (s.clk.mono : Int)])) apdu)

/-- The head of a publication's frame: VID and PCP at bits `vb` of 0x04, DST and APPID at 0x08. -/
def pubHead (s : State) (b : Bytes) (pair etherType vb : Nat) (tag : Option Bytes) : TxHead :=
  { txHead s pair etherType (leAt b 8 6) with vid := fld b 4 vb 12, pcp := fld b 4 (vb + 12) 3, appid := u16At b 0x0E, tag := tag }

/-- Octets of a frame on the wire from destination to FCS: addresses, 802.1Q tag, EtherType, APPID header, APDU, FCS, and where they
apply the redundancy trailer or tag and the tag of its extension. -/
def frameOctets (h : TxHead) (apdu : Bytes) : Nat :=
  14 + 4 + 8 + apdu.length + 4 + (if h.red.isSome then 6 else 0) + (match h.tag with | some t => t.length | none => 0)

end Sys2Proof.Machine
end

