-- ==== Sys2Proof/Machine/Sv.lean ====
section
/-! DEFINITION. Sampled values: subscription contexts, their placement, loss and resampling, and publications (R189-R209,
R221, R222). -/

namespace Sys2Proof.Machine

def svCtx (s : State) (k : Nat) : SvCtx := s.net.sv.getD k {}
def setSv (k : Nat) (f : SvCtx → SvCtx) (s : State) : State := setNet (fun n => { n with sv := modAt n.sv k f }) s

/-! ### Fields of the SV part (R190) -/

def svEn (s : State) (k : Nat) : Bool := decide (k < s.variant.svSubs) && bitAt (streamBytes s k) 0 0 && bitAt (streamBytes s k) 4 0
def svProfile (b : Bytes) : Nat := fld b 0x1C 0 3
def svLe60 (b : Bytes) : Bool := bitAt b 0x1C 3
def svSyncReq (b : Bytes) : Nat := fld b 0x1C 4 2
def svLossHold (b : Bytes) : Nat := fld b 0x1C 6 2
def svFs (b : Bytes) (c : Nat) : Nat := u32At b (0x30 + 4 * c)

/-- Sample rate, which is the modulus of smpCnt, and ASDUs per frame (Table: Supported SV profiles). -/
def svRate (b : Bytes) : Nat :=
  match svProfile b with
  | 0 => 4800
  | 1 => 14400
  | 2 => if svLe60 b then 4800 else 4000
  | _ => if svLe60 b then 15360 else 12800

def svAsdus (b : Bytes) : Nat := match svProfile b with | 0 => 2 | 1 => 6 | 2 => 1 | _ => 8

/-- Input period T in units of the model's clock. -/
def svT (b : Bytes) : Int := ((secU 1 / svRate b : Nat) : Int)

/-- The fields whose change restarts a context (R190): SV_DST, SV_APPID, SVID_LEN, SVID_CRC, SV_CONFREV, PROFILE, LE_NOMINAL. -/
def svMatchFields (b : Bytes) : List Nat := [u64At b 8, fld b 0x10 0 8, u32At b 0x14, u32At b 0x18, fld b 0x1C 0 4]

/-! ### Placement (R192) -/

/-- Mean transit of the last 64 frames received while synchronised; before the first it is a free value (log entry 4). -/
def svMeanTransit (x : SvCtx) : Int :=
  if x.transits.isEmpty then Config.freeInt 30 [] else roundOpen 31 (x.transits.foldl (· + ·) 0) x.transits.length

/-- Instant of count `k` of a synchronised stream received at TAI `rx`. -/
def svSyncInstant (b : Bytes) (rx : Int) (k : Nat) : Int :=
  let sec := rx / (secU 1 : Int)
  let early : Bool := decide (rx % (secU 1 : Int) < (msU 10 : Int)) && decide (svRate b ≤ 2 * k)
  (sec - (if early then 1 else 0)) * (secU 1 : Int) + (k : Int) * svT b - s32At b 0x24 * (uPerNs : Int)

/-- Instant of ASDU `i` of `n` in a frame: by count, or by arrival less the mean transit. -/
def svInstant (b : Bytes) (x : SvCtx) (rx : Int) (k i n : Nat) : Int :=
  if x.sync then svSyncInstant b rx k else rx - svMeanTransit x - ((n - 1 - i : Nat) : Int) * svT b

/-! ### Values (R193, R194) -/

/-- Lane bits of an IEC 61850 quality (Table: SV quality mapping); the simulation bit gives TST. -/
def svQuality (q : Quality61850) (sim : Bool) : Nat :=
  let f (c : Bool) (bit : Nat) : Nat := if c then bit else 0
  f (q.validity == 1 || q.validity == 2 || q.failure || q.badReference || q.operatorBlocked) Qb.inv |||
  f (q.validity == 3 || q.oscillatory || q.oldData || q.inconsistent || q.inaccurate) Qb.qst |||
  f (q.overflow || q.outOfRange) Qb.ovr ||| f q.substituted Qb.sub ||| f (q.test || sim) Qb.tst

/-- Channel `c` normalised to its full scale, in 2^-23 (R193); the rounding to the word is left open (log entry 3). -/
def svValue (b : Bytes) (c : Nat) (raw : Int) (q : Nat) : QW :=
  let fs := svFs b c
  if fs == 0 then { v := 0, q := Qb.inv }
  else
    let x := (if c < 4 then raw else 10 * raw) * (if bitAt b 0x2C c then -1 else 1)
    let isOver := decide ((fs : Int) ≤ x.natAbs)
    { v := satZ 24 (roundOpen 27 (x * 2 ^ 23) fs), q := q ||| (if isOver then Qb.ovr else 0) }

def svSampleOf (b : Bytes) (a : SvAsdu) (sim : Bool) (t : Int) : SvSample :=
  { cnt := a.smpCnt.toNat, t := t, missing := false,
    ch := (List.range 8).map (fun c => svValue b c (a.vals.getD c 0) (svQuality (a.quals.getD c {}) sim)) }

/-! ### Missing samples (R196) -/

/-- Difference of two counts on their circle, in (-M/2, M/2]. -/
def cntDiff (m a b : Nat) : Int :=
  let d : Int := ((a : Int) - (b : Int)) % (m : Int)
  if (m : Int) < 2 * d then d - m else d

def pushSample (y : SvSample) (x : SvCtx) : SvCtx := { x with buf := (y :: x.buf).take 64 }

/-- One missing sample after the newest held: the first LOSS_HOLD of a run repeat the last taken with HLD, the others are 0
with INV. -/
def svFillOne (b : Bytes) (x : SvCtx) : SvCtx :=
  match x.buf with
  | [] => x
  | y :: _ =>
    let hold := decide (x.missRun < svLossHold b)
    let ch := y.ch.map (fun w => if hold then { w with q := w.q ||| Qb.hld } else { v := 0, q := Qb.inv })
    let z : SvSample := { cnt := (y.cnt + 1) % svRate b, t := y.t + svT b, missing := true, ch := ch }
    let known := x.lostCnts.contains z.cnt
    { pushSample z x with
      missRun := x.missRun + 1, held := if x.held < 4 then 0 else x.held, lost := if known then x.lost else inc x.lost
      lostCnts := x.lostCnts.filter (· != z.cnt), heldCnt := if hold then inc x.heldCnt else x.heldCnt }

/-- One event of source 9 per increment of LOST or AUTH_FAIL, with the NET record at its lasting threshold (R222). -/
def svLossEvent (k : Nat) (s : State) : State :=
  let was := isLasting s 9 k
  let s := countEvent 9 k s
  if !was && isLasting s 9 k then postEvent Src.net 1 k [] s else s

/-- One sample of context `k` missing: an event of source 9 unless LOST has counted it. -/
def svMissOne (k : Nat) (s : State) : State :=
  let n := (svCtx s k).lost
  let s := setSv k (svFillOne (streamBytes s k)) s
  if (svCtx s k).lost == n then s else svLossEvent k s

/-- `n` samples of context `k` missing. -/
def svMiss (k : Nat) : Nat → State → State
  | 0, s => s
  | n + 1, s => svMiss k n (svMissOne k s)

/-- A sample of context `k` discarded as LATE or EARLY is missing, and counted in LOST once (R221). -/
def svDiscard (k cnt : Nat) (s : State) : State :=
  let x := svCtx s k
  let filled := match x.buf with | [] => false | z :: _ => decide (cntDiff (svRate (streamBytes s k)) cnt z.cnt ≤ 0)
  if filled || x.lostCnts.contains cnt then s
  else svLossEvent k (setSv k (fun x => { x with lost := inc x.lost, lostCnts := (cnt :: x.lostCnts).take 64 }) s)

/-! ### Restart (R195) -/

/-- The buffer is discarded; lanes carry INV until four consecutive samples are held. -/
def svRestart (x : SvCtx) : SvCtx :=
  { x with buf := [], lostCnts := [], held := 0, last := none, missRun := 0, restarting := true, restarts := inc x.restarts }

/-- A changed Stream Table entry: a change of the matching fields restarts the context, and one enabled or disabled starts
anew. -/
def svEntryChanged (k : Nat) (old new : Bytes) (s : State) : State :=
  let on (b : Bytes) : Bool := bitAt b 0 0 && bitAt b 4 0
  if on old && on new then (if svMatchFields old != svMatchFields new then setSv k svRestart s else s)
  else if on old == on new then s
  else setSv k (fun x =>
    { x with buf := [], lostCnts := [], held := 0, last := none, missRun := 0, restarting := false, seen := false, sync := false, goodRun := 0,
             resync := false, lossInv := false, stl := 0, transits := [], slots := [], words := [] }) s

/-! ### The resampler (R196-R198, R200, R201) -/

/-- Samples missing at the word of slot `tau`: those up to the window's last, at most 64 of them. -/
def svDue (s : State) (k : Nat) (tau : Int) : Nat :=
  match (svCtx s k).buf with
  | [] => 0
  | z :: _ =>
    let t := svT (streamBytes s k)
    let need := tau - (usU (latBudget s k) : Nat) + 2 * t - z.t
    if need < t then 0 else min 64 (need / t).toNat

/-- The Farrow resampler over the samples k-1, k, k+1, k+2 at the fraction `num / den` of the period (R200). -/
def farrow (num den : Int) (w : List Int) : Int :=
  let p := (num * 32 / den).toNat
  let r := num * 32 - (p : Int) * den
  let h (i : Nat) : Int := (List.range 5).foldl (fun a m => a + farrowCoef p m i * r ^ m * den ^ (4 - m)) 0
  let y := (List.range 4).foldl (fun a i => a + h i * w.getD i 0) 0
  roundOpen 32 y (2 ^ 30 * (den ^ 4).toNat)

/-- The word of channel `c` at instant `t` (R200): INV where a sample of its window is INV or not held. -/
def svWord (x : SvCtx) (T t : Int) (c extra : Nat) : QW :=
  match x.buf.findIdx? (fun y => decide (y.t ≤ t)) with
  | none => { v := 0, q := Qb.inv ||| Qb.rsm ||| extra }
  | some i =>
    if i < 2 || x.buf.length ≤ i + 1 then { v := 0, q := Qb.inv ||| Qb.rsm ||| extra }
    else
      let at_ (j : Nat) : QW := ((x.buf[j]?).bind (fun y => y.ch[c]?)).getD {}
      let w := [at_ (i + 1), at_ i, at_ (i - 1), at_ (i - 2)]
      let q := orQ w ||| Qb.rsm ||| extra
      if q / 128 % 2 == 1 then { v := 0, q := q }
      else
        let ti := ((x.buf[i]?).map (·.t)).getD t
        { v := satZ 24 (farrow (max 0 (min (T - 1) (t - ti))) T (w.map (·.v))), q := q }

/-- The words of an unsynchronised stream carry INV at an instant: SYNC_LOSS_T has passed (R197). -/
def svLossInv (b : Bytes) (x : SvCtx) (mono : Int) : Bool :=
  x.lossInv || (x.seen && !x.sync && decide (((x.unsyncAt + msU (u16At b 0x22) : Nat) : Int) ≤ mono))

/-- The words of the next record slot of a Milestone of TAI `msTai` and length `len`, slots at its quarters: what is missing by then is
filled; QST while unsynchronised, INV after SYNC_LOSS_T or until four samples are held, STL for 8 words after that or a return. -/
def svSlot (k msTai len : Nat) (s : State) : State :=
  let b := streamBytes s k
  let tau : Int := (msTai : Int) + ((((svCtx s k).slots.length + 1) * len / 4 : Nat) : Int)
  let s := svMiss k (svDue s k tau) s
  let x := svCtx s k
  let lost := svLossInv b x (tau - s.clk.taiOfs)
  let unset := decide (x.held < 4)
  let extra := (if x.seen && !x.sync then Qb.qst else 0) ||| (if 0 < x.stl && !unset then Qb.stl else 0) ||| (if lost || unset then Qb.inv else 0)
  let w := (List.range 8).map (fun c => svWord x (svT b) (tau - (usU (latBudget s k) : Nat)) c extra)
  setSv k (fun x => { x with slots := x.slots ++ [w], lossInv := lost, stl := if unset then x.stl else x.stl - 1 }) s

/-- The slots of the Milestone in progress that lie before now, at most `n` of them. -/
def svCatchUp (k : Nat) : Nat → State → State
  | 0, s => s
  | n + 1, s =>
    let tau := s.clk.msTai + ((svCtx s k).slots.length + 1) * s.clk.len / 4
    if (svCtx s k).slots.length < 4 && decide (tau < s.clk.taiU) then svCatchUp k n (svSlot k s.clk.msTai s.clk.len s) else s

/-- The remaining slots of a Milestone that ends. -/
def svFinish (k msTai len : Nat) : Nat → State → State
  | 0, s => s
  | n + 1, s => if (svCtx s k).slots.length < 4 then svFinish k msTai len n (svSlot k msTai len s) else s

/-- The four words per channel of the Milestone that ends at the boundary being opened. -/
def svResample (k : Nat) (msTai len : Nat) (s : State) : State :=
  if !svEn s k then setSv k (fun x => { x with slots := [], words := [] }) s
  else setSv k (fun x => { x with slots := [], words := (List.range 8).map (fun c => x.slots.map (fun w => w.getD c {})) }) (svFinish k msTai len 4 s)

/-- Every context at a boundary: its words, then a return of synchronisation (R198). -/
def svBoundary (msTai len : Nat) (s : State) : State :=
  let s := (List.range s.variant.svSubs).foldl (fun s k => svResample k msTai len s) s
  setNet (fun n => { n with sv := n.sv.map (fun x =>
    if x.resync then { x with sync := true, resync := false, lossInv := false, goodRun := 0, stl := 8 } else x) }) s

/-! ### Taking a frame (R191, R195-R198) -/

/-- The last record slot whose word has been computed: its TAI. -/
def lastSlot (s : State) : Int :=
  let q : Int := ((s.clk.len / 4 : Nat) : Int)
  let d : Int := (s.clk.taiU : Int) - (s.clk.msTai : Int)
  (s.clk.msTai : Int) + (if d ≤ 0 then 0 else (d - 1) / (max q 1)) * q

/-- One ASDU of a matched frame (R195, R196): a jump restarts the context; a count at or behind the last is a duplicate; one past its
deadline or too far ahead is discarded; any other is taken, and what it skips is missing. -/
def svAsdu (k : Nat) (sim : Bool) (rx : Int) (n : Nat) (i : Nat) (a : SvAsdu) (s : State) : State :=
  let b := streamBytes s k
  let t := svInstant b (svCtx s k) rx a.smpCnt.toNat i n
  let y := svSampleOf b a sim t
  let dist (x : SvCtx) : Option Int := x.last.map (fun l => cntDiff (svRate b) y.cnt l)
  let s := match dist (svCtx s k) with | some d => if 48 < d.natAbs then setSv k svRestart s else s | none => s
  let x := svCtx s k
  if (match dist x with | some d => decide (d ≤ 0) | none => false) then setSv k (fun x => { x with dup := inc x.dup }) s
  else
    let budget : Int := (usU (latBudget s k) : Nat)
    let margin : Int := budget - 2 * svT b - (usU 2 : Nat) - (rx - t)
    let s := setSv k (fun x => { x with marginMin := match x.marginMin with | none => some margin | some z => some (min z margin) }) s
    let ahead := match x.buf with | [] => 1 | z :: _ => cntDiff (svRate b) y.cnt z.cnt
    if ahead ≤ 0 || decide (t + budget ≤ lastSlot s + 2 * svT b) then svDiscard k y.cnt (setSv k (fun x => { x with late := inc x.late }) s)
    else if (s.clk.taiU : Int) - budget + 48 * svT b < t then svDiscard k y.cnt (setSv k (fun x => { x with early := inc x.early }) s)
    else
      setSv k (fun x =>
        let held := if x.held < 4 then x.held + 1 else x.held
        { pushSample y x with
          last := some y.cnt, missRun := 0, held := held, restarting := x.restarting && decide (held < 4)
          stl := if x.held == 3 then 8 else x.stl }) (svMiss k (ahead - 1).toNat s)

/-- Synchronisation as a frame shows it (R197, R198). -/
def svSyncFrame (ok : Bool) (now : Nat) (x : SvCtx) : SvCtx :=
  if !x.seen then { x with seen := true, sync := ok, unsyncAt := now, goodRun := 0 }
  else if !ok then
    let x := if x.sync then { x with sync := false, unsyncAt := now, syncLosses := satN 16 (x.syncLosses + 1) } else x
    { x with goodRun := 0, resync := false }
  else if x.sync then x
  else { x with goodRun := x.goodRun + 1, resync := x.resync || decide (8 ≤ x.goodRun + 1) }

/-- SmpSynch that SYNC_REQ accepts; global also needs the device's own clock synchronised (R197). -/
def svSynchOk (s : State) (b : Bytes) (v : Nat) : Bool :=
  (v == 2 && !notSynchronized s.time) || (v == 1 && svSyncReq b == 1)

/-- The context a frame belongs to (R191). -/
def svMatch (s : State) (f : SvFrame) : Option Nat :=
  match f.asdus with
  | [] => none
  | a :: _ =>
    findIdxBelow s.variant.svSubs (fun k =>
      let b := streamBytes s k
      svEn s k && fld b 4 2 1 == f.head.port.toNat / 2 && leAt b 8 6 == f.head.dst.toNat && u16At b 0x0E == f.head.appid.toNat &&
        fld b 0x10 0 8 == a.svId.length && u32At b 0x14 == (crc32c a.svId).toNat)

/-- A verified first copy: content checks and its samples (R183 step 7, R189, R191). -/
def svDeliver (k : Nat) (f : SvFrame) (s : State) : State :=
  let b := streamBytes s k
  let n := f.asdus.length
  if n != svAsdus b || f.asdus.any (fun a => a.confRev.toNat != u32At b 0x18) then setSv k (fun x => { x with confErr := inc x.confErr }) s
  else
    let rx : Int := rxStamp s f.head + s.clk.taiOfs
    let ok := f.asdus.all (fun a => svSynchOk s b a.smpSynch.toNat)
    let last := (f.asdus.getLast?.map (·.smpCnt.toNat)).getD 0
    let s := setSv k (fun x =>
      let x := svSyncFrame ok s.clk.mono x
      let tr := rx - svSyncInstant b rx last
      let x := if x.sync then { x with transits := (tr :: x.transits).take 64, transitMax := max x.transitMax tr } else x
      { x with frames := inc x.frames, lastPort := f.head.port.toNat % 2, smpSynch := (f.asdus.getLast?.map (·.smpSynch.toNat % 4)).getD 0 }) s
    (f.asdus.zipIdx).foldl (fun s (a, i) => svAsdu k f.head.sim rx n i a s) s

/-- SV_FRAME_RX (R183, R191-R198). -/
def execSvFrameRx (f : SvFrame) (s : State) : Out :=
  .next (match takeIn f.head s with
    | none => s
    | some s =>
      match svMatch s f with
      | none => countNoMatch f.head.port.toNat s
      | some k =>
        let b := streamBytes s k
        if !authAccepts s (fld b 0x28 0 2) (bitAt b 0x28 2) (fld b 0x28 8 5) (fld b 0x28 16 5) f.head.auth then
          settle (svLossEvent k (setSv k (fun x => { x with authFail := inc x.authFail }) s))
        else
          let (first, s) := dedup f.head s
          settle (if first then svDeliver k f (svCatchUp k 4 s) else s))

/-! ### Deadlines (R196) -/

/-- SV_SAMPLE_DEADLINE (R196): the deadline of the next expected sample of a context passes. -/
def execSvSampleDeadline (ctx : BitVec 8) (s : State) : Out :=
  .next (
    let k := ctx.toNat
    let x := svCtx s k
    match x.buf with
    | [] => s
    | z :: _ =>
      if !svEn s k then s
      else
        let b := streamBytes s k
        let q : Int := ((s.clk.len / 4 : Nat) : Int)
        let at_ := z.t + svT b + (usU (latBudget s k) : Nat) - 2 * svT b
        let slots := if at_ ≤ s.clk.msTai then 0 else (at_ - s.clk.msTai + q - 1) / (max q 1)
        let tau := (s.clk.msTai : Int) + slots * q
        let s := svCatchUp k 4 (setClk (·.advance (tau - s.clk.taiOfs).toNat) s)
        settle (if at_ ≤ tau && (svCtx s k).buf.head? == some z then svMiss k 1 s else s))

/-- The resampler's samples keep their distance from the present when TAI is stepped (log entry 25); a publication goes on from the
stepped time (R208). -/
def svShift (d : Int) (s : State) : State :=
  setNet (fun n => { n with
    sv := n.sv.map (fun x => { x with buf := x.buf.map (fun y => { y with t := y.t + d }) })
    svPubs := n.svPubs.map (fun p => { p with next := none }) }) s

/-- What a lane with SRC 2 receives in a Milestone (R199, R200). -/
def svLaneInput (s : State) (l : Nat) : LaneInput :=
  let b := laneBytes s l
  if !svEn s (laneStream b) then .none
  else match (svCtx s (laneStream b)).words[laneCh b]? with
    | some w => .words w
    | none => .none

/-- SV_SYNC_LOSS_TIMEOUT (R197): the words of an unsynchronised stream carry INV from SYNC_LOSS_T on. -/
def execSvSyncLossTimeout (ctx : BitVec 8) (s : State) : Out :=
  .next (
    let k := ctx.toNat
    let x := svCtx s k
    if !svEn s k || !x.seen || x.sync then s
    else setSv k (fun x => { x with lossInv := true }) (svCatchUp k 4 (setClk (·.advance (x.unsyncAt + msU (u16At (streamBytes s k) 0x22))) s)))

/-! ### Publication (R206-R209) -/

def pubEn (b : Bytes) : Bool := bitAt b 0 0
def svPubAuth (b : Bytes) : Nat := fld b 0 2 2
def svPubKey (b : Bytes) : Nat := fld b 0 8 5

/-- Range checks of the publication block, reserved fields among them. -/
def svPubRange (s : State) (b : Bytes) : List (Bool × Nat) :=
  [(fld b 0 4 4 != 0 || fld b 0 13 19 != 0 || svPubAuth b == 3, 0), (fld b 4 15 17 != 0, 4),
   (leAt b 8 6 < 0x010CCD040000 || 0x010CCD0401FF < leAt b 8 6, 8), (u16At b 0x0E < 0x4000 || 0x7FFF < u16At b 0x0E, 0x08)] ++
  (List.range 8).map (fun i =>
    let l := bitsOf (u16At b (0x10 + 2 * i)) 0 9
    (bitsOf (u16At b (0x10 + 2 * i)) 9 7 != 0 || decide (4 ≤ l % 8) != decide (4 ≤ i) || laneSrc s l != 1, 0x10 + 2 * i)) ++
  [(fld b 0x24 8 24 != 0 || fld b 0x24 0 8 < 1 || 64 < fld b 0x24 0 8, 0x24)] ++
  (List.range 6).map (fun i => (u32At b (0x28 + 4 * i) != 0, 0x28 + 4 * i))

/-- The block with its EN bit cleared. -/
def withoutEn (b : Bytes) : Bytes := patch b 0 [BitVec.ofNat 8 (byteAt b 0 / 2 * 2)]

def svPubBytes (s : State) (i : Nat) : Bytes := (s.net.svPubs.getD i {}).block
def svPubLatest (s : State) (i : Nat) : Bytes :=
  s.acts.foldl (fun c a => match a.act with | .svPub j b => if j == i then b else c | _ => c) (svPubBytes s i)

/-- Warnings of a named slot that holds no key of the mode's use (R188). -/
def keyWarnings (s : State) (mode slot : Nat) : Nat := if mode != 0 && (s.sec.slots.getD slot {}).use != mode then 1 else 0

def loadSvPub (c : Cmd) (s : State) : Action :=
  match readBlock c 128 s with
  | .error r => .done r s
  | .ok b =>
    match blockRange (svPubRange s b) with
    | some o => .done (Reply.range o) s
    | none =>
      let old := svPubLatest s c.unit
      if pubEn old && withoutEn old != withoutEn b then .done (Reply.fail St.locked 0) s
      else .atBoundary (keyWarnings s (svPubAuth b) (svPubKey b)) 0 (.svPub c.unit b) s

def svPubJudge (c : Cmd) (_ : State) : Judge := { range := [(!(c.unit < 6 || c.unit == 0x0100), 4)] }
def svPubAct (c : Cmd) (s : State) : Action := if c.unit == 0x0100 then loadPortSet c s else loadSvPub c s

/-- SV_PUB (R206): a publication loaded. -/
def execSvPub (c : Cmd) (s : State) : Out := .next (command c (svPubJudge c) (svPubAct c) s)

/-- SV_PUB_PORT_SET (R179-R181): SV.PUB with UNIT 0x0100. -/
def execSvPubPortSet (c : Cmd) (s : State) : Out := .next (command c (svPubJudge c) (svPubAct c) s)

def applySvPub (i : Nat) (b : Bytes) (s : State) : State :=
  setNet (fun n => { n with svPubs := modAt n.svPubs i (fun p =>
    { p with block := b, next := if pubEn b && pubEn p.block then p.next else none }) }) s

/-- The published quality of a lane's bits (R209). -/
def pubQuality (q : Nat) : Quality61850 :=
  let b (i : Nat) : Bool := q / i % 2 == 1
  { validity := if b Qb.inv then 1 else if b Qb.qst || b Qb.ovr || b Qb.stl then 3 else 0
    overflow := b Qb.ovr, inaccurate := b Qb.stl, test := b Qb.tst }

/-- How long before the boundary that opened the Milestone in progress the `j`-th newest stage-1 word refers to, four to a Milestone of
its own length. -/
def wordBack (s : State) (j : Nat) : Int :=
  (((s.prot.lens.drop 1).take (j / 4)).foldl (· + ·) 0 + j % 4 * s.prot.lens.getD (1 + j / 4) s.clk.len / 4 : Nat)

/-- Value of a lane at sample instant `t` (R207): the resampler over stage-1 words, whose newest lies at the boundary, at `t` plus
D_LOC, in T12 mode plus the lane's j/64 Milestone (R255); 0 where a word of the window has INV (R200), 0 and invalid while its chain is
stopped (R240); scaled by FS_PRIMARY to 1 mA or 10 mV; its quality is the lane word's (R209). A window no longer held gives a free value
(log entry 4). -/
def svPubValue (s : State) (l : Nat) (t : Int) : Int × Quality61850 :=
  let ch := chainSt s (l / 64)
  if laneSrc s l != 1 || !ch.running then (0, { validity := 1 })
  else
    let dloc : Int := roundOpen 34 (175 * gridLen s : Nat) 128
    let back := (s.clk.msTai : Int) - (t + dloc + (if ch.t12 then ((l % 64 * s.clk.len / 64 : Nat) : Int) else 0))
    let i := (findIdxBelow 16 (fun j => decide (back ≤ wordBack s j))).getD 16
    let w := ((laneSt s l).s1.drop (i - 2)).take 4
    let q := ((laneSt s l).words.getD 0 {}).q
    let inv := orQ w / 128 % 2 == 1
    let v := if w.length < 4 || i < 2 then Config.freeInt 29 [(l : Int), t]
      else if inv then 0
      else
        let span := max 1 (wordBack s i - wordBack s (i - 1))
        farrow (max 0 (min (span - 1) (wordBack s i - back))) span ((w.reverse).map (·.v))
    let fs : Int := laneFsPrimary s l
    (satZ 32 (roundOpen 35 (v * fs) (2 ^ 23 * (if l % 8 < 4 then 1 else 10))), pubQuality (q ||| (if inv then Qb.inv else 0)))

/-- SV_PUB_FRAME_TX (R207, R208): the next pair of samples whose words have been formed. -/
def execSvPubFrameTx (p : BitVec 3) (s : State) : Out :=
  .next (
    let i := p.toNat
    let b := svPubBytes s i
    let ports := sendPorts s (fld b 0 1 1)
    if !pubEn b || ports.isEmpty || s.mode.mode == .backup || s.mode.mode == .boot then s
    else
      let T : Int := ((secU 1 / 4800 : Nat) : Int)
      let delay : Int := roundOpen 34 (175 * gridLen s : Nat) 128 + ((s.clk.len / 2 : Nat) : Int)
      let newest := ((s.clk.msTai : Int) - delay) / T
      let start := match (s.net.svPubs.getD i {}).next with | some n => n | none => ((newest - 1) / 2 * 2).toNat
      if newest < (start + 1 : Nat) then s
      else
        let vals := [0, 1].map (fun j => (List.range 8).map (fun c =>
          svPubValue s (bitsOf (u16At b (0x10 + 2 * c)) 0 9) (((start + j : Nat) : Int) * T)))
        let synch := if notSynchronized s.time then 0 else 2
        let apdu := svApdu b (start % 4800) synch vals
        let tag := pubTag s (svPubAuth b) (svPubKey b) apdu
        let s := setNet (fun n => { n with svPubs := modAt n.svPubs i (fun x =>
          { x with next := some (start + 2), frames := inc x.frames, smpSynch := synch,
                   authFail := if svPubAuth b != 0 && tag.isNone then inc x.authFail else x.authFail }) }) s
        sendFrame (fld b 0 1 1) (.sv (pubHead s b (fld b 0 1 1) 0x88BA 0 tag) i (start % 4800) synch vals apdu) s)

/-! ### SV.STATS (R221) -/

def nsOf (x : Int) : Int := roundOpen 33 x uPerNs

def svStatsBlock (s : State) (k : Nat) : Bytes :=
  let x := svCtx s k
  let state := if !svEn s k then 0 else if !x.seen then 1 else if x.restarting then 5 else if svLossInv (streamBytes s k) x s.clk.mono then 4 else if x.sync then 2 else 3
  padTo 64 (
    leBytes 4 (state + place x.smpSynch 3 2 + place x.lastPort 5 1) ++ leBytes 4 x.frames ++
    [x.lost, x.heldCnt, x.late, x.early, x.authFail, x.confErr, x.dup, x.restarts].flatMap (leBytes 4) ++
    leBytes 4 (if x.transits.isEmpty then 0 else codeOf (satZ 32 (nsOf (svMeanTransit x))) 32) ++
    leBytes 4 (codeOf (satZ 32 (nsOf x.transitMax)) 32) ++ leBytes 4 (codeOf (satZ 32 (nsOf (x.marginMin.getD 0))) 32) ++
    leBytes 2 (x.last.getD 0) ++ leBytes 2 x.syncLosses)

def svPubStats (s : State) (i : Nat) : Bytes :=
  let x := s.net.svPubs.getD i {}
  let sending := pubEn x.block && !(sendPorts s (fld x.block 0 1 1)).isEmpty
  padTo 64 (leBytes 4 ((if sending then 2 else 0) + place x.smpSynch 3 2) ++ leBytes 4 x.frames ++ zeros 16 ++ leBytes 4 x.authFail ++
    zeros 24 ++ leBytes 2 (match x.next with | some n => (n + 4799) % 4800 | none => 0))

/-- SV_STATS (R221). -/
def execSvStats (c : Cmd) (s : State) : Out :=
  .next (command c
    (fun s => { absent := !(decide (c.unit < s.variant.svSubs) || (decide (0x0100 ≤ c.unit) && decide (c.unit < 0x0106))) })
    (fun s =>
      if c.unit < 0x0100 then
        .done { out := some (svStatsBlock s c.unit) } (if !returns c 64 s then s else setSv c.unit (fun x => { x with transitMax := 0, marginMin := none }) s)
      else .done { out := some (svPubStats s (c.unit - 0x0100)) } s) s)

end Sys2Proof.Machine
end

