-- ==== Sys2Proof/Machine/Goose.lean ====
section
/-! DEFINITION. GOOSE subscription: matching, checking and taking frames, input states, supervision and the snapshot
(R210-R215, R221). -/

namespace Sys2Proof.Machine

def gooseCtx (s : State) (k : Nat) : GooseCtx := s.net.goose.getD k {}
def setGoose (k : Nat) (f : GooseCtx → GooseCtx) (s : State) : State := setNet (fun n => { n with goose := modAt n.goose k f }) s

/-! ### Fields of the GOOSE part (R210) -/

def goEn (s : State) (k : Nat) : Bool := decide (k < s.variant.gooseSubs) && bitAt (streamBytes s k) 0 0 && bitAt (streamBytes s k) 4 1
def goMember (b : Bytes) (m : Nat) : Nat := fld b (0xA0 + 4 * m) 0 8
def goQMember (b : Bytes) (m : Nat) : Nat := fld b (0xA0 + 4 * m) 8 8
def goType (b : Bytes) (m : Nat) : Nat := fld b (0xA0 + 4 * m) 16 2
def goFail (b : Bytes) (m : Nat) : Nat := fld b (0xA0 + 4 * m) 18 2
def goMapped (b : Bytes) (m : Nat) : Bool := goMember b m != 0xFF

/-- The fields that match and check frames; with GO_EN, a change of them starts the context anew (log entry 26). -/
def goMatchFields (b : Bytes) : List Nat := [fld b 4 1 1, fld b 4 3 1, u64At b 0x80, u32At b 0x88, u32At b 0x8C, u32At b 0x90, u32At b 0x94]

def gooseEntryChanged (k : Nat) (old new : Bytes) (s : State) : State :=
  if goMatchFields old == goMatchFields new && bitAt old 0 0 == bitAt new 0 0 then s
  else setGoose k (fun x => { x with seen := false, expired := false, deadline := none, nds := false, inputs := List.replicate 16 {} }) s

/-! ### Taking a frame -/

/-- The context a frame belongs to (R211). -/
def goMatch (s : State) (f : GooseFrame) : Option Nat :=
  findIdxBelow s.variant.gooseSubs (fun k =>
    let b := streamBytes s k
    goEn s k && fld b 4 3 1 == f.head.port.toNat / 2 && leAt b 0x80 6 == f.head.dst.toNat && u16At b 0x86 == f.head.appid.toNat &&
      byteAt b 0x88 == f.gocbRef.length && u32At b 0x8C == (crc32c f.gocbRef).toNat &&
      byteAt b 0x89 == f.datSet.length && u32At b 0x90 == (crc32c f.datSet).toNat)

/-- Every mapped member has its type, and its quality member is a Quality (R211). -/
def goTypesOk (b : Bytes) (f : GooseFrame) : Bool :=
  (List.range 16).all (fun m =>
    !goMapped b m ||
    ((match f.members[goMember b m]? with
      | some (.bool _) => goType b m == 0
      | some (.dbpos _) => goType b m == 1
      | _ => false) &&
     (goQMember b m == 0xFF || match f.members[goQMember b m]? with | some (.quality _) => true | _ => false)))

/-- Input `m` as a new state gives it (R213). -/
def goInput (b : Bytes) (f : GooseFrame) (m : Nat) (old : GooseIn) : GooseIn :=
  if !goMapped b m then {}
  else
    let q : Quality61850 := match f.members[goQMember b m]? with
      | some (.quality q) => if goQMember b m == 0xFF then {} else q
      | _ => {}
    let (v, ok) : Bool × Bool := match f.members[goMember b m]? with
      | some (.bool v) => (v, true)
      | some (.dbpos d) => (d == 2, d == 1 || d == 2)
      | _ => (false, false)
    let valid := ok && q.validity == 0
    { value := v, valid := valid, test := q.test || f.head.sim, lastValid := if valid && !f.ndsCom then v else old.lastValid }

/-- The number after `x` where 2^32 - 1 wraps to 1 (R212). -/
def nextNum (x : Nat) : Nat := if x + 1 < 2 ^ 32 then x + 1 else 1

/-- `sq` lies beyond `last` on the circle that wraps from 2^32 - 1 to 1. -/
def beyond (sq last : Nat) : Bool :=
  let d := (sq + (2 ^ 32 - 1) - last) % (2 ^ 32 - 1)
  decide (0 < d ∧ d < 2 ^ 31)

/-- Supervision of a frame taken (R214). -/
def goSupervise (b : Bytes) (f : GooseFrame) (s : State) (x : GooseCtx) : GooseCtx :=
  { x with deadline := some ((rxStamp s f.head).toNat + msU (f.tal + u16At b 0x9C)), expired := false, nds := f.ndsCom, seen := true
           sqNum := f.sqNum.toNat, frames := inc x.frames, lastRx := s.clk.shortTime }

/-- A verified first copy: content checks and its state (R211, R212). -/
def goDeliver (k : Nat) (f : GooseFrame) (s : State) : State :=
  let b := streamBytes s k
  let x := gooseCtx s k
  if f.confRev.toNat != u32At b 0x94 || f.numEntries != byteAt b 0x8A || !goTypesOk b f then
    setGoose k (fun x => { x with confErr := inc x.confErr }) s
  else if !x.seen || f.stNum.toNat != x.stNum then
    let missed := x.seen && f.stNum.toNat != nextNum x.stNum
    setGoose k (fun x => goSupervise b f s { x with
      stNum := f.stNum.toNat, stMissed := if missed then inc x.stMissed else x.stMissed
      inputs := x.inputs.mapIdx (fun m i => goInput b f m i) }) s
  else if beyond f.sqNum.toNat x.sqNum then setGoose k (goSupervise b f s) s
  else setGoose k (fun x => { x with old := inc x.old }) s

/-- GOOSE_FRAME_RX (R183, R211-R213). -/
def execGooseFrameRx (f : GooseFrame) (s : State) : Out :=
  .next (match takeIn f.head s with
    | none => s
    | some s =>
      match goMatch s f with
      | none => countNoMatch f.head.port.toNat s
      | some k =>
        let b := streamBytes s k
        if !authAccepts s (fld b 0x98 0 2) (bitAt b 0x98 2) (fld b 0x98 8 5) (fld b 0x98 16 5) f.head.auth then
          setGoose k (fun x => { x with authFail := inc x.authFail }) s
        else
          let (first, s) := dedup f.head s
          if first then goDeliver k f s else setGoose k (fun x => { x with dup := inc x.dup }) s)

/-! ### Supervision and the snapshot (R213-R215) -/

/-- The deadline of context `k` passes. -/
def expireGoose (k : Nat) (s : State) : State :=
  countEvent 11 k (setGoose k (fun x => { x with expired := true, deadline := none, talExp := inc x.talExp }) s)

/-- GOOSE_TAL_EXPIRY (R214). -/
def execGooseTalExpiry (ctx : BitVec 8) (s : State) : Out :=
  .next (match (gooseCtx s ctx.toNat).deadline with
    | none => s
    | some d => settle (expireGoose ctx.toNat (setClk (·.advance d) s)))

/-- Input `m` of context `k` as it stands now: its FAIL value while it is invalid (R213). -/
def goInputNow (s : State) (k m : Nat) : GooseIn :=
  let b := streamBytes s k
  let x := gooseCtx s k
  let i := x.inputs.getD m {}
  if !goEn s k || !goMapped b m then { valid := false }
  else
    let valid := x.seen && !x.expired && !x.nds && i.valid
    { i with
      valid := valid
      value := if valid then i.value else match goFail b m with | 0 => false | 1 => true | _ => i.lastValid }

/-- The snapshot at a boundary (R215): deadlines already passed first. -/
def goSnapshot (s : State) : State :=
  let s := (List.range s.variant.gooseSubs).foldl (fun s k =>
    match (gooseCtx s k).deadline with
    | some d => if d ≤ s.clk.mono then expireGoose k s else s
    | none => s) s
  setNet (fun n => { n with snap := (List.range 256).map (fun k => (List.range 16).map (goInputNow s k)) }) s

/-! ### GOOSE.STATS (R221) -/

def goStatsBlock (s : State) (k : Nat) : Bytes :=
  let x := gooseCtx s k
  let state := if !goEn s k then 0 else if !x.seen then 1 else if x.expired then 3 else 2
  padTo 64 (leBytes 4 state ++ leBytes 4 x.stNum ++ leBytes 4 x.sqNum ++
    [x.frames, x.talExp, x.authFail, x.confErr, x.old, x.stMissed, x.dup].flatMap (leBytes 4) ++ leBytes 4 x.lastRx)

def goPubStats (s : State) (i : Nat) : Bytes :=
  let x := s.net.goosePubs.getD i {}
  let state := if !pubEn x.block then 0 else if x.sending then 2 else 1
  padTo 64 (leBytes 4 state ++ leBytes 4 x.stNum ++ leBytes 4 x.sqNum ++ leBytes 4 x.frames ++ zeros 4 ++ leBytes 4 x.authFail ++
    zeros 16 ++ leBytes 4 x.lastTx ++ leBytes 4 x.tripLatMax)

/-- GOOSE_STATS (R221). -/
def execGooseStats (c : Cmd) (s : State) : Out :=
  .next (command c
    (fun s => { absent := !(decide (c.unit < s.variant.gooseSubs) || (decide (0x0100 ≤ c.unit) && decide (c.unit < 0x0100 + s.variant.goosePubs))) })
    (fun s =>
      if c.unit < 0x0100 then .done { out := some (goStatsBlock s c.unit) } s
      else
        .done { out := some (goPubStats s (c.unit - 0x0100)) }
          (if !returns c 64 s then s else setNet (fun n => { n with goosePubs := modAt n.goosePubs (c.unit - 0x0100) (fun x => { x with tripLatMax := 0 }) }) s)) s)

end Sys2Proof.Machine
end

