-- ==== Sys2Proof/Machine/Meas.lean ====
section
/-! DEFINITION. Measurands of a bay in primary units: reported phasors, sequence components, harmonics and bands, frequency, RMS,
power and energy, thermal state (R258-R271). Phasors are integers in 2^-31 mA or mV. -/

namespace Sys2Proof.Machine

/-! ### Fields (R258) -/

def phrot (b : Bytes) : Bool := bitAt b 0x10 0
def vconn (b : Bytes) : Bool := bitAt b 0x10 1
def vxUse (b : Bytes) : Bool := bitAt b 0x10 2
def freqSrc (b : Bytes) : Nat := fld b 0x10 3 2
def freqSect (b : Bytes) : Nat := fld b 0x10 5 4
def dfdtWin (b : Bytes) : Nat := let w := fld b 0x10 11 3; if w == 0 then 2 else w
def thermIb (b : Bytes) : Nat := u32At b 0x14
def tauHeat (b : Bytes) : Nat := u16At b 0x18
def tauCool (b : Bytes) : Nat := u16At b 0x1A
def thK (b : Bytes) : Nat := u16At b 0x1C
def thInit (b : Bytes) : Nat := u16At b 0x1E

/-- Full scale of a lane in mA or mV (R259). -/
def laneFs (s : State) (l : Nat) : Nat :=
  if laneSrc s l == 2 then svFs (streamBytes s (laneStream (laneBytes s l))) (laneCh (laneBytes s l)) else laneFsPrimary s l

/-! ### Quality -/

/-- A quality has any bit of a mask. -/
def hasQ (q m : Nat) : Bool := (q &&& m) != 0

/-- INV, STL and OVR; INV and STL. -/
def qBad : Nat := Qb.inv + Qb.stl + Qb.ovr
def qStop : Nat := Qb.inv + Qb.stl

/-- A quantity as a bay of a behaviour takes it: test inputs are INV unless the bay is in test or test/blocked (R83). -/
def asInput (beh q : Nat) : Nat := if hasQ q Qb.tst && !testValid beh then q ||| Qb.inv else q

/-! ### Phasor arithmetic -/

def pScale (k : Int) (x : Phasor) : Phasor := { x with re := x.re * k, im := x.im * k }
def pAdd (x y : Phasor) : Phasor := { re := x.re + y.re, im := x.im + y.im, q := x.q ||| y.q }
def pSub (x y : Phasor) : Phasor := pAdd x (pScale (-1) y)
def magSq (x : Phasor) : Nat := (x.re * x.re + x.im * x.im).toNat

/-- An estimator phasor in primary units. -/
def primary (fs : Nat) (x : Phasor) : Phasor := pScale fs x

/-- A phasor turned by +120 or -120 degrees, in 2^-41 of its unit. -/
def turn120 (x : Phasor) (back : Bool) : Int × Int :=
  let r := if back then -sqrt3 else sqrt3
  (-(2 ^ 40) * x.re - r * x.im, -(2 ^ 40) * x.im + r * x.re)

/-- The sum x + a^k y + a^2k z of a sequence component, in 2^-41; PHROT exchanges a and a^2 (R262). -/
def seqSum (rot : Bool) (k : Nat) (x y z : Phasor) : Int × Int :=
  if k == 0 then ((x.re + y.re + z.re) * 2 ^ 41, (x.im + y.im + z.im) * 2 ^ 41)
  else
    let back := (k == 2) != rot
    let u := turn120 y back
    let w := turn120 z (!back)
    (x.re * 2 ^ 41 + u.1 + w.1, x.im * 2 ^ 41 + u.2 + w.2)

/-- Sequence component k of a star of phasors. -/
def seqComp (rot : Bool) (k : Nat) (x y z : Phasor) : Phasor :=
  let (a, b) := seqSum rot k x y z
  { re := a / (3 * 2 ^ 41), im := b / (3 * 2 ^ 41), q := x.q ||| y.q ||| z.q }

/-- V1 or V2 from phase-to-phase voltages: the sum over 3 sqrt 3 e^(+-j30) (R262). -/
def seqDelta (rot : Bool) (k : Nat) (x y z : Phasor) : Phasor :=
  let r : Int := if (k == 2) != rot then sqrt3 else -sqrt3
  let (a, b) := cmul (seqSum rot k x y z) (3 * 2 ^ 40, r)
  { re := a / (18 * 2 ^ 81), im := b / (18 * 2 ^ 81), q := x.q ||| y.q ||| z.q }

/-- I0, I1, I2 or V0, V1, V2 of eight lane phasors of a bay. -/
def seqI (b : Bytes) (k : Nat) (x : List Phasor) : Phasor := seqComp (phrot b) k (x.getD 0 {}) (x.getD 1 {}) (x.getD 2 {})
def seqV (b : Bytes) (k : Nat) (x : List Phasor) : Phasor :=
  if !vconn b then seqComp (phrot b) k (x.getD 4 {}) (x.getD 5 {}) (x.getD 6 {})
  else if k != 0 then seqDelta (phrot b) k (x.getD 4 {}) (x.getD 5 {}) (x.getD 6 {})
  else if vxUse b then {}
  else let v := x.getD 7 {}; { re := v.re / 3, im := v.im / 3, q := v.q }

/-- A magnitude, given squared in (2^-31 unit)^2, is below `num / den` of the RMS of full scale, FS / sqrt 2 (R259). -/
def belowFs (m fs num den : Nat) : Bool := decide (2 * m * den * den < num * num * fs * fs * 2 ^ 62)

/-! ### Reported phasors (R260) -/

/-- The window sums of the fine estimator, without its scale. -/
def estRaw (mode : Nat) (w : List TW) : Int × Int :=
  if mode == 0 then
    let f (g : Int × Int → Int) : Int := (w.take 96).foldl (fun a x => a + x.v * g (cosSin x.th)) 0
    (f (·.1), -(f (·.2)))
  else
    let a := cosSum w 0
    let b := cosSum w 24
    let (c, n) := cosSin (w.getD 95 {}).th
    ((a * c + b * n) / 2 ^ 40, (b * c - a * n) / 2 ^ 40)

/-- The words of a window for a unit phasor at `f` (1 or j), newest first, whose angle at the newest word is its grid angle. -/
def unitWords (f : Nat) (th0 : Int) (j : Bool) : Nat → List TW → List Nat → List TW
  | _, [], _ => []
  | t, w :: ws, ls =>
    let (c, n) := cosSin (th0 - ((f * t * 2 ^ 22 / secU 1 : Nat) : Int))
    { w with v := if j then -n else c } :: unitWords f th0 j (t + ls.headD 0) ws ls.tail

/-- The correction: the inverse of the real 2 by 2 map that the estimator window is at `f`. -/
def correctBy (mode f : Nat) (w : List TW) (lens : List Nat) (x : Phasor) : Phasor :=
  let th0 : Int := (w.getD 0 {}).th
  let win := w.take (if mode == 0 then 96 else 120)
  let c1 := estRaw mode (unitWords f th0 false 0 win (lens.drop 1))
  let c2 := estRaw mode (unitWords f th0 true 0 win (lens.drop 1))
  let det := c1.1 * c2.2 - c1.2 * c2.1
  if det = 0 then x
  else
    let k : Int := 48 * 2 ^ 80 * (if det < 0 then -1 else 1)
    { x with re := (x.re * c2.2 - x.im * c2.1) * k / det.natAbs, im := (c1.1 * x.im - c1.2 * x.re) * k / det.natAbs }

/-! ### Harmonics and bands (R263, R264) -/

/-- Phase delay of the factory minimum-phase set at harmonics 1 to 15 in 0.001 record slot (Table: Phase delay of the factory
minimum-phase set, interpolated). -/
def minPhaseDelay : List Nat := [8000, 8040, 8090, 8170, 8250, 8365, 8480, 8630, 8780, 8965, 9150, 9375, 9600, 9850, 10100]

/-- Turn, in 2^-48, by which the angle at harmonic h exceeds h times the stored word angle, which holds the set's delay at the
fundamental. -/
def harmTurn (ch : ChainSt) (set h : Nat) : Int :=
  if set == 0 then 0
  else if set == 1 then (h * (minPhaseDelay.getD (h - 1) 8000 - 8000) * 2 ^ 48 / 384000 : Nat)
  else
    let r := horner (stage3Coefs ch set) h 384
    let d : Int := (h * stage3Delay ch set * 2 ^ 48 / (384 * 256) : Nat)
    0 - angleOf r.2 r.1 - d

def respMag (c : List Int) (h per : Nat) : Nat := let r := horner c h per; isqrt (r.1 * r.1 + r.2 * r.2).toNat

/-- Gain of a lane's chain at harmonic h in 2^-40: stages 0, 1 and 3, an SV lane having stage 3 alone. -/
def chainGain (s : State) (l h : Nat) : Nat :=
  let ch := chainSt s (l / 64)
  let b := laneBytes s l
  let g3 := respMag (stage3Coefs ch (stg3Set b)) h 384 / 2 ^ 22
  if laneSrc s l == 2 then g3
  else
    let g0 := respMag cicTaps h 12288 / 2 ^ 16
    let g1 := respMag (stage1Coefs ch (stg1Set b)) h 768 / 2 ^ 22
    g3 * g0 / 2 ^ 40 * g1 / 2 ^ 40

/-- X_h of a lane in primary units, h = 2 to 15. -/
def harmonic (s : State) (l fs : Nat) (w : List TW) (h : Nat) : Int × Int :=
  let d := harmTurn (chainSt s (l / 64)) (stg3Set (laneBytes s l)) h
  let z := (w.take 96).foldl (fun (a : Int × Int) x => let (c, n) := cosSin ((h * x.th : Nat) - d); (a.1 + x.v * c, a.2 - x.v * n)) (0, 0)
  let g := chainGain s l h
  if g == 0 then (0, 0)
  else
    let f (x : Int) : Int := x * root2 * ((fs * 256 * 2 ^ 40 : Nat) : Int) / ((96 * 2 ^ 80 * g : Nat) : Int)
    (f z.1, f z.2)

/-- Grid angles of words, newest first, counted on without a wrap from the newest, which is `a`. -/
def unwrapped : Int → List TW → List Int
  | _, [] => []
  | a, [_] => [a]
  | a, x :: y :: ws => a :: unwrapped (a + wrapTurn ((y.th : Int) - (x.th : Int))) (y :: ws)

/-- One bin of the rectangular DFT over words at their grid angles: |sum|^2 at i f_grid / 10. -/
def binSq (w : List (Int × Int)) (i : Nat) : Nat :=
  let z := w.foldl (fun (a : Int × Int) (x : Int × Int) => let (c, n) := cosSin ((i : Int) * x.2 / 10); (a.1 + x.1 * c, a.2 - x.1 * n)) (0, 0)
  (z.1 * z.1 + z.2 * z.2).toNat

/-- Bands G1 to G8 squared, in (2^-31 mA)^2: the bins from (i + 0.2) to (i + 0.8) f_grid. -/
def bandsSq (fs : Nat) (w : List TW) : List Nat :=
  let w := w.take 960
  let x := (w.map (·.v)).zip (unwrapped (w.headD {}).th w)
  (List.range 8).map (fun i =>
    (List.range 7).foldl (fun a j => a + binSq x (10 * (i + 1) + 2 + j)) 0 * 2 * (fs * 256) ^ 2 / (960 ^ 2 * 2 ^ 80))

/-! ### One cycle's measurands -/

/-- Delay of a bay's lane words in 1/1024 unit of the clock (R239, Table: Path delays; Table: T12 delays). -/
def wordDelay (s : State) (b : Nat) : Nat :=
  let l := ((List.range 8).map (8 * b + ·)).find? (laneUsed s) |>.getD (8 * b)
  let gd := stage3Delay (chainSt s (clusterOf b)) (stg3Set (laneBytes s l))
  if (chainSt s (clusterOf b)).t12 then 1024 * frontDelay s l * uPerNs + 7936 * s.clk.len
  else 1024 * dAlign s b * uPerNs + 1280 * s.clk.len + gd * s.clk.len

/-- The lane whose word angles are the bay's. -/
def bayLane (s : State) (b : Nat) : Nat := ((List.range 8).map (8 * b + ·)).find? (laneUsed s) |>.getD (8 * b)

/-- The word of a lane. -/
def laneWord (s : State) (l : Nat) : QW := ((laneSt s l).words.getD 0 {}).word

/-- The reported phasors of bay b for its fine phasors `back` Milestones ago, corrected with the frequency of the previous
Milestone; its word angles repeat every 96 Milestones (R260). -/
def reported (s : State) (b : Nat) (h : MeasHist) (back : Nat) (fine : List Phasor) : List Phasor :=
  let fp := h.f.headD (0, Qb.inv)
  if hasQ fp.2 Qb.inv || fp.1 == s.grid.fGrid then fine
  else (List.range 8).map (fun k =>
    let l := 8 * b + k
    let x := fine.getD k {}
    if laneUsed s l then correctBy (fineMode (laneBytes s l)) fp.1 ((laneSt s l).words.drop back) (s.prot.lens.drop back) x else x)

/-- Phasors, words and harmonics of bay b in the Milestone in progress; frequency is added by `measFreq`. -/
def measure (s : State) (b : Nat) (h : MeasHist) : Meas :=
  let ls := (List.range 8).map (8 * b + ·)
  let fs := ls.map (laneFs s)
  let fine := ls.map (fun l => primary (laneFs s l) (laneFine s l))
  let rep := reported s b h 0 fine
  { ms := s.clk.ms, tq := tqByte s.time
    anaTai := s.clk.msTai - wordDelay s b / 1024, theta := ((laneSt s (bayLane s b)).words.getD 0 {}).th
    fs := fs, fine := fine, rep := rep
    fast := (List.range 4).map (fun k => ls.map (fun l => primary (laneFs s l) ((laneSt s l).fast.getD k {})))
    words := ls.map (laneWord s)
    taps := ls.map (fun l => ((lastTaps 4 (laneSt s l).tap).reverse).map (fun w => { v := w.v * laneFs s l, q := w.q }))
    rms := ls.map (fun l =>
      let w := lastTaps 96 (laneSt s l).words
      if !laneUsed s l then (0, Qb.inv) else (w.foldl (fun a x => a + x.v.natAbs ^ 2) 0, orTQ w))
    harm := ls.map (fun l =>
      (List.range 14).map (fun i => if laneUsed s l then harmonic s l (laneFs s l) (laneSt s l).words (i + 2) else (0, 0)))
    f := s.grid.fGrid, qst := boolBits (ls.map (plbMarked s)) }

/-! ### Frequency (R265, R266) -/

/-- Duration of the last `n` Milestones, the one in progress included. -/
def spanOf (s : State) (n : Nat) : Nat := (s.prot.lens.take n).foldl (· + ·) 0

/-- The phasor FREQ_SRC selects of eight reported phasors; `agreed` is that of FREQ_SECT. -/
def srcPhasor (b : Bytes) (rep : List Phasor) (agreed : Phasor) : Phasor :=
  match freqSrc b with
  | 0 => seqV b 1 rep
  | 1 => rep.getD 7 {}
  | 2 => seqI b 1 rep
  | _ => agreed

/-- The phasor FREQ_SRC selects with the full scale and the percentage its limit refers to; `agreed` is that of FREQ_SECT. -/
def freqPhasor (b : Bytes) (m : Meas) (agreed : Phasor × Nat) : Phasor × Nat × Nat :=
  let y := srcPhasor b m.rep agreed.1
  match freqSrc b with
  | 0 => (y, m.fs.getD 4 0, 10)
  | 1 => (y, m.fs.getD 7 0, 10)
  | 2 => (y, m.fs.getD 0 0, 2)
  | _ => (y, agreed.2, 10)

/-- Source code of the history: FREQ_SRC with its section. -/
def freqCode (b : Bytes) : Nat := freqSrc b + (if freqSrc b == 3 then 4 * freqSect b else 0)

/-- f and df/dt of the Milestone in progress, and the history with them. Y(n - 96) is taken with the correction of Milestone n:
with the one it was reported with, f would feed back into itself and never meet R272 (DEDUCED, log entry 67). -/
def measFreq (s : State) (b : Nat) (bb : Bytes) (agreed : Phasor × Nat) (m : Meas) (h : MeasHist) : Meas × MeasHist :=
  let (y, fs, pct) := freqPhasor bb m agreed
  let code := freqCode bb
  let old := h.y[95]?
  let t := spanOf s 96
  let f : Option (Nat × Nat) := match old with
    | some (c, ya) =>
      let y0 := { srcPhasor bb (reported s b h 96 (h.fine.getD 95 [])) ya with q := ya.q }
      let q := y.q ||| y0.q
      let f := (2 ^ 48 + wrapTurn (angleOf y.im y.re - angleOf y0.im y0.re)) * ((2 ^ 26 * secU 1 : Nat) : Int) / ((2 ^ 48 * (max t 1) : Nat) : Int)
      if c != code || hasQ q qBad || belowFs (magSq y) fs pct 100 || belowFs (magSq y0) fs pct 100 || f < 40 * 2 ^ 26 || 70 * 2 ^ 26 < f then
        none
      else some (f.toNat, q)
    | none => none
  let now : Nat × Nat := match f with
    | some x => x
    | none => (s.grid.fGrid, y.q ||| (match old with | some o => o.2.q | none => 0) ||| Qb.inv)
  let w := 96 * dfdtWin bb
  let was := h.f.getD (w - 1) (s.grid.fGrid, Qb.inv)
  let dq := now.2 ||| was.2
  let d : Int := ((now.1 : Int) - was.1) * (secU 1 : Nat) / (max (spanOf s w) 1 : Nat)
  ({ m with f := now.1, fQ := now.2, dfdt := d, dfQ := dq },
   { h with y := ((code, y) :: h.y).take 96, fine := (m.fine :: h.fine).take 96, f := (now :: h.f).take 672 })

/-! ### Power, energy and thermal state (R268, R269, R271) -/

/-- V times the conjugate of I. -/
def vi (v i : Phasor) : Int × Int := (v.re * i.re + v.im * i.im, v.im * i.re - v.re * i.im)

/-- Three-phase complex power in 2^-62 µW, and its quality. -/
def power3 (b : Bytes) (x : List Phasor) : (Int × Int) × Nat :=
  let p (k : Nat) : Phasor := x.getD k {}
  if !vconn b then
    let a := vi (p 4) (p 0)
    let c := vi (p 5) (p 1)
    let d := vi (p 6) (p 2)
    ((a.1 + c.1 + d.1, a.2 + c.2 + d.2), (p 0).q ||| (p 1).q ||| (p 2).q ||| (p 4).q ||| (p 5).q ||| (p 6).q)
  else
    let a := vi (p 6) (p 0)
    let c := vi (p 5) (p 1)
    ((c.1 - a.1, c.2 - a.2), (p 0).q ||| (p 1).q ||| (p 5).q ||| (p 6).q)

/-- The four accumulators with the energy of one Milestone of duration d added. -/
def addEnergy (d : Nat) (pq : (Int × Int) × Nat) (e : List Nat) : List Nat :=
  if hasQ pq.2 (Qb.inv + Qb.tst) then e
  else
    let add (i : Nat) (x : Int) (e : List Nat) : List Nat := modAt e (if 0 ≤ x then i else i + 1) (· + x.natAbs * d / 2 ^ 62)
    add 2 pq.1.2 (add 0 pq.1.1 e)

/-- I_th squared of a phase: harmonics 1 to 15. -/
def thermSq (m : Meas) (k : Nat) : Nat :=
  magSq (m.rep.getD k {}) + (m.harm.getD k []).foldl (fun a x => a + (x.1 * x.1 + x.2 * x.2).toNat) 0

/-- The thermal state one Milestone of duration d later, in 2^-64, and its quality. -/
def thermStep (b : Bytes) (d : Nat) (m : Meas) (h : MeasHist) : MeasHist :=
  let ib := thermIb b
  if ib == 0 then { h with thQ := Qb.inv }
  else
    let i2 := max (thermSq m 0) (max (thermSq m 1) (thermSq m 2))
    let q := (m.rep.getD 0 {}).q ||| (m.rep.getD 1 {}).q ||| (m.rep.getD 2 {}).q
    if hasQ q Qb.inv then { h with thQ := q }
    else
      let r : Int := i2 * 100 * 4 / (max ((thK b * ib) ^ 2) 1)
      let tau := if 16 * ib * ib * 2 ^ 62 ≤ i2 then tauHeat b else tauCool b
      let th : Int := (h.th : Int) + (r - h.th) * (d : Int) / ((secU (max tau 1) : Nat) : Int)
      { h with th := (max 0 (min (10 * 2 ^ 64) th)).toNat, thQ := q }

/-- The bands at the end of a cycle frame. -/
def bandStep (s : State) (b : Nat) (h : MeasHist) : MeasHist :=
  let qs := (List.range 4).map (fun j => orTQ (lastTaps 960 (laneSt s (8 * b + j)).words))
  { h with
    bands := (List.range 4).map (fun j => bandsSq (laneFs s (8 * b + j)) (laneSt s (8 * b + j)).words), bandQs := qs
    bandQ := qs.foldl (· ||| ·) 0 }

end Sys2Proof.Machine
end

