-- ==== Sys2Proof/Machine/Plaus.lean ====
section
/-! DEFINITION. The plausibility model: topology of the bus sections, residuals and bounds, lasting faults and episodes, agreed
voltage, blocking (R273-R281). -/

namespace Sys2Proof.Machine

/-! ### What a cycle leaves for its release -/

def stageItem (c : Nat) (i : StagedItem) (s : State) : State := setProt (fun p => { p with staged := p.staged ++ [(c, i)] }) s

/-- A record of the protection cycle in progress, with that Milestone's time, for the release of a cluster's outputs. -/
def stageEvent (c src code unit : Nat) (data : Bytes) (s : State) : State :=
  stageItem c (.event (mkEventAt s s.clk.msTai src code unit data)) s

/-! ### Sections and their members (R279, R280) -/

def sectHome (b : Bytes) : Nat := fld b 4 0 2
def kirEn (b : Bytes) : Bool := bitAt b 4 2
def vagEn (b : Bytes) : Bool := bitAt b 4 3
def memberBit (b : Bytes) (off m : Nat) : Bool := bitsOf (u64At b off) m 1 == 1

/-- The active cluster a section's work is charged to. -/
def sectHomeCluster (s : State) (k : Nat) : Nat := if s.variant.clusters ≤ 2 * sectHome (sectionBytes s k) then 0 else 2 * sectHome (sectionBytes s k)

/-- Key under which a section's events are staged: 8 + its home cluster, after that cluster's bays (R390). -/
def sectCluster (s : State) (k : Nat) : Nat := 8 + sectHomeCluster s k

/-- Released logic output `i` of a bay. -/
def logicOut (s : State) (b i : Nat) : Bool := (bayProt s b).logic.rel.getD i false

/-- A bay that releases logic outputs: enabled, present, and its cluster not out of service. -/
def releasesLogic (s : State) (b : Nat) : Bool :=
  bayEn s b && (match s.mode.clusters.getD (clusterOf b) .outOfService with | .outOfService => false | _ => true)

/-- Connected members of section k in the Milestone in progress, as a mask. -/
def connectedMask (s : State) (k : Nat) : Nat :=
  maskOf s.variant.bays (fun b => memberBit (sectionBytes s k) 8 b && releasesLogic s b && logicOut s b (48 + k))

def inMask (m b : Nat) : Bool := bitsOf m b 1 == 1
def maskList (m : Nat) : List Nat := (List.range 64).filter (inMask m)

def isConnected (s : State) (k b : Nat) : Bool := inMask (sectRun s k).conn b

/-- Sections of an enabled entry while protection runs. -/
def sections (s : State) : List Nat := (List.range 16).filter (sectionEn s)

/-- The cycle's view of a member: its measurands when its cluster runs it. -/
def memberMeas (s : State) (b : Nat) : Option Meas := if clusterOk s (clusterOf b) && (bayRun s b).ran then some (bayRun s b).meas else none

/-! ### One check (R274-R277) -/

inductive ChkEv where
  | exceed
  | lasting
  | cleared
  | episode (peak peakB cnt folded : Nat) (rec_ : Bool)
  deriving DecidableEq, Repr

/-- A count that reaches PLB_N makes the fault lasting (R275). -/
def chkLasting (pn : Nat) (c : Chk) : Chk × List ChkEv :=
  if !c.last && decide (pn ≤ c.win.length) then ({ c with last := true, ep := false }, [.lasting]) else (c, [])

/-- PLB_W evaluated Milestones without an exceedance clear it (R276). -/
def chkCleared (pw : Nat) (c : Chk) : Chk × List ChkEv :=
  if c.last && decide (pw ≤ c.streak) then ({ c with last := false, win := [], streak := 0 }, [.cleared]) else (c, [])

/-- An episode ends after PLB_W Milestones without an exceedance (R277). -/
def chkEpisode (n mono pw : Nat) (c : Chk) : Chk × List ChkEv :=
  if c.ep && decide (c.lastExc + pw ≤ n) then
    let due := match c.recAt with | none => true | some t => decide (t + secU 60 ≤ mono)
    ({ c with ep := false, recAt := if due then some mono else c.recAt, folded := if due then 0 else c.folded + 1 },
     [.episode c.peak c.peakB c.cnt c.folded due])
  else (c, [])

/-- One evaluation of a check in Milestone n. -/
def chkStep (n mono pn pw : Nat) (susp : Bool) (r b member : Nat) (c : Chk) : Chk × List ChkEv :=
  let x := !susp && decide (b < r)
  let win := (if x then [n] else []) ++ c.win
  let win := win.filter (fun m => decide (n < m + pw))
  let c := { c with win := win, r := r, b := b, exc := x, susp := susp, member := if x then member else c.member }
  if x then
    let c := { c with lastExc := n, streak := 0 }
    let c := if !c.ep && !c.last then { c with ep := true, peak := r, peakB := b, cnt := 0 } else c
    let c := if c.ep then { c with cnt := c.cnt + 1, peak := max c.peak r, peakB := if c.peak < r then b else c.peakB } else c
    let (c, e) := chkLasting pn c
    (c, .exceed :: e)
  else
    let (c, e1) := chkCleared pw { c with streak := if susp then 0 else c.streak + 1 }
    let (c, e2) := chkEpisode n mono pw c
    (c, e1 ++ e2)

/-- A measured value in A or V: binary32 of a quantity in 2^-31 of mA or mV. -/
def measured (x : Nat) : Bytes := leBytes 4 (f32 x (1000 * 2 ^ 31))

/-- The events of a check staged: records of SOURCE PLB and the totals of monitored source 12 (R275-R277, R530). -/
def stageChk (cl code ph unit : Nat) (c : Chk) (evs : List ChkEv) (s : State) : State :=
  let head := dCode code ++ dCode ph ++ dUnit (if code == 4 then c.member else 0xFFFF)
  evs.foldl (fun s e => match e with
    | .exceed => stageItem cl (.monitored 12 unit) s
    | .lasting => stageItem cl (.declare 12 unit c.win.length) (stageEvent cl Src.plb 1 unit (head ++ measured c.r ++ measured c.b) s)
    | .cleared => stageEvent cl Src.plb 2 unit head s
    | .episode p pb n f rec_ =>
      let s := stageItem cl (.episode 12 unit) s
      if rec_ then stageEvent cl Src.plb 3 unit (head ++ measured p ++ measured pb ++ dCount n ++ dCount f) s else s) s

/-- PLB_N and PLB_W of an entry. -/
def plbN (b : Bytes) : Nat := let x := u16At b 0x28; if x == 0 then 96 else x
def plbW (b : Bytes) : Nat := let x := u16At b 0x2A; if x == 0 then 480 else x
/-- FD_I in 2^-31 mA; none disables suspension by current. -/
def fdI (b : Bytes) : Option Nat := let x := u16At b 0x2C; if x == 0 then none else some (x * 1000 * 2 ^ 31)

/-- Contributing qualities that suspend a check. -/
def qSuspends (qs : List Nat) : Bool :=
  qs.any (fun q => hasQ q qBad) || (qs.any (fun q => hasQ q Qb.tst) && !qs.all (fun q => hasQ q Qb.tst))

def fdHeld (n : Nat) (m : Option Nat) : Bool := match m with | some x => decide (n < x + 192) | none => false

def mag (x : Phasor) : Nat := isqrt (magSq x)

/-! ### Bay checks -/

def inEn (b : Bytes) : Bool := bitAt b 0x10 9
def vxEn (b : Bytes) : Bool := bitAt b 0x10 10

/-- The two checks of a running bay in Milestone n. -/
def bayChecks (b : Nat) (s : State) : State :=
  let bb := bayBytes s b
  let x := bayRun s b
  let n := s.clk.ms
  let p (k : Nat) : Phasor := x.meas.fine.getD k {}
  let q (k : Nat) : Nat := asInput (effBeh s b) (p k).q
  let imax := max (mag (p 0)) (max (mag (p 1)) (mag (p 2)))
  let fd := match fdI bb with | some i => if i < imax then some n else x.fdMs | none => x.fdMs
  let s := setRun b (fun r => { r with fdMs := fd }) s
  let run (k : Nat) (abs_ rel big : Nat) (c : Chk) : Chk × List ChkEv :=
    let sum := pAdd (p k) (pAdd (p (k + 1)) (p (k + 2)))
    let res := mag (pSub (p (k + 3)) sum)
    chkStep n s.clk.mono (plbN bb) (plbW bb) (qSuspends [q k, q (k + 1), q (k + 2), q (k + 3)] || fdHeld n fd) res (abs_ + rel * big / 1000) 0xFFFF c
  let s := if !inEn bb then s
    else
      let (c, e) := run 0 (u16At bb 0x20 * 100 * 2 ^ 31) (u16At bb 0x22) imax x.inChk
      stageChk (clusterOf b) 1 3 b c e (setRun b (fun r => { r with inChk := c }) s)
  if !vxEn bb then s
  else
    let vmax := max (mag (p 4)) (max (mag (p 5)) (mag (p 6)))
    let (c, e) := run 4 (u16At bb 0x24 * 1000 * 2 ^ 31) (u16At bb 0x26) vmax x.vxChk
    stageChk (clusterOf b) 2 3 b c e (setRun b (fun r => { r with vxChk := c }) s)

/-- Source 12 clears when no check of the instance is lasting any more. -/
def clear12 (cl unit : Nat) (lasting : Bool) (s : State) : State :=
  if !lasting && (isLasting s 12 unit) then stageItem cl (.clear 12 unit) s else s

/-! ### Topology -/

/-- A check acts in the Milestone in progress as the one before left it, on these lanes. -/
def startChk (lanes : List Nat) (c : Chk) : Chk := { c with act := c.last, lanes := lanes }

/-- What opens a cycle: the connected set of each section and the checks that act. -/
def sectTopology (s : State) : State :=
  (sections s).foldl (fun s k =>
    let m := connectedMask s k
    setSect k (fun r =>
      { r with
        ran := true, ms := s.clk.ms, conn := m
        topoMs := if r.topoMs.isNone || r.conn != m then some s.clk.ms else r.topoMs
        kir := r.kir.mapIdx (fun p c => startChk ((maskList m).map (8 * · + p)) c)
        vag := { r.vag with act := r.vag.last } }) s) s

def bayChkStart (b : Nat) (s : State) : State :=
  setRun b (fun r => { r with inChk := startChk ((List.range 4).map (8 * b + ·)) r.inChk,
                              vxChk := startChk ((List.range 4).map (8 * b + 4 + ·)) r.vxChk }) s

/-! ### Section checks (R273, R274, R281) -/

/-- The sign s_b. -/
def sgn (inv : Bool) (x : Phasor) : Phasor := if inv then pScale (-1) x else x

/-- Signed sum, sum of magnitudes and qualities of phase p over the connected members. -/
def kirSums (s : State) (k p : Nat) : Phasor × Nat × List Nat :=
  (maskList (sectRun s k).conn).foldl (fun (a : Phasor × Nat × List Nat) b =>
    match memberMeas s b with
    | none => (a.1, a.2.1, Qb.inv :: a.2.2)
    | some m =>
      let x := m.fine.getD p {}
      let y := sgn (memberBit (sectionBytes s k) 0x10 b) x
      ({ a.1 with re := a.1.re + y.re, im := a.1.im + y.im }, a.2.1 + mag x, asInput (effBeh s b) x.q :: a.2.2)) ({ q := 0 }, 0, [])

def topoHold (b : Bytes) : Nat := let x := u16At b 0x26; if x == 0 then 192 else x

def topoHeld (s : State) (k : Nat) : Bool :=
  match (sectRun s k).topoMs with | some m => decide (s.clk.ms < m + topoHold (sectionBytes s k)) | none => true

/-- The Kirchhoff check of a section, phase by phase. -/
def kirChecks (k : Nat) (s : State) : State :=
  let bb := sectionBytes s k
  let n := s.clk.ms
  let sums := (List.range 3).map (kirSums s k)
  let fd := match fdI bb with
    | some i => if sums.any (fun x => decide (i < x.2.1)) then some n else (sectRun s k).fdMs
    | none => (sectRun s k).fdMs
  let held := topoHeld s k || fdHeld n fd
  let s := setSect k (fun r => { r with fdMs := fd }) s
  if !kirEn bb then s
  else
    (List.range 3).foldl (fun s p =>
      let x := sums.getD p ({}, 0, [])
      let (c, e) := chkStep n s.clk.mono (plbN bb) (plbW bb) (held || qSuspends x.2.2) (mag x.1)
        (u16At bb 0x20 * 100 * 2 ^ 31 + u16At bb 0x22 * x.2.1 / 1000) 0xFFFF ((sectRun s k).kir.getD p {})
      stageChk (sectCluster s k) 3 p (0x0100 + k) c e (setSect k (fun r => { r with kir := modAt r.kir p (fun _ => c) }) s)) s

/-- Connected members with VMEMBERS whose V1 is usable, with V1. -/
def usableV (s : State) (k : Nat) : List (Nat × Phasor) :=
  (maskList (sectRun s k).conn).filterMap (fun b =>
    match memberMeas s b with
    | none => none
    | some m =>
      let v := seqV (bayBytes s b) 1 m.rep
      let v := { v with q := asInput (effBeh s b) v.q }
      if memberBit (sectionBytes s k) 0x18 b && !hasQ v.q qBad then some (b, v) else none)

def insertMag (x : Nat × Phasor) : List (Nat × Phasor) → List (Nat × Phasor)
  | [] => [x]
  | y :: ys => if magSq x.2 ≤ magSq y.2 then x :: y :: ys else y :: insertMag x ys

/-- The member of median magnitude, the lower-numbered bay on a tie, and so between the two middle ones of an even number. `l` is in
the order of the bays. -/
def medianV (l : List (Nat × Phasor)) : Option (Nat × Phasor) :=
  let o := l.foldr insertMag []
  let h := o.length / 2
  let mid := (o.drop (if o.length % 2 == 1 then h else h - 1)).take (if o.length % 2 == 1 then 1 else 2)
  l.find? (fun x => mid.any (fun y => magSq x.2 == magSq y.2))

def meanV (l : List (Nat × Phasor)) : Phasor :=
  let t := l.foldl (fun a x => pAdd a x.2) { q := 0 }
  let n : Int := max l.length 1
  { re := t.re / n, im := t.im / n, q := if l.isEmpty then Qb.inv else t.q }

/-- Voltage agreement and the agreed voltage of a section. -/
def agreeVoltage (k : Nat) (s : State) : State :=
  let bb := sectionBytes s k
  let l := usableV s k
  let fs := match l with | [] => 0 | x :: _ => laneFs s (8 * x.1 + 4)
  if !vagEn bb then setSect k (fun r => { r with agreed := meanV l, agreedFs := fs, disagree := 0 }) s
  else
    let n := s.clk.ms
    let ref := (medianV l).getD (0, {})
    let bound := u16At bb 0x24 * mag ref.2 / 1000
    let res := l.map (fun x => (x.1, mag (pSub x.2 ref.2)))
    let far := res.filter (fun x => decide (bound < x.2))
    let bad : List Nat := if l.length == 2 && !far.isEmpty then l.map (·.1) else far.map (·.1)
    let worst := res.foldl (fun (a : Nat × Nat) x => if a.2 < x.2 then x else a) (0xFFFF, 0)
    let susp := decide (l.length < 2) || qSuspends (l.map (·.2.q)) || topoHeld s k || fdHeld n (sectRun s k).fdMs
    let (c, e) := chkStep n s.clk.mono (plbN bb) (plbW bb) susp worst.2 bound worst.1 (sectRun s k).vag
    let c := if c.exc then { c with lanes := (bad.map (fun b => [8 * b + 4, 8 * b + 5, 8 * b + 6])).flatten } else c
    let good := l.filter (fun x => !bad.contains x.1)
    let v := meanV (if good.isEmpty then l else good)
    let v := if c.act && l.length == 2 then { v with q := v.q ||| Qb.qst } else v
    stageChk (sectCluster s k) 4 3 (0x0100 + k) c e
      (setSect k (fun r => { r with agreed := v, agreedFs := fs, vag := c, disagree := if l.length < 2 then 0 else maskOf 64 (fun b => bad.contains b) }) s)

/-! ### Blocking (R278) -/

/-- The plausibility blocking mask that acts on a bay. -/
def bayMask (s : State) (b : Nat) : Nat :=
  let x := bayRun s b
  let bb := bayBytes s b
  let own := (if x.inChk.act then byteAt bb 0x2E else 0) ||| (if x.vxChk.act then byteAt bb 0x2F else 0)
  (sections s).foldl (fun a k =>
    let r := sectRun s k
    let sb := sectionBytes s k
    if inMask r.conn b then
      a ||| (if r.kir.any (·.act) then byteAt sb 0x2E else 0) ||| (if r.vag.act then byteAt sb 0x2F else 0)
    else a) own

/-- 87B of a section is blocked by the model: its own checks with bit 6, or a bay check of a connected member. -/
def sectBlocked (s : State) (k : Nat) : Bool :=
  let r := sectRun s k
  let sb := sectionBytes s k
  (r.kir.any (·.act) && bitsOf (byteAt sb 0x2E) 6 1 == 1) || (r.vag.act && bitsOf (byteAt sb 0x2F) 6 1 == 1) ||
  (maskList r.conn).any (fun b =>
    let x := bayRun s b
    (x.inChk.act && bitsOf (byteAt (bayBytes s b) 0x2E) 6 1 == 1) || (x.vxChk.act && bitsOf (byteAt (bayBytes s b) 0x2F) 6 1 == 1))

/-- A lasting plausibility fault marks a lane of the bay. -/
def plbLasting (s : State) (b : Nat) : Bool := (List.range 8).any (fun k => plbMarked s (8 * b + k))

/-! ### Changes of the fields of a check (R274, R276) -/

def bayChkFields (b : Bytes) (vx : Bool) : List Nat :=
  [fld b 0 0 1, fld b 0x10 (if vx then 10 else 9) 1, u32At b (if vx then 0x24 else 0x20), u32At b 0x28, u16At b 0x2C,
   byteAt b (if vx then 0x2F else 0x2E)]

/-- An instance of source 12 loses its state when the fields of its last lasting check change. -/
def drop12 (unit : Nat) (lasting : Bool) (s : State) : State := if lasting then s else resetInst 12 unit s

def plbBayChanged (b : Nat) (old new : Bytes) (s : State) : State :=
  let i := bayChkFields old false != bayChkFields new false
  let v := bayChkFields old true != bayChkFields new true
  let s := setRun b (fun r => { r with inChk := if i then {} else r.inChk, vxChk := if v then {} else r.vxChk }) s
  if i || v then drop12 b ((bayRun s b).inChk.last || (bayRun s b).vxChk.last) s else s

def sectChkFields (b : Bytes) (vag : Bool) : List Nat :=
  [fld b 0 0 1, fld b 4 0 2, u64At b 8, u16At b 0x26, u32At b 0x28, u16At b 0x2C] ++
  (if vag then [fld b 4 3 1, u64At b 0x18, u16At b 0x24, byteAt b 0x2F] else [fld b 4 2 1, u64At b 0x10, u32At b 0x20, byteAt b 0x2E])

def plbSectChanged (k : Nat) (old new : Bytes) (s : State) : State :=
  let i := sectChkFields old false != sectChkFields new false
  let v := sectChkFields old true != sectChkFields new true
  let s := setSect k (fun r => { r with topoMs := none, kir := if i then [{}, {}, {}] else r.kir, vag := if v then {} else r.vag }) s
  if i || v then drop12 (0x0100 + k) ((sectRun s k).kir.any (·.last) || (sectRun s k).vag.last) s else s

end Sys2Proof.Machine
end

