-- ==== Sys2Proof/Machine/Stages.lean ====
section
/-! DEFINITION. Stages 0 to 24 of a bay: quantities, pickup and dropout, definite time, blocking, directional decisions (R283,
R290-R298). Pickups are kept in 2^-32 of mA, mV, mHz or mHz/s. -/

namespace Sys2Proof.Machine

/-! ### Setting groups (R284, R287) -/

/-- The setting-group block in force. -/
def grpBytes (s : State) (b : Nat) : Bytes := (s.tbl.group.getD (6 * b + (bayProt s b).group) {}).bytes
/-- Group g of a bay is present (R285). -/
def groupPresent (s : State) (b g : Nat) : Bool := u64At (bayBytes s b) (0x48 + 8 * g) != 0 && bitAt (s.tbl.group.getD (6 * b + g) {}).bytes 0 0

def recBytes (g : Bytes) (i : Nat) : Bytes := (g.drop (0x40 + 64 * i)).take 64

def gNsrc (g : Bytes) : Bool := bitAt g 4 0
def gVnsrc (g : Bytes) : Bool := bitAt g 4 1
def gIntCarry (g : Bytes) : Bool := bitAt g 4 2
def gBtrip (g : Bytes) : Bool := bitAt g 4 3
def gBfBus (g : Bytes) : Bool := bitAt g 4 4
/-- LIVE_I in 2^-31 mA. -/
def gLiveI (g : Bytes) : Nat := (let x := u16At g 8; if x == 0 then 100 else x) * 100 * 2 ^ 31
def gDeadV (g : Bytes) : Nat := let x := u16At g 0xA; if x == 0 then 200 else x
def gVminF (g : Bytes) : Nat := let x := u16At g 0xC; if x == 0 then 500 else x

/-! ### The context of one bay's cycle -/

structure BCtx where
  bb : Bytes
  g : Bytes
  beh : Nat
  n : Nat
  tOpen : Nat
  tRel : Nat
  m : Meas
  /-- the last six record-tap words of lanes 0-3 in primary units, newest first -/
  taps : List (List QW)
  /-- blocked element indices, apart from inrush -/
  blk : Nat := 0
  /-- phases that inrush blocks -/
  inr : List Bool := [false, false, false]
  cb : Bool
  clp : Bool := false
  sotf : Bool := false
  vmem : Option (Int × Int × Nat) := none
  /-- a cycle frame ends in this Milestone and has not been closed -/
  frame : Bool := false

def BCtx.d (c : BCtx) : Nat := c.tRel - c.tOpen
def BCtx.x (c : BCtx) (l : List Phasor) : List Phasor := l.map (fun p => { p with q := asInput c.beh p.q })

def res3I0 (c : BCtx) (x : List Phasor) : Phasor := if gNsrc c.g then pAdd (x.getD 0 {}) (pAdd (x.getD 1 {}) (x.getD 2 {})) else x.getD 3 {}
def res3V0 (c : BCtx) (x : List Phasor) : Phasor := if gVnsrc c.g then pAdd (x.getD 4 {}) (pAdd (x.getD 5 {}) (x.getD 6 {})) else x.getD 7 {}

/-- Full scale of lane VA, to which the voltage percentages refer. -/
def BCtx.fsV (c : BCtx) : Nat := c.m.fs.getD 4 0

/-! ### Directional decisions (R296-R298) -/

/-- A decision: 0 undetermined, 1 forward, 2 reverse; and whether the polarising quantity is missing. -/
def direction (u : Bytes) (rca : Int) (fsV : Nat) (iop vpol : Phasor) (turnV : Int) : Nat × Bool :=
  let missing := hasQ vpol.q qStop || belowFs (magSq vpol) fsV (u16At u 0xA) 1000
  if missing || hasQ iop.q qStop || decide (magSq iop < (u16At u 8 * 100 * 2 ^ 31) ^ 2) then (0, missing)
  else
    let d := wrapTurn (angleOf iop.im iop.re - (angleOf vpol.im vpol.re + turnV) + rca * 2 ^ 48 / 3600)
    if d.natAbs * 360 ≤ 87 * 2 ^ 48 then (1, false) else if 93 * 2 ^ 48 ≤ d.natAbs * 360 then (2, false) else (0, false)

/-- V1 or its memory, and whether the memory is used (R297). -/
def polV1 (c : BCtx) (u : Bytes) (x : List Phasor) : Phasor × Bool :=
  let v := seqV c.bb 1 x
  match c.vmem with
  | some (re, im, t) =>
    if (hasQ v.q qStop || belowFs (magSq v) c.fsV (u16At u 0xA) 1000) && decide (c.tOpen ≤ t + msU (u16At u 0xC)) then
      ({ re := re, im := im, q := 0 }, true)
    else (v, false)
  | none => (v, false)

/-- Decisions A, B, C, Q and N on the phasors of a path. -/
def decisions (c : BCtx) (x : List Phasor) : List (Nat × Bool) :=
  let p := (c.g.drop 0x680).take 64
  let q := (c.g.drop 0x6C0).take 64
  let i2 := seqI c.bb 2 x
  let v2 := pScale (-1) (seqV c.bb 2 x)
  let v1 := (polV1 c p x).1
  let third : Int := if phrot c.bb then 2 ^ 48 / 3 else -(2 ^ 48 / 3)
  let abc : List (Nat × Bool) :=
    if bitAt p 0 1 then List.replicate 3 (direction p (s16At p 4) c.fsV i2 v2 0)
    else [direction p (s16At p 4) c.fsV (x.getD 0 {}) v1 0, direction p (s16At p 4) c.fsV (x.getD 1 {}) v1 third,
          direction p (s16At p 4) c.fsV (x.getD 2 {}) v1 (-third)]
  let pOn := bitAt p 0 0 && !inMask c.blk 25
  let nOn := bitAt q 0 0 && !inMask c.blk 26
  (if pOn then abc ++ [direction p (s16At p 6) c.fsV i2 v2 0] else List.replicate 4 (0, false)) ++
  [if !nOn then (0, false)
   else if bitAt q 0 1 then direction q (s16At q 4) c.fsV i2 v2 0
   else direction q (s16At q 4) c.fsV (res3I0 c x) (pScale (-1) (res3V0 c x)) 0]

/-! ### Quantities (R290, R293, R294) -/

inductive Qty where
  /-- a magnitude, squared, in (2^-31 unit)^2, with its quality and the full scale OVR raises it to (0 none) -/
  | sq (m q fs : Nat)
  /-- a signed value in 2^-32 mHz or mHz/s -/
  | lin (v : Int) (q : Nat)
  deriving DecidableEq, Repr

def Qty.q : Qty → Nat
  | .sq _ q _ => q
  | .lin _ q => q

def isPhaseI (i : Nat) : Bool := i ≤ 2 || i == 8 || i == 9
def isRes (i : Nat) : Bool := (3 ≤ i && i ≤ 5) || i == 10 || i == 11
def isNeg (i : Nat) : Bool := i == 6 || i == 7 || i == 12
def isCurve (i : Nat) : Bool := 8 ≤ i && i ≤ 12

def recEn (r : Bytes) : Bool := bitAt r 0 0
def recPath (r : Bytes) : Nat := fld r 0 1 2
def recDir (r : Bytes) : Nat := fld r 0 3 2
def recAdapt (r : Bytes) : Bool := bitAt r 0 5
def recInrBlk (r : Bytes) : Bool := bitAt r 0 6
def recClp (r : Bytes) : Bool := bitAt r 0 7
def recTrip (r : Bytes) : Bool := bitAt r 0 8
def recBfInit (r : Bytes) : Bool := bitAt r 0 9
def recArInit (r : Bytes) : Bool := bitAt r 0 10
def recSotf (r : Bytes) : Bool := bitAt r 0 11
def recOpt (r : Bytes) : Nat := fld r 0 12 2
def recCbBlk (r : Bytes) : Bool := bitAt r 0 14
def recPickup (r : Bytes) : Nat := u32At r 4
def recTd (r : Bytes) : Nat := u32At r 0xC
def recResetT (r : Bytes) : Nat := u32At r 0x10

/-- The condition is met below the pickup: 27, and 81 with OPT 0. -/
def isUnder (i opt : Nat) : Bool := i == 13 || i == 14 || (19 ≤ i && i ≤ 22 && opt == 0)

/-- Quantities of stage i on phasors of a path, one or one per phase. -/
def quantities (c : BCtx) (i : Nat) (r : Bytes) (x : List Phasor) : List Qty :=
  let opt := recOpt r
  let ph (k fs : Nat) : Qty := let y : Phasor := x.getD k {}; .sq (magSq y) y.q fs
  let one (y : Phasor) (fs : Nat) : Qty := .sq (magSq y) y.q fs
  if isPhaseI i then [ph 0 (c.m.fs.getD 0 0), ph 1 (c.m.fs.getD 1 0), ph 2 (c.m.fs.getD 2 0)]
  else if isRes i then [one (res3I0 c x) (c.m.fs.getD (if gNsrc c.g then 0 else 3) 0)]
  else if isNeg i then [one (seqI c.bb 2 x) 0]
  else if i ≤ 16 then if opt ≤ 1 then [ph 4 0, ph 5 0, ph 6 0] else [one (seqV c.bb (if opt == 2 then 1 else 2) x) 0]
  else if i ≤ 18 then [one (res3V0 c x) 0]
  else if i ≤ 22 then [.lin (c.m.f * 64000 : Nat) (asInput c.beh c.m.fQ)]
  else
    let d := c.m.dfdt * 64000
    [.lin (if opt == 0 then -d else if opt == 1 then d else d.natAbs) (asInput c.beh c.m.dfQ)]

/-- Sine of pi / 192 in 2^-40. -/
def sinSlot : Int := (cosSin (2 ^ 48 / 384)).2

/-- Amplitude estimate of R293 at slot `j` back from the newest word, as Q squared in (2^-31 unit)^2. -/
def sampleQty (w : List QW) (j fs beh : Nat) : Qty :=
  let a := w.getD j {}
  let b := w.getD (j + 1) {}
  let d := w.getD (j + 2) {}
  let dx := (a.v - d.v) * 2 ^ 39
  .sq (((b.v * b.v + dx * dx / (sinSlot * sinSlot)) * 2 ^ 15).toNat) (asInput beh (a.q ||| b.q ||| d.q)) fs

/-- Word-by-word sum of IA, IB and IC. -/
def tapSum (t : List (List QW)) : List QW :=
  let add (a b : QW) : QW := { v := a.v + b.v, q := a.q ||| b.q }
  List.zipWith add (List.zipWith add (t.getD 0 []) (t.getD 1 [])) (t.getD 2 [])

/-- Quantities of the sample-sequence path at slot `k`, 0 the oldest of the Milestone. -/
def sampleQtys (c : BCtx) (i k : Nat) : List Qty :=
  let fs (l : Nat) : Nat := c.m.fs.getD l 0
  if i ≤ 2 then (List.range 3).map (fun l => sampleQty (c.taps.getD l []) (3 - k) (fs l) c.beh)
  else if gNsrc c.g then [sampleQty (tapSum c.taps) (3 - k) (fs 0) c.beh] else [sampleQty (c.taps.getD 3 []) (3 - k) (fs 3) c.beh]

/-- The value OVR raises a quantity to. -/
def Qty.raised : Qty → Qty
  | .sq m q fs => if hasQ q Qb.ovr && fs != 0 then .sq (max m (fs * fs * 2 ^ 61)) q fs else .sq m q fs
  | x => x

/-! ### Levels (R291) -/

/-- The condition against an effective pickup P. -/
def qtyMet (under : Bool) (p : Nat) : Qty → Bool
  | .sq m _ _ => if under then decide (4 * m ≤ p * p) else decide (p * p ≤ 4 * m)
  | .lin v _ => if under then decide (v ≤ p) else decide ((p : Int) ≤ v)

/-- DO of a record with its default. -/
def recDo (i : Nat) (r : Bytes) : Nat :=
  let x := u16At r 8
  if x != 0 then x else if i == 13 || i == 14 then 1030 else if i ≤ 18 then 970 else 20

/-- Beyond the dropout level. -/
def qtyBeyond (under : Bool) (p do_ : Nat) : Qty → Bool
  | .sq m _ _ => if under then decide ((do_ * p) * (do_ * p) < 4 * m * 1000000) else decide (4 * m * 1000000 < (do_ * p) * (do_ * p))
  | .lin v _ => if under then decide ((p + do_ * 2 ^ 32 : Nat) < v) else decide (v < (p : Int) - (do_ * 2 ^ 32 : Nat))

/-! ### One evaluation (R291, R294, R298) -/

/-- What one evaluation finds of a phase. -/
structure Ev where
  met : Bool
  beyond : Bool
  bad : Bool
  /-- beyond because of direction -/
  dir : Bool
  deriving DecidableEq, Repr

/-- The decision a stage's phase uses: A, B, C, then Q or N. -/
def decIndex (i p : Nat) : Nat := if isPhaseI i then p else if isRes i then 4 else 3

def evOf (c : BCtx) (i : Nat) (r : Bytes) (p : Nat) (dec : List (Nat × Bool)) (k : Nat) (x : Qty) : Ev :=
  let y := x.raised
  let under := isUnder i (recOpt r)
  let d := dec.getD (decIndex i k) (0, false)
  let nvOp := bitAt c.g (if isRes i then 0x6C0 else 0x680) 2
  let wrong := recDir r != 0 && d.1 != recDir r && !(d.2 && nvOp)
  { met := qtyMet under p y && !wrong, beyond := wrong || qtyBeyond under p (recDo i r) y, bad := hasQ x.q qStop, dir := wrong }

/-- Pickup and dropout counts of one phase. -/
def phaseStep (puN doN : Nat) (e : Ev) (up : Bool) (a b : Nat) : Bool × Nat × Nat :=
  if e.bad then (false, 0, 0)
  else if e.met then (up || decide (puN ≤ a + 1), min (a + 1) 15, 0)
  else if e.beyond then (up && decide (b + 1 < doN), 0, min (b + 1) 15)
  else (up, 0, 0)

/-- A stage at reset values; what the curve status remembers and the adapted value stay. -/
def resetStage (x : StageSt) : StageSt :=
  { puMs := x.puMs, h96 := x.h96, opOfs := x.opOfs, a := x.a, target := x.target, adFlags := x.adFlags, eff := x.eff }

/-- Evaluation counts of a path: pickup and dropout (R291). -/
def pathCounts (path : Nat) : Nat × Nat := match path with | 0 => (1, 1) | 1 => (2, 2) | _ => (2, 4)

/-- One evaluation of a stage: its phases, then its own pickup state and pickup instant. -/
def evalOnce (c : BCtx) (i : Nat) (r : Bytes) (pblk : List Bool) (evs : List Ev) (x : StageSt) : StageSt :=
  let (puN, doN) := pathCounts (recPath r)
  let off : Ev := { met := false, beyond := false, bad := true, dir := false }
  let res := evs.mapIdx (fun k e =>
    phaseStep puN doN (if pblk.getD k false then off else e) (x.ph.getD k false) (x.cntPu.getD k 0) (x.cntDo.getD k 0))
  let ph := res.map (·.1)
  let allReq := (13 ≤ i && i ≤ 16) && recOpt r == 1
  let up := if allReq then ph.all id else ph.any id
  let onDir := evs.zipIdx.any (fun e => e.1.dir && x.ph.getD e.2 false && !ph.getD e.2 false)
  let badNow := evs.zipIdx.any (fun e => e.1.bad && !pblk.getD e.2 false)
  let y := { x with ph := ph, cntPu := res.map (·.2.1), cntDo := res.map (·.2.2), qb := evs.mapIdx (fun k e => e.bad && !pblk.getD k false) }
  if up && !x.pu then
    let t := if !isCurve i && decide (c.tOpen < x.heldTo) then c.tOpen - x.held else c.tOpen
    { y with pu := true, tPu := t, held := 0, puMs := some c.n, h96 := 0xFFFFFFFF, opOfs := 0xFFFFFFFF, dirReset := false }
  else if x.pu && !up then
    { y with pu := false, dirReset := onDir, held := if badNow || isCurve i then 0 else c.tOpen - x.tPu
             heldTo := c.tOpen + usU (recResetT r) }
  else if !up && badNow then { y with held := 0 }
  else y

/-! ### Effective pickup (R291, R301, R339) -/

def clamp (lo hi x : Nat) : Nat := min (max x lo) hi

/-- Bounds in force of an adaptive stage, 2^-32 mA; and whether they are the cold-load ones. -/
def adaptBounds (r : Bytes) (clp : Bool) : Nat × Nat :=
  if recClp r && clp then (u32At r 0x30 * 2 ^ 32, u32At r 0x34 * 2 ^ 32) else (u32At r 0x28 * 2 ^ 32, u32At r 0x2C * 2 ^ 32)

def clpMult (g : Bytes) : Nat := u16At g 0x988

/-- PICKUP, or PICKUP × MULT under cold-load pickup. -/
def fixedPickup (g r : Bytes) (clp : Bool) : Nat :=
  if recClp r && clp then recPickup r * clpMult g * 2 ^ 32 / 100 else recPickup r * 2 ^ 32

def effPickup (c : BCtx) (r : Bytes) (x : StageSt) : Nat :=
  if recAdapt r then
    let (lo, hi) := adaptBounds r c.clp
    clamp lo hi (x.a.getD (recPickup r * 2 ^ 32))
  else fixedPickup c.g r c.clp

/-! ### Blocking (R278, R295, R300) -/

/-- Element indices a plausibility mask blocks (Table: Plausibility blocking mask). -/
def maskElements (m : Nat) : Nat :=
  let grp (b : Nat) (l : List Nat) : Nat := if inMask m b then maskOf 36 (fun i => l.contains i) else 0
  grp 0 [3, 4, 5, 10, 11, 26] ||| grp 1 [6, 7, 12, 27] ||| grp 2 [17, 18] ||| grp 3 [13, 14, 15, 16] ||| grp 4 [25] |||
  grp 5 [19, 20, 21, 22, 23, 24]

/-- A stage blocked as a whole. -/
def stageBlocked (c : BCtx) (i : Nat) (r : Bytes) : Bool :=
  inMask c.blk i || ((i == 13 || i == 14) && recCbBlk r && !c.cb) ||
  (19 ≤ i && (hasQ (asInput c.beh c.m.fQ) Qb.inv || belowFs (magSq (seqV c.bb 1 c.m.rep)) c.fsV (gVminF c.g) 1000)) ||
  (recInrBlk r && i ≤ 12 && !isPhaseI i && c.inr.any id) ||
  (recInrBlk r && isPhaseI i && c.inr.all id)

def phaseBlocks (c : BCtx) (i : Nat) (r : Bytes) : List Bool :=
  if recInrBlk r && isPhaseI i then c.inr else [false, false, false]

/-- The evaluations of a stage in a cycle, oldest first, each one per phase. -/
def stageEvals (c : BCtx) (i : Nat) (r : Bytes) (p : Nat) : List (List Ev) :=
  let mk (dec : List (Nat × Bool)) (qs : List Qty) : List Ev :=
    let evs := qs.mapIdx (fun k q => evOf c i r p dec k q)
    if (i == 8 || i == 9) && evs.any (·.bad) then evs.map (fun e => { e with bad := true }) else evs
  let dec (x : List Phasor) : List (Nat × Bool) := if recDir r == 0 then [] else decisions c x
  match recPath r with
  | 0 => let x := c.x c.m.fine; [mk (dec x) (quantities c i r x)]
  | 1 => (List.range 4).map (fun k => let x := c.x (c.m.fast.getD k []); mk (dec x) (quantities c i r x))
  | _ => (List.range 4).map (fun k => mk [] (sampleQtys c i k))

/-- Elapsed definite time in 0.1 %. -/
def progress (td t0 t1 : Nat) : Nat := if td == 0 then 1000 else min 1000 ((t1 - t0) * 1000 / usU td)

/-- A picked-up stage operates when its delay has elapsed at the release boundary, or in the SOTF window (R292, R302). -/
def stageDue (c : BCtx) (r : Bytes) (x : StageSt) : Bool := x.pu && (decide (x.tPu + usU (recTd r) ≤ c.tRel) || (c.sotf && recSotf r))

def stageOperate (c : BCtx) (r : Bytes) (x : StageSt) : StageSt :=
  let op := stageDue c r x
  { x with op := op, opAbc := if op then boolBits x.ph else 0, prog := if x.pu then progress (recTd r) x.tPu c.tRel else 0 }

/-- The held elapsed time ends with RESET_T. -/
def heldEnd (now : Nat) (x : StageSt) : StageSt := if x.held != 0 && decide (x.heldTo ≤ now) then { x with held := 0 } else x

/-- A definite-time stage in one cycle (R291, R292); a stage of the SOTF window operates at pickup (R302). -/
def definiteStage (c : BCtx) (i : Nat) (r : Bytes) (x : StageSt) : StageSt :=
  let p := effPickup c r x
  if !recEn r then { resetStage x with eff := 0 }
  else if stageBlocked c i r then { resetStage x with blk := true, eff := p }
  else
    let x := (stageEvals c i r p).foldl (fun x e => evalOnce c i r (phaseBlocks c i r) e x) { heldEnd c.tOpen x with blk := false, eff := p }
    stageOperate c r { x with qblk := x.qb.any id }

end Sys2Proof.Machine
end

