-- ==== Sys2Proof/Machine/Curves.lean ====
section
/-! DEFINITION. Inverse-time stages 8 to 12: the multiple M, the curves, the integrator H and its reset (R319-R334). -/

namespace Sys2Proof.Machine

/-! ### Fields (R319) -/

def recCurve (r : Bytes) : Nat := fld r 0xC 0 4
def recRst (r : Bytes) : Nat := fld r 0xC 4 2
def recTms (r : Bytes) : Nat := u16At r 0xE
def recMmax (r : Bytes) : Nat := let x := u16At r 0x14; if x == 0 then 2000 else x
def recTmin (r : Bytes) : Nat := u32At r 0x18

/-- 1.0 of the integrator. -/
def hOne : Nat := 2 ^ 30

/-- The user slot a CURVE value names. -/
def curveSlot (s : State) (b : Nat) (k : Nat) : Bytes := (s.prot.curves.getD (b / 32) []).getD (k - 8) []

/-- TR in 0.01 s: the stage's, or the curve's default (Table: Curve constants). -/
def recTr (slot r : Bytes) : Nat :=
  let x := u16At r 0x16
  if x != 0 then x
  else match recCurve r with
    | 0 => 1000 | 1 => 4000 | 2 => 6000 | 3 => 12000 | 4 => 485 | 5 => 2160 | 6 => 2910
    | _ => u16At slot 2

/-! ### Operate time (R320, R328) -/

/-- k, alpha in 0.01 and c of a standard curve, k and c in 0.0001. -/
def curveConst (k : Nat) : Nat × Nat × Nat :=
  match k with
  | 0 => (1400, 2, 0) | 1 => (135000, 100, 0) | 2 => (800000, 200, 0) | 3 => (1200000, 100, 0)
  | 4 => (515, 2, 1140) | 5 => (196100, 200, 4910) | _ => (282000, 200, 1217)

/-- M^alpha - 1 in 2^-64, M in 2^-16. -/
def powLess1 (m alpha : Nat) : Nat :=
  if alpha == 100 then m * 2 ^ 48 - 2 ^ 64
  else if alpha == 200 then m * m * 2 ^ 32 - 2 ^ 64
  else exp2Fix (log2Fix m (2 ^ 16) * 2 / 100) - 2 ^ 64

def ptM (slot : Bytes) (i : Nat) : Nat := u32At slot (0x10 + 8 * i)
def ptT (slot : Bytes) (i : Nat) : Nat := u32At slot (0x14 + 8 * i)
def npts (slot : Bytes) : Nat := fld slot 0 0 6

/-- Operate time of a user curve at M in 2^-64 µs: log-log interpolation between the points; not defined below the first. -/
def userTime (slot : Bytes) (m : Nat) : Option Nat :=
  let n := npts slot
  if m < ptM slot 0 then none
  else match findIdxBelow (n - 1) (fun i => decide (m < ptM slot (i + 1))) with
    | none => some (ptT slot (n - 1) * 2 ^ 64)
    | some i =>
      let l0 := log2Fix (ptM slot i) (2 ^ 16)
      let l1 := log2Fix (ptM slot (i + 1)) (2 ^ 16)
      let t0 := log2Fix (ptT slot i) 1
      let t1 := log2Fix (ptT slot (i + 1)) 1
      some (exp2Fix (t0 + (log2Fix m (2 ^ 16) - l0) * (t1 - t0) / (l1 - l0)))

/-- Operate time at TMS = 1 as a quotient of seconds; none at M of 1 or below, or below a user curve. -/
def curveTime (slot : Bytes) (k m : Nat) : Option (Nat × Nat) :=
  if m ≤ 2 ^ 16 then none
  else if 8 ≤ k then (userTime slot m).map (fun t => (t, 2 ^ 64 * 1000000))
  else
    let (a, al, c) := curveConst k
    let x := powLess1 m al
    if x == 0 then none else some (a * 2 ^ 64 + c * x, x * 10000)

/-- The M used for timing: limited to MMAX. -/
def timingM (r : Bytes) (m : Nat) : Nat := min m (recMmax r * 2 ^ 16 / 100)

/-- T_M in µs. -/
def curveTM (slot r : Bytes) (m : Nat) : Nat :=
  match curveTime slot (recCurve r) (timingM r m) with
  | none => 0xFFFFFFFF
  | some (a, b) => satN 32 (roundOpen 43 (recTms r * a * 1000 : Nat) b).toNat

/-! ### The multiple M (R321) -/

/-- Q over P in 2^-16, saturating. The last bit's rounding is left open (log entry 3). -/
def multiple (msq p : Nat) : Nat :=
  let x := 4 * msq * 2 ^ 32
  let d := p * p
  if d == 0 then 65535 * 2 ^ 16
  else
    let m := isqrt (x / d)
    min (65535 * 2 ^ 16) (if m * m * d == x then m else if Config.roundUp 41 (x : Nat) d then m + 1 else m)

/-- M and the phase that set it: the largest over the phases picked up, or over all that take part. -/
def stageM (pblk ph : List Bool) (p : Nat) (qs : List Qty) : Nat × Nat :=
  let val : Qty → Nat | .sq m _ _ => m | .lin _ _ => 0
  let all := (qs.mapIdx (fun k q => (k, q))).filter (fun x => !pblk.getD x.1 false && !hasQ x.2.q qStop)
  let up := all.filter (fun x => ph.getD x.1 false)
  let use := if up.isEmpty then all else up
  match use with
  | [] => (0, 0)
  | x :: xs =>
    let best := xs.foldl (fun a y => if val a.2.raised < val y.2.raised then y else a) x
    (multiple (val best.2.raised) p, best.1)

/-! ### The integrator (R323-R325) -/

/-- H one Milestone of duration `d` later while the stage is picked up. -/
def integrate (slot r : Bytes) (d m h : Nat) : Nat :=
  match curveTime slot (recCurve r) (timingM r m) with
  | none => h
  | some (a, b) =>
    min hOne (h + min hOne (divRoundAway (d * 2 ^ 30 * b * 1000 : Nat) (max 1 (secU 1 * recTms r * a))).toNat)

/-- H one Milestone later in inverse reset, M_r from M. -/
def runDown (slot r : Bytes) (d m h : Nat) : Nat :=
  let one := 65536 * 10000
  let x := min (m * 10000) (9999 * 65536)
  h - (divRoundAway (d * (one * one - x * x) * 2 ^ 30 * 100000 : Nat) (max 1 (secU 1 * recTms r * recTr slot r * (one * one)))).toNat

/-- The reset characteristic of a stage that is not picked up (R325). -/
def curveReset (c : BCtx) (slot r : Bytes) (m : Nat) (wasUp : Bool) (x : StageSt) : StageSt :=
  let x := if wasUp then { x with rstAt := some c.tOpen } else x
  let m := if x.dirReset || !c.cb then 0 else m
  let h :=
    if recRst r == 2 then runDown slot r c.d m x.h
    else if recRst r == 1 then (match x.rstAt with | some t => if t + usU (recResetT r) ≤ c.tRel then 0 else x.h | none => 0)
    else 0
  { x with h := h, phase := if h == 0 then 0 else 3, rstAt := if h == 0 then none else x.rstAt }

/-- H_96 noted in the 96th cycle after pickup (R334). -/
def note96 (n : Nat) (x : StageSt) : StageSt := match x.puMs with | some p => if n == p + 96 then { x with h96 := x.h } else x | none => x

/-- Operation of a stage whose integrator is full, once TMIN has passed (R324). -/
def curveOut (c : BCtx) (r : Bytes) (wasOp : Bool) (x : StageSt) : StageSt :=
  let full := x.pu && x.h == hOne
  let op := full && decide (x.tPu + usU (recTmin r) ≤ c.tRel)
  let x := { x with op := op, tminWait := full && !op, opAbc := if op then boolBits x.ph else 0, prog := min 1000 (x.h * 1000 / 2 ^ 30) }
  match x.puMs with | some n0 => if op && !wasOp then { x with opOfs := (c.n - n0) % 2 ^ 32 } else x | none => x

/-- The end of a definite reset time clears the integrator (R325). -/
def curveResetEnd (r : Bytes) (now : Nat) (x : StageSt) : StageSt :=
  match x.rstAt with
  | some t => if recRst r == 1 && !x.pu && decide (t + usU (recResetT r) ≤ now) then { x with h := 0, phase := 0, rstAt := none } else x
  | none => x

/-- An inverse-time stage in one cycle. -/
def curveStage (c : BCtx) (slot : Bytes) (i : Nat) (r : Bytes) (x : StageSt) : StageSt :=
  let p := effPickup c r x
  if !recEn r then { resetStage x with eff := 0 }
  else if stageBlocked c i r then note96 c.n { resetStage x with blk := true, eff := p }
  else
    let was := x.pu
    let wasOp := x.op
    let pblk := phaseBlocks c i r
    let x := (stageEvals c i r p).foldl (fun x e => evalOnce c i r pblk e x) { x with blk := false, eff := p }
    let qblk := x.qb.any id
    let (m, k) := stageM pblk x.ph p (quantities c i r (c.x c.m.fine))
    let x := { x with m := m, mPh := if isPhaseI i then k else 3, qblk := qblk, below := false, tminWait := false }
    if qblk then note96 c.n { x with h := 0, phase := 0, rstAt := none, op := false, opAbc := 0, prog := 0 }
    else
      let t := curveTime slot (recCurve r) (timingM r m)
      let x :=
        if x.pu then
          { x with h := integrate slot r c.d m x.h, rstAt := none, phase := if t.isSome then 1 else 2
                   below := t.isNone && decide (2 ^ 16 < timingM r m) }
        else curveReset c slot r m was x
      note96 c.n (curveOut c r wasOp x)

/-- Stage i of a bay in the cycle. -/
def runStage (s : State) (b : Nat) (c : BCtx) (i : Nat) (x : StageSt) : StageSt :=
  let r := recBytes c.g i
  if isCurve i then curveStage c (curveSlot s b (recCurve r)) i r x else definiteStage c i r x

/-! ### Status (R334) -/

def curveStatus (slot r : Bytes) (x : StageSt) : Bytes :=
  leBytes 4 x.h ++ leBytes 4 x.m ++ leBytes 4 (if recEn r then curveTM slot r x.m else 0xFFFFFFFF) ++ leBytes 4 x.h96 ++
  leBytes 8 (x.puMs.getD 0) ++ leBytes 4 x.opOfs ++
  leBytes 4 (x.phase + place (flag (x.h == hOne)) 2 1 + place (flag x.tminWait) 3 1 + place (flag x.below) 4 1 +
    place (flag x.dirReset) 5 1 + place x.mPh 8 2)

/-! ### CURVE.LOAD (R328-R330) -/

/-- First offending offset of a user curve block. -/
def curveBad (b : Bytes) : Option Nat :=
  let n := npts b
  blockRange ([(n < 2 || 32 < n || fld b 0 6 10 != 0, 0), (u16At b 2 == 0, 0), (u32At b 4 != 0, 4), (u32At b 8 != 0, 8), (u32At b 0xC != 0, 0xC)] ++
    (List.range 32).flatMap (fun i =>
      let m := ptM b i
      let t := ptT b i
      if n ≤ i then [(m != 0, 0x10 + 8 * i), (t != 0, 0x14 + 8 * i)]
      else
        [(decide (40 * 65536 < m) || (if i == 0 then decide (m < 0x1028F) else decide (m ≤ ptM b (i - 1))), 0x10 + 8 * i),
         (decide (t < 1000) || decide (3600000000 < t) || (i != 0 && decide (ptT b (i - 1) < t)), 0x14 + 8 * i)]))

/-- Compute dies of the variant. -/
def dieCount (v : Variant) : Nat := if 32 < v.bays then 2 else 1

def curveDies (s : State) (u : Nat) : List Nat := if u == 0x00FF then List.range (dieCount s.variant) else [u]

/-- A cached group block of a bay on the die has an enabled 51 stage that names the slot. -/
def slotNamed (s : State) (die slot : Nat) : Bool :=
  ((List.range 32).map (32 * die + ·)).any (fun b =>
    (List.range 6).any (fun g =>
      groupPresent s b g &&
      (List.range 5).any (fun j =>
        let r := recBytes (s.tbl.group.getD (6 * b + g) {}).bytes (8 + j)
        recEn r && recCurve r == 8 + slot)))

/-- CURVE_LOAD (R329). -/
def execCurveLoad (c : Cmd) (s : State) : Out :=
  .next (command c (fun s => { absent := c.unit != 0x00FF && decide (dieCount s.variant ≤ c.unit), used := [(0x14, 0, 2)] }) (fun s =>
    let slot := c.at_ 0x14 0 2
    match readBlock c 272 s with
    | .error r => .done r s
    | .ok b =>
      match curveBad b with
      | some o => .done (Reply.range o) s
      | none =>
        if s.mode.mode.runs && (curveDies s c.unit).any (fun d => slotNamed s d slot) then .done (Reply.fail St.locked 0) s
        else
          let s := setProt (fun p => { p with curves := (curveDies s c.unit).foldl (fun l d => modAt l d (fun x => modAt x slot (fun _ => b))) p.curves }) s
          .done { result := (crc32c b).toNat, effect := some s.clk.ms } s) s)

end Sys2Proof.Machine
end

