-- ==== Sys2Proof/Machine/Elements.lean ====
section
/-! DEFINITION. The elements of a bay beside its stages: inrush, cold-load pickup, SOTF, directional memory, 46BC, 49, 50BF, 79, HIF
and the fault locator (R296-R308). -/

namespace Sys2Proof.Machine

/-! ### The context of a bay's cycle -/

/-- EBLK0-EBLK35 of a bay's released logic outputs (R288). -/
def eblkMask (s : State) (b : Nat) : Nat := maskOf 36 (logicOut s b)
def arBlkIn (s : State) (b : Nat) : Bool := logicOut s b 37
def bfExtIn (s : State) (b : Nat) : Bool := logicOut s b 38

def bayCtx (s : State) (b : Nat) : BCtx :=
  let x := bayRun s b
  { bb := bayBytes s b, g := grpBytes s b, beh := effBeh s b, n := s.clk.ms, tOpen := s.clk.openedAt, tRel := s.clk.openedAt + s.clk.len
    m := x.meas
    taps := (List.range 4).map (fun k => (lastTaps 6 (laneSt s (8 * b + k)).tap).map (fun w => { v := w.v * laneFs s (8 * b + k), q := w.q }))
    cb := logicOut s b 36, vmem := x.el.vmem, frame := s.clk.ms % 96 == 95 && x.frameMs != some s.clk.ms }

/-- Phases at or above LIVE_I; a phase without a usable value counts as below. -/
def livePhases (c : BCtx) : List Bool :=
  ((c.x c.m.fine).take 3).map (fun p => !hasQ p.q qStop && decide (gLiveI c.g ^ 2 ≤ magSq p))

/-! ### Directional memory (R297) -/

def memStep (c : BCtx) (e : Elems) : Elems :=
  let u := (c.g.drop 0x680).take 64
  let v := seqV c.bb 1 (c.x c.m.fine)
  if bitAt u 0 0 && !bitAt u 0 1 && !belowFs (magSq v) c.fsV (u16At u 0xA) 1000 && !hasQ v.q qBad then
    { e with vmem := some (v.re, v.im, c.tOpen) }
  else e

/-- Decisions of the fine path and the use of the memory, for status and logic. -/
def dirStep (c : BCtx) (e : Elems) : Elems :=
  let x := c.x c.m.fine
  let u := (c.g.drop 0x680).take 64
  { e with dirs := (decisions c x).map (·.1), memUse := bitAt u 0 0 && !bitAt u 0 1 && (polV1 c u x).2 }

/-! ### Inrush (R300) -/

def inrRatio (g : Bytes) : Nat := let x := u16At g 0x944; if x == 0 then 150 else x
def inrWin (g : Bytes) : Nat := let x := u16At g 0x946; if x == 0 then 120 else x

/-- INRUSH_p, the window, and the phases the detector blocks; EBLK32 holds it at reset values. -/
def inrushStep (c : BCtx) (e : Elems) : Elems :=
  let g := c.g
  let live := livePhases c
  let any := live.any id
  let opens := any && decide (96 ≤ e.below)
  let below := if any then 0 else e.below + 1
  let at_ := if opens then some c.n else e.winAt
  let off := !bitAt g 0x940 0 || inMask c.blk 32
  if off then { e with below := below, winAt := none, win := false, ratioMs := [none, none, none], inrush := [false, false, false], inrBlk := [false, false, false] }
  else
    let win := match at_ with | some m => decide (c.n < m + inrWin g) | none => false
    let cond (p : Nat) : Bool :=
      let h := (c.m.harm.getD p []).getD 0 (0, 0)
      live.getD p false && decide (inrRatio g ^ 2 * magSq (c.m.rep.getD p {}) ≤ 1000000 * (h.1 * h.1 + h.2 * h.2).toNat)
    let rms := e.ratioMs.mapIdx (fun p m => if cond p then some c.n else m)
    let hold := rms.map (fun m => match m with | some x => decide (c.n ≤ x + u16At g 0x94C) | none => false)
    let bits := hold.map (· || win)
    let bits := if bitAt g 0x940 1 && bits.any id then [true, true, true] else bits
    let imax := u32At g 0x948
    let big := imax != 0 && (c.m.fine.take 3).any (fun p => decide ((imax * 2 ^ 31) ^ 2 ≤ magSq p))
    { e with below := below, winAt := if win then at_ else none, win := win, ratioMs := rms, inrush := bits
             inrBlk := if big then [false, false, false] else bits }

/-! ### Cold-load pickup (R301) -/

def clpStep (c : BCtx) (e : Elems) : Elems :=
  let g := c.g
  if inMask c.blk 33 then { e with deadSince := none, dead := false, clpAt := none, clp := false }
  else
    let any := (livePhases c).any id
    let deen := e.dead || (match e.deadSince with | some t => decide (t + secU (u16At g 0x984) ≤ c.tOpen) | none => false)
    let starts := any && deen
    let since := if any then none else some (e.deadSince.getD c.tOpen)
    let at_ := if starts && bitAt g 0x980 0 then some c.tOpen else e.clpAt
    let act := bitAt g 0x980 0 && (match at_ with | some t => decide (c.tOpen < t + secU (u16At g 0x986)) | none => false)
    { e with deadSince := since, dead := deen && !any, clpAt := if act then at_ else none, clp := act }

/-! ### SOTF (R302) -/

/-- Arming and the window. -/
def sotfArm (c : BCtx) (e : Elems) : Elems :=
  let g := c.g
  let off := !bitAt g 0x900 0 || inMask c.blk 31
  if off then { e with armSince := none, armed := false, sotfAt := none, sotfWin := false, cbPrev := some c.cb, livePrev := livePhases c }
  else
    let now := livePhases c
    let live := now.any id
    let reached := (List.zipWith (fun x y => x && !y) now e.livePrev).any id
    let v := seqV c.bb 1 (c.x c.m.fine)
    let dead := !c.cb || (!live && !hasQ v.q qStop && belowFs (magSq v) c.fsV (gDeadV g) 1000)
    let since := if dead then some (e.armSince.getD c.tOpen) else none
    let was := match e.armSince with | some t => decide (t + usU (u32At g 0x908) ≤ c.tOpen) | none => false
    let armed := e.armed || was
    let rise := c.cb && e.cbPrev == some false
    let opens := armed && (rise || reached)
    let at_ := if opens then some c.tOpen else e.sotfAt
    let win := match at_ with | some t => decide (c.tOpen < t + usU (u32At g 0x90C)) | none => false
    { e with armSince := if opens then none else since, armed := armed && !opens, sotfAt := if win then at_ else none, sotfWin := win, cbPrev := some c.cb, livePrev := now }

/-- Counts of consecutive fast phasors at or above PICKUP over the four of the Milestone, and whether a count of 2 was reached. -/
def sotfCounts (c : BCtx) : List Nat × Bool → List Phasor → List Nat × Bool
  | (cnt, hit), x =>
    let p2 := (u32At c.g 0x904 * 2 ^ 31) ^ 2
    let cnt := cnt.mapIdx (fun p k => let y := (c.x x).getD p {}; if !hasQ y.q qStop && decide (p2 ≤ magSq y) then min (k + 1) 2 else 0)
    (cnt, hit || cnt.any (fun k => decide (2 ≤ k)))

def sotfStep (c : BCtx) (e : Elems) : Elems :=
  if !bitAt c.g 0x900 0 || inMask c.blk 31 then { e with sotfCnt := [0, 0, 0], sotfOp := false }
  else
    let (cnt, hit) := c.m.fast.foldl (sotfCounts c) (e.sotfCnt, false)
    { e with sotfCnt := cnt, sotfOp := e.sotfWin && hit }

/-! ### 46BC and 49 (R299) -/

/-- A pickup with a definite delay in one cycle (R292 with RESET_T 0). -/
def delayStep (c : BCtx) (td : Nat) (up : Bool) (x : DelaySt) : DelaySt :=
  let t := if up && !x.pu then c.tOpen else x.tPu
  let op := up && decide (t + usU td ≤ c.tRel)
  { pu := up, op := op, tPu := t, prog := if up then progress td t c.tRel else 0 }

def bcStep (c : BCtx) (e : Elems) : Elems :=
  let g := c.g
  let x := c.x c.m.fine
  let i1 := seqI c.bb 1 x
  let i2 := seqI c.bb 2 x
  if !bitAt g 0x700 0 then { e with bc := {} }
  else if inMask c.blk 27 then { e with bc := { blk := true } }
  else if hasQ (i1.q ||| i2.q) qStop then { e with bc := { qblk := true } }
  else
    let low := decide (magSq i1 < (u16At g 0x706 * 100 * 2 ^ 31) ^ 2)
    let r := u16At g 0x704
    let met := if magSq i1 = 0 then openBool 44 [(magSq i2 : Nat), r, 0] else decide (r * r * magSq i1 ≤ 1000000 * magSq i2)
    let keep := if magSq i1 = 0 then openBool 44 [(magSq i2 : Nat), r, 1]
      else decide ((95 * r) * (95 * r) * magSq i1 ≤ 10000 * 1000000 * magSq i2)
    { e with bc := delayStep c (u32At g 0x708) (!low && (met || (e.bc.pu && keep))) e.bc }

def thStep (c : BCtx) (th : Nat) (e : Elems) : Elems :=
  let g := c.g
  if !bitAt g 0x740 0 || inMask c.blk 28 || thermIb c.bb == 0 then { e with thPu := false, thOp := false }
  else
    let hy := let x := u16At g 0x748; if x == 0 then 50 else x
    let at_ (lvl : Nat) (was : Bool) : Bool := decide (lvl * 2 ^ 64 ≤ th * 1000) || (was && decide ((lvl - hy) * 2 ^ 64 ≤ th * 1000))
    { e with thPu := at_ (u16At g 0x744) e.thPu, thOp := at_ (u16At g 0x746) e.thOp }

/-! ### HIF (R306) -/

def sumSq (l : List Nat) : Nat := l.foldl (fun a x => a + x * x) 0

/-- A frame of a lane is arcing against a background; an unseeded background makes none so. -/
def arcing (ratio : Nat) (bandsSq_ : List Nat) (bkg : List (Option Nat)) : Bool :=
  bkg.all (·.isSome) &&
  decide (ratio * ratio * sumSq (bkg.map (·.getD 0)) ≤ 10000 * bandsSq_.foldl (· + ·) 0)

def hifLanes (g : Bytes) : List Nat := if bitAt g 0x9C0 2 then [0, 1, 2] else [3]

def hifWarm (bb : Bytes) : Nat := let x := u16At bb 0x8A; secU (if x == 0 then 300 else x)

/-- The background of a lane is valid, as it stays once it was (R346). -/
def bkgValid (e : Elems) (j : Nat) : Bool := e.bkgOk.getD j false

/-- The frame that ends in this Milestone entered, of each source lane on its own. -/
def hifFrame (c : BCtx) (h : MeasHist) (e : Elems) : Elems :=
  if !c.frame then e
  else
    let a (j : Nat) : Bool :=
      !hasQ (asInput c.beh (h.bandQs.getD j Qb.inv)) qStop && arcing (u16At c.g 0x9C4) (h.bands.getD j []) (e.bkg.getD j [])
    { e with hifFrames := e.hifFrames.mapIdx (fun j l => if (hifLanes c.g).contains j then (a j :: l).take 60 else l) }

def hifStep (c : BCtx) (h : MeasHist) (stagePu : Bool) (e : Elems) : Elems :=
  let g := c.g
  if !bitAt g 0x9C0 0 then { e with hif := {} }
  else
    let e := hifFrame c h e
    let lanes := hifLanes g
    let bad := lanes.any (fun j => hasQ (asInput c.beh (h.bandQs.getD j Qb.inv)) qStop) || lanes.any (fun j => !bkgValid e j)
    if inMask c.blk 34 || bad || e.inrush.any id || e.clp || stagePu then { e with hif := { blk := true } }
    else
      let w := byteAt g 0x9C9
      let up := lanes.any (fun j => decide (byteAt g 0x9C8 ≤ (((e.hifFrames.getD j []).take w).filter id).length))
      let x := delayStep c (u32At g 0x9CC) up e.hif
      { e with hif := x, hifLatch := e.hifLatch || (bitAt g 0x9C0 3 && up) }

/-! ### 50BF (R303, R304) -/

/-- A word of the window reaches a level in primary instantaneous units of 2^-23 mA. -/
def anyAbove (w : List Int) (lvl : Nat) : Bool := w.any (fun x => decide (lvl ≤ x.natAbs))

/-- Current present in A, B, C and N over the last 96 record-tap words, against levels in 0.1 A; a residual level of 0 tests none. -/
def currentPresent (s : State) (b i0 lvl lvlN : Nat) : List Bool :=
  let w (k : Nat) : List Int := ((laneSt s (8 * b + k)).tap.take 96).map (fun x => x.v * laneFs s (8 * b + k))
  let n := if i0 == 1 then List.zipWith (· + ·) (List.zipWith (· + ·) (w 0) (w 1)) (w 2) else w 3
  [anyAbove (w 0) (lvl * 100 * 2 ^ 23), anyAbove (w 1) (lvl * 100 * 2 ^ 23), anyAbove (w 2) (lvl * 100 * 2 ^ 23),
   lvlN != 0 && anyAbove n (lvlN * 100 * 2 ^ 23)]

/-- 50BF in one cycle; `cur` is the current present, `start` one of the causes of R304 other than a bus trip. -/
def bfStep (c : BCtx) (cur : List Bool) (start bus : Bool) (e : Elems) : Elems :=
  let g := c.g
  if !bitAt g 0x780 0 then { e with bfAt := none, bfRe := false, bfBk := false, bfBlk := false, bfCur := [false, false, false, false] }
  else if inMask c.blk 29 then { e with bfAt := none, bfRe := false, bfBk := false, bfBlk := true, bfCur := cur }
  else
    let open_ := !cur.any id && !(bitAt g 0x780 2 && c.cb)
    let at_ := if start || (bus && gBfBus g) then some (e.bfAt.getD c.tOpen) else e.bfAt
    let at_ := if open_ then none else at_
    let due (t : Nat) : Bool := match at_ with | some a => decide (a + usU t ≤ c.tRel) | none => false
    { e with bfAt := at_, bfRe := due (u32At g 0x788), bfBk := due (u32At g 0x78C), bfBlk := false, bfCur := cur }

/-! ### 79 (R305) -/

/-- What 79 sees of a cycle; `bfOn`: 50BF starts in it. -/
structure ArIn where
  run : Bool
  trip : Bool
  reclosable : Bool
  arBlk : Bool
  bfOn : Bool
  cb : Bool
  open_ : Nat
  rel : Nat

/-- One evaluation of Table: 79 transitions. -/
def arStep (g : Bytes) (i : ArIn) (a : ArSt) : ArSt :=
  let fell := a.cbPrev == some true && !i.cb
  let rose := a.cbPrev == some false && i.cb
  let due (us : Nat) : Bool := decide (a.at_ + usU us ≤ i.rel)
  let go (st : Nat) (x : ArSt) : ArSt := { x with st := st, at_ := i.open_ }
  let fresh (x : ArSt) : ArSt := go 5 { x with c := 0, final := true }
  let y :=
    if !bitAt g 0x800 0 || !i.run then (if a.st == 0 then { a with c := 0, final := false, close := false } else go 0 { a with c := 0, final := false, close := false })
    else match a.st with
      | 0 => if i.cb then fresh a else go 7 a
      | 2 => if !i.cb then go 3 a else if due 2000000 || i.bfOn then go 6 a else a
      | 3 => if i.arBlk then go 6 a
             else if due (u32At g (0x804 + 4 * min a.c 3)) then go 4 { a with close := true, c := a.c + 1 }
             else if rose then fresh a else a
      | 4 => if i.cb then go 5 { a with close := false } else if due (u32At g 0x818) then go 6 { a with close := false } else a
      | 6 => if rose then fresh a
             else if a.lockReset then (if i.cb then go 5 { a with final := true } else go 7 a)
             else a
      | 7 => if rose then fresh a else a
      | st =>
        if i.trip then
          (if i.reclosable && decide (a.c < fld g 0x800 1 3) && !a.final && !i.arBlk then go 2 a else go 6 a)
        else if st == 1 then (if fell then go 7 a else a)
        else if due (u32At g 0x814) then go 1 { a with c := 0, final := false } else a
  { y with cbPrev := some i.cb, lockReset := false }

/-- The record of a change of state of 79. -/
def arRecord (old new : ArSt) : Bytes := dCode old.st ++ dCode new.st ++ dCode new.c ++ dCode (flag new.final)

/-! ### Fault locator (R307, R308) -/

/-- The episode: its first Milestone, the phasors of n_pre and n_loc. `dw` is the lane-word delay in Milestones, rounded up. -/
def flEpisode (c : BCtx) (dw : Nat) (up : Bool) (e : Elems) : Elems :=
  let starts := up && e.flStart.isNone
  let e := { e with flHist := (c.m.fine :: e.flHist).take 25 }
  let e := if starts then
      { e with flStart := some c.n, flPre := e.flHist.getD 24 [], flLoc := [], flNloc := c.n + 97 + dw, flTrip := false }
    else e
  let e := if up then { e with flLast := c.n } else e
  let e := if c.n == e.flNloc then { e with flLoc := c.m.fine } else e
  if e.flStart.isSome && !up && decide (e.flLast + 96 ≤ c.n) then { e with flStart := none } else e

/-- K0 in 2^-40 times 1000. -/
def flK0 (g : Bytes) : Int × Int :=
  let (c, n) := cosSin (s16At g 0xA4A * 2 ^ 48 / 3600)
  let m : Int := u16At g 0xA48
  (c * m, n * m)

/-- Loop of the involved phases: 0 AG, 1 BG, 2 CG, 3 AB, 4 BC, 5 CA; and whether one phase is involved. -/
def flLoopOf (inv : List Bool) : Nat :=
  match inv with
  | [true, false, false] => 0
  | [false, true, false] => 1
  | [false, false, true] => 2
  | [false, true, true] => 4
  | [true, false, true] => 5
  | _ => 3

/-- The locator's result from the phasors kept; values the spec gives no result for are free (log entry 4). -/
def flCompute (c : BCtx) (b : Nat) (e : Elems) : Elems :=
  let g := c.g
  let x (k : Nat) : Phasor := e.flLoc.getD k {}
  let y (k : Nat) : Phasor := e.flPre.getD k {}
  let dI := (List.range 3).map (fun p => magSq (pSub (x p) (y p)))
  let m := dI.foldl max 0
  let inv := dI.map (fun d => decide (m ≤ 4 * d))
  let i0 := res3I0 c e.flLoc
  let earth := decide ((u16At g 0xA52 * 100 * 2 ^ 31) ^ 2 ≤ magSq i0)
  let loop := flLoopOf inv
  let one := decide (loop < 3)
  let scale : Int := 1000 * 2 ^ 40
  let k0 := cmul (flK0 g) (i0.re, i0.im)
  let d : Int × Int :=
    if one then ((x loop).re * scale + k0.1, (x loop).im * scale + k0.2)
    else let z := pSub (x (loop - 3)) (x ((loop - 2) % 3)); (z.re * scale, z.im * scale)
  let v : Phasor :=
    if one then x (4 + loop) else if vconn c.bb then x (loop + 1) else pSub (x (loop + 1)) (x (4 + (loop - 2) % 3))
  let dd := (d.1 * d.1 + d.2 * d.2).toNat
  let none_ := dd == 0 || (one && vconn c.bb)
  let num := cmul (v.re, v.im) (d.1, -d.2)
  let free (k : Int) : Int × Nat := (Config.freeInt 45 [k, (b : Int), (e.flNloc : Int)], 1)
  let r : Int × Nat := if none_ then free 0 else (num.1 * scale, dd)
  let xx : Int × Nat := if none_ then free 1 else (num.2 * scale, dd)
  let x1 := max 1 (u32At g 0xA44)
  let dist : Int × Nat := if none_ then free 2 else (num.2 * scale * 1000, dd * x1)
  let i := isqrt dd / scale.toNat
  let q := (List.range 3).foldl (fun a p => a ||| (x p).q ||| (y p).q) (v.q ||| (if one then i0.q else 0))
  let far := dist.1 < 0 || decide (3 * (u32At g 0xA4C : Int) * dist.2 < 2 * 1000 * dist.1)
  let lowq := (one && !earth) || (one && vconn c.bb) || decide (i < u16At g 0xA50 * 100 * 2 ^ 31) || hasQ (asInput c.beh q) qBad || far
  { e with flMs := e.flNloc, flDist := dist, flR := r, flX := xx, flI := i, flLoop := loop + 1, flLowq := lowq, flValid := true, flTrip := false }

/-- A rise of BAY_TRIP asks for a computation, done at n_loc or at once when later. -/
def flStep (c : BCtx) (b dw : Nat) (up tripRise : Bool) (e : Elems) : Elems :=
  if !bitAt c.g 0xA40 0 || inMask c.blk 35 then { flEpisode c dw up e with flTrip := false }
  else
    let e := flEpisode c dw up e
    let e := if tripRise && e.flStart.isSome then { e with flTrip := true } else e
    if e.flTrip && decide (e.flNloc ≤ c.n) && !e.flLoc.isEmpty then flCompute c b e else e

end Sys2Proof.Machine
end

