-- ==== Sys2Proof/Machine/Adapt.lean ====
section
/-! DEFINITION. Adaptive pickup: load estimate, adapted values, freezing, and the HIF background (R335-R347). -/

namespace Sys2Proof.Machine

/-! ### Fields (R335) -/

def loadTau (bb : Bytes) : Nat := let x := u16At bb 0x80; secU (if x == 0 then 600 else x)
def frzTrip (bb : Bytes) : Nat := let x := u16At bb 0x82; secU (if x == 0 then 60 else x)
def adpTst (bb : Bytes) : Bool := bitAt bb 0x84 0
def hifTau (bb : Bytes) : Nat := let x := u16At bb 0x88; secU (60 * (if x == 0 then 60 else x))
/-- HIF_BMIN and HIF_BMAX in 2^-31 mA. -/
def hifBmin (bb : Bytes) : Nat := (let x := u32At bb 0x8C; if x == 0 then 100 else x) * 2 ^ 31
def hifBmax (bb : Bytes) : Nat := (let x := u32At bb 0x90; if x == 0 then 20000 else x) * 2 ^ 31

/-! ### Freeze causes (R341) -/

/-- A record that holds the bay's lanes is open at Milestone n (R455). -/
def recordOpen (s : State) (b n : Nat) : Bool :=
  s.rec_.regions.any (fun r => r.recs.any (fun x => x.state == .open_ && x.bays.contains b && decide (x.trigMs < n)))

/-- Table: Freeze causes as a mask. -/
def freezeMask (s : State) (b : Nat) (c : BCtx) (e : Elems) : Nat :=
  let i1 := (seqI c.bb 1 c.m.rep).q
  let after := match e.tripAt with | some t => decide (c.tOpen < t + frzTrip c.bb) | none => false
  boolBits [e.pu != 0, recordOpen s b c.n, e.bayTrip || after, inMask (bayMask s b) 7, hasQ i1 qBad, hasQ i1 Qb.tst && !adpTst c.bb,
    e.win || e.inrush.any id, s.mode.mode == .safe || !evaluated c.beh]

/-! ### Load estimate (R338) -/

/-- |I1| in 2^-32 A. -/
def loadNow (c : BCtx) : Nat := mag (seqI c.bb 1 c.m.rep) * 2 / 1000

def loadStep (c : BCtx) (l : Option Nat) : Nat :=
  let i := loadNow c
  match l with
  | none => i
  | some x => ((x : Int) + ((i : Int) - x) * (c.d : Int) / (max 1 (loadTau c.bb) : Nat)).toNat

/-! ### Adapted values (R339, R340) -/

/-- The adapted value after a cycle's evaluations, with target and status flags. -/
def adaptStage (c : BCtx) (frozen : Bool) (load : Option Nat) (i : Nat) (x : StageSt) : StageSt :=
  let r := recBytes c.g i
  if 12 < i || !recAdapt r || !recEn r then { x with a := none, target := 0, adFlags := 0 }
  else
    let (lo, hi) := adaptBounds r c.clp
    let p := effPickup c r x
    let rate := let v := u16At r 0x22; if v == 0 then 50 else v
    let dmax := rate * hi * c.d / (1000 * secU 60)
    let t : Option Nat := load.map (fun l => min (max (u16At r 0x20 * l + u32At r 0x24 * 2 ^ 32) lo) hi)
    let moved : Nat × Bool := match t with
      | some t => if frozen then (p, false)
                  else if p ≤ t then (if dmax < t - p then (p + dmax, true) else (t, false))
                  else (if dmax < p - t then (p - dmax, true) else (t, false))
      | none => (p, false)
    { x with a := some moved.1, target := t.getD 0
             adFlags := boolBits [p == lo, p == hi, moved.2, recClp r && c.clp] }

/-! ### HIF background (R345, R346) -/

def bkgStep (c : BCtx) (h : MeasHist) (frozen : Bool) (frame : Nat) (e : Elems) : Elems :=
  if !c.frame then e
  else
    let learns (j : Nat) : Bool :=
      let q := h.bandQs.getD j Qb.inv
      !frozen && !hasQ q qBad && !(hasQ q Qb.tst && !adpTst c.bb) &&
      (!bitAt c.g 0x9C0 0 || !arcing (u16At c.g 0x9C4) (h.bands.getD j []) (e.bkg.getD j []))
    let cl (x : Int) : Nat := (min (max x (hifBmin c.bb)) (hifBmax c.bb)).toNat
    let upd (g2 : Nat) (b : Option Nat) : Option Nat :=
      let g := isqrt g2
      match b with
      | none => some (cl g)
      | some x => some (cl ((x : Int) + ((g : Int) - x) * (frame : Int) / (max 1 (hifTau c.bb) : Nat)))
    let ls := (List.range 4).map learns
    let age := e.bkgAge.mapIdx (fun j a => if ls.getD j false then a + frame else a)
    { e with
      bkg := e.bkg.mapIdx (fun j b => if ls.getD j false then List.zipWith upd (h.bands.getD j []) b else b)
      bkgAge := age, bkgLearnt := ls, bkgOk := e.bkgOk.mapIdx (fun j v => v || decide (hifWarm c.bb ≤ age.getD j 0)) }

/-- A change of the bounds clamps every B at its boundary. -/
def clampBkg (bb : Bytes) (e : Elems) : Elems :=
  { e with bkg := e.bkg.map (fun l => l.map (fun b => b.map (fun x => min (max x (hifBmin bb)) (hifBmax bb)))) }

/-- What the adaptation does at the end of a bay's cycle. -/
def adaptBay (s : State) (b : Nat) (c : BCtx) (r : BayRun) : BayRun :=
  let frz := freezeMask s b c r.el
  let frozen := frz != 0
  let load := if frozen then r.el.load else some (loadStep c r.el.load)
  let e := { r.el with frz := frz, load := load, loadQ := (seqI c.bb 1 c.m.rep).q }
  { r with
    stages := r.stages.mapIdx (fun i x => adaptStage c frozen load i x)
    el := bkgStep c r.hist frozen (spanOf s 96) e }

/-! ### Status (R347) -/

def adaptStatus (bb : Bytes) (now : Nat) (r : BayRun) : Bytes :=
  let e := r.el
  let rem := match e.tripAt with | some t => (t + frzTrip bb - now) / msU 1 | none => 0
  let tg (i : Nat) : Bytes := leBytes 4 (f32 ((r.stages.getD i {}).target : Nat) (1000 * 2 ^ 32))
  padTo 0x80
    (leBytes 4 (f32 (e.load.getD 0 : Nat) (2 ^ 32)) ++ leBytes 4 (e.loadQ + place (flag e.load.isSome) 8 1) ++ leBytes 4 e.frz ++
     leBytes 4 (satN 32 rem) ++ (List.range 13).flatMap tg ++ (List.range 13).map (fun i => BitVec.ofNat 8 (r.stages.getD i {}).adFlags) ++
     zeros 15 ++
     leBytes 4 (boolBits ((List.range 4).map (bkgValid e)) + place (boolBits (e.bkg.map (fun l => l.all (·.isSome)))) 4 4 +
       place (boolBits e.bkgLearnt) 8 4) ++
     e.bkgAge.flatMap (fun a => leBytes 4 (satN 32 (a / msU 100)))) ++
  e.bkg.flatMap (fun l => l.flatMap (fun b => leBytes 4 (f32 (b.getD 0 : Nat) (1000 * 2 ^ 31))))

end Sys2Proof.Machine
end

