-- ==== Sys2Proof/Machine/Bus.lean ====
section
/-! DEFINITION. Bus-section elements: 87B with its check zone and external-fault detector, reverse interlock, section status
(R309-R314). Currents are in 2^-31 mA, or 2^-23 mA for record-tap words. -/

namespace Sys2Proof.Machine

/-! ### Fields (Table: Bus Section Table, element part) -/

def b87En (b : Bytes) : Bool := bitAt b 0x40 0
def czEn (b : Bytes) : Bool := bitAt b 0x40 1
def satEn (b : Bytes) : Bool := bitAt b 0x40 2
def riEn (b : Bytes) : Bool := bitAt b 0x40 3
def riTripAll (b : Bytes) : Bool := bitAt b 0x40 4
/-- A current field in 0.1 A as 2^-31 mA. -/
def tenthA (x : Nat) : Nat := x * 100 * 2 ^ 31
def idMin (b : Bytes) : Nat := tenthA (u16At b 0x44)
def satBlkMs (b : Bytes) : Nat := let x := u16At b 0x60; if x == 0 then 200 else x
def riIstg (b : Bytes) : Nat := fld b 0x64 0 3
def riFstg (b : Bytes) : Nat := fld b 0x64 8 3
def riTd (b : Bytes) : Nat := u16At b 0x66
def riInc (b : Bytes) : Nat := u64At b 0x68
def riHold (b : Bytes) : Nat := u16At b 0x70

/-! ### Differential sums (R309, R310) -/

/-- Every bay of a set is in test or test/blocked, so that test inputs are used. -/
def allTest (s : State) (bays : List Nat) : Bool := bays.all (fun b => testValid (effBeh s b))

/-- One phase of a set of members at one evaluation: signed terms, and whether one carries INV or STL. -/
def termsOf (s : State) (bays : List Nat) (inv : Nat) (slot p : Nat) : List Phasor × Bool :=
  let tok := allTest s bays
  bays.foldl (fun (a : List Phasor × Bool) b =>
    match memberMeas s b with
    | none => (a.1, true)
    | some m =>
      let x := (m.fast.getD slot []).getD p {}
      (a.1 ++ [sgn (inMask inv b) x], a.2 || hasQ x.q qStop || (hasQ x.q Qb.tst && !tok))) ([], false)

/-- I_d and I_r of the terms. -/
def idir (t : List Phasor) : Nat × Nat :=
  let z := t.foldl (fun (a : Int × Int) x => (a.1 + x.re, a.2 + x.im)) (0, 0)
  (isqrt (z.1 * z.1 + z.2 * z.2).toNat, t.foldl (fun a x => a + mag x) 0)

/-- max(IDMIN, S(I_r)) times 1000. -/
def threshold87 (b : Bytes) (ir : Nat) : Nat :=
  let s1 := u16At b 0x46
  let brk := tenthA (u16At b 0x48)
  let s := if ir ≤ brk then s1 * ir else s1 * brk + u16At b 0x4A * (ir - brk)
  max (1000 * idMin b) s

def thresholdCz (b : Bytes) (ir : Nat) : Nat := max (1000 * tenthA (u16At b 0x4C)) (u16At b 0x4E * ir)

/-- Two consecutive evaluations pick a phase up, two beyond 0.95 of the threshold drop it out. `th` is in 1/1000. -/
def cntStep (id th : Nat) (c : Nat × Nat × Bool) : Nat × Nat × Bool :=
  if th ≤ 1000 * id then (min (c.1 + 1) 2, 0, c.2.2 || decide (1 ≤ c.1))
  else if 100 * 1000 * id < 95 * th then (0, min (c.2.1 + 1) 2, c.2.2 && decide (c.2.1 < 1))
  else (0, 0, c.2.2)

/-- Phase p of 87B and of the check zone over the four evaluations; the result holds whether a quality block occurred and the
largest check-zone I_d. -/
structure DiffSt where
  c : Nat × Nat × Bool
  z : Nat × Nat × Bool
  id : Nat
  ir : Nat
  czId : Nat
  qblk : Bool

def diffEval (s : State) (k p : Nat) (x : DiffSt) (slot : Nat) : DiffSt :=
  let b := sectionBytes s k
  let m := maskList (sectRun s k).conn
  let (t, bad) := termsOf s m (u64At b 0x10) slot p
  let (id, ir) := idir t
  let x := if bad then { x with c := (0, 0, false), qblk := true }
    else { x with c := cntStep id (threshold87 b ir) x.c, id := id, ir := ir }
  if !czEn b then x
  else
    let zm := (maskList (u64At b 0x50)).filter (· < s.variant.bays)
    let (zt, zbad) := termsOf s zm (u64At b 0x58) slot p
    let (zd, zr) := idir zt
    if zbad then { x with z := (0, 0, false) } else { x with z := cntStep zd (thresholdCz b zr) x.z, czId := max x.czId zd }

/-! ### External-fault detector (R311) -/

/-- The change over 384 words of a member's word `q` back from the newest, in primary units. -/
def tapDelta (s : State) (b p q : Nat) : Int :=
  let t := (laneSt s (8 * b + p)).tap
  ((t.getD q {}).v - (t.getD (q + 384) {}).v) * laneFs s (8 * b + p)

/-- One word of a phase: quiet count, run from the onset, and whether an external fault is established. -/
def satWord (lvl2 : Nat) (dr dd : Nat) (quiet : Nat) (run : Option (Nat × Bool)) : Nat × Option (Nat × Bool) × Bool :=
  let high := decide (8 * lvl2 ≤ dr * dr)
  let ext := decide (4 * dd ≤ dr)
  let run := match run with
    | some (n, e) => some (n + 1, e && ext)
    | none => if high && decide (384 ≤ quiet) then some (1, ext) else none
  let quiet := if high then 0 else min (quiet + 1) 384
  match run with
  | some (8, e) => (quiet, none, e)
  | x => (quiet, x, false)

/-- The detector over the four words of the Milestone, oldest first. -/
def satPhase (s : State) (k p : Nat) (r : SectRun) : SectRun × Bool :=
  let b := sectionBytes s k
  let m := maskList r.conn
  let lvl := u16At b 0x44 * 100 * 2 ^ 23
  [3, 2, 1, 0].foldl (fun (a : SectRun × Bool) q =>
    let ds := m.map (fun i => (if memberBit b 0x10 i then -1 else 1, tapDelta s i p q))
    let dr := ds.foldl (fun t x => t + x.2.natAbs) 0
    let dd := (ds.foldl (fun (t : Int) x => t + x.1 * x.2) 0).natAbs
    let (qt, run, e) := satWord (lvl * lvl) dr dd (a.1.satQuiet.getD p 0) (a.1.satRun.getD p none)
    ({ a.1 with satQuiet := modAt a.1.satQuiet p (fun _ => qt), satRun := modAt a.1.satRun p (fun _ => run) }, a.2 || e)) (r, false)

/-- Every term of at least IDMIN lies within 90 degrees of the largest, and there is one. -/
def evolved (lo : Nat) (t : List Phasor) : Bool :=
  match t with
  | [] => false
  | x :: xs =>
    let big := xs.foldl (fun a y => if magSq a < magSq y then y else a) x
    decide (lo * lo ≤ magSq big) && (t.filter (fun y => decide (lo * lo ≤ magSq y))).all (fun y => decide (0 ≤ y.re * big.re + y.im * big.im))

/-- One evaluation counts toward the early end when every phase with a term of at least IDMIN is evolved. -/
def evolvedAt (s : State) (k slot : Nat) : Bool :=
  let b := sectionBytes s k
  let ts := (List.range 3).map (fun p => (termsOf s (maskList (sectRun s k).conn) (u64At b 0x10) slot p).1)
  let big := ts.filter (fun t => t.any (fun y => decide (idMin b * idMin b ≤ magSq y)))
  !big.isEmpty && big.all (evolved (idMin b))

/-- The detector in one cycle. -/
def satStep (s : State) (k : Nat) (r : SectRun) : SectRun :=
  let b := sectionBytes s k
  if !satEn b then { r with satQuiet := [384, 384, 384], satRun := [none, none, none], satEnd := none, satIn := 0 }
  else
    let (r, e0) := satPhase s k 0 r
    let (r, e1) := satPhase s k 1 r
    let (r, e2) := satPhase s k 2 r
    let r := match r.satEnd with | some t => if t ≤ s.clk.openedAt then { r with satEnd := none, satIn := 0 } else r | none => r
    let (cnt, ended) := (List.range 4).foldl (fun (a : Nat × Bool) slot =>
      let c := if r.satEnd.isSome && evolvedAt s k slot then a.1 + 1 else 0
      (c, a.2 || decide (4 ≤ c))) (r.satIn, false)
    let r := if ended then { r with satEnd := none, satIn := 0 } else { r with satIn := cnt }
    if e0 || e1 || e2 then { r with satEnd := some (s.clk.openedAt + msU (satBlkMs b)), satIn := 0 } else r

/-! ### 87B and RI in one cycle -/

def b87Reset (r : SectRun) : SectRun :=
  { r with cnt := List.replicate 3 (0, 0, false), cz := List.replicate 3 (0, 0, false), pu := 0, op := 0, czPu := false
           qblk := false, plbBlk := false, czId := 0 }

def b87Step (s : State) (k : Nat) (r : SectRun) : SectRun :=
  let b := sectionBytes s k
  if !b87En b then { b87Reset r with satQuiet := [384, 384, 384], satRun := [none, none, none], satEnd := none, satIn := 0 }
  else
    let r := satStep s k r
    let plb := sectBlocked s k
    let ph := (List.range 3).map (fun p =>
      (List.range 4).foldl (diffEval s k p)
        { c := r.cnt.getD p (0, 0, false), z := r.cz.getD p (0, 0, false), id := 0, ir := 0, czId := 0, qblk := false })
    let stop := plb || r.satEnd.isSome
    let cnt := ph.map (fun x => if stop then (0, 0, false) else x.c)
    let cz := ph.map (·.z)
    let pu := cnt.map (·.2.2)
    { r with
      cnt := cnt, cz := cz, id := ph.map (·.id), ir := ph.map (·.ir), czId := ph.foldl (fun a x => max a x.czId) 0
      pu := boolBits pu, czPu := cz.any (·.2.2), qblk := ph.any (·.qblk), plbBlk := plb
      op := boolBits (List.zipWith (fun (a : Bool) (z : Nat × Nat × Bool) => a && (!czEn b || z.2.2)) pu cz) }

/-- A start stage as reverse interlock sees it: picked up, and for a feeder also when disabled, quality-blocked or not run. -/
def startPicked (s : State) (b i : Nat) (feeder : Bool) : Bool :=
  let st := (bayRun s b).stages.getD i {}
  let off := (memberMeas s b).isNone || !evaluated (effBeh s b) || !recEn (recBytes (grpBytes s b) i)
  if feeder then off || st.qblk || st.pu else !off && st.pu

def riStep (s : State) (k : Nat) (r : SectRun) : SectRun :=
  let b := sectionBytes s k
  if !riEn b then { r with riPu := false, riOp := false, riFeeder := false, riHold := [] }
  else
    let inc := (maskList r.conn).filter (inMask (riInc b))
    let feed := (maskList r.conn).filter (fun x => !inMask (riInc b) x)
    let up := inc.any (fun x => startPicked s x (riIstg b) false)
    let now := feed.filter (fun x => startPicked s x (riFstg b) true)
    let tRel := s.clk.openedAt + s.clk.len
    let kept := r.riHold.filter (fun h => feed.contains h.1 && !now.contains h.1 && decide (s.clk.openedAt < h.2 + msU (riHold b)))
    let seen := !now.isEmpty || !kept.isEmpty
    let pu := up && !seen
    let at_ := if pu && !r.riPu then s.clk.openedAt else r.riAt
    { r with
      riHold := kept ++ now.map (fun x => (x, tRel)), riFeeder := seen, riPu := pu, riAt := at_
      riOp := pu && decide (at_ + msU (riTd b) ≤ tRel) }

/-- One section in the cycle, with its counters and records. -/
def sectStep (k : Nat) (s : State) : State :=
  let r0 := sectRun s k
  let r := riStep s k (b87Step s k r0)
  let rise := bitsOf r.op 0 3 &&& (7 - bitsOf r0.op 0 3)
  let s := setSect k (fun _ =>
    { r with b87Ops := if rise != 0 then satN 16 (r.b87Ops + 1) else r.b87Ops, riOps := if r.riOp && !r0.riOp then satN 16 (r.riOps + 1) else r.riOps }) s
  let s := if rise != 0 then stageEvent (sectCluster s k) Src.prot 2 (0x0100 + k) (dCode 1 ++ dCode rise) s else s
  if r.riOp && !r0.riOp then stageEvent (sectCluster s k) Src.prot 2 (0x0100 + k) (dCode 2 ++ dCode 0) s else s

/-- Sections whose own bus trip reaches bay b (R313). -/
def ownBusTrips (s : State) (b : Nat) : Nat :=
  maskOf 16 (fun k =>
    let r := sectRun s k
    let bb := sectionBytes s k
    sectionEn s k && inMask r.conn b && (r.op != 0 || (r.riOp && (riTripAll bb || inMask (riInc bb) b))))

/-- Sections with a bus trip by 50BF: a connected member has BKTRIP and BF_BUS (R304). -/
def bkBusTrips (s : State) : Nat :=
  maskOf 16 (fun k => sectionEn s k &&
    (maskList (sectRun s k).conn).any (fun b => (bayRun s b).el.bfBk && bitAt (grpBytes s b) 0x780 3 && (memberMeas s b).isSome))

/-- Sections whose bus trip reaches bay b (R289, R304). -/
def busTrips (s : State) (b : Nat) : Nat :=
  ownBusTrips s b ||| maskOf 16 (fun k => inMask (bkBusTrips s) k && inMask (sectRun s k).conn b)

/-- A section that is enabled, disabled or moved starts from reset values; its operate counters stay. -/
def resetSect (k : Nat) (s : State) : State := setSect k (fun r => { b87Ops := r.b87Ops, riOps := r.riOps }) s

/-! ### Status (R314) -/

/-- binary32 in A of a current in 2^-31 mA. -/
def ampsOf (x : Nat) : Bytes := leBytes 4 (f32 (x : Nat) (1000 * 2 ^ 31))

def sectStatus (now : Nat) (r : SectRun) : Bytes :=
  let g (l : List Nat) : Bytes := (List.range 3).flatMap (fun p => ampsOf (l.getD p 0))
  padTo 64
    (leBytes 8 r.ms ++ leBytes 8 r.conn ++ g r.id ++ g r.ir ++
     leBytes 4 (r.pu + place r.op 3 3 + place (flag r.czPu) 6 1 + place (flag (match r.satEnd with | some t => decide (now < t) | none => false)) 7 1 +
       place (flag r.qblk) 8 1 + place (flag r.plbBlk) 9 1 + place (flag r.riPu) 10 1 + place (flag r.riFeeder) 11 1 + place (flag r.riOp) 12 1) ++
     leBytes 2 r.b87Ops ++ leBytes 2 r.riOps ++ ampsOf r.czId)

end Sys2Proof.Machine
end

