-- ==== Sys2Proof/Machine/LogicVm.lean ====
section
/-! DEFINITION. The scheme-logic accumulator machine: its image, address spaces and instructions (R351-R357, R371). -/

namespace Sys2Proof.Machine

/-! ### The program image (R357) -/

def pNinstr (b : Bytes) : Nat := fld b 4 0 15
def pNvar (b : Bytes) : Nat := fld b 8 0 13
def pNtmr (b : Bytes) : Nat := fld b 0xC 0 9
def pNcnt (b : Bytes) : Nat := fld b 0xC 9 9
def pNedg (b : Bytes) : Nat := fld b 0xC 18 11
/-- L of CYCLE; 0 stands for the refused code. -/
def pCycle (b : Bytes) : Nat := match fld b 0x10 0 2 with | 0 => 1 | 1 => 2 | 2 => 4 | _ => 0
def pPhase (b : Bytes) : Nat := fld b 0x10 2 2
def pDecls (b : Bytes) : Nat := pNvar b + pNtmr b + pNcnt b + pNedg b
def pLength (b : Bytes) : Nat := 64 + 8 * pDecls b + 4 * pNinstr b

/-- The first and second word of declaration j. -/
def declWord (b : Bytes) (j : Nat) : Nat := u32At b (64 + 8 * j)
def declArg (b : Bytes) (j : Nat) : Nat := u32At b (68 + 8 * j)
def declId (b : Bytes) (j : Nat) : Nat := bitsOf (declWord b j) 0 16
def declKind (b : Bytes) (j : Nat) : Nat := bitsOf (declWord b j) 16 4
def declRetain (b : Bytes) (j : Nat) : Bool := bitsOf (declWord b j) 20 1 == 1
def declInit (b : Bytes) (j : Nat) : Bool := bitsOf (declWord b j) 21 1 == 1
/-- Declarations of each kind. -/
def tmrDecl (b : Bytes) (t : Nat) : Nat := pNvar b + t
def cntDecl (b : Bytes) (c : Nat) : Nat := pNvar b + pNtmr b + c
def edgDecl (b : Bytes) (e : Nat) : Nat := pNvar b + pNtmr b + pNcnt b + e
def tmrPt (b : Bytes) (t : Nat) : Nat := declArg b (tmrDecl b t)
def cntPv (b : Bytes) (c : Nat) : Nat := bitsOf (declArg b (cntDecl b c)) 0 16
def instrWord (b : Bytes) (k : Nat) : Nat := u32At b (64 + 8 * pDecls b + 4 * k)

/-- KIND that the order of R357 gives declaration j. -/
def kindOf (b : Bytes) (j : Nat) : Nat :=
  if j < pNvar b then 5 else if j < pNvar b + pNtmr b then 6 else if j < pNvar b + pNtmr b + pNcnt b then 7 else 8

/-- Slot of declaration j within its kind. -/
def slotOf (b : Bytes) (j : Nat) : Nat :=
  match kindOf b j with | 5 => j | 6 => j - pNvar b | 7 => j - pNvar b - pNtmr b | _ => j - pNvar b - pNtmr b - pNcnt b

/-- The slot of the VAR with an identifier. -/
def varSlot (b : Bytes) (id : Nat) : Option Nat := findIdxBelow (pNvar b) (fun j => declId b j == id)

/-! ### Addresses (R351) -/

def opSpace (a : Nat) : Nat := bitsOf a 20 4
def opIndex (a : Nat) : Nat := bitsOf a 0 20

/-- Addresses that Table: Logic address spaces names for reading, with NVAR variables. -/
def mayRead (nvar a : Nat) : Bool :=
  let i := opIndex a
  match opSpace a with
  | 0 => decide (i ≤ 0x24B) || (decide (0x250 ≤ i) && decide (i ≤ 0x259)) || (decide (0x260 ≤ i) && decide (i ≤ 0x273)) || i == 0x27F
  | 1 => decide (i < 64)
  | 2 => decide (i < 16384)
  | 3 => decide (i < 128)
  | 4 => decide (i ≤ 41) || (decide (48 ≤ i) && decide (i ≤ 127))
  | 5 => decide (i < nvar)
  | _ => false

def mayWrite (nvar a : Nat) : Bool := (opSpace a == 4 || opSpace a == 5) && mayRead nvar a

/-- A force names an address of ELM, BI, GIN, OUT or VAR (R371); a fixed VAR address exists for every program's largest space. -/
def mayForce (a : Nat) : Bool := opSpace a != 3 && mayRead 4096 a

/-! ### The machine -/

/-- What an instruction reads beside the machine's own data: the program, the snapshot and the forces. -/
structure LCtx where
  img : Bytes
  gin : Nat → Bool
  forces : List Force

structure LM where
  x : LExec
  d : LData

/-- The force on an address: the one set last among those that name it or the VAR at it. -/
def forcedAt (c : LCtx) (a : Nat) : Option Bool :=
  (c.forces.reverse.find? (fun f =>
    if f.ident then opSpace a == 5 && varSlot c.img f.where_ == some (opIndex a) else f.where_ == a)).map (·.value)

def LM.read (c : LCtx) (m : LM) (a : Nat) : Bool :=
  match forcedAt c a with
  | some v => v
  | none =>
    let i := opIndex a
    match opSpace a with
    | 0 => bitsOf m.x.elm i 1 == 1
    | 1 => bitsOf m.x.bi i 1 == 1
    | 2 => c.gin i
    | 3 => bitsOf m.x.flg i 1 == 1
    | 4 => m.d.out.getD i false
    | 5 => m.d.var.getD i false
    | _ => false

def LM.write (c : LCtx) (m : LM) (a : Nat) (v : Bool) : LM :=
  if (forcedAt c a).isSome then m
  else match opSpace a with
    | 4 => { m with d := { m.d with out := modAt m.d.out (opIndex a) (fun _ => v) } }
    | 5 => { m with d := { m.d with var := modAt m.d.var (opIndex a) (fun _ => v) } }
    | _ => m

def LM.acc (m : LM) (v : Bool) : LM := { m with x := { m.x with acc := v } }
def LM.push (m : LM) (t : STag) : LM := { m with x := { m.x with stack := (m.x.acc, t) :: m.x.stack } }

/-! ### Instructions (R353) -/

def lopNop (_ : LCtx) (_ : Nat) (m : LM) : LM := m
def lopLd (c : LCtx) (a : Nat) (m : LM) : LM := m.acc (m.read c a)
def lopLdn (c : LCtx) (a : Nat) (m : LM) : LM := m.acc (!m.read c a)
def lopAnd (c : LCtx) (a : Nat) (m : LM) : LM := m.acc (m.x.acc && m.read c a)
def lopAndn (c : LCtx) (a : Nat) (m : LM) : LM := m.acc (m.x.acc && !m.read c a)
def lopOr (c : LCtx) (a : Nat) (m : LM) : LM := m.acc (m.x.acc || m.read c a)
def lopOrn (c : LCtx) (a : Nat) (m : LM) : LM := m.acc (m.x.acc || !m.read c a)
def lopXor (c : LCtx) (a : Nat) (m : LM) : LM := m.acc (m.x.acc != m.read c a)
def lopNot (_ : LCtx) (_ : Nat) (m : LM) : LM := m.acc (!m.x.acc)
def lopApush (_ : LCtx) (_ : Nat) (m : LM) : LM := m.push .and
def lopOpush (_ : LCtx) (_ : Nat) (m : LM) : LM := m.push .or
def lopDup (_ : LCtx) (_ : Nat) (m : LM) : LM := m.push .none

/-- POP: the entry's tag joins its bit and ACC. A NONE entry or an empty stack, which verification refuses, changes nothing. -/
def lopPop (_ : LCtx) (_ : Nat) (m : LM) : LM :=
  match m.x.stack with
  | (v, .and) :: r => { m with x := { m.x with acc := v && m.x.acc, stack := r } }
  | (v, .or) :: r => { m with x := { m.x with acc := v || m.x.acc, stack := r } }
  | _ => m

def lopRds (_ : LCtx) (_ : Nat) (m : LM) : LM := match m.x.stack with | (v, _) :: _ => m.acc v | [] => m
def lopDrop (_ : LCtx) (_ : Nat) (m : LM) : LM :=
  match m.x.stack with | (v, _) :: r => { m with x := { m.x with acc := v, stack := r } } | [] => m

def lopSt (c : LCtx) (a : Nat) (m : LM) : LM := m.write c a m.x.acc
def lopStn (c : LCtx) (a : Nat) (m : LM) : LM := m.write c a (!m.x.acc)
def lopSet (c : LCtx) (a : Nat) (m : LM) : LM := if m.x.acc then m.write c a true else m
def lopRst (c : LCtx) (a : Nat) (m : LM) : LM := if m.x.acc then m.write c a false else m

/-- RISE and FALL on edge memory `a`. -/
def edge (q : Bool → Bool → Bool) (a : Nat) (m : LM) : LM :=
  let i := opIndex a
  let v := m.x.acc
  { x := { m.x with acc := q v (m.d.edg.getD i false) }, d := { m.d with edg := modAt m.d.edg i (fun _ => v) } }

def lopRise (_ : LCtx) (a : Nat) (m : LM) : LM := edge (fun v e => v && !e) a m
def lopFall (_ : LCtx) (a : Nat) (m : LM) : LM := edge (fun v e => e && !v) a m

/-! Timers (R355). -/

/-- A timer resumed after a warm start takes t_n less ET as its start. -/
def resumed (tn : Nat) (t : LTimer) : LTimer := if t.resume then { t with start := tn - t.et, resume := false } else t

/-- ET after an execution: r_n less the start while running, limited to PT; PT for a TON with Q; else 0. -/
def elapsed (on : Bool) (pt rn : Nat) (t : LTimer) : LTimer :=
  { t with et := if t.run then min (rn - t.start) pt else if on && t.q then pt else 0 }

def tonStep (pt tn rn : Nat) (i : Bool) (t : LTimer) : LTimer :=
  let t := resumed tn t
  let t := if i && !t.inn then { t with start := tn, run := true } else t
  let t := if !i then { t with run := false, q := false } else t
  let t := if t.run && decide (t.start + pt ≤ rn) then { t with q := true } else t
  let t := { t with inn := i }
  { t with et := if t.q then pt else if t.run then min (rn - t.start) pt else 0 }

def tofStep (pt tn rn : Nat) (i : Bool) (t : LTimer) : LTimer :=
  let t := resumed tn t
  let was := t.inn
  let t := if i then { t with run := false, q := true } else t
  let t := if !i && was then { t with start := tn, run := true } else t
  let t := if t.run && decide (t.start + pt ≤ rn) then { t with run := false, q := false } else t
  elapsed false pt rn { t with inn := i }

def tpStep (pt tn rn : Nat) (i : Bool) (t : LTimer) : LTimer :=
  let t := resumed tn t
  let t := if i && !t.inn && !t.q then { t with start := tn, run := true, q := true } else t
  let t := if t.run && decide (t.start + pt ≤ rn) then { t with run := false, q := false } else t
  elapsed false pt rn { t with inn := i }

/-- A timer instruction on slot `a`: IN is ACC, and ACC takes Q. -/
def timer (f : Nat → Nat → Nat → Bool → LTimer → LTimer) (c : LCtx) (a : Nat) (m : LM) : LM :=
  let i := opIndex a
  let t := f (tmrPt c.img i) m.x.tn m.x.rn m.x.acc (m.d.tmr.getD i {})
  { x := { m.x with acc := t.q }, d := { m.d with tmr := modAt m.d.tmr i (fun _ => t) } }

def lopTon (c : LCtx) (a : Nat) (m : LM) : LM := timer tonStep c a m
def lopTof (c : LCtx) (a : Nat) (m : LM) : LM := timer tofStep c a m
def lopTp (c : LCtx) (a : Nat) (m : LM) : LM := timer tpStep c a m
def lopTrst (_ : LCtx) (a : Nat) (m : LM) : LM :=
  if m.x.acc then
    { m with d := { m.d with tmr := modAt m.d.tmr (opIndex a) (fun t => { t with q := false, run := false, inn := false, et := 0, resume := false }) } }
  else m

/-! Counters (R356). -/

/-- A counter instruction on slot `a` with its new counter and ACC. -/
def counter (f : Nat → Bool → LCounter → LCounter × Bool) (c : LCtx) (a : Nat) (m : LM) : LM :=
  let i := opIndex a
  let (k, v) := f (cntPv c.img i) m.x.acc (m.d.cnt.getD i {})
  { x := { m.x with acc := v }, d := { m.d with cnt := modAt m.d.cnt i (fun _ => k) } }

def ctuStep (pv : Nat) (i : Bool) (k : LCounter) : LCounter × Bool :=
  let cv := if i && !k.cu then min (k.cv + 1) 65535 else k.cv
  ({ k with cv := cv, cu := i }, decide (pv ≤ cv))

def ctdStep (_ : Nat) (i : Bool) (k : LCounter) : LCounter × Bool :=
  let cv := if i && !k.cd then k.cv - 1 else k.cv
  ({ k with cv := cv, cd := i }, cv == 0)

def lopCtu (c : LCtx) (a : Nat) (m : LM) : LM := counter ctuStep c a m
def lopCtd (c : LCtx) (a : Nat) (m : LM) : LM := counter ctdStep c a m
def lopCrst (c : LCtx) (a : Nat) (m : LM) : LM := counter (fun _ i k => (if i then { k with cv := 0 } else k, i)) c a m
def lopCld (c : LCtx) (a : Nat) (m : LM) : LM := counter (fun pv i k => (if i then { k with cv := pv } else k, i)) c a m
def lopCge (c : LCtx) (a : Nat) (m : LM) : LM := counter (fun pv _ k => (k, decide (pv ≤ k.cv))) c a m

/-! Jumps and END: `idx` already names the next instruction. -/

def jump (a : Nat) (m : LM) : LM := { m with x := { m.x with idx := ((m.x.idx : Int) - 1 + signedOf a 24).toNat } }
def lopJmpc (_ : LCtx) (a : Nat) (m : LM) : LM := if m.x.acc then jump a m else m
def lopJmpnc (_ : LCtx) (a : Nat) (m : LM) : LM := if m.x.acc then m else jump a m
def lopJmp (_ : LCtx) (a : Nat) (m : LM) : LM := jump a m

/-- END: forced OUT and VAR bits take their forced value in the image that is released (R371). -/
def lopEnd (c : LCtx) (_ : Nat) (m : LM) : LM :=
  { x := { m.x with running := false }
    d := { m.d with
      out := m.d.out.mapIdx (fun i v => (forcedAt c (4 * 2 ^ 20 + i)).getD v)
      var := m.d.var.mapIdx (fun i v => (forcedAt c (5 * 2 ^ 20 + i)).getD v) } }

/-- Operand classes: must be 0, bit read, bit written, edge, timer, counter, jump offset. -/
inductive OpKind where
  | zero | read | write | edge | timer | counter | offset
  deriving DecidableEq, Repr

structure OpInfo where
  kind : OpKind
  clocks : Nat
  run : LCtx → Nat → LM → LM

/-- Table: Instructions. -/
def opInfo : Nat → Option OpInfo
  | 0x00 => some ⟨.zero, 1, lopNop⟩
  | 0x01 => some ⟨.read, 1, lopLd⟩
  | 0x02 => some ⟨.read, 1, lopLdn⟩
  | 0x03 => some ⟨.read, 1, lopAnd⟩
  | 0x04 => some ⟨.read, 1, lopAndn⟩
  | 0x05 => some ⟨.read, 1, lopOr⟩
  | 0x06 => some ⟨.read, 1, lopOrn⟩
  | 0x07 => some ⟨.read, 1, lopXor⟩
  | 0x08 => some ⟨.zero, 1, lopNot⟩
  | 0x10 => some ⟨.zero, 1, lopApush⟩
  | 0x11 => some ⟨.zero, 1, lopOpush⟩
  | 0x12 => some ⟨.zero, 1, lopPop⟩
  | 0x13 => some ⟨.zero, 1, lopDup⟩
  | 0x14 => some ⟨.zero, 1, lopRds⟩
  | 0x15 => some ⟨.zero, 1, lopDrop⟩
  | 0x20 => some ⟨.write, 1, lopSt⟩
  | 0x21 => some ⟨.write, 1, lopStn⟩
  | 0x22 => some ⟨.write, 1, lopSet⟩
  | 0x23 => some ⟨.write, 1, lopRst⟩
  | 0x30 => some ⟨.edge, 2, lopRise⟩
  | 0x31 => some ⟨.edge, 2, lopFall⟩
  | 0x40 => some ⟨.timer, 4, lopTon⟩
  | 0x41 => some ⟨.timer, 4, lopTof⟩
  | 0x42 => some ⟨.timer, 4, lopTp⟩
  | 0x43 => some ⟨.timer, 2, lopTrst⟩
  | 0x50 => some ⟨.counter, 3, lopCtu⟩
  | 0x51 => some ⟨.counter, 3, lopCtd⟩
  | 0x52 => some ⟨.counter, 2, lopCrst⟩
  | 0x53 => some ⟨.counter, 2, lopCld⟩
  | 0x54 => some ⟨.counter, 2, lopCge⟩
  | 0x60 => some ⟨.offset, 2, lopJmpc⟩
  | 0x61 => some ⟨.offset, 2, lopJmpnc⟩
  | 0x62 => some ⟨.offset, 2, lopJmp⟩
  | 0xFF => some ⟨.zero, 1, lopEnd⟩
  | _ => none

/-- One instruction: the index moves on, its clocks are spent, and it acts. -/
def logicInstr (clocks : Nat) (f : LCtx → Nat → LM → LM) (c : LCtx) (operand : Nat) (m : LM) : LM :=
  f c operand { m with x := { m.x with idx := m.x.idx + 1, clocks := m.x.clocks + clocks } }

/-- Instructions from the present index until END. -/
def logicRun (c : LCtx) : Nat → LM → LM
  | 0, m => m
  | k + 1, m =>
    if !m.x.running then m
    else
      let w := instrWord c.img m.x.idx
      match opInfo (w / 2 ^ 24) with
      | some o => logicRun c k (logicInstr o.clocks o.run c (w % 2 ^ 24) m)
      | none => { m with x := { m.x with running := false } }

/-! ### Verification (R360, R361) -/

/-- Executor clocks of a cluster per Milestone, and what remains in a takeover. -/
def logicBudget : Nat := 59520
def takeoverBudget : Nat := 11904

def allZero (b : Bytes) (off n : Nat) : Bool := (List.range n).all (fun i => byteAt b (off + i) == 0)

/-- Cause 1: a header field out of range or a reserved field not 0. -/
def headerBad (b : Bytes) : Bool :=
  let n := pNinstr b
  n == 0 || decide (16384 < n) || decide (4096 < pNvar b) || decide (256 < pNtmr b) || decide (256 < pNcnt b) || decide (1024 < pNedg b) ||
  pCycle b == 0 || decide (pCycle b ≤ pPhase b) || fld b 0 16 16 != 0 || fld b 4 15 17 != 0 || fld b 8 13 19 != 0 || fld b 0xC 29 3 != 0 ||
  fld b 0x10 4 28 != 0 || !allZero b 0x1C 28 ||
  (List.range (pDecls b)).any (fun j =>
    let k := kindOf b j
    bitsOf (declWord b j) 22 10 != 0 || ((k == 6 || k == 7) && (declRetain b j || declInit b j)) || ((k == 5 || k == 8) && declArg b j != 0))

/-- Cause 2: identifiers and kinds. -/
def declsBad (b : Bytes) : Bool :=
  let ids := (List.range (pDecls b)).map (declId b)
  (List.range (pDecls b)).any (fun j => declKind b j != kindOf b j) || ids.any (fun x => x == 0 || x == 0xFFFF) || decide (ids.eraseDups.length < ids.length)

/-- Causes 3, 4, 5 and 8 of instruction i by itself. -/
def instrBad (b : Bytes) (i : Nat) : Option Nat :=
  let w := instrWord b i
  let a := w % 2 ^ 24
  let n := pNinstr b
  match opInfo (w / 2 ^ 24) with
  | none => some 3
  | some o =>
    let cause : Option Nat := match o.kind with
      | .zero => if a != 0 then some 3 else if w / 2 ^ 24 == 0xFF && i + 1 != n then some 8 else none
      | .read => if mayRead (pNvar b) a then none else some 4
      | .write => if mayWrite (pNvar b) a then none else some 4
      | .edge => if opSpace a == 8 && decide (opIndex a < pNedg b) then none else some 4
      | .timer => if opSpace a == 6 && decide (opIndex a < pNtmr b) then none else some 4
      | .counter => if opSpace a == 7 && decide (opIndex a < pNcnt b) then none else some 4
      | .offset => if signedOf a 24 ≤ 0 || decide ((n : Int) - 1 < i + signedOf a 24) then some 5 else none
    if cause.isNone && i + 1 == n && w / 2 ^ 24 != 0xFF then some 8 else cause

/-- What reaches an instruction: its stack tags and the costliest path; or paths that disagree. -/
inductive Reach where
  | no | yes (tags : List STag) (cost : Nat) | clash
  deriving DecidableEq, Repr

def Reach.join (tags : List STag) (cost : Nat) : Reach → Reach
  | .no => .yes tags cost
  | .yes t c => if t == tags then .yes t (max c cost) else .clash
  | .clash => .clash

/-- Tags after an instruction; none where cause 6 is broken. -/
def tagsAfter (code : Nat) (tags : List STag) : Option (List STag) :=
  match code with
  | 0x10 => if tags.length < 16 then some (.and :: tags) else none
  | 0x11 => if tags.length < 16 then some (.or :: tags) else none
  | 0x13 => if tags.length < 16 then some (.none :: tags) else none
  | 0x12 => match tags with | .and :: t => some t | .or :: t => some t | _ => none
  | 0x14 => match tags with | .none :: _ => some tags | _ => none
  | 0x15 => match tags with | .none :: t => some t | _ => none
  | 0xFF => if tags.isEmpty then some [] else none
  | _ => some tags

/-- Instructions before i that name the same slot in a way that may occur once only (cause 7). -/
def namedBefore (b : Bytes) (i : Nat) : Bool :=
  let w := instrWord b i
  let cls (x : Nat) : Nat := match x / 2 ^ 24 with | 0x40 => 1 | 0x41 => 1 | 0x42 => 1 | 0x30 => 2 | 0x31 => 2 | 0x50 => 3 | 0x51 => 4 | _ => 0
  cls w != 0 && (List.range i).any (fun j => let v := instrWord b j; cls v == cls w && v % 2 ^ 24 == w % 2 ^ 24)

structure Verdict where
  /-- cause with the index of the first offending instruction -/
  bad : Option (Nat × Nat) := none
  wcet : Nat := 0
  depth : Nat := 0

/-- Instruction i after those before it. -/
def verifyAt (b : Bytes) (a : List Reach × Verdict) (i : Nat) : List Reach × Verdict :=
  let (rs, v) := a
  if v.bad.isSome then a
  else
    let w := instrWord b i
    let fail (c : Nat) : List Reach × Verdict := (rs, { v with bad := some (c, i) })
    match instrBad b i with
    | some c => fail c
    | none =>
      match rs.getD i .no with
      | .clash => fail 6
      | .no => if namedBefore b i then fail 7 else a
      | .yes tags cost =>
        let code := w / 2 ^ 24
        match tagsAfter code tags with
        | none => fail 6
        | some t =>
          if namedBefore b i then fail 7
          else
            let cost := cost + (match opInfo code with | some o => o.clocks | none => 0)
            let to_ := ((i : Int) + signedOf (w % 2 ^ 24) 24).toNat
            let succ := if code == 0xFF then [] else if code == 0x62 then [to_] else if code == 0x60 || code == 0x61 then [i + 1, to_] else [i + 1]
            (succ.foldl (fun r s => modAt r s (Reach.join t cost)) rs,
             { v with wcet := if code == 0xFF then max v.wcet cost else v.wcet, depth := max v.depth t.length })

/-- Every timer and edge memory is named. -/
def allNamed (b : Bytes) : Bool :=
  let has (codes : List Nat) (i : Nat) : Bool :=
    (List.range (pNinstr b)).any (fun k => let w := instrWord b k; codes.contains (w / 2 ^ 24) && opIndex (w % 2 ^ 24) == i)
  (List.range (pNtmr b)).all (has [0x40, 0x41, 0x42]) && (List.range (pNedg b)).all (has [0x30, 0x31])

/-- The verdict on an image: the cause with its index, 0xFFFF for header, declarations and WCET. -/
def verify (b : Bytes) : Verdict :=
  if headerBad b then { bad := some (1, 0xFFFF) }
  else if declsBad b then { bad := some (2, 0xFFFF) }
  else
    let n := pNinstr b
    let v := ((List.range n).foldl (verifyAt b) (.yes [] 0 :: List.replicate (n - 1) .no, {})).2
    if v.bad.isSome then v
    else if !allNamed b then { v with bad := some (7, 0xFFFF) }
    else if logicBudget < v.wcet then { v with bad := some (9, 0xFFFF) }
    else v

end Sys2Proof.Machine
end

