-- ==== Sys2Proof/Machine/Logic.lean ====
section
/-! DEFINITION. Scheme logic of a bay: snapshot, logic cycle, release, overrun, starts, switch and forces, and the LOGIC commands
(R348-R350, R352, R358-R374). -/

namespace Sys2Proof.Machine

def logicBay (s : State) (b : Nat) : LogicBay := (bayProt s b).logic
def setLogic (b : Nat) (f : LogicBay → LogicBay) (s : State) : State := setBay b (fun x => { x with logic := f x.logic }) s

/-- Image of the active bank; none where the bank is empty. -/
def activeImage (x : LogicBay) : Option Bytes := let b := (x.banks.getD x.act {}).image; if b.isEmpty then none else some b
def idleBank (x : LogicBay) : Bank := x.banks.getD (1 - x.act) {}

/-! ### Element bits and flags (R351, R352) -/

/-- EN of element i in a group block. -/
def elementEn (g : Bytes) (i : Nat) : Bool :=
  if i < 25 then recEn (recBytes g i)
  else bitAt g ([0x680, 0x6C0, 0x700, 0x740, 0x780, 0x800, 0x900, 0x940, 0x980, 0x9C0, 0xA40].getD (i - 25) 0x680) 0

/-- A stage is evaluated per phase. -/
def perPhase (g : Bytes) (i : Nat) : Bool := isPhaseI i || (13 ≤ i && i ≤ 16 && recOpt (recBytes g i) ≤ 1)

/-- PU_ABC and OP_ABC of element i. -/
def elemAbc (g : Bytes) (r : BayRun) (i : Nat) : Nat × Nat :=
  if i < 25 && perPhase g i then (boolBits (r.stages.getD i {}).ph, (r.stages.getD i {}).opAbc) else (0, 0)

def bitN (x i : Nat) : Nat := bitsOf x i 1

/-- The ELM space of a bay as a number. -/
def elmBits (s : State) (b : Nat) : Nat :=
  if !evaluated (effBeh s b) then 0
  else
    let r := bayRun s b
    let e := r.el
    let g := grpBytes s b
    let one (i : Nat) : Nat :=
      let (pu, op) := elemAbc g r i
      bitN e.pu i + place (bitN e.op i) 1 1 + place pu 2 3 + place op 5 3 + place (bitN e.blk i) 8 1 + place (bitN e.qblk i) 9 1 +
        place (flag (elementEn g i && bitN e.qblk i == 0)) 10 1
    let el := (List.range 36).foldl (fun a i => a + one i * 2 ^ (16 * i)) 0
    let misc := boolBits [e.bayTrip, e.ar.close, e.bfRe, e.bfBk, e.inrush.any id, e.inrush.getD 0 false, e.inrush.getD 1 false,
      e.inrush.getD 2 false, e.clp, e.armed, e.sotfWin, e.hifLatch]
    let dir := (List.range 5).foldl (fun a k => a + (match e.dirs.getD k 0 with | 1 => 1 | 2 => 2 | _ => 0) * 4 ^ k) 0
    el + misc * 2 ^ 0x240 + dir * 2 ^ 0x250 + (e.btSect % 2 ^ 16) * 2 ^ 0x260 + place e.ar.st 0x270 3 + place (flag (e.ar.st == 6)) 0x273 1 +
      2 ^ 0x27F

/-- Table: Flags. -/
def logicFlags (s : State) (b : Nat) : Nat :=
  let x := logicBay s b
  let beh := effBeh s b
  let first := match x.first with | 1 => 3 | 2 => 5 | 3 => 9 | _ => 0
  let mode := match s.mode.mode with | .commission => 1 | .service => 2 | .degraded => 4 | .rideThrough => 8 | .safe => 16 | _ => 0
  1 + place first 2 4 + place (flag x.overrunFlag) 6 1 + place (flag (!x.forces.isEmpty)) 7 1 +
    place (flag (!notSynchronized s.time)) 8 1 + place mode 9 5 + (if 1 ≤ beh && beh ≤ 5 then 2 ^ (13 + beh) else 0) +
    place (flag (s.mode.fsActive.getD b false)) 19 1 + place (bayProt s b).group 20 3 + place (flag (plbLasting s b)) 23 1 +
    (List.range 8).foldl (fun a k => a + place ((bayRun s b).meas.words.getD k {}).q (32 + 8 * k) 8) 0

/-- GOOSE input bit as a bay's program reads it from the snapshot: a test input fails in a bay that is not in test. -/
def ginBit (s : State) (beh i : Nat) : Bool :=
  let k := i / 64
  let m := i / 4 % 16
  let x := (s.net.snap.getD k []).getD m {}
  let fails := x.test && !testValid beh
  match i % 4 with
  | 0 => if fails then (match goFail (streamBytes s k) m with | 0 => false | 1 => true | _ => x.lastValid) else x.value
  | 1 => x.valid && !fails
  | 2 => x.test
  | _ => false

def logicCtx (s : State) (b : Nat) : LCtx :=
  { img := (activeImage (logicBay s b)).getD [], gin := ginBit s (effBeh s b), forces := (logicBay s b).forces }

/-! ### One cycle (R348, R349, R355) -/

/-- BI0-BI63 of the snapshot. -/
def biSnap (s : State) : Nat := boolBits s.trip.snap

/-- The machine at the start of a logic cycle: ACC 0, snapshot fixed. -/
def logicStartExec (s : State) (b : Nat) : LExec :=
  { running := true, ms := s.clk.ms, tn := s.clk.openedAt / usU 1, rn := (s.clk.openedAt + s.clk.len) / usU 1
    elm := elmBits s b, flg := logicFlags s b, bi := biSnap s }

/-- A skipped logic cycle: 1 overrun, 2 takeover, an event of the replayed cycle (R390); at most one record per second, with the skips since the last (R362). -/
def logicSkip (b ms cause : Nat) (s : State) : State :=
  let x := logicBay s b
  let s := bumpClass 2 ClassCount.drop (setLogic b (fun x => { x with skips := satN 32 (x.skips + 1) }) s)
  let due := match x.skipRecAt with | none => true | some t => decide (t + secU 1 ≤ s.clk.mono)
  if due then
    stageEvent (if cause == 2 then 32 + clusterOf b else clusterOf b) Src.logic 1 b (dMs ms ++ dCode cause ++ dCount x.skipFolded)
      (setLogic b (fun x => { x with skipRecAt := some s.clk.mono, skipFolded := 0 }) s)
  else setLogic b (fun x => { x with skipFolded := x.skipFolded + 1 }) s

/-- A bay's logic runs in Milestone n. -/
def logicDue (s : State) (b : Nat) : Bool :=
  match activeImage (logicBay s b) with
  | none => false
  | some i => (logicBay s b).running && pCycle i != 0 && s.clk.ms % pCycle i == pPhase i

/-- The logic cycle of the Milestone in progress, run to END on its snapshot. -/
def logicCycle (b : Nat) (s : State) : State :=
  if !logicDue s b then s
  else if (logicBay s b).skipNext then setLogic b (fun x => { x with skipNext := false }) s
  else
    let c := logicCtx s b
    let x := logicBay s b
    let m := logicRun c (pNinstr c.img + 1) { x := logicStartExec s b, d := x.data }
    setLogic b (fun x => { x with chk := x.data, data := m.d, exec := m.x, ran := true, lastBank := some x.act }) s

/-- The first Milestone from n on whose number fits CYCLE and PHASE (R348, R366). -/
def firstCycle (i : Bytes) (n : Nat) : Nat := let l := max (pCycle i) 1; n + (pPhase i + l - n % l) % l

/-- What the end of a Milestone does with a bay's logic cycle: release, or hold while it overruns, which skips the next scheduled one
(R362). -/
def logicRelease (b : Nat) (s : State) : State :=
  let x := logicBay s b
  if !x.ran then s
  else if x.overrunState == 1 then
    logicSkip b (firstCycle ((activeImage x).getD []) (s.clk.ms + 1)) 1 (setLogic b (fun x => { x with overrunState := 2, skipNext := true }) s)
  else
    setLogic b (fun x =>
      { x with
        rel := x.data.out, relCnt := x.data.cnt.map (·.cv), lastMs := x.exec.ms, cycles := (x.cycles + 1) % 2 ^ 32
        execLast := x.exec.clocks, execMax := max x.execMax x.exec.clocks, ran := false, first := 0, overrunFlag := x.overrunState == 2
        overrunState := 0 }) s

/-- A takeover in Milestone n: the logic cycle of n counts as skipped, and its data are those of the checkpoint (R364); a cycle that
overran the Milestone before is not released in its own. -/
def logicTakeover (b ms : Nat) (s : State) : State :=
  let x := logicBay s b
  let s := if x.running && (activeImage x).isSome then setLogic b (fun x => { x with start := 4 }) s else s
  if x.ran && x.exec.ms == ms then logicSkip b ms 2 (setLogic b (fun x => { x with data := x.chk, ran := false, overrunState := 0 }) s)
  else if x.ran then setLogic b (fun x => { x with ran := false, overrunState := 0, overrunFlag := true }) s
  else s

/-- The cycle of the Milestone in progress has not reached END at the boundary that ends it (R362). -/
def logicOverrun (b : Nat) (s : State) : State :=
  let x := logicBay s b
  if x.ran && x.exec.ms == s.clk.ms && x.overrunState == 0 then
    settle (countEvent 13 b (bumpClass 2 ClassCount.delay
      (setLogic b (fun x => { x with overrunState := 1, overruns := satN 32 (x.overruns + 1) }) s)))
  else s

/-- LOGIC_OVERRUN (R362). -/
def execLogicOverrun (b : BitVec 6) (s : State) : Out := .next (logicOverrun b.toNat s)

/-- The cycle of the Milestone before has not reached END at the boundary that ends this one (R363). -/
def logicAbort (b : Nat) (s : State) : State :=
  let x := logicBay s b
  if x.ran && x.overrunState == 2 then
    settle (countEvent 3 b (failCluster (clusterOf b) 3 (setLogic b (fun x => { x with data := x.chk, ran := false, overrunState := 0 }) s)))
  else s

/-- LOGIC_ABORT (R363). -/
def execLogicAbort (b : BitVec 6) (s : State) : Out := .next (logicAbort b.toNat s)

/-! ### Starts (R365, R366) -/

/-- Initial value of timer, counter, variable and edge slots. -/
def coldData (i : Bytes) : LData :=
  { var := (List.range (pNvar i)).map (declInit i)
    tmr := List.replicate (pNtmr i) {}
    cnt := (List.range (pNcnt i)).map (fun c => { cv := bitsOf (declArg i (cntDecl i c)) 16 16 })
    edg := (List.range (pNedg i)).map (fun e => declInit i (edgDecl i e)) }

def warmData (i : Bytes) (d : LData) : LData :=
  { d with
    var := d.var.mapIdx (fun j v => if declRetain i j then v else declInit i j)
    edg := d.edg.mapIdx (fun e v => if declRetain i (edgDecl i e) then v else declInit i (edgDecl i e))
    tmr := d.tmr.map (fun t => { t with resume := t.run }) }

/-- A cold or warm start of a bay's logic on its active bank. -/
def logicInit (warm : Bool) (x : LogicBay) : LogicBay :=
  match activeImage x with
  | none => { x with data := {}, start := 0, first := 0 }
  | some i =>
    if warm then { x with data := warmData i x.data, start := 2, first := 2 } else { x with data := coldData i, start := 1, first := 1 }

/-- The start of protection for a bay; with LOGIC_WARM a bay whose active bank last ran starts warm (R365, R77). Answers whether
it started cold. -/
def logicStartBay (warm : Bool) (x : LogicBay) : LogicBay × Bool :=
  let w := warm && x.lastBank == some x.act && (activeImage x).isSome
  let y := logicInit w x
  ({ y with running := true, ran := false, overrunState := 0, overrunFlag := false, skipNext := false
            rel := if w then y.data.out else List.replicate 128 false, relCnt := y.data.cnt.map (·.cv) }, !w && (activeImage x).isSome)

/-- LOGIC.RESTART at its boundary: the earliest first cycle, none where nothing restarts. -/
def applyLogicRestart (unit kind : Nat) (s : State) : State × Option Nat :=
  let bays := if unit == 0x00FF then List.range s.variant.bays else [unit]
  bays.foldl (fun (a : State × Option Nat) b =>
    let x := logicBay a.1 b
    match activeImage x with
    | none => a
    | some i =>
      if !x.running then a
      else
        let n := firstCycle i a.1.clk.ms
        (setLogic b (fun x => { logicInit (kind == 1) x with ran := false, overrunState := 0, skipNext := false }) a.1, some (match a.2 with | some m => min m n | none => n))) (s, none)

/-! ### Switch (R367-R369, R371) -/

/-- Declaration index of an identifier. -/
def declOf (i : Bytes) (id : Nat) : Option Nat := findIdxBelow (pDecls i) (fun j => declId i j == id)

/-- The state of declaration o of the old program copied into declaration d of the new one. -/
def carry (old new : Bytes) (od : LData) (o d : Nat) (nd : LData) : LData :=
  let i := slotOf old o
  let j := slotOf new d
  match kindOf new d with
  | 5 => { nd with var := modAt nd.var j (fun _ => od.var.getD i false) }
  | 6 => { nd with tmr := modAt nd.tmr j (fun _ => od.tmr.getD i {}) }
  | 7 => { nd with cnt := modAt nd.cnt j (fun _ => od.cnt.getD i {}) }
  | _ => { nd with edg := modAt nd.edg j (fun _ => od.edg.getD i false) }

/-- Data carried by identifier with the counts CARRIED, NEW and MISMATCH. -/
def carryAll (old : Option Bytes) (new : Bytes) (od : LData) : LData × Nat × Nat × Nat :=
  (List.range (pDecls new)).foldl (fun (a : LData × Nat × Nat × Nat) d =>
    match old.bind (fun o => (declOf o (declId new d)).map (fun k => (o, k))) with
    | some (o, k) =>
      if kindOf o k == kindOf new d then (carry o new od k d a.1, a.2.1 + 1, a.2.2.1, a.2.2.2)
      else (a.1, a.2.1, a.2.2.1, a.2.2.2 + 1)
    | none => (a.1, a.2.1, a.2.2.1 + 1, a.2.2.2)) ({ coldData new with out := od.out }, 0, 0, 0)

/-- Forces after a switch: dropped are those on an identifier that is no VAR of the new program. -/
def keptForce (new : Bytes) (f : Force) : Bool := !f.ident || (varSlot new f.where_).isSome

def progIds (i : Option Bytes) : Bytes := match i with | some b => dWord (u32At b 0x14) ++ dWord (u32At b 0x18) | none => dWord 0 ++ dWord 0

/-- A bay's logic cycle is still running at a boundary. -/
def logicBusy (s : State) (b : Nat) : Bool := (logicBay s b).overrunState != 0

/-- LOGIC.SWITCH at its boundary: DETAIL, RESULT and EFFECT_MS of its completion. -/
def applyLogicSwitch (b : Nat) (s : State) : State × Nat × Nat × Nat :=
  let x := logicBay s b
  let old := activeImage x
  let new := (idleBank x).image
  let running := s.mode.mode.runs && x.running
  let (d, carried, fresh, mism) := if running then carryAll old new x.data else (x.data, 0, 0, 0)
  let drop := x.forces.filter (fun f => !keptForce new f)
  let kept := (x.forces.filter (fun f => f.ident && keptForce new f)).length
  let eff := if running then firstCycle new s.clk.ms else s.clk.ms
  let s := setLogic b (fun x =>
    { x with
      act := 1 - x.act, data := d, forces := x.forces.filter (keptForce new), skipNext := false
      first := if running then 3 else x.first, start := if running then 3 else x.start, switchMs := if running then eff else x.switchMs }) s
  let s := drop.foldl (fun s f => postEvent Src.logic 3 b (dUnit f.where_ ++ dCode (flag f.value)) s) s
  let s := postEvent Src.logic 2 b (progIds old ++ progIds (some new)) s
  (s, drop.length, carried + place fresh 16 16 + place mism 32 16 + place kept 48 8 + place drop.length 56 8, eff)

/-! ### Forces (R371, R372) -/

def Force.same (f g : Force) : Bool := f.ident == g.ident && f.where_ == g.where_

/-- The record of a force set, changed or removed. -/
def forceRecord (b op : Nat) (f : Force) (s : State) : State :=
  postEvent Src.logic 4 b (dCode op ++ dCode (flag f.ident) ++ dWord f.where_ ++ dCode (flag f.value)) s

/-- First logic cycle that sees a change of force, or the boundary that stores it. -/
def forceEffect (s : State) (b : Nat) : Nat :=
  match activeImage (logicBay s b) with
  | some i => if s.mode.mode.runs then firstCycle i s.clk.ms else s.clk.ms
  | none => s.clk.ms

def applyLogicForce (b : Nat) (f : Force) (s : State) : State × Nat :=
  let had := (logicBay s b).forces.any f.same
  let s := setLogic b (fun x => { x with forces := if had then x.forces.map (fun g => if f.same g then f else g) else x.forces ++ [f] }) s
  (forceRecord b (if had then 2 else 1) f s, forceEffect s b)

def applyLogicUnforce (b : Nat) (f : Force) (all : Bool) (s : State) : State × Nat :=
  let gone := (logicBay s b).forces.filter (fun g => all || f.same g)
  let s := setLogic b (fun x => { x with forces := x.forces.filter (fun g => !(all || f.same g)) }) s
  (gone.foldl (fun s g => forceRecord b 3 g s) s, forceEffect s b)

/-! ### Commands -/

def logicModes (m : Mode) : Bool := m == .configure || m == .commission || m == .service || m == .degraded

/-- LOGIC commands that take a bay and no ARGS but these. -/
def logicJudge (c : Cmd) (modes : Mode → Bool) (used : List (Nat × Nat × Nat)) (range : List (Bool × Nat)) (s : State) : Judge :=
  { absent := decide (s.variant.bays ≤ c.unit), modeBad := !modes s.mode.mode, used := used, range := range }

/-- KiB a bank occupies in the program pool (R359). -/
def bankKib (k : Bank) : Nat := (k.image.length + 1023) / 1024

/-- KiB of a cluster's pool in use, the inactive bank of bay b apart. -/
def poolUsed (s : State) (b : Nat) : Nat :=
  ((List.range 8).map (8 * clusterOf b + ·)).foldl (fun a i =>
    let x := logicBay s i
    a + ((x.banks.mapIdx (fun k y => if i == b && k != x.act then 0 else bankKib y)).foldl (· + ·) 0)) 0

/-- LOGIC_LOAD (R359). -/
def execLogicLoad (c : Cmd) (s : State) : Out :=
  .next (command c (logicJudge c logicModes [] []) (fun s =>
    let n := c.room
    let img := memRead s c.bufSpace c.bufAddr n
    if n != 0 && !reachable s c.bufSpace c.bufAddr n then .done (Reply.fail St.fault 3) s
    else if 2 ≤ n && u16At img 0 != 1 then .done (Reply.range 0x40) s
    else if n < 64 || u32At img 0x38 != n || pLength img != n || (crc32c (img.take 0x3C ++ img.drop 0x40)).toNat != u32At img 0x3C then
      .done (Reply.refuse Rsn.check) s
    else if 512 < poolUsed s c.unit + bankKib { image := img } then .done (Reply.refuse Rsn.capacity) s
    else
      let s := setLogic c.unit (fun x =>
        { x with banks := modAt x.banks (1 - x.act) (fun _ => { image := img }),
                 lastBank := if x.lastBank == some (1 - x.act) then none else x.lastBank }) s
      .done { effect := some s.clk.ms } s) s)

/-- Clocks of the cluster's programs in the residue r of n mod 4, with `w` and `img` in place of bay b's (R361). -/
def loadOf (s : State) (b r : Nat) (img : Bytes) (w : Nat) : Nat :=
  ((List.range 8).map (8 * clusterOf b + ·)).foldl (fun a i =>
    let x := logicBay s i
    let (p, k) := if i == b then (img, w) else ((activeImage x).getD [], (x.banks.getD x.act {}).wcet)
    if !p.isEmpty && pCycle p != 0 && r % pCycle p == pPhase p then a + k else a) 0

def loadsWithin (s : State) (b : Nat) (img : Bytes) (w limit : Nat) : Bool := (List.range 4).all (fun r => decide (loadOf s b r img w ≤ limit))

/-- LOGIC_VERIFY (R360). -/
def execLogicVerify (c : Cmd) (s : State) : Out :=
  .next (command c (logicJudge c logicModes [] []) (fun s =>
    let k := idleBank (logicBay s c.unit)
    if k.image.isEmpty then .done (Reply.refuse Rsn.state) s
    else
      let v := verify k.image
      match v.bad with
      | some (cause, i) => .done { Reply.refuse Rsn.check with result := i + place cause 16 8 } s
      | none =>
        let s := setLogic c.unit (fun x => { x with banks := modAt x.banks (1 - x.act) (fun k => { k with verified := true, wcet := v.wcet, depth := v.depth }) }) s
        .done { result := v.wcet + place v.depth 32 5 + place (flag (loadsWithin s c.unit k.image v.wcet logicBudget)) 37 1 +
                  place (flag (loadsWithin s c.unit k.image v.wcet takeoverBudget)) 38 1 } s) s)

/-- LOGIC_SWITCH (R367). -/
def execLogicSwitch (c : Cmd) (s : State) : Out :=
  .next (command c (logicJudge c logicModes [] []) (fun s =>
    let k := idleBank (logicBay s c.unit)
    if !k.verified then .done (Reply.refuse Rsn.state) s
    else if !loadsWithin s c.unit k.image k.wcet logicBudget then .done (Reply.refuse Rsn.capacity) (bumpClass 2 ClassCount.refuse s)
    else .atBoundary 0 0 (.logicSwitch c.unit) s) s)

/-- Fields of LOGIC.FORCE and LOGIC.UNFORCE: a target identifier uses fewer bits of ARGS. -/
def forceUsed (c : Cmd) (all : Bool) : List (Nat × Nat × Nat) :=
  [(0x14, 0, if all then 3 else 2), (0x18, 0, if c.at_ 0x14 0 1 == 1 then 16 else 24)]

def forceOf (c : Cmd) : Force :=
  { ident := c.at_ 0x14 0 1 == 1, value := c.at_ 0x14 1 1 == 1, where_ := if c.at_ 0x14 0 1 == 1 then c.at_ 0x18 0 16 else c.at_ 0x18 0 24 }

def forceRange (c : Cmd) : List (Bool × Nat) := [(c.at_ 0x14 0 1 == 0 && !mayForce (c.at_ 0x18 0 24), 0x18)]

/-- LOGIC_FORCE (R372). -/
def execLogicForce (c : Cmd) (s : State) : Out :=
  .next (command c (logicJudge c logicModes (forceUsed c false) (forceRange c)) (fun s =>
    let f := forceOf c
    let x := logicBay s c.unit
    if f.ident && ((activeImage x).bind (fun i => varSlot i f.where_)).isNone then .done (Reply.refuse Rsn.state) s
    else if !x.forces.any f.same && decide (64 ≤ x.forces.length) then .done (Reply.refuse Rsn.capacity) s
    else .atBoundary 0 0 (.logicForce c.unit f) s) s)

/-- LOGIC_UNFORCE (R372). -/
def execLogicUnforce (c : Cmd) (s : State) : Out :=
  let all := c.at_ 0x14 2 1 == 1
  .next (command c (logicJudge c logicModes (forceUsed c true) (if all then [] else forceRange c)) (fun s =>
    let f := forceOf c
    if !(logicBay s c.unit).forces.any (fun g => all || f.same g) then .done {} s
    else .atBoundary 0 0 (.logicUnforce c.unit f all) s) s)

/-- LOGIC_RESTART (R366). -/
def execLogicRestart (c : Cmd) (s : State) : Out :=
  let kind := c.at_ 0x14 0 2
  .next (command c (fun s =>
      { absent := c.unit != 0x00FF && decide (s.variant.bays ≤ c.unit)
        modeBad := !(s.mode.mode == .commission || s.mode.mode == .service || s.mode.mode == .degraded)
        used := [(0x14, 0, 2)], range := [(kind == 0 || kind == 3, 0x14)] })
    (fun s => .atBoundary 0 0 (.logicRestart c.unit kind) s) s)

/-- Table: LOGIC.READ result, as the bay's last completed logic cycle left it. -/
def logicReadBlock (s : State) (b : Nat) : Bytes :=
  let x := logicBay s b
  let i := (activeImage x).getD []
  let d := if x.ran then x.chk else x.data
  let c := logicCtx s b
  let bank (k : Nat) : Bank := x.banks.getD k {}
  let ids (k : Bank) : Bytes := if k.image.isEmpty then zeros 8 else leBytes 4 (u32At k.image 0x14) ++ leBytes 4 (u32At k.image 0x18)
  let bits (n : Nat) (f : Nat → Bool) : Bytes := leBytes (n / 8) (maskOf n f)
  let forced (sp k : Nat) (v : Bool) : Bool := (forcedAt c (sp * 2 ^ 20 + k)).getD v
  leBytes 8 x.lastMs ++
  leBytes 4 (x.act + boolBits [!(bank 0).image.isEmpty, (bank 0).verified, !(bank 1).image.isEmpty, (bank 1).verified] * 2 +
    place (fld i 0x10 0 2) 5 2 + place (pPhase i) 7 2 + place (flag (x.running && !i.isEmpty)) 9 1 + place x.start 10 3) ++
  ids (bank x.act) ++ ids (bank (1 - x.act)) ++ leBytes 4 (bank x.act).wcet ++ leBytes 4 x.cycles ++ leBytes 4 x.overruns ++
  leBytes 4 x.skips ++ leBytes 4 x.execLast ++ leBytes 4 x.execMax ++ leBytes 4 x.forces.length ++ leBytes 8 x.switchMs ++
  bits 128 (fun k => forced 4 k (x.rel.getD k false)) ++ zeros 0x30 ++
  (List.range 64).flatMap (fun j => match x.forces[j]? with
    | some f => leBytes 4 (flag f.ident + place (flag f.value) 1 1 + 4) ++ leBytes 4 f.where_
    | none => zeros 8) ++
  bits 4096 (fun k => decide (k < pNvar i) && forced 5 k (d.var.getD k false)) ++
  (List.range 256).flatMap (fun t =>
    let y := d.tmr.getD t {}
    leBytes 4 y.et ++ leBytes 4 (boolBits [y.inn, y.q, y.run])) ++
  (List.range 256).flatMap (fun k =>
    let y := d.cnt.getD k {}
    leBytes 4 (y.cv + place (flag y.cu) 16 1 + place (flag y.cd) 17 1 + place (flag (decide (k < pNcnt i) && decide (cntPv i k ≤ y.cv))) 18 1)) ++
  bits 1024 (fun k => d.edg.getD k false)

/-- LOGIC_READ (R374). -/
def execLogicRead (c : Cmd) (s : State) : Out :=
  .next (command c (logicJudge c (fun _ => true) [] []) (fun s =>
    let out := logicReadBlock s c.unit
    .done { out := some out } (if !returns c out.length s then s else setLogic c.unit (fun x => { x with execMax := 0 }) s)) s)

end Sys2Proof.Machine
end

