-- ==== Sys2Proof/Machine/Cycle.lean ====
section
/-! DEFINITION. The protection cycle of a Milestone: measurands, plausibility, elements, sections, 50BF, BAY_TRIP, 79, locator and
adaptation of every bay in service (R20, R21, R264-R271, R283-R308). -/

namespace Sys2Proof.Machine

/-! ### Bays and their order -/

/-- Bays that run in the cycle: enabled, in service, protection running. -/
def runningBays (s : State) : List Nat := (List.range 64).filter (fun b => bayEn s b && bayOk s b && s.mode.mode.runs)

/-- The bays and sections of the clusters that satisfy `p`; a section belongs to the cluster of its home. -/
def forBaysOf (p : Nat → Bool) (f : Nat → State → State) (s : State) : State :=
  ((runningBays s).filter (fun b => p (clusterOf b))).foldl (fun s b => f b s) s
def forSectsOf (p : Nat → Bool) (f : Nat → State → State) (s : State) : State :=
  ((sections s).filter (fun k => p (sectHomeCluster s k))).foldl (fun s k => f k s) s
def forBays (f : Nat → State → State) (s : State) : State := (runningBays s).foldl (fun s b => f b s) s

/-! ### Measurands -/

def cycleMeasure (b : Nat) (s : State) : State := setRun b (fun r => { r with ran := true, meas := measure s b r.hist }) s

/-- The agreed voltage FREQ_SECT names, with its full scale. -/
def agreedFor (s : State) (bb : Bytes) : Phasor × Nat := let r := sectRun s (freqSect bb); (r.agreed, r.agreedFs)

/-- Frequency, thermal state, bands and energy. -/
def cycleFreq (b : Nat) (s : State) : State :=
  let bb := bayBytes s b
  let r := bayRun s b
  let (m, h) := measFreq s b bb (agreedFor s bb) r.meas r.hist
  let h := thermStep bb s.clk.len m h
  let h := if s.clk.ms % 96 == 95 && r.frameMs != some s.clk.ms then bandStep s b h else h
  setBay b (fun x => { x with cur := { x.cur with meas := m, hist := h }, energy := addEnergy s.clk.len (power3 bb m.rep) x.energy }) s

/-! ### Plausibility -/

def cycleBayChecks (b : Nat) (s : State) : State :=
  let s := bayChecks b s
  clear12 (clusterOf b) b ((bayRun s b).inChk.last || (bayRun s b).vxChk.last) s

def clearSect (k : Nat) (s : State) : State :=
  clear12 (sectCluster s k) (0x0100 + k) ((sectRun s k).kir.any (·.last) || (sectRun s k).vag.last) s

/-- The words and phasors of a lane in the Milestone in progress carry QST (R275); the tap of MON_DIV m only where it takes the word. -/
def questionable (m ms : Nat) (st : LaneSt) : LaneSt :=
  let w (x : TW) : TW := { x with q := x.q ||| Qb.qst }
  let p (x : Phasor) : Phasor := { x with q := x.q ||| Qb.qst }
  { st with
    words := modAt st.words 0 w, tap := (st.tap.take 4).map w ++ st.tap.drop 4, fineDft := p st.fineDft, fineCos := p st.fineCos
    fast := st.fast.map p
    monitor := if m ≤ 1 || ms % 2 ^ (m - 1) == 0 then st.monitor.map (fun x => { x with q := x.q ||| Qb.qst }) else st.monitor }

/-- The lanes of a bay that the plausibility model marks (R275). -/
def markBay (b : Nat) (s : State) : State :=
  ((List.range 8).map (8 * b + ·)).foldl (fun s l =>
    if plbMarked s l then setFilt (fun x => { x with lanes := modAt x.lanes l (questionable (monDiv (laneBytes s l)) s.clk.ms) }) s else s) s

/-! ### Elements of a bay -/

/-- Elements whose bit is set at a flag of their record: bit k of stages, with the flags of 46BC, 49, SOTF and HIF. -/
def flagMask (g : Bytes) (stage : Bytes → Bool) (others : List (Nat × Nat × Nat)) : Nat :=
  maskOf 36 (fun i => if i < 25 then stage (recBytes g i) && recEn (recBytes g i) else others.any (fun o => o.1 == i && bitAt g o.2.1 o.2.2))

def tripMask (g : Bytes) : Nat := flagMask g recTrip [(27, 0x700, 1), (28, 0x740, 1), (31, 0x900, 1), (34, 0x9C0, 1)]
def bfInitMask (g : Bytes) : Nat := flagMask g recBfInit [(27, 0x700, 2), (31, 0x900, 2)]
def arInitMask (g : Bytes) : Nat := flagMask g recArInit [(27, 0x700, 3)]

/-- The shot mask in force (R305). -/
def shotMask (g : Bytes) (a : ArSt) : Nat := if bitAt g 0x800 0 then fld g (0x820 + 4 * min a.c 4) 0 25 else 0

/-- PU, OP, BLK and QBLK of R318 from the elements' states. -/
def statusWords (g : Bytes) (blk : Nat) (st : List StageSt) (e : Elems) : Elems :=
  let stg (f : StageSt → Bool) : Nat := maskOf 25 (fun i => f (st.getD i {}))
  let enBlk (i : Nat) : Nat := if elementEn g i && inMask blk i then 2 ^ i else 0
  let at_ (i : Nat) (b : Bool) : Nat := if b then 2 ^ i else 0
  { e with
    pu := stg (·.pu) + at_ 27 e.bc.pu + at_ 28 e.thPu + at_ 29 e.bfAt.isSome + at_ 31 e.sotfOp + at_ 32 (e.inrush.any id) + at_ 34 e.hif.pu
    op := stg (·.op) + at_ 27 e.bc.op + at_ 28 e.thOp + at_ 29 (e.bfRe || e.bfBk) + at_ 31 e.sotfOp + at_ 34 e.hif.op
    blk := stg (·.blk) + enBlk 25 + enBlk 26 + at_ 27 e.bc.blk + enBlk 28 + at_ 29 e.bfBlk + enBlk 30 + enBlk 31 + enBlk 32 + enBlk 33 +
      at_ 34 e.hif.blk + enBlk 35
    qblk := stg (·.qblk) + at_ 27 e.bc.qblk }

/-- A bay in off: every element at reset values; adaptation and background keep theirs (R83, R84, R344). -/
def offElems (e : Elems) : Elems :=
  { ar := e.ar, load := e.load, loadQ := e.loadQ, tripAt := e.tripAt, bkg := e.bkg, bkgAge := e.bkgAge, bkgLearnt := e.bkgLearnt, bkgOk := e.bkgOk }

def anyStage (st : List StageSt) (n : Nat) : Bool := (st.take n).any (·.pu)

/-- The context of a bay's stages: block mask, inrush, cold-load pickup, SOTF window and directional memory in force. -/
def stageCtx (c : BCtx) (e : Elems) : BCtx := { c with inr := e.inrBlk, clp := e.clp, sotf := e.sotfWin, vmem := e.vmem }

/-- Stages and elements of a bay in the cycle, before sections and 50BF. -/
def cycleElements (b : Nat) (s : State) : State :=
  let r := bayRun s b
  let c := bayCtx s b
  if !evaluated c.beh then setRun b (fun r => { r with stages := List.replicate 25 {}, el := offElems r.el }) s
  else
    let eblk := eblkMask s b
    let c := { c with blk := eblk ||| maskElements (bayMask s b) ||| shotMask c.g r.el.ar }
    let e := sotfStep c (sotfArm c (clpStep c (inrushStep c (memStep c { r.el with bfPrev := r.el.bfAt.isSome }))))
    let c := stageCtx c e
    let st := r.stages.mapIdx (fun i x => runStage s b c i x)
    let e := hifStep c r.hist (anyStage st 13) (dirStep c (thStep c r.hist.th (bcStep c e)))
    setRun b (fun r => { r with stages := st, el := statusWords c.g c.blk st e }) s

/-! ### Sections and 50BF -/

/-- Current-check thresholds of R303 and of the seal-in condition of R379, in 0.1 A. -/
def currentLevel (g : Bytes) : Nat := if bitAt g 0x780 0 then u16At g 0x784 else gLiveI g / (100 * 2 ^ 31)

def nsrcBit (g : Bytes) : Nat := if gNsrc g then 1 else 0

/-- 50BF of a bay with the bus trips known so far. -/
def cycleBf (b : Nat) (s : State) : State :=
  let c := bayCtx s b
  if !evaluated c.beh then s
  else
    let e := (bayRun s b).el
    let cur := currentPresent s b (nsrcBit c.g) (u16At c.g 0x784) (u16At c.g 0x786)
    let start := (e.op &&& bfInitMask c.g) != 0 || bfExtIn s b
    let e := bfStep { c with blk := eblkMask s b } cur start (busTrips s b != 0) e
    setRun b (fun r => { r with el := statusWords c.g (eblkMask s b ||| maskElements (bayMask s b) ||| shotMask c.g e.ar) r.stages e }) s

/-- 50BF of every bay of the clusters, again while a BKTRIP adds a bus trip (R289, R304). -/
def cycleBfAll (p : Nat → Bool) : Nat → State → State
  | 0, s => s
  | k + 1, s =>
    let t := forBaysOf p cycleBf s
    if bkBusTrips t == bkBusTrips s then t else cycleBfAll p k t

/-! ### BAY_TRIP and what follows it -/

/-- BAY_TRIP from the operates, RETRIP and bus trips of the cycle, and 79 (R289, R305): a 50BF that the trip itself starts does not
stand in the way of reclosing, one started before does. A bus trip of a section at home in a cluster that
fails in this cycle still reaches its members in other clusters in it (DESIGN CHOICE, log entry 59). -/
def tripStep (b : Nat) (s : State) : State :=
  let c := bayCtx s b
  let g := c.g
  let run := evaluated c.beh
  let e := (bayRun s b).el
  let bt := if run then busTrips s b else 0
  let bus := bt != 0 && gBtrip g
  let optrip := e.op &&& tripMask g
  let trip := run && (optrip != 0 || (e.bfRe && bitAt g 0x780 1) || bus)
  let rise := trip && !e.tripPrev
  let ar := arStep g
    { run := run && !inMask (eblkMask s b) 30, trip := rise, reclosable := (optrip &&& (2 ^ 36 - 1 - arInitMask g)) == 0 && !bus && !e.bfPrev
      arBlk := arBlkIn s b || (bitAt g 0x740 2 && bitAt g 0x740 0 && e.thPu), bfOn := e.bfAt.isSome && !e.bfPrev, cb := c.cb, open_ := c.tOpen, rel := c.tRel } e.ar
  let s := if ar.st != e.ar.st then stageEvent (clusterOf b) Src.prot 1 b (arRecord e.ar ar) s else s
  setRun b (fun r => { r with el := { r.el with
    ar := ar, bayTrip := trip, tripPrev := trip, btSect := bt, tripAt := if trip then some c.tRel else e.tripAt
    flTrip := r.el.flTrip || (rise && r.el.flStart.isSome) } }) s

/-- Locator, adaptation and operate counts after BAY_TRIP. -/
def cycleFinish (b : Nat) (s : State) : State :=
  let c := bayCtx s b
  let was := (bayRun s b).el.tripPrev
  let s := tripStep b s
  let e := (bayRun s b).el
  let dw := (wordDelay s b + 1024 * s.clk.len - 1) / (1024 * s.clk.len)
  let rises (i : Nat) : Bool := inMask e.op i && !inMask (bayProt s b).rel.el.op i
  let e := if evaluated c.beh then
      flStep { c with blk := eblkMask s b ||| maskElements (bayMask s b) } b dw (anyStage (bayRun s b).stages 19) (e.bayTrip && !was) e
    else e
  setBay b (fun x =>
    { x with
      cur := { adaptBay s b { c with clp := e.clp } { x.cur with el := e } with frameMs := if s.clk.ms % 96 == 95 then some s.clk.ms else x.cur.frameMs }
      opcnt := x.opcnt.mapIdx (fun i n => if rises i then satN 16 (n + 1) else n) }) s

/-! ### The cycle -/

/-- What a bay has left from a cycle before while its cluster does not run it. -/
def clearAbsent (s : State) : State :=
  (List.range 64).foldl (fun s b => if (runningBays s).contains b then s else setRun b (fun r => { r with ran := false }) s) s

/-- The elements' part of protection cycle n of the clusters that satisfy `p` (R20, R21). -/
def cycleOf (p : Nat → Bool) (s : State) : State :=
  let s := forBaysOf p markBay (forBaysOf p bayChkStart (sectTopology s))
  let s := forBaysOf p cycleMeasure s
  let s := forSectsOf p kirChecks s
  let s := forSectsOf p agreeVoltage s
  let s := forBaysOf p cycleFreq s
  let s := forBaysOf p cycleBayChecks s
  let s := forSectsOf p clearSect s
  let s := forBaysOf p cycleElements s
  let s := forSectsOf p sectStep s
  let s := cycleBfAll p 65 s
  forBaysOf p cycleFinish s

/-- Protection cycle n of every cluster; the logic cycles follow the elements. -/
def protectionCycle (s : State) : State :=
  setProt (fun p => { p with inCycle := true }) (forBays logicCycle (cycleOf (fun _ => true) (clearAbsent s)))

/-! ### Checkpoints, the sample ring and the replay (R25, R26, R28) -/

def ckptOf (s : State) (c : Nat) : Option Ckpt := (s.prot.ckpts[c]?).join
def setCkpt (c : Nat) (f : Option Ckpt → Option Ckpt) (s : State) : State := setProt (fun p => { p with ckpts := modAt p.ckpts c f }) s

/-- Sections whose home is cluster `c`. -/
def homedSects (s : State) (c : Nat) : List Nat := (sections s).filter (fun k => sectHomeCluster s k == c)

/-- The complete state of cluster `c` as the cycle that ends leaves it. -/
def ckptNow (s : State) (c : Nat) : Ckpt :=
  { ms := s.clk.ms, lanes := (s.filt.lanes.drop (64 * c)).take 64, bays := (s.prot.bays.drop (8 * c)).take 8
    sects := (homedSects s c).map (fun k => (k, sectRun s k)) }

/-- The checkpoint takes in what the boundary's commands have done to the cluster before its cycle. -/
def carryCkpts (s : State) : State :=
  setProt (fun p => { p with ckpts := p.ckpts.mapIdx (fun c k => k.map (fun k =>
    { k with bays := (ckptNow s c).bays, sects := (ckptNow s c).sects })) }) s

/-- What the cycle has made of each checkpoint. -/
def noteCycle (s : State) : State :=
  setProt (fun p => { p with ckpts := p.ckpts.mapIdx (fun c k => k.map (fun k =>
    { k with ranBays := (ckptNow s c).bays.map (·.cur), ranSects := (ckptNow s c).sects.map (·.2) })) }) s

/-- A lane of cluster `c` after the cluster's part on the words that the ring holds of the Milestone; one that a command of the
boundary has set anew stays. -/
def replayLane (r : RingMs) (k : Ckpt) (c l : Nat) (live : LaneSt) : LaneSt :=
  if l / 64 != c || live.touched then live
  else match r.lanes.find? (fun x => x.1.lane == l), k.lanes[l % 64]? with
    | some (x, w), some st => clusterPart x w { st with samples := live.samples }
    | _, _ => live

/-- A bay of cluster `c` as its checkpoint has it, its logic aside (R364); one that a timer has moved on since its cycle stays. -/
def loadBay (k : Ckpt) (c b : Nat) (live : BayProt) : BayProt :=
  match k.bays[b % 8]? with
  | some y => if clusterOf b == c && k.ranBays[b % 8]? == some live.cur then { y with logic := live.logic, replay := live.replay } else live
  | none => live

def loadSect (k : Ckpt) (i : Nat) (live : SectRun) : SectRun :=
  match findIdxBelow k.sects.length (fun j => (k.sects[j]?).map (·.1) == some i) with
  | some j => if k.ranSects[j]? == some live then ((k.sects[j]?).map (·.2)).getD live else live
  | none => live

/-- The standby loads the sealed checkpoint of cluster `c` and replays the inputs of the Milestone that ends from the sample ring (R28,
steps 2 and 3): what the cycle left for its release is there already. -/
def replayCluster (s : State) (c : Nat) : State :=
  match ckptOf s c, s.prot.ring.head? with
  | some k, some r =>
    if r.ms != s.clk.ms then s
    else
      let loaded := setProt (fun p => { p with bays := p.bays.mapIdx (loadBay k c), sects := p.sects.mapIdx (loadSect k) })
        (setFilt (fun x => { x with lanes := x.lanes.mapIdx (replayLane r k c) }) s)
      let t := cycleOf (· == c) { loaded with trip := { s.trip with snap := r.bi }, net := { s.net with snap := r.goose } }
      setProt (fun p => { p with bays := t.prot.bays, sects := t.prot.sects }) (setFilt (fun _ => t.filt) s)
  | _, _ => s

/-! ### Starts and group switches -/

/-- A bay at the start of protection: measurand histories, elements, curves and adaptation at reset values, θ at TH_INIT
(R77, R271, R317, R344). -/
def startBay (warm : Bool) (b : Nat) (s : State) : State :=
  setBay b (fun x =>
    { x with
      cur := { group := x.group, groupMs := x.groupMs, hist := { th := thInit (bayBytes s b) * 2 ^ 64 / 1000 } }
      rel := { group := x.group, groupMs := x.groupMs, hist := { th := thInit (bayBytes s b) * 2 ^ 64 / 1000 } }
      logic := (logicStartBay warm x.logic).1, grpReq := 0 }) s

/-- What carries over when the settings of the group in force change from those of block `old` (R287, R327, R344); new contents
of one group carry everything over, whatever INT_CARRY. -/
def groupContents (b : Nat) (carry : Bool) (old : Bytes) (s : State) : State :=
  let keep (i : Nat) (y : StageSt) : StageSt :=
    let r := recBytes old i
    { y with a := if 12 < i then none else if recAdapt r && recEn r then y.a else if recEn r then some y.eff else none }
  setRun b (fun r =>
    if carry then { r with stages := r.stages.mapIdx keep }
    else
      { r with
        stages := r.stages.map (fun y => { puMs := y.puMs, h96 := y.h96, opOfs := y.opOfs })
        el := { r.el with bc := {}, hif := {} } }) s

/-- A group takes effect at the boundary that opens the Milestone in progress (R286, R287, R327, R344). -/
def applyGroup (b g : Nat) (s : State) : State :=
  if (bayProt s b).group == g then s
  else
    let old := grpBytes s b
    let s := setBay b (fun x => { x with group := g, groupMs := s.clk.ms }) s
    groupContents b (gIntCarry (grpBytes s b)) old s

/-- GRP_REQ of a bay as released: a change to 1-6 asks for a group; one that is not present is ignored with a record (R286). -/
def groupRequest (b : Nat) (s : State) : State :=
  let v := boolBits [logicOut s b 39, logicOut s b 40, logicOut s b 41]
  if v == (bayProt s b).grpReq then s
  else
    let s := setBay b (fun x => { x with grpReq := v }) s
    if v == 0 || v == 7 || s.mode.mode == .safe then s
    else if groupPresent s b (v - 1) then applyGroup b (v - 1) s
    else postEvent Src.prot 3 b [] s

/-! ### Release of a cycle (R34, R348) -/

/-- What BAY.READ gives is that of the released cycle (R282). -/
def releaseBay (b : Nat) (s : State) : State := logicRelease b (setBay b (fun x => { x with rel := { x.cur with group := x.group, groupMs := x.groupMs }, energyRel := x.energy, opcntRel := x.opcnt }) s)

/-- Sections are released but for those at home in a cluster whose outputs are withheld (R28). -/
def releaseSects (held : Nat → Bool) (s : State) : State :=
  setProt (fun p => { p with sectRel := p.sects.mapIdx (fun k x => if held (sectHomeCluster s k) then p.sectRel.getD k x else x) }) s

/-- One staged item takes its effect (R275, R390, R492). -/
def runStaged (replay : Bool) (i : StagedItem) (s : State) : State :=
  match i with
  | .event e => setLog (fun l => enqueue s.clk.ms { e with replay := replay } l) s
  | .monitored id _ => setSupv (fun v => setTotals id (fun t => { t with events := satN 32 (t.events + 1) }) v) s
  | .episode id _ => setSupv (fun v => setTotals id (fun t => { t with episodes := satN 32 (t.episodes + 1) }) v) s
  | .declare id inst count => declare id inst count s
  | .clear id inst => clearLasting id inst s

end Sys2Proof.Machine
end

