-- ==== Sys2Proof/Machine/Trip.lean ====
section
/-! DEFINITION. The trip-output block: pin ownership, demand, minimum pulse and seal-in, readback, trip-circuit supervision, binary
inputs and their status (R375-R386, R389). -/

namespace Sys2Proof.Machine

def setTrip (f : TripSt → TripSt) (s : State) : State := { s with trip := f s.trip }
def pinSt (s : State) (p : Nat) : PinSt := s.trip.pins.getD p {}
def setPin (p : Nat) (f : PinSt → PinSt) (s : State) : State := setTrip (fun t => { t with pins := modAt t.pins p f }) s

/-! ### Trip slots (R375) -/

/-- The 16 bytes of trip slot k of a Bay Table entry. -/
def slotBytes (bb : Bytes) (k : Nat) : Bytes := (bb.drop (0xA0 + 16 * k)).take 16
def tsEn (b : Bytes) : Bool := bitAt b 0 0
def tsPin (b : Bytes) : Nat := fld b 0 1 5
def tsSrc (b : Bytes) : Bool := bitAt b 0 6
def tsUout (b : Bytes) : Nat := fld b 0 8 6
def tsSeal (b : Bytes) : Nat := fld b 0 14 2
def tsRbEn (b : Bytes) : Bool := bitAt b 0 16
def tsRbInv (b : Bytes) : Bool := bitAt b 0 17
def tsTcsEn (b : Bytes) : Bool := bitAt b 0 18
def tsTcsMode (b : Bytes) : Bool := bitAt b 0 19
def tsTcsIn (b : Bytes) : Nat := fld b 0 20 4
def tsMinPulse (b : Bytes) : Nat := let x := u16At b 4; if x == 0 then 150 else x
def tsSealMax (b : Bytes) : Nat := let x := u16At b 6; if x == 0 then 2000 else x
def tsTcsLo (b : Bytes) : Nat := fld b 8 0 12
def tsTcsHi (b : Bytes) : Nat := fld b 8 12 12
def tsTcsT (b : Bytes) : Nat := let x := u16At b 0xC; if x == 0 then 500 else x

/-- The enabled slot of an enabled entry that names pin p. -/
def slotFor (s : State) (p : Nat) : Option (Nat × Nat × Bytes) :=
  ((List.range 256).find? (fun i => let b := slotBytes (bayBytes s (i / 4)) (i % 4); bayEn s (i / 4) && tsEn b && tsPin b == p)).map
    (fun i => (i / 4, i % 4, slotBytes (bayBytes s (i / 4)) (i % 4)))

/-- Level at the pin: R378's, or a test pulse (R564). -/
def pinLevel (s : State) (p : Nat) : Bool := (pinSt s p).level || (match s.trip.pulse with | some (q, _) => q == p | none => false)

/-- A TRIP output is asserted. -/
def anyTrip (s : State) : Bool := (List.range 32).any (pinLevel s)

/-- Owning bay as a unit number, 0xFFFF when unowned. -/
def pinOwner (x : PinSt) : Nat := match x.owner with | some o => o.1 | none => 0xFFFF

/-! ### Changes of level (R381) -/

/-- How a pin's record enters the queue: now, with the events of its bay's cycle, or with those of the cycle that the standby of
its bay's cluster has replayed (R390, R492). -/
inductive PinRec where
  | now
  | cycle (cluster : Nat)
  | replayed (cluster tai : Nat)
  deriving DecidableEq, Repr

def pinRecord (how : PinRec) (p code : Nat) (data : Bytes) (s : State) : State :=
  match how with
  | .now => postCycle Src.trip code p data s
  | .cycle c => stageEvent c Src.trip code p data s
  | .replayed c t => stageItem (32 + c) (.event (mkEventAt s t Src.trip code p data)) s

/-- A pin whose physical level was `was` has changed for a cause: interrupt, OPS, short time and record. -/
def pinChangedBy (how : PinRec) (p : Nat) (was : Bool) (cause : Nat) (at_ : Nat) (s : State) : State :=
  let now := pinLevel s p
  if now == was then s
  else
    let x := pinSt s p
    let s := setPin p (fun x =>
      { x with
        changedAt := at_, ops := if now then satN 16 (x.ops + 1) else x.ops, lastOn := if now then s.clk.shortTime else x.lastOn
        sealTo := if now then x.sealTo else cause == 4 }) s
    pinRecord how p 1 (dUnit (pinOwner x) ++ dCode (flag now) ++ dCode cause) (raiseIrq Irq.trip s)

def pinChanged (p : Nat) (was : Bool) (cause : Nat) (at_ : Nat) (s : State) : State := pinChangedBy .now p was cause at_ s

/-- A level set by R378 with its record. -/
def setLevel (how : PinRec) (p : Nat) (v : Bool) (cause at_ : Nat) (s : State) : State :=
  let was := pinLevel s p
  pinChangedBy how p was cause at_ (setPin p (fun x => { x with level := v }) s)

/-! ### Demand and seal (R377, R379) -/

/-- Bay whose outputs feed the pin's seal condition. -/
def sealBay (x : PinSt) : Option Nat := match x.owner with | some o => some o.1 | none => x.slotGone

/-- seal_cond of the cycle that ends, before its logic outputs are released. -/
def sealCondOf (s : State) (p : Nat) : Bool :=
  let x := pinSt s p
  match sealBay x with
  | none => false
  | some b =>
    let g := grpBytes s b
    let cur := ((currentPresent s b 0 (currentLevel g) 0).take 3).any id
    let cb := logicOut s b 36
    match tsSeal x.cfg with | 0 => false | 1 => cur | 2 => cb | _ => cur || cb

/-- Demand of a bay's outputs on a pin, as released or of its replayed cycle; R83 keeps it 0 unless the outputs are live. -/
def demandFrom (s : State) (x : PinSt) (b : Nat) : Bool :=
  (if tsSrc x.cfg then logicOut s b (64 + tsUout x.cfg) else (bayProt s b).rel.el.bayTrip) && tripsLive (effBeh s b)

def demandReplayed (s : State) (x : PinSt) (b : Nat) : Bool :=
  (match (bayProt s b).replay with
    | some r => if tsSrc x.cfg then r.out.getD (64 + tsUout x.cfg) false else r.trip
    | none => false) && tripsLive (effBeh s b)

/-- Demand of the pin from its source as released, with a replayed cycle's (R377, R389). -/
def demandOf (s : State) (p : Nat) : Bool :=
  let x := pinSt s p
  match x.owner with
  | none => false
  | some o => demandFrom s x o.1 || demandReplayed s x o.1

/-- Where the record of a pin at a boundary belongs: its bay's cycle, or the replayed cycle that raises it (R390). -/
def recordOf (s : State) (p : Nat) : PinRec :=
  let x := pinSt s p
  match x.owner with
  | none => .now
  | some o => match (bayProt s o.1).replay with
    | some r => if !x.level && demandReplayed s x o.1 then .replayed (clusterOf o.1) r.tai else .cycle (clusterOf o.1)
    | none => .cycle (clusterOf o.1)

/-! ### A boundary (R378) -/

/-- The pin at boundary b, neither under fail-safe policy nor withheld. -/
def pinStep (how : PinRec) (p b : Nat) (s : State) : State :=
  let x := pinSt s p
  let dem := demandOf s p
  let s := setPin p (fun x => { x with demand := dem, fs := false }) s
  if dem then
    let s := setPin p (fun x => { x with tOff := none, minp := false, sealed := false, tOn := if x.level then x.tOn else b }) s
    if x.level then s else setLevel how p true 1 b s
  else if !x.level then setPin p (fun x => { x with minp := false, sealed := false }) s
  else
    let tOff := x.tOff.getD b
    let hold := decide (b < x.tOn + msU (tsMinPulse x.cfg))
    let sld := x.sealCond && decide (b < tOff + msU (tsSealMax x.cfg))
    if hold || sld then setPin p (fun x => { x with tOff := some tOff, minp := hold, sealed := sld }) s
    else
      let cause := if x.sealCond && tsSeal x.cfg != 0 then 4 else if x.sealed then 3 else if x.minp then 2 else if x.slotGone.isSome then 6 else 1
      let s := setPin p (fun x => { x with tOff := none, minp := false, sealed := false }) s
      let s := setLevel how p false cause b s
      if cause == 4 then pinRecord how p 2 (dUnit (pinOwner x)) s else s

/-- The pin under its bay's fail-safe policy (R88). -/
def pinFailSafe (p b bay : Nat) (s : State) : State :=
  let x := pinSt s p
  let v := match fsPolicy s bay with | 0 => false | 1 => x.level | _ => true
  let s := setPin p (fun x => { x with fs := true, tOff := none, minp := false, sealed := false, tOn := if v && !x.level then b else x.tOn }) s
  if v == x.level then s else setLevel .now p v 5 b s

/-- A pin whose slot has gone takes the slot that now names it once it is deasserted (R380). -/
def adoptSlot (p : Nat) (s : State) : State :=
  let x := pinSt s p
  if x.slotGone.isSome && !x.level then
    match slotFor s p with
    | some (b, k, c) => setPin p (fun x => { x with owner := some (b, k), cfg := c, slotGone := none }) s
    | none => setPin p (fun x => { x with owner := none, cfg := zeros 16, slotGone := none }) s
  else s

/-- One pin at the boundary b that ends a Milestone; `withheld` names the clusters whose outputs are withheld. -/
def pinBoundary (withheld : Nat → Bool) (b p : Nat) (s : State) : State :=
  let x := pinSt s p
  match sealBay x with
  | none => setPin p (fun x => { x with demand := false, fs := false }) s
  | some bay =>
    if s.mode.fsActive.getD bay false then pinFailSafe p b bay s
    else if withheld (clusterOf bay) then s
    else adoptSlot p (pinStep (recordOf s p) p b s)

/-- Seal conditions taken before the cycle's outputs are released. -/
def takeSeal (withheld : Nat → Bool) (s : State) : State :=
  (List.range 32).foldl (fun s p =>
    match sealBay (pinSt s p) with
    | some b => if withheld (clusterOf b) then s else let v := sealCondOf s p; setPin p (fun x => { x with sealCond := v }) s
    | none => s) s

/-- Every pin at the boundary b that ends a Milestone. -/
def pinsBoundary (withheld : Nat → Bool) (b : Nat) (s : State) : State := (List.range 32).foldl (fun s p => pinBoundary withheld b p s) s

/-- Ownership after the entries of a TBL.SYNC have taken effect at boundary b (R380). -/
def resolvePin (b p : Nat) (s : State) : State :=
  let x := pinSt s p
  let gone (bay : Nat) : State :=
    setPin p (fun x => { x with owner := none, slotGone := some bay, demand := false, tOff := some (x.tOff.getD b) }) s
  let release : State := setPin p (fun x => { x with owner := none, cfg := zeros 16, slotGone := none, demand := false }) s
  match slotFor s p, sealBay x with
  | none, none => s
  | none, some bay => if x.level then (if x.slotGone.isSome then s else gone bay) else release
  | some (bay, k, c), old =>
    if x.level && old == some bay && tsSrc c != tsSrc x.cfg then (if x.slotGone.isSome then s else gone bay)
    else setPin p (fun x => { x with owner := some (bay, k), cfg := c, slotGone := none }) s

def resolvePins (b : Nat) (s : State) : State := (List.range 32).foldl (fun s p => resolvePin b p s) s

/-- Pins driven low at entry to CONFIGURE, with cause 8 where that is a change (R79, R381). -/
def pinsLow (s : State) : State :=
  let s := (List.range 32).foldl (fun s p =>
    let was := pinLevel s p
    let s := setTrip (fun t => { t with pulse := match t.pulse with | some (q, e) => if q == p then none else some (q, e) | none => none }) s
    pinChanged p was 8 s.clk.openedAt (setPin p (fun x =>
      { x with level := false, demand := false, tOff := none, minp := false, sealed := false, fs := false, slotGone := none }) s)) s
  (List.range 32).foldl (fun s p => match slotFor s p with
    | some (b, k, c) => setPin p (fun x => { x with owner := some (b, k), cfg := c }) s
    | none => setPin p (fun x => { x with owner := none, cfg := zeros 16 }) s) (setTrip (fun t => { t with driven := true }) s)

/-- The boundary that ends the Milestone in progress. -/
def endOfMs (s : State) : Nat := s.clk.openedAt + s.clk.len

/-- A pin's demand of the cycle in progress, which the boundary that ends the Milestone releases. -/
def demandNext (s : State) (p : Nat) : Bool :=
  let x := pinSt s p
  match x.owner with
  | none => false
  | some o =>
    let y := bayProt s o.1
    let out := if y.logic.ran && y.logic.overrunState != 1 then y.logic.data.out else y.logic.rel
    ((if tsSrc x.cfg then out.getD (64 + tsUout x.cfg) false else y.cur.el.bayTrip) && tripsLive (effBeh s o.1)) || demandReplayed s x o.1

/-- A held pin at the boundary that ends the Milestone in progress, where its demand stays 0, its bay is under no fail-safe policy and no
takeover of its cluster withholds the outputs. -/
def pinEnds (p : Nat) (s : State) : State :=
  let x := pinSt s p
  match sealBay x with
  | none => s
  | some bay =>
    if !s.mode.mode.runs || s.mode.fsActive.getD bay false || s.mode.tko.getD (clusterOf bay) .none != .none || x.demand || demandNext s p then s
    else
      let b := endOfMs s
      let v := sealCondOf s p
      let s := setPin p (fun x => { x with sealCond := v }) (setClk (·.advance b) s)
      adoptSlot p (pinStep (recordOf s p) p b s)

/-- MIN_PULSE_END (R378): the boundary at which a pin whose minimum pulse has ended is set. -/
def execMinPulseEnd (p : BitVec 5) (s : State) : Out :=
  .next (
    let x := pinSt s p.toNat
    if x.level && x.minp && decide (x.tOn + msU (tsMinPulse x.cfg) ≤ endOfMs s) then pinEnds p.toNat s else s)

/-- SEAL_MAX_END (R379): the boundary at which a pin whose longest seal-in has ended is set. -/
def execSealMaxEnd (p : BitVec 5) (s : State) : Out :=
  .next (
    let x := pinSt s p.toNat
    match x.tOff with
    | some t => if x.level && x.sealed && decide (t + msU (tsSealMax x.cfg) ≤ endOfMs s) then pinEnds p.toNat s else s
    | none => s)

/-! ### Readback (R382) -/

/-- The TRB level that fits the pin's (R382). -/
def rbExpected (s : State) (p : Nat) : Bool := pinLevel s p != tsRbInv (pinSt s p).cfg

/-- The level of TRB. -/
def trbLevel (s : State) (p : Nat) : Bool := (s.trip.trb.getD p none).getD (rbExpected s p)

def rbRecord (p code : Nat) (more : Bytes) (s : State) : State :=
  postEvent Src.trip code p (dUnit (pinOwner (pinSt s p)) ++ dCode (flag (pinLevel s p)) ++ dCode (flag (trbLevel s p)) ++ more) s

def rbDiffers (s : State) (p : Nat) : Bool := trbLevel s p != rbExpected s p

/-- The pin is under test 4 (R563). -/
def testedPin (s : State) (p : Nat) : Bool := match s.svc.test with | some t => t.id == 4 && t.unit == p | none => false

/-- A mismatch episode of a pin starts where its readback differs from the expected level, outside the first 100 µs after a change
of level (R382). -/
def mismatchEpisode (p : Nat) (s : State) : State :=
  let x := pinSt s p
  if ((tsRbEn x.cfg && (sealBay x).isSome) || testedPin s p) && !x.rbFail && rbDiffers s p && decide (x.changedAt + usU 120 < s.clk.mono) then
    settle (countEvent 14 p (rbRecord p 3 [] (setPin p (fun x => { x with rbFail := true, rbAt := s.clk.mono, rbEpis := satN 16 (x.rbEpis + 1) }) s)))
  else s

/-- RB_MISMATCH_START (R382): TRB of a pin reads a level and has differed from the expected level for more than 20 µs. -/
def execRbMismatchStart (p : BitVec 5) (level : Bool) (s : State) : Out :=
  .next (mismatchEpisode p.toNat (setTrip (fun t => { t with trb := modAt t.trb p.toNat (fun _ => some level) }) s))

/-- RB_MISMATCH_END (R382): the levels have agreed again for 20 µs; from then on TRB follows its pin. -/
def execRbMismatchEnd (p : BitVec 5) (level : Bool) (s : State) : Out :=
  .next (
    let p := p.toNat
    let s := setTrip (fun t => { t with trb := modAt t.trb p (fun _ => some level) }) s
    let x := pinSt s p
    if rbDiffers s p then s
    else
      let s := setTrip (fun t => { t with trb := modAt t.trb p (fun _ => none) }) s
      if x.rbFail then rbRecord p 4 (dDur (s.clk.mono - x.rbAt)) (setPin p (fun x => { x with rbFail := false }) s) else s)

/-! ### Trip-circuit supervision (R383) -/

/-- Supervision is suspended: pin asserted, or CB52A of the owning bay 0 with TCS_MODE 1. -/
def tcsSuspended (s : State) (p : Nat) : Bool :=
  let x := pinSt s p
  pinLevel s p || (tsTcsMode x.cfg && (match sealBay x with | some b => !logicOut s b 36 | none => true))

/-- Latest MEAN of the pin's input, in 1/16 code, while an entry converts it and it is younger than 1 s. -/
def tcsMean (s : State) (p : Nat) : Option Nat :=
  let i := tsTcsIn (pinSt s p).cfg
  match s.aux.means.getD i none with
  | some (m, t) => if s.aux.cfg.entries.any (fun e => e.input == i) && decide (s.clk.mono < t + secU 1) then some m else none
  | none => none

def tcsChange (p : Nat) (alarm : Bool) (s : State) : State :=
  let s := setPin p (fun x => { x with tcsAlarm := alarm, tcs := if alarm then .alarm else .healthy }) s
  postEvent Src.trip 5 p (dCode (if alarm then 1 else 2)) (raiseIrq Irq.supv s)

/-- Supervision of one pin at this instant. -/
def tcsStep (p : Nat) (s : State) : State :=
  let x := pinSt s p
  if !tsTcsEn x.cfg || (sealBay x).isNone then setPin p (fun x => { x with tcs := .off, tcsAlarm := false, tcsSince := none }) s
  else if tcsSuspended s p then setPin p (fun x => { x with tcs := .off, tcsSince := none }) s
  else
    match tcsMean s p with
    | none => setPin p (fun x => { x with tcs := .stale, tcsSince := none }) s
    | some m =>
      let code := m / 16
      let ok := decide (tsTcsLo x.cfg * 16 ≤ m) && decide (m ≤ tsTcsHi x.cfg * 16)
      let since := match x.tcsSince with | some (o, t) => if o == ok then t else s.clk.mono | none => s.clk.mono
      let s := setPin p (fun x => { x with tcsCode := code, tcsSince := some (ok, since), tcs := if x.tcsAlarm then .alarm else .healthy }) s
      if decide (since + msU (tsTcsT x.cfg) ≤ s.clk.mono) && ok == x.tcsAlarm then tcsChange p (!ok) s else s

def tcsAll (s : State) : State := (List.range 32).foldl (fun s p => tcsStep p s) s

/-- AUX_CONVERSION_DONE (R173, R178): the conversion ends, and a result it completes is supervised (R383). -/
def execAuxConversionDone (x : AuxCode) (s : State) : Out := .next (tcsAll (auxConverted x.code.toNat x.p6 s))

/-- The count moved on to the end of the delay of a pin's circuit in the state given. -/
def tcsDelay (p : Nat) (ok : Bool) (s : State) : State :=
  match (pinSt s p).tcsSince with
  | some (o, t) => if o == ok then tcsStep p (setClk (·.advance (t + msU (tsTcsT (pinSt s p).cfg))) s) else s
  | none => tcsStep p s

/-- TCS_ALARM (R383): unhealthy without a break for TCS_T. -/
def execTcsAlarm (p : BitVec 5) (s : State) : Out := .next (tcsDelay p.toNat false s)

/-- TCS_CLEAR (R383): healthy without a break for TCS_T. -/
def execTcsClear (p : BitVec 5) (s : State) : Out := .next (tcsDelay p.toNat true s)

/-- TCS_STALE (R383): no result for 1 s. -/
def execTcsStale (p : BitVec 5) (s : State) : Out :=
  .next (match s.aux.means.getD (tsTcsIn (pinSt s p.toNat).cfg) none with
    | some (_, t) => tcsStep p.toNat (setClk (·.advance (t + secU 1)) s)
    | none => tcsStep p.toNat s)

/-! ### Binary inputs (R384, R385) -/

/-- Debounce time of an input: the first claim of an enabled entry, else code 4. -/
def debounce (s : State) (i : Nat) : Nat :=
  let code (b : Nat) : Nat := bitsOf (leAt (bayBytes s b) 0xE0 32) (4 * i) 4
  let c := match (List.range 64).find? (fun b => bayEn s b && code b != 0) with | some b => code b | none => 4
  if c ≤ 1 then 0 else usU (250 * 2 ^ (c - 2))

def setBi (i : Nat) (f : BiSt → BiSt) (s : State) : State := setTrip (fun t => { t with bi := modAt t.bi i f }) s

/-- An accepted edge of the input that self-test 5 watches (R563). -/
def noteEdge (i : Nat) (up : Bool) (s : State) : State :=
  match s.svc.test with
  | some t =>
    if t.id == 5 && t.unit == i then
      { s with svc := { s.svc with test := some (if up then { t with rises := t.rises + 1 } else { t with falls := t.falls + 1 }) } }
    else s
  | none => s

/-- An input that has held its raw level for its debounce time is accepted. -/
def biAccept (i : Nat) (s : State) : State :=
  let x := s.trip.bi.getD i {}
  if x.raw != x.accepted && decide (x.rawAt + debounce s i ≤ s.clk.mono) then setBi i (fun x => { x with accepted := x.raw, edge := x.rawShort }) (noteEdge i x.raw s) else s

/-- BI_EDGE (R385): input i takes a level at monotonic time t in ns, after X10. -/
def execBiEdge (i : BitVec 6) (level : Bool) (t : Nat) (s : State) : Out :=
  .next (
    let s := biAccept i.toNat (setClk (·.advance (t * uPerNs)) s)
    if (s.trip.bi.getD i.toNat {}).raw == level then s
    else biAccept i.toNat (setBi i.toNat (fun x => { x with raw := level, rawAt := s.clk.mono, rawShort := s.clk.shortTime }) s))

/-- BI_DEBOUNCE_END (R385): the debounce time of input i ends. -/
def execBiDebounceEnd (i : BitVec 6) (s : State) : Out :=
  .next (
    let x := s.trip.bi.getD i.toNat {}
    if x.raw == x.accepted then s else biAccept i.toNat (setClk (·.advance (x.rawAt + debounce s i.toNat)) s))

/-- The snapshot of the Milestone that opens. -/
def biSnapshot (s : State) : State :=
  let s := (List.range 64).foldl (fun s i => biAccept i s) s
  setTrip (fun t => { t with snap := t.bi.map (·.accepted) }) s

/-! ### Status (R386) -/

/-- What BAY.READ shows: the pins and inputs at the boundary that opens the Milestone in progress, while the pins are driven; the
snapshot is still that of the Milestone that has ended. -/
def notePins (s : State) : State :=
  if !s.trip.driven then s
  else
    setTrip (fun t =>
      { t with
        setMs := s.clk.ms - 1, rawAtSet := t.bi.map (·.raw), snapAtSet := t.snap, pinsAtSet := t.pins, levelAtSet := maskOf 32 (pinLevel s)
        trbAtSet := maskOf 32 (trbLevel s), edgeAtSet := t.bi.map (·.edge) }) s

def pinStatus (s : State) (p : Nat) : Bytes :=
  let x := s.trip.pinsAtSet.getD p {}
  let own := match x.owner with | some o => o.1 | none => 0
  leBytes 4 (place own 0 6 + place (flag x.owner.isSome) 6 1 + place (bitsOf s.trip.levelAtSet p 1) 7 1 + place (flag x.demand) 8 1 +
    place (flag x.minp) 9 1 + place (flag x.sealed) 10 1 + place (flag x.sealTo) 11 1 + place (flag x.rbFail) 12 1 + place x.tcs.code 13 2 +
    place (flag x.fs) 15 1) ++
  leBytes 4 x.lastOn ++ leBytes 2 x.rbEpis ++ leBytes 2 x.ops ++ leBytes 4 (x.tcsCode % 4096)

def tripStatusBlock (s : State) : Bytes :=
  leBytes 8 s.trip.setMs ++ leBytes 8 (boolBits s.trip.rawAtSet) ++ leBytes 8 (boolBits s.trip.snapAtSet) ++
  leBytes 4 s.trip.levelAtSet ++ leBytes 4 s.trip.trbAtSet ++ (List.range 32).flatMap (pinStatus s) ++
  s.trip.edgeAtSet.flatMap (leBytes 4)

end Sys2Proof.Machine
end

