-- ==== Sys2Proof/Machine/GoosePub.lean ====
section
/-! DEFINITION. GOOSE publication: GOOSE.PUB, the evaluation at each boundary and the retransmission schedule (R216-R220). -/

namespace Sys2Proof.Machine

def goosePub (s : State) (i : Nat) : GoosePub := s.net.goosePubs.getD i {}
def setGoosePub (i : Nat) (f : GoosePub → GoosePub) (s : State) : State := setNet (fun n => { n with goosePubs := modAt n.goosePubs i f }) s

/-! ### Fields (Table: GOOSE publication block) -/

def gpTrip (b : Bytes) : Bool := bitAt b 0 1
def gpPair (b : Bytes) : Nat := fld b 0 2 1
def gpAuth (b : Bytes) : Nat := fld b 0 3 2
def gpKey (b : Bytes) : Nat := fld b 0 8 5
def gpBay (b : Bytes) : Nat := fld b 4 0 6
def gpMin (b : Bytes) : Nat := u16At b 0x10
def gpHeart (b : Bytes) : Nat := u16At b 0x12
def gpMembers (b : Bytes) : Nat := byteAt b 0x18
def gpType (b : Bytes) (i : Nat) : Nat := fld b (0x20 + 4 * i) 0 3
def gpSrc (b : Bytes) (i : Nat) : Nat := fld b (0x20 + 4 * i) 16 16

/-- Range checks of the block, reserved fields among them. -/
def goosePubRange (b : Bytes) : List (Bool × Nat) :=
  let n := gpMembers b
  let len (o : Nat) : Nat := byteAt b o
  [(fld b 0 5 3 != 0 || fld b 0 13 19 != 0 || gpAuth b == 3, 0), (fld b 4 6 2 != 0 || fld b 4 23 9 != 0, 4),
   (leAt b 8 6 < 0x010CCD010000 || 0x010CCD0101FF < leAt b 8 6 || 0x3FFF < u16At b 0x0E, 8),
   (gpMin b < 5 || 1000 < gpMin b || gpHeart b < 100 || 60000 < gpHeart b || decide (10 * gpHeart b < gpMin b), 0x10),
   (n < 1 || 32 < n || len 0x19 < 1 || 129 < len 0x19 || len 0x1A < 1 || 129 < len 0x1A || 129 < len 0x1B || decide (352 < len 0x19 + len 0x1A + len 0x1B), 0x18),
   (u32At b 0x1C != 0, 0x1C)] ++
  (List.range 32).map (fun i =>
    (decide (i < n) &&
      (fld b (0x20 + 4 * i) 3 13 != 0 ||
       (match gpType b i with
        | 0 => decide (127 < gpSrc b i) | 1 => decide (127 < gpSrc b i) | 2 => decide (n ≤ gpSrc b i) | 3 => decide (255 < gpSrc b i) | _ => true)), 0x20 + 4 * i))

def goosePubLatest (s : State) (i : Nat) : Bytes :=
  s.acts.foldl (fun c a => match a.act with | .goosePub j b => if j == i then b else c | _ => c) (goosePub s i).block

/-- GOOSE_PUB (R216, R206, R188): a bay that the variant lacks, and a slot without a key, are warnings. -/
def execGoosePub (c : Cmd) (s : State) : Out :=
  .next (command c (fun s => { absent := decide (s.variant.goosePubs ≤ c.unit) }) (fun s =>
    match readBlock c 512 s with
    | .error r => .done r s
    | .ok b =>
      match blockRange (goosePubRange b) with
      | some o => .done (Reply.range o) s
      | none =>
        let old := goosePubLatest s c.unit
        if pubEn old && withoutEn old != withoutEn b then .done (Reply.fail St.locked 0) s
        else .atBoundary (keyWarnings s (gpAuth b) (gpKey b) + flag (decide (s.variant.bays ≤ gpBay b))) 0 (.goosePub c.unit b) s) s)

def applyGoosePub (i : Nat) (b : Bytes) (s : State) : State :=
  setGoosePub i (fun p => if withoutEn p.block == withoutEn b && pubEn p.block == pubEn b then { p with block := b } else { p with block := b, sending := false, nextAt := none }) s

/-! ### Values (R83, R88, R217, R352) -/

/-- Whether the bay's outputs are those of the fail-safe policy. -/
def gpFailSafe (s : State) (b : Bytes) : Bool := s.mode.fsActive.getD (gpBay b) false

/-- Validity, operatorBlocked and test of a bay's publications. -/
def gpQuality (s : State) (b : Bytes) : PubVal :=
  match effBeh s (gpBay b) with
  | 1 => .quality 0 false false
  | 2 => .quality 0 true false
  | 3 => .quality 0 false true
  | 4 => .quality 0 true true
  | _ => .quality 1 false false

/-- A truth value of a BOOLEAN or Dbpos member: the released output, false in off, by FS_POLICY without cover in a trip-class
publication; elsewhere without cover the last one published. A trip-class member adds the demand of a replayed cycle (R389). -/
def gpBool (s : State) (p : GoosePub) (i : Nat) (addReplay : Bool) : Bool :=
  let b := p.block
  let replayed := addReplay && (match (bayProt s (gpBay b)).replay with | some r => gpTrip b && r.out.getD (gpSrc b i) false | none => false)
  let out := logicOut s (gpBay b) (gpSrc b i) || replayed
  let last := match p.vals[i]? with | some (.bool v) => v | some (.dbpos v) => v | _ => false
  if gpFailSafe s b then (if gpTrip b then (match fsPolicy s (gpBay b) with | 0 => false | 1 => last | _ => true) else last)
  else if evaluated (effBeh s (gpBay b)) then out
  else false

def gpValue (s : State) (p : GoosePub) (addReplay : Bool) (i : Nat) : PubVal :=
  let b := p.block
  match gpType b i with
  | 0 => .bool (gpBool s p i addReplay)
  | 1 => .dbpos (gpBool s p i addReplay)
  | 2 => gpQuality s b
  | _ => .int (((logicBay s (gpBay b)).relCnt.getD (gpSrc b i) 0 : Nat))

def gpValues (s : State) (p : GoosePub) (addReplay : Bool) : List PubVal := (List.range (gpMembers p.block)).map (gpValue s p addReplay)

/-- TAI of the Milestone whose cycle a publication's values come from: the replayed one where its demand shows in them (R389). -/
def gpTai (s : State) (p : GoosePub) : Nat :=
  match (bayProt s (gpBay p.block)).replay with
  | some r => if gpValues s p true == gpValues s p false then s.clk.msTai else r.tai
  | none => s.clk.msTai

def gpTest (s : State) (b : Bytes) : Bool := testValid (effBeh s (gpBay b))

/-! ### Frames (R218) -/

/-- Interval after frame k of a sequence in 0.1 ms: MIN_INT, MIN_INT, 2 x MIN_INT, 4 x MIN_INT, at most HEARTBEAT. -/
def gpInterval (b : Bytes) (k : Nat) : Nat := min (gpMin b * 2 ^ (min k 20 - 1)) (10 * gpHeart b)

/-- The largest time from the boundary to the connector of a trip-class frame in ns (R219): 40 us for the first 4 frames, at 10GBASE-R 16,
of at most 320 octets of a port; each further one, and what is longer, adds its transmission time. `ahead` are the octets of the frames
before it that changed at the boundary, and their number. -/
def tripLatLimit (s : State) (pair : Nat) (ahead : Nat × Nat) (octets : Nat) : Nat :=
  let fast := pair == 0 && bitAt s.net.portSet 0 2
  let ns (n : Nat) : Nat := if fast then (8 * n + 9) / 10 else 8 * n
  let inside := decide (ahead.2 < (if fast then 16 else 4)) && decide (octets ≤ 320)
  40000 + (if inside then 0 else ns (octets + 20 + ahead.1))

/-- One frame sent now, the first of a sequence at step 0. -/
def sendGoose (i : Nat) (ahead : Nat × Nat) (s : State) : State :=
  let p := goosePub s i
  let b := p.block
  let iv := gpInterval b p.step
  let tal := (2 * iv + 9) / 10
  let apdu := gooseApdu b tal p.stNum p.sqNum p.t p.tq p.vals
  let tag := pubTag s (gpAuth b) (gpKey b) apdu
  let h := pubHead s b (gpPair b) 0x88B8 8 tag
  let lim := tripLatLimit s (gpPair b) ahead (frameOctets h apdu)
  let lat := if gpTrip b && p.step == 0 then max p.tripLatMax (openNat 55 32 [i, p.stNum] % (lim + 1)) else p.tripLatMax
  let s := setGoosePub i (fun p =>
    { p with interval := iv, nextAt := some (s.clk.mono + iv * usU 100), frames := inc p.frames, lastTx := s.clk.shortTime, tripLatMax := lat
             authFail := if gpAuth b != 0 && tag.isNone then inc p.authFail else p.authFail }) s
  sendFrame (gpPair b) (.goose h i p.stNum p.sqNum tal p.t p.tq p.test p.vals apdu) s

/-- A publication evaluated from the outputs released at the boundary that ends Milestone n. -/
def evalGoosePub (i : Nat) (ahead : Nat × Nat) (s : State) : State :=
  let p := goosePub s i
  if !pubEn p.block || (sendPorts s (gpPair p.block)).isEmpty || !s.mode.mode.runs then setGoosePub i (fun p => { p with sending := false, nextAt := none }) s
  else
    let v := gpValues s p true
    let test := gpTest s p.block
    if p.sending && v == p.vals && test == p.test then s
    else
      let t : Int := ((gpTai s p / uPerNs : Nat) : Int) - s.time.utcOfs * 1000000000
      sendGoose i ahead (setGoosePub i (fun p =>
        { p with sending := true, stNum := if p.sending then nextNum p.stNum else 1, sqNum := 0, vals := v, test := test, t := t, tq := tqByte s.time, step := 0 }) s)

/-- Publications of a class in index order, those of a cluster whose outputs are withheld waiting (R28); each knows the octets and the
number of frames of its own pair that went before it. -/
def evalGooseClass (trip : Bool) (withheld : Nat → Bool) (s : State) : State :=
  ((List.range s.variant.goosePubs).foldl (fun (a : State × List (Nat × Nat)) i =>
    let b := (goosePub a.1 i).block
    if gpTrip b != trip || (withheld (clusterOf (gpBay b)) && !a.1.mode.fsActive.getD (gpBay b) false) then a
    else
      let s := evalGoosePub i (a.2.getD (gpPair b) (0, 0)) a.1
      match (s.out.wire.drop a.1.out.wire.length).getLast? with
      | some (.goose h _ _ _ _ _ _ _ _ apdu) => (s, modAt a.2 (gpPair b) (fun x => (x.1 + frameOctets h apdu + 20, x.2 + 1)))
      | _ => (s, a.2)) (s, [(0, 0), (0, 0)])).1

/-- Every publication at a boundary: trip-class frames go ahead of every other (R219). -/
def evalGoosePubs (withheld : Nat → Bool) (s : State) : State := evalGooseClass false withheld (evalGooseClass true withheld s)

/-- Publications outside the sending modes (R220). -/
def stopGoosePubs (s : State) : State := setNet (fun n => { n with goosePubs := n.goosePubs.map (fun p => { p with sending := false, nextAt := none }) }) s

/-- GOOSE_RETRANSMIT (R218): the next frame of publication i. -/
def execGooseRetransmit (i : BitVec 6) (s : State) : Out :=
  .next (
    let p := goosePub s i.toNat
    match p.nextAt with
    | some t =>
      if !p.sending || !s.mode.mode.runs then s
      else sendGoose i.toNat (0, 0) (setGoosePub i.toNat (fun p => { p with sqNum := nextNum p.sqNum, step := p.step + 1 }) (setClk (·.advance t) s))
    | none => s)

end Sys2Proof.Machine
end

