-- ==== Sys2Proof/Machine/Timers.lean ====
section
/-! DEFINITION. The instants at which a protection timer of a bay or section ends. A protection cycle judges every timer against
its release boundary; each row here re-judges its own timer against the boundary that ends the Milestone in progress and moves
the count on to the deadline where that has been reached (log entry 2). -/

namespace Sys2Proof.Machine

/-- The count moved on to a deadline within the Milestone in progress. -/
def reach (t : Nat) (s : State) : State := if t ≤ endOfMs s then setClk (·.advance t) s else s

/-- Bay b runs an evaluated protection cycle. -/
def bayLive (s : State) (b : Nat) : Bool := (bayRun s b).ran && evaluated (effBeh s b)

/-- Context of a bay's stages with what its elements hold. -/
def timerCtx (s : State) (b : Nat) : BCtx :=
  let e := (bayRun s b).el
  let c := bayCtx s b
  stageCtx { c with blk := eblkMask s b ||| maskElements (bayMask s b) ||| shotMask c.g e.ar } e

/-- BAY_TRIP raised where it was not. -/
def raiseTrip (b : Nat) (s : State) : State := if (bayRun s b).el.bayTrip then s else tripStep b s

/-- A timer of bay b has changed its stages or elements: status, operate counts, and BAY_TRIP where an operate came. -/
def afterTimer (b : Nat) (f : BCtx → BayRun → BayRun) (s : State) : State :=
  if !bayLive s b then s
  else
    let c := timerCtx s b
    let e0 := (bayRun s b).el
    let r := f c (bayRun s b)
    let e := statusWords c.g c.blk r.stages r.el
    let rel := (bayProt s b).rel.el.op
    let s := setBay b (fun x =>
      { x with
        cur := { r with el := e }
        opcnt := x.opcnt.mapIdx (fun i n => if inMask e.op i && !inMask e0.op i && !inMask rel i then satN 16 (n + 1) else n) }) s
    if e.op != e0.op || e.bfRe != e0.bfRe then raiseTrip b s else s

/-- Stage i of a running bay changed by f where its record is enabled and it is not blocked. -/
def stageTimer (b i : Nat) (f : BCtx → Bytes → StageSt → StageSt) (s : State) : State :=
  afterTimer b (fun c r =>
    { r with stages := modAt r.stages i (fun x =>
        let g := recBytes c.g i
        if recEn g && !stageBlocked c i g then f c g x else x) }) s

/-- A pickup with a definite delay judged at the release boundary. -/
def delayDue (c : BCtx) (td : Nat) (x : DelaySt) : DelaySt := if x.pu && !x.blk then { x with op := decide (x.tPu + usU td ≤ c.tRel) } else x

/-- STAGE_TD_EXPIRY (R292): elements 0 to 24 that are definite-time stages, 27 (46BC) and 34 (HIF). -/
def execStageTdExpiry (bay : BitVec 6) (elem : BitVec 6) (s : State) : Out :=
  .next (
    let b := bay.toNat
    let i := elem.toNat
    let r := bayRun s b
    let g := grpBytes s b
    if i == 27 then
      afterTimer b (fun c r => { r with el := { r.el with bc := delayDue c (u32At c.g 0x708) r.el.bc } })
        (if r.el.bc.pu then reach (r.el.bc.tPu + usU (u32At g 0x708)) s else s)
    else if i == 34 then
      afterTimer b (fun c r => { r with el := { r.el with hif := delayDue c (u32At c.g 0x9CC) r.el.hif } })
        (if r.el.hif.pu then reach (r.el.hif.tPu + usU (u32At g 0x9CC)) s else s)
    else if 24 < i || isCurve i then s
    else
      let x := r.stages.getD i {}
      stageTimer b i stageOperate (if x.pu then reach (x.tPu + usU (recTd (recBytes g i))) s else s))

/-- STAGE_RESET_TIMEOUT (R292). -/
def execStageResetTimeout (bay : BitVec 6) (i : BitVec 5) (s : State) : Out :=
  .next (
    let x := (bayRun s bay.toNat).stages.getD i.toNat {}
    let s := if x.held != 0 then reach x.heldTo s else s
    setRun bay.toNat (fun r => { r with stages := modAt r.stages i.toNat (heldEnd (endOfMs s)) }) s)

/-- CURVE_OPERATE (R324). -/
def execCurveOperate (bay : BitVec 6) (i : BitVec 5) (s : State) : Out :=
  .next (
    let b := bay.toNat
    if !isCurve i.toNat then s
    else
      let x := (bayRun s b).stages.getD i.toNat {}
      let s := if x.pu && x.h == hOne then reach (x.tPu + usU (recTmin (recBytes (grpBytes s b) i.toNat))) s else s
      stageTimer b i.toNat (fun c r x => curveOut c r x.op x) s)

/-- CURVE_RESET_TIMEOUT (R325). -/
def execCurveResetTimeout (bay : BitVec 6) (i : BitVec 5) (s : State) : Out :=
  .next (
    let b := bay.toNat
    let r := recBytes (grpBytes s b) i.toNat
    if !isCurve i.toNat then s
    else
      let s := match ((bayRun s b).stages.getD i.toNat {}).rstAt with
        | some t => if recRst r == 1 then reach (t + usU (recResetT r)) s else s
        | none => s
      setRun b (fun x => { x with stages := modAt x.stages i.toNat (curveResetEnd r (endOfMs s)) }) s)

/-! ### 79 (R305) -/

/-- The time limit of a state of 79 in µs. -/
def arLimit (g : Bytes) (a : ArSt) : Nat :=
  match a.st with | 2 => 2000000 | 3 => u32At g (0x804 + 4 * min a.c 3) | 4 => u32At g 0x818 | _ => u32At g 0x814

/-- 79 judged again while it is in the state whose time limit ends. -/
def arTimer (st b : Nat) (s : State) : State :=
  let c := bayCtx s b
  let a := (bayRun s b).el.ar
  if !bayLive s b || a.st != st || endOfMs s < a.at_ + usU (arLimit c.g a) then s
  else
    let e := (bayRun s b).el
    let a' := arStep c.g
      { run := !inMask (eblkMask s b) 30, trip := false, reclosable := false
        arBlk := arBlkIn s b || (bitAt c.g 0x740 2 && bitAt c.g 0x740 0 && e.thPu), bfOn := e.bfAt.isSome && !e.bfPrev, cb := c.cb, open_ := c.tOpen, rel := c.tRel } a
    let s := reach (a.at_ + usU (arLimit c.g a)) s
    let s := if a'.st != a.st then stageEvent (clusterOf b) Src.prot 1 b (arRecord a a') s else s
    setRun b (fun r => { r with el := { r.el with ar := a' } }) s

/-- TRIPPED_TIMEOUT (R305). -/
def execTrippedTimeout (bay : BitVec 6) (s : State) : Out := .next (arTimer 2 bay.toNat s)

/-- DEAD_TIME_END (R305). -/
def execDeadTimeEnd (bay : BitVec 6) (s : State) : Out := .next (arTimer 3 bay.toNat s)

/-- CLOSE_T_END (R305). -/
def execCloseTEnd (bay : BitVec 6) (s : State) : Out := .next (arTimer 4 bay.toNat s)

/-- RECLAIM_END (R305). -/
def execReclaimEnd (bay : BitVec 6) (s : State) : Out := .next (arTimer 5 bay.toNat s)

/-! ### 50BF (R304) -/

/-- Time T (offset of its field) of 50BF has passed at the release boundary. -/
def bfDue (s : State) (b off : Nat) : Bool :=
  match (bayRun s b).el.bfAt with | some t => decide (t + usU (u32At (grpBytes s b) off) ≤ endOfMs s) | none => false

def bfReach (b off : Nat) (s : State) : State :=
  match (bayRun s b).el.bfAt with | some t => reach (t + usU (u32At (grpBytes s b) off)) s | none => s

/-- BF_RETRIP (R304). -/
def execBfRetrip (bay : BitVec 6) (s : State) : Out :=
  .next (
    let b := bay.toNat
    if bfDue s b 0x788 then afterTimer b (fun _ r => { r with el := { r.el with bfRe := true } }) (bfReach b 0x788 s) else s)

/-- BF_BKTRIP (R304): with BF_BUS, a bus trip of every section the bay is connected to. -/
def execBfBktrip (bay : BitVec 6) (s : State) : Out :=
  .next (
    let b := bay.toNat
    if bfDue s b 0x78C && bayLive s b then
      let s := afterTimer b (fun _ r => { r with el := { r.el with bfBk := true } }) (bfReach b 0x78C s)
      forBays (fun i s => if busTrips s i != 0 then raiseTrip i s else s) s
    else s)

/-! ### SOTF, cold-load pickup and inrush (R300-R302) -/

/-- SOTF_ARMED (R302). -/
def execSotfArmed (bay : BitVec 6) (s : State) : Out :=
  .next (
    let b := bay.toNat
    let g := grpBytes s b
    match (bayRun s b).el.armSince with
    | some t =>
      if bitAt g 0x900 0 && decide (t + usU (u32At g 0x908) ≤ endOfMs s) then
        setRun b (fun r => { r with el := { r.el with armed := true } }) (reach (t + usU (u32At g 0x908)) s)
      else s
    | none => s)

/-- SOTF_WINDOW_END (R302). -/
def execSotfWindowEnd (bay : BitVec 6) (s : State) : Out :=
  .next (
    let b := bay.toNat
    let w := u32At (grpBytes s b) 0x90C
    match (bayRun s b).el.sotfAt with
    | some t =>
      if t + usU w ≤ endOfMs s then setRun b (fun r => { r with el := { r.el with sotfAt := none, sotfWin := false } }) (reach (t + usU w) s) else s
    | none => s)

/-- CLP_DEENERGISED (R301). -/
def execClpDeenergised (bay : BitVec 6) (s : State) : Out :=
  .next (
    let b := bay.toNat
    let d := secU (u16At (grpBytes s b) 0x984)
    match (bayRun s b).el.deadSince with
    | some t => if t + d ≤ endOfMs s then setRun b (fun r => { r with el := { r.el with dead := true } }) (reach (t + d) s) else s
    | none => s)

/-- CLP_ACT_END (R301). -/
def execClpActEnd (bay : BitVec 6) (s : State) : Out :=
  .next (
    let b := bay.toNat
    let d := secU (u16At (grpBytes s b) 0x986)
    match (bayRun s b).el.clpAt with
    | some t => if t + d ≤ endOfMs s then setRun b (fun r => { r with el := { r.el with clpAt := none, clp := false } }) (reach (t + d) s) else s
    | none => s)

/-- INRUSH_p of a bay without the causes that have ended, and the phases it blocks. -/
def inrushEnd (c : BCtx) (e : Elems) : Elems :=
  let hold := e.ratioMs.map (fun m => match m with | some x => decide (c.n ≤ x + u16At c.g 0x94C) | none => false)
  let bits := hold.map (· || e.win)
  let bits := if bitAt c.g 0x940 1 && bits.any id then [true, true, true] else bits
  { e with inrush := bits, inrBlk := List.zipWith (· && ·) e.inrBlk bits }

/-- INRUSH_WINDOW_END (R300): INIT_N Milestones after the energisation. -/
def execInrushWindowEnd (bay : BitVec 6) (s : State) : Out :=
  .next (
    match (bayRun s bay.toNat).el.winAt with
    | some m =>
      if m + inrWin (grpBytes s bay.toNat) ≤ s.clk.ms then
        afterTimer bay.toNat (fun c r => { r with el := inrushEnd c { r.el with winAt := none, win := false } }) s
      else s
    | none => s)

/-- INRUSH_HOLD_END (R300): HOLD_N Milestones after the ratio condition of a phase ended. -/
def execInrushHoldEnd (bay : BitVec 6) (phase : BitVec 2) (s : State) : Out :=
  .next (
    let p := phase.toNat
    match (bayRun s bay.toNat).el.ratioMs.getD p none with
    | some m =>
      if m + u16At (grpBytes s bay.toNat) 0x94C < s.clk.ms then
        afterTimer bay.toNat (fun c r => { r with el := inrushEnd c { r.el with ratioMs := modAt r.el.ratioMs p (fun _ => none) } }) s
      else s
    | none => s)

/-! ### Sections (R311, R312) -/

/-- RI_TD_EXPIRY (R312). -/
def execRiTdExpiry (sect : BitVec 4) (s : State) : Out :=
  .next (
    let k := sect.toNat
    let r := sectRun s k
    let t := r.riAt + msU (riTd (sectionBytes s k))
    if sectionEn s k && r.ran && r.riPu && !r.riOp && decide (t ≤ endOfMs s) then
      let s := setSect k (fun r => { r with riOp := true, riOps := satN 16 (r.riOps + 1) }) (reach t s)
      let s := stageEvent (sectCluster s k) Src.prot 2 (0x0100 + k) (dCode 2 ++ dCode 0) s
      forBays (fun i s => if busTrips s i != 0 then raiseTrip i s else s) s
    else s)

/-- SAT_BLK_END (R311). -/
def execSatBlkEnd (sect : BitVec 4) (s : State) : Out :=
  .next (
    match (sectRun s sect.toNat).satEnd with
    | some t => if t ≤ endOfMs s then setSect sect.toNat (fun r => { r with satEnd := none, satIn := 0 }) (reach t s) else s
    | none => s)

/-- RI_HOLD_END (R312): a feeder whose start has dropped out for RI_HOLD no longer holds RI off. -/
def execRiHoldEnd (sect : BitVec 4) (s : State) : Out :=
  .next (
    let k := sect.toNat
    let h := msU (riHold (sectionBytes s k))
    let e := endOfMs s
    let s := (((sectRun s k).riHold.filter (fun x => decide (x.2 + h ≤ e))).map (·.2)).foldl (fun s t => reach (t + h) s) s
    setSect k (fun r => { r with riHold := r.riHold.filter (fun x => decide (e < x.2 + h)) }) s)

/-! ### Adaptation, memory and logic timers (R297, R341, R346, R355) -/

/-- FRZ_TRIP_END (R341): the freeze after a trip ends; other causes stay. -/
def execFrzTripEnd (bay : BitVec 6) (s : State) : Out :=
  .next (
    let b := bay.toNat
    let e := (bayRun s b).el
    let d := frzTrip (bayBytes s b)
    match e.tripAt with
    | some t =>
      if !e.bayTrip && decide (t + d ≤ endOfMs s) then
        setRun b (fun r => { r with el := { r.el with tripAt := none, frz := r.el.frz - place (bitsOf r.el.frz 2 1) 2 1 } }) (reach (t + d) s)
      else s
    | none => s)

/-- HIF_BACKGROUND_VALID (R346). -/
def execHifBackgroundValid (bay : BitVec 6) (lane : BitVec 2) (s : State) : Out :=
  .next (
    let b := bay.toNat
    if decide (hifWarm (bayBytes s b) ≤ (bayRun s b).el.bkgAge.getD lane.toNat 0) then
      setRun b (fun r => { r with el := { r.el with bkgOk := modAt r.el.bkgOk lane.toNat (fun _ => true) } }) s
    else s)

/-- MEM_T_END (R297). -/
def execMemTEnd (bay : BitVec 6) (s : State) : Out :=
  .next (
    let b := bay.toNat
    let d := msU (u16At ((grpBytes s b).drop 0x680) 0xC)
    match (bayRun s b).el.vmem with
    | some (_, _, t) => if t + d < endOfMs s then setRun b (fun r => { r with el := { r.el with vmem := none, memUse := false } }) (reach (t + d) s) else s
    | none => s)

/-- The opcode of the first timer instruction of a program that names slot t: 0x40 TON, 0x41 TOF, 0x42 TP. -/
def timerOp (img : Bytes) (t : Nat) : Option Nat :=
  ((List.range (pNinstr img)).find? (fun k =>
    let w := instrWord img k
    [0x40, 0x41, 0x42].contains (bitsOf w 24 8) && opIndex (bitsOf w 0 24) == t)).map (fun k => bitsOf (instrWord img k) 24 8)

/-- LOGIC_TIMER_EXPIRY (R355): a running timer reaches its preset against the release time of the bay's logic cycle. -/
def execLogicTimerExpiry (bay : BitVec 6) (t : BitVec 8) (s : State) : Out :=
  .next (
    let b := bay.toNat
    let x := logicBay s b
    let img := (activeImage x).getD []
    let y := x.data.tmr.getD t.toNat {}
    let pt := tmrPt img t.toNat
    let f : Option (Nat → Nat → Nat → Bool → LTimer → LTimer) := match timerOp img t.toNat with
      | some 0x40 => some tonStep | some 0x41 => some tofStep | some 0x42 => some tpStep | _ => none
    match f with
    | some f =>
      if x.ran && y.run && decide (y.start + pt ≤ x.exec.rn) then
        setLogic b (fun x => { x with data := { x.data with tmr := modAt x.data.tmr t.toNat (fun y => f pt x.exec.tn x.exec.rn y.inn y) } }) s
      else s
    | none => s)

/-! ### Plausibility (R275-R277) -/

/-- A check: 1 I_N, 2 V_N of a bay, 3 Kirchhoff by phase, 4 voltage agreement of a section. -/
def chkOf (s : State) (unit code ph : Nat) : Chk :=
  match code with
  | 1 => (bayRun s unit).inChk
  | 2 => (bayRun s unit).vxChk
  | 3 => (sectRun s (unit - 0x0100)).kir.getD ph {}
  | _ => (sectRun s (unit - 0x0100)).vag

def setChk (unit code ph : Nat) (c : Chk) (s : State) : State :=
  match code with
  | 1 => setRun unit (fun r => { r with inChk := c }) s
  | 2 => setRun unit (fun r => { r with vxChk := c }) s
  | 3 => setSect (unit - 0x0100) (fun r => { r with kir := modAt r.kir ph (fun _ => c) }) s
  | _ => setSect (unit - 0x0100) (fun r => { r with vag := c }) s

/-- Entry and staging key of a check's unit. -/
def chkEntry (s : State) (unit code : Nat) : Bytes := if code < 3 then bayBytes s unit else sectionBytes s (unit - 0x0100)
def chkCluster (s : State) (unit code : Nat) : Nat := if code < 3 then clusterOf unit else sectCluster s (unit - 0x0100)

/-- A unit a check of this code can have. -/
def chkUnit (s : State) (unit code : Nat) : Bool :=
  if code == 1 || code == 2 then bayEn s unit && (bayRun s unit).ran
  else (code == 3 || code == 4) && decide (0x0100 ≤ unit) && sectionEn s (unit - 0x0100)

/-- One part of a check's evaluation with its events staged. -/
def chkRow (f : Bytes → Chk → Chk × List ChkEv) (unit code ph : Nat) (s : State) : State :=
  if !chkUnit s unit code then s
  else
    let (c, ev) := f (chkEntry s unit code) (chkOf s unit code ph)
    settle (stageChk (chkCluster s unit code) code (if code == 3 then ph else 3) unit c ev (setChk unit code ph c s))

/-- PLAUSIBILITY_LASTING (R275). -/
def execPlausibilityLasting (unit : BitVec 16) (code : BitVec 3) (phase : BitVec 2) (s : State) : Out :=
  .next (chkRow (fun b c => chkLasting (plbN b) c) unit.toNat code.toNat phase.toNat s)

/-- PLAUSIBILITY_CLEARED (R276). -/
def execPlausibilityCleared (unit : BitVec 16) (code : BitVec 3) (phase : BitVec 2) (s : State) : Out :=
  .next (
    let u := unit.toNat
    let s := chkRow (fun b c => chkCleared (plbW b) c) u code.toNat phase.toNat s
    if !chkUnit s u code.toNat then s
    else if u < 0x0100 then clear12 (clusterOf u) u ((bayRun s u).inChk.last || (bayRun s u).vxChk.last) s
    else clearSect (u - 0x0100) s)

/-- PLAUSIBILITY_EPISODE_END (R277). -/
def execPlausibilityEpisodeEnd (unit : BitVec 16) (code : BitVec 3) (phase : BitVec 2) (s : State) : Out :=
  .next (chkRow (fun b c => chkEpisode s.clk.ms s.clk.mono (plbW b) c) unit.toNat code.toNat phase.toNat s)

/-! ### The cycle frame and the counters (R264, R270) -/

/-- The cycle frame of a bay closed: bands, HIF frame and background. -/
def frameEnd (b : Nat) (s : State) : State :=
  let c := bayCtx s b
  if !c.frame then s
  else
    let r := bayRun s b
    let h := bandStep s b r.hist
    let e := if bitAt c.g 0x9C0 0 && evaluated c.beh then hifFrame c h r.el else r.el
    setRun b (fun r => { r with hist := h, el := bkgStep c h (e.frz != 0) (spanOf s 96) e, frameMs := some s.clk.ms }) s

/-- CYCLE_FRAME_END (R264): at Milestone 95 modulo 96, what the cycle in progress has not closed. -/
def execCycleFrameEnd (s : State) : Out := .next (forBays frameEnd s)

/-- ENERGY_COUNTERS_SAVE (R270). -/
def execEnergyCountersSave (s : State) : Out :=
  .next (setProt (fun p => { p with bays := p.bays.map (fun x => { x with energySaved := x.energy }) }) s)

end Sys2Proof.Machine
end

