-- ==== Sys2Proof/Machine/Loops.lean ====
section
/-! DEFINITION. The loop engine: sources, the update of a user loop, transfers, banks, the plant model, injection and capture,
status (R396-R418, R422). Signals are signed Q0.31. -/

namespace Sys2Proof.Machine

def setLoops (f : LoopsSt → LoopsSt) (s : State) : State := { s with loops := f s.loops }
def loopSt (s : State) (i : Nat) : LoopSt := s.loops.loops.getD i {}
def setLoop (i : Nat) (f : LoopSt → LoopSt) (s : State) : State := setLoops (fun x => { x with loops := modAt x.loops i f }) s

/-! ### Fields (R399) -/

def loopBytes (s : State) (i : Nat) : Bytes := (s.tbl.loop.getD i {}).bytes
def rateDiv (b : Bytes) : Nat := fld b 4 0 4
def startAuto (b : Bytes) : Bool := bitAt b 4 4
def spTrack (b : Bytes) : Bool := bitAt b 4 5
def mdlEn (b : Bytes) : Bool := bitAt b 4 6
def outSel (b : Bytes) : Nat := fld b 4 8 5
def initBank (b : Bytes) : Nat := fld b 4 13 1
def xfadeN (b : Bytes) : Nat := let x := u16At b 0x34; if x == 0 then 96 else x
def mdlN (b : Bytes) : Nat := let x := u16At b 0xBC; if x == 0 then 64 else x
def mdlW (b : Bytes) : Nat := let x := u16At b 0xBE; if x == 0 then 256 else x

/-- User loops (R396). -/
def isUserLoop (i : Nat) : Bool := decide (10 ≤ i) && decide (i ≤ 31)

/-! ### Measurands and sources (R402) -/

/-- binary32 as a quotient; infinities and NaN read as 0. -/
def f32Rat (x : Nat) : Int × Nat :=
  let e := bitsOf x 23 8
  let m : Nat := x % 2 ^ 23
  let sg : Int := if 2 ^ 31 ≤ x then -1 else 1
  if e == 255 then (0, 1)
  else if e == 0 then (sg * (m : Int), 2 ^ 149)
  else
    let m := m + 2 ^ 23
    if 150 ≤ e then (sg * ((m * 2 ^ (e - 150) : Nat) : Int), 1) else (sg * (m : Int), 2 ^ (150 - e))

/-- A bay measurand as a quotient in its unit, with its quality (Table: Loop measurand codes). -/
def measurand (bb : Bytes) (r : BayRun) (code : Nat) : (Int × Nat) × Nat :=
  let m := r.meas
  let ab (x : Phasor) : (Int × Nat) × Nat := (((mag x : Nat), 1000 * 2 ^ 31), x.q)
  let pw := power3 bb m.rep
  let w : Nat := 1000000 * 2 ^ 62
  let sa := isqrt (pw.1.1 * pw.1.1 + pw.1.2 * pw.1.2).toNat
  match code with
  | 0 => ab (seqV bb 1 m.rep)
  | 1 => ab (seqI bb 1 m.rep)
  | 2 => ab (seqI bb 2 m.rep)
  | 3 => ab (seqV bb 0 m.rep)
  | 4 => ((pw.1.1, w), pw.2)
  | 5 => ((pw.1.2, w), pw.2)
  | 6 => (((sa : Nat), w), pw.2)
  | 7 =>
    let i1 := seqI bb 1 m.rep
    if belowFs (magSq i1) (m.fs.getD 0 0) 1 100 then ((0, 1), pw.2 ||| Qb.inv)
    else if sa == 0 then ((Config.freeInt 47 [pw.1.1, pw.1.2], 2 ^ 31), pw.2) else ((pw.1.1, sa), pw.2)
  | 8 => (((m.f : Nat), 2 ^ 26), m.fQ)
  | 9 => ((m.dfdt, 2 ^ 26), m.dfQ)
  | 10 => (((r.hist.th : Nat), 2 ^ 64), r.hist.thQ)
  | k =>
    let x := m.rms.getD (k - 11) (0, Qb.inv)
    (((isqrt (x.1 * 2 ^ 40 / 96) * m.fs.getD (k - 11) 0 : Nat), 1000 * 2 ^ 43), x.2)

/-- The released measurand of a bay; one that is absent or does not run reads 0 with INV (R402). -/
def relMeasurand (s : State) (b code : Nat) : (Int × Nat) × Nat :=
  if (runningBays s).contains b && (bayProt s b).rel.ran then measurand (bayBytes s b) (bayProt s b).rel code else ((0, 1), Qb.inv)

/-- A source value and its quality. -/
def sourceValue (s : State) (desc fs : Nat) : Int × Nat :=
  let num := bitsOf desc 3 9
  match bitsOf desc 0 3 with
  | 1 =>
    match s.aux.means.getD num none with
    | some (m, t) => if s.aux.cfg.entries.any (fun e => e.input == num) && decide (s.clk.mono < t + secU 1) then ((m * 2 ^ 15 : Nat), 0) else (0, Qb.inv)
    | none => (0, Qb.inv)
  | 2 =>
    let ((n, d), q) := relMeasurand s num (bitsOf desc 12 5)
    let (fn, fd) := f32Rat fs
    let x := roundOpen 48 (n * fd * 2 ^ 31) (d * fn.toNat)
    let y := lim32 x
    (y, if x == y then q else q ||| Qb.ovr)
  | 3 => if laneSrc s num == 0 then (0, Qb.inv) else let w := (laneSt s num).monRel.getLastD {}; (w.v * 256, w.q)
  | _ => (0, 0)

/-- The cluster that computes a source withheld its outputs at the boundary that opened this Milestone (R404). -/
def sourceWithheld (s : State) (desc : Nat) : Bool :=
  let num := bitsOf desc 3 9
  let c? := match bitsOf desc 0 3 with | 2 => some (clusterOf num) | 3 => some (num / 64) | _ => none
  match c? with
  | none => false
  | some c => match s.mode.tko.getD c .none with | .replaying m => m + 1 == s.clk.ms | .lost _ m => m + 1 == s.clk.ms | _ => false

/-! ### Parts of the update (R406) -/

/-- Set-point ramp and Switchback; `d` is the duration of the update. -/
def rampStep (b : Bytes) (held : Bool) (y : Int) (d : Nat) (x : LoopSt) : LoopSt :=
  if !x.auto && spTrack b then { x with r := if held then x.r else y, moving := false }
  else if u32At b 0x24 == 0 then { x with r := x.target, moving := false }
  else
    let st : Int := roundOpen 49 (u32At b 0x24 * d : Nat) (msU 1)
    let nd : Int := if x.r < x.target then 1 else if x.target < x.r then -1 else 0
    let sw := x.moving && nd != 0 && nd != x.dir
    let r := if nd == 1 then min (x.r + st) x.target else if nd == -1 then max (x.r - st) x.target else x.r
    { x with r := r, moving := nd != 0 && r != x.target, dir := if nd == 0 then x.dir else nd
             swb := x.swb || sw, switchbacks := if sw then satN 32 (x.switchbacks + 1) else x.switchbacks }

/-- q[0] + round(lambda (q[1] - q[0])). -/
def mix (lam : Nat) (q0 q1 : Int) : Int := lim32 (q0 + divRoundAway ((lam : Int) * (q1 - q0)) (2 ^ 31))

/-- One update of a fade, from the update after the one that took the request (R410). -/
def fadeStep (x : LoopSt) : LoopSt :=
  if x.fadeJ < x.fadeN && !x.fadeNew then
    let j := x.fadeJ + 1
    let t : Int := if x.fadeTgt == 1 then 2 ^ 31 else 0
    { x with fadeJ := j, lam := (roundOpen 50 ((x.lam0 : Int) * x.fadeN + (t - x.lam0) * j) x.fadeN).toNat }
  else x

/-- Both banks' terms formed and mixed: P, the integral step, D and FF. -/
def loopTerms (b : Bytes) (f : Int) (x : LoopSt) : LoopSt × Int :=
  let bank (k : Nat) : Nat := 0x40 + 0x30 * k
  let p (k : Nat) := lim32 (term (coefAt b (bank k)) x.e)
  let di (k : Nat) := lim32 (term (coefAt b (bank k + 8)) x.e)
  let d (k : Nat) := lim32 (term (coefAt b (bank k + 0x10)) (x.ds.getD k 0) + term (coefAt b (bank k + 0x18)) (x.yPrev - x.y))
  let ff (k : Nat) := lim32 (term (coefAt b (bank k + 0x20)) f + s32At b (bank k + 0x28))
  ({ x with p := mix x.lam (p 0) (p 1), ds := [d 0, d 1], dd := mix x.lam (d 0) (d 1), ff := mix x.lam (ff 0) (ff 1) },
   mix x.lam (di 0) (di 1))

def clampZ (lo hi x : Int) : Int := max lo (min hi x)

/-- The limits of an update; a conflict keeps those of the update before (R409). -/
def loopLimits (b : Bytes) (x : LoopSt) : LoopSt :=
  if s32At b 0x28 < s32At b 0x2C then { x with umin := s32At b 0x28, umax := s32At b 0x2C } else { x with limConf := true }

/-- Integrator preset of a transfer to automatic: the preset and the remainder (R411). -/
def presetLoop (x : LoopSt) : LoopSt :=
  let need := clampZ x.umin x.umax x.man - (x.p + x.dd + x.ff)
  let i := clampZ x.umin x.umax need
  { x with i := i, lastPreset := i, lastRem := lim32 (need - i), auto := true, handed := false, yhat := x.y }

/-- The output of an update; `preset` says that the integrator was preset in it. -/
def loopOutput (preset : Bool) (di injOut : Int) (x : LoopSt) : LoopSt :=
  if x.auto then
    let iTry := x.i + di
    let raw := x.p + iTry + x.dd + x.ff + injOut
    let skip := decide ((x.umax < raw ∧ 0 < di) ∨ (raw < x.umin ∧ di < 0))
    let i := if preset then x.i else clampZ x.umin x.umax (if skip then x.i else iTry)
    { x with i := i, windup := skip && !preset, u := clampZ x.umin x.umax (x.p + i + x.dd + x.ff + injOut) }
  else { x with man := clampZ x.umin x.umax x.man, windup := false, u := clampZ x.umin x.umax (clampZ x.umin x.umax x.man + injOut) }

/-! ### Plant model (R413, R414) -/

/-- The model advanced with the output of the update before. -/
def modelStep (b : Bytes) (u : Int) (x : LoopSt) : LoopSt :=
  { x with yhat := lim32 (x.yhat + term (coefAt b 0xA0) (lim32 (term (coefAt b 0xA8) u + s32At b 0xB0 - x.yhat))) }

/-- Residual and bound of the model, and whether the update exceeds. -/
def modelJudge (b : Bytes) (held : Bool) (x : LoopSt) : LoopSt × Bool :=
  let r : Int := (x.y - x.yhat).natAbs
  let bd : Int := u32At b 0xB4 + u16At b 0xB8 * x.yhat.natAbs / 1000
  if held then (x, true) else ({ x with resid := lim32 r, bound := lim32 bd }, decide (1000 * (u32At b 0xB4 : Int) + u16At b 0xB8 * x.yhat.natAbs < 1000 * r))

/-- The count of exceeding updates. -/
def mdlCount (x : LoopSt) : Nat := (x.win.filter id).length

/-- An automatic update entered into the count, with the source 15 of supervision (R413, R530, R532). -/
def countModel (i : Nat) (exc : Bool) (b : Bytes) (s : State) : State :=
  let s := setLoop i (fun x => { x with win := (exc :: x.win).take (mdlW b) }) s
  let f := findInst s.supv 15 i
  let n := mdlCount (loopSt s i)
  if exc then
    setSupv (fun v => setTotals 15 (fun t => { t with events := satN 32 (t.events + 1) })
      (putInst { f with episode := true, lastEvent := s.clk.mono, peak := max f.peak n } v)) s
  else if f.episode && n == 0 then endEpisode f s
  else s

/-- Handover to manual when the count reaches MDL_N (R414); `u` is the output of the update before. -/
def handover (i : Nat) (u : Int) (b : Bytes) (s : State) : State :=
  if mdlCount (loopSt s i) < mdlN b || !(loopSt s i).auto then s
  else
    let n := mdlCount (loopSt s i)
    let x := loopSt s i
    let s := setLoop i (fun x => { x with u := u, man := u, auto := false, handed := true, win := [], yhat := x.y, handovers := satN 32 (x.handovers + 1) }) s
    let s := setLoops (fun l => { l with inj := l.inj.map (fun j => if j.loop == i && !bitAt j.block 0 0 then { j with stop := true, early := true } else j) }) s
    let s := postEvent Src.loop 2 i (dWord (codeOf x.y 32) ++ dWord (codeOf x.yhat 32) ++ dWord (codeOf x.resid 32) ++ dWord (codeOf x.bound 32)) (raiseIrq Irq.loop s)
    settle (declare 15 i n s)

/-! ### Injection (R416, R417) -/

def injDec (b : Bytes) : Nat := 2 ^ fld b 0 12 4
def injPre (b : Bytes) : Nat := u16At b 0x18 * injDec b
def injDur (b : Bytes) : Nat := u32At b 8

/-- Lengths (m, t) of the PRBS register. -/
def prbsTaps (b : Bytes) : Nat × Nat := match fld b 0 8 4 with | 7 => (7, 6) | 9 => (9, 5) | 11 => (11, 9) | _ => (15, 14)

/-- The injection's value in its update j; which stage of the register gives the bit is left open (log entry 4). -/
def injValue (j : Nat) (x : InjSt) : Int :=
  let a : Int := u32At x.block 4
  let h := max 1 (u16At x.block 0xC)
  match fld x.block 0 1 2 with
  | 0 => a
  | 1 => if j / h % 2 == 0 then a else -a
  | 2 => let (m, _) := prbsTaps x.block; if x.reg.getD ((Config.freeInt 52 [m]).toNat % m) true then a else -a
  | _ => roundOpen 53 (a * (cosSin x.phase).2) (2 ^ 40)

/-- What the injection holds after its update j of duration d. -/
def injAdvance (j d : Nat) (x : InjSt) : InjSt :=
  let b := x.block
  match fld b 0 1 2 with
  | 2 =>
    let (m, t) := prbsTaps b
    if (j + 1) % max 1 (u16At b 0xC) == 0 then { x with reg := ((x.reg.getD (m - 1) true != x.reg.getD (t - 1) true) :: x.reg).take m } else x
  | 3 =>
    let f0 := max 1 (u32At b 0x10)
    let f := exp2Fix (log2Fix f0 1 + log2Fix (max f0 (u32At b 0x14)) f0 * j / max 1 (injDur b))
    { x with phase := (x.phase + f * 2 ^ 48 * d / (2 ^ 64 * 1000 * secU 1)) % 2 ^ 48 }
  | _ => x

/-- The injection of this loop is active in the update in progress: its update number. -/
def injNow (i : Nat) (l : LoopsSt) : Option (Nat × InjSt) :=
  match l.inj with
  | some x => if x.loop == i && !x.stop && decide (injPre x.block ≤ x.k) && decide (x.k < injPre x.block + injDur x.block) then some (x.k - injPre x.block, x) else none
  | none => none

/-- The value injected at a point (0 set-point, 1 output) in the update in progress. -/
def injAt (i point : Nat) (s : State) : Int :=
  match injNow i s.loops with | some (j, x) => if fld x.block 0 0 1 == point then injValue j x else 0 | none => 0

/-- The capture and the injection move on by one update of the loop (R417, R418). -/
def injUpdate (i d : Nat) (held : Bool) (s : State) : State :=
  match s.loops.inj with
  | none => s
  | some x =>
    if x.loop != i then s
    else
      let l := loopSt s i
      let now := injNow i s.loops
      let v := match now with | some (j, x) => injValue j x | none => 0
      let point := !x.capDone && x.k % injDec x.block == 0
      let early := x.early || x.stop
      let x1 : InjSt :=
        { x with
          first := if x.k == 0 then some (s.clk.ms, s.clk.msTai / uPerNs / 1000000000, s.clk.msTai / uPerNs % 1000000000) else x.first
          pts := if point then [lim32 (l.r + injAt i 0 s), l.y, l.u, lim32 v] :: x.pts else x.pts
          heldN := if held && !x.capDone then x.heldN + 1 else x.heldN, early := early }
      let x1 := match now with | some (j, _) => injAdvance j d x1 | none => x1
      let full := decide (4096 ≤ x1.pts.length)
      let x1 := { x1 with k := x1.k + 1, capDone := x1.capDone || (point && (full || early)) }
      let isOver := x1.stop || decide (injPre x1.block + injDur x1.block ≤ x1.k)
      setLoops (fun l => { l with inj := if x1.written && isOver then none else some x1 }) s

/-- The injection on loop i ends early: LOOP.XFER, or the loop stops, when no further point comes (R418). -/
def endInjection (i : Nat) (stops : Bool) (s : State) : State :=
  setLoops (fun l => { l with inj := l.inj.map (fun x => if x.loop == i then { x with stop := true, early := true, capDone := x.capDone || stops } else x) }) s

/-! ### Requests at an update (R410-R412) -/

def answerLoop (x : Option CmdRef) (r : Reply) (s : State) : State := match x with | some c => finishOpen c r s | none => s

/-- One request before the terms are formed; a transfer to automatic comes back to be made once they are. -/
def loopRequest (i : Nat) (b : Bytes) (q : Option CmdRef × LoopReq) (s : State) : State × List (Option CmdRef) :=
  let x := loopSt s i
  let at_ := some s.clk.ms
  match q.2 with
  | .setpt t => (answerLoop q.1 { effect := at_ } (setLoop i (fun x => { x with target := t }) s), [])
  | .bank k n =>
    let want := if k == 1 then 2 ^ 31 else 0
    if k == x.fadeTgt && x.lam == want && !decide (x.fadeJ < x.fadeN) then (answerLoop q.1 {} s, [])
    else
      (answerLoop q.1 { result := x.lam, effect := at_ }
        (setLoop i (fun x => { x with lam0 := x.lam, fadeTgt := k, fadeJ := 0, fadeN := if n == 0 then xfadeN b else n, fadeNew := true }) s), [])
  | .xfer dst setman m =>
    if dst == 1 then
      if x.auto then
        (answerLoop q.1 { effect := at_ } (postEvent Src.loop 1 i (dCode 1)
          (endInjection i false (setLoop i (fun x => { x with auto := false, man := if setman then m else x.u }) s))), [])
      else if setman then
        (answerLoop q.1 { effect := at_ } (postEvent Src.loop 1 i (dCode 1) (endInjection i false (setLoop i (fun x => { x with man := m }) s))), [])
      else (answerLoop q.1 {} s, [])
    else if x.auto then (answerLoop q.1 {} s, [])
    else (s, [q.1])

def loopRequests (i : Nat) (b : Bytes) (s : State) : State × List (Option CmdRef) :=
  let q := (loopSt s i).req
  q.foldl (fun (a : State × List (Option CmdRef)) x => let (s, l) := loopRequest i b x a.1; (s, a.2 ++ l)) (setLoop i (fun x => { x with req := [] }) s, [])

/-- Transfers to automatic answered with preset and remainder; source 15 clears (R411, R530). -/
def answerAuto (i : Nat) (l : List (Option CmdRef)) (s : State) : State :=
  if l.isEmpty then s
  else
    let x := loopSt s i
    let s := clearLasting 15 i (postEvent Src.loop 1 i (dCode 2) (endInjection i false s))
    l.foldl (fun s c => answerLoop c { result := codeOf x.lastPreset 32 + codeOf x.lastRem 32 * 2 ^ 32, effect := some s.clk.ms } s) s

/-! ### One update (R403, R404, R406) -/

/-- The terms and output of an update that is not held. -/
def loopFresh (i : Nat) (b : Bytes) (y f : Int) (d : Nat) (toAuto : Bool) (s : State) : State :=
  let x0 := loopSt s i
  let x := fadeStep (loopLimits b { x0 with held := false, y := y })
  let x := if x.fresh then { x with yPrev := y, yhat := y, r := if !x.auto && spTrack b then y else x.target } else rampStep b false y d x
  let x := { x with e := lim32 (x.r + injAt i 0 s - y) }
  let (x, di) := loopTerms b f x
  let preset := toAuto || (x0.fresh && x0.auto)
  let x := if mdlEn b && !x0.fresh then modelStep b x0.u x else x
  let x := if preset then presetLoop x else x
  let x := loopOutput preset di (injAt i 1 s) x
  setLoop i (fun _ => { x with yPrev := y, fresh := false }) s

/-- A held update: the ramp advances, everything else repeats. -/
def loopHeld (i : Nat) (b : Bytes) (d : Nat) (toAuto : Bool) (s : State) : State :=
  setLoop i (fun x =>
    let x := rampStep b true x.y d { x with held := true, heldCnt := satN 32 (x.heldCnt + 1) }
    if toAuto then presetLoop x else x) s

/-- A user loop updates at the boundary that opened the Milestone in progress. -/
def loopDue (s : State) (i : Nat) : Bool :=
  let b := loopBytes s i
  isUserLoop i && (loopSt s i).on && s.clk.ms % 2 ^ rateDiv b == 0 && (loopSt s i).servedMs != some s.clk.ms

/-- One update of loop i. -/
def loopUpdate (i : Nat) (s : State) : State :=
  let b := loopBytes s i
  let served := setLoop i (fun x => { x with servedMs := some s.clk.ms }) s
  if sourceWithheld s (u32At b 8) || sourceWithheld s (u32At b 0xC) then setLoop i (fun x => { x with repeated := satN 32 (x.repeated + 1) }) served
  else
    let fb := sourceValue s (u32At b 8) (u32At b 0x10)
    let ff := sourceValue s (u32At b 0xC) (u32At b 0x14)
    let held := hasQ (fb.2 ||| ff.2) qStop
    let d := s.clk.openedAt - (loopSt s i).lastAt
    let (s, auto) := loopRequests i b served
    let u := (loopSt s i).u
    let s := if held then loopHeld i b d (!auto.isEmpty) s else loopFresh i b fb.1 ff.1 d (!auto.isEmpty) s
    let s := answerAuto i auto s
    let s := if mdlEn b && (loopSt s i).auto then
        let (x, exc) := modelJudge b held (loopSt s i)
        handover i u b (countModel i exc b (setLoop i (fun _ => x) s))
      else s
    injUpdate i d held (setLoop i (fun x => { x with lastMs := s.clk.ms, lastAt := s.clk.openedAt, fadeNew := false }) s)

/-- USER_LOOP_UPDATE (R404, R406): the update of a user loop that is due in the Milestone in progress. -/
def execUserLoopUpdate (i : BitVec 5) (s : State) : Out := .next (if loopDue s i.toNat then loopUpdate i.toNat s else s)

/-- Updates that were due in the Milestone that ends and were not served: each is dropped and counted (R404, R541). -/
def dropLoops (s : State) : State :=
  (List.range 32).foldl (fun s i =>
    if loopDue s i then
      bumpClass 3 ClassCount.drop (setLoop i (fun x => { x with servedMs := some s.clk.ms, dropped := satN 32 (x.dropped + 1) }) s)
    else s) s

/-- DEVICE_LOOP_UPDATE (R396): a device loop on its factory coefficients, which the spec does not give: its output is a free
value (log entry 4); loop 9's output is the addend of the time counter (R123), which keeps its value where no offset is corrected
(R132, R143). `y` is its feedback. -/
def execDeviceLoopUpdate (i : BitVec 5) (y : Int) (s : State) : Out :=
  .next (
    let i := i.toNat
    let shown (u : Int) (s : State) : State :=
      setLoop i (fun x => { x with on := true, auto := true, y := lim32 y, u := lim32 u, lastMs := s.clk.ms, lastAt := s.clk.mono }) s
    if i == 9 then (if steers s.time then let a := servoAddend s.clk.addend y; shown a (setClk (fun c => { c with addend := a }) s) else s)
    else if 7 < i || (i == 1 && s.variant != .k64) || s.mode.mode == .backup then s
    else
      let u := satZ 32 (Config.freeInt 54 [i, s.loops.device.getD i 0, y])
      shown u (setLoops (fun l => { l with device := modAt l.device i (fun _ => u) }) s))

/-! ### Start and stop (R400, R412, R413) -/

/-- What a change of entry i does at its boundary. -/
def loopEntryChanged (i : Nat) (old new : Bytes) (s : State) : State :=
  if !isUserLoop i then s
  else
    let was := bitAt old 0 0
    let now := bitAt new 0 0
    if now && !was then
      setLoop i (fun x =>
        { on := true, auto := startAuto new, target := s32At new 0x20, r := s32At new 0x20, man := s32At new 0x30, lam := initBank new * 2 ^ 31
          fadeTgt := initBank new, umin := s32At new 0x28, umax := s32At new 0x2C, lastAt := s.clk.openedAt, servedMs := x.servedMs
          swb := x.swb, limConf := x.limConf, switchbacks := x.switchbacks, handovers := x.handovers, heldCnt := x.heldCnt
          repeated := x.repeated, dropped := x.dropped, lastPreset := x.lastPreset, lastRem := x.lastRem, lastMs := x.lastMs }) s
    else if was && !now then
      let req := (loopSt s i).req
      let s := resetInst 15 i (endInjection i true (setLoop i (fun x => { x with on := false, u := 0, req := [], win := [] }) s))
      req.foldl (fun s q => answerLoop q.1 (Reply.refuse Rsn.state) s) s
    else if now then
      let s := if s32At old 0x20 != s32At new 0x20 then setLoop i (fun x => { x with target := s32At new 0x20 }) s else s
      if (old.drop 0xA0).take 0x20 != (new.drop 0xA0).take 0x20 || mdlEn old != mdlEn new then resetInst 15 i (setLoop i (fun x => { x with win := [] }) s) else s
    else s

/-- Every user loop stopped: BOOT and BACKUP (R397). -/
def stopLoops (s : State) : State := setLoops (fun l => { l with loops := l.loops.map (fun x => { x with on := false, u := 0, req := [], win := [] }) }) s

/-! ### Outputs (R405) -/

/-- PARAM of the running self-test `id` where it drives ball k (R563). -/
def testDrives (s : State) (id k : Nat) : Option Nat := match s.svc.test with | some t => if t.id == id && t.unit == k then some t.param else none | none => none

/-- PWM duty in 2^-31 of ball k, and AOUT code of ball k. -/
def pwmDuty (s : State) (k : Nat) : Nat :=
  if let some p := testDrives s 8 k then p * 2 ^ 31 / 1000
  else match (List.range 32).find? (fun i => (loopSt s i).on && isUserLoop i && outSel (loopBytes s i) == k + 1) with
  | some i => (loopSt s i).u.toNat
  | none => 0

def aoutCode (s : State) (k : Nat) : Nat :=
  if let some p := testDrives s 7 k then p
  else match (List.range 32).find? (fun i => (loopSt s i).on && isUserLoop i && outSel (loopBytes s i) == k + 17) with
  | some i => min 65535 ((loopSt s i).u / 2 ^ 15).toNat
  | none => 0

/-! ### Commands -/

/-- Loop 1 is absent on the K32 and the K8 (R58, R424). -/
def loopAbsent (v : Variant) (i : Nat) : Bool := i == 1 && v != .k64

/-- A LOOP command of one user loop: a UNIT above 31 is out of range (R422); another loop or a stopped one is refused. -/
def loopJudge (c : Cmd) (used : List (Nat × Nat × Nat)) (range : List (Bool × Nat)) (s : State) : Judge :=
  { absent := loopAbsent s.variant c.unit, used := used, range := (decide (31 < c.unit), 0x04) :: range }

def loopAct (c : Cmd) (q : LoopReq) (s : State) : Action :=
  if !isUserLoop c.unit || !(loopSt s c.unit).on then .done (Reply.refuse Rsn.state) s
  else .goesOn (setLoop c.unit (fun x => { x with req := x.req ++ [(some (refOf c), q)] }) (queuedEntry c s))

/-- LOOP_XFER (R411). -/
def execLoopXfer (c : Cmd) (s : State) : Out :=
  let dst := c.at_ 0x14 0 2
  .next (command c (loopJudge c [(0x14, 0, 3), (0x18, 0, 32)] [(dst == 0 || dst == 3, 0x14)])
    (loopAct c (.xfer dst (c.at_ 0x14 2 1 == 1) (c.sargs 0x18 0 32))) s)

/-- LOOP_BANK (R410). -/
def execLoopBank (c : Cmd) (s : State) : Out :=
  .next (command c (loopJudge c [(0x14, 0, 1), (0x14, 16, 16)] []) (loopAct c (.bank (c.at_ 0x14 0 1) (c.at_ 0x14 16 16))) s)

/-- LOOP_SETPT (R412). -/
def execLoopSetpt (c : Cmd) (s : State) : Out :=
  .next (command c (loopJudge c [(0x14, 0, 32)] []) (loopAct c (.setpt (c.sargs 0x14 0 32))) s)

/-- First offending offset of an injection block; the update rate is that of the Milestone in progress. -/
def injBad (s : State) (loop : Nat) (b : Bytes) : Option Nat :=
  let w := fld b 0 1 2
  let ord := fld b 0 8 4
  let prbs := w == 2
  let upd := s.clk.len * 2 ^ rateDiv (loopBytes s loop)
  let f1 := u32At b 0x14
  blockRange
    [(fld b 0 3 5 != 0 || fld b 0 16 16 != 0 || decide (12 < fld b 0 12 4) || (prbs != (ord == 7 || ord == 9 || ord == 11 || ord == 15)) || (!prbs && ord != 0), 0),
     (u32At b 8 == 0 || decide (16777216 < u32At b 8), 8),
     (((w == 1 || prbs) && u16At b 0xC == 0) || u16At b 0xE != 0, 0xC),
     (w == 3 && u32At b 0x10 == 0, 0x10),
     (w == 3 && (decide (f1 < u32At b 0x10) || decide (1000 * secU 1 < 2 * f1 * upd)), 0x14),
     (decide (2048 < u16At b 0x18) || u16At b 0x1A != 0, 0x18), (u32At b 0x1C != 0, 0x1C),
     (bitsOf (u64At b 0x20) 1 5 != 0, 0x20), (u64At b 0x28 != 0, 0x28), (u64At b 0x30 != 0, 0x30), (u64At b 0x38 != 0, 0x38)]

def injectAct (c : Cmd) (s : State) : Action :=
  if c.at_ 0x14 0 1 == 1 then .done {} (setLoops (fun l => { l with inj := l.inj.map (fun x => { x with stop := true }) }) s)
  else
    match readBlock c 64 s with
    | .error r => .done r s
    | .ok b =>
      match injBad s c.unit b with
      | some o => .done (Reply.range o) s
      | none =>
        if s.loops.inj.isSome || !isUserLoop c.unit || !(loopSt s c.unit).on || (!bitAt b 0 0 && !(loopSt s c.unit).auto) then
          .done (Reply.refuse Rsn.state) s
        else
          .goesOn (setLoops (fun l => { l with inj := some { loop := c.unit, cmd := refOf c, block := b, reg := List.replicate (prbsTaps b).1 true } }) (queuedEntry c s))

def injectRun (c : Cmd) (s : State) : State := command c (loopJudge c [(0x14, 0, 1)] []) (injectAct c) s

/-- LOOP_INJECT (R416). -/
def execLoopInject (c : Cmd) (s : State) : Out := .next (injectRun c s)

/-- LOOP_INJECT_STOP (R416). -/
def execLoopInjectStop (c : Cmd) (s : State) : Out := .next (injectRun c s)

/-- The capture of an injection (R418). -/
def captureBytes (x : InjSt) : Bytes :=
  let (ms, sec, ns) := x.first.getD (0, 0, 0)
  padTo 64 (leBytes 8 ms ++ leBytes 8 (sec % 2 ^ 48) ++ leBytes 4 ns ++ leBytes 4 (x.pts.length + place (flag x.early) 16 1) ++ leBytes 4 (satN 16 x.heldN)) ++
  x.pts.reverse.flatMap (fun p => p.flatMap (fun v => leBytes 4 (codeOf v 32)))

/-- INJECTION_CAPTURE_DONE (R418): the capture is written and the command completes. -/
def execInjectionCaptureDone (s : State) : Out :=
  .next (
    match s.loops.inj with
    | none => s
    | some x =>
      if !x.capDone || x.written then s
      else
        let a := u64At x.block 0x20
        let sp : Space := if a % 2 == 1 then .mbx else .host
        let b := captureBytes x
        let ok := reachable s sp (a / 64 * 64) b.length
        let isOver := x.stop || decide (injPre x.block + injDur x.block ≤ x.k)
        let s := setLoops (fun l => { l with inj := if isOver then none else some { x with written := true } }) s
        if ok then finishOpen x.cmd { result := x.pts.length + place (flag x.early) 16 1 } (memWrite sp (a / 64 * 64) b s)
        else finishOpen x.cmd (Reply.fail St.fault 3) s)

/-! ### Status (R422) -/

/-- Loop 8 as a loop of the table: it counts as stopped in CONFIGURE, and has neither a manual mode nor a model (R415); a frequency beyond
the full scale of 32 Hz saturates. -/
def loop8St (s : State) : LoopSt :=
  let g := s.grid
  let lim : Int := slewLimit g
  { on := s.mode.mode.runs, auto := true, r := lim32 g.fRef, target := lim32 g.fRef, y := g.loop8Y, e := g.loop8E, p := g.loop8P, i := g.loop8I
    u := g.loop8Last, umin := -lim, umax := lim, lastMs := g.loop8Ms }

def loopView (s : State) (i : Nat) : LoopSt := if i == 8 then loop8St s else loopSt s i

def loopStatus (s : State) (i : Nat) : Bytes :=
  let x := loopView s i
  let w (v : Int) : Bytes := leBytes 4 (codeOf v 32)
  let inj := match s.loops.inj with | some j => j.loop == i && (injNow i s.loops).isSome | none => false
  padTo 128
    (leBytes 8 x.lastMs ++
     leBytes 4 ((if x.on then (if x.auto then 2 else 1) else 0) + place (flag x.handed) 2 1 + place (flag x.moving) 3 1 + place (flag x.swb) 4 1 +
       place (flag (decide (x.fadeJ < x.fadeN))) 5 1 + place x.fadeTgt 6 1 + place (flag (x.on && x.u == x.umax)) 7 1 + place (flag (x.on && x.u == x.umin)) 8 1 +
       place (flag x.windup) 9 1 + place (flag x.held) 10 1 + place (flag x.limConf) 11 1 + place (flag inj) 12 1) ++
     leBytes 4 x.lam ++ [x.target, x.r, x.y, x.e, x.p, x.i, x.dd, x.ff, x.u, x.yhat, x.resid, x.bound].flatMap w ++
     leBytes 2 (mdlCount x) ++ leBytes 2 (x.fadeN - x.fadeJ) ++
     [x.switchbacks, x.handovers, x.heldCnt, x.repeated, x.dropped].flatMap (leBytes 4) ++ w x.lastPreset ++ w x.lastRem ++ w x.man)

end Sys2Proof.Machine
end

