-- ==== Sys2Proof/Machine/RecTrig.lean ====
section
/-! DEFINITION. The Trigger Table and the trigger engines of the regions (R443-R450). -/

namespace Sys2Proof.Machine

def setRec (f : RecSt → RecSt) (s : State) : State := { s with rec_ := f s.rec_ }
def region (s : State) (r : Nat) : RegionRec := s.rec_.regions.getD r {}
def setRegion (r : Nat) (f : RegionRec → RegionRec) (s : State) : State := setRec (fun x => { x with regions := modAt x.regions r f }) s

/-! ### Fields (R443) -/

def trgBytes (s : State) (b : Nat) : Bytes := (s.tbl.trigger.getD b {}).bytes
def trgEn (b : Bytes) : Bool := bitAt b 0 0
/-- The bay's lanes are recorded; its quality channels are. -/
def trgRec (b : Bytes) : Bool := trgEn b && bitAt b 4 0
def trgQual (b : Bytes) : Bool := bitAt b 4 1
def digAddr (b : Bytes) (i : Nat) : Nat := fld b (0x20 + 4 * i) 0 24
def digUsed (b : Bytes) (i : Nat) : Bool := bitAt b (0x20 + 4 * i) 24
/-- The 24 bytes of condition c. -/
def tcBytes (b : Bytes) (c : Nat) : Bytes := (b.drop (0x60 + 24 * c)).take 24
def tcKind (r : Bytes) : Nat := fld r 0 0 4
def tcEn (r : Bytes) : Bool := bitAt r 0 4
def tcFanout (r : Bytes) : Bool := bitAt r 0 5
def tcOut (r : Bytes) : Nat := fld r 0 6 3
def tcSense (r : Bytes) : Nat := fld r 0 9 2
def tcK (r : Bytes) : Nat := fld r 0 16 3
def tcQty (r : Bytes) : Nat := fld r 0 19 3
def tcElem (r : Bytes) : Nat := fld r 0 22 6

/-- A logic address of the ELM, BI, GIN, FLG or OUT space. -/
def fixedAddrOk (a : Nat) : Bool := decide (a < 2 ^ 24) && decide (opSpace a ≤ 4) && mayRead 0 a

/-- A kind uses TH_HI, TH_LO, T_MIN, T_MAX with its SENSE (Table: Trigger kinds). -/
def tcUses (r : Bytes) : Bool × Bool × Bool × Bool :=
  let e := tcSense r
  match tcKind r with
  | 0 => (e != 1, e != 0, false, false)
  | 1 => (e == 0, e != 0, true, true)
  | 2 => (true, true, false, true)
  | 3 => (e == 0, e != 0, true, false)
  | 4 => (true, false, false, false)
  | 7 => (true, false, false, false)
  | _ => (false, false, false, false)

/-- Whether a binary32 is no number: infinities and NaN. -/
def f32Special (x : Nat) : Bool := bitsOf x 23 8 == 255

def ratLe (a b : Int × Nat) : Bool := decide (a.1 * b.2 ≤ b.1 * a.2)
def ratLt (a b : Int × Nat) : Bool := decide (a.1 * b.2 < b.1 * a.2)

/-- Reserved bits of a Trigger Table entry, and of its conditions (R443). -/
def trgReserved (b : Bytes) : List (Bool × Nat) :=
  [(fld b 4 2 30 != 0, 4)] ++ ((List.range 6).map (fun i => (u32At b (8 + 4 * i) != 0, 8 + 4 * i))) ++
  ((List.range 16).map (fun i => (fld b (0x20 + 4 * i) 25 7 != 0, 0x20 + 4 * i))) ++
  ((List.range 16).flatMap (fun c =>
    [(fld (tcBytes b c) 0 11 5 != 0 || fld (tcBytes b c) 0 28 4 != 0, 0x60 + 24 * c), (u32At (tcBytes b c) 0x14 != 0, 0x74 + 24 * c)])) ++
  ((List.range 6).map (fun i => (u32At b (0x1E0 + 4 * i) != 0, 0x1E0 + 4 * i)))

/-- Range checks of an enabled condition at offset `o` of the entry (R443-R445). -/
def tcRange (o : Nat) (r : Bytes) : List (Bool × Nat) :=
  let k := tcKind r
  let e := tcSense r
  let (hi, lo, mn, mx) := tcUses r
  let vh := u32At r 4
  let vl := u32At r 8
  let tmin := u32At r 0xC
  let tmax := u32At r 0x10
  let valued := decide (k ≤ 4)
  let numOff (used : Bool) (x : Nat) : Bool := if used then k != 7 && f32Special x else x != 0
  [(decide (7 < k) || decide (4 < tcOut r) || e == 3 || (k == 0 && tcQty r == 0 && e != 0) ||
      ((k == 1 || k == 2 || k == 3) && e == 2) || ((k == 4 || k == 5 || k == 6) && e != 0) ||
      (if valued then decide (4 < tcQty r) || (tcQty r == 0 && (k == 2 || k == 3)) ||
        (tcQty r == 3 && tcK r % 4 == 3) || (tcQty r == 4 && tcK r != 0) else tcQty r != 0 || tcK r != 0) ||
      (if k == 5 || k == 6 then decide (35 < tcElem r) else tcElem r != 0), o),
   (numOff hi vh || (k == 7 && !fixedAddrOk vh), o + 4),
   (numOff lo vl || (hi && lo && ratLe (f32Rat vh) (f32Rat vl)), o + 8),
   ((if mn then (k == 3 && tmin == 0) || (mx && decide (tmax < tmin)) else tmin != 0), o + 0xC),
   ((if mx then k == 1 && tmax == 0 else tmax != 0), o + 0x10)]

/-- Range checks of a Trigger Table entry; EN of a condition governs its other fields (R595). -/
def trgRange (b : Bytes) : List (Bool × Nat) :=
  ((List.range 16).map (fun i => (!fixedAddrOk (digAddr b i), 0x20 + 4 * i))) ++
  ((List.range 16).flatMap (fun c => if tcEn (tcBytes b c) then tcRange (0x60 + 24 * c) (tcBytes b c) else []))

/-! ### Quantities (R444) -/

/-- A logic address as released (R352). -/
def releasedBit (s : State) (b a : Nat) : Bool :=
  let m : LM := { x := logicStartExec s b, d := { out := (logicBay s b).rel } }
  m.read { logicCtx s b with forces := [] } a

/-- True RMS of lane k: numerator over 1000 * 2^43, and its quality (R267). -/
def rmsNum (m : Meas) (k : Nat) : Nat × Nat :=
  let r := m.rms.getD k (0, Qb.inv)
  (isqrt (r.1 * 2 ^ 40 / 96) * m.fs.getD k 0, r.2)

/-- The sequence component that K names. -/
def tcSeq (s : State) (b k : Nat) (m : Meas) : Phasor :=
  if k < 4 then seqI (bayBytes s b) k m.rep else seqV (bayBytes s b) (k - 4) m.rep

/-- x at slot j with its quality; an instantaneous value is taken as a magnitude, but for its slew (R445). -/
def tcX (s : State) (b : Nat) (m : Meas) (r : Bytes) (j : Nat) : (Int × Nat) × Nat :=
  let k := tcK r
  match tcQty r with
  | 0 => let w := (m.taps.getD k []).getD j {}; ((if tcKind r == 4 then w.v else (w.v.natAbs : Int), 1000 * 2 ^ 23), w.q)
  | 1 => let p := m.rep.getD k {}; (((isqrt (magSq p) : Nat), 1000 * 2 ^ 31), p.q)
  | 2 => let x := rmsNum m k; (((x.1 : Nat), 1000 * 2 ^ 43), x.2)
  | 3 => let p := tcSeq s b k m; (((isqrt (magSq p) : Nat), 1000 * 2 ^ 31), p.q)
  | _ => (((m.f : Nat), 2 ^ 26), m.fQ)

/-! ### One evaluation (R445, R446) -/

/-- An evaluation of KIND 0 to 4 with x at time t: the state after it, and whether it fires. -/
def tcJudge (r : Bytes) (x : Int × Nat) (t : Nat) (y : TcSt) : TcSt × Bool :=
  let hi := f32Rat (u32At r 4)
  let lo := f32Rat (u32At r 8)
  let ge := ratLe hi x
  let le := ratLe x lo
  let e := tcSense r
  let tmin := usU (u32At r 0xC)
  let tmax := usU (u32At r 0x10)
  let now := some (x, t)
  match tcKind r with
  | 0 =>
    let level := if e == 0 then ge else if e == 1 then le else ratLt x lo || ratLt hi x
    ({ y with met := level, prev := now }, level && !y.met && y.prev.isSome)
  | 1 =>
    let out := if e == 0 then ge else le
    match y.since with
    | none => ({ y with since := if out then some t else none }, false)
    | some a => if out then (y, false) else ({ y with since := none }, decide (tmin ≤ t - a) && decide (t - a ≤ tmax))
  | 2 =>
    let base := if e == 0 then ge else le
    let far := if e == 0 then le else ge
    match y.since with
    | none => ({ y with met := base, since := if y.met && !base then some t else none, reached := far }, false)
    | some a =>
      if base then ({ y with met := true, since := none, reached := false }, !y.reached && (tmax == 0 || decide (t - a ≤ tmax)))
      else ({ y with reached := y.reached || far }, false)
  | 3 =>
    let level := if e == 0 then ge else le
    let a := y.since.getD t
    if !level then ({ y with since := none, fired := false }, false)
    else ({ y with since := some a, fired := y.fired || decide (tmin ≤ t - a) }, !y.fired && decide (tmin ≤ t - a))
  | _ =>
    let steep := match y.prev with
      | some (p, tp) => decide (hi.1 * (x.2 * p.2 * (t - tp) : Nat) ≤ ((x.1 * p.2 - p.1 * x.2).natAbs * hi.2 * secU 1 : Nat)) && decide (tp < t)
      | none => false
    ({ y with met := steep, prev := now }, steep && !y.met)

/-- An evaluation that is not made: KIND 1 to 3 end their episode. -/
def tcSkip (r : Bytes) (y : TcSt) : TcSt :=
  if tcKind r == 1 || tcKind r == 2 || tcKind r == 3 then { y with since := none, reached := false, met := false } else y

/-- KIND 5 to 7: the bit now. -/
def tcBit (s : State) (b : Nat) (r : Bytes) : Bool :=
  match tcKind r with
  | 5 => inMask (bayRun s b).el.pu (tcElem r)
  | 6 => inMask (bayRun s b).el.op (tcElem r)
  | _ => releasedBit s b (u32At r 4 % 2 ^ 24)

def tcEdge (r : Bytes) (v : Bool) (y : TcSt) : TcSt × Bool :=
  let rise := v && !y.met && !(y.prev.isNone && y.late)
  let fall := !v && y.met && y.prev.isSome
  let first := y.prev.isNone
  ({ y with met := v, prev := some ((0, 1), 0) },
   if tcKind r != 7 then rise else !first && (match tcSense r with | 0 => rise | 1 => fall | _ => rise || fall))

/-- Time of slot j of the Milestone in progress (R460). -/
def slotTime (t prev j : Nat) : Nat := prev + (j + 1) * (t - prev) / 4

/-- Opening time of the Milestone before the one in progress. -/
def prevOpen (s : State) : Nat := s.clk.openedAt - s.prot.lens.getD 1 s.clk.len

/-- Condition c of bay b in the cycle: its state and the slot at which it fires. -/
def tcEval (s : State) (b : Nat) (r : Bytes) (y : TcSt) : TcSt × Option Nat :=
  if !tcEn r then ({}, none)
  else
    let m := (bayRun s b).meas
    let step (j : Nat) (a : TcSt × Option Nat) : TcSt × Option Nat :=
      let (x, q) := tcX s b m r j
      if hasQ (asInput (effBeh s b) q) qStop then (tcSkip r a.1, a.2)
      else
        let (y, f) := tcJudge r x (slotTime s.clk.openedAt (prevOpen s) j) a.1
        (y, if f && a.2.isNone then some j else a.2)
    if tcKind r ≤ 4 then
      if tcQty r == 0 then (List.range 4).foldl (fun a j => step j a) (y, none) else step 3 (y, none)
    else if !evaluated (effBeh s b) then ({}, none)
    else let (y, f) := tcEdge r (tcBit s b r) y; (y, if f then some 3 else none)

/-! ### The trigger engines (R447-R450) -/

def tcCode (b c : Nat) : Nat := 0x100 + 16 * b + c

/-- A region accepts triggers: armed, protection running, not shed (R432, R469). -/
def recording (s : State) (r : Nat) : Bool :=
  decide (r < s.variant.regions) && (region s r).armed.isSome && s.mode.mode.runs && !s.rec_.shed

def addPend (r : Nat) (x : Nat × Nat × Nat) (s : State) : State :=
  if recording s r && !(region s r).pend.contains x then setRegion r (fun g => { g with pend := g.pend ++ [x] }) s else s

/-- A condition that has fired at slot j: its region, the others with FANOUT, and the line of CW_OUT. -/
def tcFire (b c : Nat) (r : Bytes) (j : Nat) (s : State) : State :=
  let own := regionOf (clusterOf b)
  let x := (s.clk.ms, tcCode b c, j)
  let s := addPend own x s
  let s := if tcFanout r then ((List.range s.variant.regions).filter (· != own)).foldl (fun s k => addPend k x s) s else s
  if tcOut r == 0 then s else setRec (fun z => { z with cwPend := if z.cwPend.contains (tcOut r - 1) then z.cwPend else z.cwPend ++ [tcOut r - 1] }) s

/-- Condition c of bay b evaluated in the Milestone in progress. -/
def tcRun (b c : Nat) (s : State) : State :=
  let e := trgBytes s b
  let r := tcBytes e c
  if !trgEn e then s
  else
    let (y, f) := tcEval s b r ((s.rec_.tc.getD b []).getD c {})
    let s := setRec (fun z => { z with tc := modAt z.tc b (fun l => modAt l c (fun _ => y)) }) s
    match f with | some j => tcFire b c r j s | none => s

/-- Every condition of the bays of armed regions. -/
def triggerEngines (s : State) : State :=
  ((runningBays s).filter (fun b => recording s (regionOf (clusterOf b)))).foldl
    (fun s b => (List.range 16).foldl (fun s c => tcRun b c s) s) s

/-- The lines of the conditions that fired, driven at the boundary (R449). -/
def drivePulses (s : State) : State :=
  setRec (fun z => { z with
    cwPulse := z.cwPend, cwPend := []
    cwIgnore := z.cwIgnore.mapIdx (fun j t => if z.cwPend.contains j then s.clk.mono + 2 * s.clk.len else t) }) s

/-- The delay compensation of a system trigger's line (R119). -/
def sysDelay (s : State) (j : Nat) : Nat := if j < 4 then 0 else (s.grid.cfg.cwDlyTrg.getD (j - 4) 0) * uPerNs

/-- SYS_EN and SYS_EDGE of an arming. -/
def sysTakes (a : ArmSt) (j : Nat) (rising : Bool) : Bool := bitAt a.block 0xC j && bitAt a.block 0xC (8 + j) == !rising

/-- A system trigger's Milestone and slot at a monotonic instant: the one in progress, or the one before it. -/
def sysPlace (s : State) (t : Nat) : Nat × Nat :=
  if s.clk.openedAt ≤ t then (s.clk.ms, min 3 (4 * (t - s.clk.openedAt) / s.clk.len))
  else
    let p := prevOpen s
    (s.clk.ms - 1, min 3 (4 * (t - p) / (max 1 (s.clk.openedAt - p))))

/-- SYSTEM_TRIGGER_EDGE (R448, R449): an edge of TRIGIN j, or of CW_TRG (j - 4), that has persisted, at monotonic time `t` ns. -/
def execSystemTriggerEdge (j : BitVec 3) (rising : Bool) (t : Nat) (s : State) : Out :=
  .next (
    let j := j.toNat
    let at_ := t * uPerNs
    let s := setClk (·.advance at_) s
    if 4 ≤ j && decide (at_ < s.rec_.cwIgnore.getD (j - 4) 0) then s
    else
      let (ms, slot) := sysPlace s (at_ - sysDelay s j)
      (List.range s.variant.regions).foldl (fun s r =>
        match (region s r).armed with
        | some a => if sysTakes a j rising then addPend r (ms, j, slot) s else s
        | none => s) s)

/-- TRIGGER_TIMEOUT (R445): a timeout condition is judged in the Milestone in progress. -/
def execTriggerTimeout (bay : BitVec 6) (c : BitVec 4) (s : State) : Out :=
  .next (
    let b := bay.toNat
    if tcKind (tcBytes (trgBytes s b) c.toNat) == 3 && (runningBays s).contains b && recording s (regionOf (clusterOf b)) && s.prot.inCycle then
      tcRun b c.toNat s
    else s)

end Sys2Proof.Machine
end

