-- ==== Sys2Proof/Machine/RecStore.lean ====
section
/-! DEFINITION. Disturbance records: history, rows, storage, opening, extending and ending (R452-R463, R469-R471). -/

namespace Sys2Proof.Machine

/-! ### The arm block (R451-R453) -/

def armRed (a : ArmSt) : Nat := fld a.block 0 0 4
def armQueue (a : ArmSt) : Bool := bitAt a.block 0 4
def armStop (a : ArmSt) : Bool := bitAt a.block 0 5
def armAuto (a : ArmSt) : Bool := bitAt a.block 0 6
def armPre (a : ArmSt) : Nat := u16At a.block 4
def armPost (a : ArmSt) : Nat := u16At a.block 6
def armExt (a : ArmSt) : Nat := byteAt a.block 8
def armAutoT (a : ArmSt) : Nat := u16At a.block 0xA

/-- Row width of reduction Tk in bytes, 0 when it is not enabled (R452). -/
def rowWidth (red : Nat) (bays quals : List Nat) (k : Nat) : Nat :=
  let w := match k with | 2 => 114 | 3 => 66 | _ => 34
  if red / 2 ^ k % 2 == 0 then 0 else bays.foldl (fun a b => a + w + (if quals.contains b then 8 else 0)) 8

def armWidth (a : ArmSt) (k : Nat) : Nat := rowWidth (armRed a) a.bays a.quals k

/-- Bytes the history must hold, and their KiB (R452). -/
def histNeed (a : ArmSt) : Nat :=
  ((armPre a + 50) * (26880 * armWidth a 0 + 6720 * armWidth a 1 + 70 * (armWidth a 2 + armWidth a 3)) + 999) / 1000
def histKibNeed (a : ArmSt) : Nat := (histNeed a + 1023) / 1024

/-- Share of Tk in the ratio of R453. -/
def ringShare (a : ArmSt) (k : Nat) : Nat := (match k with | 0 => 19200 | 1 => 4800 | _ => 50) * armWidth a k

/-- Length of the Tk ring. -/
def ringLen (a : ArmSt) (k : Nat) : Nat :=
  let total := (List.range 4).foldl (fun n i => n + ringShare a i) 0
  (a.storeKib * 1024 - 2 ^ 21) * ringShare a k / max 1 total / 65536 * 65536

def ringBase (a : ArmSt) (k : Nat) : Nat := (List.range k).foldl (fun n i => n + ringLen a i) (a.store + 2 ^ 21)

/-- Bytes of a record of PRE + POST in Tk at `f` Milestones per second (R453, R463). -/
def recordNeed (a : ArmSt) (f k : Nat) : Nat :=
  let rate := match k with | 0 => 4 * f | 1 => f | _ => f / 96
  ((armPre a + armPost a) * rate * armWidth a k + 999) / 1000

def ringsSmall (a : ArmSt) : Bool :=
  (List.range 4).any (fun k => armWidth a k != 0 && decide (ringLen a k < recordNeed a 4800 k))

/-! ### Capture of a Milestone -/

/-- Channels of T2 of one bay: reported phasor and true RMS of each lane, then f, df/dt, P, Q (R459). -/
def t2Values (s : State) (b : Nat) (m : Meas) (rms : List Nat) : List Nat :=
  let pw := (power3 (bayBytes s b) m.rep).1
  (List.range 8).flatMap (fun k =>
    let p := m.rep.getD k {}
    [f32 p.re (1000 * 2 ^ 31), f32 p.im (1000 * 2 ^ 31), rms.getD k 0]) ++
  [f32 (m.f : Nat) (2 ^ 26), f32 m.dfdt (2 ^ 26), f32 pw.1 (1000000 * 2 ^ 62), f32 pw.2 (1000000 * 2 ^ 62)]

/-- What the Milestone in progress gives bay b; `newFl` says that its locator has given a result in the cycle. -/
def captureBay (s : State) (newFl : Bool) (b : Nat) : RecBay :=
  let e := (bayRun s b).el
  let m := if (bayRun s b).ran then (bayRun s b).meas else measure s b {}
  let rms := (List.range 8).map (fun k => f32 ((rmsNum m k).1 : Nat) (1000 * 2 ^ 43))
  let d := trgBytes s b
  { bay := b, taps := m.taps
    words := (List.range 8).map (fun k => let w := m.words.getD k {}; { v := w.v * m.fs.getD k 0, q := w.q })
    dig := maskOf 16 (fun i => digUsed d i && releasedBit s b (digAddr d i))
    rms := rms, t2 := if s.clk.ms % 96 == 95 then t2Values s b m rms else []
    thr := currentLevel (grpBytes s b), trip := e.bayTrip, cb := logicOut s b 36, episode := e.flStart
    fl := if newFl then some (f32 e.flDist.1 e.flDist.2, e.flLoop, e.flLowq) else none, f := f32 (m.f : Nat) (2 ^ 26) }

/-- The locator of bay b has given a result in the cycle that ends (R307). -/
def newLocator (s : State) (b : Nat) : Bool :=
  let e := (bayRun s b).el
  let p := (bayProt s b).rel.el
  e.flValid && (p.flMs != e.flMs || (p.flTrip && !e.flTrip) || (e.bayTrip && !p.bayTrip && e.flStart.isSome && !e.flTrip))

/-- True RMS of the bays of the Milestone in progress kept for R465. -/
def keepRms (s : State) : State :=
  setRec (fun z => { z with rmsHist := z.rmsHist.mapIdx (fun b l =>
    if (bayRun s b).ran then
      ((s.clk.ms, (List.range 8).map (fun k => f32 ((rmsNum (bayRun s b).meas k).1 : Nat) (1000 * 2 ^ 43))) :: l).take 128
    else l) }) s

/-! ### Records of a region -/

def setRecord (r id : Nat) (f : Rec → Rec) (s : State) : State :=
  setRegion r (fun g => { g with recs := g.recs.map (fun x => if x.id == id then f x else x) }) s

def findRec (s : State) (r id : Nat) : Option Rec := (region s r).recs.find? (·.id == id)

/-- Open and still taking rows. -/
def Rec.live (x : Rec) : Bool := x.state == .open_ && !x.ended

def liveRecs (s : State) (r : Nat) : List Rec := (region s r).recs.filter (·.live)

/-- A record whose space is reclaimed when it is needed: freed, with every older record freed (R464). -/
def reclaimable (g : RegionRec) (x : Rec) : Bool := x.state == .freed && g.recs.all (fun y => decide (x.id < y.id) || y.state == .freed)

/-- Runs of bytes of DDR4 a file of `n` bytes from offset `o` of its ring takes. -/
def spans (ring len o n : Nat) : List (Nat × Nat) :=
  if o + n ≤ len then [(ring + o, ring + o + n)] else [(ring + o, ring + len), (ring, ring + (o + n - len))]

def RecFile.spans (f : RecFile) : List (Nat × Nat) :=
  let n := f.fixed.getD f.bytes
  if n == 0 then [] else Machine.spans f.ring f.ringLen (f.start - f.ring) n

def spansMeet (a b : List (Nat × Nat)) : Bool := a.any (fun x => b.any (fun y => decide (x.1 < y.2) && decide (y.1 < x.2)))

def Rec.meets (x : Rec) (sp : List (Nat × Nat)) : Bool := x.files.any (fun f => spansMeet f.spans sp)

/-- An open record ends with its last written row (R455, R463). -/
def endRecord (r id cause : Nat) (s : State) : State :=
  setRecord r id (fun x => { x with ended := true, trunc := cause }) s

def recEvent (code r : Nat) (data : Bytes) (s : State) : State := postEvent Src.rec code r data s

/-- The region enters FULL (R463, R471). -/
def enterFull (r : Nat) (s : State) : State :=
  if (region s r).full then s
  else raiseIrq Irq.rec (recEvent 4 r [] (setRegion r (fun g => { g with full := true }) s))

/-- The oldest closed record is deleted, freed or not (R463). -/
def deleteOldest (r : Nat) (s : State) : State :=
  match (region s r).recs.find? (fun x => x.state != .open_) with
  | some x =>
    raiseIrq Irq.rec (recEvent 3 r (dCount x.id)
      (setRegion r (fun g => { g with recs := g.recs.filter (·.id != x.id), overwritten := satN 32 (g.overwritten + 1) }) s))
  | none => s

/-- Space for record `id` at the bytes `sp` under the POLICY; false where the record must end (R463). -/
def makeRoom (r id : Nat) (stop : Bool) (sp : List (Nat × Nat)) : Nat → State → State × Bool
  | 0, s => (s, false)
  | n + 1, s =>
    let g := region s r
    match g.recs.find? (fun x => x.id != id && !reclaimable g x && x.meets sp) with
    | none => (setRegion r (fun g => { g with recs := g.recs.filter (fun x => x.id == id || !(reclaimable g x && x.meets sp)) }) s, true)
    | some x =>
      if stop then (enterFull r s, false)
      else if x.state == .open_ then (s, false)
      else makeRoom r id stop sp n (deleteOldest r s)

/-- Bytes written at offset `o` of a ring, over its end. -/
def ringWrite (ring len o : Nat) (b : Bytes) (s : State) : State :=
  if o + b.length ≤ len then memWrite .ddr (ring + o) b s
  else memWrite .ddr ring (b.drop (len - o)) (memWrite .ddr (ring + o) (b.take (len - o)) s)

/-! ### Rows (R459, R460) -/

/-- Status channels of a row packed in 16-bit words: DIG of every bay, then the quality bytes of its lanes. -/
def statusBytes (quals : List Nat) (l : List (Nat × Nat × List Nat)) : Bytes :=
  l.flatMap (fun x => leBytes 2 x.2.1 ++ (if quals.contains x.1 then (List.range 8).map (fun k => BitVec.ofNat 8 (x.2.2.getD k 0)) else []))

def bayOf (m : RecMs) (b : Nat) : RecBay := (m.bays.find? (·.bay == b)).getD { bay := b }

/-- Milestones of the cycle frame that ends with `m`, from the history. -/
def frameOf (hist : List RecMs) (m : RecMs) : List RecMs := hist.filter (fun x => decide (m.ms < x.ms + 96) && decide (x.ms ≤ m.ms))

/-- The value of a lane of T0 or T1 as binary32. -/
def tapWord (w : QW) : Nat := f32 w.v (1000 * 2 ^ 23)

def frameDig (fr : List RecMs) (b : Nat) : Nat := fr.foldl (fun a x => a ||| (bayOf x b).dig) 0
def frameQual (fr : List RecMs) (b : Nat) : List Nat :=
  (List.range 8).map (fun k => fr.foldl (fun a x => a ||| ((bayOf x b).words.getD k {}).q) 0)
/-- Words of the record tap of lane k over a frame. -/
def frameTaps (fr : List RecMs) (b k : Nat) : List Int := fr.flatMap (fun x => ((bayOf x b).taps.getD k []).map (·.v))

/-- The rows of Tk that Milestone `m` gives: time (monotonic and TAI) and the bytes after the timestamp. -/
def rowsOf (hist : List RecMs) (bays quals : List Nat) (k : Nat) (m : RecMs) : List (Nat × Nat × Bytes) :=
  match k with
  | 0 => (List.range 4).map (fun j =>
      let t := slotTime m.t m.prev j
      (t, m.tai - (m.t - t),
       bays.flatMap (fun b => (List.range 8).flatMap (fun l => leBytes 4 (tapWord (((bayOf m b).taps.getD l []).getD j {})))) ++
       statusBytes quals (bays.map (fun b => (b, (bayOf m b).dig, (List.range 8).map (fun l => (((bayOf m b).taps.getD l []).getD j {}).q))))))
  | 1 =>
    [(m.t, m.tai,
      bays.flatMap (fun b => (List.range 8).flatMap (fun l => leBytes 4 (tapWord ((bayOf m b).words.getD l {})))) ++
      statusBytes quals (bays.map (fun b => (b, (bayOf m b).dig, (List.range 8).map (fun l => ((bayOf m b).words.getD l {}).q)))))]
  | _ =>
    if m.ms % 96 != 95 then []
    else
      let fr := frameOf hist m
      let st := statusBytes quals (bays.map (fun b => (b, frameDig fr b, frameQual fr b)))
      let vals (b : Nat) : List Nat :=
        if k == 2 then (List.range 28).map (fun i => (bayOf m b).t2.getD i 0)
        else (List.range 8).flatMap (fun l =>
          let v := frameTaps fr b l
          [f32 (v.foldl min (v.headD 0)) (1000 * 2 ^ 23), f32 (v.foldl max (v.headD 0)) (1000 * 2 ^ 23)])
      [(m.t, m.tai, bays.flatMap (fun b => (vals b).flatMap (leBytes 4)) ++ st)]

/-- Timestamp of a row: 20 ns counts from the first row, to the nearest (R460). -/
def rowStamp (first t : Nat) : Nat := (t - first + 10 * uPerNs) / (20 * uPerNs)

/-- One row of Tk of record `id` written at the head of its ring; the record ends where it finds no space. -/
def putRow (r id k : Nat) (stop : Bool) (ms : Nat) (row : Nat × Nat × Bytes) (s : State) : State :=
  match findRec s r id with
  | none => s
  | some x =>
    if !x.live then s
    else
      let f := x.files.getD k {}
      let first := if f.rows == 0 then row.1 else f.firstT
      let b := leBytes 4 (f.rows + 1) ++ leBytes 4 (rowStamp first row.1) ++ row.2.2
      let o := (f.start - f.ring + f.bytes) % max 1 f.ringLen
      let own := match f.fixed with | some n => decide (f.bytes + b.length ≤ n) | none => true
      let (s, ok) :=
        if decide (f.ringLen < f.bytes + b.length) then (if stop then enterFull r s else s, false)
        else makeRoom r id stop (spans f.ring f.ringLen o b.length) (513 + (region s r).recs.length) s
      if !(ok && own) then endRecord r id 1 s
      else
        let s := ringWrite f.ring f.ringLen o b s
        let s := setRecord r id (fun x => { x with
          last := ms
          files := modAt x.files k (fun f => { f with
            bytes := f.bytes + b.length, rows := f.rows + 1, firstT := first, firstTai := if f.rows == 0 then row.2.1 else f.firstTai }) }) s
        if f.fixed.isSome then s else setRegion r (fun g => { g with heads := modAt g.heads k (fun _ => (o + b.length) % max 1 f.ringLen) }) s

/-- The rows of one Milestone written to an open record, in the order T0 to T3; a dropped Milestone is counted (R461). -/
def putMs (r id : Nat) (stop : Bool) (hist : List RecMs) (m : RecMs) (s : State) : State :=
  match findRec s r id with
  | none => s
  | some x =>
    if !x.live then s
    else if m.dropped then setRecord r id (fun x => { x with gaps := true, gapMs := x.gapMs + 1 }) s
    else
      let s := setRecord r id (fun x => { x with rows := m :: x.rows }) s
      (List.range 4).foldl (fun s k =>
        if x.red / 2 ^ k % 2 == 0 then s
        else (rowsOf hist x.bays x.quals k m).foldl (fun s row => putRow r id k stop m.ms row s) s) s

/-! ### Triggers that reach a region (R450, R455, R456) -/

/-- Monotonic time, TAI and the opening before it of a Milestone: from the history, or the one in progress. -/
def msTimes (s : State) (r ms : Nat) : Nat × Nat × Nat :=
  match (region s r).hist.find? (·.ms == ms) with
  | some m => (m.t, m.tai, m.prev)
  | none => (s.clk.openedAt, s.clk.msTai, prevOpen s)

/-- A trigger set in a record's mask; the lowest code is its primary cause and gives its trigger point. -/
def joinTrigger (t tai prev cause slot : Nat) (test : Bool) (x : Rec) : Rec :=
  let x := if cause < 10 then { x with sysMask := x.sysMask ||| 2 ^ cause }
    else { x with bayMask := modAt x.bayMask ((cause - 0x100) / 16) (fun m => m ||| 2 ^ (cause % 16)) }
  let x := { x with test := x.test || test }
  if x.trigs.isEmpty || cause < x.primary then
    { x with primary := cause, trigSlot := slot, trigRowT := slotTime t prev slot, trigTai := tai - (t - slotTime t prev slot)
             trigs := { ms := x.trigMs, cause := cause, slot := slot } :: x.trigs.drop 1, ntrig := max 1 x.ntrig }
  else x

/-- The condition of a cause lies in a bay in test or test/blocked (R446). -/
def causeTest (s : State) (cause : Nat) : Bool := decide (0x100 ≤ cause) && testValid (effBeh s ((cause - 0x100) / 16))

/-- IEEE C37.118 time quality code of the error bound (R467; log entry 27). -/
def tmqCode (t : TimeSt) : Nat :=
  match t.state, t.bound with
  | .free, _ => 15 | .hostset, _ => 15 | _, none => 15
  | _, some b => ((List.range 10).find? (fun i => decide (b ≤ 10 ^ i))).map (· + 1) |>.getD 11

/-- Path delays in ns of a bay's record taps and lane words, per lane (R239, R254). -/
def recDelays (s : State) (b : Nat) : RecDelay :=
  let ns (u : Nat) : Nat := u / 1024 / uPerNs
  let t12 := (chainSt s (clusterOf b)).t12
  let d (l : Nat) : Nat := 1024 * frontDelay s l * uPerNs + 16 * (l % 64) * s.clk.len
  if t12 then
    { bay := b, tap := (List.range 8).map (fun k => ns (d (8 * b + k))), word := (List.range 8).map (fun k => ns (d (8 * b + k) + 7936 * s.clk.len)) }
  else
    { bay := b, tap := List.replicate 8 (ns (1024 * dAlign s b * uPerNs + 1280 * s.clk.len)), word := List.replicate 8 (ns (wordDelay s b)) }

/-- The extents of an open record are fixed at their largest possible size, at the 70 Hz limit for the time left (R453). -/
def fixExtents (a : ArmSt) (now : Nat) (x : Rec) : Rec :=
  let endMax := x.trigT + (if armQueue a then msU (armPost a) else secU (armExt a))
  let left := ((endMax - now) * 6720 + secU 1 - 1) / secU 1 + 1
  let n (k : Nat) : Nat := (match k with | 0 => 4 * left | 1 => left | _ => left / 96 + 1) * rowWidth x.red x.bays x.quals k
  { x with files := x.files.mapIdx (fun k f => if f.fixed.isSome then f else { f with fixed := some (min f.ringLen (f.bytes + n k)) }) }

/-- f at a Milestone of the bays recorded, out of the history; 0 while it has not ended (R465). -/
def fAt (hist : List RecMs) (bays : List Nat) (ms : Nat) : List Nat :=
  bays.map (fun b => match hist.find? (·.ms == ms) with | some m => (bayOf m b).f | none => 0)

/-- A trigger of Milestone `ms` opens a record, or is lost (R455, R456, R463). -/
def openRecord (r : Nat) (a : ArmSt) (ms cause slot : Nat) (s : State) : State :=
  let lost := setRegion r (fun g => { g with trigLost := satN 32 (g.trigLost + 1) })
  let live := liveRecs s r
  if (region s r).full then lost s
  else if 4 ≤ live.length then
    match live.getLast? with
    | some x => setRecord r x.id (fun x => { x with lost := satN 16 (x.lost + 1) }) (lost s)
    | none => lost s
  else
    let (t, tai, prev) := msTimes s r ms
    let s := live.foldl (fun s x =>
      let y := fixExtents a s.clk.mono x
      setRegion r (fun g => { g with heads := g.heads.mapIdx (fun k h =>
        match (x.files.getD k {}).fixed with
        | some _ => h
        | none => let f := y.files.getD k {}; (f.start - f.ring + f.fixed.getD 0) % max 1 f.ringLen) })
        (setRecord r x.id (fun _ => y) s)) s
    let g := region s r
    let id := s.rec_.nextId
    let rows := (g.hist.filter (fun m => decide (t - msU (armPre a) ≤ m.t))).reverse
    let short := match rows.head? with
      | some m => decide (t - msU (armPre a) ≤ m.prev) && decide (msU (armPre a) ≤ t)
      | none => armPre a != 0
    let file (k : Nat) : RecFile :=
      { start := ringBase a k + g.heads.getD k 0, ring := ringBase a k, ringLen := ringLen a k }
    let pre (b : Nat) : List Nat := (((s.rec_.rmsHist.getD b []).find? (fun x => x.1 + 97 == ms)).map (·.2)).getD (List.replicate 8 0)
    let x : Rec :=
      { id := id, red := armRed a, trigMs := ms, trigT := t, endT := t + msU (armPost a), preShort := short, first := (rows.head?.map (·.ms)).getD ms
        last := (rows.head?.map (·.ms)).getD ms, bays := a.bays, quals := a.quals, ntrig := 1, tq := tqByte s.time, tmq := tmqCode s.time
        leap := if s.time.leap61 then 1 else if s.time.leap59 then 2 else 0, utcOfs := s.time.utcOfs, nominal := if s.grid.cfg.nominal == 0 then 50 else 60
        files := (List.range 4).map file, names := (a.block.drop 0x40).take 64, preRms := a.bays.map pre
        f := fAt g.hist a.bays ms, delays := a.bays.map (recDelays s)
        fsList := a.bays.map (fun b => (List.range 8).map (fun k => laneFs s (8 * b + k))) }
    let x := joinTrigger t tai prev cause slot (causeTest s cause) x
    let s := setRec (fun z => { z with nextId := z.nextId + 1 }) (setRegion r (fun g => { g with recs := g.recs ++ [x], autoAt := s.clk.mono }) s)
    let s := recEvent 1 r (dCount id ++ dMs ms ++ leBytes 2 cause) s
    let g := region s r
    -- the directory, as a ring of 512 slots
    let s := if 512 < (g.recs.filter (fun x => !reclaimable g x)).length then
        if armStop a then endRecord r id 1 (enterFull r s) else deleteOldest r s
      else if 512 < g.recs.length then setRegion r (fun g => { g with recs := g.recs.drop 1 }) s
      else s
    rows.foldl (fun s m => putMs r id (armStop a) g.hist m s) s

/-- One trigger of Milestone `ms` in a region (R456). -/
def reachTrigger (r : Nat) (a : ArmSt) (ms cause slot : Nat) (s : State) : State :=
  let (t, tai, prev) := msTimes s r ms
  match (liveRecs s r).find? (fun x => x.trigMs == ms) with
  | some x => setRecord r x.id (joinTrigger t tai prev cause slot (causeTest s cause)) s
  | none =>
    match (liveRecs s r).getLast? with
    | none => openRecord r a ms cause slot s
    | some x =>
      if armQueue a then openRecord r a ms cause slot s
      else if decide (t + msU (armPost a) < x.trigT + secU (armExt a)) then
        setRecord r x.id (fun x => { x with
          endT := t + msU (armPost a), ntrig := satN 16 (x.ntrig + 1)
          trigs := if x.trigs.length < 32 then x.trigs ++ [{ ms := ms, cause := cause, slot := slot, ext := true }] else x.trigs }) s
      else openRecord r a ms cause slot (setRecord r x.id (fun x => { x with endT := x.trigT + secU (armExt a), cap := true }) s)

/-- Triggers in rising order of Milestone and code. -/
def insertTrig (x : Nat × Nat × Nat) : List (Nat × Nat × Nat) → List (Nat × Nat × Nat)
  | [] => [x]
  | y :: l => if x.1 < y.1 || (x.1 == y.1 && x.2.1 ≤ y.2.1) then x :: y :: l else y :: insertTrig x l

/-! ### The end of a Milestone -/

/-- Bytes the history holds of a Milestone. -/
def histBytes (a : ArmSt) (m : RecMs) : Nat :=
  if m.dropped then 0
  else 4 * armWidth a 0 + armWidth a 1 + (if m.ms % 96 == 95 then armWidth a 2 + armWidth a 3 else 0)

/-- The newest Milestones that fit a number of bytes. -/
def fitHist (a : ArmSt) : Nat → List RecMs → List RecMs
  | _, [] => []
  | n, m :: l => if histBytes a m ≤ n then m :: fitHist a (n - histBytes a m) l else []

/-- The rows of a Milestone of a region dropped: an event of source 17 (R461, R541). -/
def dropRows (r : Nat) (s : State) : State :=
  countEvent 17 r (bumpClass 4 ClassCount.drop (setRegion r (fun g => { g with droppedMs := satN 32 (g.droppedMs + 1) }) s))

/-- The Milestone that ends in one armed region: history, rows of the open records, triggers, ends (R455, R461). -/
def regionEndMs (held : Nat → Bool) (dropped : Bool) (newFl : List Bool) (r : Nat) (s : State) : State :=
  match (region s r).armed with
  | none => s
  | some a =>
    if !recording s r then s
    else
      let m : RecMs :=
        { ms := s.clk.ms, t := s.clk.openedAt, prev := prevOpen s, tai := s.clk.msTai, dropped := dropped
          bays := a.bays.map (fun b => captureBay s (newFl.getD b false) b) }
      let s := setRegion r (fun g => { g with
        hist := fitHist a (1024 * a.histKib) (m :: g.hist) }) s
      let s := if dropped then dropRows r s else s
      let hist := (region s r).hist
      let s := (liveRecs s r).foldl (fun s x => if x.trigMs == m.ms then setRecord r x.id (fun x => { x with f := fAt hist x.bays m.ms }) s else s) s
      let s := (liveRecs s r).foldl (fun s x => putMs r x.id (armStop a) hist m s) s
      let (wait, now) := (region s r).pend.partition (fun x => decide (0x100 ≤ x.2.1) && x.1 == s.clk.ms && held (clusterOf ((x.2.1 - 0x100) / 16)))
      let s := setRegion r (fun g => { g with pend := wait }) s
      let s := (now.foldl (fun l x => insertTrig x l) []).foldl (fun s x => reachTrigger r a x.1 x.2.1 x.2.2 s) s
      (liveRecs s r).foldl (fun s x => if x.endT ≤ endOfMs s then setRecord r x.id (fun x => { x with ended := true }) s else s) s

/-- The Milestone that ends in every region, after its cycle has been released; `held` names clusters whose outputs are withheld,
`drops` the regions whose record buffer is full. -/
def recordEndMs (held : Nat → Bool) (drops : Nat) (newFl : List Bool) (s : State) : State :=
  let s := keepRms (triggerEngines s)
  (List.range s.variant.regions).foldl (fun s r => regionEndMs held (drops / 2 ^ r % 2 == 1) newFl r s) s

/-- Cause 8 or 9 at the boundary that has opened the Milestone in progress (R457, R458): the record it opened or joined. -/
def fireAt (r cause : Nat) (s : State) : State × Nat :=
  match (region s r).armed with
  | none => (s, 0)
  | some a =>
    if !recording s r then (s, 0)
    else
      let before := s.rec_.nextId
      let s := reachTrigger r a s.clk.ms cause 3 s
      (s, if s.rec_.nextId != before then before else ((liveRecs s r).getLast?.map (·.id)).getD 0)

/-- Causes 9 that are due at the boundary. -/
def autoRecords (s : State) : State :=
  (List.range s.variant.regions).foldl (fun s r =>
    let due := match (region s r).armed with
      | some a => armAuto a && decide ((region s r).autoAt + secU (60 * armAutoT a) ≤ s.clk.openedAt)
      | none => false
    if (region s r).autoPend || due then (fireAt r 9 (setRegion r (fun g => { g with autoPend := false }) s)).1 else s) s

/-- FULL ends where every ring and the directory have room (R463). -/
def leaveFull (r : Nat) (s : State) : State :=
  let g := setRegion r (fun g => { g with freed := false }) s
  match (region s r).armed with
  | none => g
  | some a =>
    let x := region s r
    let f := s.grid.fGrid * 96 / 2 ^ 26 + 1
    let room (k : Nat) : Bool :=
      armWidth a k == 0 ||
      let n := recordNeed a f k
      decide (n ≤ ringLen a k) && !x.recs.any (fun y => !reclaimable x y && y.meets (spans (ringBase a k) (ringLen a k) (x.heads.getD k 0) n))
    if x.full && x.freed && (List.range 4).all room && decide ((x.recs.filter (fun y => !reclaimable x y)).length < 512) then
      recEvent 5 r [] (setRegion r (fun g => { g with full := false }) g)
    else g

/-- Open records of a region end with a cause, and its history is abandoned (R432, R454, R469). -/
def stopRegion (cause r : Nat) (s : State) : State :=
  let s := (liveRecs s r).foldl (fun s x => endRecord r x.id cause s) s
  setRegion r (fun g => { g with hist := [], pend := [], autoPend := false }) s

def stopRegions (cause : Nat) (s : State) : State := (List.range 4).foldl (fun s r => stopRegion cause r s) s

/-- The start of protection: histories start empty (R469). -/
def startRecording (s : State) : State :=
  setRec (fun z => { z with
    tc := List.replicate 64 (List.replicate 16 {}), rmsHist := List.replicate 64 []
    regions := z.regions.map (fun g => { g with hist := [], pend := [], autoAt := s.clk.mono }) }) s

/-- Shedding of disturbance recording and its restoration (R432, R434). -/
def shedRecording (s : State) : State := setRec (fun z => { z with shed := true }) (stopRegions 3 s)
def restoreRecording (s : State) : State :=
  setRec (fun z => { z with shed := false, regions := z.regions.map (fun g => { g with hist := [], autoAt := s.clk.mono }) }) s

/-- A time step while records are open (R470). -/
def recordStep (ns : Int) (s : State) : State :=
  setRec (fun z => { z with regions := z.regions.map (fun g => { g with recs := g.recs.map (fun x =>
    if x.live then { x with step := true, stepNs := x.stepNs + ns, stepMs := if x.step then x.stepMs else s.clk.ms } else x) }) }) s

/-- A cold restart: every region disarmed, records lost, REC_ID from 1, counters cleared (R469, R466). -/
def clearRecording (s : State) : State := setRec (fun z => { cwIgnore := z.cwIgnore }) s

/-! ### Closing (R455, R465) -/

/-- Rows of a record from n_t on, oldest first. -/
def afterTrig (x : Rec) : List RecMs := (x.rows.filter (fun m => decide (x.trigMs ≤ m.ms))).reverse

/-- The words of lanes k < n of a bay in a Milestone with their row times: (time, values). -/
def tapRows (m : RecMs) (b n : Nat) : List (Nat × List Int) :=
  (List.range 4).map (fun j => (slotTime m.t m.prev j, (List.range n).map (fun l => (((bayOf m b).taps.getD l []).getD j {}).v)))

/-- √2 times the current threshold, squared, in the units of the words. -/
def thrSq (thr : Nat) : Nat := 2 * (thr * 100 * 2 ^ 23) ^ 2

/-- Analogue time of the first word in the 192 Milestones before the episode with a change over one cycle at or above the
threshold (R465). -/
def inception (x : Rec) (b e : Nat) (delay : List Nat) : Option Nat :=
  let rows := x.rows.reverse
  let near := rows.filter (fun m => decide (e ≤ m.ms + 192) && decide (m.ms < e))
  near.findSome? (fun m =>
    match rows.find? (fun p => p.ms + 96 == m.ms) with
    | none => none
    | some p =>
      (List.range 4).findSome? (fun j =>
        (List.range 3).findSome? (fun l =>
          let d := (((bayOf m b).taps.getD l []).getD j {}).v - (((bayOf p b).taps.getD l []).getD j {}).v
          if decide (thrSq (bayOf m b).thr ≤ d.natAbs ^ 2) then some (slotTime m.t m.prev j - delay.getD l 0 * uPerNs) else none)))

/-- Analogue time of the last word with current from a Milestone on (R465). -/
def interruption (x : Rec) (b from_ : Nat) (delay : List Nat) : Option Nat :=
  ((x.rows.filter (fun m => decide (from_ ≤ m.ms))).findSome? (fun m =>
    (List.range 4).reverse.findSome? (fun j =>
      (List.range 3).findSome? (fun l =>
        if decide (thrSq (bayOf m b).thr ≤ ((((bayOf m b).taps.getD l []).getD j {}).v).natAbs ^ 2) then
          some (slotTime m.t m.prev j - delay.getD l 0 * uPerNs) else none))))

/-- The boundary that opens the Milestone after `m`. -/
def nextOpenOf (x : Rec) (m : RecMs) : Nat := ((x.rows.find? (fun p => p.ms == m.ms + 1)).map (·.t)).getD (m.t + (m.t - m.prev))

/-- The Milestone of an episode in which BAY_TRIP rose. -/
def tripRow (rows : List RecMs) (b e : Nat) : Option RecMs :=
  rows.find? (fun m => decide (e ≤ m.ms) && (bayOf m b).trip && (bayOf m b).episode == some e &&
    !(rows.any (fun p => p.ms + 1 == m.ms && (bayOf p b).trip)))

/-- Table: Record measurements for the j-th recorded bay. -/
def measBlockOf (x : Rec) (j : Nat) : Bytes :=
  let b := x.bays.getD j 0
  let after := afterTrig x
  let rows := x.rows.reverse
  let delay := ((x.delays.find? (·.bay == b)).map (·.tap)).getD []
  let ep := after.findSome? (fun m => (bayOf m b).episode)
  let trip := ep.bind (fun e => tripRow rows b e)
  let inc := ep.bind (fun e => inception x b e delay)
  let est := ep.bind (fun e => (rows.find? (fun m => m.ms == e)).map (fun m => m.t - delay.getD 0 0 * uPerNs))
  let start := if inc.isSome then inc else est
  let stop := trip.bind (fun m => interruption x b m.ms delay)
  let rel := trip.map (nextOpenOf x)
  let aux := rel.bind (fun t => (rows.find? (fun m => decide (t ≤ m.t) && !(bayOf m b).cb)).map (·.t))
  let fl := rows.reverse.findSome? (fun m => (bayOf m b).fl)
  let peak (l : Nat) : Nat := rows.foldl (fun a m => ((bayOf m b).taps.getD l []).foldl (fun a w => max a w.v.natAbs) a) 0
  let frms (l : Nat) : Nat := after.foldl (fun a m => max a ((bayOf m b).rms.getD l 0)) 0
  let i2t (l : Nat) : Nat := match start, stop with
    | some a, some z =>
      rows.foldl (fun n m => (List.range 4).foldl (fun n j =>
        let t := slotTime m.t m.prev j - delay.getD l 0 * uPerNs
        if decide (a ≤ t) && decide (t ≤ z) then n + (((bayOf m b).taps.getD l []).getD j {}).v.natAbs ^ 2 * (m.t - m.prev) / 4 else n) n) 0
    | _, _ => 0
  let us (a z : Option Nat) : Nat := match a, z with | some a, some z => (z - a) / usU 1 | _, _ => 0
  let q := fl.getD (0, 0, false)
  leBytes 4 (b + place (boolBits [ep.isSome, trip.isSome, stop.isSome, aux.isSome, fl.isSome, ep.isSome && inc.isNone]) 6 6) ++
  leBytes 4 (x.f.getD j 0) ++ (List.range 8).flatMap (fun l => leBytes 4 (f32 (peak l : Nat) (1000 * 2 ^ 23))) ++
  (List.range 8).flatMap (fun l => leBytes 4 ((x.preRms.getD j []).getD l 0)) ++ (List.range 8).flatMap (fun l => leBytes 4 (frms l)) ++
  (List.range 3).flatMap (fun l => leBytes 4 (f32 (i2t l : Nat) (1000000 * 2 ^ 46 * secU 1))) ++
  leBytes 4 (us start stop) ++ leBytes 4 (us rel stop) ++ leBytes 4 (us rel aux) ++ leBytes 4 q.1 ++
  leBytes 4 (place q.2.1 0 3 + place (flag q.2.2) 3 1) ++ zeros 24

/-- RECORD_CLOSE (R455, R465, R471): the oldest record of the region whose last row has been written is measured and closed. -/
def execRecordClose (r : BitVec 2) (s : State) : Out :=
  .next (
    let r := r.toNat
    match (region s r).recs.find? (fun x => x.state == .open_ && x.ended) with
    | none => s
    | some x =>
      raiseIrq Irq.rec (recEvent 2 r (dCount x.id ++ dCode x.trunc)
        (setRecord r x.id (fun x => { x with state := .closed, meas := (List.range x.bays.length).flatMap (measBlockOf x), rows := [] }) s)))

/-- AUTO_RECORD (R457): AUTO_T minutes have passed without a record of the region. -/
def execAutoRecord (r : BitVec 2) (s : State) : Out :=
  .next (
    let r := r.toNat
    match (region s r).armed with
    | some a =>
      if armAuto a && recording s r then setRegion r (fun g => { g with autoPend := true }) (setClk (·.advance ((region s r).autoAt + secU (60 * armAutoT a))) s)
      else s
    | none => s)

end Sys2Proof.Machine
end

