-- ==== Sys2Proof/Machine/RecCmd.lean ====
section
/-! DEFINITION. The REC commands: arming, listing, COMTRADE configuration, freeing (R451-R454, R458, R464, R466, R467). -/

namespace Sys2Proof.Machine

/-- Regions a UNIT addresses. -/
def recUnits (s : State) (unit : Nat) : List Nat := if unit == 0x00FF then List.range s.variant.regions else [unit]

def recAbsent (s : State) (unit : Nat) : Bool := unit != 0x00FF && decide (s.variant.regions ≤ unit)

/-- A REC.ARM of the region waits for the boundary. -/
def armPending (s : State) (r : Nat) : Bool := s.acts.any (fun a => match a.act with | .recArm l => l.any (·.1 == r) | _ => false)

/-- The recording unit of a region runs (R443). -/
def recUnitRuns (s : State) (r : Nat) : Bool := (region s r).armed.isSome || armPending s r

/-! ### REC.ARM (R451-R453) -/

/-- Printable ASCII without comma, padded with 0. -/
def nameBad (b : Bytes) : Bool :=
  let text := b.takeWhile (· != 0#8)
  !(b.drop text.length).all (· == 0#8) || text.any (fun c => decide (c.toNat < 0x20) || decide (0x7E < c.toNat) || c.toNat == 0x2C)

/-- Areas of the armed regions, and of those whose arming waits. -/
def armedAreas (s : State) (except : List Nat) : List (Nat × Nat) :=
  let of_ (a : ArmSt) : List (Nat × Nat) := [(a.hist, a.hist + 1024 * a.histKib), (a.store, a.store + 1024 * a.storeKib)]
  ((List.range 4).filter (fun r => !except.contains r)).flatMap (fun r => match (region s r).armed with | some a => of_ a | none => []) ++
  s.acts.flatMap (fun p => match p.act with | .recArm l => (l.filter (fun x => !except.contains x.1)).flatMap (fun x => of_ x.2) | _ => [])

def areaBad (s : State) (others : List (Nat × Nat)) (a kib : Nat) : Bool :=
  a % 4096 != 0 || !reachable s .ddr a (1024 * kib) || spansMeet others [(a, a + 1024 * kib)]

/-- First offending offset of an arm block. -/
def armRange (s : State) (units : List Nat) (b : Bytes) : Option Nat :=
  let hist := u64At b 0x10
  let hk := u32At b 0x18
  let store := u64At b 0x20
  let sk := u32At b 0x28
  let others := armedAreas s units
  blockRange
    ([(fld b 0 0 4 == 0 || fld b 0 7 25 != 0, 0),
      (decide (2000 < u16At b 4) || decide (u16At b 6 < 100) || decide (10000 < u16At b 6), 4),
      (byteAt b 8 == 0 || decide (60 < byteAt b 8) || decide (1000 * byteAt b 8 < u16At b 6) || byteAt b 9 != 0 || u16At b 0xA == 0 || decide (1440 < u16At b 0xA), 8),
      (u16At b 0xE != 0, 0xC), (areaBad s others hist hk, 0x10), (u32At b 0x1C != 0, 0x1C),
      (areaBad s (others ++ [(hist, hist + 1024 * hk)]) store sk, 0x20)] ++
     ((List.range 5).map (fun i => (u32At b (0x2C + 4 * i) != 0, 0x2C + 4 * i))) ++
     [(nameBad ((b.drop 0x40).take 32), 0x40), (nameBad ((b.drop 0x60).take 32), 0x60)])

/-- The armings of a block: with 0x00FF the areas are divided into equal parts (R451). -/
def armsOf (s : State) (units : List Nat) (b : Bytes) : List (Nat × ArmSt) :=
  let n := max 1 units.length
  let part (k : Nat) : Nat := if units.length ≤ 1 then k else k / n / 64 * 64
  let hk := part (u32At b 0x18)
  let sk := part (u32At b 0x28)
  units.mapIdx (fun i r =>
    let bays := ((List.range 16).map (16 * r + ·)).filter (fun b => decide (b < s.variant.bays) && trgRec (trgBytes s b))
    (r, { block := b, hist := u64At b 0x10 + 1024 * hk * i, histKib := hk, store := u64At b 0x20 + 1024 * sk * i, storeKib := sk
          bays := bays, quals := bays.filter (fun b => trgQual (trgBytes s b)) }))

def armJudge (c : Cmd) (s : State) : Judge := { absent := recAbsent s c.unit }

/-- REC_ARM (R451). -/
def execRecArm (c : Cmd) (s : State) : Out :=
  .next (command c (armJudge c) (fun s =>
    let units := recUnits s c.unit
    match readBlock c 128 s with
    | .error r => .done r s
    | .ok b =>
      match armRange s units b with
      | some o => .done (Reply.range o) s
      | none =>
        if units.any (recUnitRuns s) then .done (Reply.fail St.locked 0) s
        else
          let arms := armsOf s units b
          match arms.find? (fun x => decide (x.2.histKib < histKibNeed x.2)) with
          | some _ =>
            let need := arms.foldl (fun m x => max m (histKibNeed x.2)) 0 * (if units.length ≤ 1 then 1 else units.length)
            .done { Reply.refuse Rsn.capacity with result := need } s
          | none => if arms.any (fun x => ringsSmall x.2) then .done (Reply.refuse Rsn.capacity) s else .atBoundary 0 0 (.recArm arms) s) s)

/-- The arming takes effect: the history starts empty (R451). -/
def applyArm (x : Nat × ArmSt) (s : State) : State :=
  let (r, a) := x
  let area := [a.store, a.storeKib] ++ (List.range 4).map (ringLen a)
  recEvent 6 r [] (setRegion r (fun g => { g with
    armed := some a, hist := [], pend := [], autoAt := s.clk.mono, autoPend := false, area := area
    heads := if g.area == area then g.heads else [0, 0, 0, 0] }) s)

/-! ### REC.DISARM, REC.FORCE, REC.FREE -/

/-- REC_DISARM (R454). -/
def execRecDisarm (c : Cmd) (s : State) : Out :=
  .next (command c (fun s => { absent := recAbsent s c.unit }) (fun s =>
    let l := (recUnits s c.unit).filter (recUnitRuns s)
    if l.isEmpty then .done {} s else .atBoundary 0 0 (.recDisarm l) s) s)

def applyDisarm (r : Nat) (s : State) : State :=
  recEvent 7 r [] (setRegion r (fun g => { g with armed := none, full := false }) (stopRegion 2 r s))

/-- REC_FORCE (R458). -/
def execRecForce (c : Cmd) (s : State) : Out :=
  .next (command c (fun s => { absent := recAbsent s c.unit }) (fun s =>
    let l := (recUnits s c.unit).filter (fun r => (region s r).armed.isSome)
    if l.isEmpty then .done (Reply.refuse Rsn.state) s
    else if l.all (fun r => (region s r).full) then .done (Reply.refuse Rsn.capacity) s
    else .atBoundary 0 0 (.recForce l) s) s)

/-- Cause 8 in the addressed armed regions; the REC_ID of the lowest (R458). -/
def applyForce (l : List Nat) (s : State) : State × Nat :=
  l.foldl (fun (a : State × Nat) r => let (t, id) := fireAt r 8 a.1; (t, if a.2 == 0 then id else a.2)) (s, 0)

/-- Records a REC.FREE frees: every closed record up to `id`, or that record. -/
def freeable (g : RegionRec) (id : Nat) (upto : Bool) : List Nat :=
  (g.recs.filter (fun x => x.state == .closed && (if upto then decide (x.id ≤ id) else x.id == id))).map (·.id)

/-- REC_FREE (R464). -/
def execRecFree (c : Cmd) (s : State) : Out :=
  .next (command c (fun s => { absent := decide (s.variant.regions ≤ c.unit), used := [(0x14, 0, 32), (0x18, 0, 1)] }) (fun s =>
    let id := c.at_ 0x14 0 32
    match findRec s c.unit id with
    | none => .done (Reply.refuse Rsn.state) s
    | some x =>
      if x.state == .open_ then .done (Reply.refuse Rsn.state) s
      else
        let l := freeable (region s c.unit) id (c.at_ 0x18 0 1 == 1)
        .done { result := l.length } (setRegion c.unit (fun g => { g with
          freed := true, recs := g.recs.map (fun x => if l.contains x.id then { x with state := .freed } else x) }) s)) s)

/-! ### REC.LIST (R466) -/

def RecFile.encode (f : RecFile) : Bytes :=
  let first := min f.bytes (f.ring + f.ringLen - f.start)
  leBytes 8 f.start ++ leBytes 4 f.bytes ++ leBytes 4 f.rows ++ leBytes 4 first ++ zeros 4 ++ leBytes 8 f.ring

def RecState.code : RecState → Nat
  | .open_ => 0 | .closed => 1 | .freed => 2

/-- TAI of the first row: of the lowest reduction that has one. -/
def Rec.firstRow (x : Rec) : Nat := ((x.files.find? (fun f => f.rows != 0)).map (·.firstTai)).getD 0

def taiBytes (u : Nat) : Bytes := leBytes 8 (u / uPerNs / 1000000000 % 2 ^ 48) ++ leBytes 4 (u / uPerNs % 1000000000)

/-- Table: Record descriptor. -/
def Rec.descriptor (x : Rec) (r : Nat) : Bytes :=
  let present (k : Nat) : Bool := x.red / 2 ^ k % 2 == 1
  padTo 256
    (leBytes 4 x.id ++
     leBytes 4 (r + place x.state.code 2 2 + place (flag (x.trunc != 0)) 4 1 + place x.trunc 5 3 +
       place (boolBits [x.preShort, x.gaps, x.step, x.test, x.cap]) 8 5 + place x.red 16 4) ++
     leBytes 8 x.trigMs ++ leBytes 8 (x.trigTai / uPerNs / 1000000000 % 2 ^ 48 + place x.trigSlot 48 2) ++ leBytes 4 (x.trigTai / uPerNs % 1000000000) ++
     leBytes 4 (x.primary + place x.tq 16 8) ++ leBytes 8 x.first ++ leBytes 8 x.last ++ leBytes 8 (maskOf 64 (fun b => x.bays.contains b)) ++
     leBytes 4 (satN 16 x.ntrig + place (satN 16 x.lost) 16 16) ++ leBytes 4 x.gapMs ++
     (List.range 4).flatMap (fun k => if present k then (x.files.getD k {}).encode else zeros 32) ++ taiBytes x.firstRow)

def RecTrig.encode (t : RecTrig) : Bytes := leBytes 8 t.ms ++ leBytes 2 t.cause ++ leBytes 6 (t.slot + place (flag t.ext) 2 1)

/-- Table: Record information block. -/
def Rec.info (x : Rec) (r : Nat) : Bytes :=
  padTo 4096
    (padTo 0x110 (x.descriptor r ++ leBytes 4 (x.sysMask % 2 ^ 16)) ++ (List.range 64).flatMap (fun b => leBytes 2 (x.bayMask.getD b 0)) ++
     padTo 0x70 (leBytes 8 (codeOf x.stepNs 64) ++ leBytes 8 x.stepMs) ++ padTo 0x200 ((x.trigs.take 32).flatMap (·.encode)) ++ padTo 0xA00 x.meas)

/-- Table: Region recording status. -/
def regionStatus (s : State) (r : Nat) : Bytes :=
  let g := region s r
  let used (k : Nat) : Nat := (g.recs.filter (fun x => !reclaimable g x)).foldl (fun n x => let f := x.files.getD k {}; n + f.fixed.getD f.bytes) 0
  let free (k : Nat) : Nat := match g.armed with | some a => (ringLen a k - used k) / 1024 | none => (g.area.getD (2 + k) 0 - used k) / 1024
  padTo 64
    (leBytes 4 (flag g.armed.isSome + place (flag g.full) 1 1 + place ((g.recs.filter (fun x => x.state == .open_)).length) 2 3) ++
     leBytes 4 (g.hist.filter (fun m => !m.dropped)).length ++ (List.range 4).flatMap (fun k => leBytes 4 (free k)) ++
     leBytes 4 (512 - (g.recs.filter (fun x => !reclaimable g x)).length) ++ leBytes 4 g.trigLost ++ leBytes 4 g.overwritten ++ leBytes 4 g.droppedMs ++
     leBytes 4 (match g.armed with | some a => histKibNeed a | none => 0))

/-- Records of the addressed regions in REC_ID order. -/
def insertRec (x : Nat × Rec) : List (Nat × Rec) → List (Nat × Rec)
  | [] => [x]
  | y :: l => if x.2.id ≤ y.2.id then x :: y :: l else y :: insertRec x l

def recsOf (s : State) (units : List Nat) : List (Nat × Rec) :=
  (units.flatMap (fun r => (region s r).recs.map (fun x => (r, x)))).foldl (fun l x => insertRec x l) []

/-- REC_LIST (R466). -/
def execRecList (c : Cmd) (s : State) : Out :=
  .next (command c (fun s =>
      { absent := recAbsent s c.unit, used := (0x14, 0, 2) :: (if c.at_ 0x14 0 2 ≤ 1 then [(0x18, 0, 32)] else [])
        range := [(c.at_ 0x14 0 2 == 2 && c.unit == 0x00FF, 0x04), (c.at_ 0x14 0 2 == 3, 0x14)] }) (fun s =>
    let id := c.at_ 0x18 0 32
    let l := recsOf s (recUnits s c.unit)
    match c.at_ 0x14 0 2 with
    | 0 =>
      let l := l.filter (fun x => decide (id ≤ x.2.id))
      let n := min l.length (min (c.room / 256) 65535)
      .done { result := n + place ((l[n]?.map (fun x => x.2.id)).getD 0) 32 32, out := some ((l.take n).flatMap (fun x => x.2.descriptor x.1)) } s
    | 1 =>
      match l.find? (fun x => x.2.id == id) with
      | some x => .done { out := some (x.2.info x.1) } s
      | none => .done (Reply.refuse Rsn.state) s
    | _ => .done { out := some (regionStatus s c.unit) } s) s)

/-! ### REC.CFG (R467) -/

def dec2 (n : Nat) : String := (if n < 10 then "0" else "") ++ toString n
/-- A number of thousandths as a decimal. -/
def dec3 (n : Nat) : String :=
  toString (n / 1000) ++ "." ++ (if n % 1000 < 10 then "00" else if n % 1000 < 100 then "0" else "") ++ toString (n % 1000)
def decZ (x : Int) : String := (if x < 0 then "-" else "") ++ dec3 x.natAbs

/-- Day, month and year of a day count from 1970-01-01, in the Gregorian calendar. -/
def civil (days : Nat) : Nat × Nat × Nat :=
  let z := days + 719468
  let era := z / 146097
  let doe := z % 146097
  let yoe := (doe - doe / 1460 + doe / 36524 - doe / 146096) / 365
  let doy := doe - (365 * yoe + yoe / 4 - yoe / 100)
  let mp := (5 * doy + 2) / 153
  let m := if mp < 10 then mp + 3 else mp - 9
  (doy - (153 * mp + 2) / 5 + 1, m, yoe + era * 400 + (if m ≤ 2 then 1 else 0))

/-- dd/mm/yyyy,hh:mm:ss.ssssss in UTC of a TAI instant. -/
def utcText (u : Nat) (ofs : Int) : String :=
  let us := u / usU 1
  let sec := (((us / 1000000 : Nat) : Int) - ofs).toNat
  let (d, m, y) := civil (sec / 86400)
  let frac := toString (1000000 + us % 1000000)
  dec2 d ++ "/" ++ dec2 m ++ "/" ++ toString y ++ "," ++ dec2 (sec / 3600 % 24) ++ ":" ++ dec2 (sec / 60 % 60) ++ ":" ++ dec2 (sec % 60) ++ "." ++
    (frac.drop 1).toString

def laneNames : List String := ["IA", "IB", "IC", "IN", "VA", "VB", "VC", "VX"]
def lanePhase : List String := ["A", "B", "C", "N", "A", "B", "C", "N"]
def qualNames : List String := ["OVR", "STL", "SUB", "HLD", "RSM", "TST", "QST", "INV"]

/-- Skew of a lane in ns (R467). -/
def cfgSkew (x : Rec) (red : Nat) (ref : Bool) (j k : Nat) : Int × Int :=
  let of_ (d : RecDelay) : List Nat := if red == 0 || red == 3 then d.tap else d.word
  let dref := x.delays.foldl (fun m d => (of_ d).foldl max m) 0
  if ref then (dref, (dref : Int) - (((x.delays.getD j { bay := 0, tap := [], word := [] } |> of_).getD k 0 : Nat) : Int)) else (0, 0)

/-- An analog channel of a bay: id suffix, phase, unit, lane, and whether min and max are the full scale. -/
def cfgChannels (red : Nat) : List (String × String × String × Nat × Bool) :=
  let lane (sfx : String) (fs : Bool) (k : Nat) : String × String × String × Nat × Bool :=
    (laneNames.getD k "" ++ sfx, lanePhase.getD k "", if k < 4 then "A" else "V", k, fs)
  match red with
  | 2 => (List.range 8).flatMap (fun k => ["_RE", "_IM", "_RMS"].map (fun x => lane x false k)) ++
      [("F", "", "Hz", 0, false), ("DFDT", "", "Hz/s", 0, false), ("P", "", "W", 0, false), ("Q", "", "var", 0, false)]
  | 3 => (List.range 8).flatMap (fun k => ["_MIN", "_MAX"].map (fun x => lane x true k))
  | _ => (List.range 8).map (lane "" true)

/-- Lines of the .cfg of one reduction. -/
def cfgLines (x : Rec) (red : Nat) (ref : Bool) : List String :=
  let f := x.files.getD red {}
  let name (b : Nat) : String := "B" ++ dec2 b
  let text (o : Nat) : String := String.ofList ((((x.names.drop o).take 32).takeWhile (· != 0#8)).map (fun c => Char.ofNat c.toNat))
  let analog : List (Nat × Nat × (String × String × String × Nat × Bool)) :=
    x.bays.mapIdx (fun j b => (cfgChannels red).map (fun c => (j, b, c))) |>.flatten
  let status : List (Nat × String) := x.bays.flatMap (fun b =>
    (List.range 16).map (fun i => (b, "D" ++ dec2 i)) ++
    (if x.quals.contains b then laneNames.flatMap (fun l => qualNames.map (fun q => (b, l ++ "_" ++ q))) else []))
  let range (j : Nat) (c : String × String × String × Nat × Bool) : String :=
    if c.2.2.2.2 then let fs := (x.fsList.getD j []).getD c.2.2.2.1 0; "-" ++ dec3 fs ++ "," ++ dec3 fs else "-3.4E38,3.4E38"
  let back := if ref then (cfgSkew x red true 0 0).1.toNat * uPerNs else 0
  let trigRow := f.firstTai + (if red == 0 then x.trigRowT else x.trigT) - f.firstT
  [text 0 ++ "," ++ text 32 ++ ",2013",
   toString (analog.length + status.length) ++ "," ++ toString analog.length ++ "A," ++ toString status.length ++ "D"] ++
  analog.mapIdx (fun i a =>
    let (j, b, c) := a
    toString (i + 1) ++ "," ++ name b ++ "_" ++ c.1 ++ "," ++ c.2.1 ++ "," ++ name b ++ "," ++ c.2.2.1 ++ ",1,0," ++
      decZ (cfgSkew x red ref j c.2.2.2.1).2 ++ "," ++ range j c ++ ",1,1,P") ++
  status.mapIdx (fun i a => toString (i + 1) ++ "," ++ name a.1 ++ "_" ++ a.2 ++ ",," ++ name a.1 ++ ",0") ++
  [toString x.nominal, "0", "0," ++ toString f.rows, utcText (f.firstTai - back) x.utcOfs, utcText (trigRow - back) x.utcOfs, "BINARY32", "0.02", "0,0",
   (["0", "1", "2", "3", "4", "5", "6", "7", "8", "9", "A", "B", "C", "D", "E", "F"].getD x.tmq "F") ++ "," ++ toString x.leap]

/-- ASCII with CR LF after every line. -/
def cfgBytes (l : List String) : Bytes := l.flatMap (fun t => t.toList.map (fun c => BitVec.ofNat 8 c.toNat) ++ [0x0D#8, 0x0A#8])

/-- REC_CFG (R467). -/
def execRecCfg (c : Cmd) (s : State) : Out :=
  .next (command c (fun _ => { used := [(0x14, 0, 32), (0x18, 0, 3)] }) (fun s =>
    let red := c.at_ 0x18 0 2
    match ((recsOf s (List.range 4)).map (·.2)).find? (fun x => x.id == c.at_ 0x14 0 32) with
    | none => .done (Reply.refuse Rsn.state) s
    | some x =>
      if x.state == .open_ then .done (Reply.refuse Rsn.state) s
      else if x.red / 2 ^ red % 2 == 0 then .done (Reply.range 0x18) s
      else
        let b := cfgBytes (cfgLines x red (c.at_ 0x18 2 1 == 1))
        .done { result := b.length, out := some b } s) s)

end Sys2Proof.Machine
end

