-- ==== Sys2Proof/Machine/BayRead.lean ====
section
/-! DEFINITION. BAY.READ of a bay, a section, the trip block and a loop; BAY.GROUP, BAY.BEH and BAY.RESET (R81, R257, R282, R286, R314,
R317, R318, R386, R422). -/

namespace Sys2Proof.Machine

/-! ### Parts of the result -/

/-- binary32 in A or V of a value in 2^-31 mA or mV. -/
def f32Unit (x : Int) : Bytes := leBytes 4 (f32 x (1000 * 2 ^ 31))
def f32Phasor (x : Phasor) : Bytes := f32Unit x.re ++ f32Unit x.im
/-- binary32 in W, var or VA of a value in 2^-62 µW. -/
def f32Power (x : Int) : Bytes := leBytes 4 (f32 x (1000000 * 2 ^ 62))
/-- binary32 in rad of an angle in 2^-48 turn; 2 pi is 7244019458077122842 x 2^-60. -/
def f32Rad (x : Nat) : Bytes := leBytes 4 (f32 (x * 7244019458077122842 : Nat) (2 ^ 108))

/-- LANEk: phasor, true RMS and qualities. -/
def laneFields (path : Nat) (m : Meas) (k : Nat) : Bytes :=
  let x : Phasor := if path == 0 then m.rep.getD k {} else (m.fast.getD 3 []).getD k {}
  let r := m.rms.getD k (0, Qb.inv)
  f32Phasor x ++ leBytes 4 (f32 ((isqrt (r.1 * 2 ^ 40 / 96) * m.fs.getD k 0 : Nat)) (1000 * 2 ^ 43)) ++
  leBytes 4 (x.q + place r.2 8 8 + place (m.words.getD k {}).q 16 8)

/-- |X_1| of a lane is below 1 % of full scale. -/
def weakLane (m : Meas) (k : Nat) : Bool := belowFs (magSq (m.rep.getD k {})) (m.fs.getD k 0) 1 100

/-- A ratio of magnitudes, given squared, in 0.01 %; 0xFFFF where the fundamental is weak (R263). -/
def percent (weak : Bool) (n d : Nat) : Nat :=
  if weak || d == 0 then 0xFFFF else satN 16 (roundOpen 46 (isqrt (n * 100000000 * 2 ^ 40 / d) : Nat) (2 ^ 20)).toNat

def sqOf (x : Int × Int) : Nat := (x.1 * x.1 + x.2 * x.2).toNat

/-- HMAG and HANG of harmonic h; the angle of a zero phasor is left open (log entry 4). -/
def harmFields (m : Meas) (k i : Nat) : Bytes :=
  let x := (m.harm.getD k []).getD i (0, 0)
  let f := m.rep.getD k {}
  let a : Int :=
    if x == (0, 0) || magSq f == 0 then Config.freeInt 46 [k, i + 2]
    else roundOpen 46 (wrapTurn (angleOf x.2 x.1 - ((i + 2 : Nat) : Int) * angleOf f.im f.re) * 36000) (2 ^ 48)
  leBytes 2 (percent (weakLane m k) (sqOf x) (magSq f)) ++ leBytes 2 (codeOf a 16)

def thdField (m : Meas) (k : Nat) : Bytes :=
  leBytes 2 (percent (weakLane m k) ((m.harm.getD k []).foldl (fun a x => a + sqOf x) 0) (magSq (m.rep.getD k {})))

/-- PLB_STATE. -/
def plbState (r : BayRun) : Nat := boolBits [r.inChk.exc, r.inChk.last, r.vxChk.exc, r.vxChk.last, r.inChk.susp || r.vxChk.susp]

/-- Measurand part, offsets 0x000 to 0x39F. -/
def measBlock (s : State) (b path : Nat) : Bytes :=
  let x := bayProt s b
  let r := x.rel
  let m := r.meas
  let bb := bayBytes s b
  let sq : List Phasor := [seqI bb 0 m.rep, seqI bb 1 m.rep, seqI bb 2 m.rep, seqV bb 0 m.rep, seqV bb 1 m.rep, seqV bb 2 m.rep]
  let pw := power3 bb m.rep
  let pf := measurand bb r 7
  let ph (k : Nat) : Bytes :=
    if vconn bb then zeros 8 else let v := vi (m.rep.getD (4 + k) {}) (m.rep.getD k {}); f32Power v.1 ++ f32Power v.2
  let ns := m.anaTai / uPerNs
  padTo 0x3A0
    (padTo 0x20 (leBytes 8 m.ms ++ leBytes 8 (ns / 1000000000 % 2 ^ 48) ++ leBytes 4 (ns % 1000000000) ++ leBytes 4 m.tq ++ f32Rad m.theta) ++
     (List.range 8).flatMap (laneFields path m) ++ sq.flatMap f32Phasor ++ padTo 8 (sq.map (fun p => BitVec.ofNat 8 p.q)) ++
     leBytes 4 (f32 (m.f : Nat) (2 ^ 26)) ++ leBytes 4 (f32 m.dfdt (2 ^ 26)) ++ leBytes 4 (m.fQ + place m.dfQ 8 8) ++
     f32Power pw.1.1 ++ f32Power pw.1.2 ++ f32Power (isqrt (pw.1.1 * pw.1.1 + pw.1.2 * pw.1.2).toNat : Nat) ++ leBytes 4 (f32 pf.1.1 pf.1.2) ++
     leBytes 4 (pw.2 + place (flag (decide (pw.1.2 < 0))) 8 1 + place pf.2 16 8) ++ (List.range 3).flatMap ph ++
     x.energyRel.flatMap (fun e => leBytes 8 (e / (1000 * secU 3600) % 2 ^ 64)) ++
     leBytes 4 (f32 (r.hist.th : Nat) (2 ^ 64)) ++ leBytes 4 r.hist.thQ ++
     leBytes 4 (plbState r + place m.qst 8 8) ++ leBytes 4 (r.inChk.win.length + place r.vxChk.win.length 16 16) ++
     (List.range 8).flatMap (fun k => (List.range 14).flatMap (harmFields m k)) ++ (List.range 8).flatMap (thdField m) ++
     (List.range 4).flatMap (fun j => (List.range 8).flatMap (fun i => f32Unit (isqrt ((r.hist.bands.getD j []).getD i 0) : Nat))) ++ leBytes 4 r.hist.bandQ)

/-- PROG of an element. -/
def progOf (r : BayRun) (i : Nat) : Nat := if i < 25 then (r.stages.getD i {}).prog else if i == 27 then r.el.bc.prog else if i == 34 then r.el.hif.prog else 0

/-- Table: Element status, offsets 0x420 to 0x5FF. -/
def elementBlock (g : Bytes) (opcnt : List Nat) (r : BayRun) : Bytes :=
  let e := r.el
  let abc (i : Nat) : Bytes := let (pu, op) := elemAbc g r i; leBytes 4 (pu + place op 3 3 + place (progOf r i) 16 16)
  let q (x : Int × Nat) : Bytes := leBytes 4 (f32 x.1 x.2)
  padTo 0x1E0
    (leBytes 8 e.pu ++ leBytes 8 e.op ++ leBytes 8 e.blk ++ leBytes 8 e.qblk ++ (List.range 36).flatMap abc ++
     (List.range 25).flatMap (fun i => leBytes 4 (f32 ((r.stages.getD i {}).eff : Nat) (1000 * 2 ^ 32))) ++
     leBytes 4 ((List.range 5).foldl (fun a k => a + e.dirs.getD k 0 * 4 ^ k) 0 + place (flag e.memUse) 10 1) ++
     leBytes 4 (e.ar.st + place e.ar.c 3 3 + place (flag e.ar.final) 6 1 + place (flag e.ar.close) 7 1) ++
     leBytes 4 (boolBits ([e.bfAt.isSome, e.bfRe, e.bfBk] ++ e.bfCur)) ++
     leBytes 4 (boolBits ([e.inrush.any id] ++ e.inrush ++ [e.win, e.clp, e.armed, e.sotfWin, e.hifLatch]) + place r.group 9 3 + place (flag e.bayTrip) 12 1) ++
     leBytes 4 (e.btSect % 2 ^ 16) ++ leBytes 8 r.groupMs ++ leBytes 8 e.flMs ++
     q e.flDist ++ q (e.flR.1, e.flR.2) ++ q (e.flX.1, e.flX.2) ++ leBytes 4 (f32 (e.flI : Nat) (1000 * 2 ^ 31)) ++
     leBytes 4 (e.flLoop + place (flag e.flLowq) 3 1 + place (flag e.flValid) 4 1) ++ zeros 4 ++ opcnt.flatMap (leBytes 2))

/-- The 2048 bytes of a running bay. -/
def bayBlock (s : State) (b path : Nat) : Bytes :=
  let x := bayProt s b
  let g := (s.tbl.group.getD (6 * b + x.rel.group) {}).bytes
  measBlock s b path ++ (List.range 8).flatMap (fun k => laneStatus s (8 * b + k)) ++ elementBlock g x.opcntRel x.rel ++
  padTo 0x100 ((List.range 5).flatMap (fun i =>
    let r := recBytes g (8 + i)
    curveStatus (curveSlot s b (recCurve r)) r (x.rel.stages.getD (8 + i) {}))) ++
  padTo 0x100 (adaptStatus (bayBytes s b) s.clk.openedAt x.rel)

/-- Offsets of the quality bytes of the block. -/
def qualityOffsets : List Nat :=
  (List.range 8).flatMap (fun k => [0x2C + 16 * k, 0x2D + 16 * k, 0x2E + 16 * k]) ++ (List.range 6).map (0xD0 + ·) ++
  [0xE0, 0xE1, 0xF4, 0xF6, 0x134, 0x390, 0x704]

/-- A bay that is not running: values 0, qualities INV, the Milestone of the read. -/
def idleBlock (n : Nat) : Bytes := qualityOffsets.foldl (fun b o => patch b o [0x80#8]) (patch (zeros 2048) 0 (leBytes 8 n))

/-! ### The command -/

/-- Section, trip block, loop or bay a UNIT of BAY.READ names. -/
inductive ReadUnit where
  | bay (b : Nat) | section_ (k : Nat) | trip | loop (i : Nat) | absent
  deriving DecidableEq, Repr

def readUnit (s : State) (u : Nat) : ReadUnit :=
  if u < s.variant.bays then .bay u
  else if u < 0x0100 then .absent
  else if u < 0x0200 then (if u - 0x0100 < s.variant.sections then .section_ (u - 0x0100) else .absent)
  else if u == 0x0200 then .trip
  else if u < 0x0300 then .absent
  else if loopAbsent s.variant (u - 0x0300) then .absent
  else .loop (u - 0x0300)

def readJudge (c : Cmd) (s : State) : Judge :=
  let x := readUnit s c.unit
  { absent := x == .absent, used := match x with | .bay _ => [(0x14, 0, 1)] | _ => []
    range := match x with | .loop i => [(decide (31 < i), 0x04)] | _ => [] }

def readAct (c : Cmd) (s : State) : Action :=
  match readUnit s c.unit with
  | .bay b =>
    if (runningBays s).contains b && (bayProt s b).rel.ran then
      let s' := if !returns c 2048 s then s else setFilt (fun f => { f with lanes := f.lanes.mapIdx (fun l x => if l / 8 == b then { x with sat := List.replicate 5 false, touched := true } else x) }) s
      .done { out := some (bayBlock s b (c.at_ 0x14 0 1)) } s'
    else .done { out := some (idleBlock s.clk.ms) } s
  | .section_ k => .done { out := some (sectStatus s.clk.mono (s.prot.sectRel.getD k {})) } s
  | .trip => .done { out := some (tripStatusBlock s) } s
  | .loop i => .done { out := some (loopStatus s i) } (if !returns c 128 s then s else setLoop i (fun x => { x with swb := false, limConf := false }) s)
  | .absent => .done (Reply.fail St.absent 0) s

def readRun (c : Cmd) (s : State) : State := command c (readJudge c) (readAct c) s

/-- BAY_READ (R282). -/
def execBayRead (c : Cmd) (s : State) : Out := .next (readRun c s)

/-- BAY_READ_SECTION (R314). -/
def execBayReadSection (c : Cmd) (s : State) : Out := .next (readRun c s)

/-- BAY_READ_TRIP_STATUS (R386). -/
def execBayReadTripStatus (c : Cmd) (s : State) : Out := .next (readRun c s)

/-- BAY_READ_LOOP (R422). -/
def execBayReadLoop (c : Cmd) (s : State) : Out := .next (readRun c s)

/-- A command to one bay. -/
def bayJudge (c : Cmd) (used : List (Nat × Nat × Nat)) (range : List (Bool × Nat)) (s : State) : Judge :=
  { absent := decide (s.variant.bays ≤ c.unit), used := used, range := range }

/-- A group switch of the bay waits for the boundary. -/
def groupPending (s : State) (b : Nat) : Bool := s.acts.any (fun a => match a.act with | .bayGroup x _ => x == b | _ => false)

/-- BAY_GROUP (R286). -/
def execBayGroup (c : Cmd) (s : State) : Out :=
  let g := c.at_ 0x14 0 3
  .next (command c (bayJudge c [(0x14, 0, 3)] [(decide (5 < g), 0x14)]) (fun s =>
    if !groupPresent s c.unit g then .done (Reply.refuse Rsn.state) s
    else if g == (bayProt s c.unit).group && !groupPending s c.unit then .done {} s
    else .atBoundary 0 0 (.bayGroup c.unit g) s) s)

/-- BAY_BEH (R81). -/
def execBayBeh (c : Cmd) (s : State) : Out :=
  let v := c.at_ 0x14 0 3
  .next (command c (bayJudge c [(0x14, 0, 3)] [(decide (5 < v), 0x14)]) (fun s => .atBoundary 0 0 (.bayBeh c.unit v) s) s)

/-- BAY_RESET (R317). -/
def execBayReset (c : Cmd) (s : State) : Out :=
  let v := c.at_ 0x14 0 6
  .next (command c (bayJudge c [(0x14, 0, 6)] []) (fun s => if v == 0 then .done {} s else .atBoundary 0 0 (.bayReset c.unit v) s) s)

/-- The selected actions of BAY.RESET at their boundary. -/
def applyBayReset (b bits : Nat) (s : State) : State :=
  let has (i : Nat) : Bool := bitsOf bits i 1 == 1
  let clr (r : BayRun) : BayRun :=
    let e := r.el
    let e := if has 0 then { e with ar := { e.ar with lockReset := e.ar.st == 6 } } else e
    let e := if has 3 then { e with flMs := 0, flDist := (0, 1), flR := (0, 1), flX := (0, 1), flI := 0, flLoop := 0, flLowq := false, flValid := false } else e
    let e := if has 4 then { e with hifLatch := false } else e
    { r with el := e, hist := if has 1 then { r.hist with th := 0 } else r.hist }
  setBay b (fun x =>
    { x with
      cur := clr x.cur
      energy := if has 2 then [0, 0, 0, 0] else x.energy, energyRel := if has 2 then [0, 0, 0, 0] else x.energyRel
      opcnt := if has 5 then List.replicate 36 0 else x.opcnt, opcntRel := if has 5 then List.replicate 36 0 else x.opcntRel }) s

end Sys2Proof.Machine
end

