-- ==== Sys2Proof/Machine/Trace.lean ====
section
/-! DEFINITION. The trace buffers of the K64 (R419-R421). -/

namespace Sys2Proof.Machine

def setTrace (f : TraceSt → TraceSt) (s : State) : State := setLoops (fun l => { l with trace := l.trace.map f }) s

/-! ### Fields -/

def trRate (b : Bytes) : Nat := fld b 8 0 4
def trTrig (b : Bytes) : Nat := fld b 8 4 2
def trPre (b : Bytes) : Nat := u16At b 0xC
def probe (b : Bytes) (p : Nat) : Nat := u64At b (0x40 + 8 * p)

/-- A probe's KIND, UNIT and SEL lie outside their ranges. -/
def probeBad (x : Nat) : Bool :=
  let unit := bitsOf x 3 9
  let sel := bitsOf x 12 8
  decide (2 ^ 20 ≤ x) ||
  match bitsOf x 0 3 with
  | 0 => sel != 0
  | 1 => decide (4 < sel)
  | 2 => decide (3 < sel)
  | 3 => decide (63 < unit) || decide (24 < sel % 32) || decide (2 < sel / 32)
  | 4 => decide (63 < unit) || decide (sel < 8) || decide (12 < sel)
  | 5 => decide (63 < unit) || decide (18 < sel)
  | 6 => decide (31 < unit) || decide (9 < sel)
  | _ => decide (63 < unit) || decide (12 < sel)

/-- A TRIG_ARG that names an ELM, BI, GIN, FLG or OUT address. -/
def trigArgOk (a : Nat) : Bool := decide (a < 2 ^ 24) && decide (opSpace a ≤ 4) && mayRead 0 a

/-- First offending offset of a trace block. -/
def traceBad (b : Bytes) : Option Nat :=
  blockRange
    ([(bitsOf (u64At b 0) 0 12 != 0, 0), (decide (12 < trRate b) || fld b 8 6 26 != 0, 8), (fld b 0xC 22 10 != 0, 0xC),
      (trTrig b == 2 && !trigArgOk (u64At b 0x10), 0x10)] ++
     ((List.range 5).map (fun i => (u64At b (0x18 + 8 * i) != 0, 0x18 + 8 * i))) ++ (List.range 16).map (fun p => (probeBad (probe b p), 0x40 + 8 * p)))

/-! ### Points (R420) -/

def laneWordBits (x : Int) (q : Nat) : Nat := codeOf x 24 * 256 + q

/-- Output of a chain stage of a lane at record slot k of the Milestone, 0 the oldest. -/
def stageWord (x : LaneSt) (sel k : Nat) : Nat :=
  let w (l : List QW) (i : Nat) : Nat := let y := l.getD i {}; laneWordBits y.v y.q
  let t (l : List TW) (i : Nat) : Nat := let y := l.getD i {}; laneWordBits y.v y.q
  match sel with
  | 0 => w x.s0 (2 * (3 - k))
  | 1 => w x.s1 (3 - k)
  | 2 => w x.s2 (3 - k)
  | 3 => t x.words 0
  | _ => t x.tap (3 - k)

/-- An operate quantity as binary32. -/
def qtyBits : Qty → Nat
  | .sq m _ _ => f32 (isqrt m : Nat) (1000 * 2 ^ 31)
  | .lin v _ => f32 v (1000 * 2 ^ 32)

/-- The operate quantity a probe of KIND 3 names, at slot k. -/
def probeQty (s : State) (unit sel k : Nat) : Qty :=
  let c := timerCtx s unit
  let i := sel % 32
  let r := recBytes c.g i
  let qs := match recPath r with
    | 0 => quantities c i r (c.x c.m.fine)
    | 1 => quantities c i r (c.x (c.m.fast.getD k []))
    | _ => sampleQtys c i k
  qs.getD (sel / 32) (qs.headD (.lin 0 0))

/-- The value a probe takes at slot k. -/
def probeValue (s : State) (x k : Nat) : Nat :=
  let unit := bitsOf x 3 9
  let sel := bitsOf x 12 8
  match bitsOf x 0 3 with
  | 1 => stageWord (laneSt s unit) sel k
  | 2 =>
    let l := laneSt s unit
    let p : Phasor := if sel < 2 then laneFine s unit else l.fast.getD k {}
    codeOf (if sel % 2 == 0 then p.re else p.im) 32
  | 3 => qtyBits (probeQty s unit sel k)
  | 4 => ((bayRun s unit).stages.getD sel {}).h
  | 5 => let m := (relMeasurand s unit sel).1; f32 m.1 m.2
  | 6 =>
    let l := loopView s unit
    if sel == 9 then l.lam else codeOf ([l.r, l.y, l.e, l.p, l.i, l.dd, l.ff, l.u, l.yhat].getD sel 0) 32
  | 7 => f32 ((bayRun s unit).stages.getD sel {}).eff (1000 * 2 ^ 32)
  | _ => 0

/-- The trigger's condition as released with the Milestone that ends. -/
def trigBit (s : State) (b : Bytes) : Bool :=
  match trTrig b with
  | 2 =>
    let bay := fld b 0xC 16 6
    let m : LM := { x := logicStartExec s bay, d := { out := (logicBay s bay).rel } }
    m.read { logicCtx s bay with forces := [] } (u64At b 0x10 % 2 ^ 24)
  | 3 => match s.loops.inj with | some x => decide (injPre x.block < x.k) | none => false
  | _ => false

/-- The trigger comes at a point of Milestone n. -/
def trigComes (s : State) (x : TraceSt) : Bool :=
  match trTrig x.block with
  | 0 => true
  | 1 => decide (u64At x.block 0x10 ≤ s.clk.ms)
  | _ => trigBit s x.block && !x.prev

/-- One point: every probe written to its ring. -/
def tracePoint (k : Nat) (s : State) : State :=
  match s.loops.trace with
  | none => s
  | some x =>
    if x.ended then s
    else
      let a := u64At x.block 0
      let i := x.count % 65536
      let s := (List.range 16).foldl (fun s p =>
        if bitsOf (probe x.block p) 0 3 == 0 then memWrite .ddr (a + 0x100 + 0x40000 * p + 4 * i) (zeros 4) s
        else memWrite .ddr (a + 0x100 + 0x40000 * p + 4 * i) (leBytes 4 (probeValue s (probe x.block p) k)) s) s
      let trig := match x.trig with | some t => some t | none => if trigComes s x then some (x.count, s.clk.ms) else none
      let n := x.count + 1
      let isOver := match trig with | some (t, _) => decide (65536 - trPre x.block ≤ n - t) | none => false
      setTrace (fun x => { x with count := n, trig := trig, prev := trigBit s x.block, ended := isOver }) s

/-- The points of the Milestone that ends. -/
def tracePoints (s : State) : State :=
  match s.loops.trace with
  | none => s
  | some x =>
    let m := trRate x.block
    if m == 0 then (List.range 4).foldl (fun s k => tracePoint k s) s
    else if s.clk.ms % 2 ^ (m - 1) == 0 then tracePoint 3 s
    else s

/-- A running trace ends for a cause (1 STOP, 2 P6 overrun, 3 RIDE-THROUGH). -/
def endTrace (cause : Nat) (s : State) : State := setTrace (fun x => if x.ended then x else { x with ended := true, cause := cause }) s

/-! ### Commands -/

def traceJudge (c : Cmd) (s : State) : Judge :=
  { absent := s.variant != .k64, used := [(0x14, 0, 1)], range := [(c.unit != 0, 0x04)] }

def traceAct (c : Cmd) (s : State) : Action :=
  if c.at_ 0x14 0 1 == 1 then .done {} (endTrace 1 s)
  else
    match readBlock c 192 s with
    | .error r => .done r s
    | .ok b =>
      match traceBad b with
      | some o => .done (Reply.range o) s
      | none =>
        if !reachable s .ddr (u64At b 0) 0x400100 then .done (Reply.fail St.fault 3) s
        else if s.loops.trace.isSome then .done (Reply.refuse Rsn.state) s
        else .goesOn (setLoops (fun l => { l with trace := some { cmd := refOf c, block := b } }) (queuedEntry c s))

def traceRun (c : Cmd) (s : State) : State := command c (traceJudge c) (traceAct c) s

/-- LOOP_TRACE (R419). -/
def execLoopTrace (c : Cmd) (s : State) : Out := .next (traceRun c s)

/-- LOOP_TRACE_STOP (R419). -/
def execLoopTraceStop (c : Cmd) (s : State) : Out := .next (traceRun c s)

/-- TRACE_TRIGGER (R420): the trigger arrives; the next point taken is its point. -/
def execTraceTrigger (s : State) : Out :=
  .next (
    match s.loops.trace with
    | some x => if x.ended || x.trig.isSome || !trigComes s x then s else setTrace (fun x => { x with trig := some (x.count, s.clk.ms) }) s
    | none => s)

/-- Words 0x08 and 0x0C of the header: TRUNC where P6 or the shedding on loss of VIN cut the trace short (R421, R432). -/
def traceHead (x : TraceSt) : Nat × Nat :=
  let t := match x.trig with | some (t, _) => t | none => x.count
  let pre := min t (if x.trig.isSome then trPre x.block else 65536)
  ((t - pre) % 65536 + place t 16 16, min 65536 (pre + (x.count - t)) + place (flag (x.cause == 2 || x.cause == 3)) 17 1 + place x.cause 18 2)

/-- TRACE_DONE (R420, R421): the header is written and the command completes; `overrun` says that P6 could not write a point. -/
def execTraceDone (overrun : Bool) (s : State) : Out :=
  .next (
    let s := if overrun && (match s.loops.trace with | some x => !x.ended | none => false) then bumpClass 6 ClassCount.drop (endTrace 2 s) else s
    match s.loops.trace with
    | some x =>
      if !x.ended then s
      else
        let (a, b) := traceHead x
        let ms := match x.trig with | some (_, m) => m | none => 0
        let s := memWrite .ddr (u64At x.block 0) (leBytes 8 ms ++ leBytes 4 a ++ leBytes 4 b) (setLoops (fun l => { l with trace := none }) s)
        finishOpen x.cmd { result := a + place b 32 32 } s
    | none => s)

end Sys2Proof.Machine
end

