-- ==== Sys2Proof/Machine/SelfTest.lean ====
section
/-! DEFINITION. Waymark outputs and self-tests (R558-R566). -/

namespace Sys2Proof.Machine

def setSvc (f : SvcSt → SvcSt) (s : State) : State := { s with svc := f s.svc }
def svcRecord (code unit : Nat) (data : Bytes) (s : State) : State := postEvent Src.service code unit data s

/-! ### Waymark (R558-R560) -/

def wmkBad (kind unit sel e level : Nat) : List (Bool × Nat) :=
  let ez := signedOf e 8
  [((if kind == 0 then false
     else if kind ≤ 7 then probeBad (kind + place unit 3 9 + place sel 12 8)
     else if kind == 8 then decide (50 < unit) || sel != 0
     else if kind == 9 then decide (19 < unit) || sel != 0
     else if kind == 10 then sel != 0
     else true), 0x14),
   (kind != 0 && kind != 10 && (ez < -9 || 9 < ez), 0x18), (kind == 10 && decide (2500 < level), 0x1C)]

def wmkOf (c : Cmd) : WmkSel :=
  { kind := c.at_ 0x14 0 4, unit := c.at_ 0x14 4 9, sel := c.at_ 0x14 13 8, diff := c.at_ 0x14 21 1 == 1, e := signedOf (c.at_ 0x18 0 8) 8, level := c.at_ 0x1C 0 12 }

/-- The selection of WMK0 as the boundary will leave it. -/
def wmk0Latest (s : State) : WmkSel :=
  s.acts.foldl (fun w a => match a.act with | .wmkSel 0 x => x | _ => w) (s.svc.wmk.getD 0 {})

def wmkJudge (c : Cmd) (_ : State) : Judge :=
  { used := [(0x14, 0, 22), (0x18, 0, 8), (0x1C, 0, 12)]
    range := (decide (1 < c.unit), 0x04) :: (c.unit == 1 && c.at_ 0x14 21 1 == 1, 0x14) ::
      wmkBad (c.at_ 0x14 0 4) (c.at_ 0x14 4 9) (c.at_ 0x14 13 8) (c.at_ 0x18 0 8) (c.at_ 0x1C 0 12) }

def wmkAct (c : Cmd) (s : State) : Action :=
  if c.unit == 1 && (wmk0Latest s).diff then .done (Reply.refuse Rsn.state) s else .atBoundary 0 0 (.wmkSel c.unit (wmkOf c)) s

/-- WMK_SEL (R558). -/
def execWmkSel (c : Cmd) (s : State) : Out := .next (command c (wmkJudge c) (wmkAct c) s)

/-- A selection takes effect. -/
def applyWmk (ch : Nat) (w : WmkSel) (s : State) : State :=
  svcRecord 3 ch (dCode w.kind ++ dUnit w.unit) (setSvc (fun x => { x with wmk := modAt x.wmk ch (fun _ => w) }) s)

/-- MEAN of an auxiliary input, in 1/16 code, in its unit at the ball (Table: Auxiliary inputs). -/
def auxValue (input m : Nat) : Int × Nat :=
  match input with
  | 16 => ((20 * m : Nat), 65536)
  | 17 => ((50 * m : Nat), 65536)
  | 18 => ((1221 * m : Nat) - 27315 * 1600, 160000)
  | 19 => ((4 * m : Nat), 65536)
  | _ => ((5 * m : Nat), 131072)

/-- Full-scale input of a GAIN code in V over 131072 codes: 1.25 V over 1, 4, 16 (Table: Slice ranges). -/
def ballVolt (gain : Nat) : Nat := 4 ^ gain

/-- X of a selection at slot k, with a flag that says it has a value without INV (R559, R560). -/
def wmkX (s : State) (w : WmkSel) (k : Nat) : (Int × Nat) × Bool :=
  let probe := place w.kind 0 3 + place w.unit 3 9 + place w.sel 12 8
  let v := probeValue s probe k
  match w.kind with
  | 1 => ((signedOf (v / 256) 24 * 1000, 2 ^ 23), !hasQ (v % 256) Qb.inv)
  | 2 =>
    let l := laneSt s w.unit
    let p : Phasor := if w.sel < 2 then laneFine s w.unit else l.fast.getD k {}
    ((signedOf v 32 * 1000, 2 ^ 31), !hasQ p.q Qb.inv)
  | 3 => (f32Rat v, (bayRun s w.unit).ran && !hasQ (probeQty s w.unit w.sel k).q Qb.inv)
  | 4 => (((v * 1000 : Nat), 2 ^ 30), (bayRun s w.unit).ran)
  | 5 => let x := relMeasurand s w.unit w.sel; (x.1, !hasQ x.2 Qb.inv)
  | 6 => ((signedOf v 32 * 1000, 2 ^ 31), (loopSt s w.unit).on)
  | 8 =>
    let (sum, n) := s.svc.sliceRms.getD w.unit (0, 0)
    let gain := match laneOfSlice s w.unit with | some l => laneGain s l | none => 0
    (((isqrt (sum * 2 ^ 40 / max 1 n) * 125 : Nat), 100 * 131072 * 2 ^ 20 * ballVolt gain), n != 0)
  | 9 => match s.aux.means.getD w.unit none with | some (m, _) => (auxValue w.unit m, true) | none => ((0, 1), false)
  | _ => (f32Rat v, (bayRun s w.unit).ran)

/-- x in µV of a selection, limited to a range; its rounding is left open (log entry 3). -/
def wmkMicro (w : WmkSel) (x : Int × Nat) (lo hi : Int) : Int :=
  let (n, d) : Int × Nat := if 0 ≤ w.e then (x.1, x.2 * 10 ^ w.e.toNat) else (x.1 * 10 ^ (-w.e).toNat, x.2)
  max lo (min hi (roundOpen 56 (n * 1000000) d))

/-- Levels of WMK0 and WMK1 in µV at slot k. -/
def wmkLevels (s : State) (k : Nat) : List Nat :=
  let one (w : WmkSel) : Nat :=
    if w.kind == 0 then 0 else if w.kind == 10 then w.level * 1000
    else let (x, ok) := wmkX s w k; if ok then (wmkMicro w x 0 2200000).toNat else 2450000
  let a := s.svc.wmk.getD 0 {}
  let b := s.svc.wmk.getD 1 {}
  let base :=
    if a.diff && a.kind != 0 then
      let (x, ok) := wmkX s a k
      [if a.kind == 10 then a.level * 1000 else if ok then (1250000 + wmkMicro a x (-1200000) 1200000).toNat else 0, 1250000]
    else [one a, one b]
  match s.svc.test with
  | some t => if t.id == 6 then
      let dt := s.clk.mono - t.at_
      modAt base t.unit (fun _ => if dt < secU 5 then 100000 else if dt < secU 10 then 1000000 else 1900000)
    else base
  | none => base

/-- The outputs refreshed for the Milestone that ends; only kind 1 with SEL 4 differs between slots (R559). A refresh that class P6
drops leaves the outputs as they are and is counted (R541). -/
def wmkRefresh (p6 : Bool) (s : State) : State :=
  if p6 && s.svc.wmk.any (fun w => w.kind != 0) then bumpClass 6 ClassCount.drop s else
  let fast (ch : Nat) : Bool := let w := s.svc.wmk.getD ch {}; w.kind == 1 && w.sel == 4
  let last := wmkLevels s 3
  setSvc (fun x => { x with wmkOut := (List.range 4).map (fun k =>
    if fast 0 || fast 1 then
      let l := wmkLevels s k
      [if fast 0 then l.getD 0 0 else last.getD 0 0, if fast 1 then l.getD 1 0 else last.getD 1 0]
    else last) }) s

/-- Both outputs at 0 V (R560). -/
def wmkOff (s : State) : State := setSvc (fun x => { x with wmkOut := List.replicate 4 [0, 0] }) s

/-! ### Self-tests (R562-R565) -/

/-- Highest UNIT of a test, its PARAM range where it has one. -/
def testUnitMax (id : Nat) : Nat :=
  match id with
  | 1 => 50 | 4 => 31 | 5 => 63 | 6 => 1 | 7 => 3 | 8 => 15 | 11 => 3 | 15 => 3 | _ => 0

def testParam (id : Nat) : Nat × Nat :=
  match id with
  | 4 => (10, 10000) | 5 => (100, 60000) | 7 => (0, 65535) | 8 => (0, 1000) | 9 => (10, 600) | 14 => (0, ddrSize / 2 ^ 20 - 64) | _ => (0, 0)

/-- A test may run in a mode (Table: Self-tests). -/
def testMode (id : Nat) (m : Mode) : Bool :=
  match id with
  | 4 => m == .commission
  | 7 => m == .configure || m == .commission
  | 8 => m == .configure || m == .commission
  | 11 => m == .commission || m == .service || m == .degraded
  | 14 => m == .configure
  | _ => m != .boot && m != .backup

/-- What else a test needs: a calibrating group, a pin of no live bay, an output no loop drives, an armed region. -/
def testReady (s : State) (id unit : Nat) : Bool :=
  match id with
  | 1 => groupCals s (if unit < 48 then unit / 16 else unit - 48)
  | 4 => match (pinSt s unit).owner with | none => (pinSt s unit).slotGone.isNone | some o => effBeh s o.1 == 3
  | 7 => !(List.range 32).any (fun i => (loopSt s i).on && isUserLoop i && outSel (loopBytes s i) == unit + 17)
  | 8 => !(List.range 32).any (fun i => (loopSt s i).on && isUserLoop i && outSel (loopBytes s i) == unit + 1)
  | 11 => (region s unit).armed.isSome && !(region s unit).full
  | _ => true

def testAbsent (s : State) (id unit : Nat) : Bool :=
  (id == 11 && decide (unit ≤ 3) && decide (s.variant.regions ≤ unit)) || (id == 15 && decide (unit ≤ 3) && decide (s.variant.standbys ≤ unit))

/-- Length of a test that runs for a time. -/
def testSpan (t : TestRun) : Nat :=
  match t.id with
  | 4 => msU t.param | 5 => msU t.param | 6 => secU 15 | 7 => secU 60 | 8 => secU 60 | 9 => secU t.param | 10 => secU 60 | 15 => secU 1 | _ => 0

def testJudge (c : Cmd) (s : State) : Judge :=
  let id := c.at_ 0x14 0 8
  let stop := c.at_ 0x14 8 1 == 1
  let p := c.at_ 0x18 0 32
  { absent := !stop && testAbsent s id c.unit
    modeBad := !stop && decide (1 ≤ id) && decide (id ≤ 15) && !testMode id s.mode.mode
    used := [(0x14, 0, 9), (0x18, 0, 32)]
    range := if stop then [] else
      [(decide (testUnitMax id < c.unit), 0x04), (id == 0 || decide (15 < id), 0x14), (decide (p < (testParam id).1) || decide ((testParam id).2 < p), 0x18)] }

def setResult (id : Nat) (r : TestRes) (s : State) : State := setSvc (fun x => { x with results := modAt x.results id (fun _ => r) }) s

/-- A test starts: its record, its result block, and what it does at once. -/
def startTest (t : TestRun) (s : State) : State :=
  let base := match t.id with
    | 4 => (pinSt s t.unit).rbEpis
    | _ => s.rec_.nextId
  let t := { t with startMs := s.clk.ms, at_ := s.clk.mono, base := base }
  let s := svcRecord 1 t.id (dUnit t.unit ++ dWord t.param ++ dCode (flag t.console)) s
  let s := setResult t.id { outcome := 1, unit := t.unit, console := t.console, startMs := s.clk.ms } (setSvc (fun x => { x with test := some t, pulseStart := t.id == 4 }) s)
  match t.id with
  | 1 => if t.unit < 48 then beginStep (t.unit / 16) (t.unit % 16) s
         else beginStep (t.unit - 48) (calGroup s (t.unit - 48)).idx s
  | 11 => { s with acts := s.acts ++ [{ cmd := { ring := 0, slot := 0, tag := 0 }, quiet := true, act := .recForce [t.unit] }] }
  | _ => s

def testAct (c : Cmd) (s : State) : Action :=
  if c.at_ 0x14 8 1 == 1 then (if s.svc.test.isSome then .atBoundary 0 0 .testStop s else .done {} s)
  else
    let id := c.at_ 0x14 0 8
    if s.svc.test.isSome || !testReady s id c.unit then .done (Reply.refuse Rsn.state) s
    else .goesOn (startTest { id := id, unit := c.unit, param := c.at_ 0x18 0 32, cmd := some (refOf c) } (queuedEntry c s))

def testRunRow (c : Cmd) (s : State) : State := command c (testJudge c) (testAct c) s

/-- TEST_RUN (R562). -/
def execTestRun (c : Cmd) (s : State) : Out := .next (testRunRow c s)

/-- TEST_RUN_STOP (R562). -/
def execTestRunStop (c : Cmd) (s : State) : Out := .next (testRunRow c s)

/-- The running test ends with an outcome (2 pass, 3 fail, 4 INFO, 5 ABORTED). -/
def endTest (outcome fail : Nat) (vals : List Nat) (s : State) : State :=
  match s.svc.test with
  | none => s
  | some t =>
    let s := setResult t.id { outcome := outcome, unit := t.unit, fail := fail, console := t.console, startMs := t.startMs, endMs := s.clk.ms, vals := vals }
      (setSvc (fun x => { x with test := none, pulseStart := false, testStop := false }) s)
    let s := svcRecord 2 t.id (dCode outcome ++ dCode fail) s
    match t.cmd with | some x => finishOpen x { result := outcome + place fail 8 16 } s | none => s

/-- The pulse of test 4 ends at a boundary (R564, R381). -/
def endPulse (b : Nat) (s : State) : State :=
  match s.trip.pulse with
  | some (p, _) => let was := pinLevel s p; pinChanged p was 7 b (setTrip (fun t => { t with pulse := none }) s)
  | none => s

/-- The pulse of test 4 starts at a boundary. -/
def startPulse (b : Nat) (s : State) : State :=
  match s.svc.test with
  | some t =>
    if s.svc.pulseStart then
      let was := pinLevel s t.unit
      pinChanged t.unit was 7 b (setTrip (fun x => { x with pulse := some (t.unit, b + msU t.param) }) (setSvc (fun x => { x with pulseStart := false }) s))
    else s
  | none => s

/-- Test pulse and STOP at the boundary that opens the Milestone in progress. -/
def testBoundary (s : State) : State :=
  let b := s.clk.openedAt
  let s := match s.trip.pulse with | some (_, e) => if e ≤ b || s.svc.testStop then endPulse b s else s | none => s
  let s := if s.svc.testStop then endTest 5 0 [] s else s
  startPulse b s

/-- A change of mode ends a test that it excludes (R562). -/
def abortTest (m : Mode) (s : State) : State :=
  match s.svc.test with
  | some t => if testMode t.id m then s else endTest 5 0 [] (endPulse s.clk.openedAt s)
  | none => s

/-- TEST_TRIP_PULSE_END (R564): the boundary at or after the end of the pulse. -/
def execTestTripPulseEnd (s : State) : Out :=
  .next (match s.trip.pulse with
    | some (_, e) => let b := endOfMs s; if e ≤ b then endPulse b (setClk (·.advance b) s) else s
    | none => s)

/-- First failing value, 1-based; 0 none. -/
def firstFail (l : List Bool) : Nat := match l.findIdx? (fun b => !b) with | some i => i + 1 | none => 0

def fInt (x : Int) : Nat := f32 x 1

/-- HOLD lies in the band of HU_STATE, in mV (R428, R430, R435; log entry 29). -/
def holdInBand (h : HuState) (within : Int → Int → Bool) : Bool :=
  match h with
  | .full => within 37600 38400
  | .charging => within 0 37699
  | .discharging => within 9500 38400
  | _ => true

/-- Verdict and values of a test; `m` holds what was measured: 2 the reference of the three groups in µV; 3 the codes of inputs 16,
17, 18, 19; 9 the errors of RTC and reference in ppb; 13 words that failed; 14 words that failed, uncorrectable and corrected
errors; 15 self-tests passed. -/
def testVerdict (t : TestRun) (m : List Int) (s : State) : Nat × Nat × List Nat :=
  let v (i : Nat) : Int := m.getD i 0
  let judge (ok : List Bool) (vals : List Nat) : Nat × Nat × List Nat := if ok.all id then (2, 0, vals) else (3, firstFail ok, vals)
  match t.id with
  | 1 =>
    let u := sliceSt s t.unit
    judge [t.verdict == some true] (u.ofs.map fInt ++ u.gc.map fInt)
  | 2 => let sum := v 0 + v 1 + v 2; judge ((List.range 3).map (fun i => decide (((3 * v i - sum) * 2000).natAbs ≤ sum.natAbs))) ((List.range 3).map (fun i => f32 (v i) 1000000))
  | 3 =>
    let x (k : Nat) : Int × Nat := auxValue (16 + k) (16 * (v k).toNat)
    let within (k : Nat) (lo hi : Int) : Bool := lo * (x k).2 ≤ 1000 * (x k).1 && 1000 * (x k).1 ≤ hi * (x k).2
    judge [within 0 9000 16000, within 3 3267 3333, within 2 (-40000) 110000, holdInBand s.pwr.hu (within 1)]
      ([0, 3, 2, 1].map (fun k => f32 (x k).1 (x k).2))
  | 4 => let n := (pinSt s t.unit).rbEpis - t.base; judge [n == 0] [fInt n, fInt (flag (trbLevel s t.unit))]
  | 5 => (4, 0, [fInt t.rises, fInt t.falls, fInt (flag ((s.trip.bi.getD t.unit {}).accepted))])
  | 7 => (4, 0, [f32 (t.param * 5 : Nat) 131072])
  | 9 => judge [(v 0).natAbs ≤ 50000] [f32 (v 0) 1000, f32 (v 1) 1000]
  | 11 =>
    match (region s t.unit).recs.find? (fun x => decide (t.base ≤ x.id) && x.sysMask / 2 ^ 8 % 2 == 1) with
    | some x =>
      let n := x.last + 1 - x.first
      let rowsOk (k : Nat) : Bool := x.red / 2 ^ k % 2 == 0 || (x.files.getD k {}).rows == (match k with | 0 => 4 * n | 1 => n | _ => (x.last + 1) / 96 - x.first / 96)
      judge [x.state != .open_ && (List.range 4).all rowsOk && !x.gaps] [fInt x.id, fInt (x.files.getD 0 {}).rows]
    | none => (3, 1, [0, 0])
  | 12 => judge [(brokenSeals s.log.records).isEmpty] [fInt s.log.records.length]
  | 13 => judge [v 0 == 0] []
  | 14 => judge [v 0 == 0 && v 1 == 0] [fInt (v 2)]
  | 15 => judge [match s.mode.standbys.getD t.unit .absent with | .ready => true | _ => false] [fInt (v 0)]
  | _ => (4, 0, [])

/-- A test whose length is that of what it waits for: the calibration step of test 1, the record of test 11 (R563). -/
def testWaits (s : State) (t : TestRun) : Bool :=
  if t.id == 1 then t.verdict.isNone
  else t.id == 11 &&
    ((region s t.unit).recs.any (fun x => decide (t.base ≤ x.id) && x.sysMask / 2 ^ 8 % 2 == 1 && x.state == .open_) ||
      s.acts.any (fun a => a.act == .recForce [t.unit]))

/-- TEST_END (R562, R563): the running test has run its course, with what it measured. -/
def execTestEnd (m : List Int) (s : State) : Out :=
  .next (match s.svc.test with
    | none => s
    | some t =>
      if testWaits s t then s else
      let s := setClk (·.advance (t.at_ + testSpan t)) s
      let (o, f, vals) := testVerdict t m s
      endTest o f vals s)

/-- Table: Test result. -/
def TestRes.encode (id : Nat) (r : TestRes) : Bytes :=
  padTo 64 (leBytes 4 (id + place r.outcome 8 8 + place r.unit 16 16) ++ leBytes 4 (r.fail + place (flag r.console) 16 1) ++
    leBytes 8 r.startMs ++ leBytes 8 r.endMs ++ r.vals.flatMap (leBytes 4))

/-- TEST_RESULT (R565). -/
def execTestResult (c : Cmd) (s : State) : Out :=
  .next (command c (fun _ => { range := [(c.unit == 0 || decide (15 < c.unit), 0x04)] }) (fun s =>
    .done { out := some (TestRes.encode c.unit (s.svc.results.getD c.unit {})) } s) s)

end Sys2Proof.Machine
end

