-- ==== Sys2Proof/Machine/TblChecks.lean ====
section
/-! DEFINITION. What TBL.SYNC checks of one entry or group block alone: reserved fields, ranges and options of the six tables
(R60, R63, R595 and the chapters that own the fields). A check is a pair: violated, and the Offset of the field. -/

namespace Sys2Proof.Machine

abbrev Checks := List (Bool × Nat)

/-- The lowest offending offset. -/
def firstBad (l : Checks) : Option Nat :=
  (l.filter (·.1)).foldl (fun m x => match m with | none => some x.2 | some o => some (min o x.2)) none

def outside (lo hi x : Nat) : Bool := decide (x < lo) || decide (hi < x)
/-- 0 selects a default and counts as within range (R595). -/
def outsideZ (lo hi x : Nat) : Bool := x != 0 && outside lo hi x
def outsideS (lo hi x : Int) : Bool := decide (x < lo) || decide (hi < x)

/-- `n` reserved words from an offset. -/
def zeroRun (b : Bytes) (off n : Nat) : Checks := (List.range n).map (fun i => (u32At b (off + 4 * i) != 0, off + 4 * i))
/-- Reserved bits, as (offset, low bit, width). -/
def zeroBits (b : Bytes) (l : List (Nat × Nat × Nat)) : Checks := l.map (fun x => (fld b x.1 x.2.1 x.2.2 != 0, x.1))
def guarded (on : Bool) (l : Checks) : Checks := if on then l else []

/-- Header: reserved bits and FMT (R60). -/
def headerChecks (b : Bytes) : Checks := [(fld b 0 1 7 != 0 || fld b 0 16 16 != 0 || fld b 0 8 8 != 1, 0)]

/-! ### Bay Table (R80, R258, R284, R335, R375, R384, R433) -/

def slotOff (k : Nat) : Nat := 0xA0 + 16 * k
def slotEn (b : Bytes) (k : Nat) : Bool := bitAt b (slotOff k) 0
def slotPin (b : Bytes) (k : Nat) : Nat := fld b (slotOff k) 1 5

/-- Debounce code of binary input i. -/
def debCode (b : Bytes) (i : Nat) : Nat := bitsOf (byteAt b (0xE0 + i / 2)) (4 * (i % 2)) 4

def bayReserved (b : Bytes) : Checks :=
  zeroBits b [(0x004, 6, 26), (0x010, 14, 18), (0x040, 3, 29), (0x084, 1, 31), (0x100, 1, 31)] ++
  zeroRun b 0x008 2 ++ zeroRun b 0x030 4 ++ zeroRun b 0x044 1 ++ zeroRun b 0x078 2 ++ zeroRun b 0x094 3 ++ zeroRun b 0x104 189 ++
  ((List.range 6).map (fun g => (fld b (0x48 + 8 * g) 1 11 != 0, 0x48 + 8 * g))) ++
  ((List.range 4).flatMap (fun k => zeroBits b
    [(slotOff k, 7, 1), (slotOff k, 24, 8), (slotOff k + 8, 24, 8), (slotOff k + 0xC, 16, 16)]))

/-- Window of a plausibility check: PLB_N and PLB_W at 0x28. -/
def plbChecks (b : Bytes) : Checks :=
  [(decide (4096 < u16At b 0x28) || outsideZ (plbN b) 8192 (u16At b 0x2A), 0x028)]

def slotRange (b : Bytes) (k : Nat) : Checks :=
  let o := slotOff k
  [(!bitAt b o 6 && fld b o 8 6 != 0, o), (outsideZ 1 5000 (u16At b (o + 4)) || outsideZ 1 60000 (u16At b (o + 6)), o + 4)] ++
  guarded (bitAt b o 18) [(decide (fld b (o + 8) 12 12 < fld b (o + 8) 0 12), o + 8), (outsideZ 100 60000 (u16At b (o + 0xC)), o + 0xC)]

def bayRange (b : Bytes) : Checks :=
  let ib := u32At b 0x014 != 0
  let inOn := bitAt b 0x010 9
  let vxOn := bitAt b 0x010 10
  let bmin := let x := u32At b 0x08C; if x == 0 then 100 else x
  [(outside 1 5 (fld b 4 0 3) || fld b 4 4 2 == 3, 0x004), (vxOn && (bitAt b 0x010 1 || bitAt b 0x010 2), 0x010)] ++
  guarded ib [(u16At b 0x018 == 0 || u16At b 0x01A == 0, 0x018), (outside 500 2000 (u16At b 0x01C) || decide (1500 < u16At b 0x01E), 0x01C)] ++
  guarded inOn [(decide (500 < u16At b 0x022), 0x020)] ++ guarded vxOn [(decide (500 < u16At b 0x026), 0x024)] ++
  guarded (inOn || vxOn) (plbChecks b) ++
  [(decide (5 < fld b 0x040 0 3), 0x040), (outsideZ 10 7200 (u16At b 0x080) || outsideZ 1 3600 (u16At b 0x082), 0x080),
   (outsideZ 1 1440 (u16At b 0x088) || outsideZ 10 3600 (u16At b 0x08A), 0x088),
   (u32At b 0x090 != 0 && decide (u32At b 0x090 < bmin), 0x090)] ++
  ((List.range 4).flatMap (fun k => guarded (slotEn b k) (slotRange b k))) ++
  [((List.range 64).any (fun i => decide (8 < debCode b i)), 0x0E0)]

/-! ### Setting-group blocks (R284-R308, R319, R336, R337, R598) -/

def stageReserved (g : Bytes) (i : Nat) : Checks :=
  let o := 0x40 + 64 * i
  zeroBits g [(o, 15, 17), (o + 8, 16, 16)] ++
  (if isCurve i then zeroBits g [(o + 0xC, 6, 10)] ++ zeroRun g (o + 0x1C) 1 else zeroRun g (o + 0x14) 3) ++
  (if i ≤ 12 then zeroRun g (o + 0x38) 2 else zeroRun g (o + 0x20) 8)

def groupReserved (g : Bytes) : Checks :=
  zeroBits g [(4, 5, 27), (0xC, 16, 16)] ++ zeroRun g 0x10 12 ++ ((List.range 25).flatMap (stageReserved g)) ++
  zeroBits g [(0x680, 3, 29), (0x68C, 16, 16)] ++ zeroRun g 0x690 12 ++
  zeroBits g [(0x6C0, 3, 29), (0x6C4, 16, 16)] ++ zeroRun g 0x6CC 13 ++
  zeroBits g [(0x700, 4, 28)] ++ zeroRun g 0x70C 13 ++ zeroBits g [(0x740, 3, 29), (0x748, 16, 16)] ++ zeroRun g 0x74C 13 ++
  zeroBits g [(0x780, 4, 28)] ++ zeroRun g 0x790 28 ++
  zeroBits g [(0x800, 4, 28)] ++ zeroRun g 0x81C 1 ++ ((List.range 5).flatMap (fun c => zeroBits g [(0x820 + 4 * c, 25, 7)])) ++ zeroRun g 0x834 51 ++
  zeroBits g [(0x900, 3, 29)] ++ zeroRun g 0x910 12 ++
  zeroBits g [(0x940, 2, 30), (0x94C, 16, 16)] ++ zeroRun g 0x950 12 ++
  zeroBits g [(0x980, 1, 31), (0x988, 16, 16)] ++ zeroRun g 0x98C 13 ++
  zeroBits g [(0x9C0, 4, 28), (0x9C4, 16, 16), (0x9C8, 16, 16)] ++ zeroRun g 0x9D0 28 ++
  zeroBits g [(0xA40, 1, 31)] ++ zeroRun g 0xA54 11 ++ zeroRun g 0xA80 350

/-- Largest OPT per index (Table: Stage kinds). -/
def optMax (i : Nat) : Nat :=
  if i == 13 || i == 14 then 2 else if i == 15 || i == 16 then 3 else if 19 ≤ i && i ≤ 22 then 1 else if i == 23 || i == 24 then 2 else 0

/-- The directional unit a stage uses: EN of 67P or 67N (Table: Directional quantities). -/
def dirUnitEn (g : Bytes) (i : Nat) : Bool := if isRes i then bitAt g 0x6C0 0 else bitAt g 0x680 0

def dropoutBad (i x : Nat) : Bool :=
  if 19 ≤ i then decide (500 < x) else if i == 13 || i == 14 then outsideZ 1001 1100 x else outsideZ 900 999 x

/-- Curve fields of a 51 stage (R319); `empty k` says that user slot k of the bay's compute die holds no curve. -/
def curveChecks (empty : Nat → Bool) (r : Bytes) (o : Nat) : Checks :=
  let k := recCurve r
  [(k == 7 || decide (11 < k) || (8 ≤ k && k ≤ 11 && empty k) || recRst r == 3 || outside 10 15000 (recTms r), o + 0xC),
   (decide (60000000 < u32At r 0x10) || (recRst r != 1 && u32At r 0x10 != 0), o + 0x10), (outsideZ 200 4000 (u16At r 0x14), o + 0x14),
   (decide (10000000 < u32At r 0x18), o + 0x18)]

/-- Adaptive fields of a stage (R336, R337). -/
def adaptChecks (r : Bytes) (o : Nat) : Checks :=
  let lo := u32At r 0x28
  let hi := u32At r 0x2C
  let clo := u32At r 0x30
  let chi := u32At r 0x34
  [(decide (20000 < u16At r 0x20) || decide (1000 < u16At r 0x22), o + 0x20), (lo == 0 || decide (recPickup r < lo), o + 0x28),
   (decide (hi < recPickup r), o + 0x2C)] ++
  guarded (recClp r) [(decide (clo < lo), o + 0x30), (decide (chi < clo) || decide (chi < hi), o + 0x34)]

def stageRange (empty : Nat → Bool) (g : Bytes) (i : Nat) : Checks :=
  let o := 0x40 + 64 * i
  let r := recBytes g i
  let path := recPath r
  guarded (recEn r) (
    [(path == 3 || (path == 1 && decide (7 < i)) || (path == 2 && decide (5 < i)) || recDir r == 3 ||
        (recDir r != 0 && (decide (12 < i) || path == 2 || !dirUnitEn g i)) ||
        (decide (12 < i) && (recAdapt r || recInrBlk r || recClp r)) || (decide (7 < i) && recSotf r) || decide (optMax i < recOpt r) ||
        (recCbBlk r && !(i == 13 || i == 14)), o),
     (recPickup r == 0, o + 4), (dropoutBad i (u16At r 8), o + 8)] ++
    (if isCurve i then curveChecks empty r o else [(decide (600000000 < recTd r), o + 0xC), (decide (60000000 < recResetT r), o + 0x10)]) ++
    guarded (recAdapt r) (adaptChecks r o))

/-- A group uses 3V0 (R598). -/
def uses3V0 (g : Bytes) : Bool := recEn (recBytes g 17) || recEn (recBytes g 18) || (bitAt g 0x6C0 0 && !bitAt g 0x6C0 1)

def dirChecks (g : Bytes) (o : Nat) (phase : Bool) : Checks :=
  guarded (bitAt g o 0) (
    [(outsideS (-900) 900 (s16At g (o + 4)) || (phase && outsideS (-900) 900 (s16At g (o + 6))), o + 4),
     (u16At g (o + 8) == 0 || outside 5 500 (u16At g (o + 0xA)), o + 8)] ++
    guarded phase [(decide (2000 < u16At g (o + 0xC)), o + 0xC)])

/-- Range checks of a group block under the Bay Table entry `bb` in force. -/
def groupRange (empty : Nat → Bool) (bb g : Bytes) : Checks :=
  let shots := fld g 0x800 1 3
  [(uses3V0 g && ((!gVnsrc g && bitAt bb 0x010 2) || (gVnsrc g && bitAt bb 0x010 1)), 4), (outsideZ 100 1000 (u16At g 0xC), 0xC)] ++
  ((List.range 25).flatMap (stageRange empty g)) ++ dirChecks g 0x680 true ++ dirChecks g 0x6C0 false ++
  guarded (bitAt g 0x700 0) [(outside 100 1000 (u16At g 0x704), 0x704), (decide (600000000 < u32At g 0x708), 0x708)] ++
  guarded (bitAt g 0x740 0) [(outside 500 2000 (u16At g 0x744) || outside (u16At g 0x744) 2000 (u16At g 0x746), 0x744), (decide (200 < u16At g 0x748), 0x748)] ++
  guarded (bitAt g 0x780 0) [(u16At g 0x784 == 0, 0x784), (decide (1000000 < u32At g 0x788), 0x788), (outside (u32At g 0x788) 2000000 (u32At g 0x78C), 0x78C)] ++
  guarded (bitAt g 0x800 0) (
    [(decide (4 < shots), 0x800)] ++
    ((List.range 4).map (fun k => let x := u32At g (0x804 + 4 * k); (if k < shots then outside 50000 300000000 x else x != 0, 0x804 + 4 * k))) ++
    [(outside 1000000 600000000 (u32At g 0x814), 0x814), (outside 20000 2000000 (u32At g 0x818), 0x818)]) ++
  guarded (bitAt g 0x900 0) [(outside 100000 600000000 (u32At g 0x908), 0x908), (outside 20000 2000000 (u32At g 0x90C), 0x90C)] ++
  guarded (bitAt g 0x940 0) [(outsideZ 50 500 (u16At g 0x944) || decide (960 < u16At g 0x946), 0x944), (decide (960 < u16At g 0x94C), 0x94C)] ++
  guarded (bitAt g 0x980 0) [(outside 1 36000 (u16At g 0x984) || outside 1 36000 (u16At g 0x986), 0x984), (outside 100 1000 (u16At g 0x988), 0x988)] ++
  guarded (bitAt g 0x9C0 0) [(outside 150 2000 (u16At g 0x9C4), 0x9C4), (outside 1 60 (byteAt g 0x9C8) || outside (byteAt g 0x9C8) 60 (byteAt g 0x9C9), 0x9C8), (decide (600000000 < u32At g 0x9CC), 0x9CC)] ++
  guarded (bitAt g 0xA40 0) [(u32At g 0xA44 == 0, 0xA44), (decide (10000 < u16At g 0xA48) || outsideS (-1800) 1800 (s16At g 0xA4A), 0xA48), (outside 1 1000000 (u32At g 0xA4C), 0xA4C)]

/-! ### Lane Table (R156, R199, R226, R227) -/

def laneReserved (b : Bytes) : Checks :=
  zeroBits b [(0x04, 2, 6), (0x04, 14, 18), (0x08, 12, 20), (0x10, 3, 29), (0x20, 20, 12), (0x24, 8, 24), (0x28, 8, 24)] ++
  zeroRun b 0x0C 1 ++ zeroRun b 0x1C 1 ++ zeroRun b 0x30 18

def rankBad (b : Bytes) : Bool :=
  let n := fld b 0x24 2 3
  let k := fld b 0x24 5 3
  if fld b 0x24 0 2 == 3 then !(n == 3 || n == 5 || n == 7) || k == 0 || decide (n < k) else n != 0 || k != 0

/-- Range checks of the entry of lane l; BRD_GAIN's 16 bits cannot leave its range. -/
def laneRange (t12 : Bool) (symmetric : Nat → Bool) (l : Nat) (b : Bytes) : Checks :=
  let src := fld b 4 0 2
  let ch := fld b 8 9 3
  [(src == 3 || (if src == 1 then decide (47 < fld b 4 8 6) else fld b 4 8 6 != 0) || (t12 && src == 2), 0x04),
   ((src == 1 && fld b 8 0 12 != 0) || (src == 2 && (decide (ch < 4) != decide (l % 8 < 4) || decide (255 < fld b 8 0 9))), 0x08),
   (if src == 1 then fld b 0x10 0 2 == 3 else fld b 0x10 0 3 != 0, 0x10),
   ((src == 1) == (u32At b 0x14 == 0), 0x14),
   (if src == 1 then outsideS (-2048) 2047 (s16At b 0x1A) else u32At b 0x18 != 0, 0x18),
   (src == 2 && fld b 0x20 0 8 != 0, 0x20), (rankBad b || (t12 && fld b 0x24 0 2 != 0), 0x24),
   ((src == 2 && bitAt b 0x28 0) || decide (7 < fld b 0x28 4 4) || (t12 && !symmetric (fld b 0x28 1 2)), 0x28),
   (decide (200000 < u32At b 0x2C) || (src != 1 && u32At b 0x2C != 0) || (t12 && u32At b 0x2C != 0), 0x2C)]

/-! ### Stream Table (R187, R190, R210) -/

def streamReserved (b : Bytes) : Checks :=
  zeroBits b [(0x04, 4, 28), (0x10, 8, 24), (0x1C, 8, 24), (0x28, 3, 5), (0x28, 13, 3), (0x28, 21, 11), (0x2C, 8, 24), (0x88, 24, 8),
    (0x98, 3, 5), (0x98, 13, 3), (0x98, 21, 11), (0x9C, 16, 16)] ++
  zeroRun b 0x50 12 ++ ((List.range 16).flatMap (fun m => zeroBits b [(0xA0 + 4 * m, 20, 12)])) ++ zeroRun b 0xE0 6

def streamRange (b : Bytes) : Checks :=
  let le := decide (2 ≤ fld b 0x1C 0 3)
  guarded (bitAt b 4 0)
    [(outside 0x010CCD040000 0x010CCD0401FF (leAt b 8 6) || outside 0x4000 0x7FFF (u16At b 0x0E), 0x08), (outside 1 129 (byteAt b 0x10), 0x10),
     (decide (3 < fld b 0x1C 0 3) || (!le && bitAt b 0x1C 3) || outside 1 2 (fld b 0x1C 4 2) || fld b 0x1C 6 2 == 3, 0x1C),
     (outside 200 2000 (u16At b 0x20) || decide (60000 < u16At b 0x22), 0x20), (outsideS (-100000) 100000 (s32At b 0x24), 0x24),
     (fld b 0x28 0 2 == 3, 0x28)] ++
  guarded (bitAt b 4 1) (
    [(outside 0x010CCD010000 0x010CCD0101FF (leAt b 0x80 6) || decide (0x3FFF < u16At b 0x86), 0x80),
     (outside 1 129 (byteAt b 0x88) || outside 1 129 (byteAt b 0x89) || byteAt b 0x8A == 0, 0x88), (fld b 0x98 0 2 == 3, 0x98),
     (decide (1000 < u16At b 0x9C), 0x9C)] ++
    ((List.range 16).map (fun m => (decide (1 < fld b (0xA0 + 4 * m) 16 2) || fld b (0xA0 + 4 * m) 18 2 == 3, 0xA0 + 4 * m))))

/-! ### Bus Section Table (R256, R279, Table: Bus Section Table, element part) -/

def sectReserved (b : Bytes) : Checks :=
  zeroBits b [(0x04, 4, 28), (0x40, 5, 27), (0x60, 16, 16), (0x64, 3, 5), (0x64, 11, 5), (0x70, 16, 16)] ++
  zeroRun b 0x30 4 ++ zeroRun b 0x74 33

/-- Bits of a mask outside another. -/
def maskBeyond (x y : Nat) : Bool := (x &&& y) != x

def sectRange (v : Variant) (t12Bays : Nat) (b : Bytes) : Checks :=
  let members := u64At b 8
  [(decide (v.regions ≤ sectHome b), 0x04), ((members &&& t12Bays) != 0, 0x08)] ++
  guarded (kirEn b) [(decide (500 < u16At b 0x22), 0x20)] ++
  guarded (vagEn b) [(maskBeyond (u64At b 0x18) members, 0x18), (outside 1 500 (u16At b 0x24), 0x24)] ++
  guarded (kirEn b || vagEn b) (plbChecks b) ++
  guarded (b87En b) (
    [(decide (u16At b 0x44 < 10) || outside 50 900 (u16At b 0x46), 0x44), (outside (u16At b 0x46) 990 (u16At b 0x4A), 0x48)] ++
    guarded (czEn b) [(decide (u16At b 0x4C < 10) || outside 50 900 (u16At b 0x4E), 0x4C)] ++
    guarded (satEn b) [(outsideZ 20 2000 (u16At b 0x60), 0x60)]) ++
  guarded (riEn b) [(outside 1 10000 (riTd b), 0x64), (maskBeyond (riInc b) members, 0x68), (decide (1000 < riHold b), 0x70)]

/-! ### Loop Table (R396, R399-R401, R415) -/

/-- Offsets of the coefficient slots of both banks. -/
def coefOffs : List Nat := [0x40, 0x48, 0x50, 0x58, 0x60, 0x70, 0x78, 0x80, 0x88, 0x90]

def loopReserved (b : Bytes) : Checks :=
  zeroBits b [(0x04, 7, 1), (0x04, 14, 18), (0x08, 17, 15), (0x0C, 17, 15), (0x34, 16, 16), (0xB8, 16, 16)] ++
  zeroRun b 0x1C 1 ++ zeroRun b 0x38 2 ++ (coefOffs.map (fun o => (fld b (o + 4) 5 27 != 0, o))) ++
  ([0x68, 0x98].map (fun o => (u32At b (o + 4) != 0, o))) ++ ([0xA0, 0xA8].map (fun o => (fld b (o + 4) 5 27 != 0, o))) ++ zeroRun b 0xC0 14

/-- A source descriptor out of range (R402, Table: Source descriptor). -/
def sourceBad (d : Nat) : Bool :=
  let k := bitsOf d 0 3
  let n := bitsOf d 3 9
  let m := bitsOf d 12 5
  decide (3 < k) || (k == 1 && decide (19 < n)) || (k == 2 && decide (63 < n)) || (if k == 2 then decide (18 < m) else m != 0)

/-- Full scale of a source: above 0 for KIND 2, 0 otherwise. -/
def sourceFsBad (d x : Nat) : Bool := if bitsOf d 0 3 == 2 then f32Special x || decide ((f32Rat x).1 ≤ 0) else x != 0

/-- 0 ≤ value < 1 and 0 < value ≤ 1 of a coefficient slot. -/
def poleBad (b : Bytes) (o : Nat) : Bool := outsideS 0 (2 ^ (fld b (o + 4) 0 5) - 1) (s32At b o)
def modelPoleBad (b : Bytes) (o : Nat) : Bool := outsideS 1 (2 ^ (fld b (o + 4) 0 5)) (s32At b o)

def loopRange (i : Nat) (b : Bytes) : Checks :=
  if i ≤ 7 || i == 9 then [(true, 0)]
  else if i == 8 then zeroRun b 4 15 ++ zeroRun b 0x50 42
  else
    let pwm := outside 1 16 (outSel b) == false
    [(decide (12 < rateDiv b) || decide (20 < outSel b), 0x04), (sourceBad (u32At b 8), 0x08), (sourceBad (u32At b 0xC), 0x0C),
     (sourceFsBad (u32At b 8) (u32At b 0x10), 0x10), (sourceFsBad (u32At b 0xC) (u32At b 0x14), 0x14),
     (if pwm then outside 100 1000000 (u32At b 0x18) else u32At b 0x18 != 0, 0x18), (decide (s32At b 0x2C ≤ s32At b 0x28), 0x28),
     (poleBad b 0x50, 0x50), (poleBad b 0x80, 0x80)] ++
    guarded (mdlEn b)
      [(modelPoleBad b 0xA0, 0xA0), (decide (1000 < u16At b 0xB8), 0xB8), (decide (4096 < u16At b 0xBC) || outsideZ (mdlN b) 8192 (u16At b 0xBE), 0xBC)]

end Sys2Proof.Machine
end

