-- ==== Sys2Proof/Machine/Admission.lean ====
section
/-! DEFINITION. The P0 cost of a cluster (R537, R538). -/

namespace Sys2Proof.Machine

/-- The budget of R24: 45 % of the shortest Milestone, in clocks (R537). -/
def costBudget : Nat := 53568

def popCount (x : Nat) : Nat := ((List.range 64).filter (inMask x)).length

/-- Bays the variant has, as a mask. -/
def variantBays (v : Variant) : Nat := 2 ^ v.bays - 1

/-- Cost of a stage (Table: P0 cost). -/
def stageCost (g : Bytes) (i : Nat) : Nat :=
  let r := recBytes g i
  let fine := recPath r == 0
  if !recEn r then 0
  else (if fine then 24 else if recPath r == 1 then 96 else 80) + (if recDir r == 0 then 0 else if fine then 16 else 64) +
    (if recAdapt r then 30 else 0) + (if isCurve i then 40 else 0)

/-- Cost of the elements of a group block (Table: P0 cost). -/
def groupCost (g : Bytes) : Nat :=
  let el (o n : Nat) : Nat := if bitAt g o 0 then n else 0
  (List.range 25).foldl (fun a i => a + stageCost g i) 0 +
  el 0x680 120 + el 0x6C0 40 + el 0x700 16 + el 0x740 8 + el 0x780 140 + el 0x800 40 + el 0x900 110 + el 0x940 70 + el 0x980 8 + el 0x9C0 120 + el 0xA40 60

/-- A configured lane (R60). -/
def laneCost (s : State) (l : Nat) : Nat :=
  if !laneEn s l then 0
  else (if (chainSt s (l / 64)).t12 then 190 else 260) + (if 5 ≤ (rankNK (laneBytes s l)).1 then 20 else 0)

/-- Base, configured lanes, and the largest element cost over the present groups (R538). -/
def bayCost (s : State) (b : Nat) : Nat :=
  if !bayEn s b then 0
  else 1400 + (List.range 8).foldl (fun a k => a + laneCost s (8 * b + k)) 0 +
    (List.range 6).foldl (fun m g => if groupPresent s b g then max m (groupCost (s.tbl.group.getD (6 * b + g) {}).bytes) else m) 0

def sectMembers (s : State) (k : Nat) : Nat := u64At (sectionBytes s k) 8 &&& variantBays s.variant

def sectCost (s : State) (k : Nat) : Nat :=
  let b := sectionBytes s k
  let m := popCount (sectMembers s k)
  let if_ (c : Bool) (n : Nat) : Nat := if c then n else 0
  if_ (b87En b) (180 + 48 * m) + if_ (b87En b && czEn b) (36 * popCount (u64At b 0x50 &&& variantBays s.variant)) + if_ (b87En b && satEn b) (60 * m) +
  if_ (riEn b) (40 + 8 * m) + if_ (kirEn b) (16 * m) + if_ (vagEn b) (8 * m)

/-- The committed cost of a cluster (R538). -/
def clusterCost (s : State) (c : Nat) : Nat :=
  (List.range 8).foldl (fun a k => a + bayCost s (8 * c + k)) 0 +
  (sections s).foldl (fun a k =>
    a + 12 * popCount (sectMembers s k &&& (255 <<< (8 * c))) + (if sectHomeCluster s k == c then sectCost s k else 0)) 0

/-- Clusters an enabled section charges: its home, and those of its members (R539). -/
def sectCharges (s : State) (k : Nat) : List Nat :=
  if !sectionEn s k then []
  else (List.range s.variant.clusters).filter (fun c => sectHomeCluster s k == c || (sectMembers s k &&& (255 <<< (8 * c))) != 0)

end Sys2Proof.Machine
end

