-- ==== Sys2Proof/Machine/Tables.lean ====
section
/-! DEFINITION. The configuration tables: TBL.BASE, TBL.SYNC with its check and the entries it stages, TBL.READ (R59-R67, R539,
R595, R596), and what a staged entry does at its boundary. -/

namespace Sys2Proof.Machine

def setTbl (f : TblSt → TblSt) (s : State) : State := { s with tbl := f s.tbl }

/-! ### Geometry (Table: Table geometry); table 6 stands for the setting-group blocks -/

def tblSize : Nat → Nat | 0 => 1024 | 1 => 128 | 2 => 256 | 3 => 256 | 4 => 512 | 5 => 256 | _ => 4096
def tblMax : Nat → Nat | 0 => 64 | 1 => 512 | 2 => 256 | 3 => 16 | 4 => 64 | 5 => 32 | _ => 384
def tblCount (v : Variant) : Nat → Nat
  | 0 => v.bays | 1 => v.lanes | 2 => v.svSubs | 3 => v.sections | 4 => v.bays | 5 => 32 | _ => 6 * v.bays

def tblList (t : TblSt) : Nat → List CacheEntry
  | 0 => t.bay | 1 => t.lane | 2 => t.stream | 3 => t.section_ | 4 => t.trigger | 5 => t.loop | _ => t.group

def tblEntry (t : TblSt) (k i : Nat) : CacheEntry := (tblList t k).getD i {}

def setTblEntry (k i : Nat) (f : CacheEntry → CacheEntry) (t : TblSt) : TblSt :=
  match k with
  | 0 => { t with bay := modAt t.bay i f }
  | 1 => { t with lane := modAt t.lane i f }
  | 2 => { t with stream := modAt t.stream i f }
  | 3 => { t with section_ := modAt t.section_ i f }
  | 4 => { t with trigger := modAt t.trigger i f }
  | 5 => { t with loop := modAt t.loop i f }
  | _ => { t with group := modAt t.group i f }

def mapTbl (k : Nat) (f : CacheEntry → CacheEntry) (t : TblSt) : TblSt :=
  match k with
  | 0 => { t with bay := t.bay.map f }
  | 1 => { t with lane := t.lane.map f }
  | 2 => { t with stream := t.stream.map f }
  | 3 => { t with section_ := t.section_.map f }
  | 4 => { t with trigger := t.trigger.map f }
  | 5 => { t with loop := t.loop.map f }
  | _ => { t with group := t.group.map f }

/-- INDEX of a place (R60, R63). -/
def placeIndex (k i : Nat) : Nat := if k == 6 then 0x8000 + 16 * (i / 6) + i % 6 else i
def placeTable (k : Nat) : Nat := if k == 6 then 0 else k

/-- Entries that a table's place holds (R59): COUNT, and before any TBL.BASE none. -/
def TblBase.entries (b : TblBase) : Nat := if b.placed then b.count else 0

/-- The variant does not have the unit of an entry (R2, R58). -/
def unitAbsent (v : Variant) (k i : Nat) : Bool := decide (tblCount v k ≤ i) || (k == 5 && loopAbsent v i)

/-! ### TBL.BASE (R59) -/

/-- A unit of the table counts as running (R596). -/
def tblRuns (s : State) (k : Nat) : Bool :=
  match k with
  | 0 => s.mode.mode.runs
  | 4 => (List.range s.variant.regions).any (recUnitRuns s)
  | 5 => s.mode.mode != .configure || (List.range 32).any (fun i => isUserLoop i && (tblEntry s.tbl 5 i).en)
  | _ => false

def tblBaseJudge (c : Cmd) (s : State) : Judge :=
  { modeBad := !s.mode.mode.configurable, used := [(0x14, 0, 1), (0x14, 12, 20), (0x18, 0, 32), (0x1C, 0, 16)]
    range := [(decide (5 < c.unit), 4), (c.unit ≤ 5 && decide (tblMax c.unit < c.at_ 0x1C 0 16), 0x1C),
              (c.at_ 0x14 0 1 == 0 && !s.host.pcieLink, 0x14)]
    locked := tblRuns s c.unit }

/-- TBL_BASE. -/
def execTblBase (c : Cmd) (s : State) : Out :=
  .next (command c (tblBaseJudge c) (fun s =>
    let n := c.at_ 0x1C 0 16
    let b : TblBase :=
      { placed := true, ddr := c.at_ 0x14 0 1 == 1, addr := 4096 * c.at_ 0x14 12 52, count := if n == 0 then tblCount s.variant c.unit else n }
    .done {} (setTbl (fun t => mapTbl c.unit (fun e => { e with seqValid := false })
      { t with base := modAt t.base c.unit (fun _ => b), rebased := modAt t.rebased c.unit (fun _ => true) }) s)) s)

/-! ### TBL.READ (R62) -/

/-- The place an INDEX of TBL.READ names: table (6 for a group block) and index, none where the index names nothing. -/
def readPlace (c : Cmd) : Option (Nat × Nat) :=
  let i := c.at_ 0x14 0 16
  if c.unit == 0 && 0x8000 ≤ i then (if 6 ≤ i % 16 || 64 ≤ (i - 0x8000) / 16 then none else some (6, 6 * ((i - 0x8000) / 16) + i % 16))
  else if c.unit ≤ 5 && i < (tblMax c.unit) then some (c.unit, i) else none

def readLimit (s : State) (k : Nat) : Nat := let b := s.tbl.base.getD k {}; if b.placed then b.count else tblCount s.variant k

def tblReadJudge (c : Cmd) (s : State) : Judge :=
  let i := c.at_ 0x14 0 16
  let group := c.unit == 0 && decide (0x8000 ≤ i)
  { absent := if group then decide (s.variant.bays ≤ (i - 0x8000) / 16) else c.unit ≤ 5 && unitAbsent s.variant c.unit i
    used := [(0x14, 0, 16)]
    range := [(decide (5 < c.unit), 4), (if group then decide (6 ≤ i % 16) else c.unit ≤ 5 && decide (readLimit s c.unit ≤ i), 0x14)] }

/-- TBL_READ. -/
def execTblRead (c : Cmd) (s : State) : Out :=
  .next (command c (tblReadJudge c) (fun s =>
    match readPlace c with
    | none => .done (Reply.range 0x14) s
    | some (k, i) =>
      let e := tblEntry s.tbl k i
      let b := padTo (tblSize k) e.bytes
      .done
        { out := some b
          result := u16At b (tblSize k - 8) + place (flag e.cached) 16 1 + place (if e.cached then e.since else 0) 32 32 } s) s)

/-! ### One entry's check (R63) -/

/-- A record of the report (R66): place, status, DETAIL; a warning does not keep the entry from being staged. -/
structure SyncRep where
  table : Nat
  index : Nat
  status : Nat
  detail : Nat
  warning : Bool
  deriving DecidableEq, Repr

/-- The check as it goes: the tables as they will be in force, what is staged, the report, and whether all memory answered. -/
structure SyncAcc where
  t : TblSt
  staged : List Staged := []
  reps : List SyncRep := []
  ok : Bool := true
  deriving DecidableEq, Repr

def bayEmptySlot (s : State) (b k : Nat) : Bool := (curveSlot s b k).isEmpty

/-- Bays of clusters in T12 mode. -/
def t12Bays (s : State) : Nat := maskOf 64 (fun b => (chainSt s (b / 8)).t12)

/-- Bays that an enabled section names (R256). -/
def sectionNames (s : State) (b : Nat) : Bool := (sections s).any (fun k => inMask (sectMembers s k) b)

def reservedOf (k : Nat) (b : Bytes) : Checks :=
  match k with
  | 0 => bayReserved b | 1 => laneReserved b | 2 => streamReserved b | 3 => sectReserved b | 4 => trgReserved b | 5 => loopReserved b
  | _ => groupReserved b

/-- Range checks of an entry with EN = 1; `bb` is the Bay Table entry in force for a group block. -/
def rangeOf (s : State) (k i : Nat) (bb b : Bytes) : Checks :=
  let ch := chainSt s (i / 64)
  match k with
  | 0 => bayRange b
  | 1 => laneRange ch.t12 (fun x => !notSymmetric ch x) i b
  | 2 => streamRange b
  | 3 => sectRange s.variant (t12Bays s) b
  | 4 => trgRange b
  | 5 => loopRange i b
  | _ => groupRange (bayEmptySlot s (i / 6)) bb b

/-- A class C field of a running unit differs (R596, R443, R400, R415). -/
def lockedOf (s : State) (k i : Nat) (old new : Bytes) : Bool :=
  let en := bitAt old 0 0 != bitAt new 0 0
  match k with
  | 0 => en && s.mode.mode.runs
  | 4 => recUnitRuns s (i / 16) && (en || (bitAt new 0 0 && (fld old 4 0 2 != fld new 4 0 2 ||
      (List.range 16).any (fun j => fld old (0x20 + 4 * j) 0 25 != fld new (0x20 + 4 * j) 0 25))))
  | 5 =>
    if i == 8 then en && s.mode.mode != .configure
    else isUserLoop i && bitAt old 0 0 && bitAt new 0 0 &&
      (fld old 4 0 5 != fld new 4 0 5 || fld old 4 8 6 != fld new 4 8 6 || (old.drop 8).take 20 != (new.drop 8).take 20)
  | _ => false

/-- The check word of an entry read at a place (R60). -/
def checkWordOk (k i : Nat) (b : Bytes) : Bool :=
  u16At b (tblSize k - 6) == placeIndex k i && u32At b (tblSize k - 4) == (crc32c (b.take (tblSize k - 4))).toNat

def addRep (k i status detail : Nat) (warning : Bool) (a : SyncAcc) : SyncAcc :=
  { a with reps := a.reps ++ [{ table := placeTable k, index := placeIndex k i, status := status, detail := detail, warning := warning }] }

def stageEntry (k i : Nat) (b : Bytes) (a : SyncAcc) : SyncAcc :=
  { a with t := setTblEntry k i (fun e => { e with bytes := b }) a.t, staged := a.staged ++ [{ table := k, index := i, bytes := b }] }

/-- Entries that a later pass refuses: place, status and DETAIL. -/
abbrev Refused := List ((Nat × Nat) × Nat × Nat)

/-- An entry that has been read: its own checks in the order of R63. -/
def decideRead (s : State) (ex : Refused) (k i : Nat) (bb b : Bytes) (a : SyncAcc) : SyncAcc :=
  let old := (tblEntry s.tbl k i).bytes
  if !checkWordOk k i b then addRep k i St.refused Rsn.check false a
  else if unitAbsent s.variant k i then addRep k i St.absent 0 true a
  else match firstBad (headerChecks b ++ reservedOf k b ++ (if bitAt b 0 0 then rangeOf s k i bb b else [])) with
    | some o => addRep k i St.range o false a
    | none =>
      if lockedOf s k i old b then addRep k i St.locked 0 false a
      else match ex.find? (fun x => x.1 == (k, i)) with
        | some x => addRep k i x.2.1 x.2.2 false a
        | none => stageEntry k i b a

/-- One entry of the range, of a table at its place (R59, R61, R63). -/
def decideEntry (s : State) (base : TblBase) (ex : Refused) (k : Nat) (a : SyncAcc) (i : Nat) : SyncAcc :=
  let e := tblEntry s.tbl k i
  let n := tblSize k
  let sp : Space := if base.ddr then .ddr else .host
  let at_ := base.addr + i * n
  if !a.ok then a
  else if base.entries ≤ i then
    if !e.en || unitAbsent s.variant k i then a
    else if lockedOf s k i e.bytes (zeros n) then addRep k i St.locked 0 false a
    else match ex.find? (fun x => x.1 == (k, i)) with
      | some x => addRep k i x.2.1 x.2.2 false a
      | none => stageEntry k i (zeros n) a
  else if !reachable s sp at_ n then { a with ok := false }
  else
    let b := memRead s sp at_ n
    if e.seqValid && u16At b (n - 8) == u16At e.bytes (n - 8) then a else decideRead s ex k i [] b a

/-- Block g of bay b under the Bay Table entry that will be in force (R61, R63). -/
def decideBlock (s : State) (ex : Refused) (b : Nat) (bb : Bytes) (a : SyncAcc) (g : Nat) : SyncAcc :=
  let p := u64At bb (0x48 + 8 * g)
  let e := tblEntry s.tbl 6 (6 * b + g)
  let same := u64At (bayBytes s b) (0x48 + 8 * g) == p
  let sp : Space := if p % 2 == 1 then .ddr else .host
  let at_ := p / 4096 * 4096
  if !a.ok || p == 0 then a
  else if !reachable s sp at_ 4096 then { a with ok := false }
  else
    let x := memRead s sp at_ 4096
    if e.seqValid && same && u16At x 0xFF8 == u16At e.bytes 0xFF8 then a else decideRead s ex 6 (6 * b + g) bb x a

/-- The blocks of bay b, where the Bay Table entry that will be in force is enabled. -/
def decideBlocks (s : State) (ex : Refused) (b : Nat) (a : SyncAcc) : SyncAcc :=
  let bb := (tblEntry a.t 0 b).bytes
  if bitAt bb 0 0 then (List.range 6).foldl (decideBlock s ex b bb) a else a

/-- A Bay Table entry and its blocks; an ACT_GRP whose group would not be present refuses the entry (R285). -/
def decideBay (s : State) (base : TblBase) (ex : Refused) (a : SyncAcc) (b : Nat) : SyncAcc :=
  let x := decideEntry s base ex 0 a b
  if s.variant.bays ≤ b then x
  else
    let y := decideBlocks s ex b x
    let bb := (tblEntry x.t 0 b).bytes
    if x.staged.length != a.staged.length && bitAt bb 0 0 && !groupPresent { s with tbl := y.t } b (fld bb 0x40 0 3)
    then decideBlocks s ex b (addRep 0 b St.range 0x40 false a) else y

/-- Every entry of the range, table by table. -/
def decideAll (s : State) (j : SyncJob) (ex : Refused) : SyncAcc :=
  let tables := (List.range 6).filter (inMask j.mask)
  tables.foldl (fun a k =>
    let stop := if j.count == 0 then tblMax k else min (tblMax k) (j.first + j.count)
    let l := (List.range stop).drop j.first
    let base := j.base.getD k {}
    if k == 0 then l.foldl (decideBay s base ex) a else l.foldl (decideEntry s base ex k) a) { t := s.tbl }

/-! ### Conflicts among the entries that will be in force (R157, R191, R199, R238, R376, R384, R400) -/

def bayConflict (h : State) (b : Nat) : Option Nat :=
  let bb := bayBytes h b
  let pin (k : Nat) : Bool :=
    (List.range h.variant.bays).any (fun b' => bayEn h b' && (List.range 4).any (fun k' =>
      (b', k') != (b, k) && slotEn (bayBytes h b') k' && slotPin (bayBytes h b') k' == slotPin bb k))
  let deb (i : Nat) : Bool :=
    (List.range h.variant.bays).any (fun b' => bayEn h b' && debCode (bayBytes h b') i != 0 && debCode (bayBytes h b') i != debCode bb i)
  if !bayEn h b then none
  else match (List.range 4).find? (fun k => slotEn bb k && pin k) with
    | some k => some (slotOff k)
    | none => if (List.range 64).any (fun i => debCode bb i != 0 && deb i) then some 0xE0 else none

/-- FS_CHc of a stream entry. -/
def streamFs (b : Bytes) (c : Nat) : Nat := u32At b (0x30 + 4 * c)
/-- The context a lane names is there and receives. -/
def laneStreamOk (h : State) (l : Nat) : Bool :=
  let k := laneStream (laneBytes h l)
  decide (k < h.variant.svSubs) && bitAt (streamBytes h k) 0 0 && bitAt (streamBytes h k) 4 0

def laneConflict (h : State) (l : Nat) : Option Nat :=
  let b := laneBytes h l
  let src := laneSrc h l
  let ch := chainSt h (clusterOf (l / 8))
  let usable (x : Nat) : Bool := laneEn h x && !setEmpty ch 3 (stg3Set (laneBytes h x))
  let d (x : Nat) : Int := stage3Delay ch (stg3Set (laneBytes h x))
  if !laneEn h l then none
  else if src == 1 && (List.range h.variant.lanes).any (fun x => x != l && laneSrc h x == 1 && laneSlice h x == laneSlice h l) then some 4
  else if src == 2 && laneStreamOk h l && streamFs (streamBytes h (laneStream b)) (laneCh b) == 0 then some 8
  else if usable l && (List.range 8).any (fun k => usable (8 * (l / 8) + k) && decide (1 < (d (8 * (l / 8) + k) - d l).natAbs)) then some 0x28
  else none

/-- Two contexts match the same SV frames: the later in index order is refused, or the one of the two that is staged. -/
def streamConflict (h : State) (staged : List Staged) (k : Nat) : Option Nat :=
  let b := streamBytes h k
  let on (x : Bytes) : Bool := bitAt x 0 0 && bitAt x 4 0
  let key (x : Bytes) : List Nat := [fld x 4 2 1, u64At x 8, byteAt x 0x10, u32At x 0x14]
  let is (k' : Nat) : Bool := staged.any (fun x => x.table == 2 && x.index == k')
  if on b && (List.range h.variant.svSubs).any (fun k' =>
      k' != k && on (streamBytes h k') && key (streamBytes h k') == key b && (decide (k' < k) || !is k')) then some 8 else none

def loopConflict (h : State) (i : Nat) : Option Nat :=
  let b := loopBytes h i
  let on (x : Nat) : Bool := isUserLoop x && bitAt (loopBytes h x) 0 0
  if on i && outSel b != 0 && (List.range 32).any (fun x => x != i && on x && outSel (loopBytes h x) == outSel b) then some 4 else none

def conflictOf (h : State) (staged : List Staged) (x : Staged) : Option Nat :=
  match x.table with
  | 0 => bayConflict h x.index
  | 1 => laneConflict h x.index
  | 2 => streamConflict h staged x.index
  | 5 => loopConflict h x.index
  | _ => none

/-- Staged entries that take part in a conflict, with the DETAIL of their refusal. -/
def conflicts (s : State) (a : SyncAcc) : Refused :=
  let h := { s with tbl := a.t }
  a.staged.filterMap (fun x => (conflictOf h a.staged x).map (fun o => ((x.table, x.index), St.range, o)))

/-! ### Admission (R539) -/

/-- Clusters an entry charges as it will be in force. -/
def charges (h : State) (x : Staged) : List Nat :=
  match x.table with
  | 0 => if bitAt x.bytes 0 0 then [clusterOf x.index] else []
  | 1 => if bitAt x.bytes 0 0 then [x.index / 64] else []
  | 3 => sectCharges h x.index
  | 6 => if bitAt x.bytes 0 0 then [clusterOf (x.index / 6)] else []
  | _ => []

/-- The first entry that admission refuses: entries are put in place one by one, a Bay Table entry with its blocks. -/
def admission (s : State) : List Staged → Option (Nat × Nat)
  | [] => none
  | x :: xs =>
    let put (s : State) (y : Staged) : State := setTbl (setTblEntry y.table y.index (fun e => { e with bytes := y.bytes })) s
    let s := put s x
    let h := if x.table == 0 then (xs.filter (fun y => y.table == 6 && y.index / 6 == x.index)).foldl put s else s
    if (charges h x).any (fun c => decide (costBudget < clusterCost h c)) then some (x.table, x.index) else admission h xs

/-- The check: passes over the range until no staged entry conflicts and every one is admitted; each pass refuses some. -/
def syncPasses (s : State) (j : SyncJob) : Nat → Refused → SyncAcc
  | 0, ex => decideAll s j ex
  | n + 1, ex =>
    let a := decideAll s j ex
    match conflicts s a with
    | x :: xs => syncPasses s j n (ex ++ x :: xs)
    | [] => match admission s a.staged with
      | some p => syncPasses s j n (ex ++ [(p, St.refused, Rsn.capacity)])
      | none => a

/-! ### Warnings (R2, R166, R188, R199, R236, R279, R299, R312, R402) -/

/-- A feeder's start stage is disabled, in the group that its ACT_GRP names. -/
def riWarning (h : State) (k : Nat) : Bool :=
  let b := sectionBytes h k
  riEn b && (maskList (sectMembers h k)).any (fun m =>
    !inMask (riInc b) m && !(bayEn h m && recEn (recBytes (tblEntry h.tbl 6 (6 * m + fld (bayBytes h m) 0x40 0 3)).bytes (riFstg b))))

def sourceAbsent (v : Variant) (d : Nat) : Bool :=
  (bitsOf d 0 3 == 2 && decide (v.bays ≤ bitsOf d 3 9)) || (bitsOf d 0 3 == 3 && decide (v.lanes ≤ bitsOf d 3 9))

def drawsWarning (h : State) (x : Staged) : Bool :=
  let b := x.bytes
  let beyond (o : Nat) : Bool := maskBeyond (u64At b o) (variantBays h.variant)
  let ch := chainSt h (x.index / 64)
  let key (o : Nat) : Bool := let m := fld b o 0 2; m != 0 && ((lineKey h m (fld b o 8 5)).isNone || (lineKey h m (fld b o 16 5)).isNone)
  bitAt b 0 0 &&
  match x.table with
  | 1 => (laneSrc h x.index == 1 && (server h (laneSlice h x.index)).isNone) ||
    (laneSrc h x.index == 2 && !laneStreamOk h x.index) || setEmpty ch 1 (stg1Set b) || setEmpty ch 3 (stg3Set b)
  | 2 => (bitAt b 4 0 && key 0x28) || (bitAt b 4 1 && key 0x98)
  | 3 => beyond 8 || beyond 0x10 || (vagEn b && beyond 0x18) || (b87En b && czEn b && (beyond 0x50 || beyond 0x58)) || (riEn b && beyond 0x68) || riWarning h x.index
  | 5 => isUserLoop x.index && (sourceAbsent h.variant (u32At b 8) || sourceAbsent h.variant (u32At b 0xC))
  | 6 => bitAt b 0x740 0 && u32At (bayBytes h (x.index / 6)) 0x14 == 0
  | _ => false

/-! ### The report and the end of the check (R64, R66) -/

def insertRep (x : SyncRep) : List SyncRep → List SyncRep
  | [] => [x]
  | y :: l => if x.table < y.table || (x.table == y.table && x.index ≤ y.index) then x :: y :: l else y :: insertRep x l

def repBytes (r : SyncRep) : Bytes := leBytes 8 (r.table + place r.status 8 8 + place r.index 16 16 + place r.detail 32 16)

/-- Whether a staged entry carries class D fields into force as it is staged: a Loop Table entry that stays enabled (R63, R408). -/
def classD (s : State) (x : Staged) : Bool := x.table == 5 && bitAt (loopBytes s x.index) 0 0 && bitAt x.bytes 0 0

/-- Class D fields of a staged Loop Table entry that stays enabled take effect as it is staged, all of an entry in one step: no update of
the loop falls between two of the writes (R63, R408; DESIGN CHOICE, log entry 60). -/
def applyClassD (x : Staged) (s : State) : State :=
  let old := loopBytes s x.index
  if classD s x then
    let new := patch (patch old 0x20 ((x.bytes.drop 0x20).take 0x16)) 0x40 ((x.bytes.drop 0x40).take 0x60)
    let s := setTbl (setTblEntry 5 x.index (fun e => { e with bytes := new })) s
    if isUserLoop x.index && s32At old 0x20 != s32At new 0x20 then setLoop x.index (fun y => { y with target := s32At new 0x20 }) s else s
  else s

/-- The result of a check. -/
def syncResult (s : State) (j : SyncJob) (a : SyncAcc) (room : Nat) : SyncDone :=
  let h := { s with tbl := a.t }
  let warned := a.staged.filter (drawsWarning h)
  let a := warned.foldl (fun a x => addRep x.table x.index St.ok 0 true a) a
  let reps := a.reps.foldr insertRep []
  let bad := reps.filter (fun r => !r.warning)
  let warn := reps.length - bad.length
  let out := reps.take (room / 8)
  { cmd := j.cmd
    status := match bad with | [] => St.ok | r :: _ => r.status
    detail := match bad with | [] => satN 16 warn | r :: _ => r.detail
    result := satN 16 a.staged.length + place (satN 16 bad.length) 16 16 + place (satN 16 warn) 32 16 + place (satN 16 (reps.length - out.length)) 48 16
    report := out.flatMap repBytes, any := !a.staged.isEmpty, applied := a.staged.any (classD s) }

def syncReply (d : SyncDone) (effect : Option Nat) : Reply :=
  { status := d.status, detail := d.detail, result := d.result, out := if d.report.isEmpty then none else some d.report, effect := effect }

/-- TBL_SYNC: the check of the range begins (R63, R64). -/
def execTblSync (c : Cmd) (s : State) : Out :=
  .next (command c (fun s => { modeBad := !s.mode.mode.configurable, used := [(0x14, 0, 6), (0x18, 0, 32)] }) (fun s =>
    .goesOn (setTbl (fun t =>
      { t with
        job := some { cmd := refOf c, mask := c.at_ 0x14 0 6, first := c.at_ 0x18 0 16, count := c.at_ 0x18 16 16, base := t.base }
        rebased := List.replicate 6 false }) (queuedEntry c s))) s)

/-- TBL_SYNC_CHECK_DONE (R63-R66): the check ends; its staged entries wait for the boundary. In RIDE-THROUGH and SAFE nothing is
staged any more (R64, R87). -/
def execTblSyncCheckDone (s : State) : Out :=
  .next (match s.tbl.job with
    | none => s
    | some j =>
      let s := setTbl (fun t => { t with job := none }) s
      let a := syncPasses s j 1400 []
      if !s.mode.mode.configurable then finishOpen j.cmd (Reply.refuse Rsn.mode) s
      else if !a.ok then finishOpen j.cmd (Reply.fail St.fault 3) s
      else
        let room := match openCmd s j.cmd with | some c => c.room | none => 0
        let d := syncResult s j a room
        let full := (a.reps.filter (fun r => r.status == St.refused && r.detail == Rsn.capacity)).length
        let s := (List.range full).foldl (fun s _ => bumpClass 0 ClassCount.refuse s) s
        if !d.any then finishOpen j.cmd (syncReply d none) s
        else a.staged.foldl (fun s x => applyClassD x s) (setTbl (fun t => { t with staged := a.staged, done := some d }) s))

/-! ### Staged entries take effect (R61, R64, R65) -/

/-- What a changed entry does in the unit it configures. -/
def entryChanged (was : State) (x : Staged) (old : Bytes) (s : State) : State :=
  let i := x.index
  let new := x.bytes
  match x.table with
  | 0 =>
    let s := plbBayChanged i old new s
    let s := if u32At old 0x8C != u32At new 0x8C || u32At old 0x90 != u32At new 0x90 then setRun i (fun r => { r with el := clampBkg new r.el }) s else s
    (List.range 6).foldl (fun s g =>
      if u64At old (0x48 + 8 * g) == u64At new (0x48 + 8 * g) || was.tbl.staged.any (fun y => y.table == 6 && y.index == 6 * i + g) then s
      else setTbl (setTblEntry 6 (6 * i + g) (fun e => { e with seqValid := false })) s) s
  | 1 =>
    let wake := fld new 4 0 2 == 1 && parked was (fld new 4 8 6)
    markLane i (chainMarks old new) (laneChanged i old new wake s)
  | 2 => gooseEntryChanged i old new (svEntryChanged i old new s)
  | 3 => let s := plbSectChanged i old new s; if bitAt old 0 0 != bitAt new 0 0 then resetSect i s else s
  | 4 => setRec (fun r => { r with tc := r.tc.mapIdx (fun b l => if b == i then l.mapIdx (fun c y => if tcBytes old c == tcBytes new c && bitAt old 0 0 == bitAt new 0 0 then y else { late := s.mode.mode.runs }) else l) }) s
  | 5 => loopEntryChanged i old new s
  | _ => if i % 6 == (bayProt s (i / 6)).group && bayEn s (i / 6) then groupContents (i / 6) true old s else s

/-- ACT_GRP of a staged Bay Table entry that differs from the cached one switches the group (R286). -/
def actGroup (x : Staged) (old : Bytes) (s : State) : State :=
  if x.table == 0 && fld old 0x40 0 3 != fld x.bytes 0x40 0 3 then applyGroup x.index (fld x.bytes 0x40 0 3) s else s

/-- All staged entries, at the boundary that opens the Milestone in progress. -/
def applyStaged (s : State) : State :=
  match s.tbl.done with
  | none => s
  | some d =>
    let was := s
    let put (t : TblSt) (x : Staged) : TblSt :=
      setTblEntry x.table x.index (fun e =>
        let read := fld x.bytes 0 8 8 != 0
        { bytes := x.bytes, seqValid := read && !t.rebased.getD x.table false, cached := read || e.cached, since := s.clk.ms }) t
    let s := setTbl (fun t => was.tbl.staged.foldl put { t with staged := [], done := none }) s
    let s := was.tbl.staged.foldl (fun s x => entryChanged was x (tblEntry was.tbl x.table x.index).bytes s) s
    let s := markDelays was s
    let s := if was.tbl.staged.any (fun x => x.table == 0) then resolvePins s.clk.openedAt s else s
    let s := was.tbl.staged.foldl (fun s x => actGroup x (tblEntry was.tbl x.table x.index).bytes s) s
    finishOpen d.cmd (syncReply d (some s.clk.ms)) s

/-! ### FILT.START (R241) -/

/-- FILT_START. -/
def execFiltStart (c : Cmd) (s : State) : Out :=
  .next (command c (filtJudge c [(0x14, 0, 1)]) (fun s =>
    let t12 := c.at_ 0x14 0 1 == 1
    if chainLatest s c.unit then .done (Reply.refuse Rsn.state) s
    else match startObstacle s sectionNames c.unit t12 with
      | some (x, cause) => .done { Reply.refuse Rsn.state with result := x + place cause 16 8 } s
      | none => .atBoundary 0 0 (.filtStart c.unit t12) s) s)

end Sys2Proof.Machine
end

