-- ==== Sys2Proof/Machine/SupvCount.lean ====
section
/-! DEFINITION. SUPV.COUNT (R543-R546). -/

namespace Sys2Proof.Machine

/-- The capacity part (R544). -/
def capacityBlock (s : State) : Bytes :=
  let v := s.supv
  let cost (c : Nat) : Nat := if c < s.variant.clusters then clusterCost s c else 0
  let costs := (List.range 8).map cost
  let err (e : Nat) : Nat := match v.open_[e]? with
    | some x => x.id + place x.sev 8 3 + place (flag x.nested) 11 1 + place (flag (e == 0 && !s.mode.supvRst)) 12 1 + place x.inst 16 16
    | none => 0
  leBytes 8 s.clk.ms ++ (costs.flatMap (leBytes 4)) ++ leBytes 4 costBudget ++ leBytes 4 (costs.foldl max 0) ++
  ((List.range 7).flatMap (fun k => let c := v.classes.getD k {}; leBytes 4 c.delayed ++ leBytes 4 c.refused ++ leBytes 4 c.dropped)) ++
  leBytes 4 (v.open_.length % 8 + place (flag (v.open_.length == 8)) 3 1 + place (min 7 v.depthMax) 4 3 + place (flag (overload s)) 7 1) ++
  leBytes 4 v.nested ++ leBytes 4 v.preempts ++ leBytes 4 v.handlerLost ++ ((List.range 8).flatMap (fun e => leBytes 4 (err e))) ++ zeros 76

/-- The source summary (R545). -/
def sourceSummary (s : State) : Bytes :=
  (List.range 23).flatMap (fun i =>
    let l := s.supv.insts.filter (fun f => f.id == i + 1 && f.lasting)
    let t := s.supv.totals.getD i {}
    leBytes 2 l.length ++ leBytes 2 (l.foldl (fun m f => min m f.inst) 0xFFFF) ++ leBytes 4 t.events ++ leBytes 4 t.lasting ++ leBytes 4 t.episodes)

/-- The section part: the last released cycle (R546). -/
def sectionPart (s : State) (k : Nat) : Bytes :=
  let r := s.prot.sectRel.getD k {}
  let b := sectionBytes s k
  let on := sectionEn s k
  let kir (p : Nat) : Chk := if kirEn b then r.kir.getD p {} else {}
  let vag : Chk := if vagEn b then r.vag else {}
  let cnt (c : Chk) : Nat := satN 16 c.win.length
  let counts (p : Nat) : Nat := cnt (r.kir.getD p {})
  let w0 := boolBits [(kir 0).exc, (kir 1).exc, (kir 2).exc, (kir 0).last, (kir 1).last, (kir 2).last, vag.exc, vag.last,
    (kir 0).susp || (kir 1).susp || (kir 2).susp || vag.susp]
  let if_ (n : Nat) : Nat := if on then n else 0
  leBytes 8 (if_ r.ms) ++ leBytes 8 (if_ r.conn) ++ leBytes 4 (if_ w0) ++ leBytes 2 (counts 0) ++ leBytes 2 (counts 1) ++ leBytes 2 (counts 2) ++
  leBytes 2 (cnt r.vag) ++ (if on then measured (mag r.agreed) else zeros 4) ++ leBytes 4 (if_ r.agreed.q) ++ zeros 4 ++ leBytes 8 (if_ r.disagree) ++
  ((List.range 3).flatMap (fun p => if on then measured (kir p).r else zeros 4)) ++ zeros 4

/-- The part that a UNIT of SUPV.COUNT names. -/
def supvPart (s : State) (unit : Nat) : Option Bytes :=
  if unit == 0 then some (capacityBlock s)
  else if unit == 1 then some (sourceSummary s)
  else if unit == 0x100 then some ((List.range 51).flatMap (sliceBlock s))
  else if 0x200 ≤ unit && unit ≤ 0x20F then some (sectionPart s (unit - 0x200))
  else none

/-- SUPV_COUNT (R543). -/
def execSupvCount (c : Cmd) (s : State) : Out :=
  .next (command c
    (fun s =>
      { absent := decide (0x200 ≤ c.unit) && decide (c.unit ≤ 0x20F) && decide (s.variant.sections ≤ c.unit - 0x200)
        range := [((supvPart s c.unit).isNone, 4)] })
    (fun s => .done { out := supvPart s c.unit } s) s)

end Sys2Proof.Machine
end

