-- ==== Sys2Proof/Machine/Modes.lean ====
section
/-! DEFINITION. Operating modes: the mode commands, the transitions at a Milestone boundary, the start and end of protection
(R58, R69-R72, R77-R79, R85-R90, R95, R597). -/

namespace Sys2Proof.Machine

/-! ### Mode changes (R597) -/

/-- The energy counters of every bay saved to MRAM (R270). -/
def saveEnergy (s : State) : State := setProt (fun p => { p with bays := p.bays.map (fun b => { b with energySaved := b.energy }) }) s

/-- A mode change at the boundary that opens the Milestone in progress: IRQ_STAT.MODE and one record, with the bit of the
cause for causes 3, 4 and 7; entry to RIDE-THROUGH or SAFE discards a partial image (R520), the former saves the energy counters. -/
def changeMode (m : Mode) (cause : Nat) (bit : Option Nat) (s : State) : State :=
  let old := s.mode.mode
  let s := setMode (fun x => { x with prev := old, mode := m, modeMs := s.clk.ms }) s
  let s := if m == .rideThrough || m == .safe then dropPartial s else s
  let s := if m == .rideThrough then saveEnergy s else s
  raiseIrq Irq.mode (postEvent Src.sys 3 0 (dCode old.code ++ dCode m.code ++ dCode cause ++ (match bit with | some b => dCode b | none => [])) s)

/-- The lowest bit of a mask of causes. -/
def lowestBit (x : Nat) : Nat := ((List.range 16).find? (fun i => inMask x i)).getD 0

/-! ### Start and end of protection (R77, R79, R243) -/

/-- Enabled bays that a warm start leaves cold. -/
def coldBays (s : State) : Nat :=
  ((List.range s.variant.bays).filter (fun b => bayEn s b && (let x := logicBay s b; !(x.lastBank == some x.act && (activeImage x).isSome)))).length

/-- Protection starts: every chain with a synchronising reset, every enabled bay, every section, the recordings. -/
def startProtection (warm : Bool) (s : State) : State :=
  let s := setFilt (fun x => { x with chains := x.chains.map (fun c => { c with running := true }) }) s
  let s := syncReset (fun _ => true) s
  let s := ((List.range s.variant.bays).filter (bayEn s)).foldl (fun s b => startBay warm b s) s
  let s := (List.range 16).foldl (fun s k => resetSect k s) s
  startRecording (setProt (fun p => { p with staged := [], inCycle := false, sectRel := p.sects }) s)

/-- Chains that stand still start with a synchronising reset of their cluster (R243). -/
def startStopped (s : State) : State :=
  (List.range s.variant.clusters).foldl (fun s c => let ch := chainSt s c; if ch.running then s else startChain c ch.t12 s) s

/-- Protection ends: cycles stop, pins are driven low, open records close (R79), GOOSE publications stop (R220). -/
def stopProtection (s : State) : State :=
  stopGoosePubs (pinsLow (stopRegions 2 (setProt (fun p =>
    { p with staged := [], inCycle := false, bays := p.bays.map (fun b => { b with cur := { b.cur with ran := false }, rel := { b.rel with ran := false }, replay := none }) }) s)))

/-- Entry to SAFE: the behaviours in force are kept (R82). -/
def enterSafe (bit : Nat) (s : State) : State :=
  let l := (List.range 64).map (effBeh s)
  let s := abortTest .safe (setMode (fun m => { m with safeBeh := l, safePend := none }) s)
  changeMode .safe 7 (some bit) s

/-! ### SYS.MODE (R69, R77-R79) -/

def sysModeJudge (c : Cmd) (_ : State) : Judge :=
  let t := c.at_ 0x14 0 4
  { used := [(0x14, 0, 5)], range := [(t < 2 || 4 < t, 0x14)] }

/-- An enabled bay out of service, or a SAFE cause held (R77). -/
def startBarred (s : State) : Bool :=
  (List.range s.variant.bays).any (fun b => bayEn s b && !bayOk s b) || s.mode.safe != 0

def targetMode (t : Nat) : Mode := if t == 2 then .configure else if t == 3 then .commission else .service

def sysModeAct (c : Cmd) (s : State) : Action :=
  let t := targetMode (c.at_ 0x14 0 4)
  let go := Action.atBoundary 0 0 (.sysMode t (c.at_ 0x14 4 1 == 1)) s
  let no := Action.done (Reply.refuse Rsn.state) s
  match s.mode.mode, t with
  | .configure, .configure => no
  | .configure, _ => if startBarred s then no else go
  | .commission, .service => go
  | .degraded, .service => .done { result := 6 } s
  | .commission, .configure => if anyTrip s then no else go
  | .service, .configure => if anyTrip s then no else go
  | .degraded, .configure => if anyTrip s then no else go
  | _, _ => no

/-- SYS_MODE. -/
def execSysMode (c : Cmd) (s : State) : Out := .next (command c (sysModeJudge c) (sysModeAct c) s)

/-- An accepted SYS.MODE takes effect; answers the DETAIL and RESULT of its completion. Publications send their first frame as the mode
is entered (R220). -/
def applySysMode (t : Mode) (warm : Bool) (s : State) : State × Nat × Nat :=
  let old := s.mode.mode
  let t := if t == .service && s.mode.deg != 0 then Mode.degraded else t
  let cold := if old == .configure && warm then coldBays s else 0
  let s := abortTest t s
  let s := changeMode t 1 none s
  let s := if t == .configure then stopProtection s
    else if old == .configure then evalGoosePubs (fun _ => false) (startProtection warm s)
    else if old == .commission then startStopped s
    else s
  (s, cold, t.code)

/-! ### Transitions at a boundary (R69-R72, R85, R86) -/

/-- The automatic transition that falls on the boundary: target, cause and bit. The record has room for one cause bit: of several SAFE causes
it is the one raised first, of several DEGRADED causes the lowest (DESIGN CHOICE, log entry 52). -/
def autoTransition (s : State) : Option (Mode × Nat × Option Nat) :=
  let m := s.mode.mode
  match s.mode.safePend with
  | some b => if m.runs && m != .safe then some (.safe, 7, some b) else none
  | none =>
    if s.pwr.ridePend && (m == .service || m == .degraded) then some (.rideThrough, 5, none)
    else if m == .rideThrough then
      (if s.pwr.backPend then some (if s.mode.deg == 0 then .service else .degraded, 6, none) else none)
    else if m == .service && s.mode.deg != 0 then some (.degraded, 3, some (lowestBit s.mode.deg.toNat))
    else if m == .degraded && s.mode.deg == 0 then some (.service, 4, some DegCause.portLost)
    else none

/-- A pending SYS.MODE, if any. -/
def pendingMode (s : State) : Option PendAct := s.acts.find? (fun a => match a.act with | .sysMode _ _ => true | _ => false)

/-- The completion of a pending action at the boundary that opens the Milestone in progress. -/
def finishAct (a : PendAct) (r : Reply) (s : State) : State := if a.quiet then s else finishOpen a.cmd r s

/-- A pending SYS.MODE takes effect; a start of protection that a SAFE cause raised since it was accepted bars is refused (R77, R89). -/
def modeAct (a : PendAct) (s : State) : State :=
  match a.act with
  | .sysMode t warm =>
    if s.mode.mode == Mode.configure && t != Mode.configure && startBarred s then finishAct a (Reply.refuse Rsn.state) s
    else let (s, d, x) := applySysMode t warm s; finishAct a { detail := d, result := x, effect := some s.clk.ms } s
  | _ => s

/-- An automatic transition (R69-R72). -/
def takeTransition (m : Mode) (cause : Nat) (bit : Option Nat) (s : State) : State :=
  if m == Mode.safe then enterSafe (bit.getD 0) s else changeMode m cause bit (abortTest m s)

/-- The mode at the boundary: an automatic transition goes before a pending SYS.MODE but for a return to SERVICE, which yields
to it (R70). -/
def modeBoundary (s : State) : State :=
  let p := pendingMode s
  let s := { s with acts := s.acts.filter (fun a => match a.act with | .sysMode _ _ => false | _ => true) }
  let s := match autoTransition s, p with
    | some (m, cause, bit), some a =>
      if m == Mode.service && cause == 4 then modeAct a s else finishAct a (Reply.refuse Rsn.mode) (takeTransition m cause bit s)
    | some (m, cause, bit), none => takeTransition m cause bit s
    | none, some a => modeAct a s
    | none, none => s
  { s with pwr := { s.pwr with ridePend := false } }

/-! ### SYS.STATUS, SYS.CAPS, SYS.RESTART -/

/-- The 128 bytes of SYS.STATUS (R95). -/
def sysStatusBlock (s : State) : Bytes :=
  let m := s.mode
  leBytes 4 (m.mode.code + place m.prev.code 4 4 + place m.bootCode.toNat 8 8 + place m.resetSrc 16 8 + place s.sec.active 24 1 + place (flag m.fallback) 25 1) ++
  leBytes 2 m.deg.toNat ++ leBytes 2 m.safe.toNat ++ leBytes 8 m.modeMs ++ leBytes 4 m.warmRestarts ++ leBytes 4 m.supvRestarts ++
  leBytes 8 (maskOf 64 (fun b => override s b != 0)) ++
  ((List.range 32).flatMap (fun i => leBytes 1 (effBeh s (2 * i) + place (effBeh s (2 * i + 1)) 4 4))) ++
  leBytes 8 (maskOf 64 (fun b => m.fsActive.getD b false)) ++ zeros 56

/-- SYS_STATUS. -/
def execSysStatus (c : Cmd) (s : State) : Out := .next (command c (fun _ => {}) (fun s => .done { out := some (sysStatusBlock s) } s) s)

def stbyNibble : StbyState → Nat
  | .absent => 0 | .ready => 1 | .inUse k => 2 + place k.toNat 2 1 | .retired => 3

/-- An active cluster that the variant has and that is in service itself: one that its standby replaces is isolated (R28). -/
def clusterItself (s : State) (c : Nat) : Bool :=
  decide (c < s.variant.clusters) && (match s.mode.clusters.getD c .outOfService with | .active => true | _ => false)

/-- The 256 bytes of SYS.CAPS (R58). -/
def sysCapsBlock (s : State) : Bytes :=
  let v := s.variant
  let ps := s.net.portSet
  let port (p : Nat) : Nat :=
    if !psEn ps p then flag (netPort s p).link
    else flag (netPort s p).link + place (flag (decide (p < 2) && bitAt ps 0 2)) 1 1 + place (psMode ps (p / 2)) 2 2
  let ones (n total : Nat) : Bytes := leBytes total (2 ^ n - 1)
  leBytes 4 (devCaps0 v) ++ leBytes 4 (devCaps1 v) ++ leBytes 4 (devCaps2 v) ++ leBytes 4 (devCaps3 s) ++
  leBytes 8 (maskOf 64 (bayOk s)) ++ leBytes 2 (maskOf 8 (clusterItself s)) ++
  leBytes 2 ((List.range v.standbys).foldl (fun a r => a + place (stbyNibble (s.mode.standbys.getD r .absent)) (4 * r) 4) 0) ++ zeros 4 ++
  leBytes 8 (maskOf 51 (fun x => !(sliceSt s x).retired)) ++ leBytes 8 (maskOf 48 (fun x => (calGroup s (x / 16)).bound == some x)) ++
  ((List.range 4).flatMap (fun p => leBytes 1 (port p))) ++ leBytes 4 (maskOf 32 (fun i => !loopAbsent v i)) ++ ones v.sections 2 ++ zeros 6 ++
  ones v.svSubs 32 ++ ones v.goosePubs 8 ++ ones v.gooseSubs 32 ++ zeros 120

/-- SYS_CAPS. -/
def execSysCaps (c : Cmd) (s : State) : Out := .next (command c (fun _ => {}) (fun s => .done { out := some (sysCapsBlock s) } s) s)

def restartJudge (c : Cmd) (_ : State) : Judge := { used := [(0x14, 0, 2)], range := [(!(c.at_ 0x14 0 2 == 1 || c.at_ 0x14 0 2 == 2), 0x14)] }

/-- SYS.RESTART: accepted, with fetching stopped once its completion has been written (R90). -/
def restartAct (c : Cmd) (s : State) : Action :=
  let cold := c.at_ 0x14 0 2 == 2
  if cold && anyTrip s then .done (Reply.refuse Rsn.state) s
  else
    .done { effect := some (nextMs s) }
      { s with mode := { s.mode with restart := some { src := if cold then 3 else 5, cmd := some (refOf c) } }, host := { s.host with fetchStop := true } }

/-- SYS_RESTART_WARM and SYS_RESTART_COLD: the two KINDs of one command. -/
def execSysRestartWarm (c : Cmd) (s : State) : Out := .next (command c (restartJudge c) (restartAct c) s)
def execSysRestartCold (c : Cmd) (s : State) : Out := .next (command c (restartJudge c) (restartAct c) s)

end Sys2Proof.Machine
end

