-- ==== Sys2Proof/Machine/Takeover.lean ====
section
/-! DEFINITION. Failures of clusters and standbys, the takeover, and the release of a protection cycle at the boundary that ends
its Milestone (R22, R23, R27-R29, R34, R88, R389-R392). -/

namespace Sys2Proof.Machine

/-! ### The standby's part -/

/-- A standby that can take a role now: ready, and not parked or coming back from parking (R28, R433, R434). -/
def standbyReady (s : State) (r : Nat) : Bool :=
  s.mode.standbys.getD r .absent == .ready && !s.mode.parked.getD r false && !s.mode.unparking.getD r false

/-- Clusters that serve: protection can fail in them. -/
def servesCluster (s : State) (c : Nat) : Bool := clusterOk s c && !(s.mode.mode == .boot || s.mode.mode == .backup)

/-- The cluster is isolated and its standby holds its role (R28). -/
def isolate (c : Nat) (s : State) : State :=
  raiseDeg DegCause.stbyInUse (setMode (fun m => { m with clusters := modAt m.clusters c (fun _ => .covered) }) s)

/-- A cluster left without cover (R29): SAFE, and its enabled bays by their fail-safe policy (R88). -/
def loseCover (c : Nat) (s : State) : State :=
  let run := s.mode.mode.runs
  raiseSafe SafeCause.uncovered (setMode (fun m =>
    { m with
      clusters := modAt m.clusters c (fun _ => .uncovered), tko := modAt m.tko c (fun _ => .none)
      fsActive := m.fsActive.mapIdx (fun b x => x || (run && b / 8 == c && bayEn s b)) }) s)

/-! ### The judgement at the boundary that ends a Milestone -/

/-- Clusters whose takeover starts, clusters just left without cover, and the mismatch records due: cluster, kind, Milestone. -/
structure TkoPass where
  starting : List Nat := []
  lost : List Nat := []
  recs : List (Nat × Nat × Nat) := []
  deriving DecidableEq, Repr

/-- One cluster, in cluster order: the lower-numbered of two that fail in one cycle gets the standby (R28, R29, R392). -/
def judgeCluster (a : State × TkoPass) (c : Nat) : State × TkoPass :=
  let (s, p) := a
  match s.mode.tko.getD c .none with
  | .failed kind ms =>
    let p := { p with recs := p.recs ++ [(c, kind, ms)] }
    if standbyReady s (c / 2) then
      (setMode (fun m =>
        { m with standbys := modAt m.standbys (c / 2) (fun _ => .inUse (BitVec.ofNat 1 (c % 2))), tko := modAt m.tko c (fun _ => .replaying ms) }) s,
       { p with starting := p.starting ++ [c] })
    else (loseCover c s, { p with lost := p.lost ++ [c] })
  | .lost kind _ => (loseCover c s, { p with lost := p.lost ++ [c], recs := p.recs ++ [(c, kind, s.clk.ms)] })
  | _ => (s, p)

def judgeClusters (s : State) : State × TkoPass := (List.range 8).foldl judgeCluster (s, {})

/-- Clusters whose standby has replayed a cycle and releases the next one now. -/
def finishing (s : State) (p : TkoPass) : List Nat :=
  (List.range 8).filter (fun c => !p.starting.contains c && match s.mode.tko.getD c .none with | .replaying _ => true | _ => false)

/-! ### Records in the order of R390 -/

/-- Keys of staged items of cluster c: its bays, then the sections with their home there; 32 up, the same of a cycle to replay. -/
def itemsOf (k : Nat) (s : State) : List StagedItem := (s.prot.staged.filter (fun x => x.1 == k)).map (·.2)

def runItems (replay : Bool) (k : Nat) (s : State) : State := (itemsOf k s).foldl (fun s i => runStaged replay i s) s

/-- The takeover record of a cluster and the events of its replayed cycle. -/
def releaseReplay (s : State) (c : Nat) : State :=
  match s.mode.tko.getD c .none with
  | .replaying ms => runItems true (40 + c) (runItems true (32 + c) (postCycle Src.supv 2 c (dUnit (c / 2) ++ dMs ms) s))
  | _ => s

/-- Items that stay for a replay: those of the clusters whose takeover starts. -/
def keepItems (p : TkoPass) (l : List (Nat × StagedItem)) : List (Nat × StagedItem) :=
  (l.filter (fun x => decide (x.1 < 16) && p.starting.contains (x.1 % 8))).map (fun x => (x.1 + 32, x.2))

/-- Records of the released cycle: replays, clusters in order, then lockstep mismatches. -/
def releaseItems (p : TkoPass) (fin : List Nat) (s : State) : State :=
  let s := fin.foldl releaseReplay s
  let s := (List.range 8).foldl (fun s c => if p.starting.contains c || p.lost.contains c then s else runItems false (8 + c) (runItems false c s)) s
  let s := setProt (fun x => { x with staged := keepItems p x.staged }) s
  p.recs.foldl (fun s r => postCycle Src.supv 1 r.1 (dMs r.2.2 ++ dCode r.2.1) s) s

/-! ### The release -/

/-- What a cluster that starts its takeover keeps of the cycle to replay: BAY_TRIP and the image before it (R364, R389). -/
def keepReplay (b : Nat) (s : State) : State :=
  logicTakeover b s.clk.ms (setBay b (fun x => { x with replay := some { trip := x.cur.el.bayTrip, out := x.logic.rel, tai := s.clk.msTai } }) s)

/-- A takeover is over once its first cycle has been released. -/
def endTakeover (s : State) (c : Nat) : State :=
  (List.range 8).foldl (fun s k => setBay (8 * c + k) (fun x => { x with replay := none }) s) (setMode (fun m => { m with tko := modAt m.tko c (fun _ => .none) }) s)

/-- Outputs of the cycle that ends: bays, sections, publications and pins (R21, R28, R34, R378, R389). -/
def releaseOutputs (p : TkoPass) (s : State) : State :=
  let held (c : Nat) : Bool := p.starting.contains c
  let s := takeSeal held s
  let s := if s.prot.inCycle then releaseSects (fun c => held c || p.lost.contains c) ((runningBays s).foldl (fun s b => if held (clusterOf b) then s else releaseBay b s) s) else s
  let s := evalGoosePubs held s
  if s.mode.mode.runs then pinsBoundary held (endOfMs s) s else s

/-- The checkpoint of the cycle that ends is sealed for each cluster that has passed its compare and whose standby holds one (R25). -/
def sealCkpts (p : TkoPass) (s : State) : State :=
  (List.range 8).foldl (fun s c =>
    let seals := servesCluster s c && standbyReady s (c / 2) && !p.starting.contains c && !p.lost.contains c
    setCkpt c (fun _ => if seals then some (ckptNow s c) else none) s) s

/-- The boundary that ends a Milestone, before the next one opens; answers the clusters whose outputs are withheld and the bays
with a new locator result. -/
def releaseCycle (s : State) : State × TkoPass × List Bool :=
  let (s, p) := judgeClusters s
  let fin := finishing s p
  let s := fin.foldl (fun s c => isolate c s) s
  let newFl := (List.range 64).map (newLocator s)
  let s := releaseItems p fin (releaseOutputs p s)
  let s := p.starting.foldl replayCluster s
  let s := (runningBays s).foldl (fun s b => if p.starting.contains (clusterOf b) then keepReplay b s else s) s
  let s := fin.foldl endTakeover s
  (sealCkpts p (setProt (fun x => { x with inCycle := false }) s), p, newFl)

/-! ### Rows -/

/-- The halves of a cluster, or of the standby that holds its role, disagree in the cycle in progress (R22). -/
def lockstepMismatch (c : Nat) (s : State) : State :=
  if servesCluster s c then settle (countEvent 1 c (failCluster c 1 s)) else s

/-- LOCKSTEP_MISMATCH (R22). -/
def execLockstepMismatch (c : BitVec 3) (s : State) : Out := .next (lockstepMismatch c.toNat s)

/-- Clusters of monitored sources 2 and 5: 0-7 active, 8-11 the standbys of regions 0-3. -/
def standbyServes (s : State) (r : Nat) : Bool :=
  decide (r < s.variant.standbys) && !(s.mode.mode == .boot || s.mode.mode == .backup) &&
  match s.mode.standbys.getD r .absent with | .ready => !s.mode.parked.getD r false | .inUse _ => true | _ => false

/-- A standby's fault, of kind 1 mismatch or 2 uncorrectable SRAM error, under its source: a ready standby is retired, with the
mismatch record that R532 expects for ID 4; one in use leaves its cluster without cover (R27, R392). -/
def standbyFault (id r kind : Nat) (s : State) : State :=
  let ready := s.mode.standbys.getD r .absent == .ready
  let s := countEvent id (8 + r) (failStandby r kind s)
  settle (if ready then postEvent Src.supv 1 (8 + r) (dMs s.clk.ms ++ dCode kind) s else s)

/-- A corrected SRAM error of a cluster is counted (R23, R530). -/
def eccCorrected (u : Nat) (s : State) : State :=
  if (decide (u < 8) && servesCluster s u) || (decide (8 ≤ u) && standbyServes s (u - 8)) then settle (countEvent 5 u s) else s

/-- SRAM_ECC_CORRECTED (R23, R530). -/
def execSramEccCorrected (u : BitVec 4) (s : State) : Out := .next (eccCorrected u.toNat s)

/-- An uncorrectable SRAM error acts as a lockstep mismatch, in a standby as a self-test mismatch (R23, R530). -/
def eccUncorrectable (u : Nat) (s : State) : State :=
  if decide (u < 8) && servesCluster s u then settle (countEvent 2 u (failCluster u 2 s))
  else if decide (8 ≤ u) && standbyServes s (u - 8) then standbyFault 2 (u - 8) 2 s
  else s

/-- SRAM_ECC_UNCORRECTABLE (R23, R530). -/
def execSramEccUncorrectable (u : BitVec 4) (s : State) : Out := .next (eccUncorrectable u.toNat s)

/-- STANDBY_TAKEOVER (R28): the standby that took a cluster's checkpoint at the last boundary has replayed the cycle; the cluster is
isolated. The boundary that ends the Milestone does this too and releases the outputs. -/
def execStandbyTakeover (c : BitVec 3) (s : State) : Out :=
  .next (match s.mode.tko.getD c.toNat .none with
    | .replaying _ => isolate c.toNat s
    | _ => s)

/-- STANDBY_REPLAY_MISMATCH (R392): the standby of a region that holds a role, in its takeover or after it, disagrees. -/
def execStandbyReplayMismatch (r : BitVec 2) (s : State) : Out :=
  .next (match s.mode.standbys.getD r.toNat .absent with
    | .inUse k => settle (countEvent 1 (2 * r.toNat + k.toNat) (failStandby r.toNat 1 s))
    | _ => s)

/-- A ready standby's halves disagree; a parked one runs no self-test (R27, R433). -/
def selftestMismatch (r : Nat) (s : State) : State :=
  if s.mode.standbys.getD r .absent == .ready && standbyServes s r then standbyFault 4 r 1 s else s

/-- STANDBY_SELFTEST_MISMATCH (R27). -/
def execStandbySelftestMismatch (r : BitVec 2) (s : State) : Out := .next (selftestMismatch r.toNat s)

end Sys2Proof.Machine
end

