-- ==== Sys2Proof/Machine/Restart.lean ====
section
/-! DEFINITION. Resets, the boot steps and the restarts of the supervisor (R57, R73-R76, R90-R94). -/

namespace Sys2Proof.Machine

def setPwr (f : PowerSt → PowerSt) (s : State) : State := { s with pwr := f s.pwr }
def setHost (f : HostIf → HostIf) (s : State) : State := { s with host := f s.host }

/-- An unlocked session ends: 0 LOCK, 1 idle, 2 break, 3 restart (R553, R566). -/
def endSession (cause : Nat) (s : State) : State :=
  let s' := setSvc (fun x => { x with unlocked := false, nonce := none, confirmTo := none }) s
  if s.svc.unlocked then svcRecord 6 0 (dCode cause) s' else s'

/-! ### What a reset into BOOT leaves (Table: Reset effects) -/

/-- The time base: the monotonic count restarts with a power-on or brown-out reset only (R124). -/
def resetClock (src : Nat) (k : Clock) : Clock := if src ≤ 1 then {} else { k with sclk := false }

/-- Time state: FREE after a power-on or brown-out, else LOCKED becomes HOLDOVER; TIME.SOURCE is to come anew (R125, R129). What is counted
since boot begins at 0 (R148). -/
def resetTime (src : Nat) (s : State) : TimeSt :=
  let t := s.time
  if src ≤ 1 then { rtcSec := rtcNow s, counterOk := t.counterOk, stepCnt := if src == 0 then 0 else t.stepCnt }
  else
    { utcOfs := t.utcOfs, utcValid := t.utcValid, stepCnt := t.stepCnt, counterOk := t.counterOk, clockFailure := t.clockFailure
      rtcSec := t.rtcSec, rtcAt := t.rtcAt, bound := if t.state == .locked then t.lockedBound else t.bound, lockedBound := t.lockedBound
      lockedTo := t.lockedTo, state := if t.state == .locked then .holdover else t.state, fellBack := t.state == .locked }

/-- The supply across a reset: a power-on clears the latched flags; every other source leaves the rails and loops running. -/
def resetPower (src mono : Nat) (p : PowerSt) : PowerSt :=
  if src == 0 then { pfault := p.pfault, vbatLow := p.vbatLow }
  else if src == 1 then
    { p with minAt := 0, boTimes := p.boTimes.map (· - (mono : Int)), lostAt := p.lostAt - (mono : Int), goodAt := p.goodAt - (mono : Int) }
  else p

/-- The log: a power-on restarts the counts "since power-on" and finds no queue; an EVT.CLEAR in the queue is gone with its command. -/
def resetLog (src ms : Nat) (l : LogSt) : LogSt :=
  let l := l.timeRecs.foldl (fun l e => enqueue ms e l) { l with timeRecs := [] }
  let l := { l with queue := if src == 0 then [] else l.queue.filter (fun e => e.clear.isNone) }
  if src == 0 then { l with wm := 256, overflow := none, lostTotal := 0, ovfRecords := 0, clearDenied := 0, chainBreaks := 0, overwrittenUnread := 0 }
  else l

/-- Keys, tamper monitor and images stay; commands in progress on them are gone. -/
def resetSec (src mono : Nat) (x : SecSt) : SecSt :=
  let x := { x with verify := none, commit := false }
  let x := if src ≤ 1 then { x with tnotBefore := x.tnotBefore.map (· - mono), bfTimes := [], authRecAt := none } else x
  if src == 0 then { x with authFails := 0, authSince := 0 } else x

/-- Energy counters survive restarts; after a loss of power they are those saved to MRAM (R270). -/
def resetProt (src : Nat) (p : ProtSt) : ProtSt :=
  { bays := p.bays.map (fun b => let e := if src ≤ 1 then b.energySaved else b.energy
                                 { energy := e, energySaved := b.energySaved, energyRel := e }) }

/-- Inputs at the pins keep their level; outputs are high impedance (R40, R91). -/
def resetTrip (t : TripSt) : TripSt :=
  { trb := t.trb, bi := t.bi.map (fun x => { raw := x.raw, accepted := x.raw }), snap := t.bi.map (·.raw), driven := false }

/-- Bytes that power-up and the ECC initialisation of the first 64 MiB of DDR4 leave (log entry 30). -/
def resetMem (src : Nat) (m : Mems) : Mems :=
  if src == 0 then { host := m.host } else { m with ddr := m.ddr.filter (fun c => decide (2 ^ 26 ≤ c.1)) }

/-- A reset into BOOT, before step 0x01: the source's code is that of Table: Reset effects. -/
def resetDevice (src : Nat) (s0 : State) : State :=
  let s := endSession 3 s0
  let m := s.clk.mono
  { variant := s.variant, pending := s.pending, clk := resetClock src s.clk, mem := resetMem src s.mem
    aux := { convAt := (resetClock src s.clk).mono, convEnd := (resetClock src s.clk).mono + usU 4 }
    host := { pcieLink := s.host.pcieLink && src != 0, perst := s.host.perst }
    mode := { mode := .boot, prev := s.mode.mode, resetSrc := src, safe := s.mode.safe &&& 0b00100
              standbys := (List.range 4).map (fun r => if r < s.variant.standbys then .ready else .absent)
              parked := if src == 0 then List.replicate 4 false else s.mode.parked }
    pwr := resetPower src m s.pwr
    rec_ := { cwIgnore := if src ≤ 1 then s.rec_.cwIgnore.map (· - m) else s.rec_.cwIgnore, shed := src != 0 && s.pwr.shed2 }
    loops := { device := if src == 0 then List.replicate 10 0 else (s.loops.device.take 8) ++ [0, 0] }
    prot := resetProt src s.prot, trip := resetTrip s.trip
    svc := { recovery := s.svc.recovery, nonces := s.svc.nonces }
    grid := { refclkGood := s.grid.refclkGood, cwClkGood := s.grid.cwClkGood }
    time := resetTime src s
    net := { ports := s.net.ports.map (fun p => { link := p.link }) }
    log := resetLog src s.clk.ms s.log, sec := resetSec src m s.sec, out := s.out }

/-! ### Boot steps (Table: Boot steps, Table: Boot failures) -/

/-- A fatal failure holds the device in BOOT (R75). -/
def bootFatal (code : Nat) (s : State) : State := setMode (fun m => { m with bootCode := BitVec.ofNat 8 code, fatal := true }) s

/-- The image that a slot holds verifies (R74, R521): one that FW.LOAD has brought is checked here, of the one it left the factory with
only the finding of the check is known (log entry 30). -/
def slotValid (v : Variant) (x : SecSt) (i : Nat) (found : Bool) : Bool :=
  let f := x.fw.getD i {}
  found && (f.image.isEmpty || (imageFault v x.minSvn f.image).isNone)

/-- The slot that boots, and whether it is the fallback (R74). -/
def bootSlot (v : Variant) (r : BootReport) (x : SecSt) : Option (Nat × Bool) :=
  let ok (i : Nat) : Bool := slotValid v x i (r.slots.getD i false)
  if ok x.active then some (x.active, false) else if ok (1 - x.active) then some (1 - x.active, true) else none

/-- Step 0x02: what the backup domain finds (R440, R525). -/
def bootBackup (r : BootReport) (s : State) : State :=
  let s := if r.contentsLost then
      vbatKeysLost (setLog (fun l => { l with pwrCycles := l.pwrCopy, opMin := l.opCopy })
        (setPwr (fun p => { p with vbatLost := true, pfault := 0 }) (setTime (fun t => { t with rtcSec := 0, rtcAt := s.clk.mono }) s)))
    else match r.rtc with | some x => setTime (fun t => { t with rtcSec := x % 2 ^ 48, rtcAt := s.clk.mono }) s | none => s
  if s.sec.l2 then raiseSafe SafeCause.tamper s else s

/-- Step 0x06 for one cluster that fails: its standby takes the role from the start where it can (R75). -/
def bootCluster (s : State) (c : Nat) : State :=
  if s.variant.clusters ≤ c then s
  else if standbyReady s (c / 2) then
    isolate c (setMode (fun m => { m with standbys := modAt m.standbys (c / 2) (fun _ => .inUse (BitVec.ofNat 1 (c % 2))) }) s)
  else setMode (fun m => { m with clusters := modAt m.clusters c (fun _ => .outOfService) }) s

def bootStandby (s : State) (r : Nat) : State := if s.variant.standbys ≤ r then s else failStandby r 1 s

def bootUnits (r : BootReport) (s : State) : State :=
  ((List.range 8).filter (r.clusters.contains ·)).foldl bootCluster (((List.range 4).filter (r.standbys.contains ·)).foldl bootStandby s)

/-- Step 0x07: SCLK starts at 4800 Hz with Milestone 0; the time counter starts, seeded from the RTC after a power-on or brown-out
(R76, R97, R125); the PLLs lock to CW_CLK where the clock monitor finds it valid, else to REFCLK (R116). -/
def bootClocks (r : BootReport) (s : State) : State :=
  let seed := s.mode.resetSrc ≤ 1
  let s := setClk (fun k =>
    let ofs : Int := if seed then ((rtcNow s * secU 1 : Nat) : Int) - (k.mono : Int) else k.taiOfs
    let k := { k with taiOfs := ofs, ms := 0, openedAt := k.mono, len := 1875000 * 2 ^ 32, sclk := true }
    { k with msTai := k.taiU }) s
  setGrid (fun g => { g with pllCw := r.cwClk, cwClkGood := r.cwClk, refclkGood := r.refclk }) (setProt (fun p => { p with lens := [s.clk.len] }) s)

/-- The time changes that a reset has made or that boot has found, with their records (R125, R149). -/
def bootTime (s : State) : State :=
  let s := if s.time.fellBack then timeEvent 1 0 [] (setTime (fun t => { t with fellBack := false }) s) else s
  if clockFailed s == s.time.clockFailure then s else timeEvent 6 0 [] (setTime (fun t => { t with clockFailure := clockFailed s }) s)

/-- Step 0x09: the power-up or restart record first, then what the earlier steps found (R92, R442). -/
def bootRecords (r : BootReport) (fallback : Bool) (s : State) : State :=
  let s := if s.mode.resetSrc == 0 then
      let n := satN 32 (s.log.pwrCycles + 1)
      postEvent Src.sys 1 0 [] (setLog (fun l => { l with pwrCycles := n, pwrCopy := n, opCopy := l.opMin }) s)
    else postEvent Src.sys 2 0 (dCode s.mode.resetSrc) s
  let s := if fallback then postEvent Src.sys 4 0 [] s else s
  let s := if r.contentsLost then raiseIrq Irq.power (postEvent Src.power 10 0 [] s) else s
  let s := bootTime (tamperBootRecords s)
  match s.svc.recovery with
  | some (v, n) => svcRecord 5 0 (leBytes 2 v ++ leBytes 1 n) (setSvc (fun x => { x with recovery := none }) s)
  | none => s

/-- Boot steps 0x01 to 0x09 with what they find; a fatal failure ends them. -/
def bootSteps (r : BootReport) (s : State) : State :=
  if !r.selfTest then bootFatal 0xE1 s
  else
    let s := bootBackup r s
    match bootSlot s.variant r s.sec with
    | none => bootFatal 0xE2 s
    | some (i, fb) =>
      let s := setMode (fun m => { m with fallback := fb }) (setSec (fun x => { x with active := i }) s)
      if !r.ddr then bootFatal 0xE3 s
      else
        let s := bootUnits r s
        if !r.pll then bootFatal 0xE5 s
        else
          let s := bootClocks r s
          if !r.mram then bootFatal 0xE4 s
          else
            let s := bootCalibrate r.slices (bootRecords r fb s)
            setMode (fun m => { m with bootCode := 9 }) s

/-- BOOT waits before step 0x01: nothing has failed, and no rail is awaited. -/
def bootWaits (s : State) : Bool := s.mode.mode == .boot && s.mode.bootCode == 0 && !s.mode.fatal && !s.pwr.waitRails

/-! ### A pending restart (R90, R557) -/

/-- The completion of the SYS.RESTART that asked has been written. -/
def restartDue (s : State) : Bool :=
  match s.mode.restart with
  | none => false
  | some x => match x.cmd with
    | none => true
    | some r => !s.host.held.any (fun c => c.ring == r.ring && c.slot == r.slot && c.tag == r.tag && c.final)

/-! ### The supervisor core restarts (R57, R93, R94) -/

/-- References of commands whose action goes on without the supervisor: injection, trace, self-test, halts of DMA channels, a TBL.SYNC of
which class D fields have taken effect (log entry 35). -/
def ongoing (s : State) : List CmdRef :=
  (match s.loops.inj with | some x => [x.cmd] | none => []) ++ (match s.loops.trace with | some x => [x.cmd] | none => []) ++
  (match s.svc.test with | some t => t.cmd.toList | none => []) ++ s.dma.halts.map (·.1) ++
  (match s.tbl.done with | some d => [d.cmd] | none => [])

/-- Commands that have not been applied change nothing: all that waits for them is withdrawn (R57). -/
def dropWork (s : State) : State :=
  let s := setTbl (fun t =>
    let keep := t.done.any (·.applied)
    { t with job := none, staged := if keep then t.staged else [], done := if keep then t.done else none }) { s with acts := [] }
  let s := setLoops (fun l => { l with loops := l.loops.map (fun x => { x with req := x.req.filter (fun q => q.1.isNone) }) }) s
  let s := setGrid (fun g => { g with relock := none }) (setSec (fun x => { x with verify := none }) s)
  setLog (fun l => { l with queue := l.queue.filter (fun e => e.clear.isNone) }) s

/-- Final completions of the commands in flight once the core serves again (R57). -/
def restartReplies (s : State) : State :=
  s.host.inflight.foldl (fun s f =>
    match f.applied with
    | some x => complete x (dropInFlight f.cmd s)
    | none => if (ongoing s).contains (refOf f.cmd) then s else finish f.cmd (Reply.fail St.fault 2) s) s

/-- SUPV_RST rises; the console session ends. -/
def supvDown (s : State) : State := dropWork (endSession 3 (setMode (fun m => { m with supvRst := true }) s))

def restartRecord (src : Nat) (s : State) : State := postEvent Src.sys 2 0 (dCode src) (setMode (fun m => { m with resetSrc := src }) s)

/-- A warm restart ends an injection and a trace; their commands get no completion (R397). -/
def endLoopWork (s : State) : State :=
  let refs := (s.loops.inj.map (·.cmd)).toList ++ (s.loops.trace.map (·.cmd)).toList
  refs.foldl (fun s r => match openCmd s r with | some c => dropInFlight c s | none => s) (setLoops (fun l => { l with inj := none, trace := none }) s)

/-- A warm restart begins (R93): protection continues, DMA channels halt, BAR0 and the rings are reset, the UART returns
to its rate, a self-test is aborted (R562); the latched time registers stay (R127); LOCKED becomes HOLDOVER (R125). -/
def beginWarm (src : Nat) (s : State) : State :=
  let s := dmaRestart (restartRecord src s)
  let s := supvDown (endLoopWork s)
  let s := setMode (fun m => { m with warm := some src, mbReady := false, restart := none, warmRestarts := satN 32 (m.warmRestarts + 1) }) s
  let s := endTest 5 0 [] (endPulse s.clk.openedAt (setSvc (fun x => { x with baud := 115200, echo := false }) s))
  let s := setHost (fun h =>
    { h with regs := { taiHi := h.regs.taiHi, taiNs := h.regs.taiNs }, rings := List.replicate 4 {}, cq := {}, turn := 1, fetchStop := false }) s
  let s := setTime (fun t => unlock 1 (unlock 2 (unlock 3 t))) s
  if s.time.state == .locked then setTState .holdover s else s

/-- A mode in which Xarik runs. -/
def xarikRuns (s : State) : Bool := !(s.mode.mode == .boot || s.mode.mode == .backup)

/-! ### Rows -/

/-- The supervisor core misses its watchdog's service (R93). -/
def watchdogExpiry (s : State) : State :=
  if xarikRuns s && s.mode.warm.isNone && !s.mode.supvRst then settle (countEvent 20 0 (beginWarm 6 s)) else s

/-- SUPV_WATCHDOG_EXPIRY (R93): the watchdog starts a warm restart; the third within 60 s is cause SUPV (R86). -/
def execSupvWatchdogExpiry (s : State) : Out := .next (watchdogExpiry s)

/-- WARM_RESTART_DONE (R93, R74): the image has been reloaded and has verified, or not; while cause SUPV is raised the rings stay closed
(R87). -/
def execWarmRestartDone (ok : Bool) (s : State) : Out :=
  .next (
    if s.mode.warm.isNone then s
    else
      let ok := slotValid s.variant s.sec s.sec.active ok
      let s := setMode (fun m => { m with warm := none, supvRst := false, mbReady := ok && !(m.mode.runs && m.safe.getLsbD 3) }) s
      if ok then
        let f := s.sec.fw.getD s.sec.active {}
        restartReplies (setSec (fun x => { x with commit := false, minSvn := if x.commit then max x.minSvn (imageSvn f) else x.minSvn }) s)
      else setSec (fun x => { x with commit := false }) (raiseSafe SafeCause.supv s))

/-- A lockstep restart of the supervisor core: counted, with its record; every register stays (R94). -/
def lockstepRestart (s : State) : State :=
  if xarikRuns s && s.mode.warm.isNone && !s.mode.supvRst then
    settle (countEvent 21 0 (supvDown (restartRecord 8 (setMode (fun m => { m with supvRestarts := satN 32 (m.supvRestarts + 1) }) s))))
  else s

/-- SUPV_LOCKSTEP_RESTART (R94). -/
def execSupvLockstepRestart (s : State) : Out := .next (lockstepRestart s)

/-- SUPV_LOCKSTEP_RESTART_DONE (R94, R57). -/
def execSupvLockstepRestartDone (s : State) : Out :=
  .next (if s.mode.supvRst && s.mode.warm.isNone then restartReplies (setMode (fun m => { m with supvRst := false }) s) else s)

/-- RST_N (R91): a low pulse resets the device at once; BOOT runs its steps. -/
def execRstN (r : BootReport) (s : State) : Out :=
  .next (
    if s.mode.mode == .backup then s
    else
      let s := resetDevice 2 s
      if s.pwr.waitRails then s else bootSteps r s)

/-- POWER_ON (R426, R436): from BACKUP with VIN good and no power fault latched, the rails rise in order and reset is released. -/
def execPowerOn (r : BootReport) (s : State) : Out :=
  .next (if s.mode.mode == .backup && s.pwr.vinGood && !s.pwr.latched then bootSteps r (resetDevice 0 s) else s)

/-- RAILS_GOOD (R425): after a brown-out every rail has been within its band for 1 ms. -/
def execRailsGood (r : BootReport) (s : State) : Out :=
  .next (
    if s.pwr.waitRails then bootSteps r (setPwr (fun p => { p with waitRails := false, railOk := List.replicate 6 true }) s)
    else s)

/-- PERST_N (R590): the endpoint is held in reset while the ball is low; the device is not reset. -/
def execPerstN (low : Bool) (s : State) : Out :=
  .next (setHost (fun h => { h with perst := low, pcieLink := h.pcieLink && !low }) s)

/-- PCIE_LINK_TRAINED (R59): the data link layer becomes active, where PERST_N does not hold the endpoint. -/
def execPcieLinkTrained (s : State) : Out := .next (if s.host.perst then s else setHost (fun h => { h with pcieLink := true }) s)

/-- PCIE_LINK_LOST (R487). -/
def execPcieLinkLost (s : State) : Out := .next (setHost (fun h => { h with pcieLink := false }) s)

end Sys2Proof.Machine
end

