-- ==== Sys2Proof/Machine/Power.lean ====
section
/-! DEFINITION. Supply, rails, hold-up store, load shedding, power-down and the backup domain's checks (R425-R442). -/

namespace Sys2Proof.Machine

/-- A record of SOURCE POWER with IRQ_STAT.POWER (R442). -/
def powerEvent (code unit : Nat) (s : State) : State := raiseIrq Irq.power (postEvent Src.power code unit [] s)

/-- The rails are up. -/
def railsUp (s : State) : Bool := s.mode.mode != .backup

/-- A duration since an instant of the present count. -/
def sinceU (s : State) (t : Int) : Nat := ((s.clk.mono : Int) - t).toNat

/-! ### Power-down (R435, R436) -/

/-- The power-down sequence: its record, pins high impedance, the fault code, BACKUP. Codes 2 and 3 latch (R425). -/
def powerDown (code : Nat) (s : State) : State :=
  let p := s.pwr
  let lost := if p.vinGood then 0 else sinceU s p.lostAt
  let s := writeDirect 11 (dCode code ++ dDur lost ++ dCount s.log.queue.length) s
  let s := resetDevice 0 s
  setMode (fun m => { m with mode := .backup }) (setPwr (fun q =>
    { q with
      pfault := code, hu := .off, vinGood := p.vinGood, railOk := List.replicate 6 false, onVbat := true
      latched := code == 2 || code == 3, vinFell := !p.vinGood }) s)

/-- Rail k of RAIL_OK exists: VCORE1 on the K64 only (R424). -/
def hasRail (s : State) (k : Nat) : Bool := decide (k < 6) && (k != 1 || s.variant == .k64)

/-- BROWN_OUT (R425): reset 0x01 at once; the third within 60 s latches. In BACKUP it is a power-up's step that does not report good in its
time (R426), which starts no other reset. -/
def execBrownOut (rail : BitVec 3) (s : State) : Out :=
  .next (
    let k := rail.toNat
    if !hasRail s k || (!railsUp s && (!s.pwr.vinGood || s.pwr.latched)) then s
    else
      let s := setPwr (fun p =>
        { p with
          railOk := modAt p.railOk k (fun _ => false), railBo := modAt p.railBo k (fun _ => true)
          boTimes := (s.clk.mono : Int) :: p.boTimes.filter (fun t => decide ((s.clk.mono : Int) < t + (secU 60 : Nat))) }) s
      if 3 ≤ s.pwr.boTimes.length then powerDown 2 s else if !railsUp s then s else setPwr (fun p => { p with waitRails := true }) (resetDevice 1 s))

/-- BROWN_OUT_LATCH (R425): a rail has stayed in brown-out for 10 ms. -/
def execBrownOutLatch (s : State) : Out :=
  .next (
    if railsUp s && s.pwr.waitRails then
      let start := s.pwr.boTimes.foldl (fun m t => max m t) 0
      powerDown 2 (setClk (·.advance (start.toNat + msU 10)) s)
    else s)

/-- RAIL_OVERVOLTAGE (R425). -/
def execRailOvervoltage (rail : BitVec 3) (s : State) : Out := .next (if railsUp s && hasRail s rail.toNat then powerDown 3 s else s)

/-! ### VIN and HOLD (R427-R434) -/

/-- VIN_LOSS (R427, R430): the hold-up buck runs; the trace ends; the change of mode waits for the boundary. SERVICE that is entered while
VIN is lost already does not become RIDE-THROUGH by that loss (DESIGN CHOICE, log entry 63). -/
def execVinLoss (s : State) : Out :=
  .next (
    if !s.pwr.vinGood then s
    else
      let s := setPwr (fun p => { p with vinGood := false, vinOv := false, vinFell := true, lostAt := s.clk.mono, backPend := false }) s
      if !railsUp s then s
      else
        let m := s.mode.mode
        let s := setPwr (fun p =>
          { p with hu := .discharging, rtCount := satN 32 (p.rtCount + 1), ridePend := m == .service || m == .degraded }) s
        let s := powerEvent 1 0 (endTrace 3 (urgentRequest 1 s))
        if s.pwr.shed1 then s else powerEvent 3 1 (setPwr (fun p => { p with shed1 := true }) s))

/-- VIN_GOOD (R427, R428, R436): charging resumes; a latched power fault ends once VIN has fallen and risen. -/
def execVinGood (s : State) : Out :=
  .next (
    if s.pwr.vinGood then s
    else
      let s := setPwr (fun p =>
        { p with
          vinGood := true, goodAt := s.clk.mono, rtLast := satN 32 (sinceU s p.lostAt / usU 1)
          latched := p.latched && !p.vinFell }) s
      if railsUp s then powerEvent 2 0 (setPwr (fun p => { p with hu := .charging }) s) else s)

/-- VIN_GOOD_50MS (R434): shed loads return at the next boundary, and with it the mode. -/
def execVinGood50ms (s : State) : Out :=
  .next (
    if railsUp s && s.pwr.vinGood && (s.pwr.shed1 || s.mode.mode == .rideThrough) then
      setPwr (fun p => { p with backPend := true }) (setClk (·.advance (s.pwr.goodAt + (msU 50 : Nat)).toNat) s)
    else s)

/-- VIN_OV (R427). -/
def execVinOv (s : State) : Out :=
  .next (if railsUp s && s.pwr.vinGood then powerEvent 6 0 (setPwr (fun p => { p with vinOv := true }) s) else s)

/-- HOLD_FULL (R428): HOLD reaches 37.6 V. -/
def execHoldFull (s : State) : Out :=
  .next (if railsUp s && s.pwr.hu == .charging then powerEvent 5 0 (setPwr (fun p => { p with hu := .full }) s) else s)

/-- HOLD_CAP_MEASURED (R429): HOLD has charged through 20 V to 36 V in a number of microseconds: 100 mA over 16 V. -/
def execHoldCapMeasured (us : Nat) (s : State) : Out :=
  .next (
    if !railsUp s || s.pwr.hu != .charging then s
    else
      let c := satN 32 (roundOpen 57 us 160).toNat
      let low := decide (us < 3000 * 160)
      let s := setPwr (fun p => { p with holdCap := c, capLow := low }) s
      if low then powerEvent 7 0 s else s)

/-- HOLD_30V (R432): recording is shed. -/
def execHold30v (s : State) : Out :=
  .next (
    if railsUp s && !s.pwr.vinGood && !s.pwr.shed2 then powerEvent 3 2 (shedRecording (setPwr (fun p => { p with shed2 := true }) s)) else s)

/-- Standby r may be parked: ready, and every enabled bay of its region allows it (R433). -/
def mayPark (s : State) (r : Nat) : Bool :=
  s.mode.standbys.getD r .absent == .ready && decide (r < s.variant.standbys) &&
  (List.range 16).all (fun i => !bayEn s (16 * r + i) || stbyShed s (16 * r + i))

/-- HOLD_20V (R432, R433): eligible standbys are parked. -/
def execHold20v (s : State) : Out :=
  .next (
    if railsUp s && !s.pwr.vinGood && !s.pwr.shed3 && (List.range 4).any (mayPark s) then
      powerEvent 3 3 (setMode (fun m => { m with parked := (List.range 4).map (mayPark s) }) (setPwr (fun p => { p with shed3 := true }) s))
    else s)

/-- HOLD_10V (R435). -/
def execHold10v (s : State) : Out := .next (if railsUp s && !s.pwr.vinGood then powerDown 1 s else s)

/-- Shed loads restored at the boundary that opens the Milestone in progress (R434); a standby parked before takes its checkpoint in
that Milestone. -/
def restoreLoads (s : State) : State :=
  let s := setMode (fun m => { m with unparking := List.replicate 4 false }) s
  if !s.pwr.backPend then s
  else
    let p := s.pwr
    let s := setPwr (fun p => { p with backPend := false, shed1 := false, shed2 := false, shed3 := false }) s
    let s := if p.shed1 then powerEvent 4 1 s else s
    let s := if p.shed2 then powerEvent 4 2 (restoreRecording s) else s
    if p.shed3 then powerEvent 4 3 (setMode (fun m => { m with unparking := m.parked, parked := List.replicate 4 false }) s) else s

/-! ### Temperature, VBAT, minutes (R437-R440) -/

/-- TJ_HIGH (R437): the junction rises above 120 °C, or falls below 115 °C. -/
def execTjHigh (above : Bool) (s : State) : Out :=
  .next (
    if !railsUp s then s
    else if above && !s.pwr.tjHigh then powerEvent 8 0 (setPwr (fun p => { p with tjHigh := true }) s)
    else setPwr (fun p => { p with tjHigh := above }) s)

/-- OVERTEMP_POWER_DOWN (R437). -/
def execOvertempPowerDown (s : State) : Out := .next (if railsUp s then powerDown 4 s else s)

/-- VBAT_CHECK (R440): VBAT lies below 2.20 V, or not. -/
def execVbatCheck (low : Bool) (s : State) : Out :=
  .next (
    if !railsUp s then s
    else if low && !s.pwr.vbatLow then powerEvent 9 0 (setPwr (fun p => { p with vbatLow := true }) s)
    else setPwr (fun p => { p with vbatLow := low }) s)

/-- VAUX18_CHANGEOVER (R439): VAUX18 leaves its band; the backup domain runs from VBAT. -/
def execVaux18Changeover (s : State) : Out := .next (setPwr (fun p => { p with onVbat := true }) s)

/-- OP_MINUTE_TICK (R438, R440, R270): 60 s more with the rails up; each hour copies the counts to MRAM, each minute the energy. -/
def execOpMinuteTick (s : State) : Out :=
  .next (
    if !railsUp s then s
    else
      let t := s.pwr.minAt + secU 60
      let s := setPwr (fun p => { p with minAt := t }) (setClk (·.advance t) s)
      saveEnergy (setLog (fun l =>
        let n := satN 32 (l.opMin + 1)
        if n % 60 == 0 then { l with opMin := n, opCopy := n, pwrCopy := l.pwrCycles } else { l with opMin := n }) s))

/-! ### PWR.STATUS (R441) -/

/-- The latest conversion of an auxiliary input as a multiple of 1/k of its unit. -/
def auxScaled (s : State) (input k : Nat) : Int :=
  let x := auxValue input (16 * s.aux.latest.getD input 0)
  roundOpen 58 (k * x.1) x.2

/-- The 64-byte block; RT_EST and LOAD_MW are values the spec gives no rule for (log entry 31). -/
def powerBlock (s : State) : Bytes :=
  let p := s.pwr
  let hold := auxScaled s 17 100
  leBytes 8 s.clk.ms ++
  leBytes 2 (codeOf (auxScaled s 16 1000) 16) ++ leBytes 2 (codeOf hold 16) ++
  leBytes 2 (codeOf (auxScaled s 19 1000) 16) ++ leBytes 2 (codeOf (auxScaled s 18 10) 16) ++
  leBytes 4 (maskOf 6 (fun k => hasRail s k && p.railOk.getD k false) + place (maskOf 6 (fun k => p.railBo.getD k false)) 8 6 +
    place (flag (s.variant == .k64)) 14 1) ++
  leBytes 4 (p.hu.code + place (flag p.vinGood) 3 1 + place (flag p.vinOv) 4 1 + place (boolBits [p.shed1, p.shed2, p.shed3]) 5 3 +
    place (maskOf 4 (fun r => s.mode.parked.getD r false)) 8 4 + place (flag p.capLow) 12 1 + place (flag p.vbatLow) 13 1 +
    place (flag p.vbatLost) 14 1 + place (flag p.tjHigh) 15 1) ++
  leBytes 4 p.holdCap ++ leBytes 4 (openNat 59 32 [hold, (p.holdCap : Int), (boolBits [p.shed1, p.shed2, p.shed3] : Nat)]) ++
  leBytes 4 (openNat 61 32 [(s.clk.mono : Int)]) ++ leBytes 4 p.rtCount ++ leBytes 4 p.rtLast ++
  leBytes 4 s.log.pwrCycles ++ leBytes 4 s.log.opMin ++ leBytes 4 (p.pfault % 256) ++ zeros 8

/-- PWR_STATUS. -/
def execPwrStatus (c : Cmd) (s : State) : Out := .next (command c (fun _ => {}) (fun s => .done { out := some (powerBlock s) } s) s)

end Sys2Proof.Machine
end

