-- ==== Sys2Proof/Machine/Komir.lean ====
section
/-! DEFINITION. The Komir console (R548-R557): one row is one line received, or one event of its session. Lines of text that the spec
gives are sent as text, results as the bytes of the blocks they show (log entry 28). -/

namespace Sys2Proof.Machine

/-! ### Lines -/

/-- The refusal that was to come 1 s after its line goes out before the next line is answered (R549, R552). -/
def flushLate (s : State) : State :=
  match s.svc.late with
  | some t => uartLine (.er 3) (setSvc (fun x => { x with late := none }) (setClk (·.advance t) s))
  | none => s

/-- 900 s have passed without a received line (R553). -/
def sweepIdle (s : State) : State := if s.svc.unlocked && decide (s.svc.lineAt + secU 900 ≤ s.clk.mono) then endSession 1 s else s

/-- The refusal goes out where its second has passed, and an idle session ends. -/
def sweepLate (s : State) : State :=
  sweepIdle (match s.svc.late with | some t => if t ≤ s.clk.mono then flushLate s else s | none => s)

/-- A fatal BOOT state in which the boot ROM serves the recovery set (R556). -/
def recoveryMode (s : State) : Bool := s.mode.mode == .boot && s.mode.fatal && s.mode.bootCode != 0xE1

/-- One line: answered by the boot ROM, with ER 09 while the supervisor core restarts, with ER 02 while the session is locked, or by
the command (R551, R555, R556). `rec_` and `free` say whether the recovery set and a locked session have the command. -/
def komirLine (rec_ free : Bool) (f : State → State) (s : State) : State :=
  let s := sweepIdle (flushLate s)
  let s := setSvc (fun x => { x with lineAt := s.clk.mono }) s
  if recoveryMode s then (if rec_ then f s else uartLine (.er 1) s)
  else if !xarikRuns s then s
  else if s.mode.warm.isSome || s.mode.supvRst then uartLine (.er 9) s
  else if !s.svc.unlocked && !free then uartLine (.er 2) s
  else f s

def okText (t : String) (s : State) : State := uartLine .ok (uartLine (.text t) s)
def okVals (b : Bytes) (s : State) : State := uartLine .ok (uartLine (.vals b) s)

/-! ### Xarik commands carried out for the console (R554) -/

/-- A command entry without tag or buffer: code, unit and words of ARGS by their offset. -/
def consoleCmd (code unit : Nat) (args : List (Nat × Nat)) : Cmd :=
  { bits := BitVec.ofNat 512 (place (code / 256) 8 8 + place (code % 256) 16 8 + place unit 32 16 + args.foldl (fun n a => n + place a.2 (8 * a.1) 32) 0)
    ring := 0, slot := 0 }

def consoleRef : CmdRef := { ring := 0, slot := 0, tag := 0, console := true }

/-- The command judged and carried out by its own rules, its reply on the console. -/
def consoleRun (c : Cmd) (j : State → Judge) (act : State → Action) (s : State) : State :=
  match (j s).verdict c .notNeeded (cfgRefused s c.code) with
  | some r => consoleReply r s
  | none => match act s with
    | .done r s' => consoleReply r s'
    | .atBoundary d x a s' => { s' with acts := s'.acts ++ [{ cmd := consoleRef, detail := d, result := x, act := a }] }
    | .goesOn s' => s'

/-! ### Commands of the locked session -/

def helpText (s : State) : String :=
  if recoveryMode s then "= HELP ID STATUS BAUD FWD FWE"
  else "= HELP ID STATUS BAUD ECHO UNLOCK LOCK CAPS LOG SLICE BAY PINS TIME SUPV WMK TEST LOOP RESTART"

/-- KOMIR_HELP. -/
def execKomirHelp (s : State) : Out := .next (komirLine true true (fun s => okText (helpText s) s) s)

/-- DEV_ID, DEV_CAPS0-3 (with the Xarik version), DEV_UID, active slot. -/
def idBytes (s : State) : Bytes :=
  leBytes 4 (devId s.variant) ++ leBytes 4 (devCaps0 s.variant) ++ leBytes 4 (devCaps1 s.variant) ++ leBytes 4 (devCaps2 s.variant) ++
  leBytes 4 (devCaps3 s) ++ leBytes 8 Config.devUid.toNat ++ leBytes 1 s.sec.active

/-- KOMIR_ID. -/
def execKomirId (s : State) : Out := .next (komirLine true true (fun s => okVals (idBytes s) s) s)

/-- Mode, BOOT_CODE, RESET_SRC, DEG_CAUSE, SAFE_CAUSE. -/
def statusBytes' (s : State) : Bytes :=
  leBytes 1 s.mode.mode.code ++ leBytes 1 s.mode.bootCode.toNat ++ leBytes 1 s.mode.resetSrc ++ leBytes 2 s.mode.deg.toNat ++ leBytes 2 s.mode.safe.toNat

/-- KOMIR_STATUS. -/
def execKomirStatus (s : State) : Out := .next (komirLine true true (fun s => okVals (statusBytes' s) s) s)

def baudRates : List Nat := [230400, 460800, 921600, 1500000, 3000000]

/-- KOMIR_BAUD (R548): the new rate after the OK line. -/
def execKomirBaud (n : Nat) (s : State) : Out :=
  .next (komirLine true true (fun s => if baudRates.contains n then setSvc (fun x => { x with baud := n }) (uartLine .ok s) else uartLine (.er 6) s) s)

/-- KOMIR_ECHO (R549). -/
def execKomirEcho (on : Bool) (s : State) : Out := .next (komirLine false true (fun s => uartLine .ok (setSvc (fun x => { x with echo := on }) s)) s)

/-! ### Unlocking (R552) -/

def hexDigit (n : Nat) : Char := if n < 10 then Char.ofNat (48 + n) else Char.ofNat (55 + n)
def hex4 (n : Nat) : String := String.ofList ((List.range 4).map (fun i => hexDigit (n / 16 ^ (3 - i) % 16)))
def hexGroups (n : Nat) : String := hex4 (n / 2 ^ 48) ++ " " ++ hex4 (n / 2 ^ 32) ++ " " ++ hex4 (n / 2 ^ 16) ++ " " ++ hex4 n

/-- The lowest slot with a key of use 5. -/
def serviceSlot (s : State) : Option Nat := (List.range 32).find? (fun i => (s.sec.slots.getD i {}).use == 5)

/-- KOMIR_UNLOCK_NONCE: a fresh nonce (a free value, log entry 4) with the slot and its CTR. -/
def execKomirUnlockNonce (s : State) : Out :=
  .next (komirLine false true (fun s =>
    match serviceSlot s with
    | none => uartLine (.er 3) s
    | some k =>
      let n := openNat 60 64 [(s.svc.nonces : Int)]
      okText ("= NONCE " ++ hexGroups n ++ " SLOT " ++ toString k ++ " CTR " ++ toString (s.sec.slots.getD k {}).ctr)
        (setSvc (fun x => { x with nonce := some (n, k, s.clk.mono), nonces := x.nonces + 1 }) s)) s)

/-- The token for a nonce and a slot. -/
def unlockToken (k : KeySlot) (slot nonce : Nat) : Bytes :=
  (hmacSha256 k.key ([0x4B#8, 0x4F#8, 0x4D#8, 0x49#8, 0x52#8] ++ beBytes 8 nonce ++ leBytes 4 slot ++ leBytes 4 k.ctr ++ leBytes 8 Config.devUid.toNat)).take 8

/-- The attempt verifies: the nonce in force, at most 60 s old, and the slot's key of use 5. -/
def unlockOk (s : State) (slot : Nat) (token : BitVec 64) : Bool :=
  let k := s.sec.slots.getD slot {}
  match s.svc.nonce with
  | some (n, _, t) => decide (slot < 32) && decide (s.clk.mono < t + secU 60) && k.use == 5 && decide (k.ctr < 2 ^ 32 - 1) && beBytes 8 token.toNat == unlockToken k slot n
  | none => false

/-- A failed attempt: its record, the count within BF_W minutes towards BRUTE (R522), and the answer 1 s later. -/
def unlockFailed (slot : Nat) (s : State) : State :=
  let now := s.clk.mono
  let times := now :: s.sec.bfTimes.filter (fun t => decide (now < t + secU (60 * s.sec.policy.bfW)))
  let s := setSvc (fun x => { x with late := some (now + secU 1) }) (setSec (fun x => { x with bfTimes := times }) s)
  let s := secRecord 11 slot (dCount times.length) s
  if s.sec.policy.bfN ≤ times.length then fireTamper 6 s else s

/-- KOMIR_UNLOCK_TOKEN (R552): a nonce serves one attempt. -/
def execKomirUnlockToken (slot : BitVec 8) (token : BitVec 64) (s : State) : Out :=
  .next (komirLine false true (fun s =>
    let ok := unlockOk s slot.toNat token
    let s := setSvc (fun x => { x with nonce := none }) s
    if ok then uartLine .ok (secRecord 10 slot.toNat [] (setSvc (fun x => { x with unlocked := true }) (setSec (fun x => raiseCtr x slot.toNat) s)))
    else unlockFailed slot.toNat s) s)

/-- KOMIR_LOCK (R553). -/
def execKomirLock (s : State) : Out := .next (komirLine false true (fun s => uartLine .ok (endSession 0 s)) s)

/-! ### Readings -/

/-- KOMIR_CAPS. -/
def execKomirCaps (s : State) : Out := .next (komirLine false false (fun s => okVals (sysCapsBlock s) s) s)

/-- Records LOG shows where its line gives no number (log entry 28). -/
def logDefault : Nat := 16

/-- KOMIR_LOG: up to n records from a sequence number, else from the console's own position; READ_MARK stays (R504). -/
def execKomirLog (seq : Option (BitVec 64)) (n : Option (BitVec 16)) (s : State) : Out :=
  .next (komirLine false false (fun s =>
    let q := match seq with | some x => x.toNat | none => s.svc.logPos
    let k := match n with | some x => x.toNat | none => logDefault
    if seq.isSome && decide (s.log.headSeq + 1 < q) then uartLine (.er 6) s
    else
      let first := max (min q (s.log.headSeq + 1)) (oldestSeq s.log)
      let m := min k (s.log.headSeq + 1 - first)
      okVals ((List.range m).flatMap (fun i => recordAt s.log (first + i))) (setSvc (fun x => { x with logPos := first + m }) s)) s)

/-- KOMIR_SLICE: the status block of one slice or spare. -/
def execKomirSlice (x : BitVec 8) (s : State) : Out :=
  .next (komirLine false false (fun s => if x.toNat < 51 then okVals (sliceBlock s x.toNat) s else uartLine (.er 6) s) s)

/-- KOMIR_BAY: the block of BAY.READ, whose SAT bits stay. -/
def execKomirBay (b : BitVec 8) (s : State) : Out :=
  .next (komirLine false false (fun s => let c := consoleCmd 0x0303 b.toNat []; consoleRun c (readJudge c) (readAct c) s) s)

/-- KOMIR_PINS: the trip and input status. -/
def execKomirPins (s : State) : Out := .next (komirLine false false (fun s => okVals (tripStatusBlock s) s) s)

/-- KOMIR_TIME: the block of TIME.READ. -/
def execKomirTime (s : State) : Out := .next (komirLine false false (fun s => okVals (timeBlock s ++ gridBlock s) s) s)

/-- KOMIR_SUPV: the capacity part and the source summary. -/
def execKomirSupv (s : State) : Out := .next (komirLine false false (fun s => okVals (capacityBlock s ++ sourceSummary s) s) s)

/-! ### Actions -/

/-- KOMIR_WMK (R558). -/
def execKomirWmk (ch : BitVec 16) (kind : BitVec 4) (unit : BitVec 9) (sel : BitVec 8) (e : BitVec 8) (diff : Bool) (level : BitVec 12) (s : State) : Out :=
  .next (komirLine false false (fun s =>
    let c := consoleCmd 0x1401 ch.toNat
      [(0x14, kind.toNat + place unit.toNat 4 9 + place sel.toNat 13 8 + place (flag diff) 21 1), (0x18, e.toNat), (0x1C, level.toNat)]
    consoleRun c (wmkJudge c) (wmkAct c) s) s)

/-- A test started from the console: answered OK at its start, ER 05 while one runs (R562). -/
def consoleTest (c : Cmd) (s : State) : Action :=
  let id := c.at_ 0x14 0 8
  if s.svc.test.isSome then .done (Reply.refuse Rsn.capacity) s
  else if !testReady s id c.unit then .done (Reply.refuse Rsn.state) s
  else .done {} (startTest { id := id, unit := c.unit, param := c.at_ 0x18 0 32, console := true } s)

/-- KOMIR_TEST (R562, R565). -/
def execKomirTest (t : KomirTest) (s : State) : Out :=
  .next (komirLine false false (fun s =>
    match t with
    | .start id unit param =>
      let c := consoleCmd 0x1301 unit.toNat [(0x14, id.toNat), (0x18, param.toNat)]
      consoleRun c (testJudge c) (consoleTest c) s
    | .stop => let c := consoleCmd 0x1301 0 [(0x14, 256)]; consoleRun c (testJudge c) (testAct c) s
    | .result id =>
      if id.toNat == 0 || decide (15 < id.toNat) then uartLine (.er 6) s
      else okVals (TestRes.encode id.toNat (s.svc.results.getD id.toNat {})) s) s)

/-- LOOP.XFER for the console: the transfer waits for the loop's next update, and its reply for the transfer. -/
def consoleXfer (c : Cmd) (q : LoopReq) (s : State) : Action :=
  if !isUserLoop c.unit || !(loopSt s c.unit).on then .done (Reply.refuse Rsn.state) s
  else .goesOn (setLoop c.unit (fun x => { x with req := x.req ++ [(some consoleRef, q)] }) s)

/-- KOMIR_LOOP: LOOP l MAN v, with v, or LOOP l AUTO (R411). -/
def execKomirLoop (l : BitVec 16) (man : Option (BitVec 32)) (s : State) : Out :=
  .next (komirLine false false (fun s =>
    let dst := match man with | some _ => 1 | none => 2
    let v := match man with | some x => x.toNat | none => 0
    let c := consoleCmd 0x0F01 l.toNat [(0x14, dst + place (flag man.isSome) 2 1), (0x18, v)]
    consoleRun c (loopJudge c [(0x14, 0, 3), (0x18, 0, 32)] []) (consoleXfer c (.xfer dst man.isSome (signedOf v 32))) s) s)

/-! ### Restarts (R557) -/

/-- KOMIR_RESTART_WARM: reset 0x07 at the next boundary. -/
def execKomirRestartWarm (s : State) : Out :=
  .next (komirLine false false (fun s =>
    if s.mode.restart.isSome then uartLine (.er 8) s
    else uartLine .ok (svcRecord 4 0 (dCode 1) (setMode (fun m => { m with restart := some { src := 7 } }) s))) s)

/-- KOMIR_RESTART_COLD: confirmation first; a second one within 10 s starts reset 0x04 at the next boundary. -/
def execKomirRestartCold (s : State) : Out :=
  .next (komirLine false false (fun s =>
    let again := match s.svc.confirmTo with | some t => decide (s.clk.mono ≤ t) | none => false
    if again then
      uartLine .ok (svcRecord 4 0 (dCode 2) (setMode (fun m => { m with restart := some { src := 4 } }) (setSvc (fun x => { x with confirmTo := none }) s)))
    else okText "= CONFIRM" (setSvc (fun x => { x with confirmTo := some (s.clk.mono + secU 10) }) s)) s)

/-! ### Recovery (R556) -/

/-- KOMIR_FWD: 64 bytes into the active slot. -/
def execKomirFwd (off : Nat) (data : Bytes) (s : State) : Out :=
  .next (komirLine true true (fun s =>
    if !recoveryMode s || data.length != 64 then uartLine (.er 1) s
    else if off % 64 != 0 || decide (slotSize < off + 64) then uartLine (.er 6) s
    else if off != 0 && off != s.svc.fwdEnd then uartLine (.er 8) s
    else
      let old := if off == 0 then [] else (s.sec.fw.getD s.sec.active {}).image
      uartLine .ok (setSvc (fun x => { x with fwdEnd := off + 64 }) (setFw s.sec.active (fun _ => { image := old ++ data, loading := true }) s))) s)

/-- KOMIR_FWE: the slot checked under R519; a failed rule goes out as a data line. -/
def execKomirFwe (s : State) : Out :=
  .next (komirLine true true (fun s =>
    if !recoveryMode s then uartLine (.er 1) s
    else
      let f := s.sec.fw.getD s.sec.active {}
      match imageFault s.variant s.sec.minSvn f.image with
      | some k => uartLine (.er 8) (uartLine (.vals (leBytes 1 k)) s)
      | none =>
        uartLine .ok (setSvc (fun x => { x with recovery := some (u16At f.image 8, imageSvn f) }) (setFw s.sec.active (fun f => { f with valid := true, loading := false }) s))) s)

/-! ### Events of the session -/

/-- KOMIR_BREAK (R548, R553): the rate returns to 115200 and the session ends. -/
def execKomirBreak (s : State) : Out :=
  .next (if xarikRuns s || recoveryMode s then endSession 2 (setSvc (fun x => { x with baud := 115200 }) s) else s)

/-- KOMIR_IDLE_TIMEOUT (R553): 900 s without a line. -/
def execKomirIdleTimeout (s : State) : Out :=
  .next (if s.svc.unlocked then endSession 1 (setClk (·.advance (s.svc.lineAt + secU 900)) s) else s)

/-- KOMIR_NONCE_EXPIRY (R552): 60 s after its issue. -/
def execKomirNonceExpiry (s : State) : Out :=
  .next (match s.svc.nonce with
    | some (_, _, t) => setSvc (fun x => { x with nonce := none }) (setClk (·.advance (t + secU 60)) s)
    | none => s)

/-- KOMIR_SYNTAX_ERROR (R549): a line too long or not understood. -/
def execKomirSyntaxError (s : State) : Out := .next (komirLine true true (fun s => uartLine (.er 1) s) s)

end Sys2Proof.Machine
end

