-- ==== Sys2Proof/Machine/LogicOps.lean ====
section
/-! DEFINITION. The rows of Table: Instructions: one instruction executed by a bay's accumulator machine (R353-R356). -/

namespace Sys2Proof.Machine

/-- An operand that an instruction of a class may carry in a verified program (R360, causes 4 and 5). -/
def operandOk (img : Bytes) (idx : Nat) (k : OpKind) (a : Nat) : Bool :=
  match k with
  | .zero => a == 0
  | .read => mayRead (pNvar img) a
  | .write => mayWrite (pNvar img) a
  | .edge => opSpace a == 8 && decide (opIndex a < pNedg img)
  | .timer => opSpace a == 6 && decide (opIndex a < pNtmr img)
  | .counter => opSpace a == 7 && decide (opIndex a < pNcnt img)
  | .offset => decide (0 < signedOf a 24) && decide ((idx : Int) + signedOf a 24 ≤ (pNinstr img : Int) - 1)

/-- One instruction by the machine of bay b: its bits, stack and data, and nothing else of the device. An operand that
verification refuses executes nothing. -/
def instrRow (b : Nat) (k : OpKind) (clocks : Nat) (f : LCtx → Nat → LM → LM) (a : Nat) (s : State) : State :=
  let x := logicBay s b
  let c := logicCtx s b
  if operandOk c.img x.exec.idx k a then
    let m := logicInstr clocks f c a { x := x.exec, d := x.data }
    setLogic b (fun x => { x with exec := m.x, data := m.d }) s
  else s

/-- NOP (R353). -/
def execOpNop (bay : BitVec 6) (s : State) : Out := .next (instrRow bay.toNat .zero 1 lopNop 0 s)

/-- LD (R353). -/
def execOpLd (bay : BitVec 6) (a : BitVec 24) (s : State) : Out := .next (instrRow bay.toNat .read 1 lopLd a.toNat s)

/-- LDN (R353). -/
def execOpLdn (bay : BitVec 6) (a : BitVec 24) (s : State) : Out := .next (instrRow bay.toNat .read 1 lopLdn a.toNat s)

/-- AND (R353). -/
def execOpAnd (bay : BitVec 6) (a : BitVec 24) (s : State) : Out := .next (instrRow bay.toNat .read 1 lopAnd a.toNat s)

/-- ANDN (R353). -/
def execOpAndn (bay : BitVec 6) (a : BitVec 24) (s : State) : Out := .next (instrRow bay.toNat .read 1 lopAndn a.toNat s)

/-- OR (R353). -/
def execOpOr (bay : BitVec 6) (a : BitVec 24) (s : State) : Out := .next (instrRow bay.toNat .read 1 lopOr a.toNat s)

/-- ORN (R353). -/
def execOpOrn (bay : BitVec 6) (a : BitVec 24) (s : State) : Out := .next (instrRow bay.toNat .read 1 lopOrn a.toNat s)

/-- XOR (R353). -/
def execOpXor (bay : BitVec 6) (a : BitVec 24) (s : State) : Out := .next (instrRow bay.toNat .read 1 lopXor a.toNat s)

/-- NOT (R353). -/
def execOpNot (bay : BitVec 6) (s : State) : Out := .next (instrRow bay.toNat .zero 1 lopNot 0 s)

/-- APUSH (R353). -/
def execOpApush (bay : BitVec 6) (s : State) : Out := .next (instrRow bay.toNat .zero 1 lopApush 0 s)

/-- OPUSH (R353). -/
def execOpOpush (bay : BitVec 6) (s : State) : Out := .next (instrRow bay.toNat .zero 1 lopOpush 0 s)

/-- POP (R353). -/
def execOpPop (bay : BitVec 6) (s : State) : Out := .next (instrRow bay.toNat .zero 1 lopPop 0 s)

/-- DUP (R353). -/
def execOpDup (bay : BitVec 6) (s : State) : Out := .next (instrRow bay.toNat .zero 1 lopDup 0 s)

/-- RDS (R353). -/
def execOpRds (bay : BitVec 6) (s : State) : Out := .next (instrRow bay.toNat .zero 1 lopRds 0 s)

/-- DROP (R353). -/
def execOpDrop (bay : BitVec 6) (s : State) : Out := .next (instrRow bay.toNat .zero 1 lopDrop 0 s)

/-- ST (R353). -/
def execOpSt (bay : BitVec 6) (a : BitVec 24) (s : State) : Out := .next (instrRow bay.toNat .write 1 lopSt a.toNat s)

/-- STN (R353). -/
def execOpStn (bay : BitVec 6) (a : BitVec 24) (s : State) : Out := .next (instrRow bay.toNat .write 1 lopStn a.toNat s)

/-- SET (R353). -/
def execOpSet (bay : BitVec 6) (a : BitVec 24) (s : State) : Out := .next (instrRow bay.toNat .write 1 lopSet a.toNat s)

/-- RST (R353). -/
def execOpRst (bay : BitVec 6) (a : BitVec 24) (s : State) : Out := .next (instrRow bay.toNat .write 1 lopRst a.toNat s)

/-- RISE (R353). -/
def execOpRise (bay : BitVec 6) (a : BitVec 24) (s : State) : Out := .next (instrRow bay.toNat .edge 2 lopRise a.toNat s)

/-- FALL (R353). -/
def execOpFall (bay : BitVec 6) (a : BitVec 24) (s : State) : Out := .next (instrRow bay.toNat .edge 2 lopFall a.toNat s)

/-- TON (R353). -/
def execOpTon (bay : BitVec 6) (a : BitVec 24) (s : State) : Out := .next (instrRow bay.toNat .timer 4 lopTon a.toNat s)

/-- TOF (R353). -/
def execOpTof (bay : BitVec 6) (a : BitVec 24) (s : State) : Out := .next (instrRow bay.toNat .timer 4 lopTof a.toNat s)

/-- TP (R353). -/
def execOpTp (bay : BitVec 6) (a : BitVec 24) (s : State) : Out := .next (instrRow bay.toNat .timer 4 lopTp a.toNat s)

/-- TRST (R353). -/
def execOpTrst (bay : BitVec 6) (a : BitVec 24) (s : State) : Out := .next (instrRow bay.toNat .timer 2 lopTrst a.toNat s)

/-- CTU (R353). -/
def execOpCtu (bay : BitVec 6) (a : BitVec 24) (s : State) : Out := .next (instrRow bay.toNat .counter 3 lopCtu a.toNat s)

/-- CTD (R353). -/
def execOpCtd (bay : BitVec 6) (a : BitVec 24) (s : State) : Out := .next (instrRow bay.toNat .counter 3 lopCtd a.toNat s)

/-- CRST (R353). -/
def execOpCrst (bay : BitVec 6) (a : BitVec 24) (s : State) : Out := .next (instrRow bay.toNat .counter 2 lopCrst a.toNat s)

/-- CLD (R353). -/
def execOpCld (bay : BitVec 6) (a : BitVec 24) (s : State) : Out := .next (instrRow bay.toNat .counter 2 lopCld a.toNat s)

/-- CGE (R353). -/
def execOpCge (bay : BitVec 6) (a : BitVec 24) (s : State) : Out := .next (instrRow bay.toNat .counter 2 lopCge a.toNat s)

/-- JMPC (R353). -/
def execOpJmpc (bay : BitVec 6) (a : BitVec 24) (s : State) : Out := .next (instrRow bay.toNat .offset 2 lopJmpc a.toNat s)

/-- JMPNC (R353). -/
def execOpJmpnc (bay : BitVec 6) (a : BitVec 24) (s : State) : Out := .next (instrRow bay.toNat .offset 2 lopJmpnc a.toNat s)

/-- JMP (R353). -/
def execOpJmp (bay : BitVec 6) (a : BitVec 24) (s : State) : Out := .next (instrRow bay.toNat .offset 2 lopJmp a.toNat s)

/-- END (R353). -/
def execOpEnd (bay : BitVec 6) (s : State) : Out := .next (instrRow bay.toNat .zero 1 lopEnd 0 s)

end Sys2Proof.Machine
end

