-- ==== Sys2Proof/Machine/Boundary.lean ====
section
/-! DEFINITION. The Milestone boundary: everything that happens between the end of Milestone n - 1 and the protection cycle of
Milestone n (R20, R21, R53, R65, R70, R96, R97, R122, R390), and the end of BOOT. -/

namespace Sys2Proof.Machine

/-! ### Slice samples of the Milestone that ends (R152-R155) -/

def sliceIn (m : MsIn) (unit : Nat) : SliceIn := (m.slices.find? (fun x => x.unit.toNat == unit)).getD { unit := BitVec.ofNat 6 unit }

/-- Codes of a unit's 128 conversions. -/
def unitCodes (m : MsIn) (unit : Nat) : List Int := let x := sliceIn m unit; (List.range 128).map (fun i => (x.codes.getD i 0).toInt)

/-- The slice samples a local lane takes: those of the unit that serves its slice; without one, 0 with INV (R161, R164,
R166). STL and INV of a settling are marks of the stage-0 words (R167). -/
def localInput (s : State) (m : MsIn) (l : Nat) : LaneInput :=
  let x := fld (laneBytes s l) 4 8 6
  match server s x with
  | none => .samples (List.replicate 128 { v := 0, q := Qb.inv })
  | some u =>
    let inv := s.acq.laneInv.getD l 0 != 0
    let q := if u != x then Qb.sub else 0
    let o := (sliceIn m u).ovr
    .samples ((unitCodes m u).mapIdx (fun i c =>
      { v := if inv then 0 else sliceValue s l u c, q := if o.contains i then q ||| Qb.ovr else q }))

/-- Corrected samples of a unit that serves a lane, before INVERT. -/
def unitSamples (s : State) (m : MsIn) (u l : Nat) : List Int :=
  let g := laneGain s l
  let x := sliceSt s u
  (unitCodes m u).map (correct (x.ofs.getD g 0) (x.gc.getD g 0) (laneBrdGain s l) (laneBrdOfs s l))

/-- OVR_CNT, CLIP_CNT (R155) and the sum of squares of one unit. -/
def countUnit (m : MsIn) (s : State) (u : Nat) : State :=
  match servedLane s u with
  | none => s
  | some l =>
    let v := unitSamples s m u l
    let clip := v.any (fun c => c == 131071 || c == -131072)
    let ovr := !(sliceIn m u).ovr.isEmpty
    let sq := v.foldl (fun a c => a + c.natAbs ^ 2) 0
    setSvc (fun z => { z with sliceAcc := modAt z.sliceAcc u (fun a => (a.1 + sq, a.2 + 128)) })
      (setSlice u (fun y =>
        { y with
          ovrCnt := if ovr then satN 32 (y.ovrCnt + 1) else y.ovrCnt
          clipCnt := if clip then satN 32 (y.clipCnt + 1) else y.clipCnt }) s)

/-- The counts of every unit; the end of a cycle frame, whose last Milestone is `ms`, closes the sums. -/
def countUnits (m : MsIn) (ms : Nat) (s : State) : State :=
  let s := (List.range 51).foldl (countUnit m) s
  if ms % 96 == 95 then setSvc (fun z => { z with sliceRms := z.sliceAcc, sliceAcc := List.replicate 51 (0, 0) }) s else s

/-! ### Lane chains (R15, R223) -/

/-- One lane over the Milestone that has ended, of length `len`: its chain, and what its cluster consumed, for the sample ring. A lane
without a source delivers 0 with INV (R15). -/
def laneStep (s : State) (m : MsIn) (len l : Nat) (st : LaneSt) : LaneSt × Option (LaneCtx × LaneWords) :=
  let src := laneSrc s l
  let x := laneCtx s len l
  if src == 0 || !x.ch.running then (stoppedLane st, none)
  else
    let (w, samples) := lanesIn x (if src == 1 then localInput s m l else svLaneInput s l) st
    (clusterPart x w { st with samples := samples }, some (x, w))

/-- The lanes, and the Milestone's entry in the sample ring (R26). -/
def laneStepAll (m : MsIn) (len : Nat) (s : State) : State :=
  let r := s.filt.lanes.mapIdx (fun l st => laneStep s m len l st)
  setProt (fun p => { p with ring := ({ ms := s.clk.ms, lanes := r.filterMap (·.2) } :: p.ring).take 384 })
    (setFilt (fun x => { x with lanes := r.mapIdx (fun l y => { y.1 with monRel := (laneSt s l).monitor }) }) s)

/-- The snapshots enter the ring's newest Milestone (R26). -/
def ringSnap (s : State) : State :=
  setProt (fun p => { p with ring := modAt p.ring 0 (fun r => { r with bi := s.trip.snap, goose := s.net.snap }) }) s

/-- Acquisition and chains at the boundary that ends a Milestone of TAI `msTai` and length `len`. -/
def acquire (m : MsIn) (msTai len : Nat) (s : State) : State :=
  settlePass (countUnits m (s.clk.ms - 1) (laneStepAll m len (svBoundary msTai len s)))

/-! ### The frequency reference (R101, R104-R109, R122) -/

/-- The reference phasor of a descriptor in the Milestone that ends, its full scale as RMS (R106, R259): a lane's fine phasor, a bay's
positive-sequence voltage, a section's agreed voltage. -/
def refSample (s : State) (d : Nat) : Option RefSample :=
  let n := refNum d
  let mk (x : Phasor) (fs : Nat) : Option RefSample := some { re := x.re, im := x.im, q := x.q, magSq := magSq x, fsSq := fs * fs * 2 ^ 61 }
  match refKind d with
  | 1 => if s.variant.lanes ≤ n then none else mk (laneFine s n) 1
  | 2 => if s.variant.bays ≤ n || !(bayRun s n).ran then none
    else let m := (bayRun s n).meas; mk (seqV (bayBytes s n) 1 m.rep) (m.fs.getD 4 0)
  | 3 => if s.variant.sections ≤ n || !sectionEn s n then none else let r := sectRun s n; mk r.agreed r.agreedFs
  | _ => none

def refSamples (s : State) : List (Option RefSample) := s.grid.cfg.refs.map (refSample s)

/-- Cluster that computes a reference. -/
def refCluster (s : State) (d : Nat) : Nat :=
  match refKind d with
  | 1 => refNum d / 64
  | 2 => clusterOf (refNum d)
  | _ => sectHomeCluster s (refNum d)

/-- The reference in use is withheld with its cluster's outputs (R109). -/
def refWithheld (held : Nat → Bool) (s : State) : Bool :=
  match s.grid.refSel with
  | some k => held (refCluster s (s.grid.cfg.refs.getD k 0))
  | none => false

/-- Steps 4 and 5 of R122 at the end of a Milestone, after every edge that fell in it; its time records follow (R149). -/
def gridEnd (held : Nat → Bool) (s : State) : State :=
  let refs := refSamples s
  let w := refWithheld held s
  let f := s.grid.fGrid
  let valid := (List.range 4).map (fun k => refValid s k (refs.getD k none))
  let s := if w then s else startNominal (chooseRef valid s)
  flushTime (setGrid (pushHistory f refs) (updateF refs w s))

/-- The Milestone opened now: f_grid in FIXED, its length, what a leader drives. -/
def gridOpen (s : State) : State :=
  let s := driveCwSync (openMilestone (fixedF s))
  setProt (fun p => { p with lens := (s.clk.len :: p.lens).take 961 }) s

/-! ### Accepted commands take effect (R53, R65, R146, R286) -/

/-- Order of the actions at one boundary (R146, R286, R370): within one place, the order of acceptance. -/
def actPlace : BAct → Nat
  | .gridMode _ => 0
  | .gridSlew _ => 1
  | .gridStep => 1
  | .bayGroup _ _ => 2
  | .sysMode _ _ => 6
  | .timeSource _ => 5
  | .timeStep _ _ => 7
  | .logicSwitch _ => 3
  | .logicForce _ _ => 8
  | .logicUnforce _ _ _ => 8
  | _ => 4

/-- The completion of an action at the boundary that opens the Milestone in progress. -/
def actDone (a : PendAct) (s : State) : State := finishAct a { detail := a.detail, result := a.result, effect := some s.clk.ms } s

/-- LOGIC.SWITCH: it waits while a logic cycle of the bay runs, and FITS is evaluated at the switch (R367). -/
def runSwitch (a : PendAct) (b : Nat) (s : State) : State :=
  let k := idleBank (logicBay s b)
  if logicBusy s b then { s with acts := s.acts ++ [{ a with late := a.late + 1 }] }
  else if !loadsWithin s b k.image k.wcet logicBudget then finishAct a (Reply.refuse Rsn.capacity) (bumpClass 2 ClassCount.refuse s)
  else
    let (s, detail, result, eff) := applyLogicSwitch b s
    finishAct a { status := if a.late == 0 then St.ok else St.delayed, detail := if a.late == 0 then detail else satN 16 a.late
                  result := result, effect := some eff } s

/-- One action. -/
def runAct (s : State) (a : PendAct) : State :=
  match a.act with
  | .sysMode _ _ => { s with acts := s.acts ++ [a] }
  | .logicSwitch b => runSwitch a b s
  | .logicRestart u k => let (s, eff) := applyLogicRestart u k s; finishAct a { detail := a.detail, result := a.result, effect := eff } s
  | .logicForce b f => let (s, eff) := applyLogicForce b f s; finishAct a { detail := a.detail, result := a.result, effect := some eff } s
  | .logicUnforce b f all =>
    let (s, eff) := applyLogicUnforce b f all s
    finishAct a { detail := a.detail, result := a.result, effect := some eff } s
  | .recForce l => let (s, id) := applyForce l s; finishAct a { result := id, effect := some s.clk.ms } s
  | .timeStep op x =>
    let (ns, t) := applyTimeStep op x s
    (match ns with
    | some d => actDone { a with result := codeOf d 64 } (recordStep d (svShift (d * (uPerNs : Int)) t))
    | none => finishAct a (Reply.refuse Rsn.state) t)
  | .bayGroup b g => actDone a (applyGroup b g s)
  | .bayBeh b v => actDone a (setMode (fun m => { m with override := modAt m.override b (fun _ => v) }) s)
  | .gridMode c => actDone a (applyGridCfg c s)
  | .gridSlew e => actDone a (applyGridSlew e s)
  | .gridStep => actDone a (syncReset (fun _ => true) (applyGridStep s))
  | .timeSource c => actDone a (applyTimeSource c s)
  | .auxSeq c => actDone a (applyAuxSeq c s)
  | .filtStop c => actDone a (applyFiltStop c s)
  | .filtStart c t => actDone a (startChain c t s)
  | .portSet b => actDone a (applyPortSet b s)
  | .svPub i b => actDone a (applySvPub i b s)
  | .goosePub i b => actDone a (applyGoosePub i b s)
  | .bayReset b x => actDone a (applyBayReset b x s)
  | .recArm l => actDone a (l.foldl (fun s x => applyArm x s) s)
  | .recDisarm l => actDone a (l.foldl (fun s r => applyDisarm r s) s)
  | .wmkSel ch w => actDone a (applyWmk ch w s)
  | .testStop => actDone a (setSvc (fun x => { x with testStop := true }) s)

/-- The actions of one place, out of those that waited. -/
def runActs (place : Nat) (l : List PendAct) (s : State) : State := (l.filter (fun a => actPlace a.act == place)).foldl runAct s

/-- Everything accepted takes effect: staged entries, group switches, the other commands, the time commands; a pending SYS.MODE
and a waiting LOGIC.SWITCH stay. -/
def runAllActs (l : List PendAct) (s : State) : State :=
  let s := runActs 2 l (applyStaged s)
  let s := (runningBays s).foldl (fun s b => groupRequest b s) s
  runActs 6 l (runActs 7 l (runActs 5 l (setTime (fun t => { t with pendCut := false }) (runActs 8 l (runActs 4 l (runActs 3 l s))))))

/-! ### The boundary -/

/-- BOOT has run its steps: CONFIGURE, with the rings open, every pin low and background calibration begun (step 0x0A, R73, R74, R160). -/
def leaveBoot (s : State) : State :=
  if s.mode.mode == .boot && s.mode.bootCode == 0x0A && !s.mode.fatal then
    let s := (List.range 3).foldl (fun s g => beginStep g (calGroup s g).idx s) s
    changeMode .configure 2 none (setMode (fun m => { m with mbReady := true }) (pinsLow s))
  else s

/-- A restart that is due at the boundary (R70, R90): a cold one takes the whole device, a warm one the supervisor core. -/
def coldDue (s : State) : Option Nat :=
  match s.mode.restart with
  | some x => if restartDue s && decide (x.src < 5) && xarikRuns s then some x.src else none
  | none => none

def warmDue (s : State) : Option Nat :=
  match s.mode.restart with
  | some x => if restartDue s && decide (5 ≤ x.src) && xarikRuns s && s.mode.warm.isNone then some x.src else none
  | none => none

def warmBoundary (s : State) : State := match warmDue s with | some src => beginWarm src s | none => s

/-- The end of the Milestone in progress: its cycle is released, recordings, probes and outputs take its values. -/
def endMilestone (m : MsIn) (s : State) : State × TkoPass :=
  let s := setProt (fun p => { p with lens := s.clk.len :: p.lens.drop 1 }) s
  let (s, p, newFl) := releaseCycle s
  (dropLoops (wmkRefresh m.p6 (tracePoints (recordEndMs (fun c => p.starting.contains c) m.drops.toNat newFl s))), p)

/-- The Milestone opened: its number, its samples, what has been accepted, the grid, the modes. -/
def openMs (m : MsIn) (p : TkoPass) (s : State) : State :=
  let tai := s.clk.msTai
  let len := s.clk.len
  let s := drivePulses (openNext (gridEnd (fun c => p.starting.contains c) s))
  let s := if s.mode.mode == .boot then s else acquire m tai len s
  let l := s.acts
  let s := setGrid (fun g => { g with stepNow := false }) { s with acts := [] }
  let s := runAllActs l s
  let s := gridOpen (runActs 1 l (runActs 0 l s))
  let s := (List.range s.variant.regions).foldl (fun s r => leaveFull r s) (autoRecords s)
  let s := setClk (fun k => { k with msTai := k.taiU }) (testBoundary (calBoundary s))
  leaveBoot (restoreLoads (modeBoundary s))

/-- What the Milestone opened now starts with: keys, waiting slots, snapshots and the protection cycle. -/
def startMs (m : MsIn) (s : State) : State :=
  let s := flushSlots m.p6 { s with sec := { s.sec with lineKeys := s.sec.slots } }
  let s := carryCkpts (ringSnap (goSnapshot (biSnapshot (notePins (tcsAll s)))))
  let s := noteCycle (if s.mode.mode.runs then protectionCycle s else s)
  warmBoundary (settle (sweepFaults s))

/-- The boundary that ends the Milestone in progress and opens the next one. -/
def boundary (m : MsIn) (s : State) : State :=
  let s := sweepLate (setClk (·.advance (endOfMs s)) s)
  let (s, p) := endMilestone m s
  match coldDue s with
  | some src => resetDevice src (openNext s)
  | none => startMs m (openMs m p s)

/-- MILESTONE_BOUNDARY (R20, R21, R96, R97): while SCLK runs. -/
def execMilestoneBoundary (m : MsIn) (s : State) : Out :=
  .next (if s.clk.sclk && s.mode.mode != .backup then boundary m s else s)

/-- BOOT_COMPLETE (R73, R74): the steps have been run, or are run now and find nothing amiss; the next boundary opens CONFIGURE. -/
def execBootComplete (s : State) : Out :=
  .next (
    if s.mode.mode != .boot || s.mode.fatal || s.pwr.waitRails then s
    else
      let s := if s.mode.bootCode == 0 then bootSteps {} s else s
      if s.mode.fatal then s else boundary {} (setMode (fun m => { m with bootCode := 0x0A }) s))

/-- WARM_RESTART (R90, R93): the next boundary, where the restart that a SYS.RESTART, an FW.ACTIVATE or the console has asked for is due
at it; the restart begins there, as it does at any boundary. The slices bring code 0 to the Milestone that ends; MILESTONE_BOUNDARY is
the same boundary with any codes (DESIGN CHOICE, log entry 57). -/
def execWarmRestart (s : State) : Out := .next (if s.clk.sclk && (warmDue s).isSome then boundary {} s else s)

/-- COLD_RESTART (R69, R90, R91): the next boundary, where a cold restart is due at it, then the boot steps; or the boot steps of one that
has taken place at its boundary. -/
def execColdRestart (r : BootReport) (s : State) : Out :=
  .next (
    if s.clk.sclk && (coldDue s).isSome then bootSteps r (boundary {} s)
    else if bootWaits s then bootSteps r s else s)

end Sys2Proof.Machine
end

