-- ==== Sys2Proof/Machine/Sources.lean ====
section
/-! DEFINITION. An event of each monitored source, with all that its own rule gives it (Table: Monitored sources), and the row that
brings a source's count to N (R529). -/

namespace Sys2Proof.Machine

/-- The exceedance of a bay's or section's check that is to bring its count to PLB_N: each check of the unit is judged (R275). -/
def plausEvent (unit : Nat) (s : State) : State :=
  [(1, 0), (2, 0), (3, 0), (3, 1), (3, 2), (4, 0)].foldl (fun (s : State) (x : Nat × Nat) => chkRow (fun b c => chkLasting (plbN b) c) unit x.1 x.2 s) s

/-- A calibration failure of a slice or spare in the phase its group runs (R164). -/
def calEvent (unit : Nat) (s : State) : State :=
  if 50 < unit then s
  else
    let g := if unit < 48 then unit / 16 else unit - 48
    let gain := match laneOfSlice s (16 * g + (calGroup s g).idx) with | some l => laneGain s l | none => 0
    settle (calFailure unit (calGroup s g).phase ((sliceSt s unit).ofs.getD gain 0) ((sliceSt s unit).gc.getD gain 0) s)

/-- One event of a source at an instance: by the source's own rule where it has more to do than to be counted (R530). A port's event
is a lost frame, an SV stream's a lost sample (log entry 53). -/
def sourceEvent (id inst : Nat) (s : State) : State :=
  match id with
  | 1 => lockstepMismatch inst s
  | 2 => eccUncorrectable inst s
  | 3 => logicAbort inst s
  | 4 => if 8 ≤ inst then selftestMismatch (inst - 8) s else s
  | 5 => eccCorrected inst s
  | 6 => if inst < s.variant.dies then linkRetry inst s else s
  | 7 => calEvent inst s
  | 8 => if inst < 2 then urgentOverrun inst s else s
  | 9 => if inst < 256 then settle (svLossEvent inst (setSv inst (fun x => { x with lost := inc x.lost }) s)) else s
  | 10 => if inst < 4 then settle (portError inst (setNetPort inst (fun x => { x with frameLoss := inc x.frameLoss }) s)) else s
  | 11 => if (gooseCtx s inst).deadline.isSome then settle (expireGoose inst s) else s
  | 12 => plausEvent inst s
  | 13 => logicOverrun inst s
  | 14 => mismatchEpisode inst s
  | 15 => if isUserLoop inst then handover inst (loopSt s inst).u (loopBytes s inst) s else s
  | 16 => if inst < 32 then settle (countEvent 16 inst s) else s
  | 17 => if inst < s.variant.regions then settle (dropRows inst s) else s
  | 20 => watchdogExpiry s
  | 21 => lockstepRestart s
  | 23 => clockJudged s
  | 18 | 19 | 22 => if inst == 0 then settle (countEvent id inst s) else s
  | _ => s

/-- LASTING_FAULT_DECLARED (R529): the event of a monitored source at an instance that is to bring its count to N. -/
def execLastingFaultDeclared (id : BitVec 5) (inst : BitVec 16) (s : State) : Out := .next (sourceEvent id.toNat inst.toNat s)

end Sys2Proof.Machine
end

