-- ==== Sys2Proof/Machine/Dispatch.lean ====
section
/-! DEFINITION. Dispatch: one arm per command; each arm is one direct call of the command's own meaning. -/

namespace Sys2Proof.Machine

def exec (i : Instr) (s : State) : Host.Outcome State Fault Refusal :=
  match i with
  | .sysCaps c => Sys2Proof.Machine.execSysCaps c s
  | .sysMode c => Sys2Proof.Machine.execSysMode c s
  | .sysStatus c => Sys2Proof.Machine.execSysStatus c s
  | .sysRestartWarm c => Sys2Proof.Machine.execSysRestartWarm c s
  | .sysRestartCold c => Sys2Proof.Machine.execSysRestartCold c s
  | .tblBase c => Sys2Proof.Machine.execTblBase c s
  | .tblSync c => Sys2Proof.Machine.execTblSync c s
  | .tblRead c => Sys2Proof.Machine.execTblRead c s
  | .bayGroup c => Sys2Proof.Machine.execBayGroup c s
  | .bayBeh c => Sys2Proof.Machine.execBayBeh c s
  | .bayRead c => Sys2Proof.Machine.execBayRead c s
  | .bayReadSection c => Sys2Proof.Machine.execBayReadSection c s
  | .bayReadTripStatus c => Sys2Proof.Machine.execBayReadTripStatus c s
  | .bayReadLoop c => Sys2Proof.Machine.execBayReadLoop c s
  | .bayReset c => Sys2Proof.Machine.execBayReset c s
  | .filtStop c => Sys2Proof.Machine.execFiltStop c s
  | .filtStart c => Sys2Proof.Machine.execFiltStart c s
  | .filtCoef c => Sys2Proof.Machine.execFiltCoef c s
  | .auxSeq c => Sys2Proof.Machine.execAuxSeq c s
  | .svPub c => Sys2Proof.Machine.execSvPub c s
  | .svPubPortSet c => Sys2Proof.Machine.execSvPubPortSet c s
  | .svStats c => Sys2Proof.Machine.execSvStats c s
  | .goosePub c => Sys2Proof.Machine.execGoosePub c s
  | .gooseStats c => Sys2Proof.Machine.execGooseStats c s
  | .curveLoad c => Sys2Proof.Machine.execCurveLoad c s
  | .logicLoad c => Sys2Proof.Machine.execLogicLoad c s
  | .logicVerify c => Sys2Proof.Machine.execLogicVerify c s
  | .logicSwitch c => Sys2Proof.Machine.execLogicSwitch c s
  | .logicForce c => Sys2Proof.Machine.execLogicForce c s
  | .logicUnforce c => Sys2Proof.Machine.execLogicUnforce c s
  | .logicRestart c => Sys2Proof.Machine.execLogicRestart c s
  | .logicRead c => Sys2Proof.Machine.execLogicRead c s
  | .gridMode c => Sys2Proof.Machine.execGridMode c s
  | .gridSyncSlew c => Sys2Proof.Machine.execGridSyncSlew c s
  | .gridSyncStep c => Sys2Proof.Machine.execGridSyncStep c s
  | .timeStep c => Sys2Proof.Machine.execTimeStep c s
  | .timeSource c => Sys2Proof.Machine.execTimeSource c s
  | .timeRead c => Sys2Proof.Machine.execTimeRead c s
  | .recArm c => Sys2Proof.Machine.execRecArm c s
  | .recDisarm c => Sys2Proof.Machine.execRecDisarm c s
  | .recForce c => Sys2Proof.Machine.execRecForce c s
  | .recList c => Sys2Proof.Machine.execRecList c s
  | .recCfg c => Sys2Proof.Machine.execRecCfg c s
  | .recFree c => Sys2Proof.Machine.execRecFree c s
  | .dmaStart c => Sys2Proof.Machine.execDmaStart c s
  | .dmaHalt c => Sys2Proof.Machine.execDmaHalt c s
  | .dmaStat c => Sys2Proof.Machine.execDmaStat c s
  | .evtRead c => Sys2Proof.Machine.execEvtRead c s
  | .evtReadStatus c => Sys2Proof.Machine.execEvtReadStatus c s
  | .evtClear c => Sys2Proof.Machine.execEvtClear c s
  | .loopXfer c => Sys2Proof.Machine.execLoopXfer c s
  | .loopBank c => Sys2Proof.Machine.execLoopBank c s
  | .loopSetpt c => Sys2Proof.Machine.execLoopSetpt c s
  | .loopInject c => Sys2Proof.Machine.execLoopInject c s
  | .loopInjectStop c => Sys2Proof.Machine.execLoopInjectStop c s
  | .loopTrace c => Sys2Proof.Machine.execLoopTrace c s
  | .loopTraceStop c => Sys2Proof.Machine.execLoopTraceStop c s
  | .pwrStatus c => Sys2Proof.Machine.execPwrStatus c s
  | .keyLoad c => Sys2Proof.Machine.execKeyLoad c s
  | .keyLoadTamperPolicy c => Sys2Proof.Machine.execKeyLoadTamperPolicy c s
  | .keyErase c => Sys2Proof.Machine.execKeyErase c s
  | .keyEraseTamperLatch c => Sys2Proof.Machine.execKeyEraseTamperLatch c s
  | .keyStatus c => Sys2Proof.Machine.execKeyStatus c s
  | .fwLoad c => Sys2Proof.Machine.execFwLoad c s
  | .fwActivate c => Sys2Proof.Machine.execFwActivate c s
  | .testRun c => Sys2Proof.Machine.execTestRun c s
  | .testRunStop c => Sys2Proof.Machine.execTestRunStop c s
  | .testResult c => Sys2Proof.Machine.execTestResult c s
  | .wmkSel c => Sys2Proof.Machine.execWmkSel c s
  | .supvCount c => Sys2Proof.Machine.execSupvCount c s
  | .unknownCommand c => Sys2Proof.Machine.execUnknownCommand c s
  | .commandFetch => Sys2Proof.Machine.execCommandFetch s
  | .commandStartTimeout tag => Sys2Proof.Machine.execCommandStartTimeout tag s
  | .tblSyncCheckDone => Sys2Proof.Machine.execTblSyncCheckDone s
  | .fwVerifyDone => Sys2Proof.Machine.execFwVerifyDone s
  | .gridFollowRelock => Sys2Proof.Machine.execGridFollowRelock s
  | .mbDoorbell k tail => Sys2Proof.Machine.execMbDoorbell k tail s
  | .ringEnable k log2n => Sys2Proof.Machine.execRingEnable k log2n s
  | .cqHeadWrite head => Sys2Proof.Machine.execCqHeadWrite head s
  | .cqEnable log2n => Sys2Proof.Machine.execCqEnable log2n s
  | .cqDisable => Sys2Proof.Machine.execCqDisable s
  | .irqStatWrite v => Sys2Proof.Machine.execIrqStatWrite v s
  | .irqMaskWrite v => Sys2Proof.Machine.execIrqMaskWrite v s
  | .taiSecLoRead => Sys2Proof.Machine.execTaiSecLoRead s
  | .registerWrite off w => Sys2Proof.Machine.execRegisterWrite off w s
  | .qspiRead addr len mhz => Sys2Proof.Machine.execQspiRead addr len mhz s
  | .qspiWrite addr data => Sys2Proof.Machine.execQspiWrite addr data s
  | .qspiStat => Sys2Proof.Machine.execQspiStat s
  | .perstN low => Sys2Proof.Machine.execPerstN low s
  | .powerOn r => Sys2Proof.Machine.execPowerOn r s
  | .rstN r => Sys2Proof.Machine.execRstN r s
  | .brownOut rail => Sys2Proof.Machine.execBrownOut rail s
  | .brownOutLatch => Sys2Proof.Machine.execBrownOutLatch s
  | .railOvervoltage rail => Sys2Proof.Machine.execRailOvervoltage rail s
  | .vinLoss => Sys2Proof.Machine.execVinLoss s
  | .vinGood => Sys2Proof.Machine.execVinGood s
  | .vinGood50ms => Sys2Proof.Machine.execVinGood50ms s
  | .vinOv => Sys2Proof.Machine.execVinOv s
  | .holdFull => Sys2Proof.Machine.execHoldFull s
  | .holdCapMeasured us => Sys2Proof.Machine.execHoldCapMeasured us s
  | .hold30v => Sys2Proof.Machine.execHold30v s
  | .hold20v => Sys2Proof.Machine.execHold20v s
  | .hold10v => Sys2Proof.Machine.execHold10v s
  | .tjHigh above => Sys2Proof.Machine.execTjHigh above s
  | .overtempPowerDown => Sys2Proof.Machine.execOvertempPowerDown s
  | .vbatCheck low => Sys2Proof.Machine.execVbatCheck low s
  | .vaux18Changeover => Sys2Proof.Machine.execVaux18Changeover s
  | .opMinuteTick => Sys2Proof.Machine.execOpMinuteTick s
  | .deviceLoopUpdate idx y => Sys2Proof.Machine.execDeviceLoopUpdate idx y s
  | .milestoneBoundary m => Sys2Proof.Machine.execMilestoneBoundary m s
  | .cycleFrameEnd => Sys2Proof.Machine.execCycleFrameEnd s
  | .stageTdExpiry bay elem => Sys2Proof.Machine.execStageTdExpiry bay elem s
  | .stageResetTimeout bay idx => Sys2Proof.Machine.execStageResetTimeout bay idx s
  | .curveOperate bay idx => Sys2Proof.Machine.execCurveOperate bay idx s
  | .curveResetTimeout bay idx => Sys2Proof.Machine.execCurveResetTimeout bay idx s
  | .deadTimeEnd bay => Sys2Proof.Machine.execDeadTimeEnd bay s
  | .reclaimEnd bay => Sys2Proof.Machine.execReclaimEnd bay s
  | .closeTEnd bay => Sys2Proof.Machine.execCloseTEnd bay s
  | .trippedTimeout bay => Sys2Proof.Machine.execTrippedTimeout bay s
  | .bfRetrip bay => Sys2Proof.Machine.execBfRetrip bay s
  | .bfBktrip bay => Sys2Proof.Machine.execBfBktrip bay s
  | .sotfArmed bay => Sys2Proof.Machine.execSotfArmed bay s
  | .sotfWindowEnd bay => Sys2Proof.Machine.execSotfWindowEnd bay s
  | .clpDeenergised bay => Sys2Proof.Machine.execClpDeenergised bay s
  | .clpActEnd bay => Sys2Proof.Machine.execClpActEnd bay s
  | .inrushWindowEnd bay => Sys2Proof.Machine.execInrushWindowEnd bay s
  | .inrushHoldEnd bay phase => Sys2Proof.Machine.execInrushHoldEnd bay phase s
  | .riTdExpiry sect => Sys2Proof.Machine.execRiTdExpiry sect s
  | .satBlkEnd sect => Sys2Proof.Machine.execSatBlkEnd sect s
  | .frzTripEnd bay => Sys2Proof.Machine.execFrzTripEnd bay s
  | .hifBackgroundValid bay lane => Sys2Proof.Machine.execHifBackgroundValid bay lane s
  | .plausibilityLasting unit code phase => Sys2Proof.Machine.execPlausibilityLasting unit code phase s
  | .plausibilityCleared unit code phase => Sys2Proof.Machine.execPlausibilityCleared unit code phase s
  | .plausibilityEpisodeEnd unit code phase => Sys2Proof.Machine.execPlausibilityEpisodeEnd unit code phase s
  | .minPulseEnd p => Sys2Proof.Machine.execMinPulseEnd p s
  | .sealMaxEnd p => Sys2Proof.Machine.execSealMaxEnd p s
  | .logicOverrun bay => Sys2Proof.Machine.execLogicOverrun bay s
  | .logicAbort bay => Sys2Proof.Machine.execLogicAbort bay s
  | .logicTimerExpiry bay t => Sys2Proof.Machine.execLogicTimerExpiry bay t s
  | .opNop bay => Sys2Proof.Machine.execOpNop bay s
  | .opLd bay a => Sys2Proof.Machine.execOpLd bay a s
  | .opLdn bay a => Sys2Proof.Machine.execOpLdn bay a s
  | .opAnd bay a => Sys2Proof.Machine.execOpAnd bay a s
  | .opAndn bay a => Sys2Proof.Machine.execOpAndn bay a s
  | .opOr bay a => Sys2Proof.Machine.execOpOr bay a s
  | .opOrn bay a => Sys2Proof.Machine.execOpOrn bay a s
  | .opXor bay a => Sys2Proof.Machine.execOpXor bay a s
  | .opNot bay => Sys2Proof.Machine.execOpNot bay s
  | .opApush bay => Sys2Proof.Machine.execOpApush bay s
  | .opOpush bay => Sys2Proof.Machine.execOpOpush bay s
  | .opPop bay => Sys2Proof.Machine.execOpPop bay s
  | .opDup bay => Sys2Proof.Machine.execOpDup bay s
  | .opRds bay => Sys2Proof.Machine.execOpRds bay s
  | .opDrop bay => Sys2Proof.Machine.execOpDrop bay s
  | .opSt bay a => Sys2Proof.Machine.execOpSt bay a s
  | .opStn bay a => Sys2Proof.Machine.execOpStn bay a s
  | .opSet bay a => Sys2Proof.Machine.execOpSet bay a s
  | .opRst bay a => Sys2Proof.Machine.execOpRst bay a s
  | .opRise bay a => Sys2Proof.Machine.execOpRise bay a s
  | .opFall bay a => Sys2Proof.Machine.execOpFall bay a s
  | .opTon bay a => Sys2Proof.Machine.execOpTon bay a s
  | .opTof bay a => Sys2Proof.Machine.execOpTof bay a s
  | .opTp bay a => Sys2Proof.Machine.execOpTp bay a s
  | .opTrst bay a => Sys2Proof.Machine.execOpTrst bay a s
  | .opCtu bay a => Sys2Proof.Machine.execOpCtu bay a s
  | .opCtd bay a => Sys2Proof.Machine.execOpCtd bay a s
  | .opCrst bay a => Sys2Proof.Machine.execOpCrst bay a s
  | .opCld bay a => Sys2Proof.Machine.execOpCld bay a s
  | .opCge bay a => Sys2Proof.Machine.execOpCge bay a s
  | .opJmpc bay a => Sys2Proof.Machine.execOpJmpc bay a s
  | .opJmpnc bay a => Sys2Proof.Machine.execOpJmpnc bay a s
  | .opJmp bay a => Sys2Proof.Machine.execOpJmp bay a s
  | .opEnd bay => Sys2Proof.Machine.execOpEnd bay s
  | .lockstepMismatch c => Sys2Proof.Machine.execLockstepMismatch c s
  | .sramEccCorrected u => Sys2Proof.Machine.execSramEccCorrected u s
  | .sramEccUncorrectable u => Sys2Proof.Machine.execSramEccUncorrectable u s
  | .standbyTakeover c => Sys2Proof.Machine.execStandbyTakeover c s
  | .standbyReplayMismatch r => Sys2Proof.Machine.execStandbyReplayMismatch r s
  | .standbySelftestMismatch r => Sys2Proof.Machine.execStandbySelftestMismatch r s
  | .supvWatchdogExpiry => Sys2Proof.Machine.execSupvWatchdogExpiry s
  | .warmRestart => Sys2Proof.Machine.execWarmRestart s
  | .warmRestartDone ok => Sys2Proof.Machine.execWarmRestartDone ok s
  | .supvLockstepRestart => Sys2Proof.Machine.execSupvLockstepRestart s
  | .coldRestart r => Sys2Proof.Machine.execColdRestart r s
  | .lastingFaultDeclared id inst => Sys2Proof.Machine.execLastingFaultDeclared id inst s
  | .lastingFaultCleared id inst => Sys2Proof.Machine.execLastingFaultCleared id inst s
  | .transientEpisodeEnd id inst => Sys2Proof.Machine.execTransientEpisodeEnd id inst s
  | .faultHandler => Sys2Proof.Machine.execFaultHandler s
  | .ptpSyncRx port m => Sys2Proof.Machine.execPtpSyncRx port m s
  | .ptpAnnounceRx port m => Sys2Proof.Machine.execPtpAnnounceRx port m s
  | .ptpPdelayReqRx port m => Sys2Proof.Machine.execPtpPdelayReqRx port m s
  | .ptpPdelayRespRx port m => Sys2Proof.Machine.execPtpPdelayRespRx port m s
  | .ptpMessageTx port kind => Sys2Proof.Machine.execPtpMessageTx port kind s
  | .ptpAnnounceTimeout port => Sys2Proof.Machine.execPtpAnnounceTimeout port s
  | .ptpSyncTimeout port => Sys2Proof.Machine.execPtpSyncTimeout port s
  | .irigFrame m => Sys2Proof.Machine.execIrigFrame m s
  | .irigTimeout => Sys2Proof.Machine.execIrigTimeout s
  | .ppsInEdge t => Sys2Proof.Machine.execPpsInEdge t s
  | .ppsInTimeout => Sys2Proof.Machine.execPpsInTimeout s
  | .timeSourceSwitch src => Sys2Proof.Machine.execTimeSourceSwitch src s
  | .timeSecondTick => Sys2Proof.Machine.execTimeSecondTick s
  | .ppsOutEdge => Sys2Proof.Machine.execPpsOutEdge s
  | .leapSecond => Sys2Proof.Machine.execLeapSecond s
  | .gridSyncEdge t => Sys2Proof.Machine.execGridSyncEdge t s
  | .gridSyncLost => Sys2Proof.Machine.execGridSyncLost s
  | .cwSyncPulse t long => Sys2Proof.Machine.execCwSyncPulse t long s
  | .cwSyncLoss => Sys2Proof.Machine.execCwSyncLoss s
  | .cwClkLoss => Sys2Proof.Machine.execCwClkLoss s
  | .refPrioritySwitch k => Sys2Proof.Machine.execRefPrioritySwitch k s
  | .gridHoldoverTimeout => Sys2Proof.Machine.execGridHoldoverTimeout s
  | .calPhaseEnd g m => Sys2Proof.Machine.execCalPhaseEnd g m s
  | .auxConversionDone code => Sys2Proof.Machine.execAuxConversionDone code s
  | .auxDelayEnd => Sys2Proof.Machine.execAuxDelayEnd s
  | .urgEdge => Sys2Proof.Machine.execUrgEdge s
  | .urgentConversionDone code => Sys2Proof.Machine.execUrgentConversionDone code s
  | .svFrameRx f => Sys2Proof.Machine.execSvFrameRx f s
  | .svSampleDeadline ctx => Sys2Proof.Machine.execSvSampleDeadline ctx s
  | .svSyncLossTimeout ctx => Sys2Proof.Machine.execSvSyncLossTimeout ctx s
  | .svPubFrameTx p => Sys2Proof.Machine.execSvPubFrameTx p s
  | .gooseFrameRx f => Sys2Proof.Machine.execGooseFrameRx f s
  | .gooseTalExpiry ctx => Sys2Proof.Machine.execGooseTalExpiry ctx s
  | .gooseRetransmit idx => Sys2Proof.Machine.execGooseRetransmit idx s
  | .prpSupervisionTx pair => Sys2Proof.Machine.execPrpSupervisionTx pair s
  | .prpSupervisionRx h => Sys2Proof.Machine.execPrpSupervisionRx h s
  | .duplicateEntryForget pair src seq => Sys2Proof.Machine.execDuplicateEntryForget pair src seq s
  | .nodeForget pair src => Sys2Proof.Machine.execNodeForget pair src s
  | .linkDown port => Sys2Proof.Machine.execLinkDown port s
  | .linkUp port => Sys2Proof.Machine.execLinkUp port s
  | .portRecovered port => Sys2Proof.Machine.execPortRecovered port s
  | .biEdge idx level t => Sys2Proof.Machine.execBiEdge idx level t s
  | .biDebounceEnd idx => Sys2Proof.Machine.execBiDebounceEnd idx s
  | .rbMismatchStart p level => Sys2Proof.Machine.execRbMismatchStart p level s
  | .rbMismatchEnd p level => Sys2Proof.Machine.execRbMismatchEnd p level s
  | .tcsAlarm p => Sys2Proof.Machine.execTcsAlarm p s
  | .tcsClear p => Sys2Proof.Machine.execTcsClear p s
  | .tcsStale p => Sys2Proof.Machine.execTcsStale p s
  | .systemTriggerEdge j rising t => Sys2Proof.Machine.execSystemTriggerEdge j rising t s
  | .triggerTimeout bay c => Sys2Proof.Machine.execTriggerTimeout bay c s
  | .recordClose r => Sys2Proof.Machine.execRecordClose r s
  | .autoRecord r => Sys2Proof.Machine.execAutoRecord r s
  | .cairnSeal => Sys2Proof.Machine.execCairnSeal s
  | .queueOverflowRecord => Sys2Proof.Machine.execQueueOverflowRecord s
  | .logChainVerify => Sys2Proof.Machine.execLogChainVerify s
  | .userLoopUpdate idx => Sys2Proof.Machine.execUserLoopUpdate idx s
  | .injectionCaptureDone => Sys2Proof.Machine.execInjectionCaptureDone s
  | .traceTrigger => Sys2Proof.Machine.execTraceTrigger s
  | .traceDone overrun => Sys2Proof.Machine.execTraceDone overrun s
  | .dmaDescriptorFetched ch err => Sys2Proof.Machine.execDmaDescriptorFetched ch err s
  | .dmaBeatDone ch write pos err => Sys2Proof.Machine.execDmaBeatDone ch write pos err s
  | .dmaWriteback ch err => Sys2Proof.Machine.execDmaWriteback ch err s
  | .dmaAccessTimeout ch a => Sys2Proof.Machine.execDmaAccessTimeout ch a s
  | .dmaAccessRetry ch a => Sys2Proof.Machine.execDmaAccessRetry ch a s
  | .dmaPacePoll ch err => Sys2Proof.Machine.execDmaPacePoll ch err s
  | .tamperFire j => Sys2Proof.Machine.execTamperFire j s
  | .tamperRearm j => Sys2Proof.Machine.execTamperRearm j s
  | .testEnd m => Sys2Proof.Machine.execTestEnd m s
  | .testTripPulseEnd => Sys2Proof.Machine.execTestTripPulseEnd s
  | .komirHelp => Sys2Proof.Machine.execKomirHelp s
  | .komirId => Sys2Proof.Machine.execKomirId s
  | .komirStatus => Sys2Proof.Machine.execKomirStatus s
  | .komirBaud n => Sys2Proof.Machine.execKomirBaud n s
  | .komirEcho on => Sys2Proof.Machine.execKomirEcho on s
  | .komirUnlockNonce => Sys2Proof.Machine.execKomirUnlockNonce s
  | .komirUnlockToken slot token => Sys2Proof.Machine.execKomirUnlockToken slot token s
  | .komirLock => Sys2Proof.Machine.execKomirLock s
  | .komirCaps => Sys2Proof.Machine.execKomirCaps s
  | .komirLog seq n => Sys2Proof.Machine.execKomirLog seq n s
  | .komirSlice x => Sys2Proof.Machine.execKomirSlice x s
  | .komirBay b => Sys2Proof.Machine.execKomirBay b s
  | .komirPins => Sys2Proof.Machine.execKomirPins s
  | .komirTime => Sys2Proof.Machine.execKomirTime s
  | .komirSupv => Sys2Proof.Machine.execKomirSupv s
  | .komirWmk ch kind unit sel e diff level => Sys2Proof.Machine.execKomirWmk ch kind unit sel e diff level s
  | .komirTest t => Sys2Proof.Machine.execKomirTest t s
  | .komirLoop l man => Sys2Proof.Machine.execKomirLoop l man s
  | .komirRestartWarm => Sys2Proof.Machine.execKomirRestartWarm s
  | .komirRestartCold => Sys2Proof.Machine.execKomirRestartCold s
  | .komirFwd off data => Sys2Proof.Machine.execKomirFwd off data s
  | .komirFwe => Sys2Proof.Machine.execKomirFwe s
  | .komirBreak => Sys2Proof.Machine.execKomirBreak s
  | .komirIdleTimeout => Sys2Proof.Machine.execKomirIdleTimeout s
  | .komirNonceExpiry => Sys2Proof.Machine.execKomirNonceExpiry s
  | .bootComplete => Sys2Proof.Machine.execBootComplete s
  | .railsGood r => Sys2Proof.Machine.execRailsGood r s
  | .supvLockstepRestartDone => Sys2Proof.Machine.execSupvLockstepRestartDone s
  | .clockFailure part => Sys2Proof.Machine.execClockFailure part s
  | .pcieLinkTrained => Sys2Proof.Machine.execPcieLinkTrained s
  | .pcieLinkLost => Sys2Proof.Machine.execPcieLinkLost s
  | .discardedFrameRx port src why => Sys2Proof.Machine.execDiscardedFrameRx port src why s
  | .ptpFollowUpRx port m => Sys2Proof.Machine.execPtpFollowUpRx port m s
  | .energyCountersSave => Sys2Proof.Machine.execEnergyCountersSave s
  | .memTEnd bay => Sys2Proof.Machine.execMemTEnd bay s
  | .riHoldEnd sect => Sys2Proof.Machine.execRiHoldEnd sect s
  | .dieToDieLinkRetry die => Sys2Proof.Machine.execDieToDieLinkRetry die s
  | .komirSyntaxError => Sys2Proof.Machine.execKomirSyntaxError s

end Sys2Proof.Machine
end

