-- ==== Sys2Proof/Safety.lean ====
section
/-! DEFINITION. The terms in which claims about the block are stated: what every step keeps, when a mailbox command starts, and
what its action answers. -/

namespace Sys2Proof.Safety

open Sys2Proof.Machine

/-- What holds of the block at reset and after every step: its memories are in canonical form, the event queue holds at most
1024 entries (R498) and the ring at most 32 768 records (R501). -/
structure Sound (s : State) : Prop where
  mem : s.mem.wf = true
  queue : s.log.queue.length ≤ 1024
  ring : s.log.records.length ≤ logSlots

/-- The command is in flight and may start now: the rings are served and no earlier command holds it back (R53, R57). -/
structure Starts (c : Cmd) (s : State) (f : InFlight) : Prop where
  served : served s = true
  found : findInFlight s c = some f
  fresh : f.started = false
  free : mayStart s.host.inflight f = true

/-- Nothing of Table: Completion status stands in its way (R52). -/
def Passes (j : Judge) (c : Cmd) (s : State) (f : InFlight) : Prop :=
  j.verdict c f.token (cfgRefused s c.code) = none

/-- An act waits for the next boundary, with the DETAIL and RESULT of its OK completion, and the command's QUEUED entry where it was
asked for (R51, R54). -/
def waits (c : Cmd) (detail result : Nat) (a : BAct) (t : State) : State := addAct c detail result a t

/-- A command that loads a block: it answers what stands in the way of the block, or RANGE with the block's first offending offset; else
it comes to what is said of the block. -/
def loads (c : Cmd) (block : Except Reply Bytes) (bad : Bytes → Option Nat) (t : State) (k : Bytes → State) : State :=
  match block with
  | .error r => answer c r t
  | .ok b => match bad b with
    | some o => answer c (Reply.range o) t
    | none => k b

/-- The command executes one logic instruction of bay b: its machine is left as `e`, its data as `d`, and nothing else of the block
changes (R353). -/
def LogicRuns (i : Instr) (s : State) (b : Nat) (e : LExec) (d : LData) : Prop :=
  exec i s = .next (setLogic b (fun x => { x with exec := e, data := d }) s)

end Sys2Proof.Safety
end

