-- ==== Sys2Proof/Certificates/Slice0/Obligations.lean ====
section
/-! DEFINITION. The statements for the provers. -/

open Sys2Proof Sys2Proof.Machine Sys2Proof.Safety

/-- A step of a state whose queue has command c in front is exec of c on the state with the queue's rest; on an empty queue it is one tick of the 250 MHz time counter and nothing else (log entry 2). -/
def Obligations.StepRunsFront : Prop :=
  (∀ (c : Instr) (cs : List Instr) (s : State), s.pending = c :: cs → step s = exec c { s with pending := cs }) ∧
  (∀ s : State, s.pending = [] → step s = .next { s with clk := s.clk.tick })

/-- After reset the device is in BOOT with BOOT_CODE 0, MB_READY, SYNC_BUSY and SUPV_RST 0; IRQ_STAT and IRQ_MASK are 0, every ring register is 0 and INT_N is high; the queue is empty; what every step keeps holds. -/
def Obligations.ResetLeaves : Prop :=
  devState State.reset = 1 ∧ State.reset.host.regs.irqStat = 0 ∧ State.reset.host.regs.irqMask = 0 ∧
  (∀ k, k < 4 → State.reset.host.rings.getD k {} =
    { baseLo := 0, baseHi := 0, log2n := 0, en := false, head := 0, tail := 0 }) ∧
  barValue State.reset 0x0140 = 0 ∧ barValue State.reset 0x0144 = 0 ∧ barValue State.reset 0x0148 = 0 ∧
  barValue State.reset 0x014C = 0 ∧ barValue State.reset 0x0150 = 0 ∧
  intLow State.reset = false ∧ State.reset.pending = [] ∧ Sound State.reset

/-- From every state in which the three memories are in canonical form, the event queue holds at most 1024 entries and the ring at most 32 768 records, every step that answers a next state gives such a state again, whatever command is in front; no step stops. -/
def Obligations.StepKeepsSound : Prop :=
  ∀ s : State, Sound s → ∃ t, step s = .next t ∧ Sound t

/-- No step lowers the sequence number of the newest record, neither clearing nor restart nor power cycle nor loss of VBAT; sealing an ordinary or a cleared record raises it by exactly 1 and the record sealed bears it, and so does the power-down record; it is 0 on a new device, so the first record bears 1. -/
def Obligations.SeqNeverFalls : Prop :=
  (∀ s t : State, step s = .next t → s.log.headSeq ≤ t.log.headSeq) ∧
  (∀ s : State, sealing s = true → s.log.queue ≠ [] →
    ∃ t, exec .cairnSeal s = .next t ∧ t.log.headSeq = s.log.headSeq + 1 ∧
      (∃ r, t.log.records.head? = some r ∧ (s.log.headSeq + 1 < 2 ^ 64 → recSeq r = s.log.headSeq + 1))) ∧
  (∀ (n : Nat) (b : Bytes) (s : State), (writeDirect n b s).log.headSeq = s.log.headSeq + 1) ∧
  State.reset.log.headSeq = 0

/-- Every command answers a next state on every state, in which the commands still waiting are the same, in the same order, and the variant is the same. -/
def Obligations.ExecKeepsQueue : Prop :=
  ∀ (i : Instr) (s : State), ∃ t, exec i s = .next t ∧ t.pending = s.pending ∧ t.variant = s.variant

/-- A command for which the rings are not served, or which has started, or which an earlier command holds back, changes nothing. One that may start and of which a status of the table applies completes with it, without its action: this is said of SYS.CAPS, BAY.BEH, GRID.MODE and FW.LOAD, commands of four families. The status is the first that applies in the order ABSENT, REFUSED with reason MODE, AUTH with its detail, RANGE with the lowest offending offset, LOCKED. -/
def Obligations.CommandCourse : Prop :=
  ∀ (c : Cmd) (s : State),
    (served s = false → exec (.sysCaps c) s = .next s ∧ exec (.bayBeh c) s = .next s ∧ exec (.gridMode c) s = .next s ∧
      exec (.fwLoad c) s = .next s) ∧
    (∀ f, findInFlight s c = some f → (f.started = true ∨ mayStart s.host.inflight f = false) →
      exec (.sysCaps c) s = .next s ∧ exec (.bayBeh c) s = .next s ∧ exec (.gridMode c) s = .next s ∧ exec (.fwLoad c) s = .next s) ∧
    (∀ f j r, Starts c s f → Judge.verdict j c f.token (cfgRefused s c.code) = some r →
      (j = {} → exec (.sysCaps c) s = .next (finish c r s)) ∧
      (j = bayJudge c [(0x14, 0, 3)] [(decide (5 < c.at_ 0x14 0 3), 0x14)] s → exec (.bayBeh c) s = .next (finish c r s)) ∧
      (j = gridJudge c s → exec (.gridMode c) s = .next (finish c r s)) ∧
      (j = fwLoadJudge c s → exec (.fwLoad c) s = .next (finish c r s))) ∧
    (∀ (j : Judge) (v : TokenVerdict) (m : Bool),
      (j.absent = true → j.verdict c v m = some (Reply.fail St.absent 0)) ∧
      (j.absent = false → (j.modeBad = true ∨ m = true) → j.verdict c v m = some (Reply.refuse Rsn.mode)) ∧
      (j.absent = false → j.modeBad = false → m = false → ∀ d, authDetail v = some d → j.verdict c v m = some (Reply.fail St.auth d)) ∧
      (j.absent = false → j.modeBad = false → m = false → authDetail v = none →
        (∀ o, j.rangeAt c = some o → j.verdict c v m = some (Reply.range o)) ∧
        (j.rangeAt c = none → j.locked = true → j.verdict c v m = some (Reply.fail St.locked 0)) ∧
        (j.rangeAt c = none → j.locked = false → j.verdict c v m = none)))

/-- SYS.CAPS completes with its 256-byte block and SYS.STATUS with its 128-byte block, both of the state in which they run, and change nothing else. The first word of the status block holds MODE, PREV_MODE, BOOT_CODE, RESET_SRC and SLOT; the first three words of the capability block are DEV_CAPS0 to DEV_CAPS2. SYS.RESTART of the KIND cold is refused with reason STATE while a TRIP output is asserted. Otherwise either kind completes OK, its effect at the Milestone that opens next; the restart waits for its completion, its source is 3 for cold and 5 for warm, and fetching stops. -/
def Obligations.SysCommands : Prop :=
  (∀ (c : Cmd) (s : State) (f : InFlight), Starts c s f → Passes {} c s f →
      exec (.sysCaps c) s = .next (answer c { out := some (sysCapsBlock (begun c s)) } (begun c s)) ∧
      exec (.sysStatus c) s = .next (answer c { out := some (sysStatusBlock (begun c s)) } (begun c s)) ∧
      (∀ t : State,
        (sysCapsBlock t).length = 256 ∧ (sysStatusBlock t).length = 128 ∧
        (sysCapsBlock t).take 12 = leBytes 4 (devCaps0 t.variant) ++ leBytes 4 (devCaps1 t.variant) ++ leBytes 4 (devCaps2 t.variant) ∧
        (sysStatusBlock t).take 4 = leBytes 4 (t.mode.mode.code + place t.mode.prev.code 4 4 + place t.mode.bootCode.toNat 8 8 +
          place t.mode.resetSrc 16 8 + place t.sec.active 24 1 + place (flag t.mode.fallback) 25 1))) ∧
  (∀ (c : Cmd) (s : State) (f : InFlight), Starts c s f → Passes (restartJudge c s) c s f → ∀ b, b = begun c s →
      (let asked (src : Nat) : State :=
         { b with mode := { b.mode with restart := some { src := src, cmd := some (refOf c) } }, host := { b.host with fetchStop := true } }
       (c.at_ 0x14 0 2 = 2 → anyTrip b = true →
         exec (.sysRestartCold c) s = .next (answer c (Reply.refuse Rsn.state) b)) ∧
       (c.at_ 0x14 0 2 = 2 → anyTrip b = false →
         exec (.sysRestartCold c) s = .next (answer c { effect := some (b.clk.ms + 1) } (asked 3))) ∧
       (c.at_ 0x14 0 2 = 1 → exec (.sysRestartWarm c) s = .next (answer c { effect := some (b.clk.ms + 1) } (asked 5)))))

/-- In CONFIGURE a request for COMMISSION or SERVICE is accepted for the next boundary unless an enabled bay is out of service or a SAFE cause is held, else refused with reason STATE. In COMMISSION a request for SERVICE is accepted. In DEGRADED, SERVICE completes OK at once, RESULT the code of DEGRADED, with no change. In COMMISSION, SERVICE and DEGRADED a request for CONFIGURE is accepted unless a TRIP output is asserted. Any other request is refused with reason STATE. When an accepted SYS.MODE takes effect the device is in the mode asked for, or in DEGRADED where SERVICE is asked for and a DEGRADED cause is active; the mode before it is kept as PREV_MODE, and RESULT [3:0] of its completion is the code of the mode entered. -/
def Obligations.ModeRequests : Prop :=
  (∀ (c : Cmd) (s : State) (f : InFlight), Starts c s f → Passes (sysModeJudge c s) c s f → ∀ b, b = begun c s →
      (let t := targetMode (c.at_ 0x14 0 4)
       let go := Host.Outcome.next (waits c 0 0 (.sysMode t (c.at_ 0x14 4 1 == 1)) b)
       let no := Host.Outcome.next (answer c (Reply.refuse Rsn.state) b)
       exec (.sysMode c) s =
         if b.mode.mode = .configure then (if t ≠ .configure ∧ startBarred b = false then go else no)
         else if b.mode.mode = .commission ∧ t = .service then go
         else if b.mode.mode = .degraded ∧ t = .service then .next (answer c { result := 6 } b)
         else if (b.mode.mode = .commission ∨ b.mode.mode = .service ∨ b.mode.mode = .degraded) ∧ t = .configure ∧ anyTrip b = false then go
         else no)) ∧
  (∀ (t : Mode) (warm : Bool) (s : State), t = .configure ∨ t = .commission ∨ t = .service →
      (let m := if t = .service ∧ s.mode.deg ≠ 0 then Mode.degraded else t
       (applySysMode t warm s).1.mode.mode = m ∧ (applySysMode t warm s).1.mode.prev = s.mode.mode ∧ (applySysMode t warm s).2.2 = m.code))

/-- TBL.BASE places its table, with the variant's count for COUNT 0, clears SEQ_VALID of the table's cached entries, notes that the table has been placed anew, and completes OK with NOEFFECT. TBL.SYNC begins its check over the tables and the range it names, at the places that are then in force. TBL.READ answers the cached entry padded to the table's entry size, with RESULT [15:0] the entry's SEQ, [16] CACHED and [63:32] the Milestone since which it is in force, 0 where it is not cached. With no check in progress the row that ends one changes nothing. -/
def Obligations.TableCommands : Prop :=
  ∀ (c : Cmd) (s : State) (f : InFlight), Starts c s f → ∀ b, b = begun c s →
    (Passes (tblBaseJudge c s) c s f →
      (let place : TblBase :=
        { placed := true, ddr := c.at_ 0x14 0 1 == 1, addr := 4096 * c.at_ 0x14 12 52,
          count := if c.at_ 0x1C 0 16 = 0 then tblCount b.variant c.unit else c.at_ 0x1C 0 16 }
       exec (.tblBase c) s = .next (answer c {} (setTbl (fun t =>
        mapTbl c.unit (fun e => { e with seqValid := false })
          { t with base := modAt t.base c.unit (fun _ => place), rebased := modAt t.rebased c.unit (fun _ => true) }) b)))) ∧
    (Passes { modeBad := !s.mode.mode.configurable, used := [(0x14, 0, 6), (0x18, 0, 32)] } c s f →
      exec (.tblSync c) s = .next (setTbl (fun t =>
        { t with
          job := some { cmd := refOf c, mask := c.at_ 0x14 0 6, first := c.at_ 0x18 0 16, count := c.at_ 0x18 16 16, base := t.base }
          rebased := List.replicate 6 false }) (queuedEntry c b))) ∧
    (Passes (tblReadJudge c s) c s f → ∀ k i, readPlace c = some (k, i) →
      (let e := tblEntry b.tbl k i
       exec (.tblRead c) s = .next (answer c
         { out := some (padTo (tblSize k) e.bytes)
           result := u16At (padTo (tblSize k) e.bytes) (tblSize k - 8) + place (flag e.cached) 16 1 +
             place (if e.cached then e.since else 0) 32 32 } b)) ∧
      (padTo (tblSize k) (tblEntry b.tbl k i).bytes).length = tblSize k) ∧
    (s.tbl.job = none → exec .tblSyncCheckDone s = .next s)

/-- When the check ends, the job is over. In a mode in which the configuration may not be changed the command is refused with reason MODE. Otherwise a table that cannot be read completes it with FAULT, detail MEMORY. Where nothing was staged it completes at once with its report and no effect; where an entry was staged, the staged entries, in order, wait with the reply for the boundary, and their class D fields are applied entry by entry. -/
def Obligations.SyncEnds : Prop :=
  ∀ (s : State) (j : SyncJob), s.tbl.job = some j →
    (let b := setTbl (fun t => { t with job := none }) s
     let a := syncPasses b j 1400 []
     let d := syncResult b j a (match openCmd b j.cmd with | some c => c.room | none => 0)
     (b.mode.mode.configurable = false → exec .tblSyncCheckDone s = .next (finishOpen j.cmd (Reply.refuse Rsn.mode) b)) ∧
     (b.mode.mode.configurable = true → a.ok = false → exec .tblSyncCheckDone s = .next (finishOpen j.cmd (Reply.fail St.fault 3) b)) ∧
     (b.mode.mode.configurable = true → a.ok = true → a.staged = [] → ∃ t, exec .tblSyncCheckDone s = .next (finishOpen j.cmd (syncReply d none) t) ∧
       t.tbl = b.tbl ∧ t.prot = b.prot) ∧
     (b.mode.mode.configurable = true → a.ok = true → a.staged ≠ [] → ∃ t, exec .tblSyncCheckDone s = .next (a.staged.foldl (fun s x => applyClassD x s) t) ∧
       t.tbl = { b.tbl with staged := a.staged, done := some d }))

/-- BAY.GROUP to a group that is not present is refused with reason STATE; to the group in force, with no switch pending, it completes OK with no change; otherwise the switch waits for the boundary. BAY.BEH waits for the boundary with its value. BAY.RESET waits for the boundary with its bits, or with none set completes OK with no change. At the boundary BAY.BEH leaves the value asked for as the bay's override, and nothing but that and its completion changes. -/
def Obligations.BayCommands : Prop :=
  (∀ (c : Cmd) (s : State) (f : InFlight), Starts c s f → ∀ b, b = begun c s →
    (Passes (bayJudge c [(0x14, 0, 3)] [(decide (5 < c.at_ 0x14 0 3), 0x14)] s) c s f →
      exec (.bayGroup c) s = .next (
        if groupPresent b c.unit (c.at_ 0x14 0 3) = false then answer c (Reply.refuse Rsn.state) b
        else if c.at_ 0x14 0 3 = (bayProt b c.unit).group ∧ groupPending b c.unit = false then answer c {} b
        else waits c 0 0 (.bayGroup c.unit (c.at_ 0x14 0 3)) b) ∧
      exec (.bayBeh c) s = .next (waits c 0 0 (.bayBeh c.unit (c.at_ 0x14 0 3)) b)) ∧
    (Passes (bayJudge c [(0x14, 0, 6)] [] s) c s f →
      exec (.bayReset c) s = .next (if c.at_ 0x14 0 6 = 0 then answer c {} b else waits c 0 0 (.bayReset c.unit (c.at_ 0x14 0 6)) b))) ∧
  (∀ (a : PendAct) (bay v : Nat) (s : State), a.act = .bayBeh bay v →
    runAct s a = actDone a { s with mode := { s.mode with override := modAt s.mode.override bay (fun _ => v) } })

/-- BAY.READ with UNIT a bay that runs answers the bay's block for the path asked for; where the block is returned, the SAT marks of the bay's eight lanes are cleared, and where it is not, nothing else changes. With a bay that does not run it answers the idle block of 2048 bytes, whose MS_NUMBER is the Milestone of the read. With a section it answers the 64-byte section block, with the trip status the 800-byte block, with a loop the 128-byte block, clearing SWB and LIM_CONFLICT of the loop where the block is returned. -/
def Obligations.BayReads : Prop :=
  ∀ (c : Cmd) (s : State) (f : InFlight), Starts c s f → Passes (readJudge c s) c s f → ∀ b, b = begun c s →
    (∀ n, readUnit b c.unit = .bay n → (runningBays b).contains n = true → (bayProt b n).rel.ran = true →
      exec (.bayRead c) s = .next (answer c { out := some (bayBlock b n (c.at_ 0x14 0 1)) }
        (if returns c 2048 b = true then
          { b with filt := { b.filt with lanes := b.filt.lanes.mapIdx (fun l x =>
            if l / 8 = n then { x with sat := List.replicate 5 false, touched := true } else x) } }
         else b))) ∧
    (∀ n, readUnit b c.unit = .bay n → ((runningBays b).contains n = false ∨ (bayProt b n).rel.ran = false) →
      exec (.bayRead c) s = .next (answer c { out := some (idleBlock b.clk.ms) } b) ∧ (idleBlock b.clk.ms).length = 2048 ∧
        (idleBlock b.clk.ms).take 8 = leBytes 8 b.clk.ms) ∧
    (∀ k, readUnit b c.unit = .section_ k →
      exec (.bayReadSection c) s = .next (answer c { out := some (sectStatus b.clk.mono (b.prot.sectRel.getD k {})) } b) ∧
        (sectStatus b.clk.mono (b.prot.sectRel.getD k {})).length = 64) ∧
    (readUnit b c.unit = .trip →
      exec (.bayReadTripStatus c) s = .next (answer c { out := some (tripStatusBlock b) } b) ∧ (tripStatusBlock b).length = 800) ∧
    (∀ i, readUnit b c.unit = .loop i → returns c 128 b = true →
      exec (.bayReadLoop c) s = .next (answer c { out := some (loopStatus b i) }
        (setLoop i (fun x => { x with swb := false, limConf := false }) b)) ∧ (loopStatus b i).length = 128) ∧
    (∀ i, readUnit b c.unit = .loop i → returns c 128 b = false →
      exec (.bayReadLoop c) s = .next (answer c { out := some (loopStatus b i) } b))

/-- FILT.STOP of a chain that runs waits for the boundary, and of a stopped chain completes OK with no change. FILT.START of a running chain is refused with reason STATE, as is one that meets an obstacle, whose lane or bay and cause RESULT names; otherwise it waits for the boundary with its mode. FILT.COEF takes 19 coefficients for stage 1 and 63 for stage 3. A set whose unused bytes are 0, that for stage 1 is symmetric, and that for stage 3 has a gain of at least one half and a delay of 0 to 62 record slots at the fundamental, is in every addressed chain when the command completes OK with the Milestone of the write and delay and gain in RESULT; no other chain changes. -/
def Obligations.FilterCommands : Prop :=
  ∀ (c : Cmd) (s b : State) (f : InFlight), Starts c s f → b = begun c s →
    (Passes (filtJudge c [] s) c s f →
      exec (.filtStop c) s = .next (if chainLatest b c.unit = true then waits c 0 0 (.filtStop c.unit) b else answer c {} b)) ∧
    (Passes (filtJudge c [(0x14, 0, 1)] s) c s f →
      exec (.filtStart c) s = .next (
        if chainLatest b c.unit = true then answer c (Reply.refuse Rsn.state) b
        else match startObstacle b sectionNames c.unit (c.at_ 0x14 0 1 == 1) with
          | some (x, cause) => answer c { Reply.refuse Rsn.state with result := x + place cause 16 8 } b
          | none => waits c 0 0 (.filtStart c.unit (c.at_ 0x14 0 1 == 1)) b)) ∧
    (Passes (coefJudge c s) c s f → ∀ (one : Bool) (n : Nat) (blk : Bytes), one = (c.at_ 0x14 0 4 == 1) → n = (if one then 19 else 63) →
      readBlock c (4 * n) b = .ok blk →
      (∀ i, i < n → fld blk (4 * i) 24 8 = 0 ∧ (one = true → (coefsOf blk n).getD i 0 = (coefsOf blk n).getD (18 - i) 0)) →
      ∀ (gd : Nat × Int), gd = gainDelay (coefsOf blk n) (if one then 768 else 384) →
      (one = false → 2 ^ 29 ≤ gd.1 ∧ 0 ≤ gd.2 ∧ gd.2 ≤ 62 * 256) →
      ∀ set : CoefSet, set = { c := coefsOf blk n, delay := if one then 9 * 256 else gd.2.toNat, gain := gd.1 } →
      exec (.filtCoef c) s = .next (answer c { result := set.delay + place set.gain 16 32, effect := some b.clk.ms }
        { b with filt := { b.filt with chains := (coefClusters b c.unit).foldl (fun l q => modAt l q (fun ch =>
          { ch with user := modAt ch.user (if one then 0 else c.at_ 0x14 4 4 - 1) (fun _ => set) })) b.filt.chains } }))

/-- When FILT.STOP takes effect the cluster's chain is stopped, and every lane word, record-tap word, estimator output and monitor-tap word of its lanes reads 0 with INV; when FILT.START takes effect the cluster's chain runs in the mode asked for. Either way lanes and chains of other clusters are as before, and everything but the filter state and the command's own completion is unchanged. -/
def Obligations.FilterEffects : Prop :=
  (∀ (a : PendAct) (n : Nat) (s : State), a.act = .filtStop n → n < s.filt.chains.length →
    ∃ t, runAct s a = actDone a t ∧ t = { s with filt := t.filt } ∧ (chainSt t n).running = false ∧
      (∀ k, k ≠ n → chainSt t k = chainSt s k) ∧
      (∀ l, l < s.filt.lanes.length → l / 64 = n →
        (∀ k, (laneSt t l).words.getD k {} = { v := 0, q := Qb.inv } ∧ (laneSt t l).tap.getD k {} = { v := 0, q := Qb.inv }) ∧
        (laneSt t l).fineDft = { re := 0, im := 0, q := Qb.inv } ∧ (laneSt t l).fineCos = { re := 0, im := 0, q := Qb.inv } ∧
        (laneSt t l).fast = List.replicate 4 { re := 0, im := 0, q := Qb.inv } ∧
        (laneSt t l).monitor = [{ v := 0, q := Qb.inv }]) ∧
      (∀ l, l / 64 ≠ n → laneSt t l = laneSt s l)) ∧
  (∀ (a : PendAct) (n : Nat) (t12 : Bool) (s : State), a.act = .filtStart n t12 → n < s.filt.chains.length →
    ∃ t, runAct s a = actDone a t ∧ t = { s with filt := t.filt } ∧ (chainSt t n).running = true ∧ (chainSt t n).t12 = t12 ∧
      (∀ k, k ≠ n → chainSt t k = chainSt s k) ∧ (∀ l, l / 64 ≠ n → laneSt t l = laneSt s l))

/-- A block is read where BUFLEN is the length asked for and its memory answers; another BUFLEN is refused with reason BUFFER, memory that does not answer gives FAULT with detail MEMORY. AUX.SEQ (8 bytes per entry), SV.PUB of a publication (128 bytes) and of the port set (64), GOOSE.PUB (512) and TIME.SOURCE (64) answer that, or RANGE with the first offending offset of the block; otherwise, unless a class C field changes that may not (LOCKED) or the port set would put PTP on an HSR pair (REFUSED, reason STATE), the command waits for the boundary with its block, a missing key or bay counted as a warning in DETAIL. At the boundary the port set in force is the block, and of the other network state only publications' next frames may change; publication i has the block loaded and no other publication changes; the auxiliary sequencer has its new table, every result at N 0, and with a table that is not empty stands at entry 0 of a new pass, the conversion in progress to be discarded; the time configuration is the one loaded, and neither the monotonic count nor the Milestone changes. -/
def Obligations.BlockLoads : Prop :=
  (∀ (c : Cmd) (n : Nat) (s : State),
    (c.room ≠ n → readBlock c n s = .error (Reply.refuse Rsn.buffer)) ∧
    (c.room = n → reachable s c.bufSpace c.bufAddr n = false → readBlock c n s = .error (Reply.fail St.fault 3)) ∧
    (c.room = n → reachable s c.bufSpace c.bufAddr n = true → readBlock c n s = .ok (memRead s c.bufSpace c.bufAddr n)) ∧
    (c.at_ 0x14 0 7 ≠ 0 → auxBlock c s = readBlock c (8 * c.at_ 0x14 0 7) s)) ∧
  (∀ (c : Cmd) (s b : State) (f : InFlight), Starts c s f → b = begun c s →
    (Passes (auxJudge c s) c s f →
      exec (.auxSeq c) s = .next (loads c (auxBlock c b) (fun x => blockRange (auxRange (c.at_ 0x14 0 7) x)) b
        (fun x => waits c 0 0 (.auxSeq (auxCfgOf c x)) b))) ∧
    (Passes (svPubJudge c s) c s f → c.unit ≠ 0x0100 →
      exec (.svPub c) s = .next (loads c (readBlock c 128 b) (fun x => blockRange (svPubRange b x)) b (fun x =>
        if pubEn (svPubLatest b c.unit) = true ∧ withoutEn (svPubLatest b c.unit) ≠ withoutEn x then answer c (Reply.fail St.locked 0) b
        else waits c (keyWarnings b (svPubAuth x) (svPubKey x)) 0 (.svPub c.unit x) b))) ∧
    (Passes (svPubJudge c s) c s f → c.unit = 0x0100 →
      exec (.svPubPortSet c) s = .next (loads c (readBlock c 64 b) (fun x => blockRange (portSetRange b.variant x)) b (fun x =>
        if portSetLocked (portSetLatest b) x 0 = true ∨ portSetLocked (portSetLatest b) x 1 = true then answer c (Reply.fail St.locked 0) b
        else if psMode x 0 = 2 ∧ (timeLatest b).ptpPorts = 1 then answer c (Reply.refuse Rsn.state) b
        else waits c 0 0 (.portSet x) b))) ∧
    (Passes { absent := decide (s.variant.goosePubs ≤ c.unit) } c s f →
      exec (.goosePub c) s = .next (loads c (readBlock c 512 b) (fun x => blockRange (goosePubRange x)) b (fun x =>
        if pubEn (goosePubLatest b c.unit) = true ∧ withoutEn (goosePubLatest b c.unit) ≠ withoutEn x then answer c (Reply.fail St.locked 0) b
        else waits c (keyWarnings b (gpAuth x) (gpKey x) + flag (decide (b.variant.bays ≤ gpBay x))) 0 (.goosePub c.unit x) b))) ∧
    (Passes {} c s f →
      exec (.timeSource c) s = .next (loads c (readBlock c 64 b) (fun x => blockRange (timeReserved x ++ timeRange b x)) b (fun x =>
        if b.mode.mode ≠ .configure ∧ timeClassC (timeLatest b) (timeCfgOf x) = true then answer c (Reply.fail St.locked 0) b
        else waits c 0 0 (.timeSource (timeCfgOf x)) b)))) ∧
  (∀ (a : PendAct) (blk : Bytes) (s : State), a.act = .portSet blk →
    ∃ t, runAct s a = actDone a t ∧ t = { s with net := { s.net with portSet := blk, svPubs := t.net.svPubs } } ∧
      (t.net.svPubs.map (·.block)) = s.net.svPubs.map (·.block)) ∧
  (∀ (a : PendAct) (i : Nat) (blk : Bytes) (s : State), a.act = .svPub i blk → i < s.net.svPubs.length →
    ∃ t, runAct s a = actDone a t ∧ t = { s with net := { s.net with svPubs := t.net.svPubs } } ∧
      ((t.net.svPubs[i]?).map (·.block)) = some blk ∧ (∀ k, k ≠ i → t.net.svPubs[k]? = s.net.svPubs[k]?)) ∧
  (∀ (a : PendAct) (i : Nat) (blk : Bytes) (s : State), a.act = .goosePub i blk → i < s.net.goosePubs.length →
    ∃ t, runAct s a = actDone a t ∧ t = { s with net := { s.net with goosePubs := t.net.goosePubs } } ∧
      ((t.net.goosePubs[i]?).map (·.block)) = some blk ∧ (∀ k, k ≠ i → t.net.goosePubs[k]? = s.net.goosePubs[k]?)) ∧
  (∀ (a : PendAct) (cfg : AuxCfg) (s : State), a.act = .auxSeq cfg →
    ∃ t, runAct s a = actDone a t ∧ t = { s with aux := t.aux } ∧ t.aux.cfg = cfg ∧
      (∀ (k : Nat) (x : AuxResult), t.aux.results[k]? = some x → x.n = 0) ∧
      (cfg.entries ≠ [] → t.aux.entry = 0 ∧ t.aux.converting = true ∧ t.aux.cur.n = 0 ∧ t.aux.pass = (s.aux.pass + 1) % 256 ∧
        t.aux.discard = (s.aux.converting && !s.aux.aborted))) ∧
  (∀ (a : PendAct) (cfg : TimeCfg) (s : State), a.act = .timeSource cfg →
    ∃ t, runAct s a = actDone a t ∧ t.time.cfg = cfg ∧ t.time.configured = true ∧ t.clk.mono = s.clk.mono ∧ t.clk.ms = s.clk.ms)

/-- CURVE.LOAD answers what stands in the way of its block of 272 bytes, or RANGE with the first offset that breaks the limits of R328. With a block within them it answers LOCKED where protection cycles run and an enabled stage of a present group of an addressed die names the slot; otherwise it writes the slot on every addressed die, no other slot, changes nothing else, and completes OK with the CRC-32C of the block in RESULT and the Milestone of the write. -/
def Obligations.CurveLoads : Prop :=
  ∀ (c : Cmd) (s b : State) (f : InFlight), Starts c s f → b = begun c s →
    Passes { absent := c.unit != 0x00FF && decide (dieCount s.variant ≤ c.unit), used := [(0x14, 0, 2)] } c s f →
    (∀ r, readBlock c 272 b = .error r → exec (.curveLoad c) s = .next (answer c r b)) ∧
    (∀ blk, readBlock c 272 b = .ok blk →
      (∀ o, curveBad blk = some o → exec (.curveLoad c) s = .next (answer c (Reply.range o) b)) ∧
      (curveBad blk = none →
        (let named := b.mode.mode.runs && (curveDies b c.unit).any (fun d => slotNamed b d (c.at_ 0x14 0 2))
         (named = true → exec (.curveLoad c) s = .next (answer c (Reply.fail St.locked 0) b)) ∧
         (named = false → ∃ l : List (List Bytes),
            exec (.curveLoad c) s = .next (answer c { result := (crc32c blk).toNat, effect := some b.clk.ms }
              { b with prot := { b.prot with curves := l } }) ∧
            (∀ d j, d < b.prot.curves.length → j < (b.prot.curves.getD d []).length →
              (l.getD d []).getD j [] = (if d ∈ curveDies b c.unit ∧ j = c.at_ 0x14 0 2 then blk else (b.prot.curves.getD d []).getD j [])) ∧
            (∀ d, d ∉ curveDies b c.unit → l[d]? = b.prot.curves[d]?)))))

/-- TIME.READ, PWR.STATUS, KEY.STATUS, SUPV.COUNT and TEST.RESULT complete with the block they name, taken from the state in which they run, and change nothing; LOGIC.READ too, but that the longest execution time of the bay starts anew where its block is returned. REC.LIST changes nothing: in MODE 0 it answers as many descriptors from the REC_ID given on as fit, with their number and the next REC_ID in RESULT, in MODE 1 the information of the record named, and STATE where there is none, in MODE 2 the status of the region. The blocks of TIME.READ, PWR.STATUS, KEY.STATUS, LOGIC.READ and TEST.RESULT have 128, 64, 576, 4352 and 64 bytes. SUPV.COUNT's parts are of 256, 368, 1632 and 64 bytes. SV.STATS and GOOSE.STATS complete with the 64-byte block of the context or publication. Where the block is returned, SV.STATS of a context starts its largest transit and smallest margin anew, GOOSE.STATS of a publication its largest trip latency; nothing else changes. -/
def Obligations.ReadingCommands : Prop :=
  ((∀ (c : Cmd) (s b : State) (f : InFlight), Starts c s f → b = begun c s →
      (Passes {} c s f →
        exec (.timeRead c) s = .next (answer c { out := some (timeBlock b) } b) ∧
        exec (.pwrStatus c) s = .next (answer c { out := some (powerBlock b) } b) ∧
        exec (.keyStatus c) s = .next (answer c { out := some (keyStatusBlock b.sec) } b)) ∧
      (Passes { range := [(c.unit == 0 || decide (15 < c.unit), 0x04)] } c s f →
        exec (.testResult c) s = .next (answer c { out := some (TestRes.encode c.unit (b.svc.results.getD c.unit {})) } b)) ∧
      (Passes { absent := decide (0x200 ≤ c.unit) && decide (c.unit ≤ 0x20F) && decide (s.variant.sections ≤ c.unit - 0x200)
                range := [((supvPart s c.unit).isNone, 4)] } c s f →
        exec (.supvCount c) s = .next (answer c { out := supvPart b c.unit } b)) ∧
      (Passes (logicJudge c (fun _ => true) [] [] s) c s f →
        exec (.logicRead c) s = .next (answer c { out := some (logicReadBlock b c.unit) }
          (if returns c (logicReadBlock b c.unit).length b = true then setLogic c.unit (fun x => { x with execMax := 0 }) b else b))) ∧
      (Passes { absent := recAbsent s c.unit, used := (0x14, 0, 2) :: (if c.at_ 0x14 0 2 ≤ 1 then [(0x18, 0, 32)] else [])
                range := [(c.at_ 0x14 0 2 == 2 && c.unit == 0x00FF, 0x04), (c.at_ 0x14 0 2 == 3, 0x14)] } c s f →
        (c.at_ 0x14 0 2 = 2 → exec (.recList c) s = .next (answer c { out := some (regionStatus b c.unit) } b)) ∧
        (c.at_ 0x14 0 2 = 1 → ∀ x, (recsOf b (recUnits b c.unit)).find? (fun x => x.2.id == c.at_ 0x18 0 32) = some x →
          exec (.recList c) s = .next (answer c { out := some (x.2.info x.1) } b)) ∧
        (c.at_ 0x14 0 2 = 1 → (recsOf b (recUnits b c.unit)).find? (fun x => x.2.id == c.at_ 0x18 0 32) = none →
          exec (.recList c) s = .next (answer c (Reply.refuse Rsn.state) b)) ∧
        (c.at_ 0x14 0 2 = 0 → ∀ l, l = (recsOf b (recUnits b c.unit)).filter (fun x => decide (c.at_ 0x18 0 32 ≤ x.2.id)) →
          ∀ n, n = min l.length (min (c.room / 256) 65535) →
          exec (.recList c) s = .next (answer c
            { result := n + place ((l[n]?.map (fun x => x.2.id)).getD 0) 32 32, out := some ((l.take n).flatMap (fun x => x.2.descriptor x.1)) } b)))) ∧
    (∀ s : State, (timeBlock s).length = 128 ∧ (powerBlock s).length = 64 ∧ (keyStatusBlock s.sec).length = 576 ∧
      (∀ k, (logicReadBlock s k).length = 4352) ∧ (∀ k x, (TestRes.encode k x).length = 64) ∧
      (∀ u p, supvPart s u = some p → p.length = if u = 0 then 256 else if u = 1 then 368 else if u = 0x100 then 1632 else 64))) ∧
  ((∀ (c : Cmd) (s b : State) (f : InFlight), Starts c s f → b = begun c s →
      (Passes { absent := !(decide (c.unit < s.variant.svSubs) || (decide (0x0100 ≤ c.unit) && decide (c.unit < 0x0106))) } c s f →
        exec (.svStats c) s = .next (
          if c.unit < 0x0100 then answer c { out := some (svStatsBlock b c.unit) }
            (if returns c 64 b then { b with net := { b.net with sv := modAt b.net.sv c.unit (fun x => { x with transitMax := 0, marginMin := none }) } } else b)
          else answer c { out := some (svPubStats b (c.unit - 0x0100)) } b)) ∧
      (Passes { absent := !(decide (c.unit < s.variant.gooseSubs) || (decide (0x0100 ≤ c.unit) && decide (c.unit < 0x0100 + s.variant.goosePubs))) } c s f →
        exec (.gooseStats c) s = .next (
          if c.unit < 0x0100 then answer c { out := some (goStatsBlock b c.unit) } b
          else answer c { out := some (goPubStats b (c.unit - 0x0100)) }
            (if returns c 64 b then
              { b with net := { b.net with goosePubs := modAt b.net.goosePubs (c.unit - 0x0100) (fun x => { x with tripLatMax := 0 }) } } else b)))) ∧
    (∀ (s : State) (k : Nat), (svStatsBlock s k).length = 64 ∧ (svPubStats s k).length = 64 ∧ (goStatsBlock s k).length = 64 ∧ (goPubStats s k).length = 64))

/-- LOGIC.LOAD of an image with FMT 1, a length that is BUFLEN and fits its parts, a matching check and room in the pool puts it into the inactive bank, not verified, and completes OK with the Milestone of the write. LOGIC.VERIFY of an empty bank is refused with reason STATE, of a bad image with reason CHECK naming cause and index, and otherwise marks the bank verified with its worst-case time and depth, which RESULT gives with whether the cluster could run it and could run it after a takeover. LOGIC.SWITCH of a bank not verified is refused with reason STATE, of one that does not fit with reason CAPACITY, which class P2 counts, and otherwise waits for the boundary; FORCE of a place that exists while it is forced already or fewer than 64 are, UNFORCE and RESTART wait for it with what they ask; UNFORCE that names no force completes OK with no change. When LOGIC.FORCE takes effect the bay has the force asked for, no other force of the same place, and every force of another place as before; the number of forces grows by at most one. When LOGIC.UNFORCE takes effect no force of the place is left, or none at all where all are named, and the others stay. Neither touches another bay. -/
def Obligations.LogicCommands : Prop :=
  (∀ (c : Cmd) (s b : State) (f : InFlight), Starts c s f → b = begun c s →
      (Passes (logicJudge c logicModes [] [] s) c s f →
        (∀ img, img = memRead b c.bufSpace c.bufAddr c.room → reachable b c.bufSpace c.bufAddr c.room = true → 64 ≤ c.room →
          u16At img 0 = 1 → u32At img 0x38 = c.room → pLength img = c.room →
          (crc32c (img.take 0x3C ++ img.drop 0x40)).toNat = u32At img 0x3C → poolUsed b c.unit + bankKib { image := img } ≤ 512 →
          exec (.logicLoad c) s = .next (answer c { effect := some b.clk.ms } (setLogic c.unit (fun x =>
            { x with
              banks := modAt x.banks (1 - x.act) (fun _ => { image := img, verified := false, wcet := 0, depth := 0 })
              lastBank := if x.lastBank = some (1 - x.act) then none else x.lastBank }) b))) ∧
        (∀ k, k = idleBank (logicBay b c.unit) →
          (k.image = [] → exec (.logicVerify c) s = .next (answer c (Reply.refuse Rsn.state) b)) ∧
          (k.image ≠ [] → ∀ cause i, (verify k.image).bad = some (cause, i) →
            exec (.logicVerify c) s = .next (answer c { Reply.refuse Rsn.check with result := i + place cause 16 8 } b)) ∧
          (k.image ≠ [] → (verify k.image).bad = none → ∀ v t, v = verify k.image →
            t = setLogic c.unit (fun x =>
              { x with banks := modAt x.banks (1 - x.act) (fun k => { k with verified := true, wcet := v.wcet, depth := v.depth }) }) b →
            exec (.logicVerify c) s = .next (answer c
              { result := v.wcet + place v.depth 32 5 + place (flag (loadsWithin t c.unit k.image v.wcet logicBudget)) 37 1 +
                  place (flag (loadsWithin t c.unit k.image v.wcet takeoverBudget)) 38 1 } t)) ∧
          (k.verified = false → exec (.logicSwitch c) s = .next (answer c (Reply.refuse Rsn.state) b)) ∧
          (k.verified = true → loadsWithin b c.unit k.image k.wcet logicBudget = false →
            exec (.logicSwitch c) s = .next (answer c (Reply.refuse Rsn.capacity) (bumpClass 2 ClassCount.refuse b))) ∧
          (k.verified = true → loadsWithin b c.unit k.image k.wcet logicBudget = true →
            exec (.logicSwitch c) s = .next (waits c 0 0 (.logicSwitch c.unit) b)))) ∧
      (Passes (logicJudge c logicModes (forceUsed c false) (forceRange c) s) c s f → ∀ x, x = logicBay b c.unit →
        ((forceOf c).ident = false ∨ ((activeImage x).bind (fun i => varSlot i (forceOf c).where_)).isSome = true) →
        (x.forces.any (forceOf c).same = true ∨ x.forces.length < 64) →
        exec (.logicForce c) s = .next (waits c 0 0 (.logicForce c.unit (forceOf c)) b)) ∧
      (∀ all, all = (c.at_ 0x14 2 1 == 1) → Passes (logicJudge c logicModes (forceUsed c true) (if all then [] else forceRange c) s) c s f →
        exec (.logicUnforce c) s = .next (
          if (logicBay b c.unit).forces.any (fun g => all || (forceOf c).same g) = true then waits c 0 0 (.logicUnforce c.unit (forceOf c) all) b
          else answer c {} b)) ∧
      (Passes { absent := c.unit != 0x00FF && decide (s.variant.bays ≤ c.unit)
                modeBad := !(s.mode.mode == .commission || s.mode.mode == .service || s.mode.mode == .degraded)
                used := [(0x14, 0, 2)], range := [(c.at_ 0x14 0 2 == 0 || c.at_ 0x14 0 2 == 3, 0x14)] } c s f →
        exec (.logicRestart c) s = .next (waits c 0 0 (.logicRestart c.unit (c.at_ 0x14 0 2)) b))) ∧
  ((∀ (b : Nat) (f : Force) (s : State), b < s.prot.bays.length → ∀ t, t = (applyLogicForce b f s).1 →
      (∀ g, g ∈ (logicBay t b).forces ↔ g = f ∨ (g ∈ (logicBay s b).forces ∧ f.same g = false)) ∧
      (logicBay t b).forces.length ≤ (logicBay s b).forces.length + 1 ∧ (∀ k, k ≠ b → logicBay t k = logicBay s k)) ∧
    (∀ (b : Nat) (f : Force) (all : Bool) (s : State), b < s.prot.bays.length → ∀ t, t = (applyLogicUnforce b f all s).1 →
      (∀ g, g ∈ (logicBay t b).forces ↔ g ∈ (logicBay s b).forces ∧ all = false ∧ f.same g = false) ∧
      (∀ k, k ≠ b → logicBay t k = logicBay s k)))

/-- GRID.MODE into FOLLOW waits for its relock to CW_CLK; any other GRID.MODE waits for the boundary, DETAIL the number of references the variant lacks. GRID.SYNC is refused with reason STATE without a sync source or a measurement, completes OK with the error in RESULT where the error is at most 2 % of a Milestone, and else waits for the boundary with it: SLEW with the Milestones needed, STEP ending the Milestone in progress at the aligned instant. TIME.STEP waits for the boundary with the pending offset (refused with reason STATE where none waits), an absolute TAI or a relative step. When TIME.STEP takes effect TAI moves by the step, or to the absolute time given; the monotonic count, the Milestone number and the bounds of the Milestone in progress do not move; STEP_CNT rises by 1 modulo 256 and no offset is left pending; a pending step whose offset is no longer there, or has been discarded at this boundary, changes nothing. -/
def Obligations.GridAndTimeCommands : Prop :=
  (∀ (c : Cmd) (s b : State) (f : InFlight), Starts c s f → b = begun c s →
      (Passes (gridJudge c s) c s f →
        exec (.gridMode c) s = .next (
          if (gridCfgOf c).gmode = 2 ∧ (gridLatest b).gmode ≠ 2 then
            setGrid (fun x => { x with relock := some (gridCfgOf c, refOf c) }) (queuedEntry c b)
          else waits c (gridWarnings b.variant (gridCfgOf c)) 0 (.gridMode (gridCfgOf c)) b)) ∧
      (Passes (syncJudge c s) c s f →
        (presentErr b.grid = none ∨ b.grid.cfg.syncSrc = 0 →
          exec (.gridSyncSlew c) s = .next (answer c (Reply.refuse Rsn.state) b) ∧
          exec (.gridSyncStep c) s = .next (answer c (Reply.refuse Rsn.state) b)) ∧
        (∀ e, presentErr b.grid = some e → b.grid.cfg.syncSrc ≠ 0 →
          (e.natAbs ≤ (frameMove b.clk.len).natAbs →
            exec (.gridSyncSlew c) s = .next (answer c { result := codeOf (inNs e) 32 } b) ∧
            exec (.gridSyncStep c) s = .next (answer c { result := codeOf (inNs e) 32 } b)) ∧
          ((frameMove b.clk.len).natAbs < e.natAbs → c.at_ 0x14 0 2 = 1 →
            exec (.gridSyncSlew c) s = .next (waits c 0 (codeOf (inNs e) 32 + place (framesNeeded e b.clk.len) 32 16) (.gridSlew e) b)) ∧
          ((frameMove b.clk.len).natAbs < e.natAbs → c.at_ 0x14 0 2 = 2 →
            exec (.gridSyncStep c) s = .next (waits c 0 (codeOf (inNs e) 32) .gridStep
              { b with
                clk := { b.clk with len := ((b.clk.len : Int) - e).toNat }
                grid := { b.grid with slewing := false, corr := 0, corrLeft := 0, corrFrame := 0 } })))) ∧
      (Passes (stepJudge c s) c s f →
        (c.at_ 0x14 0 2 = 1 → exec (.timeStep c) s = .next (if b.time.pending = none then answer c (Reply.refuse Rsn.state) b
          else waits c 0 0 (.timeStep 1 0) b)) ∧
        (c.at_ 0x14 0 2 = 2 → exec (.timeStep c) s =
          .next (waits c 0 0 (.timeStep 2 ((c.at_ 0x18 0 48 * 1000000000 + c.at_ 0x20 0 30 : Nat) : Int)) b)) ∧
        (c.at_ 0x14 0 2 = 3 → exec (.timeStep c) s = .next (waits c 0 0 (.timeStep 3 (c.sargs 0x18 0 64)) b)))) ∧
  (∀ (op : Nat) (x : Int) (s t : State) (d : Option Int), applyTimeStep op x s = (d, t) →
      (op = 1 ∧ (s.time.pending = none ∨ s.time.pendCut = true) → d = none ∧ t = s) ∧
      (∀ e, d = some e →
        t.clk.mono = s.clk.mono ∧ t.clk.ms = s.clk.ms ∧ t.clk.openedAt = s.clk.openedAt ∧ t.clk.len = s.clk.len ∧
        t.time.stepCnt = s.time.stepCnt + 1 ∧ t.time.pending = none ∧
        (op ≠ 2 → t.clk.taiOfs = s.clk.taiOfs + e * (uPerNs : Int)) ∧
        (op = 1 → ∀ p, s.time.pending = some p → e = -p) ∧ (op = 3 → e = x) ∧
        (op = 2 → 0 ≤ x → t.clk.taiNs = x.toNat ∧ e = x - (s.clk.taiNs : Int))))

/-- REC.ARM answers what stands in the way of its block of 128 bytes; where the block is in range, a region that runs gives LOCKED, and where none runs and the history and store areas hold what R452 and R453 need, the command waits for the boundary with the arming of each region. REC.DISARM waits with the regions that run, and with none completes OK with no change. REC.FORCE with no armed region is refused with reason STATE, with all full with reason CAPACITY, and else waits. REC.FREE of a record that is open or unknown is refused with reason STATE; else the records named are freed, RESULT their number. REC.CFG of a record that is not open answers the .cfg text of the reduction named, RESULT its length, and RANGE for a reduction the record does not have. -/
def Obligations.RecordCommands : Prop :=
  ∀ (c : Cmd) (s b : State) (f : InFlight), Starts c s f → b = begun c s →
    (Passes { absent := recAbsent s c.unit } c s f →
      (∀ r, readBlock c 128 b = .error r → exec (.recArm c) s = .next (answer c r b)) ∧
      (∀ blk, readBlock c 128 b = .ok blk → armRange b (recUnits b c.unit) blk = none →
        ((recUnits b c.unit).any (recUnitRuns b) = true → exec (.recArm c) s = .next (answer c (Reply.fail St.locked 0) b)) ∧
        ((recUnits b c.unit).any (recUnitRuns b) = false → (∀ x, x ∈ armsOf b (recUnits b c.unit) blk → histKibNeed x.2 ≤ x.2.histKib) →
          (∀ x, x ∈ armsOf b (recUnits b c.unit) blk → ringsSmall x.2 = false) →
          exec (.recArm c) s = .next (waits c 0 0 (.recArm (armsOf b (recUnits b c.unit) blk)) b))) ∧
      exec (.recDisarm c) s = .next (if (recUnits b c.unit).filter (recUnitRuns b) = [] then answer c {} b
        else waits c 0 0 (.recDisarm ((recUnits b c.unit).filter (recUnitRuns b))) b) ∧
      (∀ l, l = (recUnits b c.unit).filter (fun r => (region b r).armed.isSome) →
        exec (.recForce c) s = .next (if l = [] then answer c (Reply.refuse Rsn.state) b
          else if ∀ r ∈ l, (region b r).full = true then answer c (Reply.refuse Rsn.capacity) b
          else waits c 0 0 (.recForce l) b))) ∧
    (Passes { absent := decide (s.variant.regions ≤ c.unit), used := [(0x14, 0, 32), (0x18, 0, 1)] } c s f →
      (findRec b c.unit (c.at_ 0x14 0 32) = none → exec (.recFree c) s = .next (answer c (Reply.refuse Rsn.state) b)) ∧
      (∀ x, findRec b c.unit (c.at_ 0x14 0 32) = some x →
        (x.state = .open_ → exec (.recFree c) s = .next (answer c (Reply.refuse Rsn.state) b)) ∧
        (x.state ≠ .open_ → ∀ l, l = freeable (region b c.unit) (c.at_ 0x14 0 32) (c.at_ 0x18 0 1 == 1) →
          exec (.recFree c) s = .next (answer c { result := l.length } (setRegion c.unit (fun g =>
            { g with freed := true, recs := g.recs.map (fun x => if x.id ∈ l then { x with state := .freed } else x) }) b))))) ∧
    (Passes { used := [(0x14, 0, 32), (0x18, 0, 3)] } c s f → ∀ x,
      ((recsOf b (List.range 4)).map (·.2)).find? (fun x => x.id == c.at_ 0x14 0 32) = some x → x.state ≠ .open_ →
      exec (.recCfg c) s = .next (if x.red / 2 ^ c.at_ 0x18 0 2 % 2 = 0 then answer c (Reply.range 0x18) b
        else (let t := cfgBytes (cfgLines x (c.at_ 0x18 0 2) (c.at_ 0x18 2 1 == 1))
              answer c { result := t.length, out := some t } b)))

/-- DMA.START of a channel that is active is refused with reason STATE; otherwise the channel runs with its arguments, its cause, byte count and pending interrupts cleared, the fetch of its first descriptor issued, and the command completes OK; no other channel changes. DMA.STAT answers the 32-byte block of each channel it names and, where they are returned, clears PEND and PEND_OVF of those channels and nothing else; a buffer that is too short is refused with reason BUFFER. DMA.HALT of channels none of which is active completes OK, and the engine goes on; otherwise each of them that is active is halting, the command waits with them, and the engine goes on. -/
def Obligations.DmaCommands : Prop :=
  ∀ (c : Cmd) (s b : State) (f : InFlight), Starts c s f → b = begun c s →
    (Passes (dmaStartJudge c s) c s f →
      (dmaActive b c.unit = true → exec (.dmaStart c) s = .next (answer c (Reply.refuse Rsn.state) b)) ∧
      (dmaActive b c.unit = false → c.unit < b.dma.ch.length → ∃ t, exec (.dmaStart c) s = .next (answer c {} t) ∧
        t = { b with dma := { b.dma with ch := t.dma.ch } } ∧ (∀ k, k ≠ c.unit → dmaCh t k = dmaCh b k) ∧
        (dmaCh t c.unit).st = .running ∧ (dmaCh t c.unit).cause = 0 ∧ (dmaCh t c.unit).total = 0 ∧ (dmaCh t c.unit).pend = 0 ∧
        (dmaCh t c.unit).prio = c.at_ 0x1C 0 2 ∧ (dmaCh t c.unit).retry = c.at_ 0x1C 2 3 ∧ (dmaCh t c.unit).pace = c.at_ 0x1C 5 2 ∧
        (dmaCh t c.unit).descSp = c.at_ 0x14 0 2 ∧ (dmaCh t c.unit).desc = c.at_ 0x14 5 43 * 32 ∧
        (dmaCh t c.unit).chainMax = (if c.at_ 0x1C 16 16 = 0 then 4096 else c.at_ 0x1C 16 16) ∧
        (dmaCh t c.unit).ops = [{ a := .fetch, at_ := b.clk.mono }])) ∧
    (Passes { range := [(c.unit != 0x00FF && decide (31 < c.unit), 0x04)] } c s f →
      (∀ l, l = (if c.unit = 0x00FF then List.range 32 else [c.unit]) →
        (c.room < 32 * l.length → exec (.dmaStat c) s = .next (answer c (Reply.refuse Rsn.buffer) b)) ∧
        (32 * l.length ≤ c.room → ∃ t, exec (.dmaStat c) s = .next (answer c { out := some (l.flatMap (fun k => dmaStatus (dmaCh b k))) } t) ∧
          t = { b with dma := { b.dma with ch := t.dma.ch } } ∧
          (returns c (32 * l.length) b = false → t = b) ∧
          (returns c (32 * l.length) b = true → ∀ k, k < b.dma.ch.length →
            dmaCh t k = if k ∈ l then { dmaCh b k with pend := 0, pendOvf := false } else dmaCh b k)) ∧
        (l.filter (dmaActive b) = [] → exec (.dmaHalt c) s = .next (dmaRun (answer c {} b))) ∧
        (l.filter (dmaActive b) ≠ [] → ∃ t, exec (.dmaHalt c) s = .next (dmaRun t) ∧
          t.dma.halts = b.dma.halts ++ [(refOf c, l.filter (dmaActive b))] ∧ t = { queuedEntry c b with dma := t.dma } ∧
          (∀ k, k ∈ l.filter (dmaActive b) → k < b.dma.ch.length → (dmaCh t k).halting.isSome = true))))

/-- EVT.READ with fewer than 64 bytes of buffer is refused with reason BUFFER. In MODE 1 it answers the log status; in MODE 0 it answers the records from the sequence asked for, or from the oldest kept, as many as fit and exist, RESULT the sequence after the last, DETAIL how many of those asked for are gone; a WM that is not 0 is the new one where the block is returned. READ_MARK rises to RESULT where that is asked for and the records are returned, and never falls. EVT.CLEAR enters the cleared record at the end of the queue and waits for it to be sealed; where the queue is full it is refused with reason STATE (the model's choice, log entry 13). -/
def Obligations.EventCommands : Prop :=
  ∀ (c : Cmd) (s b : State) (f : InFlight), Starts c s f → b = begun c s →
    (Passes (evtReadJudge c s) c s f →
      (c.room < 64 → exec (.evtRead c) s = .next (answer c (Reply.refuse Rsn.buffer) b)) ∧
      (64 ≤ c.room → ∀ m : Nat → State, (∀ k, m k = { b with log := { b.log with
            wm := if c.at_ 0x20 0 16 = 0 ∨ returns c k b = false then b.log.wm else c.at_ 0x20 0 16 } }) →
        (c.at_ 0x1C 0 2 = 1 → exec (.evtReadStatus c) s = .next (answer c { out := some (logStatus (m 64).log) } (m 64))) ∧
        (c.at_ 0x1C 0 2 = 0 → ∃ first n t,
          first = max (c.at_ 0x14 0 64) (oldestSeq b.log) ∧ n = min (c.room / 64) (b.log.headSeq + 1 - first) ∧
          exec (.evtRead c) s = .next (answer c
            { detail := if c.at_ 0x14 0 64 = 0 then 0 else satN 16 (first - c.at_ 0x14 0 64), result := first + n
              out := some ((List.range n).flatMap (fun i => recordAt b.log (first + i))) } t) ∧
          t = { m (64 * n) with log := { (m (64 * n)).log with readMark := t.log.readMark } } ∧
          t.log.readMark = if c.at_ 0x1C 2 1 = 1 ∧ returns c (64 * n) b = true then max b.log.readMark (first + n) else b.log.readMark))) ∧
    (Passes { range := [(c.unit != 0, 0x04)] } c s f → ∀ e, e = { mkEventAt b b.clk.taiU Src.log 2 0 [] with clear := some (refOf c, c.keySlot) } →
      exec (.evtClear c) s = .next (
        if b.log.queue.length < 1024 then queuedEntry c { b with log := enqueue b.clk.ms e b.log }
        else answer c (Reply.refuse Rsn.state) { b with log := enqueue b.clk.ms e b.log }) ∧
      (b.log.queue.length < 1024 → (enqueue b.clk.ms e b.log).queue = b.log.queue ++ [e]))

/-- LOOP.XFER, LOOP.BANK and LOOP.SETPT of a user loop that runs wait for its next update behind the requests already there, no other loop changing; of another loop they are refused with reason STATE. LOOP.INJECT with a good block begins its injection where none runs and the loop is a user loop that runs, in automatic for an injection into the setpoint; otherwise it is refused with reason STATE. LOOP.INJECT STOP marks the running one to stop and completes OK. LOOP.TRACE with a good block and a buffer that exists begins a trace where none is there and is refused with reason STATE where one is; LOOP.TRACE STOP ends the running one and completes OK. Trace commands pass only on the K64. -/
def Obligations.LoopCommands : Prop :=
  ∀ (c : Cmd) (s b : State) (f : InFlight), Starts c s f → b = begun c s →
    (∀ (q : LoopReq), 
      (q = .xfer (c.at_ 0x14 0 2) (c.at_ 0x14 2 1 == 1) (c.sargs 0x18 0 32) →
        Passes (loopJudge c [(0x14, 0, 3), (0x18, 0, 32)] [(c.at_ 0x14 0 2 == 0 || c.at_ 0x14 0 2 == 3, 0x14)] s) c s f →
        exec (.loopXfer c) s = .next (if isUserLoop c.unit = true ∧ (loopSt b c.unit).on = true then
          setLoop c.unit (fun x => { x with req := x.req ++ [(some (refOf c), q)] }) (queuedEntry c b) else answer c (Reply.refuse Rsn.state) b)) ∧
      (q = .bank (c.at_ 0x14 0 1) (c.at_ 0x14 16 16) → Passes (loopJudge c [(0x14, 0, 1), (0x14, 16, 16)] [] s) c s f →
        exec (.loopBank c) s = .next (if isUserLoop c.unit = true ∧ (loopSt b c.unit).on = true then
          setLoop c.unit (fun x => { x with req := x.req ++ [(some (refOf c), q)] }) (queuedEntry c b) else answer c (Reply.refuse Rsn.state) b)) ∧
      (q = .setpt (c.sargs 0x14 0 32) → Passes (loopJudge c [(0x14, 0, 32)] [] s) c s f →
        exec (.loopSetpt c) s = .next (if isUserLoop c.unit = true ∧ (loopSt b c.unit).on = true then
          setLoop c.unit (fun x => { x with req := x.req ++ [(some (refOf c), q)] }) (queuedEntry c b) else answer c (Reply.refuse Rsn.state) b))) ∧
    (Passes (loopJudge c [(0x14, 0, 1)] [] s) c s f →
      (c.at_ 0x14 0 1 = 1 → exec (.loopInjectStop c) s = .next (answer c {}
        { b with loops := { b.loops with inj := b.loops.inj.map (fun x => { x with stop := true }) } })) ∧
      (c.at_ 0x14 0 1 = 0 → ∀ blk, readBlock c 64 b = .ok blk → injBad b c.unit blk = none →
        exec (.loopInject c) s = .next (
          if b.loops.inj = none ∧ isUserLoop c.unit = true ∧ (loopSt b c.unit).on = true ∧ (bitAt blk 0 0 = true ∨ (loopSt b c.unit).auto = true)
          then setLoops (fun l => { l with inj := some { loop := c.unit, cmd := refOf c, block := blk, reg := List.replicate (prbsTaps blk).1 true } }) (queuedEntry c b)
          else answer c (Reply.refuse Rsn.state) b))) ∧
    (Passes (traceJudge c s) c s f → s.variant = .k64 ∧
      (c.at_ 0x14 0 1 = 1 → exec (.loopTraceStop c) s = .next (answer c {} (endTrace 1 b))) ∧
      (c.at_ 0x14 0 1 = 0 → ∀ blk, readBlock c 192 b = .ok blk → traceBad blk = none → reachable b .ddr (u64At blk 0) 0x400100 = true →
        exec (.loopTrace c) s = .next (if b.loops.trace = none then
          setLoops (fun l => { l with trace := some { cmd := refOf c, block := blk } }) (queuedEntry c b) else answer c (Reply.refuse Rsn.state) b)))

/-- A doorbell moves TAIL of an enabled ring that is served to a value below 2^LOG2N and changes nothing else. MBk_CFG with EN 1, LOG2N 1 to 8 and, in mailbox memory, a span inside it that meets no other enabled ring enables the ring. A doorbell while EN or MB_READY is 0 or with a value not below 2^LOG2N, an enabling write with LOG2N 0 or above 8 and a LOG2N write of an enabled ring are ignored: MBERR is set, no register of any ring changes. -/
def Obligations.CommandRings : Prop :=
  ∀ (s : State),
    (∀ (k : BitVec 2) (tail : BitVec 8) (g : Ring), s.host.rings[k.toNat]? = some g →
      (g.en = true → s.mode.mbReady = true → tail.toNat < 2 ^ g.log2n.toNat →
        exec (.mbDoorbell k tail) s = .next (setRing k.toNat (fun g => { g with tail := tail }) s)) ∧
      (g.en = false ∨ s.mode.mbReady = false ∨ 2 ^ g.log2n.toNat ≤ tail.toNat →
        exec (.mbDoorbell k tail) s = .next (raiseIrq Irq.mberr s))) ∧
    (∀ (k : BitVec 2) (log2n : BitVec 4) (g : Ring), s.host.rings[k.toNat]? = some g →
      ((g.en = true → log2n = g.log2n) → 1 ≤ log2n.toNat → log2n.toNat ≤ 8 →
        (g.baseLo.getLsbD 0 = true → ringAddr g.baseLo g.baseHi + 64 * 2 ^ log2n.toNat ≤ mbxSize ∧
          ∀ p ∈ enabledSpans s k.toNat, p.2 ≤ ringAddr g.baseLo g.baseHi ∨ ringAddr g.baseLo g.baseHi + 64 * 2 ^ log2n.toNat ≤ p.1) →
        exec (.ringEnable k log2n) s = .next (setRing k.toNat (fun g => { g with log2n := log2n, en := true }) s)) ∧
      ((g.en = true ∧ log2n ≠ g.log2n) ∨ log2n = 0 ∨ 8 < log2n.toNat →
        exec (.ringEnable k log2n) s = .next (raiseIrq Irq.mberr s))) ∧
    ((raiseIrq Irq.mberr s).host.rings = s.host.rings ∧ (raiseIrq Irq.mberr s).host.cq = s.host.cq ∧
      (raiseIrq Irq.mberr s).host.regs.irqStat.getLsbD Irq.mberr = true)

/-- CQ_ENABLE of a ring that may be enabled begins a new first pass: TAIL 0, PHASE 1, then the held entries in order as space allows. CQ_DISABLE clears EN, keeps the commands in flight and sets CQSTALL where there are any. CQ_HEAD_WRITE takes the host's HEAD and lets held completions out in order. A completion is written at TAIL with the present PHASE where the ring is enabled, not full and holds nothing back; otherwise it joins the end of the held ones with CQSTALL. Held completions leave in order, and one stays held only where the ring is disabled or full. -/
def Obligations.CompletionRing : Prop :=
  ∀ (s : State),
    (∀ log2n, s.host.cq.en = false → ringOk s 4 s.host.cq.baseLo s.host.cq.baseHi log2n 32 = true →
      exec (.cqEnable log2n) s = .next (flushHeld s.host.held (setCq (fun q => { q with log2n := log2n, en := true, tail := 0, phase := true }) s))) ∧
    (s.host.cq.en = true → ∃ t, exec .cqDisable s = .next t ∧ t.host.cq = { s.host.cq with en := false } ∧ t.host.inflight = s.host.inflight ∧
      t.host.held = s.host.held ∧ t.mem = s.mem ∧ (s.host.inflight ≠ [] → t.host.regs.irqStat.getLsbD Irq.cqstall = true) ∧
      (s.host.inflight = [] → t = { s with host := { s.host with cq := { s.host.cq with en := false } } })) ∧
    (s.host.cq.en = false → exec .cqDisable s = .next s) ∧
    (∀ head, exec (.cqHeadWrite head) s = .next (
      let t := setCq (fun q => { q with head := head }) s
      if s.host.cq.en = true then flushHeld s.host.held t else t)) ∧
    (∀ c : Completion,
      (s.host.cq.en = true → s.host.cq.full = false → s.host.held = [] → complete c s = putCompletion c s) ∧
      (s.host.cq.en = false ∨ s.host.cq.full = true ∨ s.host.held ≠ [] →
        complete c s = raiseIrq Irq.cqstall { s with host := { s.host with held := s.host.held ++ [c] } }) ∧
      (∃ t, putCompletion c s = t ∧ t.host.regs.irqStat.getLsbD Irq.cq = true ∧ t.host.held = s.host.held ∧
        t.host.cq.tail = nextSlot s.host.cq.tail.toNat (2 ^ s.host.cq.log2n.toNat) ∧
        t.host.cq.phase = (s.host.cq.phase != decide (2 ^ s.host.cq.log2n.toNat ≤ s.host.cq.tail.toNat + 1)) ∧
        (∀ e, e = (restartEffect c s).encode s.host.cq.phase s.clk.shortTime →
          ∀ a, a = ringAddr s.host.cq.baseLo s.host.cq.baseHi + 32 * s.host.cq.tail.toNat →
          reachable s (ringSpace s.host.cq.baseLo) a 32 = true →
          t.mem = s.mem.write (ringSpace s.host.cq.baseLo) a e))) ∧
    (∀ l, (flushHeld l s).host.inflight = s.host.inflight ∧
      ∃ n, n ≤ l.length ∧ (flushHeld l s).host.held = l.drop n ∧
        (n < l.length → (flushHeld l s).host.cq.en = false ∨ (flushHeld l s).host.cq.full = true))

/-- A write of IRQ_STAT clears exactly the bits written with 1 and changes nothing else. A write of IRQ_MASK sets it; the only other thing that can change is the MSI-X messages and pending bits of causes it enables while they are already pending. INT_N is low exactly while IRQ_STAT AND IRQ_MASK is not 0. Raising a cause sets its bit and no other; its message is sent on a 0-to-1 transition while it is enabled, and in no other case; a masked vector keeps its message pending, and one that is not masked sends it while the link is up. -/
def Obligations.InterruptRegisters : Prop :=
  (∀ (v : Word) (s : State), ∃ t, exec (.irqStatWrite v) s = .next t ∧
    t = { s with host := { s.host with regs := { s.host.regs with irqStat := t.host.regs.irqStat } } } ∧
    ∀ k, k < 13 → t.host.regs.irqStat.getLsbD k = (s.host.regs.irqStat.getLsbD k && !v.getLsbD k)) ∧
  (∀ (v : Word) (s : State), ∃ t, exec (.irqMaskWrite v) s = .next t ∧
    t.host.regs.irqMask = v.setWidth 13 ∧ t.host.regs.irqStat = s.host.regs.irqStat ∧
    t = { s with
      host := { s.host with regs := { s.host.regs with irqMask := v.setWidth 13, pba := t.host.regs.pba } }
      out := { s.out with msix := t.out.msix } } ∧
    ((∀ k, k < 13 → v.getLsbD k = true → s.host.regs.irqMask.getLsbD k = false → s.host.regs.irqStat.getLsbD k = false) →
      t.out.msix = s.out.msix ∧ t.host.regs.pba = s.host.regs.pba)) ∧
  (∀ s : State, intLow s = true ↔ s.host.regs.irqStat &&& s.host.regs.irqMask ≠ 0) ∧
  (∀ (k : Nat) (s : State), k < 13 → ∃ t, raiseIrq k s = t ∧ t.host.regs.irqMask = s.host.regs.irqMask ∧ t.host.rings = s.host.rings ∧ t.mem = s.mem ∧
    (∀ j, j < 13 → t.host.regs.irqStat.getLsbD j = (s.host.regs.irqStat.getLsbD j || decide (j = k))) ∧
    (s.host.regs.irqStat.getLsbD k = true ∨ s.host.regs.irqMask.getLsbD k = false → t.out = s.out ∧ t.host.regs.pba = s.host.regs.pba) ∧
    (s.host.regs.irqStat.getLsbD k = false → s.host.regs.irqMask.getLsbD k = true →
      ((s.host.regs.msix.getD k {}).ctrl.getLsbD 0 = true → t.out = s.out ∧ t.host.regs.pba = s.host.regs.pba ||| BitVec.ofNat 32 (2 ^ k)) ∧
      ((s.host.regs.msix.getD k {}).ctrl.getLsbD 0 = false → s.host.linkUp = true →
        t.out.msix = s.out.msix ++ [(k, (s.host.regs.msix.getD k {}).addr.toNat, (s.host.regs.msix.getD k {}).data.toNat)])))

/-- REGISTER_WRITE narrower than 32 bits changes nothing, and one of 64 bits is the write of its low word and then that of its high word. A 32-bit write of an offset that is read-only or undefined (those named) changes nothing; of a base register of a disabled command ring it stores the writable bits, and of an enabled one only sets MBERR; QSPI_WIN and QSPI_CFG take their fields, and IRQ_STAT, IRQ_MASK, CQ_HEAD and the doorbells do what their own rows do. TAI_SEC_LO_READ latches the high seconds with STEP_CNT and TQ, and the nanoseconds, of one instant, and changes nothing else. PERST_N low holds the endpoint in reset and takes the link down; the rest of the device goes on. PCIE_LINK_TRAINED brings the link up unless PERST_N holds the endpoint, and PCIE_LINK_LOST takes it down. No access to host memory is answered while the link is down. -/
def Obligations.RegisterAccess : Prop :=
  (∀ (s : State) (v : Word),
      (∀ off : BitVec 14, exec (.registerWrite off .narrow) s = .next s) ∧
      (∀ (off : BitVec 14) (d : BitVec 64), exec (.registerWrite off (.double d)) s =
        .next (barWrite (off.toNat / 8 * 8 + 4) ((d >>> 32).setWidth 32) (barWrite (off.toNat / 8 * 8) (d.setWidth 32) s))) ∧
      (∀ off : BitVec 14, exec (.registerWrite off (.word v)) s = .next (barWrite (off.toNat / 4 * 4) v s)) ∧
      (∀ off : BitVec 14, off.toNat / 4 * 4 ∈ [0x0000, 0x0010, 0x0014, 0x0018, 0x001C, 0x0020, 0x0060, 0x0064, 0x0068, 0x010C, 0x011C, 0x012C, 0x013C,
          0x014C, 0x0300, 0x1000, 0x3000] →
        exec (.registerWrite off (.word v)) s = .next s) ∧
      (∀ (k : Nat), k < 4 →
        exec (.registerWrite (BitVec.ofNat 14 (0x0100 + 16 * k)) (.word v)) s = .next (
          if (s.host.rings.getD k {}).en = true then raiseIrq Irq.mberr s else setRing k (fun g => { g with baseLo := v &&& 0xFFFFFFC1 }) s) ∧
        exec (.registerWrite (BitVec.ofNat 14 (0x0104 + 16 * k)) (.word v)) s = .next (
          if (s.host.rings.getD k {}).en = true then raiseIrq Irq.mberr s else setRing k (fun g => { g with baseHi := v }) s) ∧
        (v.toNat < 256 → exec (.registerWrite (BitVec.ofNat 14 (0x0200 + 4 * k)) (.word v)) s = exec (.mbDoorbell (BitVec.ofNat 2 k) (v.setWidth 8)) s)) ∧
      exec (.registerWrite 0x0040 (.word v)) s = exec (.irqStatWrite v) s ∧
      exec (.registerWrite 0x0044 (.word v)) s = exec (.irqMaskWrite v) s ∧
      exec (.registerWrite 0x0084 (.word v)) s = .next (setRegs (fun r => { r with qspiWin := v.setWidth 13 }) s) ∧
      exec (.registerWrite 0x0080 (.word v)) s = .next (setRegs (fun r => { r with qspiQuad := v.getLsbD 0, qspiDummy := (v >>> 1).setWidth 6 }) s) ∧
      exec (.registerWrite 0x0150 (.word v)) s = exec (.cqHeadWrite (v.setWidth 8)) s ∧
      exec .taiSecLoRead s = .next (setRegs (fun r =>
        { r with
          taiHi := BitVec.ofNat 32 (s.clk.taiSec / 2 ^ 32 + place s.time.stepCnt.toNat 16 8 + place (tqByte s.time) 24 8)
          taiNs := BitVec.ofNat 32 s.clk.taiSubNs }) s) ∧
      barValue s 0x0060 = s.clk.taiSec % 2 ^ 32) ∧
  (∀ (s : State),
      (∀ low, exec (.perstN low) s = .next { s with host := { s.host with perst := low, pcieLink := s.host.pcieLink && !low } }) ∧
      exec .pcieLinkTrained s = .next { s with host := { s.host with pcieLink := s.host.pcieLink || !s.host.perst } } ∧
      exec .pcieLinkLost s = .next { s with host := { s.host with pcieLink := false } } ∧
      (s.host.pcieLink = false → ∀ a n, reachable s .host a n = false))

/-- A READ frame returns as many bytes as it clocks and changes no memory, ring or log; of mailbox memory it returns the bytes there and clears ERR. A READ in the DDR4 window at 50 MHz with fewer than 24 dummy clocks returns 0xFF bytes and sets ERR. A WRITE frame inside mailbox memory stores its bytes, every other byte reading as before, and clears ERR. STAT returns INT and ERR with BUSY 0, clears ERR, takes the form QUAD asks for into use, and changes nothing else. -/
def Obligations.QspiFrames : Prop :=
  (∀ (addr : BitVec 24) (len mhz : Nat) (s : State), ∃ t, exec (.qspiRead addr len mhz) s = .next t ∧
    t.host.regs.qspiOut.length = len ∧ t.mem = s.mem ∧ t.log = s.log ∧ t.host.rings = s.host.rings ∧
    (0x100000 ≤ addr.toNat → addr.toNat < 0x200000 → 50 ≤ mhz → dummyClocks s.host.regs < 24 →
      t.host.regs.qspiErr = true ∧ ∀ k, k < len → t.host.regs.qspiOut[k]? = some 0xFF#8) ∧
    (0x010000 ≤ addr.toNat → addr.toNat + len ≤ 0x030000 →
      t.host.regs.qspiErr = false ∧ ∀ k, k < len → t.host.regs.qspiOut[k]? = some (s.mem.mbx.read (addr.toNat - 0x010000 + k)))) ∧
  (∀ (addr : BitVec 24) (data : Bytes) (s : State), 0x010000 ≤ addr.toNat → addr.toNat + data.length ≤ 0x030000 → s.mem.wf = true →
    ∃ t, exec (.qspiWrite addr data) s = .next t ∧ t.host.regs.qspiErr = false ∧
      (∀ k, k < data.length → t.mem.mbx.read (addr.toNat - 0x010000 + k) = data.getD k 0) ∧
      (∀ a, (a < addr.toNat - 0x010000 ∨ addr.toNat - 0x010000 + data.length ≤ a) → t.mem.mbx.read a = s.mem.mbx.read a) ∧
      t.mem.ddr = s.mem.ddr ∧ t.mem.host = s.mem.host) ∧
  (∀ s : State, exec .qspiStat s = .next (setRegs (fun r =>
    { r with
      qspiOut := [BitVec.ofNat 8 (flag (intLow s) + place (flag s.host.regs.qspiErr) 2 1)]
      qspiQuadNow := r.qspiQuad, qspiErr := false }) s))

/-- COMMAND_FETCH takes from the ring whose turn it is, MB0 first, the entry at HEAD whose 64 bytes lie in that ring's memory, moves HEAD to the next slot modulo 2^LOG2N and puts the command last in flight; an entry whose tag is in flight is refused with reason TAG_BUSY and does not enter flight. Where nothing may be fetched nothing changes. COMMAND_START_TIMEOUT of a command that is not in flight, has started or that waits in order changes nothing, and refuses one that might start with reason OVERLOAD, 50 ms after its wait began. UNKNOWN_COMMAND, ordered and judged like any other command, answers REFUSED, reason UNKNOWN. -/
def Obligations.Fetching : Prop :=
  (∀ s : State, canFetch s = false ∨ nextRing s.host = none → exec .commandFetch s = .next s) ∧
  (∀ (s : State) (g : Ring), s.host.rings[0]? = some g → g.en = true → g.head ≠ g.tail → nextRing s.host = some 0) ∧
  (∀ (s : State) (k : Nat) (g : Ring) (i a : Nat) (c : Cmd), canFetch s = true → nextRing s.host = some k → s.host.rings[k]? = some g →
    i = g.head.toNat % 2 ^ g.log2n.toNat → a = ringAddr g.baseLo g.baseHi + 64 * i → reachable s (ringSpace g.baseLo) a 64 = true →
    c = { bits := BitVec.ofNat 512 (leAt (memRead s (ringSpace g.baseLo) a 64) 0 64), ring := BitVec.ofNat 2 k, slot := BitVec.ofNat 8 i } →
    ∃ t, exec .commandFetch s = .next t ∧
      (t.host.rings[k]?).map (·.head) = some (nextSlot i (2 ^ g.log2n.toNat)) ∧ (∀ j, j ≠ k → t.host.rings[j]? = s.host.rings[j]?) ∧
      ((∀ f ∈ s.host.inflight, f.cmd.tag ≠ c.tag) → ∃ f, t.host.inflight = s.host.inflight ++ [f] ∧ f.cmd = c ∧ f.started = false ∧
        f.at_ = s.clk.mono ∧ f.order = s.host.fetched ∧ t.host.fetched = s.host.fetched + 1) ∧
      ((∃ f ∈ s.host.inflight, f.cmd.tag = c.tag) → t.host.inflight = s.host.inflight ∧
        ∃ u, t = complete ((Reply.refuse Rsn.tagBusy).completion (BitVec.ofNat 8 c.tag) c.ring c.slot 0) u)) ∧
  (∀ (tag : BitVec 8) (s : State),
    (∀ f, s.host.inflight.find? (fun f => f.cmd.tag == tag.toNat) = some f → f.started = false → mayStart s.host.inflight f = true →
      exec (.commandStartTimeout tag) s = .next (finish f.cmd (Reply.refuse Rsn.overload)
        (bumpClass 5 ClassCount.refuse { s with clk := s.clk.advance (f.waitFrom + msU 50) }))) ∧
    (∀ f, s.host.inflight.find? (fun f => f.cmd.tag == tag.toNat) = some f → f.started = true ∨ mayStart s.host.inflight f = false →
      exec (.commandStartTimeout tag) s = .next s) ∧
    (s.host.inflight.find? (fun f => f.cmd.tag == tag.toNat) = none → exec (.commandStartTimeout tag) s = .next s)) ∧
  (∀ (c : Cmd) (s : State) (f : InFlight), Starts c s f → Passes { used := [(0x14, 0, 256)] } c s f →
    exec (.unknownCommand c) s = .next (answer c (Reply.refuse Rsn.unknown) (begun c s)))

/-- KEY.LOAD of a block in range, not met by a tamper response, whose unwrapped key has the length its use asks for and the KCV stated, completes OK with the Milestone that opens next and holds the key in its slot, CTR kept, every other slot and the line keys in use unchanged, KEYS_LOST cleared; one that does not unwrap, or of another length or KCV, answers CHECK. KEY.LOAD 0x0100 of a policy block in range completes OK and takes the policy. KEY.ERASE with no key to erase completes OK with no change, and else erases the slots named, CTR kept. KEY.ERASE 0x0100 clears TLATCH, TFIRST, L2 and the held TAMPER cause, and no other cause of SAFE. -/
def Obligations.KeyCommands : Prop :=
  ∀ (c : Cmd) (s b : State) (f : InFlight), Starts c s f → b = begun c s →
    (Passes (keyLoadJudge c s) c s f → f.token ≠ .provisioning →
      (c.unit = 0x0100 → ∀ blk, readBlock c 16 b = .ok blk → blockRange (policyRange blk) = none →
        exec (.keyLoadTamperPolicy c) s = .next (answer c {} (secRecord 6 0 (blk.take 4) { b with sec := { b.sec with policy := policyOf blk } }))) ∧
      (c.unit ≠ 0x0100 → ∀ blk, readBlock c 64 b = .ok blk → blockRange (keyBlockRange false blk) = none →
        ((findInFlight b c).map (·.tampered)).getD false = false →
        (keyUnwrap (b.sec.slots.getD c.keySlot {}).key ((blk.drop 8).take (fld blk 4 0 8 + 8)) = none →
          exec (.keyLoad c) s = .next (answer c (Reply.refuse Rsn.check) b)) ∧
        (∀ k, keyUnwrap (b.sec.slots.getD c.keySlot {}).key ((blk.drop 8).take (fld blk 4 0 8 + 8)) = some k →
          (fld blk 4 0 8 ≠ keyLength (fld blk 0 0 4) (fld blk 0 4 1) ∨ kcvOf k ≠ u32At blk 0x30 →
            exec (.keyLoad c) s = .next (answer c (Reply.refuse Rsn.check) b)) ∧
          (fld blk 4 0 8 = keyLength (fld blk 0 0 4) (fld blk 0 4 1) → kcvOf k = u32At blk 0x30 → c.unit < b.sec.slots.length →
          ∃ t, exec (.keyLoad c) s = .next (answer c { effect := some (b.clk.ms + 1) } t) ∧
            (t.sec.slots.getD c.unit {}) = { b.sec.slots.getD c.unit {} with
              use := fld blk 0 0 4, alg := fld blk 0 4 1, key := k, kcv := u32At blk 0x30, loadSec := b.clk.taiSec % 2 ^ 32 } ∧
            (∀ i, i ≠ c.unit → t.sec.slots.getD i {} = b.sec.slots.getD i {}) ∧ t.sec.keysLost = false ∧
            t.sec.setAuth = (b.sec.setAuth || fld blk 0 0 4 == 3) ∧ t.sec.lineKeys = b.sec.lineKeys)))) ∧
    (Passes (keyEraseJudge c s) c s f →
      (c.unit = 0x0100 → ∃ t, exec (.keyEraseTamperLatch c) s = .next (answer c {} t) ∧
        t.sec.tlatch = List.replicate 7 false ∧ t.sec.l2 = false ∧ t.sec.tfirst = 0 ∧ t.sec.slots = b.sec.slots ∧
        t.mode.safe.getLsbD 2 = false ∧ (∀ k, k < 5 → k ≠ 2 → t.mode.safe.getLsbD k = b.mode.safe.getLsbD k) ∧ t.mode.mode = b.mode.mode) ∧
      (c.unit ≠ 0x0100 → (∀ i, i < 32 → c.unit = 0x00FF ∨ i = c.unit → (b.sec.slots.getD i {}).use = 0) →
        exec (.keyErase c) s = .next (answer c {} b)) ∧
      (c.unit ≠ 0x0100 → (∃ i, i < 32 ∧ (c.unit = 0x00FF ∨ i = c.unit) ∧ (b.sec.slots.getD i {}).use ≠ 0) →
        ∃ t, exec (.keyErase c) s = .next (answer c { effect := some (b.clk.ms + 1) } t) ∧
          (∀ i, c.unit = 0x00FF ∨ i = c.unit → t.sec.slots.getD i {} =
            { ctr := (b.sec.slots.getD i {}).ctr, ctrMram := (b.sec.slots.getD i {}).ctrMram }) ∧
          (∀ i, c.unit ≠ 0x00FF → i ≠ c.unit → t.sec.slots.getD i {} = b.sec.slots.getD i {})))

/-- FW.LOAD with a buffer that is not 4 KiB to 64 KiB in steps of 4 KiB is refused with reason BUFFER; a part that does not follow the one before or would pass the end of the slot, or while a verification runs, with reason STATE; a part that follows is added to the image of the inactive slot, which is not valid, and is answered OK, but FINAL begins the verification and leaves the command open. FW_VERIFY_DONE marks the slot valid and answers OK, or answers CHECK with the number of the first rule the image fails. FW.ACTIVATE without a valid inactive slot is refused with reason STATE; otherwise it completes OK, makes that slot active, notes COMMIT and asks for a warm restart. -/
def Obligations.FirmwareCommands : Prop :=
  (∀ (c : Cmd) (s b : State) (f : InFlight), Starts c s f → b = begun c s →
    (Passes (fwLoadJudge c s) c s f → ∀ o i x, o = c.at_ 0x14 0 32 → i = 1 - b.sec.active → x = b.sec.fw.getD i {} →
      (c.room % 4096 ≠ 0 ∨ c.room < 4096 ∨ 65536 < c.room → exec (.fwLoad c) s = .next (answer c (Reply.refuse Rsn.buffer) b)) ∧
      (c.room % 4096 = 0 → 4096 ≤ c.room → c.room ≤ 65536 →
        (b.sec.verify ≠ none ∨ (o ≠ 0 ∧ (x.loading = false ∨ x.image.length ≠ o)) ∨ slotSize < o + c.room →
          exec (.fwLoad c) s = .next (answer c (Reply.refuse Rsn.state) b)) ∧
        (b.sec.verify = none → (o = 0 ∨ (x.loading = true ∧ x.image.length = o)) → o + c.room ≤ slotSize →
          ∀ blk, readBlock c c.room b = .ok blk → ∀ t, t = setFw i (fun _ =>
            { image := if o = 0 then blk else x.image ++ blk, valid := false, loading := true }) b →
          exec (.fwLoad c) s = .next (if c.at_ 0x18 0 1 = 1 then setSec (fun y => { y with verify := some (refOf c) }) (queuedEntry c t)
            else answer c {} t)))) ∧
    (Passes { used := [(0x14, 0, 1)] } c s f → ∀ x, x = b.sec.fw.getD (1 - b.sec.active) {} →
      (x.valid = false → exec (.fwActivate c) s = .next (answer c (Reply.refuse Rsn.state) b)) ∧
      (x.valid = true → exec (.fwActivate c) s = .next (answer c {} (secRecord 9 0 (leBytes 2 (u16At x.image 8) ++ leBytes 1 (c.at_ 0x14 0 1))
        { b with
          sec := { b.sec with active := 1 - b.sec.active, commit := c.at_ 0x14 0 1 == 1 }
          mode := { b.mode with restart := some { src := 5, cmd := some (refOf c) } } })))) ) ∧
  (∀ (s : State),
    (s.sec.verify = none → exec .fwVerifyDone s = .next s) ∧
    (∀ x, s.sec.verify = some x → ∀ i f t, i = 1 - s.sec.active → f = s.sec.fw.getD i {} → t = { s with sec := { s.sec with verify := none } } →
      (imageFault s.variant s.sec.minSvn f.image = none → exec .fwVerifyDone s = .next (finishOpen x {}
        (secRecord 8 0 (leBytes 2 (u16At f.image 8) ++ leBytes 1 (imageSvn f)) (setFw i (fun f => { f with valid := true, loading := false }) t)))) ∧
      (∀ k, imageFault s.variant s.sec.minSvn f.image = some k →
        exec .fwVerifyDone s = .next (finishOpen x { status := St.refused, detail := Rsn.check, result := k }
          (secRecord 7 0 (dCode k) (setFw i (fun f => { f with loading := false }) t))))))

/-- TAMPER_FIRE of a source that is enabled and armed, outside BACKUP, latches it, disarms it, sets IRQ_STAT.TAMPER, and answers at its level: at level 0 no key changes; at 1 the keys of use 1 and 2 are erased and no others; at 2 every key is erased and the SAFE cause TAMPER is raised; the line keys in use are erased with them. A source that is disabled or disarmed changes nothing. TAMPER_REARM arms it again and ends its condition. -/
def Obligations.TamperRows : Prop :=
  (∀ (j : BitVec 3) (s : State), s.sec.policy.en.getD j.toNat false = false ∨ s.sec.tarmed.getD j.toNat false = false →
    exec (.tamperFire j) s = .next s) ∧
  (∀ (j : BitVec 3) (s : State) (lv : Nat), s.sec.policy.en.getD j.toNat false = true → s.sec.tarmed.getD j.toNat false = true →
    s.mode.mode ≠ .backup → lv = s.sec.policy.level.getD j.toNat 0 → s.sec.tlatch.length = 7 → s.sec.tarmed.length = 7 → j.toNat < 7 →
    ∃ t, exec (.tamperFire j) s = .next t ∧ t.sec.tlatch.getD j.toNat false = true ∧ t.sec.tarmed.getD j.toNat true = false ∧
      t.host.regs.irqStat.getLsbD Irq.tamper = true ∧
      (lv = 0 → t.sec.slots = s.sec.slots ∧ t.mode.safe = s.mode.safe) ∧
      (lv = 1 → (∀ i, t.sec.slots.getD i {} = (let k := s.sec.slots.getD i {}
        if k.use = 1 ∨ k.use = 2 then { ctr := k.ctr, ctrMram := k.ctrMram } else k)) ∧ t.mode.safe = s.mode.safe) ∧
      (lv = 2 → (∀ i, t.sec.slots.getD i {} = { ctr := (s.sec.slots.getD i {}).ctr, ctrMram := (s.sec.slots.getD i {}).ctrMram }) ∧
        (∀ i, t.sec.lineKeys.getD i {} = { ctr := (s.sec.lineKeys.getD i {}).ctr, ctrMram := (s.sec.lineKeys.getD i {}).ctrMram }) ∧
        t.sec.l2 = true ∧ t.mode.safe.getLsbD 2 = true)) ∧
  (∀ (j : BitVec 3) (s : State), exec (.tamperRearm j) s = .next { s with sec := { s.sec with
    tactive := modAt s.sec.tactive j.toNat (fun _ => false), tarmed := modAt s.sec.tarmed j.toNat (fun _ => true) } })

/-- VIN_LOSS while VIN is good notes the loss: discharging, one ride-through more, step 1 shed, and in SERVICE or DEGRADED a change of mode due at the boundary; the mode and the pins stay. VIN_GOOD resumes charging and shows the length of the ride-through; VIN_GOOD_50MS 50 ms later makes the return due. HOLD_FULL and VIN_OV set and record their states; TJ_HIGH and VBAT_CHECK set theirs and record a rise; HOLD_30V sheds recording, and HOLD_20V parks the standbys that may be parked; HOLD_CAP_MEASURED shows the capacitance and whether it is low. VAUX18_CHANGEOVER hands the backup domain to VBAT. OP_MINUTE_TICK counts a minute and stands 60 s on, the copy of the count untouched but at a full hour. -/
def Obligations.SupplyRows : Prop :=
  ∀ (s : State),
    (s.pwr.vinGood = true → s.mode.mode ≠ .backup → ∃ t, exec .vinLoss s = .next t ∧ t.pwr.vinGood = false ∧ t.pwr.hu = .discharging ∧
      t.pwr.rtCount = satN 32 (s.pwr.rtCount + 1) ∧ t.pwr.lostAt = (s.clk.mono : Int) ∧ t.pwr.shed1 = true ∧
      (t.pwr.ridePend = true ↔ s.mode.mode = .service ∨ s.mode.mode = .degraded) ∧ t.mode.mode = s.mode.mode ∧ t.trip = s.trip) ∧
    (s.pwr.vinGood = false → exec .vinLoss s = .next s) ∧
    (s.pwr.vinGood = false → s.mode.mode ≠ .backup → exec .vinGood s = .next (powerEvent 2 0 { s with pwr := { s.pwr with
      vinGood := true, goodAt := s.clk.mono, rtLast := satN 32 (((s.clk.mono : Int) - s.pwr.lostAt).toNat / usU 1), latched := s.pwr.latched && !s.pwr.vinFell, hu := .charging } })) ∧
    (s.mode.mode ≠ .backup → s.pwr.vinGood = true → s.pwr.shed1 = true → ∃ t, exec .vinGood50ms s = .next t ∧ t.pwr.backPend = true ∧
      t.clk.mono = max s.clk.mono (s.pwr.goodAt + (msU 50 : Nat)).toNat ∧ t.mode = s.mode) ∧
    (s.mode.mode ≠ .backup → s.pwr.vinGood = true → exec .vinOv s = .next (powerEvent 6 0 { s with pwr := { s.pwr with vinOv := true } })) ∧
    (s.mode.mode ≠ .backup → s.pwr.hu = .charging → exec .holdFull s = .next (powerEvent 5 0 { s with pwr := { s.pwr with hu := .full } })) ∧
    (s.mode.mode ≠ .backup → s.pwr.hu = .charging → ∀ us, ∃ t, exec (.holdCapMeasured us) s = .next t ∧
      (t.pwr.capLow = true ↔ us < 480000) ∧ (us % 160 = 0 → us / 160 < 2 ^ 32 → t.pwr.holdCap = us / 160)) ∧
    (s.mode.mode ≠ .backup → s.pwr.vinGood = false →
      (s.pwr.shed2 = false → ∃ t, exec .hold30v s = .next t ∧ t.pwr.shed2 = true ∧ t.rec_.shed = true) ∧
      (s.pwr.shed3 = false → (∃ r, r < 4 ∧ mayPark s r = true) → exec .hold20v s = .next (powerEvent 3 3
        { s with pwr := { s.pwr with shed3 := true }, mode := { s.mode with parked := (List.range 4).map (mayPark s) } }))) ∧
    (s.mode.mode ≠ .backup →
      (∀ above, above = false ∨ s.pwr.tjHigh = true → exec (.tjHigh above) s = .next { s with pwr := { s.pwr with tjHigh := above } }) ∧
      (s.pwr.tjHigh = false → exec (.tjHigh true) s = .next (powerEvent 8 0 { s with pwr := { s.pwr with tjHigh := true } })) ∧
      (∀ low, low = false ∨ s.pwr.vbatLow = true → exec (.vbatCheck low) s = .next { s with pwr := { s.pwr with vbatLow := low } }) ∧
      (s.pwr.vbatLow = false → exec (.vbatCheck true) s = .next (powerEvent 9 0 { s with pwr := { s.pwr with vbatLow := true } })) ∧
      (∃ t, exec .opMinuteTick s = .next t ∧ t.log.opMin = satN 32 (s.log.opMin + 1) ∧ t.pwr.minAt = s.pwr.minAt + secU 60 ∧
        t.clk.mono = max s.clk.mono (s.pwr.minAt + secU 60) ∧ (t.log.opMin % 60 ≠ 0 → t.log.opCopy = s.log.opCopy))) ∧
    exec .vaux18Changeover s = .next { s with pwr := { s.pwr with onVbat := true } }

/-- RAIL_OVERVOLTAGE, HOLD_10V without VIN, OVERTEMP_POWER_DOWN and BROWN_OUT_LATCH while rails are awaited power the device down: one record is written at once with the next SEQ, the queue is lost, the mode is BACKUP with the fault code, no pin is driven, every rail is off; the fault is latched for codes 2 and 3 only. BROWN_OUT of a rail that exists is a reset with RESET_SRC 1 into BOOT that awaits the rails, RAIL_BO latching the rail, unless it is the third within 60 s, which powers down with code 2; all this outside BACKUP. A power-down keeps the keys. -/
def Obligations.PowerDownRows : Prop :=
  (∀ (s : State), s.mode.mode ≠ .backup →
    (∀ rail, hasRail s rail.toNat = true → exec (.railOvervoltage rail) s = .next (powerDown 3 s)) ∧
    (s.pwr.vinGood = false → exec .hold10v s = .next (powerDown 1 s)) ∧
    exec .overtempPowerDown s = .next (powerDown 4 s) ∧
    (s.pwr.waitRails = true → ∃ t, exec .brownOutLatch s = .next (powerDown 2 t) ∧ t = { s with clk := t.clk } ∧ s.clk.mono ≤ t.clk.mono) ∧
    (∀ rail, hasRail s rail.toNat = true → ∀ recent, recent = s.pwr.boTimes.filter (fun t => decide ((s.clk.mono : Int) < t + (secU 60 : Nat))) →
      ∃ t, exec (.brownOut rail) s = .next t ∧ t.mode.resetSrc ≤ 1 ∧ t.trip.driven = false ∧
        (recent.length < 2 → t.mode.mode = .boot ∧ t.mode.resetSrc = 1 ∧ t.mode.bootCode = 0 ∧ t.pwr.waitRails = true ∧
          t.pwr.boTimes.length = recent.length + 1 ∧ (rail.toNat < s.pwr.railBo.length → t.pwr.railBo.getD rail.toNat false = true)) ∧
        (2 ≤ recent.length → t.mode.mode = .backup ∧ t.pwr.pfault = 2 ∧ t.pwr.latched = true))) ∧
  (∀ (code : Nat) (s : State), ∃ t, powerDown code s = t ∧ t.mode.mode = .backup ∧ t.pwr.pfault = code ∧ t.trip.driven = false ∧
    t.pwr.railOk = List.replicate 6 false ∧ (t.pwr.latched = true ↔ code = 2 ∨ code = 3) ∧ t.log.queue = [] ∧ t.log.overflow = none ∧
    t.log.headSeq = s.log.headSeq + 1 ∧ t.mem.mbx = [] ∧ t.mem.ddr = [] ∧ t.mem.host = s.mem.host ∧ t.host.inflight = [] ∧
    t.sec.slots = s.sec.slots)

/-- WARM_RESTART is the boundary that opens next where a warm restart is due, and else changes nothing; at a boundary's end the restart that is due begins. One that begins, at a boundary or by the watchdog, clears MB_READY, sets SUPV_RST, resets BAR0 but the latched time, and the rings, and leaves the mode; when its image has verified the rings are served again, unless the SAFE cause SUPV is raised in a running mode, and no command is in flight but those that go on; else the SAFE cause SUPV is raised and MB_READY is 0. A lockstep restart sets SUPV_RST, keeps the rings and the pins, and its end clears it. While a restart runs no other begins. COLD_RESTART is the boundary where a cold restart is due, then the boot steps, or the boot steps that a reset awaits. RST_N resets the device into BOOT; commands in flight and rings are gone. -/
def Obligations.RestartRows : Prop :=
  (∀ (s : State),
    (∀ x, s.mode.restart = some x → restartDue s = true → 5 ≤ x.src → s.mode.mode ≠ .boot → s.mode.mode ≠ .backup → s.mode.warm = none →
      (s.clk.sclk = true → exec .warmRestart s = .next (boundary {} s)) ∧ warmBoundary s = beginWarm x.src s) ∧
    (s.mode.restart = none ∨ restartDue s = false → exec .warmRestart s = .next s)) ∧
  (∀ (s : State), s.mode.mode ≠ .boot → s.mode.mode ≠ .backup → s.mode.warm = none → s.mode.supvRst = false →
    (∃ t, exec .supvWatchdogExpiry s = .next t ∧ t.mode.mbReady = false ∧ t.mode.supvRst = true ∧ t.mode.resetSrc = 6) ∧
    (∃ t, exec .supvLockstepRestart s = .next t ∧ t.mode.supvRst = true ∧ t.mode.mbReady = s.mode.mbReady ∧ t.mode.resetSrc = 8 ∧
      t.mode.supvRestarts = satN 32 (s.mode.supvRestarts + 1) ∧ t.host.rings = s.host.rings ∧ t.host.cq = s.host.cq ∧ t.trip = s.trip)) ∧
  (∀ (s : State), s.mode.warm ≠ none ∨ s.mode.supvRst = true →
    exec .supvWatchdogExpiry s = .next s ∧ exec .supvLockstepRestart s = .next s) ∧
  (∀ (src : Nat) (s : State), ∃ t, beginWarm src s = t ∧ t.mode.mbReady = false ∧ t.mode.supvRst = true ∧ t.mode.warm = some src ∧
    t.mode.resetSrc = src ∧ t.mode.restart = none ∧ t.mode.mode = s.mode.mode ∧ t.acts = [] ∧ t.tbl.job = none ∧
    t.host.regs = { taiHi := s.host.regs.taiHi, taiNs := s.host.regs.taiNs } ∧ t.host.rings = List.replicate 4 {} ∧ t.host.cq = {} ∧ t.prot.bays.length = s.prot.bays.length ∧
    t.svc.baud = 115200 ∧ t.svc.unlocked = false) ∧
  (∀ (s : State), s.mode.warm ≠ none →
    (slotValid s.variant s.sec s.sec.active true = true → ∃ t, exec (.warmRestartDone true) s = .next t ∧ t.mode.warm = none ∧ t.mode.supvRst = false ∧
      (t.mode.mbReady = true ↔ s.mode.mode.runs = false ∨ s.mode.safe.getLsbD 3 = false) ∧ t.sec.commit = false ∧
      t.sec.minSvn = (if s.sec.commit = true then max s.sec.minSvn (imageSvn (s.sec.fw.getD s.sec.active {})) else s.sec.minSvn) ∧
      (∀ f ∈ t.host.inflight, f.applied = none ∧ (ongoing s).contains (refOf f.cmd) = true)) ∧
    (∃ t, exec (.warmRestartDone false) s = .next t ∧ t.mode.warm = none ∧ t.mode.mbReady = false ∧ t.mode.safe.getLsbD 3 = true ∧ t.sec.commit = false)) ∧
  (∀ (s : State), s.mode.supvRst = true → s.mode.warm = none →
    ∃ t, exec .supvLockstepRestartDone s = .next t ∧ t.mode.supvRst = false ∧ t.mode.mbReady = s.mode.mbReady ∧ t.mode.mode = s.mode.mode) ∧
  (∀ (r : BootReport) (s : State) (x : RestartReq), s.mode.restart = some x → restartDue s = true → x.src < 5 → s.mode.mode ≠ .boot →
    s.mode.mode ≠ .backup → s.clk.sclk = true → exec (.coldRestart r) s = .next (bootSteps r (boundary {} s))) ∧
  (∀ (r : BootReport) (s : State), s.mode.mode = .boot → s.mode.bootCode = 0 → s.mode.fatal = false → s.pwr.waitRails = false →
    exec (.coldRestart r) s = .next (bootSteps r s)) ∧
  (∀ (r : BootReport) (s : State), s.mode.mode ≠ .backup → ∃ t, exec (.rstN r) s = .next t ∧ t.mode.mode = .boot ∧ t.mode.resetSrc = 2 ∧
    t.trip.driven = false ∧ t.host.inflight = [] ∧ t.host.cq = {} ∧ t.mode.mbReady = false ∧ t.acts = [])

/-- POWER_ON from BACKUP with VIN good and no latched fault runs the boot steps; RAILS_GOOD does where rails are awaited. Steps that find nothing amiss end with BOOT_CODE 9, SCLK running at 4800 Hz from Milestone 0; a failure of the self-test, of both images, of DDR4, of the PLL or of MRAM holds BOOT with its code and MB_READY 0. BOOT_COMPLETE after the steps is the boundary with BOOT_CODE 0x0A, and leaving BOOT enters CONFIGURE with MB_READY 1; outside BOOT, after a fatal failure or while rails are awaited it changes nothing. A power-on counts one power cycle; SEQ and the sealed records stay. -/
def Obligations.BootRows : Prop :=
  (∀ (r : BootReport) (s : State), s.mode.mode = .backup → s.pwr.vinGood = true → s.pwr.latched = false →
    ∃ t, exec (.powerOn r) s = .next t ∧ t = bootSteps r (resetDevice 0 s) ∧ t.log.headSeq = s.log.headSeq ∧ t.log.records = s.log.records ∧
      t.mem.mbx = []) ∧
  (∀ (r : BootReport) (s : State), s.mode.mode ≠ .backup ∨ s.pwr.vinGood = false ∨ s.pwr.latched = true → exec (.powerOn r) s = .next s) ∧
  (∀ (r : BootReport) (s : State), s.pwr.waitRails = true → exec (.railsGood r) s = .next (bootSteps r
    { s with pwr := { s.pwr with waitRails := false, railOk := List.replicate 6 true } })) ∧
  (∀ (r : BootReport) (s : State), s.mode.mode = .boot → s.mode.fatal = false →
    ∃ t, bootSteps r s = t ∧ t.mode.mode = .boot ∧ t.mode.mbReady = s.mode.mbReady ∧
      (r.selfTest = false → t.mode.bootCode = 0xE1 ∧ t.mode.fatal = true) ∧
      (r.selfTest = true → (s.sec.active ≤ 1) → r.slots.getD 0 false = false → r.slots.getD 1 false = false → t.mode.bootCode = 0xE2 ∧ t.mode.fatal = true) ∧
      (r.selfTest = true → bootSlot s.variant r (bootBackup r s).sec ≠ none → r.ddr = false → t.mode.bootCode = 0xE3 ∧ t.mode.fatal = true) ∧
      (r.selfTest = true → bootSlot s.variant r (bootBackup r s).sec ≠ none → r.ddr = true → r.pll = true → r.mram = true →
        t.mode.bootCode = 9 ∧ t.mode.fatal = false ∧ t.clk.ms = 0 ∧ t.clk.sclk = true ∧ t.clk.len = 1875000 * 2 ^ 32 ∧ t.clk.openedAt = t.clk.mono ∧
        (s.mode.resetSrc = 0 → r.contentsLost = false → t.log.pwrCycles = satN 32 (s.log.pwrCycles + 1)))) ∧
  (∀ (s : State), s.mode.mode = .boot → s.mode.fatal = false → s.pwr.waitRails = false → s.mode.bootCode = 9 →
    exec .bootComplete s = .next (boundary {} { s with mode := { s.mode with bootCode := 0x0A } })) ∧
  (∀ (s : State), s.mode.mode ≠ .boot ∨ s.mode.fatal = true ∨ s.pwr.waitRails = true → exec .bootComplete s = .next s) ∧
  (∀ (s : State), s.mode.mode = .boot → s.mode.fatal = false → s.mode.bootCode = 0x0A → ∃ t, leaveBoot s = t ∧ t.mode.mode = .configure ∧
    t.mode.prev = .boot ∧ t.mode.mbReady = true ∧ t.mode.bootCode = 0x0A ∧ t.clk = s.clk)

/-- With no edge for 2.5 s, and in FOLLOW with no pulse for 4 Milestones, the sync state becomes lost, IRQ_STAT.TIME is set and the rate trim, f_grid and the boundary stay. CW_CLK failing hands the PLLs to REFCLK and changes no sync state. GRID_FOLLOW_RELOCK, a valid CW_CLK found, lets the waiting GRID.MODE wait for the boundary, the PLLs on CW_CLK; CW_CLK_LOSS, none found, has it refused with reason STATE, the PLLs on REFCLK. A reference of higher priority than the one in use, valid for 2 s, replaces it, f_grid unchanged. After HOLD_T the return to NOMINAL begins, f_grid unchanged. Where the condition of a row does not hold nothing changes. -/
def Obligations.GridEventRows : Prop :=
  ∀ (s : State),
    (s.grid.sync = .acquiring ∨ s.grid.sync = .locked → s.grid.cfg.syncSrc = 1 ∨ s.grid.cfg.syncSrc = 2 →
      ∃ t, exec .gridSyncLost s = .next t ∧ t.grid = { s.grid with lockCount := 0, sync := .lost } ∧
        t.clk = s.clk.advance (s.grid.lastEdge + msU 2500) ∧ t.host.regs.irqStat.getLsbD Irq.time = true) ∧
    (s.grid.sync = .none ∨ s.grid.sync = .lost ∨ s.grid.cfg.syncSrc = 0 → exec .gridSyncLost s = .next s) ∧
    (s.grid.cfg.gmode = 2 → s.grid.sync ≠ .lost →
      ∃ t, exec .cwSyncLoss s = .next t ∧ t.grid = { s.grid with lockCount := 0, lastPulse := none, returning := true, sync := .lost } ∧
        t.clk = s.clk.advance (s.grid.lastEdge + 4 * s.clk.len) ∧ t.host.regs.irqStat.getLsbD Irq.time = true) ∧
    (s.grid.cfg.gmode ≠ 2 ∨ s.grid.sync = .lost → exec .cwSyncLoss s = .next s) ∧
    (s.grid.relock = none → ∃ t, exec .cwClkLoss s = .next t ∧ t.grid = { s.grid with cwClkGood := false, pllCw := false } ∧ t.clk = s.clk ∧ t.mode = s.mode ∧
      (s.grid.pllCw = true → t.host.regs.irqStat.getLsbD Irq.time = true)) ∧
    (s.grid.relock = none → exec .gridFollowRelock s = .next s) ∧
    (∀ g x, s.grid.relock = some (g, x) →
      (∃ t, exec .gridFollowRelock s = .next t ∧ t.grid = { s.grid with relock := none, cwClkGood := true, pllCw := true } ∧
        t.acts = s.acts ++ [{ cmd := x, detail := gridWarnings s.variant g, act := .gridMode g }]) ∧
      (∃ t, exec .cwClkLoss s = .next (finishOpen x (Reply.refuse Rsn.state) t) ∧
        t.grid = { s.grid with relock := none, cwClkGood := false, pllCw := false })) ∧
    (∀ (k : BitVec 2) (j t : Nat), s.grid.refSel = some j → s.grid.refValidSince.getD k.toNat none = some t →
      (tracking s.grid = true → k.toNat < j →
        ∃ u, exec (.refPrioritySwitch k) s = .next u ∧
          u.grid = { s.grid with refSel := some k.toNat, refSwitches := satN 16 (s.grid.refSwitches + 1) } ∧
          u.clk = s.clk.advance (t + secU 2) ∧ u.host.regs.irqStat.getLsbD Irq.time = true) ∧
      (tracking s.grid = false ∨ j ≤ k.toNat → exec (.refPrioritySwitch k) s = .next s)) ∧
    (s.grid.hold = true → s.grid.cfg.holdMode = true → s.grid.toNominal = false →
      ∃ t, exec .gridHoldoverTimeout s = .next t ∧ t.grid = { s.grid with toNominal := true } ∧
        t.clk = s.clk.advance (s.grid.holdSince + secU s.grid.cfg.holdT)) ∧
    (s.grid.hold = false ∨ s.grid.cfg.holdMode = false ∨ s.grid.toNominal = true → exec .gridHoldoverTimeout s = .next s)

/-- GRID_SYNC_EDGE of the source selected, and outside the Milestone of a STEP, measures an error of at least -50 % and less than +50 % of the Milestone. An error above 25 % is refused: SYNC_REFUSED is set, one refusal more, the correction under way and the trim stay, and the boundary does not move. One of at most 25 % is accepted where the trim it needs is within 100 ppm: the correction is that error and SYNC_REFUSED is 0. In the Milestone of a STEP, or with a source not selected, the edge only moves time on; a CW_SYNC pulse outside FOLLOW does the same. -/
def Obligations.SyncEdgeRows : Prop :=
  (∀ (b e : Int) (len : Nat), 0 < len → -(len : Int) ≤ 2 * wrapErr b e len ∧ 2 * wrapErr b e len < len ∧
    ∃ k : Int, b - e - wrapErr b e len = k * len) ∧
  (∀ (e : Int) (need : Nat) (counts : Bool) (s : State),
    (s.clk.len < 4 * e.natAbs → ∃ t, judgeEdge e need counts s = t ∧ t.grid.refused = true ∧ t.grid.err = some e ∧ t.grid.sync = .acquiring ∧
      t.grid.refusals = satN 16 (s.grid.refusals + 1) ∧ t.grid.corr = s.grid.corr ∧ t.grid.trim = s.grid.trim ∧ t.clk = s.clk ∧
      t.grid.fGrid = s.grid.fGrid ∧ (s.grid.refused = true → s.grid.sync = .acquiring → t.log = s.log)) ∧
    (4 * e.natAbs ≤ s.clk.len → (trimNeeded s.grid e).natAbs ≤ 100000 → ∃ t, judgeEdge e need counts s = t ∧ t.grid.refused = false ∧
      t.grid.err = some e ∧ t.grid.corr = e ∧ t.grid.trim = trimNeeded s.grid e ∧ t.clk = s.clk ∧ t.grid.fGrid = s.grid.fGrid ∧
      (100 * uPerNs < e.natAbs → 1 ≤ need → t.grid.sync = .acquiring ∧ t.grid.lockCount = 0) ∧
      (e.natAbs ≤ 100 * uPerNs → counts = true → need = s.grid.lockCount + 1 → t.grid.sync = .locked))) ∧
  (∀ (t : Nat) (s : State), ∀ b, b = { s with clk := s.clk.advance (t * uPerNs) } →
    (s.grid.stepNow = true ∨ (s.grid.cfg.syncSrc ≠ 1 ∧ (s.grid.cfg.syncSrc = 2 → s.time.ptpSecond = false)) →
      exec (.gridSyncEdge t) s = .next b) ∧
    (s.grid.stepNow = false → s.grid.cfg.syncSrc = 1 →
      exec (.gridSyncEdge t) s = .next (judgeEdge (wrapErr s.clk.openedAt (((t * uPerNs : Nat) : Int) + s.grid.cfg.syncOfs * uPerNs) s.clk.len) 3 true
        { b with grid := { b.grid with lastEdge := b.clk.mono } })) ∧
    (s.grid.stepNow = false → s.grid.cfg.syncSrc = 2 → s.time.ptpSecond = true →
      exec (.gridSyncEdge t) s = .next (judgeEdge (wrapErr s.clk.openedAt (lastSecond b.clk + s.grid.cfg.syncOfs * uPerNs) s.clk.len) 3 true
        { b with grid := { b.grid with lastEdge := b.clk.mono } })) ∧
    (∀ long, s.grid.cfg.gmode ≠ 2 ∨ s.grid.stepNow = true → exec (.cwSyncPulse t long) s = .next b) ∧
    (∀ long, s.grid.cfg.gmode = 2 → s.grid.stepNow = false → ∃ u, exec (.cwSyncPulse t long) s = .next u ∧
      u.grid.lastEdge = b.clk.mono ∧ u.grid.lastPulse = some b.clk.mono ∧ u.clk.mono = b.clk.mono ∧ u.clk.openedAt = s.clk.openedAt ∧
      u.grid.err = some (wrapErr s.clk.openedAt (((t : Int) - s.grid.cfg.cwDlySync) * uPerNs) s.clk.len) ∧ s.clk.ms ≤ u.clk.ms ∧
      u.clk.ms ≤ s.clk.ms + 95 ∧ (s.mode.mode ≠ .configure → u.clk = b.clk)))

/-- A message of a port on which PTP does not run, or of another domain, changes nothing, but that it goes on round an HSR ring. A two-step Sync is held for its Follow_Up, a one-step Sync and the Follow_Up with its sequence number measure. An Announce becomes the port's foreign data; a Pdelay_Req is answered with the turnaround from its receive to its departure; the Pdelay_Resp to the request outstanding gives half of the round trip less the responder's turnaround; Pdelay_Req, and of a master Announce and Sync, leave 1 s after the last of their kind, with the port's sequence numbers. A timeout of Announce or Sync takes the port's master away. TIME_SOURCE_SWITCH of a locked source that alone ranks above the live one in use takes it into use, 10 s after its lock (IRIG-B with a UTC offset that is configured). -/
def Obligations.PtpRows : Prop :=
  ∀ (s : State) (port : BitVec 2), ∀ p, p = ptpPort s.time port.toNat → ∀ due : Option Nat → State,
    due = (fun last => match last with | some x => { s with clk := s.clk.advance (x + secU 1) } | none => s) →
    (∀ (m : PtpEvent) (a : PtpAnnounce), ptpOn s port.toNat = false ∨ (m.domain.toNat ≠ s.time.cfg.domain ∧ a.domain.toNat ≠ s.time.cfg.domain) →
      ∃ t, (t = s ∨ (port.toNat < 2 ∧ fld s.net.portSet 0 0 2 = 2 ∧
          t = { s with out := { s.out with wire := s.out.wire ++ [.forward (1 - port.toNat) false] } })) ∧
        exec (.ptpSyncRx port m) s = .next t ∧ exec (.ptpFollowUpRx port m) s = .next t ∧ exec (.ptpAnnounceRx port a) s = .next t ∧
        exec (.ptpPdelayReqRx port m) s = .next t ∧ exec (.ptpPdelayRespRx port m) s = .next t) ∧
    (ptpOn s port.toNat = false → (∀ k, exec (.ptpMessageTx port k) s = .next s) ∧ exec (.ptpAnnounceTimeout port) s = .next s ∧
      exec (.ptpSyncTimeout port) s = .next s) ∧
    (ptpOn s port.toNat = true →
      (∀ (m : PtpEvent), m.domain.toNat = s.time.cfg.domain → ∀ rx, rx = rxTime s port.toNat m.stamp →
        (m.twoStep = true → exec (.ptpSyncRx port m) s = .next (setPtpPort port.toNat
          (fun p => { p with twoStep := some (m.seq.toNat, rx, m.correction), syncAt := s.clk.mono }) s)) ∧
        (m.twoStep = false → exec (.ptpSyncRx port m) s = .next (ptpMeasure port.toNat rx m.origin m.correction s)) ∧
        (∀ r c, p.twoStep = some (m.seq.toNat, r, c) →
          exec (.ptpFollowUpRx port m) s = .next (ptpMeasure port.toNat r m.origin (c + m.correction) s)) ∧
        (p.twoStep = none → exec (.ptpFollowUpRx port m) s = .next s) ∧
        exec (.ptpPdelayReqRx port m) s = .next { s with out := { s.out with ptp := s.out.ptp ++
          [{ port := port.toNat, kind := 3, dst := 0x0180C200000E, domain := s.time.cfg.domain, seq := m.seq.toNat, correction := txTime s port.toNat s.clk.taiNs - rx + 10 * m.correction }] } } ∧
        (∀ t1, p.pdelayReq = some (m.seq.toNat, t1) → s.time.ports.length = 2 → ∃ t, exec (.ptpPdelayRespRx port m) s = .next t ∧
          (ptpPort t.time port.toNat).linkDelayKnown = true ∧ (ptpPort t.time port.toNat).pdelayReq = none ∧
          (ptpPort t.time port.toNat).linkDelay = roundOpen 15 (rx - t1 - 10 * m.correction) 20 ∧ t.clk = s.clk) ∧
        (p.pdelayReq = none → exec (.ptpPdelayRespRx port m) s = .next s)) ∧
      (∀ (a : PtpAnnounce), a.domain.toNat = s.time.cfg.domain → s.time.ports.length = 2 → ∃ t, exec (.ptpAnnounceRx port a) s = .next t ∧
        (ptpPort t.time port.toNat).foreign = some (gmOfAnnounce a) ∧ (ptpPort t.time port.toNat).announceAt = s.clk.mono ∧ t.clk = s.clk) ∧
      (s.time.ports.length = 2 → ∃ t, exec (.ptpMessageTx port .pdelayReq) s = .next t ∧ t.clk = (due p.pdelayTx).clk ∧
        (ptpPort t.time port.toNat).pdelayReq = some (p.seqPdelay, txTime s port.toNat t.clk.taiNs) ∧
        (ptpPort t.time port.toNat).seqPdelay = (p.seqPdelay + 1) % 2 ^ 16 ∧
        t.out.ptp = s.out.ptp ++ [{ port := port.toNat, kind := 2, dst := 0x0180C200000E, domain := s.time.cfg.domain, seq := p.seqPdelay, correction := -10 * (s.time.cfg.lat.getD port.toNat {}).asym }]) ∧
      (∀ k, k = PtpKind.announce ∨ k = PtpKind.sync → isMaster s.time = false → exec (.ptpMessageTx port k) s = .next s) ∧
      (isMaster s.time = true → ∃ t m, exec (.ptpMessageTx port .announce) s = .next t ∧ t.clk = (due p.announceTx).clk ∧
        t.out.ptp = s.out.ptp ++ [m] ∧ m.port = port.toNat ∧ m.kind = 11 ∧ m.dst = 0x011B19000000 ∧ m.domain = s.time.cfg.domain ∧
        m.seq = p.seqAnnounce ∧ m.announce = some (ownGm s.time) ∧ (m.c37 = none ↔ s.time.cfg.profile ≠ 1)) ∧
      (isMaster s.time = true → ∃ t, exec (.ptpMessageTx port .sync) s = .next t ∧ t.clk = (due p.syncTx).clk ∧
        t.out.ptp = s.out.ptp ++ [{ port := port.toNat, kind := 0, dst := 0x011B19000000, domain := s.time.cfg.domain, seq := p.seqSync, origin := txTime s port.toNat t.clk.taiNs / 10 * 10, correction := txTime s port.toNat t.clk.taiNs % 10 }]) ∧
      (p.foreign ≠ none → exec (.ptpAnnounceTimeout port) s = .next (losePort port.toNat { s with clk := s.clk.advance (p.announceAt + secU 3) }) ∧
        exec (.ptpSyncTimeout port) s = .next (losePort port.toNat { s with clk := s.clk.advance (p.syncAt + secU 3) })) ∧
      (p.foreign = none → exec (.ptpAnnounceTimeout port) s = .next s ∧ exec (.ptpSyncTimeout port) s = .next s)) ∧
    (∀ (src : BitVec 2) (a b : Nat), srcRank s.time src.toNat = some a → srcRank s.time s.time.used = some b → a < b →
      (srcSt s.time src.toNat).locked = true → (∀ k c, srcRank s.time k = some c → c < b → k ≠ src.toNat → (srcSt s.time k).locked = false) →
      src ≠ 0 → (src = 2 → s.time.utcValid = true ∧ s.time.cfg.utcOfsValid = true) → s.time.used ≠ 0 →
      (s.time.used = 2 → s.time.utcValid = true) → (srcSt s.time s.time.used).live = true →
      ∃ t, exec (.timeSourceSwitch src) s = .next t ∧ t.time.used = src.toNat ∧
        t.clk = s.clk.advance ((srcSt s.time src.toNat).lockedSince + secU 10))

/-- In BOOT and BACKUP PPS_IN_EDGE does nothing; else one less than 0.9 s or more than 1.1 s after the one before is discarded and counted; its offset otherwise lies in (-0.5 s, +0.5 s]. PPS_IN not configured measures nothing, nor does IRIG-B not configured or without a valid UTC offset; a frame of bad parity or out of sequence ends IRIG-B's run of good ones. IRIG_TIMEOUT and PPS_IN_TIMEOUT of a source in use with no other locked enter HOLDOVER with the addend kept. TIME_SECOND_TICK recomputes the bound and, in LOCKED alone, keeps it and writes the RTC. PPS_OUT rises at a TAI second where it is driven, except less than 500 ms after the edge before. A leap second changes the UTC offset by one and no clock. CLOCK_FAILURE of the counter, or of a reference while the other is lost, sets ClockFailure. -/
def Obligations.TimeRows : Prop :=
  ∀ (s : State),
    (∀ (t : Nat), s.mode.mode = .boot ∨ s.mode.mode = .backup → exec (.ppsInEdge t) s = .next s) ∧
    (∀ (t p : Nat), s.mode.mode ≠ .boot → s.mode.mode ≠ .backup → s.time.ppsInAt = some p → (let m := max s.clk.mono (t * uPerNs); m < p + msU 900 ∨ p + msU 1100 < m) →
      exec (.ppsInEdge t) s = .next { s with
        clk := s.clk.advance (t * uPerNs)
        time := { s.time with ppsInAt := some (max s.clk.mono (t * uPerNs)), ppsInDiscards := s.time.ppsInDiscards + 1 } }) ∧
    (∀ (t : Nat), s.mode.mode ≠ .boot → s.mode.mode ≠ .backup → s.time.ppsInAt = none → ∃ u, exec (.ppsInEdge t) s = .next u ∧ u.time.ppsInAt = some (max s.clk.mono (t * uPerNs)) ∧
      u.time.ppsInDiscards = s.time.ppsInDiscards ∧
      (srcRank s.time 3 = none → u.time.pps = s.time.pps ∧ u.clk.addend = s.clk.addend) ∧
      (srcRank s.time 3 ≠ none → u.time.pps.live = true ∧ -500000000 < u.time.pps.offset ∧ u.time.pps.offset ≤ 500000000)) ∧
    (∀ (m : IrigFrame), srcRank s.time 2 = none ∨ s.time.utcValid = false → exec (.irigFrame m) s = .next s) ∧
    (∀ (m : IrigFrame), srcRank s.time 2 ≠ none → s.time.utcValid = true →
      (s.time.cfg.irig1344 = true ∧ m.parityOk = false ∨ (∃ p, s.time.irigPrev = some p ∧ irigUtc s m ≠ p + 1)) →
      exec (.irigFrame m) s = .next { s with time := { s.time with irigPrev := some (irigUtc s m), irig := { s.time.irig with good := 0 } } }) ∧
    (s.time.irig.live = false → exec .irigTimeout s = .next s) ∧ (s.time.pps.live = false → exec .ppsInTimeout s = .next s) ∧
    (s.time.irig.live = true → s.time.used = 2 → (∀ k, k = 1 ∨ k = 3 → (srcSt s.time k).locked = false) → ∃ t, exec .irigTimeout s = .next t ∧
      t.time.state = .holdover ∧ t.time.irig.live = false ∧ t.clk = s.clk.advance (s.time.irig.lastAt + secU 3) ∧
      t.host.regs.irqStat.getLsbD Irq.time = true) ∧
    (s.time.pps.live = true → s.time.used = 3 → (∀ k, k = 1 ∨ k = 2 → (srcSt s.time k).locked = false) → ∃ t, exec .ppsInTimeout s = .next t ∧
      t.time.state = .holdover ∧ t.time.pps.live = false ∧ t.clk = s.clk.advance (s.time.pps.lastAt + msU 2500) ∧
      t.host.regs.irqStat.getLsbD Irq.time = true) ∧
    (s.time.state = .locked → exec .timeSecondTick s = .next { s with time := { s.time with
      bound := nextBound s.time, lockedBound := nextBound s.time, rtcSec := s.clk.taiSec, rtcAt := s.clk.mono } }) ∧
    (s.time.state ≠ .locked → exec .timeSecondTick s = .next { s with time := { s.time with bound := nextBound s.time } }) ∧
    (ppsDriven s = false → exec .ppsOutEdge s = .next { s with time := { s.time with ppsOut := false } }) ∧
    (ppsDriven s = true → ∃ t, exec .ppsOutEdge s = .next t ∧ s.clk.mono ≤ t.clk.mono ∧ t.clk.mono < s.clk.mono + secU 1 ∧
      (0 ≤ (s.clk.mono : Int) + s.clk.taiOfs → t.clk.taiU % secU 1 = 0) ∧
      (s.time.ppsOutAt = none → t.time.ppsOut = true ∧ t.time.ppsOutAt = some t.clk.mono) ∧
      (∀ p, s.time.ppsOutAt = some p → (t.clk.mono < p + msU 500 → t.time = { s.time with ppsOmitted := s.time.ppsOmitted + 1 }) ∧
        (p + msU 500 ≤ t.clk.mono → t.time = { s.time with ppsOut := true, ppsOutAt := some t.clk.mono }))) ∧
    (s.time.leap61 = false → s.time.leap59 = false → exec .leapSecond s = .next s) ∧
    (s.time.leap61 = true ∨ s.time.leap59 = true → ∃ t, exec .leapSecond s = .next t ∧ t.clk = s.clk ∧
      t.time = { s.time with utcOfs := s.time.utcOfs + (if s.time.leap61 = true then 1 else -1), leap61 := false, leap59 := false }) ∧
    (∃ t, exec (.clockFailure .counter) s = .next t ∧ t.time.counterOk = false ∧ t.time.clockFailure = true) ∧
    (∃ t, exec (.clockFailure .refclk) s = .next t ∧ t.grid.refclkGood = false ∧ (s.grid.cwClkGood = false → t.time.clockFailure = true) ∧
      (s.grid.cwClkGood = true → s.time.counterOk = true → t.time = s.time)) ∧
    (∃ t, exec (.clockFailure .cwClk) s = .next t ∧ t.grid.cwClkGood = false ∧ (s.grid.refclkGood = false → t.time.clockFailure = true))

/-- AUX_CONVERSION_DONE while no conversion runs, or it is aborted, or an urgent one runs, changes nothing of the converter; a conversion whose result is to be discarded only starts again; either only has the trip circuits judged; otherwise, at the end of its conversion time, its code joins the sum, the minimum, the maximum and the count of its entry, and becomes the latest of its input. The end of a delay starts the next entry, entry 0 after the last with a pass more. A URG edge while URG_EN is 0 changes nothing; a further request of a source still waiting or running is latched once, and each one after that counts an overrun. URGENT_CONVERSION_DONE stores the code with N = 1, and a waiting or latched request follows, the brown-out sense first. CAL_PHASE_END changes nothing in BOOT or BACKUP, for a group that does not exist, or while the group's spare is bound or retired; otherwise it keeps what the phase has measured. No phase ends at a boundary before its nominal end. At a phase's end, phase 2 passed leads to 3, 3 passed to 4, and 4 passed to phase 1 of the next slice, 15 followed by 0; the results of phase 3 come into use at the end of phase 4 and not before; a failure of phase 2 passes to the next slice, and one of phase 4 repeats phase 3 of the slice. -/
def Obligations.AcquisitionRows : Prop :=
  (∀ (s : State) (x : AuxCode) (code : BitVec 12), code = x.code →
      (s.aux.converting = false ∨ s.aux.aborted = true ∨ s.aux.urgRunning ≠ none → exec (.auxConversionDone x) s = .next (tcsAll s)) ∧
      (s.aux.converting = true → s.aux.aborted = false → s.aux.urgRunning = none → ∀ k, k = s.clk.advance s.aux.convEnd →
        (s.aux.discard = true → exec (.auxConversionDone x) s = .next (tcsAll { s with
          clk := k, aux := { s.aux with discard := false, convAt := k.mono, convEnd := k.mono + convTime s.aux } })) ∧
        (s.aux.discard = false → ∀ e, s.aux.cfg.entries[s.aux.entry]? = some e →
          (s.aux.cur.n + 1 ≤ e.repeat_ → ∃ t, exec (.auxConversionDone x) s = .next t ∧ t.clk = k ∧ t.aux.entry = s.aux.entry ∧
            t.aux.converting = true ∧ t.aux.convEnd = k.mono + convTime s.aux ∧
            t.aux.cur.n = s.aux.cur.n + 1 ∧ t.aux.cur.sum = s.aux.cur.sum + code.toNat ∧ t.aux.cur.max = max s.aux.cur.max code.toNat ∧
            t.aux.cur.min = min s.aux.cur.min code.toNat ∧ t.aux.latest = s.aux.latest.set s.aux.cur.input code.toNat ∧ t.aux.results = s.aux.results) ∧
          (e.repeat_ < s.aux.cur.n + 1 → ∃ t, exec (.auxConversionDone x) s = .next t ∧ t.clk = k ∧
            (s.aux.entry < s.aux.results.length → (t.aux.results.getD s.aux.entry {}).n = s.aux.cur.n + 1 ∧
              (t.aux.results.getD s.aux.entry {}).sum = s.aux.cur.sum + code.toNat) ∧
            (e.delay ≠ 0 → t.aux.converting = false ∧ t.aux.delayEnd = some (k.mono + usU e.delay)) ∧
            (e.delay = 0 → s.aux.entry + 1 < s.aux.cfg.entries.length →
              t.aux.converting = true ∧ t.aux.entry = s.aux.entry + 1 ∧ t.aux.cur.n = 0 ∧ t.aux.pass = s.aux.pass)))) ∧
      (s.aux.delayEnd = none → exec .auxDelayEnd s = .next s) ∧
      (∀ d, s.aux.delayEnd = some d → ∃ t, exec .auxDelayEnd s = .next t ∧ t.clk = s.clk.advance d ∧
        (s.aux.urgRunning ≠ none → t.aux = s.aux) ∧
        (s.aux.urgRunning = none → s.aux.cfg.entries ≠ [] → t.aux.converting = true ∧ t.aux.delayEnd = none ∧ t.aux.cur.n = 0 ∧
          t.aux.entry = (if s.aux.entry + 1 < s.aux.cfg.entries.length then s.aux.entry + 1 else 0) ∧
          t.aux.pass = (if s.aux.entry + 1 < s.aux.cfg.entries.length then s.aux.pass else (s.aux.pass + 1) % 256))) ∧
      (s.aux.cfg.urgEn = false → exec .urgEdge s = .next s) ∧
      (s.aux.cfg.urgEn = true → exec .urgEdge s = .next (urgentRequest 0 s)) ∧
      (∀ k u, k < 2 → s.aux.urgent.length = 2 → u = s.aux.urgent.getD k {} → ∃ t, urgentRequest k s = t ∧
        (u.waits = true ∨ s.aux.urgRunning = some k →
          (u.latched = false → (t.aux.urgent.getD k {}).latched = true ∧ (t.aux.urgent.getD k {}).latchedCount = (u.latchedCount + 1) % 256) ∧
          (u.latched = true → (t.aux.urgent.getD k {}).overruns = u.overruns + 1 ∧ (t.aux.urgent.getD k {}).latched = true)) ∧
        (u.waits = false → s.aux.urgRunning = none → (k = 1 ∨ (s.aux.urgent.getD 1 {}).waits = false) →
          t.aux.urgRunning = some k ∧ (s.aux.converting = true → t.aux.aborted = true) ∧ t.aux.entry = s.aux.entry ∧ t.aux.cur.n = s.aux.cur.n) ∧
        (u.waits = false → s.aux.urgRunning ≠ none → s.aux.urgRunning ≠ some k → (t.aux.urgent.getD k {}).pending = true ∧
          t.aux.urgRunning = s.aux.urgRunning)) ∧
      (s.aux.urgRunning = none → exec (.urgentConversionDone x) s = .next s) ∧
      (∀ k, k < 2 → s.aux.urgent.length = 2 → s.aux.urgRunning = some k → ∃ t, exec (.urgentConversionDone x) s = .next t ∧
        t.clk = s.clk.advance s.aux.urgEnd ∧ (t.aux.urgent.getD k {}).code = code.toNat ∧ (t.aux.urgent.getD k {}).n = 1 ∧
        ((s.aux.urgent.getD 1 {}).waits = true → t.aux.urgRunning = some 1) ∧
        ((s.aux.urgent.getD 1 {}).waits = false → (s.aux.urgent.getD 0 {}).waits = true → t.aux.urgRunning = some 0) ∧
        ((s.aux.urgent.getD 0 {}).waits = false → (s.aux.urgent.getD 1 {}).waits = false → t.aux.urgRunning = none ∧
          (s.aux.converting = true → t.aux.aborted = false ∧ t.aux.cur.n = s.aux.cur.n)))) ∧
  (∀ (s : State) (g : BitVec 2) (m : CalMeas),
      (s.mode.mode = .boot ∨ s.mode.mode = .backup ∨ g = 3 ∨ groupCals s g.toNat = false → exec (.calPhaseEnd g m) s = .next s) ∧
      (s.mode.mode ≠ .boot → s.mode.mode ≠ .backup → g.toNat < 3 → groupCals s g.toNat = true →
        exec (.calPhaseEnd g m) s = .next (setGroup g.toNat (fun c => { c with due := some m }) s))) ∧
  (∀ (s : State), (∀ g, g < 3 → (calGroup s g).due = none ∨ s.clk.openedAt < (calGroup s g).begun + msU (phaseMs (calGroup s g).phase)) →
      calBoundary s = s) ∧
  (∀ (s : State) (g : Nat) (m : CalMeas), g < 3 → s.acq.groups.length = 3 → ∀ c, c = calGroup s g → 1 ≤ c.phase → c.phase ≤ 4 → c.idx < 16 →
      ∃ t, endPhase g m s = t ∧ (∀ k, k ≠ g → calGroup t k = calGroup s k) ∧
        (c.phase = 2 → (c.idle = true ∨ diffOk m.mean m.rms = true) → (calGroup t g).phase = 3 ∧ (calGroup t g).idx = c.idx) ∧
        (c.phase = 3 → ([0, 1, 2].all (fun k => calOk (m.ofs.getD k 0) (m.gc.getD k 0))) = true → (calGroup t g).phase = 4 ∧
          (calGroup t g).idx = c.idx ∧ (calGroup t g).ofsNew = [m.ofs.getD 0 0, m.ofs.getD 1 0, m.ofs.getD 2 0] ∧
          t.acq.slices = s.acq.slices) ∧
        (c.phase = 4 → (c.idle = true ∨ diffOk m.mean m.rms = true) → (calGroup t g).phase = 1 ∧ (calGroup t g).idx = (c.idx + 1) % 16 ∧
          (16 * g + c.idx < s.acq.slices.length → (sliceSt t (16 * g + c.idx)).ofs = c.ofsNew ∧ (sliceSt t (16 * g + c.idx)).gc = c.gcNew)) ∧
        (c.phase = 2 → c.idle = false → diffOk m.mean m.rms = false → (calGroup t g).phase = 1 ∧ (calGroup t g).idx = (c.idx + 1) % 16) ∧
        (c.phase = 4 → c.idle = false → diffOk m.mean m.rms = false → (calGroup t g).phase = 3 ∧ (calGroup t g).idx = c.idx))

/-- A frame of a port that is not enabled changes nothing. A frame that no context matches is counted in NO_MATCH of its port. A matched frame that fails verification counts AUTH_FAIL, a GOOSE duplicate DUP, and its content is not used; an SV frame of another number of ASDUs counts CONF_ERR and is not counted as received. A GOOSE frame with another confRev or entry count counts CONF_ERR and refreshes nothing; one with the same stNum refreshes supervision only where its sqNum lies beyond the last; a new stNum is taken. The deadline of a GOOSE context marks it expired and counts TAL_EXP. SV_SAMPLE_DEADLINE of a context that holds samples puts a missing sample beyond its newest, and the last count received stays. SYNC_LOSS_T of an unsynchronised context gives its words INV from then on. -/
def Obligations.SubscriptionRows : Prop :=
  (∀ (s : State) (f : SvFrame), portEn s f.head.port.toNat = false → exec (.svFrameRx f) s = .next s) ∧
  (∀ (s : State) (f : GooseFrame), portEn s f.head.port.toNat = false → exec (.gooseFrameRx f) s = .next s) ∧
  (∀ (s b : State) (f : SvFrame), takeIn f.head s = some b →
    (svMatch b f = none → exec (.svFrameRx f) s = .next (setNetPort f.head.port.toNat (fun x => { x with noMatch := inc x.noMatch }) b)) ∧
    (∀ k, svMatch b f = some k → ∀ w, w = streamBytes b k → ∀ ok, ok = authAccepts b (fld w 0x28 0 2) (bitAt w 0x28 2) (fld w 0x28 8 5) (fld w 0x28 16 5) f.head.auth →
      k < 256 ∧ svEn b k = true ∧
      (ok = false → b.net.sv.length = 256 → ∃ t, exec (.svFrameRx f) s = .next t ∧ (svCtx t k).authFail = inc (svCtx b k).authFail ∧ (svCtx t k).buf = (svCtx b k).buf ∧
        (svCtx t k).frames = (svCtx b k).frames) ∧
      (ok = true → (dedup f.head b).1 = false → ∃ t, exec (.svFrameRx f) s = .next t ∧ t.net.sv = b.net.sv) ∧
      (ok = true → (dedup f.head b).1 = true → b.net.sv.length = 256 → f.asdus.length ≠ svAsdus w →
        ∃ t, exec (.svFrameRx f) s = .next t ∧ (svCtx t k).confErr = inc (svCtx b k).confErr ∧ (svCtx t k).frames = (svCtx b k).frames ∧
          (svCtx t k).last = (svCtx b k).last))) ∧
  (∀ (s b : State) (f : GooseFrame), takeIn f.head s = some b →
    (goMatch b f = none → exec (.gooseFrameRx f) s = .next (setNetPort f.head.port.toNat (fun x => { x with noMatch := inc x.noMatch }) b)) ∧
    (∀ k, goMatch b f = some k → b.net.goose.length = 256 → ∀ w, w = streamBytes b k → ∀ ok, ok = authAccepts b (fld w 0x98 0 2) (bitAt w 0x98 2) (fld w 0x98 8 5) (fld w 0x98 16 5) f.head.auth →
      k < 256 ∧
      (ok = false → exec (.gooseFrameRx f) s = .next (setGoose k (fun x => { x with authFail := inc x.authFail }) b)) ∧
      (ok = true → ∀ d, d = dedup f.head b →
        (d.1 = false → exec (.gooseFrameRx f) s = .next (setGoose k (fun x => { x with dup := inc x.dup }) d.2)) ∧
        (d.1 = true → ∀ x, x = gooseCtx b k →
          (f.confRev.toNat ≠ u32At w 0x94 ∨ f.numEntries ≠ byteAt w 0x8A ∨ goTypesOk w f = false →
            exec (.gooseFrameRx f) s = .next (setGoose k (fun x => { x with confErr := inc x.confErr }) d.2)) ∧
          (f.confRev.toNat = u32At w 0x94 → f.numEntries = byteAt w 0x8A → goTypesOk w f = true →
            ∃ t, exec (.gooseFrameRx f) s = .next t ∧
              (x.seen = true → f.stNum.toNat = x.stNum → beyond f.sqNum.toNat x.sqNum = false →
                (gooseCtx t k) = { x with old := inc x.old }) ∧
              (x.seen = true → f.stNum.toNat = x.stNum → beyond f.sqNum.toNat x.sqNum = true →
                (gooseCtx t k).sqNum = f.sqNum.toNat ∧ (gooseCtx t k).inputs = x.inputs ∧ (gooseCtx t k).frames = inc x.frames ∧
                (gooseCtx t k).deadline = some ((rxStamp b f.head).toNat + msU (f.tal + u16At w 0x9C)) ∧ (gooseCtx t k).expired = false) ∧
              (x.seen = false ∨ f.stNum.toNat ≠ x.stNum → (gooseCtx t k).stNum = f.stNum.toNat ∧ (gooseCtx t k).frames = inc x.frames ∧
                (gooseCtx t k).expired = false ∧
                ((gooseCtx t k).stMissed = if x.seen = true ∧ f.stNum.toNat ≠ nextNum x.stNum then inc x.stMissed else x.stMissed))))))) ∧
  (∀ (s : State) (ctx : BitVec 8),
    ((gooseCtx s ctx.toNat).deadline = none → exec (.gooseTalExpiry ctx) s = .next s) ∧
    (∀ d, (gooseCtx s ctx.toNat).deadline = some d → s.net.goose.length = 256 → ∃ t, exec (.gooseTalExpiry ctx) s = .next t ∧
      gooseCtx t ctx.toNat = { gooseCtx s ctx.toNat with expired := true, deadline := none, talExp := inc (gooseCtx s ctx.toNat).talExp } ∧
      t.clk = s.clk.advance d) ∧
    ((svCtx s ctx.toNat).buf = [] ∨ svEn s ctx.toNat = false → exec (.svSampleDeadline ctx) s = .next s) ∧
    ((svCtx s ctx.toNat).buf ≠ [] → svEn s ctx.toNat = true → s.net.sv.length = 256 → ∃ t, exec (.svSampleDeadline ctx) s = .next t ∧
      s.clk.mono ≤ t.clk.mono ∧ (svCtx t ctx.toNat).last = (svCtx s ctx.toNat).last ∧ (svCtx t ctx.toNat).frames = (svCtx s ctx.toNat).frames ∧
      (4 ≤ s.clk.len → (svCtx t ctx.toNat).buf.head? ≠ (svCtx s ctx.toNat).buf.head?)) ∧
    (svEn s ctx.toNat = false ∨ (svCtx s ctx.toNat).seen = false ∨ (svCtx s ctx.toNat).sync = true → exec (.svSyncLossTimeout ctx) s = .next s) ∧
    (svEn s ctx.toNat = true → (svCtx s ctx.toNat).seen = true → (svCtx s ctx.toNat).sync = false →
      exec (.svSyncLossTimeout ctx) s = .next (setSv ctx.toNat (fun x => { x with lossInv := true }) (svCatchUp ctx.toNat 4
        { s with clk := s.clk.advance ((svCtx s ctx.toNat).unsyncAt + msU (u16At (streamBytes s ctx.toNat) 0x22)) }))))

/-- LINK_DOWN of a port with link loses it and raises PORT_LOST; LINK_UP of a port without link starts its sound time, which frame loss may have set later. PORT_RECOVERED of a lost port with link, 10 s after its sound time began, makes it sound again, and with no other port lost the cause is gone. A discarded frame of an enabled port counts in OTHER, NO_MATCH or FCS_ERR of that port and leaves every other port alone; outside an HSR ring nothing is sent. A duplicate entry whose copy never came counts FRAME_LOSS of the partner port, and in any case the entry is gone. A received supervision frame makes or renews one entry of its node; NODE_FORGET removes it. Supervision frames leave on the enabled ports of a PRP pair only, LIFE_CHECK after the last (their destination is the model's, log entry 21). -/
def Obligations.PortRows : Prop :=
  ∀ (s : State), s.net.ports.length = 4 → ∀ (port : BitVec 2),
    ((netPort s port.toNat).link = false → exec (.linkDown port) s = .next s) ∧
    ((netPort s port.toNat).link = true → ∃ t, exec (.linkDown port) s = .next t ∧ (netPort t port.toNat).link = false ∧ (netPort t port.toNat).lost = true ∧
      t.mode.deg.getLsbD DegCause.portLost = true ∧ t.mode.mode = s.mode.mode ∧ (∀ k, k ≠ port.toNat → netPort t k = netPort s k)) ∧
    (∃ t, exec (.linkUp port) s = .next t ∧ (netPort t port.toNat).link = true ∧ (netPort t port.toNat).lost = (netPort s port.toNat).lost ∧
      ((netPort s port.toNat).link = true → t = s) ∧
      ((netPort s port.toNat).link = false → (netPort t port.toNat).soundAt = max (netPort s port.toNat).soundAt s.clk.mono) ∧ (∀ k, k ≠ port.toNat → netPort t k = netPort s k)) ∧
    ((netPort s port.toNat).lost = false ∨ (netPort s port.toNat).link = false → exec (.portRecovered port) s = .next s) ∧
    ((netPort s port.toNat).lost = true → (netPort s port.toNat).link = true → ∃ t, exec (.portRecovered port) s = .next t ∧
      (netPort t port.toNat).lost = false ∧ t.clk = s.clk.advance ((netPort s port.toNat).soundAt + secU 10) ∧
      ((∀ k, k < 4 → k ≠ port.toNat → (netPort s k).lost = false) → t.mode.deg.getLsbD DegCause.portLost = false) ∧
      (∀ k, k < 4 → k ≠ port.toNat → (netPort s k).lost = true → t.mode.deg = s.mode.deg)) ∧
    (∀ (src : BitVec 48) (w : Discard), portEn s port.toNat = false → exec (.discardedFrameRx port src w) s = .next s) ∧
    (∀ (src : BitVec 48) (seq : Option (BitVec 16)), portEn s port.toNat = true → ∀ x, x = netPort s port.toNat →
      (∃ t, exec (.discardedFrameRx port src (.etherType seq)) s = .next t ∧ netPort t port.toNat = { x with other := inc x.other }) ∧
      (∃ t, exec (.discardedFrameRx port src (.noMatch seq)) s = .next t ∧ netPort t port.toNat = { x with noMatch := inc x.noMatch }) ∧
      (∃ t, exec (.discardedFrameRx port src .badFcs) s = .next t ∧ (netPort t port.toNat).fcsErr = inc x.fcsErr ∧
        (netPort t port.toNat).other = x.other ∧ (netPort t port.toNat).noMatch = x.noMatch) ∧
      (∀ w, ∃ t, exec (.discardedFrameRx port src w) s = .next t ∧ (∀ k, k ≠ port.toNat → netPort t k = netPort s k) ∧
        (pairMode s 0 ≠ 2 ∨ 2 ≤ port.toNat → t.out.wire = s.out.wire))) ∧
    (∀ (pair : BitVec 1) (src : BitVec 48) (seq : BitVec 16),
      (s.net.dups.find? (fun e => e.pair == pair.toNat && e.src == src.toNat && e.seq == seq.toNat) = none →
        exec (.duplicateEntryForget pair src seq) s = .next s) ∧
      (∀ e, s.net.dups.find? (fun e => e.pair == pair.toNat && e.src == src.toNat && e.seq == seq.toNat) = some e → e.port < 4 →
        ∃ t, exec (.duplicateEntryForget pair src seq) s = .next t ∧ t.net.dups = s.net.dups.filter (· != e) ∧
          (e.both = true → t.net.ports = s.net.ports) ∧
          (e.both = false → (netPort t (2 * (e.port / 2) + (1 - e.port % 2))).frameLoss = inc (netPort s (2 * (e.port / 2) + (1 - e.port % 2))).frameLoss ∧
            netPort t e.port = netPort s e.port)) ∧
      (s.net.nodes.find? (fun e => e.pair == pair.toNat && e.src == src.toNat) = none → exec (.nodeForget pair src) s = .next s) ∧
      (∀ e, s.net.nodes.find? (fun e => e.pair == pair.toNat && e.src == src.toNat) = some e →
        exec (.nodeForget pair src) s = .next { s with
          clk := s.clk.advance (e.at_ + secU (nodeForgetT s))
          net := { s.net with nodes := s.net.nodes.filter (· != e) } }) ∧
      (pairMode s pair.toNat = 1 → sendPorts s pair.toNat ≠ [] →
        ∃ t, exec (.prpSupervisionTx pair) s = .next t ∧ t.out.wire = s.out.wire ++ [.prpSupervision (txHead s pair.toNat 0x88FB superDst)] ∧
          (txHead s pair.toNat 0x88FB superDst).ports = sendPorts s pair.toNat ∧
          (∀ x, s.net.superTx.getD pair.toNat none = some x → t.clk = s.clk.advance (x + msU (lifeCheck s)))) ∧
      (pairMode s pair.toNat ≠ 1 ∨ sendPorts s pair.toNat = [] → exec (.prpSupervisionTx pair) s = .next s)) ∧
    (∀ (h : FrameHead) (b : State), takeIn h s = some b → ∃ t, exec (.prpSupervisionRx h) s = .next t ∧
      t.net.nodes = s.net.nodes.filter (fun e => !(e.pair == h.port.toNat / 2 && e.src == h.src.toNat)) ++
        [{ pair := h.port.toNat / 2, src := h.src.toNat, at_ := max s.clk.mono (h.stamp * uPerNs) }]) ∧
    (∀ (h : FrameHead), takeIn h s = none → exec (.prpSupervisionRx h) s = .next s)

/-- SV_PUB_FRAME_TX of a publication that is not enabled, or whose pair has no enabled port, or in BOOT or BACKUP, changes nothing, nor does one whose next pair of samples has not been formed. Where it has, one frame of two ASDUs of eight values leaves the pair's enabled ports, its smpCnt that of the first sample, SmpSynch 2 or, not synchronised, 0; the count rises by one and the next pair of samples is two later. GOOSE_RETRANSMIT of a publication that does not send, or in a mode that does not run, changes nothing; otherwise one frame leaves, with sqNum one beyond the last where 2^32 - 1 wraps to 1, the same stNum and values, and the next one is due an interval later. The intervals are MIN_INT times 1, 1, 2, 4 and so on to 2^19, limited to HEARTBEAT. -/
def Obligations.PublicationRows : Prop :=
  (∀ (s : State) (p : BitVec 3), pubEn (svPubBytes s p.toNat) = false ∨ sendPorts s (fld (svPubBytes s p.toNat) 0 1 1) = [] ∨
      s.mode.mode = .backup ∨ s.mode.mode = .boot → exec (.svPubFrameTx p) s = .next s) ∧
  (∀ (s : State) (p : BitVec 3) (n : Nat), ∀ b, b = svPubBytes s p.toNat → p.toNat < s.net.svPubs.length → pubEn b = true →
      sendPorts s (fld b 0 1 1) ≠ [] → s.mode.mode ≠ .backup → s.mode.mode ≠ .boot → (s.net.svPubs.getD p.toNat {}).next = some n →
    ∀ newest : Int, newest = ((s.clk.msTai : Int) - (roundOpen 34 (175 * gridLen s : Nat) 128 + ((s.clk.len / 2 : Nat) : Int))) / ((secU 1 / 4800 : Nat) : Int) →
    (newest < ((n + 1 : Nat) : Int) → exec (.svPubFrameTx p) s = .next s) ∧
    (((n + 1 : Nat) : Int) ≤ newest → ∃ t h vals, exec (.svPubFrameTx p) s = .next t ∧
      t.out.wire = s.out.wire ++ [.sv h p.toNat (n % 4800) (if notSynchronized s.time = true then 0 else 2) vals
        (svApdu b (n % 4800) (if notSynchronized s.time = true then 0 else 2) vals)] ∧
      h.ports = sendPorts s (fld b 0 1 1) ∧ h.etherType = 0x88BA ∧ vals.length = 2 ∧ (∀ v ∈ vals, v.length = 8) ∧
      (t.net.svPubs.getD p.toNat {}).next = some (n + 2) ∧
      (t.net.svPubs.getD p.toNat {}).frames = inc (s.net.svPubs.getD p.toNat {}).frames ∧ t.clk = s.clk)) ∧
  (∀ (s : State) (i : BitVec 6), ∀ p, p = goosePub s i.toNat →
    (p.nextAt = none ∨ p.sending = false ∨ s.mode.mode.runs = false → exec (.gooseRetransmit i) s = .next s) ∧
    (∀ d, p.nextAt = some d → p.sending = true → s.mode.mode.runs = true → s.net.goosePubs.length = 64 → ∃ t, exec (.gooseRetransmit i) s = .next t ∧
      t.out.wire.length = s.out.wire.length + 1 ∧ t.clk = s.clk.advance d ∧
      (goosePub t i.toNat).sqNum = nextNum p.sqNum ∧ (goosePub t i.toNat).stNum = p.stNum ∧ (goosePub t i.toNat).vals = p.vals ∧
      (goosePub t i.toNat).step = p.step + 1 ∧ (goosePub t i.toNat).frames = inc p.frames ∧
      (goosePub t i.toNat).interval = gpInterval p.block (p.step + 1) ∧
      (goosePub t i.toNat).nextAt = some (t.clk.mono + gpInterval p.block (p.step + 1) * usU 100))) ∧
  (∀ x : Nat, nextNum x = if x + 1 < 2 ^ 32 then x + 1 else 1) ∧
  (∀ (b : Bytes) (k : Nat), k ≤ 20 → gpInterval b k = min (gpMin b * 2 ^ (k - 1)) (10 * gpHeart b))

/-- While a stage's held time has not reached RESET_T it stays; at RESET_T it is cleared and nothing else of the stage changes. A definite reset time of a curve clears its integrator when it ends and the stage is not picked up, and not before. The definite delay of a stage and the operation of a curve are judged at the release boundary, each for its own stage only, time moved on to the deadline where that lies before the boundary; a stage that is a curve has no definite delay row and one that is not has no curve row. A row of a bay that does not run an evaluated cycle moves time at most to the deadline and changes no stage. -/
def Obligations.StageTimers : Prop :=
  ∀ (s : State) (bay : BitVec 6), ∀ b, b = bay.toNat → ∀ r : BayRun, r = bayRun s b →
    (∀ (i : BitVec 5), ∀ x : StageSt, x = r.stages.getD i.toNat {} → b < s.prot.bays.length → i.toNat < r.stages.length →
      ∃ t, exec (.stageResetTimeout bay i) s = .next t ∧
        (x.held ≠ 0 → x.heldTo ≤ endOfMs s → (bayRun t b).stages = r.stages.set i.toNat { x with held := 0 } ∧ t.clk = s.clk.advance x.heldTo) ∧
        (x.held = 0 ∨ endOfMs s < x.heldTo → (bayRun t b).stages = r.stages ∧ t.clk = s.clk) ∧ (bayRun t b).el = r.el) ∧
    (∀ (i : BitVec 5), isCurve i.toNat = false → exec (.curveOperate bay i) s = .next s ∧ exec (.curveResetTimeout bay i) s = .next s) ∧
    (∀ (i : BitVec 5), isCurve i.toNat = true → b < s.prot.bays.length → i.toNat < r.stages.length →
      ∀ (x : StageSt) (g : Bytes), x = r.stages.getD i.toNat {} → g = recBytes (grpBytes s b) i.toNat →
      ∃ t, exec (.curveResetTimeout bay i) s = .next t ∧
        (∀ d, x.rstAt = some d → recRst g = 1 → x.pu = false → d + usU (recResetT g) ≤ endOfMs s →
          (bayRun t b).stages.getD i.toNat {} = { x with h := 0, phase := 0, rstAt := none } ∧ t.clk = s.clk.advance (d + usU (recResetT g))) ∧
        (x.rstAt = none ∨ x.pu = true ∨ recRst g ≠ 1 ∨ (∃ d, x.rstAt = some d ∧ endOfMs s < d + usU (recResetT g)) →
          (bayRun t b).stages.getD i.toNat {} = x) ∧
        (∀ k, k ≠ i.toNat → (bayRun t b).stages.getD k {} = r.stages.getD k {})) ∧
    (∀ (i : BitVec 5), isCurve i.toNat = true → ∀ x : StageSt, x = r.stages.getD i.toNat {} →
      exec (.curveOperate bay i) s = .next (stageTimer b i.toNat (fun c r x => curveOut c r x.op x)
        (if x.pu = true ∧ x.h = hOne then reach (x.tPu + usU (recTmin (recBytes (grpBytes s b) i.toNat))) s else s))) ∧
    (∀ (e : BitVec 6), e.toNat ≤ 24 → isCurve e.toNat = false → ∀ x : StageSt, x = r.stages.getD e.toNat {} →
      exec (.stageTdExpiry bay e) s = .next (stageTimer b e.toNat stageOperate
        (if x.pu = true then reach (x.tPu + usU (recTd (recBytes (grpBytes s b) e.toNat))) s else s))) ∧
    (∀ (e : BitVec 6), (24 < e.toNat ∧ e.toNat ≠ 27 ∧ e.toNat ≠ 34) ∨ isCurve e.toNat = true → exec (.stageTdExpiry bay e) s = .next s) ∧
    (∀ (d i : Nat) (f : BCtx → Bytes → StageSt → StageSt), d ≤ endOfMs s → bayLive s b = false →
      stageTimer b i f (reach d s) = { s with clk := s.clk.advance d }) ∧
    (∀ (d i : Nat) (f : BCtx → Bytes → StageSt → StageSt), endOfMs s < d → bayLive s b = false → stageTimer b i f (reach d s) = s) ∧
    (∀ (i : Nat) (f : BCtx → Bytes → StageSt → StageSt) (k : Nat), k ≠ i → (bayRun (stageTimer b i f s) b).stages.getD k {} = r.stages.getD k {})

/-- 46BC and HIF, picked up and not blocked, operate when their delay ends at or before the release boundary. 50BF sets RETRIP and BKTRIP when its T1 and T2 have passed, and not before. SOTF is armed after DEAD_T without a break while it is enabled; its window ends after WIN_T. A bay is de-energised after DEAD_S and CLP_ACT ends after ACT_S. The energisation window and the hold of a phase end with INIT_N and HOLD_N Milestones. Before its time a row changes nothing. -/
def Obligations.ElementDelays : Prop :=
  ∀ (s : State) (bay : BitVec 6), ∀ b, b = bay.toNat → b < s.prot.bays.length → ∀ (e : Elems) (g : Bytes), e = (bayRun s b).el → g = grpBytes s b →
    (bayLive s b = true → e.bc.pu = true → e.bc.blk = false → e.bc.tPu + usU (u32At g 0x708) ≤ endOfMs s →
      ∃ t, exec (.stageTdExpiry bay 27) s = .next t ∧ (bayRun t b).el.bc = { e.bc with op := true } ∧ (bayRun t b).stages = (bayRun s b).stages) ∧
    (bayLive s b = true → e.hif.pu = true → e.hif.blk = false → e.hif.tPu + usU (u32At g 0x9CC) ≤ endOfMs s →
      ∃ t, exec (.stageTdExpiry bay 34) s = .next t ∧ (bayRun t b).el.hif = { e.hif with op := true }) ∧
    (bayLive s b = true → ∀ a, e.bfAt = some a →
      (a + usU (u32At g 0x788) ≤ endOfMs s → ∃ t, exec (.bfRetrip bay) s = .next t ∧ (bayRun t b).el.bfRe = true ∧
        t.clk = s.clk.advance (a + usU (u32At g 0x788))) ∧
      (endOfMs s < a + usU (u32At g 0x788) → exec (.bfRetrip bay) s = .next s) ∧
      (a + usU (u32At g 0x78C) ≤ endOfMs s → ∃ t, exec (.bfBktrip bay) s = .next t ∧ (bayRun t b).el.bfBk = true) ∧
      (endOfMs s < a + usU (u32At g 0x78C) → exec (.bfBktrip bay) s = .next s)) ∧
    (e.bfAt = none → exec (.bfRetrip bay) s = .next s ∧ exec (.bfBktrip bay) s = .next s) ∧
    (∀ a, e.armSince = some a →
      (bitAt g 0x900 0 = true → a + usU (u32At g 0x908) ≤ endOfMs s →
        ∃ t, exec (.sotfArmed bay) s = .next t ∧ (bayRun t b).el = { e with armed := true } ∧ t.clk = s.clk.advance (a + usU (u32At g 0x908))) ∧
      (bitAt g 0x900 0 = false ∨ endOfMs s < a + usU (u32At g 0x908) → exec (.sotfArmed bay) s = .next s)) ∧
    (e.armSince = none → exec (.sotfArmed bay) s = .next s) ∧
    (∀ a, e.sotfAt = some a →
      (a + usU (u32At g 0x90C) ≤ endOfMs s →
        ∃ t, exec (.sotfWindowEnd bay) s = .next t ∧ (bayRun t b).el = { e with sotfAt := none, sotfWin := false }) ∧
      (endOfMs s < a + usU (u32At g 0x90C) → exec (.sotfWindowEnd bay) s = .next s)) ∧
    (∀ a, e.deadSince = some a →
      (a + secU (u16At g 0x984) ≤ endOfMs s → ∃ t, exec (.clpDeenergised bay) s = .next t ∧ (bayRun t b).el = { e with dead := true }) ∧
      (endOfMs s < a + secU (u16At g 0x984) → exec (.clpDeenergised bay) s = .next s)) ∧
    (∀ a, e.clpAt = some a →
      (a + secU (u16At g 0x986) ≤ endOfMs s → ∃ t, exec (.clpActEnd bay) s = .next t ∧ (bayRun t b).el = { e with clpAt := none, clp := false }) ∧
      (endOfMs s < a + secU (u16At g 0x986) → exec (.clpActEnd bay) s = .next s)) ∧
    (∀ m, e.winAt = some m →
      (bayLive s b = true → m + inrWin g ≤ s.clk.ms → ∃ t, exec (.inrushWindowEnd bay) s = .next t ∧ (bayRun t b).el.winAt = none ∧
        (bayRun t b).el.win = false ∧ t.clk = s.clk) ∧
      (s.clk.ms < m + inrWin g → exec (.inrushWindowEnd bay) s = .next s)) ∧
    (∀ (p : BitVec 2) (m : Nat), e.ratioMs.getD p.toNat none = some m →
      (bayLive s b = true → m + u16At g 0x94C < s.clk.ms → ∃ t, exec (.inrushHoldEnd bay p) s = .next t ∧ (bayRun t b).el.ratioMs.getD p.toNat none = none ∧
        (∀ q, q ≠ p.toNat → (bayRun t b).el.ratioMs.getD q none = e.ratioMs.getD q none)) ∧
      (s.clk.ms ≤ m + u16At g 0x94C → exec (.inrushHoldEnd bay p) s = .next s))

/-- A row of 79 acts only while 79 is in the state whose limit it is and that limit has ended at the release boundary; it then leaves every stage, BAY_TRIP and every other element as they are, and only the state of 79 changes, to what R305's table gives. -/
def Obligations.ReclosingTimers : Prop :=
  ∀ (s : State) (bay : BitVec 6), ∀ b, b = bay.toNat → ∀ (e : Elems) (g : Bytes), e = (bayRun s b).el → g = (bayCtx s b).g →
    (∀ c st, (c, st) ∈ [(Instr.trippedTimeout bay, 2), (Instr.deadTimeEnd bay, 3), (Instr.closeTEnd bay, 4), (Instr.reclaimEnd bay, 5)] →
      (bayLive s b = false ∨ e.ar.st ≠ st ∨ endOfMs s < e.ar.at_ + usU (arLimit g e.ar) → exec c s = .next s) ∧
      (bayLive s b = true → e.ar.st = st → e.ar.at_ + usU (arLimit g e.ar) ≤ endOfMs s → b < s.prot.bays.length →
        ∃ t, exec c s = .next t ∧ t.clk = s.clk.advance (e.ar.at_ + usU (arLimit g e.ar)) ∧ (bayRun t b).stages = (bayRun s b).stages ∧
          (bayRun t b).el = { e with ar := (bayRun t b).el.ar } ∧
          (bayRun t b).el.ar = arStep g
            { run := !inMask (eblkMask s b) 30, trip := false, reclosable := false
              arBlk := arBlkIn s b || (bitAt g 0x740 2 && bitAt g 0x740 0 && e.thPu), bfOn := e.bfAt.isSome && !e.bfPrev
              cb := (bayCtx s b).cb, open_ := (bayCtx s b).tOpen, rel := (bayCtx s b).tRel } e.ar))

/-- RI, picked up and not yet operated, operates at RI_TD and counts one operation. The 87B block ends with SAT_BLK; a feeder's hold leaves the list with RI_HOLD. The freeze after a trip ends with FRZ_TRIP where BAY_TRIP is 0: bit 2 of the causes falls and no other. The voltage memory ends after MEM_T, the background is valid once HIF_WARM is reached. CYCLE_FRAME_END closes the frame of every running bay. ENERGY_COUNTERS_SAVE copies every energy counter and changes nothing else. A running logic timer whose preset the release time reaches is stepped with its last input; any other is left. -/
def Obligations.SectionAndFreezeTimers : Prop :=
  ∀ (s : State),
    (∀ (sect : BitVec 4), ∀ (k : Nat) (r : SectRun) (d : Nat), k = sect.toNat → r = sectRun s k → d = r.riAt + msU (riTd (sectionBytes s k)) →
      (sectionEn s k = true → r.ran = true → r.riPu = true → r.riOp = false → d ≤ endOfMs s → k < s.prot.sects.length →
        ∃ t, exec (.riTdExpiry sect) s = .next t ∧ (sectRun t k).riOp = true ∧ (sectRun t k).riOps = satN 16 (r.riOps + 1) ∧ t.clk = s.clk.advance d) ∧
      (sectionEn s k = false ∨ r.ran = false ∨ r.riPu = false ∨ r.riOp = true ∨ endOfMs s < d → exec (.riTdExpiry sect) s = .next s) ∧
      (∀ x, r.satEnd = some x → k < s.prot.sects.length →
        (x ≤ endOfMs s → ∃ t, exec (.satBlkEnd sect) s = .next t ∧ sectRun t k = { r with satEnd := none, satIn := 0 } ∧ t.clk = s.clk.advance x) ∧
        (endOfMs s < x → exec (.satBlkEnd sect) s = .next s)) ∧
      (r.satEnd = none → exec (.satBlkEnd sect) s = .next s) ∧
      (k < s.prot.sects.length → ∃ t, exec (.riHoldEnd sect) s = .next t ∧ sectRun t k =
        { r with riHold := r.riHold.filter (fun x => decide (endOfMs s < x.2 + msU (riHold (sectionBytes s k)))) })) ∧
    (∀ (bay : BitVec 6), ∀ (b : Nat) (e : Elems), b = bay.toNat → e = (bayRun s b).el → b < s.prot.bays.length →
      (∀ a, e.tripAt = some a →
        (e.bayTrip = false → a + frzTrip (bayBytes s b) ≤ endOfMs s → ∃ t, exec (.frzTripEnd bay) s = .next t ∧
          (bayRun t b).el = { e with tripAt := none, frz := (bayRun t b).el.frz } ∧ bitsOf (bayRun t b).el.frz 2 1 = 0 ∧
          (∀ k, k < 8 → k ≠ 2 → bitsOf (bayRun t b).el.frz k 1 = bitsOf e.frz k 1)) ∧
        (e.bayTrip = true ∨ endOfMs s < a + frzTrip (bayBytes s b) → exec (.frzTripEnd bay) s = .next s)) ∧
      (e.tripAt = none → exec (.frzTripEnd bay) s = .next s) ∧
      (∀ (lane : BitVec 2),
        (hifWarm (bayBytes s b) ≤ e.bkgAge.getD lane.toNat 0 → lane.toNat < e.bkgOk.length → ∃ t, exec (.hifBackgroundValid bay lane) s = .next t ∧
          (bayRun t b).el = { e with bkgOk := e.bkgOk.set lane.toNat true }) ∧
        (e.bkgAge.getD lane.toNat 0 < hifWarm (bayBytes s b) → exec (.hifBackgroundValid bay lane) s = .next s)) ∧
      (∀ p q a, e.vmem = some (p, q, a) → ∀ d, d = a + msU (u16At ((grpBytes s b).drop 0x680) 0xC) →
        (d < endOfMs s → ∃ t, exec (.memTEnd bay) s = .next t ∧ (bayRun t b).el = { e with vmem := none, memUse := false } ∧ t.clk = s.clk.advance d) ∧
        (endOfMs s ≤ d → exec (.memTEnd bay) s = .next s)) ∧
      (e.vmem = none → exec (.memTEnd bay) s = .next s) ∧
      (∀ (i : BitVec 8), ∀ (x : LogicBay) (y : LTimer), x = logicBay s b → y = x.data.tmr.getD i.toNat {} → ∀ img, img = (activeImage x).getD [] →
        (x.ran = true → y.run = true → y.start + tmrPt img i.toNat ≤ x.exec.rn → i.toNat < x.data.tmr.length → timerOp img i.toNat = some 0x40 →
          ∃ t, exec (.logicTimerExpiry bay i) s = .next t ∧
            (logicBay t b).data = { x.data with tmr := x.data.tmr.set i.toNat (tonStep (tmrPt img i.toNat) x.exec.tn x.exec.rn y.inn y) }) ∧
        (x.ran = false ∨ y.run = false ∨ x.exec.rn < y.start + tmrPt img i.toNat ∨ timerOp img i.toNat = none →
          exec (.logicTimerExpiry bay i) s = .next s))) ∧
    exec .cycleFrameEnd s = .next ((runningBays s).foldl (fun s b => frameEnd b s) s) ∧
    (∀ b, (bayCtx s b).frame = true → b < s.prot.bays.length → (bayRun (frameEnd b s) b).frameMs = some s.clk.ms) ∧
    (∀ b, (bayCtx s b).frame = false → frameEnd b s = s) ∧
    (∃ t, exec .energyCountersSave s = .next t ∧ t.prot.bays.length = s.prot.bays.length ∧
      t = { s with prot := { s.prot with bays := t.prot.bays } } ∧
      ∀ (i : Nat) (x : BayProt), s.prot.bays[i]? = some x → t.prot.bays[i]? = some { x with energySaved := x.energy })

/-- For the check of I_N of a bay that runs it, a count that reaches PLB_N makes a fault that is not lasting lasting and ends its episode; PLB_W evaluated Milestones without an exceedance clear a lasting fault, its window empty; an episode ends after PLB_W Milestones without one, its record written, or, within 60 s of the last, folded into the next. Otherwise the check is unchanged. A unit that is absent, or a code that is no check of it, changes nothing. -/
def Obligations.PlausibilityRows : Prop :=
  (∀ (s : State) (unit : BitVec 16) (code : BitVec 3) (ph : BitVec 2), chkUnit s unit.toNat code.toNat = false →
    exec (.plausibilityLasting unit code ph) s = .next s ∧ exec (.plausibilityCleared unit code ph) s = .next s ∧
    exec (.plausibilityEpisodeEnd unit code ph) s = .next s) ∧
  (∀ (s : State) (bay : Nat) (ph : BitVec 2) (c : Chk), bay < 64 → bay < s.prot.bays.length → chkUnit s bay 1 = true → c = (bayRun s bay).inChk →
    (∃ t, exec (.plausibilityLasting (BitVec.ofNat 16 bay) 1 ph) s = .next t ∧
      (bayRun t bay).inChk = (if c.last = false ∧ plbN (bayBytes s bay) ≤ c.win.length then { c with last := true, ep := false } else c) ∧
      (bayRun t bay).vxChk = (bayRun s bay).vxChk ∧ (bayRun t bay).el = (bayRun s bay).el) ∧
    (∃ t, exec (.plausibilityCleared (BitVec.ofNat 16 bay) 1 ph) s = .next t ∧
      (bayRun t bay).inChk = (if c.last = true ∧ plbW (bayBytes s bay) ≤ c.streak then { c with last := false, win := [], streak := 0 } else c) ∧
      (bayRun t bay).vxChk = (bayRun s bay).vxChk) ∧
    (∃ t, exec (.plausibilityEpisodeEnd (BitVec.ofNat 16 bay) 1 ph) s = .next t ∧
      (c.ep = true → c.lastExc + plbW (bayBytes s bay) ≤ s.clk.ms →
        (bayRun t bay).inChk.ep = false ∧
        ((c.recAt = none ∨ (∃ a, c.recAt = some a ∧ a + secU 60 ≤ s.clk.mono)) → (bayRun t bay).inChk.recAt = some s.clk.mono ∧ (bayRun t bay).inChk.folded = 0) ∧
        (∀ a, c.recAt = some a → s.clk.mono < a + secU 60 → (bayRun t bay).inChk.recAt = some a ∧ (bayRun t bay).inChk.folded = c.folded + 1)) ∧
      (c.ep = false ∨ s.clk.ms < c.lastExc + plbW (bayBytes s bay) → (bayRun t bay).inChk = c)))

/-- Each row of the instruction table, with an operand that verification accepts, moves the index on by one, spends its clocks and does what the table says to ACC, the stack and the data of its bay, and nothing else of the block changes; a jump taken continues at index + offset. A store to a bit that is forced leaves it. END ends the cycle and gives forced bits their value. A timer takes ACC as IN and gives Q, by R355; a counter counts on a rise of ACC. With an operand that verification refuses, nothing changes (log entry 43). -/
def Obligations.LogicInstructions : Prop :=
  (∀ (s : State) (bay : BitVec 6) (a : BitVec 24) (b : Nat) (x : LogicBay) (c : LCtx) (e : LExec) (d : LData) (nx : Nat → LExec),
    b = bay.toNat → x = logicBay s b → c = logicCtx s b → e = x.exec → d = x.data →
    nx = (fun n => { e with idx := e.idx + 1, clocks := e.clocks + n }) →
    (LogicRuns (.opNop bay) s b (nx 1) d ∧ LogicRuns (.opNot bay) s b { nx 1 with acc := !e.acc } d ∧
      LogicRuns (.opApush bay) s b { nx 1 with stack := (e.acc, .and) :: e.stack } d ∧
      LogicRuns (.opOpush bay) s b { nx 1 with stack := (e.acc, .or) :: e.stack } d ∧
      LogicRuns (.opDup bay) s b { nx 1 with stack := (e.acc, .none) :: e.stack } d ∧
      (∀ v r, e.stack = (v, .and) :: r → LogicRuns (.opPop bay) s b { nx 1 with acc := v && e.acc, stack := r } d) ∧
      (∀ v r, e.stack = (v, .or) :: r → LogicRuns (.opPop bay) s b { nx 1 with acc := v || e.acc, stack := r } d) ∧
      (∀ v t r, e.stack = (v, t) :: r → LogicRuns (.opRds bay) s b { nx 1 with acc := v } d ∧
        LogicRuns (.opDrop bay) s b { nx 1 with acc := v, stack := r } d) ∧
      LogicRuns (.opEnd bay) s b { nx 1 with running := false } { d with
        out := d.out.mapIdx (fun i v => (forcedAt c (4 * 2 ^ 20 + i)).getD v)
        var := d.var.mapIdx (fun i v => (forcedAt c (5 * 2 ^ 20 + i)).getD v) }) ∧
    (mayRead (pNvar c.img) a.toNat = true → ∀ rd, rd = ({ x := e, d := d } : LM).read c a.toNat →
      LogicRuns (.opLd bay a) s b { nx 1 with acc := rd } d ∧ LogicRuns (.opLdn bay a) s b { nx 1 with acc := !rd } d ∧
      LogicRuns (.opAnd bay a) s b { nx 1 with acc := e.acc && rd } d ∧ LogicRuns (.opAndn bay a) s b { nx 1 with acc := e.acc && !rd } d ∧
      LogicRuns (.opOr bay a) s b { nx 1 with acc := e.acc || rd } d ∧ LogicRuns (.opOrn bay a) s b { nx 1 with acc := e.acc || !rd } d ∧
      LogicRuns (.opXor bay a) s b { nx 1 with acc := e.acc != rd } d) ∧
    (mayRead (pNvar c.img) a.toNat = false → ∀ i ∈ [Instr.opLd bay a, .opLdn bay a, .opAnd bay a, .opAndn bay a, .opOr bay a, .opOrn bay a,
      .opXor bay a], exec i s = .next s) ∧
    (mayWrite (pNvar c.img) a.toNat = false → ∀ i ∈ [Instr.opSt bay a, .opStn bay a, .opSet bay a, .opRst bay a], exec i s = .next s) ∧
    (mayWrite (pNvar c.img) a.toNat = true →
      (∀ v, forcedAt c a.toNat = some v → ∀ i ∈ [Instr.opSt bay a, .opStn bay a, .opSet bay a, .opRst bay a], LogicRuns i s b (nx 1) d) ∧
      (forcedAt c a.toNat = none → ∀ k, k = opIndex a.toNat → ∀ w : Bool → LData,
        w = (fun v => if opSpace a.toNat = 4 then { d with out := modAt d.out k (fun _ => v) } else { d with var := modAt d.var k (fun _ => v) }) →
        LogicRuns (.opSt bay a) s b (nx 1) (w e.acc) ∧ LogicRuns (.opStn bay a) s b (nx 1) (w !e.acc) ∧
        LogicRuns (.opSet bay a) s b (nx 1) (if e.acc = true then w true else d) ∧
        LogicRuns (.opRst bay a) s b (nx 1) (if e.acc = true then w false else d))) ∧
    (∀ k, k = opIndex a.toNat →
      (opSpace a.toNat = 8 → k < pNedg c.img →
        LogicRuns (.opRise bay a) s b { nx 2 with acc := e.acc && !d.edg.getD k false } { d with edg := modAt d.edg k (fun _ => e.acc) } ∧
        LogicRuns (.opFall bay a) s b { nx 2 with acc := d.edg.getD k false && !e.acc } { d with edg := modAt d.edg k (fun _ => e.acc) }) ∧
      (opSpace a.toNat ≠ 8 ∨ pNedg c.img ≤ k → exec (.opRise bay a) s = .next s ∧ exec (.opFall bay a) s = .next s) ∧
      (opSpace a.toNat = 6 → k < pNtmr c.img →
        (∀ i f, (i, f) ∈ [(Instr.opTon bay a, tonStep), (Instr.opTof bay a, tofStep), (Instr.opTp bay a, tpStep)] →
          LogicRuns i s b { nx 4 with acc := (f (tmrPt c.img k) e.tn e.rn e.acc (d.tmr.getD k {})).q }
            { d with tmr := modAt d.tmr k (fun _ => f (tmrPt c.img k) e.tn e.rn e.acc (d.tmr.getD k {})) }) ∧
        LogicRuns (.opTrst bay a) s b (nx 2) (if e.acc = true then { d with tmr := modAt d.tmr k (fun t =>
          { t with q := false, run := false, inn := false, et := 0, resume := false }) } else d)) ∧
      (opSpace a.toNat ≠ 6 ∨ pNtmr c.img ≤ k → ∀ i ∈ [Instr.opTon bay a, .opTof bay a, .opTp bay a, .opTrst bay a], exec i s = .next s) ∧
      (opSpace a.toNat = 7 → k < pNcnt c.img → ∀ y, y = d.cnt.getD k {} →
        (∀ v, v = (if e.acc = true ∧ y.cu = false then min (y.cv + 1) 65535 else y.cv) →
          LogicRuns (.opCtu bay a) s b { nx 3 with acc := decide (cntPv c.img k ≤ v) } { d with cnt := modAt d.cnt k (fun _ => { y with cv := v, cu := e.acc }) }) ∧
        (∀ v, v = (if e.acc = true ∧ y.cd = false then y.cv - 1 else y.cv) →
          LogicRuns (.opCtd bay a) s b { nx 3 with acc := decide (v = 0) } { d with cnt := modAt d.cnt k (fun _ => { y with cv := v, cd := e.acc }) }) ∧
        LogicRuns (.opCrst bay a) s b (nx 2) { d with cnt := modAt d.cnt k (fun _ => if e.acc = true then { y with cv := 0 } else y) } ∧
        LogicRuns (.opCld bay a) s b (nx 2) { d with cnt := modAt d.cnt k (fun _ => if e.acc = true then { y with cv := cntPv c.img k } else y) } ∧
        LogicRuns (.opCge bay a) s b { nx 2 with acc := decide (cntPv c.img k ≤ y.cv) } { d with cnt := modAt d.cnt k (fun _ => y) }) ∧
      (opSpace a.toNat ≠ 7 ∨ pNcnt c.img ≤ k → ∀ i ∈ [Instr.opCtu bay a, .opCtd bay a, .opCrst bay a, .opCld bay a, .opCge bay a], exec i s = .next s)) ∧
    (0 < a.toNat → a.toNat < 2 ^ 23 → e.idx + a.toNat + 1 ≤ pNinstr c.img → ∀ j, j = { nx 2 with idx := e.idx + a.toNat } →
      LogicRuns (.opJmp bay a) s b j d ∧ LogicRuns (.opJmpc bay a) s b (if e.acc = true then j else nx 2) d ∧
      LogicRuns (.opJmpnc bay a) s b (if e.acc = true then nx 2 else j) d) ∧
    (a.toNat = 0 ∨ 2 ^ 23 ≤ a.toNat ∨ pNinstr c.img < e.idx + a.toNat + 1 → exec (.opJmp bay a) s = .next s ∧ exec (.opJmpc bay a) s = .next s ∧
      exec (.opJmpnc bay a) s = .next s)) ∧
  (∀ (pt tn rn : Nat) (t : LTimer), t.resume = false →
    ((tonStep pt tn rn false t).q = false ∧ (tonStep pt tn rn false t).run = false) ∧
    (t.inn = false → t.q = false → (tonStep pt tn rn true t).start = tn ∧ (tonStep pt tn rn true t).q = decide (tn + pt ≤ rn)) ∧
    (t.inn = true → t.run = true → t.q = false → (tonStep pt tn rn true t).start = t.start ∧ (tonStep pt tn rn true t).q = decide (t.start + pt ≤ rn)) ∧
    ((tofStep pt tn rn true t).q = true ∧ (tofStep pt tn rn true t).run = false) ∧
    (t.inn = true → t.q = true → (tofStep pt tn rn false t).start = tn ∧ (tofStep pt tn rn false t).q = decide (rn < tn + pt)) ∧
    (t.inn = false → t.q = false → (tpStep pt tn rn true t).start = tn ∧ (tpStep pt tn rn true t).q = decide (rn < tn + pt)) ∧
    (t.run = true → t.q = true → ∀ i, (tpStep pt tn rn i t).q = decide (rn < t.start + pt)))

/-- LOGIC_OVERRUN of a bay whose cycle of this Milestone has run and has no overrun marks the overrun and counts it, the bay's data and released outputs as they are; otherwise nothing changes. LOGIC_ABORT of a cycle that goes on in the Milestone after its own gives the data back the values before that cycle; an active cluster with no takeover fails for it. Otherwise nothing changes. -/
def Obligations.LogicFailures : Prop :=
  ∀ (s : State) (bay : BitVec 6) (b : Nat) (x : LogicBay), b = bay.toNat → x = logicBay s b →
    (x.ran = true → x.exec.ms = s.clk.ms → x.overrunState = 0 → b < s.prot.bays.length → ∃ t, exec (.logicOverrun bay) s = .next t ∧
      logicBay t b = { x with overrunState := 1, overruns := satN 32 (x.overruns + 1) } ∧
      (∀ k, k ≠ b → bayProt t k = bayProt s k) ∧ t.mode.mode = s.mode.mode) ∧
    (x.ran = false ∨ x.exec.ms ≠ s.clk.ms ∨ x.overrunState ≠ 0 → exec (.logicOverrun bay) s = .next s) ∧
    (x.ran = true → x.overrunState = 2 → b < s.prot.bays.length → ∃ t, exec (.logicAbort bay) s = .next t ∧
      logicBay t b = { x with data := x.chk, ran := false, overrunState := 0 } ∧ (∀ k, k ≠ b → bayProt t k = bayProt s k) ∧
      (s.mode.clusters.getD (clusterOf b) .outOfService = .active → s.mode.tko.getD (clusterOf b) .none = .none →
        clusterOf b < s.mode.tko.length → t.mode.tko.getD (clusterOf b) .none = .failed 3 s.clk.ms)) ∧
    (x.ran = false ∨ x.overrunState ≠ 2 → exec (.logicAbort bay) s = .next s)

/-- Setting a pin follows R378: a demand asserts it, the instant kept where it was asserted; without one an asserted pin stays while its minimum pulse or its seal-in holds it and falls otherwise, and a deasserted one stays low. The rows of the ends of the minimum pulse and of the seal-in set a held pin at the boundary, with the seal condition of that moment, where its demand stays 0 and neither a fail-safe policy nor a takeover stands in the way; a pin that is not held, or whose time has not ended by then, is left. A readback difference past its time starts one episode, counted once, and its end needs the levels to agree; neither changes a pin level. A circuit unhealthy for TCS_T alarms and one healthy for TCS_T clears; an old result leaves it stale. A new level of an input is accepted after its debounce time and not before. -/
def Obligations.TripRows : Prop :=
  (∀ (how : PinRec) (p b : Nat) (s : State) (x : PinSt) (dem : Bool), p < s.trip.pins.length → x = pinSt s p → dem = demandOf s p →
    ∃ t y, pinStep how p b s = t ∧ y = pinSt t p ∧ y.demand = dem ∧ (∀ k, k ≠ p → pinSt t k = pinSt s k) ∧ t.trip.bi = s.trip.bi ∧
      (dem = true → y.level = true ∧ y.tOff = none ∧ y.tOn = (if x.level = true then x.tOn else b)) ∧
      (dem = false → x.level = false → y.level = false) ∧
      (dem = false → x.level = true → ∀ o, o = x.tOff.getD b →
        (b < x.tOn + msU (tsMinPulse x.cfg) ∨ (x.sealCond = true ∧ b < o + msU (tsSealMax x.cfg)) → y.level = true ∧ y.tOff = some o ∧ y.tOn = x.tOn) ∧
        (x.tOn + msU (tsMinPulse x.cfg) ≤ b → (x.sealCond = false ∨ o + msU (tsSealMax x.cfg) ≤ b) → y.level = false)) ∧
      (pinLevel t p ≠ pinLevel s p → t.host.regs.irqStat.getLsbD Irq.trip = true ∧ y.changedAt = b)) ∧
  (∀ (s : State) (p : BitVec 5) (x : PinSt), x = pinSt s p.toNat →
    (∀ bay b, sealBay x = some bay → s.mode.mode.runs = true → s.mode.fsActive.getD bay false = false →
      s.mode.tko.getD (clusterOf bay) .none = .none → x.demand = false → demandNext s p.toNat = false →
      b = setPin p.toNat (fun y => { y with sealCond := sealCondOf s p.toNat }) { s with clk := s.clk.advance (endOfMs s) } →
      (x.level = true → x.minp = true → x.tOn + msU (tsMinPulse x.cfg) ≤ endOfMs s →
        exec (.minPulseEnd p) s = .next (adoptSlot p.toNat (pinStep (recordOf b p.toNat) p.toNat (endOfMs s) b))) ∧
      (∀ o, x.tOff = some o → x.level = true → x.sealed = true → o + msU (tsSealMax x.cfg) ≤ endOfMs s →
        exec (.sealMaxEnd p) s = .next (adoptSlot p.toNat (pinStep (recordOf b p.toNat) p.toNat (endOfMs s) b)))) ∧
    (x.demand = true ∨ demandNext s p.toNat = true ∨ s.mode.mode.runs = false ∨ sealBay x = none →
      exec (.minPulseEnd p) s = .next s ∧ exec (.sealMaxEnd p) s = .next s) ∧
    (x.level = false ∨ x.minp = false ∨ endOfMs s < x.tOn + msU (tsMinPulse x.cfg) → exec (.minPulseEnd p) s = .next s) ∧
    (∀ o, x.tOff = some o → (x.level = false ∨ x.sealed = false ∨ endOfMs s < o + msU (tsSealMax x.cfg)) → exec (.sealMaxEnd p) s = .next s) ∧
    (x.tOff = none → exec (.sealMaxEnd p) s = .next s) ∧
    (s.trip.pins.length = 32 → s.trip.trb.length = 32 →
      (∀ lv, ∃ t, exec (.rbMismatchStart p lv) s = .next t ∧ (∀ k, pinLevel t k = pinLevel s k) ∧
        (tsRbEn x.cfg = true → (sealBay x).isSome = true → x.rbFail = false → lv ≠ rbExpected s p.toNat → x.changedAt + usU 120 < s.clk.mono →
          (pinSt t p.toNat).rbFail = true ∧ (pinSt t p.toNat).rbEpis = satN 16 (x.rbEpis + 1) ∧ (pinSt t p.toNat).rbAt = s.clk.mono) ∧
        (x.rbFail = true ∨ lv = rbExpected s p.toNat ∨ s.clk.mono ≤ x.changedAt + usU 120 → pinSt t p.toNat = x)) ∧
      (∀ lv, ∃ t, exec (.rbMismatchEnd p lv) s = .next t ∧ (∀ k, pinLevel t k = pinLevel s k) ∧
        (lv = rbExpected s p.toNat → pinSt t p.toNat = { x with rbFail := false }) ∧ (lv ≠ rbExpected s p.toNat → pinSt t p.toNat = x)) ∧
      (∀ c ok, (c, ok) ∈ [(Instr.tcsAlarm p, false), (Instr.tcsClear p, true)] →
        (∀ o a, x.tcsSince = some (o, a) → (o ≠ ok → exec c s = .next s) ∧
          (o = ok → exec c s = .next (tcsStep p.toNat { s with clk := s.clk.advance (a + msU (tsTcsT x.cfg)) }))) ∧
        (x.tcsSince = none → exec c s = .next (tcsStep p.toNat s))) ∧
      (∃ t, exec (.tcsStale p) s = .next t ∧ (∀ k, pinLevel t k = pinLevel s k) ∧
        (tsTcsEn x.cfg = true → (sealBay x).isSome = true → tcsSuspended s p.toNat = false → (pinSt t p.toNat).tcs = .stale ∧
          (pinSt t p.toNat).tcsAlarm = x.tcsAlarm ∧ (pinSt t p.toNat).tcsSince = none)) ∧
      (∃ t, tcsStep p.toNat s = t ∧ (∀ k, pinLevel t k = pinLevel s k) ∧
        (tsTcsEn x.cfg = true → (sealBay x).isSome = true → tcsSuspended s p.toNat = false → ∀ m, tcsMean s p.toNat = some m → ∀ a ok,
          ok = (decide (tsTcsLo x.cfg * 16 ≤ m) && decide (m ≤ tsTcsHi x.cfg * 16)) → x.tcsSince = some (ok, a) →
          (a + msU (tsTcsT x.cfg) ≤ s.clk.mono → (pinSt t p.toNat).tcsAlarm = !ok) ∧
          (s.clk.mono < a + msU (tsTcsT x.cfg) → (pinSt t p.toNat).tcsAlarm = x.tcsAlarm))))) ∧
  (∀ (s : State) (i : BitVec 6) (x : BiSt), s.trip.bi.length = 64 → x = s.trip.bi.getD i.toNat {} →
    (∀ lv a, x.raw = x.accepted → lv ≠ x.raw → ∀ m, m = max s.clk.mono (a * uPerNs) → ∃ t, exec (.biEdge i lv a) s = .next t ∧ t.clk.mono = m ∧
      (t.trip.bi.getD i.toNat {}).raw = lv ∧ (t.trip.bi.getD i.toNat {}).rawAt = m ∧
      ((t.trip.bi.getD i.toNat {}).accepted = if debounce s i.toNat = 0 then lv else x.accepted) ∧
      (∀ k, k ≠ i.toNat → t.trip.bi.getD k {} = s.trip.bi.getD k {})) ∧
    (∀ lv a, x.raw = x.accepted → lv = x.raw → exec (.biEdge i lv a) s = .next { s with clk := s.clk.advance (a * uPerNs) }) ∧
    (∀ lv a, x.raw ≠ x.accepted → lv = x.accepted → max s.clk.mono (a * uPerNs) < x.rawAt + debounce s i.toNat →
      ∃ t, exec (.biEdge i lv a) s = .next t ∧ (t.trip.bi.getD i.toNat {}).accepted = x.accepted ∧ (t.trip.bi.getD i.toNat {}).raw = x.accepted) ∧
    (x.raw = x.accepted → exec (.biDebounceEnd i) s = .next s) ∧
    (x.raw ≠ x.accepted → ∃ t, exec (.biDebounceEnd i) s = .next t ∧ (t.trip.bi.getD i.toNat {}).accepted = x.raw ∧
      (t.trip.bi.getD i.toNat {}).edge = x.rawShort ∧ t.clk = s.clk.advance (x.rawAt + debounce s i.toNat)))

/-- A mismatch or an uncorrectable error of an active cluster that serves marks it failed in this Milestone; one of a ready standby retires it and raises STBY_RETIRED; one of a standby in use retires it and leaves its cluster without cover. A corrected error only counts. STANDBY_TAKEOVER of a replayed cycle leaves the cluster covered and raises STBY_IN_USE. LASTING_FAULT_DECLARED of sources 1 to 6, 13, 20 and 21 is the row of that source's own event, of sources 16, 18, 19 and 22 the counting of one event, and of a number that is no source nothing. Counting an event of a source at an instance that is not lasting makes it lasting exactly when its window then holds N events, and one of a lasting instance, before its clearing time, only notes the time; a lasting instance clears after its clearing time, its count empty, and a transient episode ends after a full window. FAULT_HANDLER ends the handler of the first open error unless the supervisor restarts. Units that do not serve change nothing. -/
def Obligations.SupervisionRows : Prop :=
  ∀ (s : State), s.mode.tko.length = 8 → s.mode.standbys.length = 4 → s.mode.clusters.length = 8 →
    (∀ (c : BitVec 3) (u : BitVec 4), u.toNat = c.toNat → s.mode.clusters.getD c.toNat .outOfService = .active →
      s.mode.tko.getD c.toNat .none = .none → servesCluster s c.toNat = true → ∀ i k, (i, k) ∈ [(Instr.lockstepMismatch c, 1), (Instr.sramEccUncorrectable u, 2)] →
        ∃ t, exec i s = .next t ∧ t.mode.tko = s.mode.tko.set c.toNat (.failed k s.clk.ms) ∧ t.mode.clusters = s.mode.clusters ∧
          t.mode.standbys = s.mode.standbys ∧ t.trip = s.trip) ∧
    (∀ (c : BitVec 3), servesCluster s c.toNat = false → exec (.lockstepMismatch c) s = .next s) ∧
    (∀ (u : BitVec 4), 12 ≤ u.toNat → exec (.sramEccCorrected u) s = .next s ∧ exec (.sramEccUncorrectable u) s = .next s) ∧
    (∀ (u : BitVec 4), ∃ t, exec (.sramEccCorrected u) s = .next t ∧ t.mode.tko = s.mode.tko ∧ t.mode.standbys = s.mode.standbys ∧
      t.mode.deg = s.mode.deg ∧ t.prot = s.prot) ∧
    (∀ (r : BitVec 2) (u : BitVec 4), u.toNat = 8 + r.toNat → s.mode.standbys.getD r.toNat .absent = .ready → standbyServes s r.toNat = true →
      ∀ i ∈ [Instr.standbySelftestMismatch r, Instr.sramEccUncorrectable u], ∃ t, exec i s = .next t ∧
        t.mode.standbys = s.mode.standbys.set r.toNat .retired ∧ t.mode.deg.getLsbD DegCause.stbyRetired = true ∧ t.mode.tko = s.mode.tko ∧ t.mode.mode = s.mode.mode) ∧
    (∀ (r : BitVec 2), standbyServes s r.toNat = false ∨ s.mode.standbys.getD r.toNat .absent ≠ .ready →
      exec (.standbySelftestMismatch r) s = .next s) ∧
    (∀ (r : BitVec 2) (k : BitVec 1), s.mode.standbys.getD r.toNat .absent = .inUse k → ∃ t, exec (.standbyReplayMismatch r) s = .next t ∧
      t.mode.standbys = s.mode.standbys.set r.toNat .retired ∧
      (s.mode.clusters.getD (2 * r.toNat + k.toNat) .outOfService = .covered → s.mode.tko.getD (2 * r.toNat + k.toNat) .none = .none →
        t.mode.tko = s.mode.tko.set (2 * r.toNat + k.toNat) (.lost 1 s.clk.ms))) ∧
    (∀ (r : BitVec 2), (∀ k, s.mode.standbys.getD r.toNat .absent ≠ .inUse k) → exec (.standbyReplayMismatch r) s = .next s) ∧
    (∀ (c : BitVec 3),
      (∀ m, s.mode.tko.getD c.toNat .none = .replaying m → ∃ t, exec (.standbyTakeover c) s = .next t ∧
        t.mode.clusters = s.mode.clusters.set c.toNat .covered ∧ t.mode.deg.getLsbD DegCause.stbyInUse = true ∧ t.mode.tko = s.mode.tko ∧
        t.mode.mode = s.mode.mode) ∧
      ((∀ m, s.mode.tko.getD c.toNat .none ≠ .replaying m) → exec (.standbyTakeover c) s = .next s)) ∧
    (∀ (id : BitVec 5) (inst : BitVec 16), ∀ f m, f = findInst s.supv id.toNat inst.toNat → m = monitor id.toNat →
      ((id.toNat = 16 ∧ inst.toNat < 32) ∨ (id.toNat ∈ [18, 19, 22] ∧ inst.toNat = 0) →
        exec (.lastingFaultDeclared id inst) s = .next (settle (countEvent id.toNat inst.toNat s))) ∧
      (id.toNat = 0 ∨ 24 ≤ id.toNat → exec (.lastingFaultDeclared id inst) s = .next s) ∧
      (∃ t, countEvent id.toNat inst.toNat s = t ∧
        (f.lasting = true → (∀ a, m.clear = some a → s.clk.mono < f.lastEvent + secU a) →
          (findInst t.supv id.toNat inst.toNat) = { f with lastEvent := s.clk.mono } ∧ t.supv.open_ = s.supv.open_) ∧
        (f.lasting = false →
          ((findInst t.supv id.toNat inst.toNat).lasting = true ↔ m.n ≤ (f.events.filter (fun a => decide (s.clk.mono < a + m.w))).length + 1))) ∧
      (f.lasting = true → ∀ a, m.clear = some a → ∃ t, exec (.lastingFaultCleared id inst) s = .next t ∧
        (findInst t.supv id.toNat inst.toNat).lasting = false ∧ (findInst t.supv id.toNat inst.toNat).events = [] ∧
        t.clk = s.clk.advance (f.lastEvent + secU a)) ∧
      (f.lasting = false ∨ m.clear = none → exec (.lastingFaultCleared id inst) s = .next s) ∧
      (f.episode = true → f.lasting = false → ∃ t, exec (.transientEpisodeEnd id inst) s = .next t ∧
        (findInst t.supv id.toNat inst.toNat).episode = false ∧ (findInst t.supv id.toNat inst.toNat).events = [] ∧
        t.clk = s.clk.advance (f.lastEvent + m.w)) ∧
      (f.episode = false ∨ f.lasting = true → exec (.transientEpisodeEnd id inst) s = .next s)) ∧
    (∀ k : Nat, k < 8 → exec (.lastingFaultDeclared 1 (BitVec.ofNat 16 k)) s = exec (.lockstepMismatch (BitVec.ofNat 3 k)) s) ∧
    (∀ k : Nat, k < 4 → exec (.lastingFaultDeclared 4 (BitVec.ofNat 16 (8 + k))) s = exec (.standbySelftestMismatch (BitVec.ofNat 2 k)) s) ∧
    (∀ k : Nat, k < 12 → exec (.lastingFaultDeclared 2 (BitVec.ofNat 16 k)) s = exec (.sramEccUncorrectable (BitVec.ofNat 4 k)) s ∧
      exec (.lastingFaultDeclared 5 (BitVec.ofNat 16 k)) s = exec (.sramEccCorrected (BitVec.ofNat 4 k)) s) ∧
    (∀ k : Nat, k < 64 → exec (.lastingFaultDeclared 3 (BitVec.ofNat 16 k)) s = exec (.logicAbort (BitVec.ofNat 6 k)) s ∧
      exec (.lastingFaultDeclared 13 (BitVec.ofNat 16 k)) s = exec (.logicOverrun (BitVec.ofNat 6 k)) s) ∧
    (∀ k : Nat, k < 2 → exec (.lastingFaultDeclared 6 (BitVec.ofNat 16 k)) s = exec (.dieToDieLinkRetry (BitVec.ofNat 1 k)) s) ∧
    (∀ inst, exec (.lastingFaultDeclared 20 inst) s = exec .supvWatchdogExpiry s ∧
      exec (.lastingFaultDeclared 21 inst) s = exec .supvLockstepRestart s) ∧
    (s.mode.supvRst = true → exec .faultHandler s = .next s) ∧
    (s.mode.supvRst = false → exec .faultHandler s = .next { s with supv := startHandler { s.supv with open_ := s.supv.open_.drop 1 } }) ∧
    (∀ (die : BitVec 1), ∃ t, exec (.dieToDieLinkRetry die) s = .next t ∧
      (isLasting s 6 die.toNat = true → t.mode.tko = s.mode.tko) ∧
      (isLasting s 6 die.toNat = false → isLasting t 6 die.toNat = true → ∀ c, c < 8 → c / 4 = die.toNat →
        s.mode.clusters.getD c .outOfService = .active → s.mode.tko.getD c .none = .none → t.mode.tko.getD c .none = .failed 1 s.clk.ms))

/-- A system trigger edge reaches every region armed for that line and edge, once, and a CW_TRG edge inside the package's own 2 Milestones reaches none. TRIGGER_TIMEOUT judges its own condition only, where it is a timeout of a running bay in an armed region. RECORD_CLOSE closes the oldest record whose last row is written, with the measurements of its bays, and raises IRQ_STAT.REC; without one nothing changes. AUTO_RECORD lets the region open a record at the next boundary. The overflow record is entered once the queue holds 768 or less, ahead of any further event, and the loss is then over. LOG_CHAIN_VERIFY counts and records each seal that fails and no other, and changes no record. -/
def Obligations.RecordAndLogRows : Prop :=
  ∀ (s : State),
    (∀ (j : BitVec 3) (up : Bool) (a : Nat),
      (4 ≤ j.toNat → a * uPerNs < s.rec_.cwIgnore.getD (j.toNat - 4) 0 → exec (.systemTriggerEdge j up a) s = .next { s with clk := s.clk.advance (a * uPerNs) }) ∧
      (j.toNat < 4 ∨ s.rec_.cwIgnore.getD (j.toNat - 4) 0 ≤ a * uPerNs → ∀ x, x = sysPlace { s with clk := s.clk.advance (a * uPerNs) } (a * uPerNs - sysDelay s j.toNat) →
        ∃ t, exec (.systemTriggerEdge j up a) s = .next t ∧ t.clk = s.clk.advance (a * uPerNs) ∧
          ∀ r, r < s.variant.regions → r < s.rec_.regions.length →
            (∀ m, (region s r).armed = some m → sysTakes m j.toNat up = true → recording s r = true →
              (x.1, j.toNat, x.2) ∈ (region t r).pend) ∧
            ((∀ m, (region s r).armed = some m → sysTakes m j.toNat up = false) → region t r = region s r))) ∧
    (∀ (bay : BitVec 6) (c : BitVec 4), ∀ b, b = bay.toNat →
      (tcKind (tcBytes (trgBytes s b) c.toNat) ≠ 3 ∨ b ∉ runningBays s ∨ recording s (regionOf (clusterOf b)) = false ∨ s.prot.inCycle = false →
        exec (.triggerTimeout bay c) s = .next s) ∧
      (tcKind (tcBytes (trgBytes s b) c.toNat) = 3 → b ∈ runningBays s → recording s (regionOf (clusterOf b)) = true → s.prot.inCycle = true →
        exec (.triggerTimeout bay c) s = .next (tcRun b c.toNat s))) ∧
    (∀ (r : BitVec 2), ∀ g, g = region s r.toNat →
      (g.recs.find? (fun x => x.state == .open_ && x.ended) = none → exec (.recordClose r) s = .next s) ∧
      (∀ x, g.recs.find? (fun x => x.state == .open_ && x.ended) = some x → r.toNat < s.rec_.regions.length → ∃ t, exec (.recordClose r) s = .next t ∧
        t.host.regs.irqStat.getLsbD Irq.rec = true ∧ (region t r.toNat).recs.length = g.recs.length ∧
        (∀ y ∈ (region t r.toNat).recs, y.id = x.id → y.state = .closed ∧ y.rows = []) ∧
        (∀ y, y.id ≠ x.id → (y ∈ (region t r.toNat).recs ↔ y ∈ g.recs)))) ∧
    (∀ (r : BitVec 2),
      (∀ m, (region s r.toNat).armed = some m → armAuto m = true → recording s r.toNat = true → r.toNat < s.rec_.regions.length →
        ∃ t, exec (.autoRecord r) s = .next t ∧ region t r.toNat = { region s r.toNat with autoPend := true } ∧
          t.clk = s.clk.advance ((region s r.toNat).autoAt + secU (60 * armAutoT m))) ∧
      ((region s r.toNat).armed = none ∨ recording s r.toNat = false ∨ (∀ m, (region s r.toNat).armed = some m → armAuto m = false) →
        exec (.autoRecord r) s = .next s)) ∧
    (s.log.overflow = none ∨ 768 < s.log.queue.length → exec .queueOverflowRecord s = .next s) ∧
    (∀ o, s.log.overflow = some o → s.log.queue.length ≤ 768 → ∃ t e, exec .queueOverflowRecord s = .next t ∧ t.log.overflow = none ∧
      t.log.queue = s.log.queue ++ [e] ∧ e.source = Src.log ∧ e.code = 1 ∧ e.unit = o.firstSource ∧ e.taiSec = o.first.taiSec ∧ e.taiNs = o.first.taiNs ∧
      e.data = dCount o.count ++ dMs o.firstMs ++ dMs o.lastMs ∧ t.log.ovfRecords = satN 32 (s.log.ovfRecords + 1)) ∧
    (s.mode.mode = .boot ∨ s.mode.mode = .backup → exec .logChainVerify s = .next s) ∧
    (s.mode.mode ≠ .boot → s.mode.mode ≠ .backup → ∃ t, exec .logChainVerify s = .next t ∧ t.log.records = s.log.records ∧
      t.log.headSeq = s.log.headSeq ∧ (brokenSeals s.log.records = [] → t = s) ∧
      (s.log.chainBreaks + (brokenSeals s.log.records).length < 2 ^ 32 → t.log.chainBreaks = s.log.chainBreaks + (brokenSeals s.log.records).length))

/-- A user loop is updated only where it runs, the Milestone is a multiple of 2^RATE_DIV and it has not been served in it. Of the device loops, 9 gives the addend of the time counter, within 200 ppm, where the counter follows a source, and changes nothing where it does not; 0 to 7 change their own output and shown state only, leave the addend, and change nothing where the variant has no such loop or in BACKUP; any other number changes nothing. INJECTION_CAPTURE_DONE of a capture complete and not yet written answers OK with the points written and ENDED_EARLY where the buffer can be written, else FAULT with detail MEMORY; the injection goes on where it has not run its course. A trace's trigger is placed at the next point, once. TRACE_DONE of an ended trace writes its header, repeats it in RESULT and removes the trace; an overrun ends a running one with cause 2 first, and its header then says so. -/
def Obligations.LoopAndTraceRows : Prop :=
  ∀ (s : State),
    (∀ (i : BitVec 5), (isUserLoop i.toNat = false ∨ (loopSt s i.toNat).on = false ∨ s.clk.ms % 2 ^ rateDiv (loopBytes s i.toNat) ≠ 0 ∨
        (loopSt s i.toNat).servedMs = some s.clk.ms → exec (.userLoopUpdate i) s = .next s) ∧
      (isUserLoop i.toNat = true → (loopSt s i.toNat).on = true → s.clk.ms % 2 ^ rateDiv (loopBytes s i.toNat) = 0 →
        (loopSt s i.toNat).servedMs ≠ some s.clk.ms → exec (.userLoopUpdate i) s = .next (loopUpdate i.toNat s))) ∧
    (∀ (i : BitVec 5) (y : Int),
      (i = 9 → steers s.time = true → ∃ t, exec (.deviceLoopUpdate i y) s = .next t ∧ t.clk = { s.clk with addend := t.clk.addend } ∧
        -3435973 ≤ t.clk.addend ∧ t.clk.addend ≤ 3435973 ∧ t = { s with clk := t.clk, loops := t.loops } ∧
        t.loops = { s.loops with loops := t.loops.loops } ∧ ∀ k, k ≠ 9 → loopSt t k = loopSt s k) ∧
      (i = 9 → steers s.time = false → exec (.deviceLoopUpdate i y) s = .next s) ∧
      (i ≠ 9 → ∃ t, exec (.deviceLoopUpdate i y) s = .next t ∧ t = { s with loops := t.loops } ∧
        t.loops = { s.loops with loops := t.loops.loops, device := t.loops.device } ∧
        (∀ k, k ≠ i.toNat → loopSt t k = loopSt s k ∧ t.loops.device.getD k 0 = s.loops.device.getD k 0) ∧
        (7 < i.toNat ∨ (i = 1 ∧ s.variant ≠ .k64) ∨ s.mode.mode = .backup → t = s))) ∧
    (s.loops.inj = none → exec .injectionCaptureDone s = .next s) ∧
    (∀ x, s.loops.inj = some x →
      (x.capDone = false ∨ x.written = true → exec .injectionCaptureDone s = .next s) ∧
      (x.capDone = true → x.written = false → ∀ a sp t, a = u64At x.block 0x20 → sp = (if a % 2 = 1 then Space.mbx else Space.host) →
        t = { s with loops := { s.loops with inj := (if x.stop = true ∨ injPre x.block + injDur x.block ≤ x.k then none else some { x with written := true }) } } →
        (reachable s sp (a / 64 * 64) (captureBytes x).length = true → exec .injectionCaptureDone s = .next (finishOpen x.cmd
          { result := x.pts.length + place (flag x.early) 16 1 } (memWrite sp (a / 64 * 64) (captureBytes x) t))) ∧
        (reachable s sp (a / 64 * 64) (captureBytes x).length = false →
          exec .injectionCaptureDone s = .next (finishOpen x.cmd (Reply.fail St.fault 3) t)))) ∧
    (s.loops.trace = none → exec .traceTrigger s = .next s ∧ ∀ o, exec (.traceDone o) s = .next s) ∧
    (∀ x, s.loops.trace = some x →
      (x.ended = true ∨ x.trig ≠ none ∨ trigComes s x = false → exec .traceTrigger s = .next s) ∧
      (x.ended = false → x.trig = none → trigComes s x = true → exec .traceTrigger s = .next { s with loops := { s.loops with
        trace := some { x with trig := some (x.count, s.clk.ms) } } }) ∧
      (x.ended = false → exec (.traceDone false) s = .next s) ∧
      (x.ended = true → ∀ o, exec (.traceDone o) s = .next (finishOpen x.cmd { result := (traceHead x).1 + place (traceHead x).2 32 32 }
        (memWrite .ddr (u64At x.block 0) (leBytes 8 (match x.trig with | some (_, m) => m | none => 0) ++ leBytes 4 (traceHead x).1 ++ leBytes 4 (traceHead x).2)
          { s with loops := { s.loops with trace := none } }))) ∧
      (x.ended = false → ∃ t, exec (.traceDone true) s = .next t ∧ t.loops.trace = none ∧
        (traceHead { x with ended := true, cause := 2 }).2 / 2 ^ 17 % 2 = 1))

/-- An answer or a timeout of an access that does not wait for one changes nothing. An error answer, an access out of reach and a timeout fail the access: with retries left it waits 1 us for its next issue and has failed once more, its address kept. A halted channel has its cause, no access left and its interrupt for a halt pending. An answer acts by what it answers: a descriptor that R476 refuses halts its channel with cause DESC and moves nothing; a read beat's data joins the buffer; a write beat's data goes to memory; a write-back stores word 0x10 with DONE set and STAMP after it. A retry that is due issues the access again; a paced channel that waits issues the read of its count word, and the word read is kept. -/
def Obligations.DmaRows : Prop :=
  (∀ (s : State) (ch : BitVec 5), ∀ k, k = ch.toNat → ∀ c : DmaCh, c = dmaCh s k →
    (∀ err, waiting c .fetch = none → exec (.dmaDescriptorFetched ch err) s = .next s) ∧
    (∀ err pos, (waiting c (.read pos) = none → exec (.dmaBeatDone ch false pos err) s = .next s) ∧
      (waiting c (.write pos) = none → exec (.dmaBeatDone ch true pos err) s = .next s)) ∧
    (∀ err, waiting c .back = none → exec (.dmaWriteback ch err) s = .next s) ∧
    (∀ a, waiting c a = none → exec (.dmaAccessTimeout ch a) s = .next s) ∧
    (∀ a o, waiting c a = some o → exec (.dmaAccessTimeout ch a) s =
      .next (accessFail k a false { s with clk := s.clk.advance (o.at_ + dmaTimeout (accessAt c a).1) })) ∧
    (∀ a, (c.ops.find? (fun o => o.a == a) = none → exec (.dmaAccessRetry ch a) s = .next s) ∧
      (∀ o, c.ops.find? (fun o => o.a == a) = some o → o.retryAt = none → exec (.dmaAccessRetry ch a) s = .next s) ∧
      (∀ o t, c.ops.find? (fun o => o.a == a) = some o → o.retryAt = some t → k < s.dma.ch.length → ∃ u, exec (.dmaAccessRetry ch a) s = .next u ∧
        u.clk = s.clk.advance t ∧ (dmaCh u k) = { c with ops := c.ops.map (fun o => if o.a == a then { o with at_ := u.clk.mono, retryAt := none } else o) } ∧
        (∀ j, j ≠ k → dmaCh u j = dmaCh s j))) ∧
    (∀ err, (c.st ≠ .paced ∨ c.halting ≠ none ∨ (∃ o ∈ c.ops, o.a = .count)) → waiting c .count = none → exec (.dmaPacePoll ch err) s = .next s) ∧
    (∀ err, (c.st ≠ .paced ∨ c.halting ≠ none ∨ (∃ o ∈ c.ops, o.a = .count)) → waiting c .count ≠ none → ∀ sp ad n, (sp, ad, n) = accessAt c .count →
      (err = true ∨ dmaReach s sp ad n = false → exec (.dmaPacePoll ch err) s = .next (accessFail k .count true s)) ∧
      (err = false → dmaReach s sp ad n = true → ∃ u, exec (.dmaPacePoll ch err) s = .next (dmaRun u) ∧
        (k < s.dma.ch.length → (dmaCh u k).lastCount = leAt (memRead s (dmaSpace c.paceSp) c.paceAddr 4) 0 4 ∧ (dmaCh u k).sinceCount = 0 ∧
          (dmaCh u k).pollAt = s.clk.mono + usU 1))) ∧
    (∀ err b, c.st = .paced → c.halting = none → (∀ o ∈ c.ops, o.a ≠ .count) →
      b = setCh k (fun c => { c with ops := c.ops ++ [{ a := .count, at_ := max s.clk.mono c.pollAt }] }) { s with clk := s.clk.advance c.pollAt } →
      exec (.dmaPacePoll ch err) s = exec (.dmaPacePoll ch err) b) ∧
    (∀ a i, (a, i) ∈ [(DmaAccess.fetch, fun e => Instr.dmaDescriptorFetched ch e), (.back, fun e => Instr.dmaWriteback ch e)] →
      waiting c a ≠ none → ∀ sp ad n err, (sp, ad, n) = accessAt c a → (err = true ∨ dmaReach s sp ad n = false) →
      exec (i err) s = .next (accessFail k a true s)) ∧
    (∀ pos w a err, a = (if w = true then DmaAccess.write pos else DmaAccess.read pos) → waiting c a ≠ none → ∀ sp ad n, (sp, ad, n) = accessAt c a →
      (err = true ∨ dmaReach s sp ad n = false → exec (.dmaBeatDone ch w pos err) s = .next (accessFail k a true s)) ∧
      (err = false → dmaReach s sp ad n = true →
        exec (.dmaBeatDone ch w pos err) s = .next (dmaRun (if w = true then writeDone k pos (dropOp k a s) else readDone k pos (dropOp k a s))))) ∧
    (waiting c .fetch ≠ none → dmaReach s c.descSp c.desc 32 = true → ∀ d, d = memRead s (dmaSpace c.descSp) c.desc 32 →
      (descBad d = true → exec (.dmaDescriptorFetched ch false) s = .next (dmaRun (dmaHalted k 6 (dropOp k .fetch s)))) ∧
      (descBad d = false → exec (.dmaDescriptorFetched ch false) s = .next (dmaRun (setCh k (fun c =>
        { c with d := some d, down := dOverlap d && decide (dSrc d < dDst d) }) (dropOp k .fetch s))))) ∧
    (waiting c .back ≠ none → dmaReach s c.descSp (c.desc + 0x10) 8 = true → ∀ d, d = c.d.getD [] → ∀ u,
      u = memWrite (dmaSpace c.descSp) (c.desc + 0x10) (leBytes 4 (u32At d 0x10 ||| 2 ^ 31) ++ leBytes 4 c.stamp) (dropOp k .back s) →
      exec (.dmaWriteback ch false) s = .next (dmaRun (nextDesc k (if dIrqFull d = true then dmaPend k 1 u else u))))) ∧
  (∀ (k : Nat) (a : DmaAccess) (bus : Bool) (s : State) (c : DmaCh) (o : DmaOp), c = dmaCh s k → waiting c a = some o → k < s.dma.ch.length →
    o.fails + 1 ≤ c.retry → ∃ t, accessFail k a bus s = t ∧ (dmaCh t k).st = c.st ∧ (dmaCh t k).failAddr = (accessAt c a).2.1 ∧
      (dmaCh t k).failSp = (accessAt c a).1 ∧ (∀ j, j ≠ k → dmaCh t j = dmaCh s j) ∧
      (dmaCh t k).ops = c.ops.map (fun o => if o.a == a then { o with fails := o.fails + 1, retryAt := some (s.clk.mono + usU 1) } else o)) ∧
  (∀ (k cause : Nat) (s : State), k < s.dma.ch.length → ∃ t, dmaHalted k cause s = t ∧ (dmaCh t k).st = .halted ∧ (dmaCh t k).cause = cause ∧
    (dmaCh t k).ops = [] ∧ (dmaCh t k).reads = [] ∧ (dmaCh t k).writes = [] ∧ (dmaCh t k).pend / 4 % 2 = 1)

/-- WMK.SEL of WMK1 while it is the reference of WMK0 is refused with reason STATE; any other selection waits for the boundary, which puts it in force. TEST.RUN while a test runs, or without what the test needs, is refused with reason STATE; otherwise the test starts and the command completes at its end. STOP waits for the boundary where a test runs, and completes OK where none does. A test that starts keeps its identifier, unit, parameter and command, and its starting time. TEST_END changes nothing while the test waits for what it runs (the calibration step of test 1, the record of test 11); otherwise it judges the running test by what was measured and keeps its outcome, fail code and values as the result of its identifier, the other results unchanged, and no test runs. The pulse of test 4 ends at a boundary at or after its end and not before. -/
def Obligations.TestRows : Prop :=
  (∀ (c : Cmd) (s : State) (f : InFlight), Starts c s f → ∀ b, b = begun c s →
    (Passes (wmkJudge c s) c s f →
      (c.unit = 1 → (wmk0Latest b).diff = true → exec (.wmkSel c) s = .next (answer c (Reply.refuse Rsn.state) b)) ∧
      (c.unit ≠ 1 ∨ (wmk0Latest b).diff = false → exec (.wmkSel c) s = .next (waits c 0 0 (.wmkSel c.unit (wmkOf c)) b))) ∧
    (Passes (testJudge c s) c s f → ∀ id, id = c.at_ 0x14 0 8 →
      (c.at_ 0x14 8 1 = 1 → ∀ i ∈ [Instr.testRun c, .testRunStop c],
        exec i s = .next (if b.svc.test = none then answer c {} b else waits c 0 0 .testStop b)) ∧
      (c.at_ 0x14 8 1 = 0 → b.svc.test ≠ none ∨ testReady b id c.unit = false →
        exec (.testRun c) s = .next (answer c (Reply.refuse Rsn.state) b)) ∧
      (c.at_ 0x14 8 1 = 0 → b.svc.test = none → testReady b id c.unit = true →
        exec (.testRun c) s = .next (startTest { id := id, unit := c.unit, param := c.at_ 0x18 0 32, cmd := some (refOf c) } (queuedEntry c b))))) ∧
  (∀ (t : TestRun) (s : State), ∃ u x, startTest t s = u ∧ u.svc.test = some x ∧ x.id = t.id ∧ x.unit = t.unit ∧ x.param = t.param ∧ x.cmd = t.cmd ∧
    x.at_ = s.clk.mono ∧ x.startMs = s.clk.ms) ∧
  (∀ (m : List Int) (s : State),
    (s.svc.test = none → exec (.testEnd m) s = .next s) ∧
    (∀ t, s.svc.test = some t → testWaits s t = true → exec (.testEnd m) s = .next s) ∧
    (∀ t, s.svc.test = some t → testWaits s t = false → t.id < s.svc.results.length → ∀ b o f v, b = { s with clk := s.clk.advance (t.at_ + testSpan t) } → (o, f, v) = testVerdict t m b →
      ∃ u, exec (.testEnd m) s = .next u ∧ u.svc.test = none ∧
        u.svc.results.getD t.id {} = { outcome := o, unit := t.unit, fail := f, console := t.console, startMs := t.startMs, endMs := s.clk.ms, vals := v } ∧
        (∀ k, k ≠ t.id → u.svc.results.getD k {} = s.svc.results.getD k {}))) ∧
  (∀ s : State,
    (s.trip.pulse = none → exec .testTripPulseEnd s = .next s) ∧
    (∀ p e, s.trip.pulse = some (p, e) →
      (endOfMs s < e → exec .testTripPulseEnd s = .next s) ∧
      (e ≤ endOfMs s → ∃ t, exec .testTripPulseEnd s = .next t ∧ t.trip.pulse = none ∧ t.clk = s.clk.advance (endOfMs s) ∧
        (∀ k, (pinSt t k).level = (pinSt s k).level))))

/-- While Xarik serves the console, no earlier refusal waits and the session has not been idle for 900 s, each of the lines CAPS, LOG, SLICE, BAY, PINS, TIME, SUPV, WMK, TEST, LOOP and RESTART of a locked session is answered ER 02 and nothing else of the block changes but the time of the line; HELP, ID, STATUS, BAUD, ECHO, UNLOCK and LOCK are carried out. A session is locked or unlocked. -/
def Obligations.ConsoleLocked : Prop :=
  ∀ (s b : State), xarikRuns s = true → s.mode.warm = none → s.mode.supvRst = false → s.svc.late = none →
    (s.svc.unlocked = false ∨ s.clk.mono < s.svc.lineAt + secU 900) →
    b = { s with svc := { s.svc with lineAt := s.clk.mono } } → ∀ say : List UartLine → State → State,
    say = (fun l t => { t with out := { t.out with uart := t.out.uart ++ l } }) →
    (s.svc.unlocked = true ∨ s.svc.unlocked = false) ∧
    (s.svc.unlocked = false →
      (∀ (q : Option (BitVec 64)) (n : Option (BitVec 16)) (x : BitVec 8) (ch : BitVec 16) (kind : BitVec 4) (unit : BitVec 9) (sel e : BitVec 8) (diff : Bool)
        (level : BitVec 12) (k : KomirTest) (man : Option (BitVec 32)),
        ∀ i ∈ [Instr.komirCaps, .komirLog q n, .komirSlice x, .komirBay x, .komirPins, .komirTime, .komirSupv, .komirWmk ch kind unit sel e diff level,
          .komirTest k, .komirLoop ch man, .komirRestartWarm, .komirRestartCold], exec i s = .next (say [.er 2] b))) ∧
    (exec .komirHelp s = .next (say [.text (helpText b), .ok] b) ∧ exec .komirId s = .next (say [.vals (idBytes b), .ok] b) ∧
      exec .komirStatus s = .next (say [.vals (statusBytes' b), .ok] b) ∧
      (∀ n, exec (.komirBaud n) s = .next (if baudRates.contains n = true then { say [.ok] b with svc := { b.svc with baud := n } } else say [.er 6] b)) ∧
      (∀ on, exec (.komirEcho on) s = .next (say [.ok] { b with svc := { b.svc with echo := on } })) ∧
      (serviceSlot s = none → exec .komirUnlockNonce s = .next (say [.er 3] b)) ∧
      (∀ k, serviceSlot s = some k → ∃ t n, exec .komirUnlockNonce s = .next t ∧ t.svc.nonce = some (n, k, s.clk.mono) ∧ t.svc.unlocked = s.svc.unlocked ∧
        t.sec = s.sec) ∧
      (∀ slot token, unlockOk b slot.toNat token = true → ∃ t, exec (.komirUnlockToken slot token) s = .next t ∧ t.svc.unlocked = true ∧ t.svc.nonce = none) ∧
      (∀ slot token, unlockOk b slot.toNat token = false → ∃ t, exec (.komirUnlockToken slot token) s = .next t ∧ t.svc.unlocked = s.svc.unlocked ∧
        t.svc.nonce = none ∧ t.svc.late = some (s.clk.mono + secU 1)) ∧
      (∃ t, exec .komirLock s = .next t ∧ t.svc.unlocked = false ∧ t.out.uart = s.out.uart ++ [.ok]))

/-- While no earlier refusal waits and the session has not been idle for 900 s: in an unlocked session a reading line answers its block and OK and changes nothing else; LOG moves the console's own position and not READ_MARK; a slice that does not exist is answered ER 06. BAY, WMK, TEST and LOOP are carried out by the rules of their commands. RESTART WARM asks for reset 0x07 where no restart is asked for; RESTART COLD asks for confirmation and within 10 s for reset 0x04. FWD and FWE are commands of the recovery set only, in which a line of 64 bytes at its place extends the active slot's image and FWE accepts an image that passes. A break ends the session and returns the rate to 115200; the session ends after 900 s; a nonce expires after 60 s; a line not understood is answered ER 01, and every line ER 09 while the supervisor core restarts. -/
def Obligations.ConsoleRows : Prop :=
  ∀ (s b : State), s.svc.late = none → (s.svc.unlocked = false ∨ s.clk.mono < s.svc.lineAt + secU 900) →
    b = { s with svc := { s.svc with lineAt := s.clk.mono } } → ∀ say : List UartLine → State → State,
    say = (fun l t => { t with out := { t.out with uart := t.out.uart ++ l } }) →
    (xarikRuns s = true → s.mode.warm = none → s.mode.supvRst = false → s.svc.unlocked = true →
      exec .komirCaps s = .next (say [.vals (sysCapsBlock b), .ok] b) ∧ exec .komirPins s = .next (say [.vals (tripStatusBlock b), .ok] b) ∧
      exec .komirTime s = .next (say [.vals (timeBlock b ++ gridBlock b), .ok] b) ∧
      exec .komirSupv s = .next (say [.vals (capacityBlock b ++ sourceSummary b), .ok] b) ∧
      (∀ x, exec (.komirSlice x) s = .next (if x.toNat < 51 then say [.vals (sliceBlock b x.toNat), .ok] b else say [.er 6] b)) ∧
      (∀ q n, ∃ t, exec (.komirLog q n) s = .next t ∧ t.log = s.log ∧ t.svc = { b.svc with logPos := t.svc.logPos }) ∧
      (∀ x, ∀ c, c = consoleCmd 0x0303 x.toNat [] → exec (.komirBay x) s = .next (consoleRun c (readJudge c) (readAct c) b)) ∧
      (∀ ch kind unit sel e diff level, ∃ c, exec (.komirWmk ch kind unit sel e diff level) s = .next (consoleRun c (wmkJudge c) (wmkAct c) b) ∧
        c.unit = ch.toNat ∧ wmkOf c = { kind := kind.toNat, unit := unit.toNat, sel := sel.toNat, diff := diff, e := signedOf e.toNat 8, level := level.toNat }) ∧
      (∀ id unit param, ∃ c, exec (.komirTest (.start id unit param)) s = .next (consoleRun c (testJudge c) (consoleTest c) b) ∧
        c.unit = unit.toNat ∧ c.at_ 0x14 0 8 = id.toNat ∧ c.at_ 0x14 8 1 = 0 ∧ c.at_ 0x18 0 32 = param.toNat) ∧
      (∀ id, 1 ≤ id.toNat → id.toNat ≤ 15 → exec (.komirTest (.result id)) s =
        .next (say [.vals (TestRes.encode id.toNat (s.svc.results.getD id.toNat {})), .ok] b)) ∧
      (∀ l man, ∃ c q, exec (.komirLoop l man) s = .next (consoleRun c (loopJudge c [(0x14, 0, 3), (0x18, 0, 32)] []) (consoleXfer c q) b) ∧ c.unit = l.toNat) ∧
      (s.mode.restart = none → ∃ t, exec .komirRestartWarm s = .next t ∧ t.mode.restart = some { src := 7 } ∧ t.mode.mode = s.mode.mode) ∧
      (s.svc.confirmTo = none → exec .komirRestartCold s = .next (say [.text "= CONFIRM", .ok]
        { b with svc := { b.svc with confirmTo := some (s.clk.mono + secU 10) } })) ∧
      (∀ a, s.svc.confirmTo = some a → s.clk.mono ≤ a → ∃ t, exec .komirRestartCold s = .next t ∧ t.mode.restart = some { src := 4 } ∧ t.svc.confirmTo = none)) ∧
    (xarikRuns s = true → s.mode.warm ≠ none ∨ s.mode.supvRst = true → exec .komirHelp s = .next (say [.er 9] b) ∧ exec .komirCaps s = .next (say [.er 9] b) ∧
      exec .komirSyntaxError s = .next (say [.er 9] b)) ∧
    (xarikRuns s = true → s.mode.warm = none → s.mode.supvRst = false → exec .komirSyntaxError s = .next (say [.er 1] b) ∧ exec .komirFwe s = .next (say [.er 1] b) ∧
      ∀ off d, exec (.komirFwd off d) s = .next (say [.er 1] b)) ∧
    (recoveryMode s = true → ∀ x, x = s.sec.fw.getD s.sec.active {} →
      (∀ off d, d.length = 64 → off % 64 = 0 → off + 64 ≤ slotSize → (off = 0 ∨ off = s.svc.fwdEnd) → s.sec.active < s.sec.fw.length →
        ∃ t, exec (.komirFwd off d) s = .next t ∧ (t.sec.fw.getD s.sec.active {}).image = (if off = 0 then d else x.image ++ d) ∧
          (t.sec.fw.getD s.sec.active {}).valid = false ∧ t.svc.fwdEnd = off + 64 ∧ t.out.uart = s.out.uart ++ [.ok]) ∧
      (imageFault s.variant s.sec.minSvn x.image = none → s.sec.active < s.sec.fw.length → ∃ t, exec .komirFwe s = .next t ∧
        (t.sec.fw.getD s.sec.active {}).valid = true ∧ t.svc.recovery = some (u16At x.image 8, imageSvn x) ∧ t.out.uart = s.out.uart ++ [.ok]) ∧
      (∀ k, imageFault s.variant s.sec.minSvn x.image = some k → exec .komirFwe s = .next (say [.vals (leBytes 1 k), .er 8] b)) ∧
      exec .komirCaps s = .next (say [.er 1] b)) ∧
    (xarikRuns s = true → ∃ t, exec .komirBreak s = .next t ∧ t.svc.baud = 115200 ∧ t.svc.unlocked = false) ∧
    (s.svc.unlocked = false → exec .komirIdleTimeout s = .next s) ∧
    (s.svc.unlocked = true → ∃ t, exec .komirIdleTimeout s = .next t ∧ t.svc.unlocked = false ∧ t.clk = s.clk.advance (s.svc.lineAt + secU 900)) ∧
    (s.svc.nonce = none → exec .komirNonceExpiry s = .next s) ∧
    (∀ n k a, s.svc.nonce = some (n, k, a) → exec .komirNonceExpiry s = .next { s with
      svc := { s.svc with nonce := none }
      clk := s.clk.advance (a + secU 60) })

/-- MILESTONE_BOUNDARY acts while SCLK runs, outside BACKUP; otherwise nothing changes. The opening of a Milestone number stands at the end of the one before, raises the number by one, or to the next multiple of 96 where a follower aligns its frames, and nothing else. What has been accepted takes effect in the order staged table entries, commands of place 2, group switches, then places 3, 4, 8, 5, 7 and 6; a command that completes at a boundary does so with EFFECT_MS the Milestone that opens. A cold restart that is due takes the whole device instead. -/
def Obligations.MilestoneRow : Prop :=
  (∀ (m : MsIn) (s : State),
    (s.clk.sclk = false ∨ s.mode.mode = .backup → exec (.milestoneBoundary m) s = .next s) ∧
    (s.clk.sclk = true → s.mode.mode ≠ .backup → exec (.milestoneBoundary m) s = .next (boundary m s)) ∧
    (∀ b p, b = sweepLate (setClk (fun k => k.advance (endOfMs s)) s) → p = endMilestone m b →
      (∀ src, coldDue p.1 = some src → boundary m s = resetDevice src (openNext p.1)) ∧
      (coldDue p.1 = none → boundary m s = startMs m (openMs m p.2 p.1)))) ∧
  (∀ s : State,
    openNext s = { s with
      clk := { s.clk with
        mono := max s.clk.mono (s.clk.openedAt + s.clk.len), openedAt := s.clk.openedAt + s.clk.len
        ms := if s.grid.alignNow = true then alignUp (s.clk.ms + 1) else s.clk.ms + 1 }
      grid := { s.grid with alignNow := false } } ∧
    (∀ n, alignUp n % 96 = 0 ∧ n ≤ alignUp n ∧ alignUp n ≤ n + 95)) ∧
  (∀ (l : List PendAct) (s t : State), t = runActs 2 l (applyStaged s) →
    runAllActs l s = runActs 6 l (runActs 7 l (runActs 5 l (setTime (fun t => { t with pendCut := false })
      (runActs 8 l (runActs 4 l (runActs 3 l ((runningBays t).foldl (fun s b => groupRequest b s) t)))))))) ∧
  (∀ (s : State) (a : PendAct), actDone a s = finishAct a { detail := a.detail, result := a.result, effect := some s.clk.ms } s)
end

