-- ==== Sys2Proof/Laws/Bytes.lean ====
section
/-! SUPPORT. Lengths of byte runs, and reading back what was laid out. -/

namespace Sys2Proof.Machine.Laws
open Sys2Proof.Machine

@[simp] theorem leBytes_length (n x : Nat) : (leBytes n x).length = n := by
  induction n generalizing x with
  | zero => rfl
  | succ n ih => simp [leBytes, ih]

@[simp] theorem zeros_length (n : Nat) : (zeros n).length = n := List.length_replicate

@[simp] theorem padTo_length (n : Nat) (b : Bytes) : (padTo n b).length = n := by
  simp only [padTo, List.length_take, List.length_append, zeros_length]
  omega

/-- A run of blocks of one length. -/
theorem flatMap_length_const {α : Type} (l : List α) (f : α → Bytes) (k : Nat) (h : ∀ a ∈ l, (f a).length = k) :
    (l.flatMap f).length = k * l.length := by
  induction l with
  | nil => rfl
  | cons a l ih =>
    simp only [List.flatMap_cons, List.length_append, List.length_cons, h a (List.mem_cons_self ..),
      ih (fun b hb => h b (List.mem_cons_of_mem _ hb)), Nat.mul_succ]
    omega

/-- The bytes of a number read back as the number, at whatever offset they stand. -/
theorem leAt_leBytes (p r : Bytes) (n x : Nat) : leAt (p ++ leBytes n x ++ r) p.length n = x % 256 ^ n := by
  induction n generalizing p x with
  | zero => simp [leAt, Nat.mod_one]
  | succ n ih =>
    have hb : byteAt (p ++ leBytes (n + 1) x ++ r) p.length = x % 256 := by
      simp [byteAt, leBytes, List.getD_eq_getElem?_getD]
    have hs : p ++ leBytes (n + 1) x ++ r = (p ++ [BitVec.ofNat 8 x]) ++ leBytes n (x / 256) ++ r := by simp [leBytes]
    have hi := ih (p ++ [BitVec.ofNat 8 x]) (x / 256)
    rw [List.length_append, List.length_singleton] at hi
    simp only [leAt, hb]
    rw [hs, hi, Nat.pow_succ, Nat.mul_comm (256 ^ n), Nat.mod_mul]

end Sys2Proof.Machine.Laws
end

