-- ==== Sys2Proof/Laws/Command.lean ====
section
/-! SUPPORT. The course of a mailbox command (R52, R53): it waits, it is turned away, or its action runs. -/

namespace Sys2Proof.Machine.Laws
open Sys2Proof.Machine Sys2Proof.Safety

variable {c : Cmd} {j : State → Judge} {act : State → TokenVerdict → Action} {s : State} {f : InFlight}

theorem runCommand_unserved (h : served s = false) : runCommand c j act s = s := by
  simp [runCommand, h]

theorem runCommand_held (hs : served s = true) (hf : findInFlight s c = some f) (hb : f.started = true ∨ mayStart s.host.inflight f = false) :
    runCommand c j act s = s := by
  rcases hb with hb | hb <;> simp [runCommand, hs, hf, hb]

theorem runCommand_starts (h : Starts c s f) : runCommand c j act s = startCommand c f j act s := by
  simp [runCommand, h.served, h.found, h.fresh, h.free]

theorem runCommand_refused (h : Starts c s f) {r : Reply} (hv : (j s).verdict c f.token (cfgRefused s c.code) = some r) :
    runCommand c j act s = finish c r s := by
  simp only [runCommand_starts h, startCommand, hv]

/-- What a command that starts and passes comes to, by what its action does. -/
theorem runCommand_runs (h : Starts c s f) (hp : Passes (j s) c s f) :
    runCommand c j act s =
      match act (begun c s) f.token with
      | .done r t => answer c r t
      | .atBoundary d x a t => waits c d x a t
      | .goesOn t => t := by
  have hp : (j s).verdict c f.token (cfgRefused s c.code) = none := hp
  rw [runCommand_starts h]
  simp only [startCommand, hp]
  all_goals rfl

/-- The same of a command whose action does not ask for the token. -/
theorem command_runs {act : State → Action} (h : Starts c s f) (hp : Passes (j s) c s f) :
    command c j act s =
      match act (begun c s) with
      | .done r t => answer c r t
      | .atBoundary d x a t => waits c d x a t
      | .goesOn t => t := runCommand_runs h hp

end Sys2Proof.Machine.Laws
end

