-- ==== Sys2Proof/Laws/Hash.lean ====
section
/-! SUPPORT. Lengths of digests, and byte strings as words. -/

namespace Sys2Proof.Machine.Laws
open Sys2Proof.Machine

theorem shaRound_length (v : List Nat) (kw : Nat × Nat) : (shaRound v kw).length = v.length := by
  unfold shaRound; split <;> rfl

theorem shaRounds_length (l : List (Nat × Nat)) : ∀ v : List Nat, (l.foldl shaRound v).length = v.length := by
  induction l with
  | nil => intro v; rfl
  | cons x l ih => intro v; rw [List.foldl_cons, ih, shaRound_length]

theorem shaBlock_length (h : List Nat) (b : Bytes) : (shaBlock h b).length = h.length := by
  simp [shaBlock, shaRounds_length]

theorem shaBlocks_length (n : Nat) : ∀ (h : List Nat) (b : Bytes), (shaBlocks n h b).length = h.length := by
  induction n with
  | zero => intro h b; rfl
  | succ n ih => intro h b; rw [shaBlocks, ih, shaBlock_length]

@[simp] theorem beBytes_length (n x : Nat) : (beBytes n x).length = n := by simp [beBytes]

@[simp] theorem sha256_length (m : Bytes) : (sha256 m).length = 32 := by
  simp only [sha256, flatMap_length_const _ _ 4 (fun a _ => beBytes_length 4 a), shaBlocks_length]; rfl

@[simp] theorem hmacSha256_length (k m : Bytes) : (hmacSha256 k m).length = 32 := sha256_length _

theorem leBytes_all (l : Bytes) : ∃ x : Nat, x < 256 ^ l.length ∧ leBytes l.length x = l := by
  induction l with
  | nil => exact ⟨0, by simp, rfl⟩
  | cons b l ih =>
    obtain ⟨x, hx, h⟩ := ih
    have hb := b.isLt
    refine ⟨b.toNat + 256 * x, by simp only [List.length_cons, Nat.pow_succ]; omega, ?_⟩
    have e1 : (b.toNat + 256 * x) / 256 = x := by omega
    have e2 : BitVec.ofNat 8 (b.toNat + 256 * x) = b := by apply BitVec.eq_of_toNat_eq; simp; omega
    simp [leBytes, e1, e2, h]

/-- Every string of 8 bytes is the big-endian bytes of a word. -/
theorem beBytes_word (l : Bytes) (h : l.length = 8) : ∃ t : BitVec 64, beBytes 8 t.toNat = l := by
  obtain ⟨x, hx, e⟩ := leBytes_all l.reverse
  rw [List.length_reverse, h] at hx e
  refine ⟨BitVec.ofNat 64 x, ?_⟩
  rw [show (BitVec.ofNat 64 x).toNat = x from Nat.mod_eq_of_lt (Nat.lt_of_lt_of_le hx (by decide)), beBytes, e, List.reverse_reverse]

end Sys2Proof.Machine.Laws
end

