-- ==== Sys2Proof/Laws/Memory.lean ====
section
/-! SUPPORT. Laws of the byte memories: a read after a write, writes elsewhere, and the canonical form kept by every operation. -/

namespace Sys2Proof.Machine.Laws
open Sys2Proof.Machine

/-! ### Reading after writing -/

theorem insert_read (m : Memory) (x y : Nat) (v : Byte) :
    (Memory.insert m x v).read y = if y = x then v else m.read y := by
  induction m with
  | nil => simp [Memory.insert, Memory.read]
  | cons c m ih =>
    obtain ⟨a, w⟩ := c
    simp only [Memory.insert]
    split
    · simp_all [Memory.read]
    · split
      · simp [Memory.read]
      · simp only [Memory.read, ih]
        split
        · rename_i hxa _ hya; subst hya; rw [if_neg (Ne.symm hxa)]
        · rfl

/-- Every listed address of `m` is above `x`. -/
def Above (x : Nat) (m : Memory) : Prop := ∀ c ∈ m, x < c.1

theorem wf_cons (a : Nat) (v : Byte) (m : Memory) :
    Memory.wf ((a, v) :: m) = true ↔ v ≠ 0 ∧ (∀ c ∈ m.head?, a < c.1) ∧ m.wf = true := by
  cases m with
  | nil => simp [Memory.wf]
  | cons c m => obtain ⟨b, w⟩ := c; simp [Memory.wf, and_assoc]

theorem wf_above {a : Nat} {v : Byte} {m : Memory} (h : Memory.wf ((a, v) :: m) = true) : Above a m := by
  induction m generalizing a v with
  | nil => intro c hc; cases hc
  | cons d m ih =>
    obtain ⟨b, w⟩ := d
    rw [wf_cons] at h
    have hb : a < b := h.2.1 (b, w) rfl
    intro c hc
    rcases List.mem_cons.mp hc with rfl | hm
    · exact hb
    · exact Nat.lt_trans hb (ih h.2.2 c hm)

theorem read_above {x y : Nat} {m : Memory} (h : Above x m) (hy : y ≤ x) : m.read y = 0 := by
  induction m with
  | nil => rfl
  | cons c m ih =>
    obtain ⟨a, v⟩ := c
    have ha : x < a := h (a, v) (List.mem_cons_self ..)
    have hne : y ≠ a := by omega
    simp only [Memory.read, hne, if_false]
    exact ih (fun c hc => h c (List.mem_cons_of_mem _ hc))

theorem erase_read {m : Memory} (h : m.wf = true) (x y : Nat) :
    (m.erase x).read y = if y = x then 0 else m.read y := by
  induction m with
  | nil => simp [Memory.erase, Memory.read]
  | cons c m ih =>
    obtain ⟨a, w⟩ := c
    have hab := wf_above h
    have hm := ((wf_cons a w m).mp h).2.2
    simp only [Memory.erase]
    split
    · rename_i hx
      subst hx
      split
      · rename_i hy; subst hy; exact read_above hab (Nat.le_refl _)
      · simp_all [Memory.read]
    · rename_i hx
      simp only [Memory.read, ih hm]
      split <;> simp_all <;> omega

/-- A byte written reads back, and every other address reads as before. -/
theorem write_read {m : Memory} (h : m.wf = true) (x y : Nat) (v : Byte) :
    (m.write x v).read y = if y = x then v else m.read y := by
  unfold Memory.write
  split
  · rename_i hv; subst hv; exact erase_read h x y
  · exact insert_read m x y v

/-! ### The canonical form is kept -/

theorem erase_head_above {m : Memory} {x a : Nat} (h : Above a m) : Above a (m.erase x) := by
  induction m with
  | nil => exact h
  | cons c m ih =>
    obtain ⟨b, w⟩ := c
    have hm : Above a m := fun c hc => h c (List.mem_cons_of_mem _ hc)
    simp only [Memory.erase]
    split
    · exact hm
    · intro c hc
      rcases List.mem_cons.mp hc with rfl | hc
      · exact h _ (List.mem_cons_self ..)
      · exact ih hm c hc

theorem insert_above {m : Memory} {x a : Nat} {v : Byte} (h : Above a m) (hx : a < x) : Above a (m.insert x v) := by
  induction m with
  | nil =>
    intro c hc
    rcases List.mem_cons.mp hc with rfl | hc
    · exact hx
    · cases hc
  | cons c m ih =>
    obtain ⟨b, w⟩ := c
    have hb : a < b := h (b, w) (List.mem_cons_self ..)
    have hm : Above a m := fun c hc => h c (List.mem_cons_of_mem _ hc)
    simp only [Memory.insert]
    split
    · intro c hc
      rcases List.mem_cons.mp hc with rfl | hc
      · exact hx
      · exact hm c hc
    · split
      · intro c hc
        rcases List.mem_cons.mp hc with rfl | hc
        · exact hx
        · exact h c hc
      · intro c hc
        rcases List.mem_cons.mp hc with rfl | hc
        · exact hb
        · exact ih hm c hc

theorem wf_of_above {a : Nat} {v : Byte} {m : Memory} (hv : v ≠ 0) (ha : Above a m) (hm : m.wf = true) :
    Memory.wf ((a, v) :: m) = true :=
  (wf_cons a v m).mpr ⟨hv, fun c hc => ha c (List.mem_of_mem_head? hc), hm⟩

theorem erase_wf {m : Memory} (h : m.wf = true) (x : Nat) : (m.erase x).wf = true := by
  induction m with
  | nil => rfl
  | cons c m ih =>
    obtain ⟨a, w⟩ := c
    have hw := (wf_cons a w m).mp h
    simp only [Memory.erase]
    split
    · exact hw.2.2
    · exact wf_of_above hw.1 (erase_head_above (wf_above h)) (ih hw.2.2)

theorem insert_wf {m : Memory} (h : m.wf = true) (x : Nat) {v : Byte} (hv : v ≠ 0) : (m.insert x v).wf = true := by
  induction m with
  | nil => simpa [Memory.insert, Memory.wf] using hv
  | cons c m ih =>
    obtain ⟨a, w⟩ := c
    have hw := (wf_cons a w m).mp h
    have ha := wf_above h
    simp only [Memory.insert]
    split
    · rename_i hx; subst hx; exact wf_of_above hv ha hw.2.2
    · split
      · rename_i hlt
        refine wf_of_above hv (fun c hc => ?_) h
        rcases List.mem_cons.mp hc with rfl | hc
        · exact hlt
        · exact Nat.lt_trans hlt (ha c hc)
      · exact wf_of_above hw.1 (insert_above ha (by omega)) (ih hw.2.2)

theorem write_wf {m : Memory} (h : m.wf = true) (x : Nat) (v : Byte) : (m.write x v).wf = true := by
  unfold Memory.write
  split
  · exact erase_wf h x
  · rename_i hv; exact insert_wf h x hv

theorem writeBytes_wf {m : Memory} (h : m.wf = true) (x : Nat) (b : Bytes) : (m.writeBytes x b).wf = true := by
  induction b generalizing m x with
  | nil => exact h
  | cons c b ih => exact ih (write_wf h x c) (x + 1)

/-- Bytes written at `x` and on leave every other address as before. -/
theorem writeBytes_read_outside {m : Memory} (h : m.wf = true) (x : Nat) (b : Bytes) (y : Nat)
    (hy : y < x ∨ x + b.length ≤ y) : (m.writeBytes x b).read y = m.read y := by
  induction b generalizing m x with
  | nil => rfl
  | cons c b ih =>
    simp only [List.length_cons] at hy
    have hne : y ≠ x := by omega
    rw [Memory.writeBytes, ih (write_wf h x c) (x + 1) (by omega), write_read h, if_neg hne]

/-- Bytes written read back. -/
theorem writeBytes_readBytes {m : Memory} (h : m.wf = true) (x : Nat) (b : Bytes) :
    (m.writeBytes x b).readBytes x b.length = b := by
  induction b generalizing m x with
  | nil => rfl
  | cons c b ih =>
    have hw := write_wf h x c
    simp only [Memory.writeBytes, List.length_cons, Memory.readBytes, ih hw (x + 1)]
    rw [writeBytes_read_outside hw (x + 1) b x (by omega), write_read h, if_pos rfl]

theorem mems_write_wf {m : Mems} (h : m.wf = true) (sp : Space) (a : Nat) (b : Bytes) : (m.write sp a b).wf = true := by
  simp only [Mems.wf, Bool.and_eq_true] at h ⊢
  cases sp <;> simp_all [Mems.write, writeBytes_wf]

theorem filter_wf {m : Memory} (h : m.wf = true) (p : Host.Cell → Bool) : Memory.wf (m.filter p) = true := by
  induction m with
  | nil => rfl
  | cons c m ih =>
    obtain ⟨a, v⟩ := c
    have hw := (wf_cons a v m).mp h
    simp only [List.filter_cons]
    split
    · exact wf_of_above hw.1 (fun c hc => wf_above h c ((List.mem_filter.mp hc).1)) (ih hw.2.2)
    · exact ih hw.2.2

end Sys2Proof.Machine.Laws
end

