-- ==== Sys2Proof/Laws/Keeps.lean ====
section
/-! SUPPORT. The relation Keeps: what no operation of the block changes or spoils, and the lemmas that carry it through
conditionals, folds, record updates and the actions of commands. One lemma per operation stands in the files KeepsHost to
KeepsCmd, each named after its operation. -/

namespace Sys2Proof.Machine.Laws
open Sys2Proof.Machine

/-- What no operation does to the log: push the event queue beyond its 1024 entries (R498) or the ring beyond its 32 768
records (R501), or lower the sequence number of the newest record (R496). -/
structure LogKeeps (l m : LogSt) : Prop where
  queue : l.queue.length ≤ 1024 → m.queue.length ≤ 1024
  ring : l.records.length ≤ logSlots → m.records.length ≤ logSlots
  head : l.headSeq ≤ m.headSeq

/-- What no operation does to the block: change its variant or the queue of waiting commands, spoil the canonical form of a
memory, or harm the log. -/
structure Keeps (s t : State) : Prop where
  variant : t.variant = s.variant
  pending : t.pending = s.pending
  mem : s.mem.wf = true → t.mem.wf = true
  log : LogKeeps s.log t.log

theorem LogKeeps.refl (l : LogSt) : LogKeeps l l := ⟨id, id, Nat.le_refl _⟩

theorem LogKeeps.trans {l m n : LogSt} (a : LogKeeps l m) (b : LogKeeps m n) : LogKeeps l n :=
  ⟨fun h => b.queue (a.queue h), fun h => b.ring (a.ring h), Nat.le_trans a.head b.head⟩

theorem Keeps.refl (s : State) : Keeps s s := ⟨rfl, rfl, id, .refl _⟩

theorem Keeps.trans {s t u : State} (a : Keeps s t) (b : Keeps t u) : Keeps s u :=
  ⟨b.variant.trans a.variant, b.pending.trans a.pending, fun h => b.mem (a.mem h), a.log.trans b.log⟩

/-! ### Conditionals, record updates, folds -/

theorem Keeps.ite {s₀ a b : State} {c : Prop} [Decidable c] (ha : Keeps s₀ a) (hb : Keeps s₀ b) : Keeps s₀ (if c then a else b) := by
  split
  · exact ha
  · exact hb

theorem Keeps.upd_iff {s₀ t : State} {clk host acts mode pwr acq aux filt prot rec_ loops dma svc trip tbl grid time net supv sec out} :
    Keeps s₀ (State.mk t.variant t.pending clk host t.mem acts mode pwr acq aux filt prot rec_ loops dma svc trip tbl grid time net t.log supv sec out) ↔ Keeps s₀ t :=
  ⟨fun h => ⟨h.variant, h.pending, h.mem, h.log⟩, fun h => ⟨h.variant, h.pending, h.mem, h.log⟩⟩

theorem Keeps.log_upd {s₀ t : State} {clk host acts mode pwr acq aux filt prot rec_ loops dma svc trip tbl grid time net log supv sec out}
    (h : Keeps s₀ t) (hl : LogKeeps t.log log) :
    Keeps s₀ (State.mk t.variant t.pending clk host t.mem acts mode pwr acq aux filt prot rec_ loops dma svc trip tbl grid time net log supv sec out) :=
  ⟨h.variant, h.pending, h.mem, h.log.trans hl⟩

theorem foldl_keeps {α : Type} {s₀ : State} {f : State → α → State} {l : List α} {s : State}
    (hf : ∀ t a, Keeps s₀ t → Keeps s₀ (f t a)) (h : Keeps s₀ s) : Keeps s₀ (l.foldl f s) := by
  induction l generalizing s with
  | nil => exact h
  | cons a l ih => exact ih (hf s a h)

/-! ### Actions, pairs and options that hold a state -/

/-- The state an action answers with is kept. -/
def ActKeeps (s₀ : State) : Action → Prop
  | .done _ s => Keeps s₀ s
  | .atBoundary _ _ _ s => Keeps s₀ s
  | .goesOn s => Keeps s₀ s

theorem ActKeeps.done {s₀ s : State} {r : Reply} (h : Keeps s₀ s) : ActKeeps s₀ (.done r s) := h

theorem ActKeeps.atBoundary {s₀ s : State} {d x : Nat} {a : BAct} (h : Keeps s₀ s) : ActKeeps s₀ (.atBoundary d x a s) := h

theorem ActKeeps.goesOn {s₀ s : State} (h : Keeps s₀ s) : ActKeeps s₀ (.goesOn s) := h

theorem ActKeeps.ite {s₀ : State} {a b : Action} {c : Prop} [Decidable c] (ha : ActKeeps s₀ a) (hb : ActKeeps s₀ b) :
    ActKeeps s₀ (if c then a else b) := by
  split
  · exact ha
  · exact hb

/-- The state of a pair, or of an option that has one, is kept. -/
def FstKeeps {α : Type} (s₀ : State) (p : State × α) : Prop := Keeps s₀ p.1

def SndKeeps {α : Type} (s₀ : State) (p : α × State) : Prop := Keeps s₀ p.2

def OptKeeps (s₀ : State) : Option State → Prop
  | .some t => Keeps s₀ t
  | .none => True

theorem FstKeeps.intro {α : Type} {s₀ t : State} {x : α} (h : Keeps s₀ t) : FstKeeps s₀ (t, x) := h

theorem SndKeeps.intro {α : Type} {s₀ t : State} {x : α} (h : Keeps s₀ t) : SndKeeps s₀ (x, t) := h

theorem OptKeeps.none {s₀ : State} : OptKeeps s₀ .none := trivial

theorem OptKeeps.some {s₀ t : State} (h : Keeps s₀ t) : OptKeeps s₀ (.some t) := h

theorem FstKeeps.of_eq {α : Type} {s₀ t : State} {x : α} {p : State × α} (e : p = (t, x)) (h : FstKeeps s₀ p) : Keeps s₀ t := by
  subst e; exact h

theorem SndKeeps.of_eq {α : Type} {s₀ t : State} {x : α} {p : α × State} (e : p = (x, t)) (h : SndKeeps s₀ p) : Keeps s₀ t := by
  subst e; exact h

theorem OptKeeps.of_eq {s₀ t : State} {o : Option State} (e : o = .some t) (h : OptKeeps s₀ o) : Keeps s₀ t := by subst e; exact h

theorem FstKeeps.proj {α : Type} {s₀ : State} {p : State × α} (h : FstKeeps s₀ p) : Keeps s₀ p.1 := h

theorem SndKeeps.proj {α : Type} {s₀ : State} {p : α × State} (h : SndKeeps s₀ p) : Keeps s₀ p.2 := h

theorem fstKeeps_mk {α : Type} {s₀ t : State} {x : α} : FstKeeps s₀ (t, x) ↔ Keeps s₀ t := Iff.rfl

theorem sndKeeps_mk {α : Type} {s₀ t : State} {x : α} : SndKeeps s₀ (x, t) ↔ Keeps s₀ t := Iff.rfl

theorem findSome_optKeeps {α : Type} {s₀ : State} {f : α → Option State} {l : List α} (hf : ∀ a, OptKeeps s₀ (f a)) :
    OptKeeps s₀ (l.findSome? f) := by
  induction l with
  | nil => exact OptKeeps.none
  | cons a l ih =>
    rw [List.findSome?_cons]
    split
    · rename_i t ht; exact OptKeeps.some (OptKeeps.of_eq ht (hf a))
    · exact ih

theorem map_optKeeps {s₀ : State} {f : State → State} {o : Option State} (hf : ∀ t, Keeps s₀ t → Keeps s₀ (f t)) (h : OptKeeps s₀ o) :
    OptKeeps s₀ (o.map f) := by
  cases o with
  | none => exact OptKeeps.none
  | some t => exact hf t h

theorem foldl_fstKeeps {α β : Type} {s₀ : State} {f : State × β → α → State × β} {l : List α} {p : State × β}
    (hf : ∀ q a, FstKeeps s₀ q → FstKeeps s₀ (f q a)) (h : FstKeeps s₀ p) : FstKeeps s₀ (l.foldl f p) := by
  induction l generalizing p with
  | nil => exact h
  | cons a l ih => exact ih (hf p a h)

theorem ActKeeps.of_done {s₀ t : State} {r : Reply} {a : Action} (e : a = .done r t) (h : ActKeeps s₀ a) : Keeps s₀ t := by subst e; exact h

theorem ActKeeps.of_boundary {s₀ t : State} {d x : Nat} {b : BAct} {a : Action} (e : a = .atBoundary d x b t) (h : ActKeeps s₀ a) : Keeps s₀ t := by
  subst e; exact h

theorem ActKeeps.of_goesOn {s₀ t : State} {a : Action} (e : a = .goesOn t) (h : ActKeeps s₀ a) : Keeps s₀ t := by subst e; exact h

/-- The next state of an outcome is kept, and there is one. -/
def OutKeeps (s₀ : State) (o : Out) : Prop := ∃ t, o = .next t ∧ Keeps s₀ t

theorem outKeeps_mk {s₀ t : State} : OutKeeps s₀ (.next t) ↔ Keeps s₀ t :=
  ⟨fun ⟨_, e, h⟩ => by cases e; exact h, fun h => ⟨t, rfl, h⟩⟩

theorem optKeeps_some {s₀ t : State} : OptKeeps s₀ (.some t) ↔ Keeps s₀ t := Iff.rfl

theorem actKeeps_done {s₀ t : State} {r : Reply} : ActKeeps s₀ (.done r t) ↔ Keeps s₀ t := Iff.rfl

theorem actKeeps_boundary {s₀ t : State} {d x : Nat} {a : BAct} : ActKeeps s₀ (.atBoundary d x a t) ↔ Keeps s₀ t := Iff.rfl

theorem actKeeps_goesOn {s₀ t : State} : ActKeeps s₀ (.goesOn t) ↔ Keeps s₀ t := Iff.rfl

/-! ### The operations that touch a memory or the log -/

theorem memWrite_keeps {s₀ s : State} (sp : Space) (a : Nat) (b : Bytes) (h : Keeps s₀ s) : Keeps s₀ (memWrite sp a b s) :=
  ⟨h.variant, h.pending, fun hm => mems_write_wf (h.mem hm) sp a b, h.log⟩

theorem setLog_keeps {s₀ s : State} {f : LogSt → LogSt} (hf : ∀ l, LogKeeps l (f l)) (h : Keeps s₀ s) : Keeps s₀ (setLog f s) :=
  ⟨h.variant, h.pending, h.mem, h.log.trans (hf _)⟩

theorem enqueue_logKeeps (n : Nat) (e : Event) (l : LogSt) : LogKeeps l (enqueue n e l) := by
  unfold enqueue loseEvent
  repeat' split
  all_goals (refine ⟨fun h => ?_, fun h => h, Nat.le_refl _⟩; try exact h)
  all_goals simp_all
  all_goals omega

theorem postEvent_keeps {s₀ s : State} (a b c : Nat) (d : Bytes) (h : Keeps s₀ s) : Keeps s₀ (postEvent a b c d s) := h.log_upd (enqueue_logKeeps _ _ _)

theorem postCycle_keeps {s₀ s : State} (a b c : Nat) (d : Bytes) (h : Keeps s₀ s) : Keeps s₀ (postCycle a b c d s) := h.log_upd (enqueue_logKeeps _ _ _)

theorem forBays_keeps {s₀ s : State} {f : Nat → State → State} (hf : ∀ b t, Keeps s₀ t → Keeps s₀ (f b t)) (h : Keeps s₀ s) : Keeps s₀ (forBays f s) := foldl_keeps (fun t b ht => hf b t ht) h

end Sys2Proof.Machine.Laws
end

