-- ==== Sys2Proof/Laws/KeepsHost.lean ====
section
/-! SUPPORT. One lemma per operation of the commands, the rings, the registers and QSPI, named after it: it keeps what Keeps says. -/

namespace Sys2Proof.Machine.Laws
open Sys2Proof.Machine

set_option Elab.async false

/-! ### Ops -/

theorem sendMsix_keeps {s₀ : State} (v : Nat) {s : State} (hk : Keeps s₀ s) : Keeps s₀ (sendMsix v s) := by
  unfold sendMsix
  repeat' first
    | assumption | (extract_lets +onlyGivenNames x; refine (fun (hx : Keeps s₀ x) => ?_) ?_; (clear_value x); rotate_left; subst x) | split | simp only [↓Keeps.upd_iff]
    | (extract_lets +onlyGivenNames x; subst x) | dsimp only

theorem raiseIrq_keeps {s₀ : State} (i : Nat) {s : State} (hk : Keeps s₀ s) : Keeps s₀ (raiseIrq i s) := by
  unfold raiseIrq
  repeat' first
    | (with_reducible first | assumption | apply sendMsix_keeps) | (extract_lets +onlyGivenNames x; refine (fun (hx : Keeps s₀ x) => ?_) ?_; (clear_value x); rotate_left; subst x)
    | split | simp only [↓Keeps.upd_iff] | (extract_lets +onlyGivenNames x; subst x) | dsimp only

theorem postTime_keeps {s₀ : State} (code unit : Nat) (data : Bytes) {s : State} (hk : Keeps s₀ s) : Keeps s₀ (postTime code unit data s) :=
  Keeps.ite (hk.log_upd ⟨id, id, Nat.le_refl _⟩) (postEvent_keeps _ _ _ _ hk)

theorem flushTime_keeps {s₀ s : State} (hk : Keeps s₀ s) : Keeps s₀ (flushTime s) := by
  have hf : ∀ (l : List Event) (m : LogSt), LogKeeps m (l.foldl (fun l e => enqueue s.clk.ms e l) m) := by
    intro l
    induction l with
    | nil => exact LogKeeps.refl
    | cons e l ih => exact fun m => (enqueue_logKeeps _ e m).trans (ih _)
  exact hk.log_upd (LogKeeps.trans (m := { s.log with timeRecs := [] }) ⟨id, id, Nat.le_refl _⟩ (hf s.log.timeRecs _))

theorem memWriteIf_keeps {s₀ : State} (sp : Space) (a : Nat) (b : Bytes) {s : State} (hk : Keeps s₀ s) : Keeps s₀ (memWriteIf sp a b s) := by
  unfold memWriteIf
  repeat' first
    | (with_reducible first | assumption | apply memWrite_keeps) | split | dsimp only

theorem putCompletion_keeps {s₀ : State} (c : Completion) {s : State} (hk : Keeps s₀ s) : Keeps s₀ (putCompletion c s) := by
  unfold putCompletion
  repeat' first
    | (with_reducible first | assumption | apply memWriteIf_keeps | apply raiseIrq_keeps)
    | (extract_lets +onlyGivenNames x; refine (fun (hx : Keeps s₀ x) => ?_) ?_; (clear_value x); rotate_left; subst x) | simp only [↓Keeps.upd_iff]
    | (extract_lets +onlyGivenNames x; subst x) | dsimp only

theorem complete_keeps {s₀ : State} (c : Completion) {s : State} (hk : Keeps s₀ s) : Keeps s₀ (complete c s) := by
  unfold complete
  repeat' first
    | (with_reducible first | assumption | apply putCompletion_keeps | apply raiseIrq_keeps)
    | (extract_lets +onlyGivenNames x; refine (fun (hx : Keeps s₀ x) => ?_) ?_; (clear_value x); rotate_left; subst x) | split | simp only [↓Keeps.upd_iff]
    | (extract_lets +onlyGivenNames x; subst x) | dsimp only

theorem flushHeld_keeps {s₀ : State} (l : List Completion) {s : State} (hk : Keeps s₀ s) : Keeps s₀ (flushHeld l s) := by
  induction l generalizing s with
  | nil => exact Keeps.upd_iff.mpr hk
  | cons c cs ih =>
    rw [flushHeld]
    split
    · exact ih (putCompletion_keeps c hk)
    · exact Keeps.upd_iff.mpr hk

/-! ### Command -/

theorem checkToken_keeps {s₀ : State} (c : Cmd) {s : State} (hk : Keeps s₀ s) : SndKeeps s₀ (checkToken c s) := by
  unfold checkToken
  repeat' first
    | assumption | refine SndKeeps.of_eq (by assumption) ?_ | (extract_lets +onlyGivenNames x; refine (fun (hx : Keeps s₀ x) => ?_) ?_; (clear_value x); rotate_left; subst x)
    | split | simp only [↓Keeps.upd_iff, ↓sndKeeps_mk] | (extract_lets +onlyGivenNames x; subst x) | dsimp only

theorem checkToken_keeps_snd {s₀ : State} (c : Cmd) {s : State} (hk : Keeps s₀ s) : Keeps s₀ (checkToken c s).2 := checkToken_keeps _ hk

theorem countAuthFail_keeps {s₀ : State} {s : State} (hk : Keeps s₀ s) : Keeps s₀ (countAuthFail s) := by
  unfold countAuthFail
  repeat' first
    | (with_reducible first | assumption | apply postEvent_keeps) | (extract_lets +onlyGivenNames x; refine (fun (hx : Keeps s₀ x) => ?_) ?_; (clear_value x); rotate_left; subst x)
    | split | simp only [↓Keeps.upd_iff] | (extract_lets +onlyGivenNames x; subst x) | dsimp only

theorem clearDenied_keeps {s₀ : State} (c : Cmd) (detail : Nat) {s : State} (hk : Keeps s₀ s) : Keeps s₀ (clearDenied c detail s) :=
  postEvent_keeps _ _ _ _ (hk.log_upd ⟨id, id, Nat.le_refl _⟩)

theorem dropInFlight_keeps {s₀ : State} (c : Cmd) {s : State} (hk : Keeps s₀ s) : Keeps s₀ (dropInFlight c s) := by
  unfold dropInFlight
  repeat' first
    | assumption | intro _ | (extract_lets +onlyGivenNames x; refine (fun (hx : Keeps s₀ x) => ?_) ?_; (clear_value x); rotate_left; subst x) | split | simp only [↓Keeps.upd_iff]
    | (extract_lets +onlyGivenNames x; subst x) | dsimp only

theorem markInFlight_keeps {s₀ : State} (c : Cmd) (g : InFlight → InFlight) {s : State} (hk : Keeps s₀ s) : Keeps s₀ (markInFlight c g s) := by
  unfold markInFlight
  repeat' first
    | assumption | intro _ | (extract_lets +onlyGivenNames x; refine (fun (hx : Keeps s₀ x) => ?_) ?_; (clear_value x); rotate_left; subst x) | split | simp only [↓Keeps.upd_iff]
    | (extract_lets +onlyGivenNames x; subst x) | dsimp only

theorem conclude_keeps {s₀ : State} (c : Cmd) (x : Completion) {s : State} (hk : Keeps s₀ s) : Keeps s₀ (conclude c x s) := by
  unfold conclude
  repeat' first
    | (with_reducible first | assumption | apply markInFlight_keeps | apply complete_keeps | apply dropInFlight_keeps) | intro _
    | (extract_lets +onlyGivenNames x; refine (fun (hx : Keeps s₀ x) => ?_) ?_; (clear_value x); rotate_left; subst x) | split | simp only [↓Keeps.upd_iff]
    | (extract_lets +onlyGivenNames x; subst x) | dsimp only

theorem queuedEntry_keeps {s₀ : State} (c : Cmd) {s : State} (hk : Keeps s₀ s) : Keeps s₀ (queuedEntry c s) := by
  unfold queuedEntry
  repeat' first
    | (with_reducible first | assumption | apply complete_keeps) | split | dsimp only

theorem bumpClass_keeps {s₀ : State} (k : Nat) (f : ClassCount → ClassCount) {s : State} (hk : Keeps s₀ s) : Keeps s₀ (bumpClass k f s) := by
  unfold bumpClass
  repeat' first
    | assumption | (extract_lets +onlyGivenNames x; refine (fun (hx : Keeps s₀ x) => ?_) ?_; (clear_value x); rotate_left; subst x) | simp only [↓Keeps.upd_iff]
    | (extract_lets +onlyGivenNames x; subst x) | dsimp only

theorem delayed_keeps {s₀ : State} (c : Cmd) (r : Reply) {s : State} (hk : Keeps s₀ s) : SndKeeps s₀ (delayed c r s) := by
  unfold delayed
  repeat' first
    | (with_reducible first | assumption | apply bumpClass_keeps) | refine SndKeeps.of_eq (by assumption) ?_ | split | simp only [↓sndKeeps_mk] | dsimp only

theorem delayed_keeps_snd {s₀ : State} (c : Cmd) (r : Reply) {s : State} (hk : Keeps s₀ s) : Keeps s₀ (delayed c r s).2 := delayed_keeps _ _ hk

theorem finish_keeps {s₀ : State} (c : Cmd) (r : Reply) {s : State} (hk : Keeps s₀ s) : Keeps s₀ (finish c r s) := by
  unfold finish
  repeat' first
    | (with_reducible first | assumption | apply delayed_keeps | apply delayed_keeps_snd | apply countAuthFail_keeps | apply clearDenied_keeps | apply conclude_keeps | apply memWrite_keeps)
    | refine SndKeeps.of_eq (by assumption) ?_ | (extract_lets +onlyGivenNames x; refine (fun (hx : Keeps s₀ x) => ?_) ?_; (clear_value x); rotate_left; subst x) | split
    | simp only [↓Keeps.upd_iff, ↓sndKeeps_mk] | (extract_lets +onlyGivenNames x; subst x) | dsimp only

theorem addAct_keeps {s₀ : State} (c : Cmd) (detail : Nat) (result : Nat) (a : BAct) {s : State} (hk : Keeps s₀ s) : Keeps s₀ (addAct c detail result a s) := by
  unfold addAct
  repeat' first
    | (with_reducible first | assumption | apply queuedEntry_keeps | apply markInFlight_keeps) | intro _
    | (extract_lets +onlyGivenNames x; refine (fun (hx : Keeps s₀ x) => ?_) ?_; (clear_value x); rotate_left; subst x) | simp only [↓Keeps.upd_iff]
    | (extract_lets +onlyGivenNames x; subst x) | dsimp only

theorem begun_keeps {s₀ : State} (c : Cmd) {s : State} (hk : Keeps s₀ s) : Keeps s₀ (begun c s) := by
  unfold begun
  repeat' first
    | (with_reducible first | assumption | apply markInFlight_keeps) | intro _
    | (extract_lets +onlyGivenNames x; refine (fun (hx : Keeps s₀ x) => ?_) ?_; (clear_value x); rotate_left; subst x) | simp only [↓Keeps.upd_iff]
    | (extract_lets +onlyGivenNames x; subst x) | dsimp only

theorem answer_keeps {s₀ : State} (c : Cmd) (r : Reply) {s : State} (hk : Keeps s₀ s) : Keeps s₀ (answer c r s) := by
  unfold answer
  repeat' first
    | (with_reducible first | assumption | apply finish_keeps | apply queuedEntry_keeps) | split | dsimp only

theorem enterFlight_keeps {s₀ : State} (c : Cmd) {s : State} (hk : Keeps s₀ s) : Keeps s₀ (enterFlight c s) := by
  unfold enterFlight
  repeat' first
    | (with_reducible first | assumption | apply complete_keeps | apply checkToken_keeps | apply checkToken_keeps_snd) | intro _ | refine SndKeeps.of_eq (by assumption) ?_
    | (extract_lets +onlyGivenNames x; refine (fun (hx : Keeps s₀ x) => ?_) ?_; (clear_value x); rotate_left; subst x) | split | simp only [↓Keeps.upd_iff, ↓sndKeeps_mk]
    | (extract_lets +onlyGivenNames x; subst x) | dsimp only

theorem startCommand_keeps {s₀ : State} (c : Cmd) (f : InFlight) (j : State → Judge) (act : State → TokenVerdict → Action) {s : State} (hact : ∀ t a1, Keeps s₀ t → ActKeeps s₀ (act t a1)) (hk : Keeps s₀ s) : Keeps s₀ (startCommand c f j act s) := by
  unfold startCommand
  repeat' first
    | (with_reducible first | assumption | apply finish_keeps | apply begun_keeps | apply answer_keeps | apply addAct_keeps | apply hact)
    | refine ActKeeps.of_done (by assumption) ?_ | refine ActKeeps.of_boundary (by assumption) ?_ | refine ActKeeps.of_goesOn (by assumption) ?_
    | (extract_lets +onlyGivenNames x; refine (fun (hx : Keeps s₀ x) => ?_) ?_; (clear_value x); rotate_left; subst x) | split | simp only [↓Keeps.upd_iff]
    | (extract_lets +onlyGivenNames x; subst x) | dsimp only

theorem runCommand_keeps {s₀ : State} (c : Cmd) (j : State → Judge) (act : State → TokenVerdict → Action) {s : State} (hact : ∀ t a1, Keeps s₀ t → ActKeeps s₀ (act t a1)) (hk : Keeps s₀ s) : Keeps s₀ (runCommand c j act s) := by
  unfold runCommand
  repeat' first
    | (with_reducible first | assumption | apply enterFlight_keeps | apply startCommand_keeps | apply hact) | intro _ | refine ActKeeps.of_done (by assumption) ?_
    | refine ActKeeps.of_boundary (by assumption) ?_ | refine ActKeeps.of_goesOn (by assumption) ?_
    | (extract_lets +onlyGivenNames x; refine (fun (hx : Keeps s₀ x) => ?_) ?_; (clear_value x); rotate_left; subst x) | split
    | simp only [↓Keeps.upd_iff, ↓actKeeps_done, ↓actKeeps_boundary, ↓actKeeps_goesOn] | (extract_lets +onlyGivenNames x; subst x) | dsimp only

theorem uartLine_keeps {s₀ : State} (l : UartLine) {s : State} (hk : Keeps s₀ s) : Keeps s₀ (uartLine l s) := by
  unfold uartLine
  repeat' first
    | assumption | (extract_lets +onlyGivenNames x; refine (fun (hx : Keeps s₀ x) => ?_) ?_; (clear_value x); rotate_left; subst x) | simp only [↓Keeps.upd_iff]
    | (extract_lets +onlyGivenNames x; subst x) | dsimp only

theorem consoleReply_keeps {s₀ : State} (r : Reply) {s : State} (hk : Keeps s₀ s) : Keeps s₀ (consoleReply r s) := by
  unfold consoleReply
  repeat' first
    | (with_reducible first | assumption | apply uartLine_keeps) | (extract_lets +onlyGivenNames x; refine (fun (hx : Keeps s₀ x) => ?_) ?_; (clear_value x); rotate_left; subst x)
    | split | simp only [↓Keeps.upd_iff] | (extract_lets +onlyGivenNames x; subst x) | dsimp only

theorem finishOpen_keeps {s₀ : State} (x : CmdRef) (r : Reply) {s : State} (hk : Keeps s₀ s) : Keeps s₀ (finishOpen x r s) := by
  unfold finishOpen
  repeat' first
    | (with_reducible first | assumption | apply consoleReply_keeps | apply finish_keeps)
    | (extract_lets +onlyGivenNames x; refine (fun (hx : Keeps s₀ x) => ?_) ?_; (clear_value x); rotate_left; subst x) | split | simp only [↓Keeps.upd_iff]
    | (extract_lets +onlyGivenNames x; subst x) | dsimp only

theorem command_keeps {s₀ : State} (c : Cmd) (j : State → Judge) (act : State → Action) {s : State} (hact : ∀ t, Keeps s₀ t → ActKeeps s₀ (act t)) (hk : Keeps s₀ s) : Keeps s₀ (command c j act s) := by
  unfold command
  repeat' first
    | (with_reducible first | assumption | apply runCommand_keeps | apply hact) | intro _ | refine ActKeeps.of_done (by assumption) ?_
    | refine ActKeeps.of_boundary (by assumption) ?_ | refine ActKeeps.of_goesOn (by assumption) ?_ | simp only [↓actKeeps_done, ↓actKeeps_boundary, ↓actKeeps_goesOn] | dsimp only

/-! ### HostRegs -/

theorem latchTai_keeps {s₀ : State} {s : State} (hk : Keeps s₀ s) : Keeps s₀ (latchTai s) := by
  unfold latchTai
  repeat' first
    | (with_reducible first | assumption | apply foldl_keeps | apply foldl_fstKeeps | apply findSome_optKeeps | apply map_optKeeps) | with_reducible exact OptKeeps.none | intro _
    | exact LogKeeps.mk id id (Nat.le_refl _) | with_reducible exact enqueue_logKeeps _ _ _ | refine FstKeeps.of_eq (by assumption) ?_ | refine SndKeeps.of_eq (by assumption) ?_
    | refine OptKeeps.of_eq (by assumption) ?_ | refine ActKeeps.of_done (by assumption) ?_ | refine ActKeeps.of_boundary (by assumption) ?_
    | refine ActKeeps.of_goesOn (by assumption) ?_ | (extract_lets +onlyGivenNames x; refine (fun (hx : Keeps s₀ x) => ?_) ?_; (clear_value x); rotate_left; subst x) | split
    | simp only [↓Keeps.upd_iff, ↓fstKeeps_mk, ↓sndKeeps_mk, ↓outKeeps_mk, ↓optKeeps_some, ↓actKeeps_done, ↓actKeeps_boundary, ↓actKeeps_goesOn]
    | (extract_lets +onlyGivenNames x; subst x) | dsimp only

theorem barRead_keeps {s₀ : State} (off : Nat) {s : State} (hk : Keeps s₀ s) : SndKeeps s₀ (barRead off s) := by
  unfold barRead
  repeat' first
    | (with_reducible first | assumption | apply latchTai_keeps) | refine SndKeeps.of_eq (by assumption) ?_ | split | simp only [↓sndKeeps_mk] | dsimp only

theorem barRead_keeps_snd {s₀ : State} (off : Nat) {s : State} (hk : Keeps s₀ s) : Keeps s₀ (barRead off s).2 := barRead_keeps _ hk

theorem setRegs_keeps {s₀ : State} (f : Regs → Regs) {s : State} (hk : Keeps s₀ s) : Keeps s₀ (setRegs f s) := by
  unfold setRegs
  repeat' first
    | assumption | (extract_lets +onlyGivenNames x; refine (fun (hx : Keeps s₀ x) => ?_) ?_; (clear_value x); rotate_left; subst x) | simp only [↓Keeps.upd_iff]
    | (extract_lets +onlyGivenNames x; subst x) | dsimp only

theorem setRing_keeps {s₀ : State} (k : Nat) (f : Ring → Ring) {s : State} (hk : Keeps s₀ s) : Keeps s₀ (setRing k f s) := by
  unfold setRing
  repeat' first
    | assumption | (extract_lets +onlyGivenNames x; refine (fun (hx : Keeps s₀ x) => ?_) ?_; (clear_value x); rotate_left; subst x) | simp only [↓Keeps.upd_iff]
    | (extract_lets +onlyGivenNames x; subst x) | dsimp only

theorem setCq_keeps {s₀ : State} (f : CompRing → CompRing) {s : State} (hk : Keeps s₀ s) : Keeps s₀ (setCq f s) := by
  unfold setCq
  repeat' first
    | assumption | (extract_lets +onlyGivenNames x; refine (fun (hx : Keeps s₀ x) => ?_) ?_; (clear_value x); rotate_left; subst x) | simp only [↓Keeps.upd_iff]
    | (extract_lets +onlyGivenNames x; subst x) | dsimp only

theorem mbErr_keeps {s₀ : State} {s : State} (hk : Keeps s₀ s) : Keeps s₀ (mbErr s) := by
  unfold mbErr
  repeat' first
    | (with_reducible first | assumption | apply raiseIrq_keeps)

theorem writeIrqStat_keeps {s₀ : State} (v : Word) {s : State} (hk : Keeps s₀ s) : Keeps s₀ (writeIrqStat v s) := by
  unfold writeIrqStat
  repeat' first
    | (with_reducible first | assumption | apply setRegs_keeps) | intro _
    | (extract_lets +onlyGivenNames x; refine (fun (hx : Keeps s₀ x) => ?_) ?_; (clear_value x); rotate_left; subst x) | simp only [↓Keeps.upd_iff]
    | (extract_lets +onlyGivenNames x; subst x) | dsimp only

theorem writeIrqMask_keeps {s₀ : State} (v : Word) {s : State} (hk : Keeps s₀ s) : Keeps s₀ (writeIrqMask v s) := by
  unfold writeIrqMask
  repeat' first
    | (with_reducible first | assumption | apply foldl_keeps | apply setRegs_keeps | apply sendMsix_keeps) | intro _
    | (extract_lets +onlyGivenNames x; refine (fun (hx : Keeps s₀ x) => ?_) ?_; (clear_value x); rotate_left; subst x) | split | simp only [↓Keeps.upd_iff]
    | (extract_lets +onlyGivenNames x; subst x) | dsimp only

theorem writeRingCfg_keeps {s₀ : State} (k : Nat) (log2n : BitVec 4) (en : Bool) {s : State} (hk : Keeps s₀ s) : Keeps s₀ (writeRingCfg k log2n en s) := by
  unfold writeRingCfg
  repeat' first
    | (with_reducible first | assumption | apply mbErr_keeps | apply setRing_keeps) | intro _
    | (extract_lets +onlyGivenNames x; refine (fun (hx : Keeps s₀ x) => ?_) ?_; (clear_value x); rotate_left; subst x) | split | simp only [↓Keeps.upd_iff]
    | (extract_lets +onlyGivenNames x; subst x) | dsimp only

theorem enableCq_keeps {s₀ : State} (log2n : BitVec 4) {s : State} (hk : Keeps s₀ s) : Keeps s₀ (enableCq log2n s) := by
  unfold enableCq
  repeat' first
    | (with_reducible first | assumption | apply mbErr_keeps | apply setCq_keeps | apply flushHeld_keeps) | intro _
    | (extract_lets +onlyGivenNames x; refine (fun (hx : Keeps s₀ x) => ?_) ?_; (clear_value x); rotate_left; subst x) | split | simp only [↓Keeps.upd_iff]
    | (extract_lets +onlyGivenNames x; subst x) | dsimp only

theorem disableCq_keeps {s₀ : State} {s : State} (hk : Keeps s₀ s) : Keeps s₀ (disableCq s) := by
  unfold disableCq
  repeat' first
    | (with_reducible first | assumption | apply setCq_keeps | apply raiseIrq_keeps) | intro _
    | (extract_lets +onlyGivenNames x; refine (fun (hx : Keeps s₀ x) => ?_) ?_; (clear_value x); rotate_left; subst x) | split | simp only [↓Keeps.upd_iff]
    | (extract_lets +onlyGivenNames x; subst x) | dsimp only

theorem writeCqCfg_keeps {s₀ : State} (log2n : BitVec 4) (en : Bool) {s : State} (hk : Keeps s₀ s) : Keeps s₀ (writeCqCfg log2n en s) := by
  unfold writeCqCfg
  repeat' first
    | (with_reducible first | assumption | apply enableCq_keeps | apply mbErr_keeps | apply disableCq_keeps | apply setCq_keeps) | intro _
    | (extract_lets +onlyGivenNames x; refine (fun (hx : Keeps s₀ x) => ?_) ?_; (clear_value x); rotate_left; subst x) | split | simp only [↓Keeps.upd_iff]
    | (extract_lets +onlyGivenNames x; subst x) | dsimp only

theorem writeCqHead_keeps {s₀ : State} (v : BitVec 8) {s : State} (hk : Keeps s₀ s) : Keeps s₀ (writeCqHead v s) := by
  unfold writeCqHead
  repeat' first
    | (with_reducible first | assumption | apply setCq_keeps | apply flushHeld_keeps) | intro _
    | (extract_lets +onlyGivenNames x; refine (fun (hx : Keeps s₀ x) => ?_) ?_; (clear_value x); rotate_left; subst x) | split | simp only [↓Keeps.upd_iff]
    | (extract_lets +onlyGivenNames x; subst x) | dsimp only

theorem ringDoorbell_keeps {s₀ : State} (k : Nat) (v : BitVec 8) {s : State} (hk : Keeps s₀ s) : Keeps s₀ (ringDoorbell k v s) := by
  unfold ringDoorbell
  repeat' first
    | (with_reducible first | assumption | apply mbErr_keeps | apply setRing_keeps) | intro _
    | (extract_lets +onlyGivenNames x; refine (fun (hx : Keeps s₀ x) => ?_) ?_; (clear_value x); rotate_left; subst x) | split | simp only [↓Keeps.upd_iff]
    | (extract_lets +onlyGivenNames x; subst x) | dsimp only

theorem doorbellWord_keeps {s₀ : State} (k : Nat) (v : Word) {s : State} (hk : Keeps s₀ s) : Keeps s₀ (doorbellWord k v s) := by
  unfold doorbellWord
  repeat' first
    | (with_reducible first | assumption | apply mbErr_keeps | apply ringDoorbell_keeps) | split | dsimp only

theorem writeMsix_keeps {s₀ : State} (v : Nat) (i : Nat) (w : Word) {s : State} (hk : Keeps s₀ s) : Keeps s₀ (writeMsix v i w s) := by
  unfold writeMsix
  repeat' first
    | (with_reducible first | assumption | apply setRegs_keeps | apply sendMsix_keeps) | intro _
    | (extract_lets +onlyGivenNames x; refine (fun (hx : Keeps s₀ x) => ?_) ?_; (clear_value x); rotate_left; subst x) | split | simp only [↓Keeps.upd_iff]
    | (extract_lets +onlyGivenNames x; subst x) | dsimp only

theorem barWrite_keeps {s₀ : State} (off : Nat) (v : Word) {s : State} (hk : Keeps s₀ s) : Keeps s₀ (barWrite off v s) := by
  unfold barWrite
  repeat' first
    | (with_reducible first | assumption | apply writeIrqStat_keeps | apply writeIrqMask_keeps | apply setRegs_keeps | apply mbErr_keeps | apply setCq_keeps | apply writeCqCfg_keeps | apply writeCqHead_keeps | apply doorbellWord_keeps | apply setRing_keeps | apply writeRingCfg_keeps | apply writeMsix_keeps)
    | intro _ | (extract_lets +onlyGivenNames x; refine (fun (hx : Keeps s₀ x) => ?_) ?_; (clear_value x); rotate_left; subst x) | split | simp only [↓Keeps.upd_iff]
    | (extract_lets +onlyGivenNames x; subst x) | dsimp only

theorem hostWrite_keeps {s₀ : State} (off : Nat) (w : BarWrite) {s : State} (hk : Keeps s₀ s) : Keeps s₀ (hostWrite off w s) := by
  unfold hostWrite
  repeat' first
    | (with_reducible first | assumption | apply barWrite_keeps) | (extract_lets +onlyGivenNames x; refine (fun (hx : Keeps s₀ x) => ?_) ?_; (clear_value x); rotate_left; subst x)
    | split | simp only [↓Keeps.upd_iff] | (extract_lets +onlyGivenNames x; subst x) | dsimp only

theorem fetchOne_keeps {s₀ : State} {s : State} (hk : Keeps s₀ s) : Keeps s₀ (fetchOne s) := by
  unfold fetchOne
  repeat' first
    | (with_reducible first | assumption | apply setRing_keeps | apply enterFlight_keeps) | intro _
    | (extract_lets +onlyGivenNames x; refine (fun (hx : Keeps s₀ x) => ?_) ?_; (clear_value x); rotate_left; subst x) | split | simp only [↓Keeps.upd_iff]
    | (extract_lets +onlyGivenNames x; subst x) | dsimp only

theorem startTimeout_keeps {s₀ : State} (tag : BitVec 8) {s : State} (hk : Keeps s₀ s) : Keeps s₀ (startTimeout tag s) := by
  unfold startTimeout
  repeat' first
    | (with_reducible first | assumption | apply finish_keeps | apply bumpClass_keeps) | intro _
    | (extract_lets +onlyGivenNames x; refine (fun (hx : Keeps s₀ x) => ?_) ?_; (clear_value x); rotate_left; subst x) | split | simp only [↓Keeps.upd_iff]
    | (extract_lets +onlyGivenNames x; subst x) | dsimp only

theorem qspiByte_keeps {s₀ : State} (a : Nat) {s : State} (hk : Keeps s₀ s) : SndKeeps s₀ (qspiByte a s) := by
  unfold qspiByte
  repeat' first
    | (with_reducible first | assumption | apply barRead_keeps | apply barRead_keeps_snd) | refine SndKeeps.of_eq (by assumption) ?_
    | (extract_lets +onlyGivenNames x; refine (fun (hx : Keeps s₀ x) => ?_) ?_; (clear_value x); rotate_left; subst x) | split | simp only [↓sndKeeps_mk]
    | (extract_lets +onlyGivenNames x; subst x) | dsimp only

theorem qspiByte_keeps_snd {s₀ : State} (a : Nat) {s : State} (hk : Keeps s₀ s) : Keeps s₀ (qspiByte a s).2 := qspiByte_keeps _ hk

theorem qspiBytes_keeps {s₀ : State} (n a : Nat) {s : State} (hk : Keeps s₀ s) : SndKeeps s₀ (qspiBytes n a s) := by
  induction n generalizing a s with
  | zero => exact hk
  | succ n ih => exact ih (a + 1) (qspiByte_keeps (a % 2 ^ 24) hk)

theorem qspiBytes_keeps_snd {s₀ : State} (n a : Nat) {s : State} (hk : Keeps s₀ s) : Keeps s₀ (qspiBytes n a s).2 :=
  qspiBytes_keeps n a hk

theorem csRise_keeps {s₀ : State} (err : Bool) {s : State} (hk : Keeps s₀ s) : Keeps s₀ (csRise err s) := by
  unfold csRise
  repeat' first
    | (with_reducible first | assumption | apply setRegs_keeps) | intro _
    | (extract_lets +onlyGivenNames x; refine (fun (hx : Keeps s₀ x) => ?_) ?_; (clear_value x); rotate_left; subst x) | simp only [↓Keeps.upd_iff]
    | (extract_lets +onlyGivenNames x; subst x) | dsimp only

theorem qspiReadFrame_keeps {s₀ : State} (addr : Nat) (len : Nat) (mhz : Nat) {s : State} (hk : Keeps s₀ s) : Keeps s₀ (qspiReadFrame addr len mhz s) := by
  unfold qspiReadFrame
  repeat' first
    | (with_reducible first | assumption | apply csRise_keeps | apply setRegs_keeps | apply qspiBytes_keeps | apply qspiBytes_keeps_snd) | intro _
    | refine SndKeeps.of_eq (by assumption) ?_ | (extract_lets +onlyGivenNames x; refine (fun (hx : Keeps s₀ x) => ?_) ?_; (clear_value x); rotate_left; subst x) | split
    | simp only [↓Keeps.upd_iff, ↓sndKeeps_mk] | (extract_lets +onlyGivenNames x; subst x) | dsimp only

theorem qspiWriteBytes_keeps {s₀ : State} (a : Nat) (bs acc : Bytes) (bad : Bool) {s : State} (hk : Keeps s₀ s) :
    SndKeeps s₀ (qspiWriteBytes a bs acc bad s) := by
  induction bs generalizing a acc bad s with
  | nil => exact hk
  | cons b bs ih =>
    rw [qspiWriteBytes]
    repeat' split
    all_goals apply ih
    · exact hk
    · exact barWrite_keeps _ _ hk
    · exact hk
    · exact memWrite_keeps _ _ _ hk
    · exact memWrite_keeps _ _ _ hk
    · exact hk

theorem qspiWriteBytes_keeps_snd {s₀ : State} (a : Nat) (bs acc : Bytes) (bad : Bool) {s : State} (hk : Keeps s₀ s) :
    Keeps s₀ (qspiWriteBytes a bs acc bad s).2 := qspiWriteBytes_keeps a bs acc bad hk

theorem qspiWriteFrame_keeps {s₀ : State} (addr : Nat) (data : Bytes) {s : State} (hk : Keeps s₀ s) : Keeps s₀ (qspiWriteFrame addr data s) := by
  unfold qspiWriteFrame
  repeat' first
    | (with_reducible first | assumption | apply qspiWriteBytes_keeps | apply qspiWriteBytes_keeps_snd | apply csRise_keeps) | refine SndKeeps.of_eq (by assumption) ?_
    | (extract_lets +onlyGivenNames x; refine (fun (hx : Keeps s₀ x) => ?_) ?_; (clear_value x); rotate_left; subst x) | split | simp only [↓sndKeeps_mk]
    | (extract_lets +onlyGivenNames x; subst x) | dsimp only

theorem qspiStatFrame_keeps {s₀ : State} {s : State} (hk : Keeps s₀ s) : Keeps s₀ (qspiStatFrame s) := by
  unfold qspiStatFrame
  repeat' first
    | (with_reducible first | assumption | apply csRise_keeps | apply setRegs_keeps) | intro _
    | (extract_lets +onlyGivenNames x; refine (fun (hx : Keeps s₀ x) => ?_) ?_; (clear_value x); rotate_left; subst x) | simp only [↓Keeps.upd_iff]
    | (extract_lets +onlyGivenNames x; subst x) | dsimp only

/-! ### HostExec -/

theorem execUnknownCommand_keeps {s₀ : State} (c : Cmd) {s : State} (hk : Keeps s₀ s) : OutKeeps s₀ (execUnknownCommand c s) := by
  unfold execUnknownCommand
  repeat' first
    | (with_reducible first | assumption | apply command_keeps) | intro _ | simp only [↓outKeeps_mk, ↓actKeeps_done, ↓actKeeps_boundary, ↓actKeeps_goesOn] | dsimp only

theorem execCommandFetch_keeps {s₀ : State} {s : State} (hk : Keeps s₀ s) : OutKeeps s₀ (execCommandFetch s) := by
  unfold execCommandFetch
  repeat' first
    | (with_reducible first | assumption | apply fetchOne_keeps) | simp only [↓outKeeps_mk]

theorem execCommandStartTimeout_keeps {s₀ : State} (tag : BitVec 8) {s : State} (hk : Keeps s₀ s) : OutKeeps s₀ (execCommandStartTimeout tag s) := by
  unfold execCommandStartTimeout
  repeat' first
    | (with_reducible first | assumption | apply startTimeout_keeps) | simp only [↓outKeeps_mk]

theorem execMbDoorbell_keeps {s₀ : State} (k : BitVec 2) (tail : BitVec 8) {s : State} (hk : Keeps s₀ s) : OutKeeps s₀ (execMbDoorbell k tail s) := by
  unfold execMbDoorbell
  repeat' first
    | (with_reducible first | assumption | apply ringDoorbell_keeps) | simp only [↓outKeeps_mk]

theorem execRingEnable_keeps {s₀ : State} (k : BitVec 2) (log2n : BitVec 4) {s : State} (hk : Keeps s₀ s) : OutKeeps s₀ (execRingEnable k log2n s) := by
  unfold execRingEnable
  repeat' first
    | (with_reducible first | assumption | apply writeRingCfg_keeps) | simp only [↓outKeeps_mk]

theorem execCqHeadWrite_keeps {s₀ : State} (head : BitVec 8) {s : State} (hk : Keeps s₀ s) : OutKeeps s₀ (execCqHeadWrite head s) := by
  unfold execCqHeadWrite
  repeat' first
    | (with_reducible first | assumption | apply writeCqHead_keeps) | simp only [↓outKeeps_mk]

theorem execCqEnable_keeps {s₀ : State} (log2n : BitVec 4) {s : State} (hk : Keeps s₀ s) : OutKeeps s₀ (execCqEnable log2n s) := by
  unfold execCqEnable
  repeat' first
    | (with_reducible first | assumption | apply enableCq_keeps) | simp only [↓outKeeps_mk]

theorem execCqDisable_keeps {s₀ : State} {s : State} (hk : Keeps s₀ s) : OutKeeps s₀ (execCqDisable s) := by
  unfold execCqDisable
  repeat' first
    | (with_reducible first | assumption | apply disableCq_keeps) | simp only [↓outKeeps_mk]

theorem execIrqStatWrite_keeps {s₀ : State} (v : Word) {s : State} (hk : Keeps s₀ s) : OutKeeps s₀ (execIrqStatWrite v s) := by
  unfold execIrqStatWrite
  repeat' first
    | (with_reducible first | assumption | apply writeIrqStat_keeps) | simp only [↓outKeeps_mk]

theorem execIrqMaskWrite_keeps {s₀ : State} (v : Word) {s : State} (hk : Keeps s₀ s) : OutKeeps s₀ (execIrqMaskWrite v s) := by
  unfold execIrqMaskWrite
  repeat' first
    | (with_reducible first | assumption | apply writeIrqMask_keeps) | simp only [↓outKeeps_mk]

theorem execTaiSecLoRead_keeps {s₀ : State} {s : State} (hk : Keeps s₀ s) : OutKeeps s₀ (execTaiSecLoRead s) := by
  unfold execTaiSecLoRead
  repeat' first
    | (with_reducible first | assumption | apply latchTai_keeps) | simp only [↓outKeeps_mk]

theorem execRegisterWrite_keeps {s₀ : State} (off : BitVec 14) (w : BarWrite) {s : State} (hk : Keeps s₀ s) : OutKeeps s₀ (execRegisterWrite off w s) := by
  unfold execRegisterWrite
  repeat' first
    | (with_reducible first | assumption | apply hostWrite_keeps) | simp only [↓outKeeps_mk]

theorem execQspiRead_keeps {s₀ : State} (addr : BitVec 24) (len : Nat) (mhz : Nat) {s : State} (hk : Keeps s₀ s) : OutKeeps s₀ (execQspiRead addr len mhz s) := by
  unfold execQspiRead
  repeat' first
    | (with_reducible first | assumption | apply qspiReadFrame_keeps) | simp only [↓outKeeps_mk]

theorem execQspiWrite_keeps {s₀ : State} (addr : BitVec 24) (data : Bytes) {s : State} (hk : Keeps s₀ s) : OutKeeps s₀ (execQspiWrite addr data s) := by
  unfold execQspiWrite
  repeat' first
    | (with_reducible first | assumption | apply qspiWriteFrame_keeps) | simp only [↓outKeeps_mk]

theorem execQspiStat_keeps {s₀ : State} {s : State} (hk : Keeps s₀ s) : OutKeeps s₀ (execQspiStat s) := by
  unfold execQspiStat
  repeat' first
    | (with_reducible first | assumption | apply qspiStatFrame_keeps) | simp only [↓outKeeps_mk]

end Sys2Proof.Machine.Laws
end

