-- ==== Sys2Proof/Laws/KeepsTime.lean ====
section
/-! SUPPORT. One lemma per operation of the grid, time, supervision, the log and security, named after it: it keeps what Keeps says. -/

namespace Sys2Proof.Machine.Laws
open Sys2Proof.Machine

set_option Elab.async false

/-! ### Grid -/

theorem setGrid_keeps {s₀ : State} (f : GridSt → GridSt) {s : State} (hk : Keeps s₀ s) : Keeps s₀ (setGrid f s) := by
  unfold setGrid
  repeat' first
    | assumption | (extract_lets +onlyGivenNames x; refine (fun (hx : Keeps s₀ x) => ?_) ?_; (clear_value x); rotate_left; subst x) | simp only [↓Keeps.upd_iff]
    | (extract_lets +onlyGivenNames x; subst x) | dsimp only

theorem setClk_keeps {s₀ : State} (f : Clock → Clock) {s : State} (hk : Keeps s₀ s) : Keeps s₀ (setClk f s) := by
  unfold setClk
  repeat' first
    | assumption | (extract_lets +onlyGivenNames x; refine (fun (hx : Keeps s₀ x) => ?_) ?_; (clear_value x); rotate_left; subst x) | simp only [↓Keeps.upd_iff]
    | (extract_lets +onlyGivenNames x; subst x) | dsimp only

theorem gridEvent_keeps {s₀ : State} (code : Nat) (more : Bytes) {s : State} (hk : Keeps s₀ s) : Keeps s₀ (gridEvent code more s) := by
  unfold gridEvent
  repeat' first
    | (with_reducible first | assumption | apply raiseIrq_keeps | apply postEvent_keeps)

theorem setSync_keeps {s₀ : State} (x : SyncState) {s : State} (hk : Keeps s₀ s) : Keeps s₀ (setSync x s) := by
  unfold setSync
  repeat' first
    | (with_reducible first | assumption | apply gridEvent_keeps | apply setGrid_keeps) | intro _
    | (extract_lets +onlyGivenNames x; refine (fun (hx : Keeps s₀ x) => ?_) ?_; (clear_value x); rotate_left; subst x) | split | simp only [↓Keeps.upd_iff]
    | (extract_lets +onlyGivenNames x; subst x) | dsimp only

theorem execGridMode_keeps {s₀ : State} (c : Cmd) {s : State} (hk : Keeps s₀ s) : OutKeeps s₀ (execGridMode c s) := by
  unfold execGridMode
  repeat' first
    | (with_reducible first | assumption | apply command_keeps | apply setGrid_keeps | apply queuedEntry_keeps) | intro _
    | (extract_lets +onlyGivenNames x; refine (fun (hx : Keeps s₀ x) => ?_) ?_; (clear_value x); rotate_left; subst x) | split
    | simp only [↓Keeps.upd_iff, ↓outKeeps_mk, ↓actKeeps_done, ↓actKeeps_boundary, ↓actKeeps_goesOn] | (extract_lets +onlyGivenNames x; subst x) | dsimp only

theorem setPll_keeps {s₀ : State} (cw : Bool) {s : State} (hk : Keeps s₀ s) : Keeps s₀ (setPll cw s) := by
  unfold setPll
  repeat' first
    | (with_reducible first | assumption | apply gridEvent_keeps | apply setGrid_keeps) | intro _
    | (extract_lets +onlyGivenNames x; refine (fun (hx : Keeps s₀ x) => ?_) ?_; (clear_value x); rotate_left; subst x) | split | simp only [↓Keeps.upd_iff]
    | (extract_lets +onlyGivenNames x; subst x) | dsimp only

theorem loseCwClk_keeps {s₀ : State} {s : State} (hk : Keeps s₀ s) : Keeps s₀ (loseCwClk s) := by
  unfold loseCwClk
  repeat' first
    | (with_reducible first | assumption | apply setPll_keeps | apply setGrid_keeps | apply finishOpen_keeps) | intro _
    | (extract_lets +onlyGivenNames x; refine (fun (hx : Keeps s₀ x) => ?_) ?_; (clear_value x); rotate_left; subst x) | split | simp only [↓Keeps.upd_iff]
    | (extract_lets +onlyGivenNames x; subst x) | dsimp only

theorem execGridFollowRelock_keeps {s₀ : State} {s : State} (hk : Keeps s₀ s) : OutKeeps s₀ (execGridFollowRelock s) := by
  unfold execGridFollowRelock
  repeat' first
    | (with_reducible first | assumption | apply setPll_keeps | apply setGrid_keeps) | intro _
    | (extract_lets +onlyGivenNames x; refine (fun (hx : Keeps s₀ x) => ?_) ?_; (clear_value x); rotate_left; subst x) | split | simp only [↓Keeps.upd_iff, ↓outKeeps_mk]
    | (extract_lets +onlyGivenNames x; subst x) | dsimp only

theorem refuseEdge_keeps {s₀ : State} (e : Int) {s : State} (hk : Keeps s₀ s) : Keeps s₀ (refuseEdge e s) := by
  unfold refuseEdge
  repeat' first
    | (with_reducible first | assumption | apply setGrid_keeps | apply setSync_keeps | apply gridEvent_keeps) | intro _
    | (extract_lets +onlyGivenNames x; refine (fun (hx : Keeps s₀ x) => ?_) ?_; (clear_value x); rotate_left; subst x) | split | simp only [↓Keeps.upd_iff]
    | (extract_lets +onlyGivenNames x; subst x) | dsimp only

theorem acceptEdge_keeps {s₀ : State} (e : Int) (trim : Int) (need : Nat) (counts : Bool) {s : State} (hk : Keeps s₀ s) : Keeps s₀ (acceptEdge e trim need counts s) := by
  unfold acceptEdge
  repeat' first
    | (with_reducible first | assumption | apply setGrid_keeps | apply setSync_keeps) | intro _
    | (extract_lets +onlyGivenNames x; refine (fun (hx : Keeps s₀ x) => ?_) ?_; (clear_value x); rotate_left; subst x) | split | simp only [↓Keeps.upd_iff]
    | (extract_lets +onlyGivenNames x; subst x) | dsimp only

theorem judgeEdge_keeps {s₀ : State} (e : Int) (need : Nat) (counts : Bool) {s : State} (hk : Keeps s₀ s) : Keeps s₀ (judgeEdge e need counts s) := by
  unfold judgeEdge
  repeat' first
    | (with_reducible first | assumption | apply acceptEdge_keeps | apply refuseEdge_keeps)
    | (extract_lets +onlyGivenNames x; refine (fun (hx : Keeps s₀ x) => ?_) ?_; (clear_value x); rotate_left; subst x) | split | (extract_lets +onlyGivenNames x; subst x)
    | dsimp only

theorem execGridSyncEdge_keeps {s₀ : State} (t : Nat) {s : State} (hk : Keeps s₀ s) : OutKeeps s₀ (execGridSyncEdge t s) := by
  unfold execGridSyncEdge
  repeat' first
    | (with_reducible first | assumption | apply setClk_keeps | apply judgeEdge_keeps | apply setGrid_keeps) | intro _
    | (extract_lets +onlyGivenNames x; refine (fun (hx : Keeps s₀ x) => ?_) ?_; (clear_value x); rotate_left; subst x) | split | simp only [↓Keeps.upd_iff, ↓outKeeps_mk]
    | (extract_lets +onlyGivenNames x; subst x) | dsimp only

theorem execGridSyncLost_keeps {s₀ : State} {s : State} (hk : Keeps s₀ s) : OutKeeps s₀ (execGridSyncLost s) := by
  unfold execGridSyncLost
  repeat' first
    | (with_reducible first | assumption | apply setSync_keeps | apply setGrid_keeps | apply setClk_keeps) | intro _
    | (extract_lets +onlyGivenNames x; refine (fun (hx : Keeps s₀ x) => ?_) ?_; (clear_value x); rotate_left; subst x) | split | simp only [↓Keeps.upd_iff, ↓outKeeps_mk]
    | (extract_lets +onlyGivenNames x; subst x) | dsimp only

theorem gridSync_keeps {s₀ : State} (frames : Int → Nat → Nat) (act : Int → BAct) (now : Int → State → State) {s : State} (hnow : ∀ a0 t, Keeps s₀ t → Keeps s₀ (now a0 t)) (hk : Keeps s₀ s) : ActKeeps s₀ (gridSync frames act now s) := by
  unfold gridSync
  repeat' first
    | (with_reducible first | assumption | apply hnow) | refine ActKeeps.of_done (by assumption) ?_ | refine ActKeeps.of_boundary (by assumption) ?_
    | refine ActKeeps.of_goesOn (by assumption) ?_ | (extract_lets +onlyGivenNames x; refine (fun (hx : Keeps s₀ x) => ?_) ?_; (clear_value x); rotate_left; subst x) | split
    | simp only [↓Keeps.upd_iff, ↓actKeeps_done, ↓actKeeps_boundary, ↓actKeeps_goesOn] | (extract_lets +onlyGivenNames x; subst x) | dsimp only

theorem stepNow_keeps {s₀ : State} (e : Int) {s : State} (hk : Keeps s₀ s) : Keeps s₀ (stepNow e s) := by
  unfold stepNow
  repeat' first
    | (with_reducible first | assumption | apply setClk_keeps | apply setGrid_keeps) | intro _
    | (extract_lets +onlyGivenNames x; refine (fun (hx : Keeps s₀ x) => ?_) ?_; (clear_value x); rotate_left; subst x) | simp only [↓Keeps.upd_iff]
    | (extract_lets +onlyGivenNames x; subst x) | dsimp only

theorem gridSyncAct_keeps {s₀ : State} (c : Cmd) {s : State} (hk : Keeps s₀ s) : ActKeeps s₀ (gridSyncAct c s) := by
  unfold gridSyncAct
  repeat' first
    | (with_reducible first | assumption | apply gridSync_keeps | apply stepNow_keeps) | intro _ | refine ActKeeps.of_done (by assumption) ?_
    | refine ActKeeps.of_boundary (by assumption) ?_ | refine ActKeeps.of_goesOn (by assumption) ?_ | split | simp only [↓actKeeps_done, ↓actKeeps_boundary, ↓actKeeps_goesOn]
    | dsimp only

theorem execGridSyncSlew_keeps {s₀ : State} (c : Cmd) {s : State} (hk : Keeps s₀ s) : OutKeeps s₀ (execGridSyncSlew c s) := by
  unfold execGridSyncSlew
  repeat' first
    | (with_reducible first | assumption | apply command_keeps | apply gridSyncAct_keeps) | intro _ | simp only [↓outKeeps_mk, ↓actKeeps_done, ↓actKeeps_boundary, ↓actKeeps_goesOn]

theorem execGridSyncStep_keeps {s₀ : State} (c : Cmd) {s : State} (hk : Keeps s₀ s) : OutKeeps s₀ (execGridSyncStep c s) := by
  unfold execGridSyncStep
  repeat' first
    | (with_reducible first | assumption | apply command_keeps | apply gridSyncAct_keeps) | intro _ | simp only [↓outKeeps_mk, ↓actKeeps_done, ↓actKeeps_boundary, ↓actKeeps_goesOn]

theorem applyGridSlew_keeps {s₀ : State} (e : Int) {s : State} (hk : Keeps s₀ s) : Keeps s₀ (applyGridSlew e s) := by
  unfold applyGridSlew
  repeat' first
    | (with_reducible first | assumption | apply setSync_keeps | apply setGrid_keeps) | intro _
    | (extract_lets +onlyGivenNames x; refine (fun (hx : Keeps s₀ x) => ?_) ?_; (clear_value x); rotate_left; subst x) | simp only [↓Keeps.upd_iff]
    | (extract_lets +onlyGivenNames x; subst x) | dsimp only

theorem endTracking_keeps {s₀ : State} {s : State} (hk : Keeps s₀ s) : Keeps s₀ (endTracking s) := by
  unfold endTracking
  repeat' first
    | (with_reducible first | assumption | apply gridEvent_keeps | apply setGrid_keeps) | intro _
    | (extract_lets +onlyGivenNames x; refine (fun (hx : Keeps s₀ x) => ?_) ?_; (clear_value x); rotate_left; subst x) | split | simp only [↓Keeps.upd_iff]
    | (extract_lets +onlyGivenNames x; subst x) | dsimp only

theorem execCwSyncPulse_keeps {s₀ : State} (t : Nat) (long : Bool) {s : State} (hk : Keeps s₀ s) : OutKeeps s₀ (execCwSyncPulse t long s) := by
  unfold execCwSyncPulse
  repeat' first
    | (with_reducible first | assumption | apply setClk_keeps | apply endTracking_keeps | apply setGrid_keeps | apply judgeEdge_keeps) | intro _
    | (extract_lets +onlyGivenNames x; refine (fun (hx : Keeps s₀ x) => ?_) ?_; (clear_value x); rotate_left; subst x) | split | simp only [↓Keeps.upd_iff, ↓outKeeps_mk]
    | (extract_lets +onlyGivenNames x; subst x) | dsimp only

theorem execCwSyncLoss_keeps {s₀ : State} {s : State} (hk : Keeps s₀ s) : OutKeeps s₀ (execCwSyncLoss s) := by
  unfold execCwSyncLoss
  repeat' first
    | (with_reducible first | assumption | apply setSync_keeps | apply setGrid_keeps | apply setClk_keeps) | intro _
    | (extract_lets +onlyGivenNames x; refine (fun (hx : Keeps s₀ x) => ?_) ?_; (clear_value x); rotate_left; subst x) | split | simp only [↓Keeps.upd_iff, ↓outKeeps_mk]
    | (extract_lets +onlyGivenNames x; subst x) | dsimp only

theorem execCwClkLoss_keeps {s₀ : State} {s : State} (hk : Keeps s₀ s) : OutKeeps s₀ (execCwClkLoss s) := by
  unfold execCwClkLoss
  repeat' first
    | (with_reducible first | assumption | apply loseCwClk_keeps) | simp only [↓outKeeps_mk]

theorem setRef_keeps {s₀ : State} (k : Option Nat) {s : State} (hk : Keeps s₀ s) : Keeps s₀ (setRef k s) := by
  unfold setRef
  repeat' first
    | (with_reducible first | assumption | apply setGrid_keeps | apply gridEvent_keeps) | intro _
    | (extract_lets +onlyGivenNames x; refine (fun (hx : Keeps s₀ x) => ?_) ?_; (clear_value x); rotate_left; subst x) | split | simp only [↓Keeps.upd_iff]
    | (extract_lets +onlyGivenNames x; subst x) | dsimp only

theorem chooseRef_keeps {s₀ : State} (valid : List Bool) {s : State} (hk : Keeps s₀ s) : Keeps s₀ (chooseRef valid s) := by
  unfold chooseRef
  repeat' first
    | (with_reducible first | assumption | apply setGrid_keeps | apply setRef_keeps | apply gridEvent_keeps) | intro _
    | (extract_lets +onlyGivenNames x; refine (fun (hx : Keeps s₀ x) => ?_) ?_; (clear_value x); rotate_left; subst x) | split | simp only [↓Keeps.upd_iff]
    | (extract_lets +onlyGivenNames x; subst x) | dsimp only

theorem execRefPrioritySwitch_keeps {s₀ : State} (k : BitVec 2) {s : State} (hk : Keeps s₀ s) : OutKeeps s₀ (execRefPrioritySwitch k s) := by
  unfold execRefPrioritySwitch
  repeat' first
    | (with_reducible first | assumption | apply setRef_keeps | apply setClk_keeps)
    | (extract_lets +onlyGivenNames x; refine (fun (hx : Keeps s₀ x) => ?_) ?_; (clear_value x); rotate_left; subst x) | split | simp only [↓Keeps.upd_iff, ↓outKeeps_mk]
    | (extract_lets +onlyGivenNames x; subst x) | dsimp only

theorem startNominal_keeps {s₀ : State} {s : State} (hk : Keeps s₀ s) : Keeps s₀ (startNominal s) := by
  unfold startNominal
  repeat' first
    | (with_reducible first | assumption | apply gridEvent_keeps | apply setGrid_keeps) | intro _
    | (extract_lets +onlyGivenNames x; refine (fun (hx : Keeps s₀ x) => ?_) ?_; (clear_value x); rotate_left; subst x) | split | simp only [↓Keeps.upd_iff]
    | (extract_lets +onlyGivenNames x; subst x) | dsimp only

theorem execGridHoldoverTimeout_keeps {s₀ : State} {s : State} (hk : Keeps s₀ s) : OutKeeps s₀ (execGridHoldoverTimeout s) := by
  unfold execGridHoldoverTimeout
  repeat' first
    | (with_reducible first | assumption | apply startNominal_keeps | apply setClk_keeps) | split | simp only [↓outKeeps_mk] | dsimp only

theorem updateF_keeps {s₀ : State} (refs : List (Option RefSample)) (withheld : Bool) {s : State} (hk : Keeps s₀ s) : Keeps s₀ (updateF refs withheld s) := by
  unfold updateF
  repeat' first
    | (with_reducible first | assumption | apply setGrid_keeps) | intro _
    | (extract_lets +onlyGivenNames x; refine (fun (hx : Keeps s₀ x) => ?_) ?_; (clear_value x); rotate_left; subst x) | split | simp only [↓Keeps.upd_iff]
    | (extract_lets +onlyGivenNames x; subst x) | dsimp only

theorem fixedF_keeps {s₀ : State} {s : State} (hk : Keeps s₀ s) : Keeps s₀ (fixedF s) := by
  unfold fixedF
  repeat' first
    | (with_reducible first | assumption | apply setGrid_keeps) | split | dsimp only

theorem applyGridCfg_keeps {s₀ : State} (c : GridCfg) {s : State} (hk : Keeps s₀ s) : Keeps s₀ (applyGridCfg c s) := by
  unfold applyGridCfg
  repeat' first
    | (with_reducible first | assumption | apply setGrid_keeps | apply setSync_keeps | apply endTracking_keeps | apply setPll_keeps) | intro _
    | (extract_lets +onlyGivenNames x; refine (fun (hx : Keeps s₀ x) => ?_) ?_; (clear_value x); rotate_left; subst x) | split | simp only [↓Keeps.upd_iff]
    | (extract_lets +onlyGivenNames x; subst x) | dsimp only

theorem applyGridStep_keeps {s₀ : State} {s : State} (hk : Keeps s₀ s) : Keeps s₀ (applyGridStep s) := by
  unfold applyGridStep
  repeat' first
    | (with_reducible first | assumption | apply gridEvent_keeps | apply setSync_keeps | apply setGrid_keeps | apply stepNow_keeps) | intro _
    | (extract_lets +onlyGivenNames x; refine (fun (hx : Keeps s₀ x) => ?_) ?_; (clear_value x); rotate_left; subst x) | simp only [↓Keeps.upd_iff]
    | (extract_lets +onlyGivenNames x; subst x) | dsimp only

theorem openMilestone_keeps {s₀ : State} {s : State} (hk : Keeps s₀ s) : Keeps s₀ (openMilestone s) := by
  unfold openMilestone
  repeat' first
    | (with_reducible first | assumption | apply gridEvent_keeps | apply setGrid_keeps) | intro _
    | (extract_lets +onlyGivenNames x; refine (fun (hx : Keeps s₀ x) => ?_) ?_; (clear_value x); rotate_left; subst x) | split | simp only [↓Keeps.upd_iff]
    | (extract_lets +onlyGivenNames x; subst x) | dsimp only

theorem driveCwSync_keeps {s₀ : State} {s : State} (hk : Keeps s₀ s) : Keeps s₀ (driveCwSync s) := by
  unfold driveCwSync
  repeat' first
    | (with_reducible first | assumption | apply setGrid_keeps) | intro _
    | (extract_lets +onlyGivenNames x; refine (fun (hx : Keeps s₀ x) => ?_) ?_; (clear_value x); rotate_left; subst x) | split | simp only [↓Keeps.upd_iff]
    | (extract_lets +onlyGivenNames x; subst x) | dsimp only

theorem openNext_keeps {s₀ : State} {s : State} (hk : Keeps s₀ s) : Keeps s₀ (openNext s) := by
  unfold openNext
  repeat' first
    | (with_reducible first | assumption | apply setGrid_keeps | apply setClk_keeps) | intro _
    | (extract_lets +onlyGivenNames x; refine (fun (hx : Keeps s₀ x) => ?_) ?_; (clear_value x); rotate_left; subst x) | split | simp only [↓Keeps.upd_iff]
    | (extract_lets +onlyGivenNames x; subst x) | dsimp only

/-! ### Time -/

theorem setTime_keeps {s₀ : State} (f : TimeSt → TimeSt) {s : State} (hk : Keeps s₀ s) : Keeps s₀ (setTime f s) := by
  unfold setTime
  repeat' first
    | assumption | (extract_lets +onlyGivenNames x; refine (fun (hx : Keeps s₀ x) => ?_) ?_; (clear_value x); rotate_left; subst x) | simp only [↓Keeps.upd_iff]
    | (extract_lets +onlyGivenNames x; subst x) | dsimp only

theorem timeEvent_keeps {s₀ : State} (code : Nat) (unit : Nat) (data : Bytes) {s : State} (hk : Keeps s₀ s) : Keeps s₀ (timeEvent code unit data s) := by
  unfold timeEvent
  repeat' first
    | (with_reducible first | assumption | apply raiseIrq_keeps | apply postTime_keeps)

theorem setTState_keeps {s₀ : State} (x : TState) {s : State} (hk : Keeps s₀ s) : Keeps s₀ (setTState x s) := by
  unfold setTState
  repeat' first
    | (with_reducible first | assumption | apply timeEvent_keeps | apply setTime_keeps) | intro _
    | (extract_lets +onlyGivenNames x; refine (fun (hx : Keeps s₀ x) => ?_) ?_; (clear_value x); rotate_left; subst x) | split | simp only [↓Keeps.upd_iff]
    | (extract_lets +onlyGivenNames x; subst x) | dsimp only

theorem setUtc_keeps {s₀ : State} {s : State} (hk : Keeps s₀ s) : Keeps s₀ (setUtc s) := by
  unfold setUtc
  repeat' first
    | (with_reducible first | assumption | apply timeEvent_keeps | apply setTime_keeps) | intro _
    | (extract_lets +onlyGivenNames x; refine (fun (hx : Keeps s₀ x) => ?_) ?_; (clear_value x); rotate_left; subst x) | split | simp only [↓Keeps.upd_iff]
    | (extract_lets +onlyGivenNames x; subst x) | dsimp only

theorem execTimeSecondTick_keeps {s₀ : State} {s : State} (hk : Keeps s₀ s) : OutKeeps s₀ (execTimeSecondTick s) := by
  unfold execTimeSecondTick
  repeat' first
    | (with_reducible first | assumption | apply setTime_keeps) | intro _
    | (extract_lets +onlyGivenNames x; refine (fun (hx : Keeps s₀ x) => ?_) ?_; (clear_value x); rotate_left; subst x) | split | simp only [↓Keeps.upd_iff, ↓outKeeps_mk]
    | (extract_lets +onlyGivenNames x; subst x) | dsimp only

theorem refuseOffset_keeps {s₀ : State} (x : Int) {s : State} (hk : Keeps s₀ s) : Keeps s₀ (refuseOffset x s) := by
  unfold refuseOffset
  repeat' first
    | (with_reducible first | assumption | apply setTime_keeps | apply setTState_keeps | apply timeEvent_keeps) | intro _
    | (extract_lets +onlyGivenNames x; refine (fun (hx : Keeps s₀ x) => ?_) ?_; (clear_value x); rotate_left; subst x) | split | simp only [↓Keeps.upd_iff]
    | (extract_lets +onlyGivenNames x; subst x) | dsimp only

theorem changeUse_keeps {s₀ : State} (unit : Nat) (f : TimeSt → TimeSt) {s : State} (hk : Keeps s₀ s) : Keeps s₀ (changeUse unit f s) := by
  unfold changeUse
  repeat' first
    | (with_reducible first | assumption | apply timeEvent_keeps | apply setTime_keeps) | intro _
    | (extract_lets +onlyGivenNames x; refine (fun (hx : Keeps s₀ x) => ?_) ?_; (clear_value x); rotate_left; subst x) | simp only [↓Keeps.upd_iff]
    | (extract_lets +onlyGivenNames x; subst x) | dsimp only

theorem judgeChange_keeps {s₀ : State} (old : Int) (x : Int) (locked : Bool) {s : State} (hk : Keeps s₀ s) : Keeps s₀ (judgeChange old x locked s) := by
  unfold judgeChange
  repeat' first
    | (with_reducible first | assumption | apply refuseOffset_keeps | apply setTState_keeps) | split | dsimp only

theorem takeSource_keeps {s₀ : State} (k : Nat) {s : State} (hk : Keeps s₀ s) : Keeps s₀ (takeSource k s) := by
  unfold takeSource
  repeat' first
    | (with_reducible first | assumption | apply changeUse_keeps | apply setUtc_keeps | apply judgeChange_keeps) | intro _
    | (extract_lets +onlyGivenNames x; refine (fun (hx : Keeps s₀ x) => ?_) ?_; (clear_value x); rotate_left; subst x) | simp only [↓Keeps.upd_iff]
    | (extract_lets +onlyGivenNames x; subst x) | dsimp only

theorem loseSource_keeps {s₀ : State} (k : Nat) {s : State} (hk : Keeps s₀ s) : Keeps s₀ (loseSource k s) := by
  unfold loseSource
  repeat' first
    | (with_reducible first | assumption | apply setTime_keeps | apply takeSource_keeps | apply raiseIrq_keeps | apply setTState_keeps) | intro _
    | (extract_lets +onlyGivenNames x; refine (fun (hx : Keeps s₀ x) => ?_) ?_; (clear_value x); rotate_left; subst x) | split | simp only [↓Keeps.upd_iff]
    | (extract_lets +onlyGivenNames x; subst x) | dsimp only

theorem dropIrig_keeps {s₀ : State} {s : State} (hk : Keeps s₀ s) : Keeps s₀ (dropIrig s) := by
  unfold dropIrig
  repeat' first
    | (with_reducible first | assumption | apply loseSource_keeps) | split | dsimp only

theorem useSource_keeps {s₀ : State} (k : Nat) {s : State} (hk : Keeps s₀ s) : Keeps s₀ (useSource k s) := by
  unfold useSource
  repeat' first
    | (with_reducible first | assumption | apply dropIrig_keeps | apply takeSource_keeps)

theorem decideUtc_keeps {s₀ : State} {s : State} (hk : Keeps s₀ s) : Keeps s₀ (decideUtc s) := by
  unfold decideUtc
  repeat' first
    | (with_reducible first | assumption | apply dropIrig_keeps | apply setUtc_keeps)

theorem selectSource_keeps {s₀ : State} {s : State} (hk : Keeps s₀ s) : Keeps s₀ (selectSource s) := by
  unfold selectSource
  repeat' first
    | (with_reducible first | assumption | apply useSource_keeps) | intro _
    | (extract_lets +onlyGivenNames x; refine (fun (hx : Keeps s₀ x) => ?_) ?_; (clear_value x); rotate_left; subst x) | split | simp only [↓Keeps.upd_iff]
    | (extract_lets +onlyGivenNames x; subst x) | dsimp only

theorem measureOffset_keeps {s₀ : State} (k : Nat) (x : Int) (inacc : Nat) {s : State} (hk : Keeps s₀ s) : Keeps s₀ (measureOffset k x inacc s) := by
  unfold measureOffset
  repeat' first
    | (with_reducible first | assumption | apply selectSource_keeps | apply setTime_keeps | apply refuseOffset_keeps | apply setClk_keeps | apply setTState_keeps) | intro _
    | (extract_lets +onlyGivenNames x; refine (fun (hx : Keeps s₀ x) => ?_) ?_; (clear_value x); rotate_left; subst x) | split | simp only [↓Keeps.upd_iff]
    | (extract_lets +onlyGivenNames x; subst x) | dsimp only

theorem execTimeSourceSwitch_keeps {s₀ : State} (src : BitVec 2) {s : State} (hk : Keeps s₀ s) : OutKeeps s₀ (execTimeSourceSwitch src s) := by
  unfold execTimeSourceSwitch
  repeat' first
    | (with_reducible first | assumption | apply selectSource_keeps | apply setClk_keeps)
    | (extract_lets +onlyGivenNames x; refine (fun (hx : Keeps s₀ x) => ?_) ?_; (clear_value x); rotate_left; subst x) | split | simp only [↓Keeps.upd_iff, ↓outKeeps_mk]
    | (extract_lets +onlyGivenNames x; subst x) | dsimp only

theorem ringPtp_keeps {s₀ : State} (port : Nat) {s : State} (hk : Keeps s₀ s) : Keeps s₀ (ringPtp port s) := by
  unfold ringPtp
  repeat' first
    | assumption | (extract_lets +onlyGivenNames x; refine (fun (hx : Keeps s₀ x) => ?_) ?_; (clear_value x); rotate_left; subst x) | split | simp only [↓Keeps.upd_iff]
    | (extract_lets +onlyGivenNames x; subst x) | dsimp only

theorem takePtp_keeps {s₀ : State} (port : Nat) (domain : Nat) (f : State → State) {s : State} (hf : ∀  t, Keeps s₀ t → Keeps s₀ (f t)) (hk : Keeps s₀ s) : Keeps s₀ (takePtp port domain f s) := by
  unfold takePtp
  repeat' first
    | (with_reducible first | assumption | apply ringPtp_keeps | apply hf) | split | dsimp only

theorem setPtpPort_keeps {s₀ : State} (port : Nat) (f : PtpPort → PtpPort) {s : State} (hk : Keeps s₀ s) : Keeps s₀ (setPtpPort port f s) := by
  unfold setPtpPort
  repeat' first
    | (with_reducible first | assumption | apply setTime_keeps) | intro _
    | (extract_lets +onlyGivenNames x; refine (fun (hx : Keeps s₀ x) => ?_) ?_; (clear_value x); rotate_left; subst x) | simp only [↓Keeps.upd_iff]
    | (extract_lets +onlyGivenNames x; subst x) | dsimp only

theorem changePort_keeps {s₀ : State} (a : Nat) (p : Nat) {s : State} (hk : Keeps s₀ s) : Keeps s₀ (changePort a p s) := by
  unfold changePort
  repeat' first
    | (with_reducible first | assumption | apply changeUse_keeps | apply judgeChange_keeps | apply decideUtc_keeps) | intro _
    | (extract_lets +onlyGivenNames x; refine (fun (hx : Keeps s₀ x) => ?_) ?_; (clear_value x); rotate_left; subst x) | split | simp only [↓Keeps.upd_iff]
    | (extract_lets +onlyGivenNames x; subst x) | dsimp only

theorem runBmca_keeps {s₀ : State} {s : State} (hk : Keeps s₀ s) : Keeps s₀ (runBmca s) := by
  unfold runBmca
  repeat' first
    | (with_reducible first | assumption | apply setTime_keeps | apply changePort_keeps | apply loseSource_keeps) | intro _
    | (extract_lets +onlyGivenNames x; refine (fun (hx : Keeps s₀ x) => ?_) ?_; (clear_value x); rotate_left; subst x) | split | simp only [↓Keeps.upd_iff]
    | (extract_lets +onlyGivenNames x; subst x) | dsimp only

theorem execPtpAnnounceRx_keeps {s₀ : State} (port : BitVec 2) (m : PtpAnnounce) {s : State} (hk : Keeps s₀ s) : OutKeeps s₀ (execPtpAnnounceRx port m s) := by
  unfold execPtpAnnounceRx
  repeat' first
    | (with_reducible first | assumption | apply takePtp_keeps | apply runBmca_keeps | apply setPtpPort_keeps | apply setTime_keeps | apply decideUtc_keeps) | intro _
    | (extract_lets +onlyGivenNames x; refine (fun (hx : Keeps s₀ x) => ?_) ?_; (clear_value x); rotate_left; subst x) | split | simp only [↓Keeps.upd_iff, ↓outKeeps_mk]
    | (extract_lets +onlyGivenNames x; subst x) | dsimp only

theorem ptpMeasure_keeps {s₀ : State} (port : Nat) (rx : Int) (origin : Nat) (corr : Int) {s : State} (hk : Keeps s₀ s) : Keeps s₀ (ptpMeasure port rx origin corr s) := by
  unfold ptpMeasure
  repeat' first
    | (with_reducible first | assumption | apply setPtpPort_keeps | apply setTime_keeps | apply postTime_keeps | apply measureOffset_keeps) | intro _
    | (extract_lets +onlyGivenNames x; refine (fun (hx : Keeps s₀ x) => ?_) ?_; (clear_value x); rotate_left; subst x) | split | simp only [↓Keeps.upd_iff]
    | (extract_lets +onlyGivenNames x; subst x) | dsimp only

theorem execPtpSyncRx_keeps {s₀ : State} (port : BitVec 2) (m : PtpEvent) {s : State} (hk : Keeps s₀ s) : OutKeeps s₀ (execPtpSyncRx port m s) := by
  unfold execPtpSyncRx
  repeat' first
    | (with_reducible first | assumption | apply takePtp_keeps | apply setPtpPort_keeps | apply ptpMeasure_keeps) | intro _
    | (extract_lets +onlyGivenNames x; refine (fun (hx : Keeps s₀ x) => ?_) ?_; (clear_value x); rotate_left; subst x) | split | simp only [↓Keeps.upd_iff, ↓outKeeps_mk]
    | (extract_lets +onlyGivenNames x; subst x) | dsimp only

theorem execPtpFollowUpRx_keeps {s₀ : State} (port : BitVec 2) (m : PtpEvent) {s : State} (hk : Keeps s₀ s) : OutKeeps s₀ (execPtpFollowUpRx port m s) := by
  unfold execPtpFollowUpRx
  repeat' first
    | (with_reducible first | assumption | apply takePtp_keeps | apply ptpMeasure_keeps) | intro _
    | (extract_lets +onlyGivenNames x; refine (fun (hx : Keeps s₀ x) => ?_) ?_; (clear_value x); rotate_left; subst x) | split | simp only [↓Keeps.upd_iff, ↓outKeeps_mk]
    | (extract_lets +onlyGivenNames x; subst x) | dsimp only

theorem sendPtp_keeps {s₀ : State} (m : PtpTx) {s : State} (hk : Keeps s₀ s) : Keeps s₀ (sendPtp m s) := by
  unfold sendPtp
  repeat' first
    | assumption | (extract_lets +onlyGivenNames x; refine (fun (hx : Keeps s₀ x) => ?_) ?_; (clear_value x); rotate_left; subst x) | simp only [↓Keeps.upd_iff]
    | (extract_lets +onlyGivenNames x; subst x) | dsimp only

theorem execPtpPdelayReqRx_keeps {s₀ : State} (port : BitVec 2) (m : PtpEvent) {s : State} (hk : Keeps s₀ s) : OutKeeps s₀ (execPtpPdelayReqRx port m s) := by
  unfold execPtpPdelayReqRx
  repeat' first
    | (with_reducible first | assumption | apply takePtp_keeps | apply sendPtp_keeps) | intro _
    | (extract_lets +onlyGivenNames x; refine (fun (hx : Keeps s₀ x) => ?_) ?_; (clear_value x); rotate_left; subst x) | simp only [↓Keeps.upd_iff, ↓outKeeps_mk]
    | (extract_lets +onlyGivenNames x; subst x) | dsimp only

theorem execPtpPdelayRespRx_keeps {s₀ : State} (port : BitVec 2) (m : PtpEvent) {s : State} (hk : Keeps s₀ s) : OutKeeps s₀ (execPtpPdelayRespRx port m s) := by
  unfold execPtpPdelayRespRx
  repeat' first
    | (with_reducible first | assumption | apply takePtp_keeps | apply setPtpPort_keeps) | intro _
    | (extract_lets +onlyGivenNames x; refine (fun (hx : Keeps s₀ x) => ?_) ?_; (clear_value x); rotate_left; subst x) | split | simp only [↓Keeps.upd_iff, ↓outKeeps_mk]
    | (extract_lets +onlyGivenNames x; subst x) | dsimp only

theorem ptpDue_keeps {s₀ : State} (last : Option Nat) {s : State} (hk : Keeps s₀ s) : Keeps s₀ (ptpDue last s) := by
  unfold ptpDue
  repeat' first
    | (with_reducible first | assumption | apply setClk_keeps) | (extract_lets +onlyGivenNames x; refine (fun (hx : Keeps s₀ x) => ?_) ?_; (clear_value x); rotate_left; subst x)
    | split | simp only [↓Keeps.upd_iff] | (extract_lets +onlyGivenNames x; subst x) | dsimp only

theorem sendKind_keeps {s₀ : State} (port : Nat) (kind : PtpKind) {s : State} (hk : Keeps s₀ s) : Keeps s₀ (sendKind port kind s) := by
  unfold sendKind
  repeat' first
    | (with_reducible first | assumption | apply setPtpPort_keeps | apply sendPtp_keeps) | intro _
    | (extract_lets +onlyGivenNames x; refine (fun (hx : Keeps s₀ x) => ?_) ?_; (clear_value x); rotate_left; subst x) | split | simp only [↓Keeps.upd_iff]
    | (extract_lets +onlyGivenNames x; subst x) | dsimp only

theorem execPtpMessageTx_keeps {s₀ : State} (port : BitVec 2) (kind : PtpKind) {s : State} (hk : Keeps s₀ s) : OutKeeps s₀ (execPtpMessageTx port kind s) := by
  unfold execPtpMessageTx
  repeat' first
    | (with_reducible first | assumption | apply sendKind_keeps | apply ptpDue_keeps)
    | (extract_lets +onlyGivenNames x; refine (fun (hx : Keeps s₀ x) => ?_) ?_; (clear_value x); rotate_left; subst x) | split | simp only [↓Keeps.upd_iff, ↓outKeeps_mk]
    | (extract_lets +onlyGivenNames x; subst x) | dsimp only

theorem losePort_keeps {s₀ : State} (port : Nat) {s : State} (hk : Keeps s₀ s) : Keeps s₀ (losePort port s) := by
  unfold losePort
  repeat' first
    | (with_reducible first | assumption | apply runBmca_keeps | apply setPtpPort_keeps) | intro _
    | (extract_lets +onlyGivenNames x; refine (fun (hx : Keeps s₀ x) => ?_) ?_; (clear_value x); rotate_left; subst x) | simp only [↓Keeps.upd_iff]
    | (extract_lets +onlyGivenNames x; subst x) | dsimp only

theorem execPtpAnnounceTimeout_keeps {s₀ : State} (port : BitVec 2) {s : State} (hk : Keeps s₀ s) : OutKeeps s₀ (execPtpAnnounceTimeout port s) := by
  unfold execPtpAnnounceTimeout
  repeat' first
    | (with_reducible first | assumption | apply losePort_keeps | apply setClk_keeps) | split | simp only [↓outKeeps_mk] | dsimp only

theorem execPtpSyncTimeout_keeps {s₀ : State} (port : BitVec 2) {s : State} (hk : Keeps s₀ s) : OutKeeps s₀ (execPtpSyncTimeout port s) := by
  unfold execPtpSyncTimeout
  repeat' first
    | (with_reducible first | assumption | apply losePort_keeps | apply setClk_keeps) | split | simp only [↓outKeeps_mk] | dsimp only

theorem execIrigFrame_keeps {s₀ : State} (m : IrigFrame) {s : State} (hk : Keeps s₀ s) : OutKeeps s₀ (execIrigFrame m s) := by
  unfold execIrigFrame
  repeat' first
    | (with_reducible first | assumption | apply setTime_keeps | apply loseSource_keeps | apply measureOffset_keeps) | intro _
    | (extract_lets +onlyGivenNames x; refine (fun (hx : Keeps s₀ x) => ?_) ?_; (clear_value x); rotate_left; subst x) | split | simp only [↓Keeps.upd_iff, ↓outKeeps_mk]
    | (extract_lets +onlyGivenNames x; subst x) | dsimp only

theorem execIrigTimeout_keeps {s₀ : State} {s : State} (hk : Keeps s₀ s) : OutKeeps s₀ (execIrigTimeout s) := by
  unfold execIrigTimeout
  repeat' first
    | (with_reducible first | assumption | apply loseSource_keeps | apply setClk_keeps) | split | simp only [↓outKeeps_mk] | dsimp only

theorem execPpsInEdge_keeps {s₀ : State} (t : Nat) {s : State} (hk : Keeps s₀ s) : OutKeeps s₀ (execPpsInEdge t s) := by
  unfold execPpsInEdge
  repeat' first
    | (with_reducible first | assumption | apply setClk_keeps | apply setTime_keeps | apply measureOffset_keeps) | intro _
    | (extract_lets +onlyGivenNames x; refine (fun (hx : Keeps s₀ x) => ?_) ?_; (clear_value x); rotate_left; subst x) | split | simp only [↓Keeps.upd_iff, ↓outKeeps_mk]
    | (extract_lets +onlyGivenNames x; subst x) | dsimp only

theorem execPpsInTimeout_keeps {s₀ : State} {s : State} (hk : Keeps s₀ s) : OutKeeps s₀ (execPpsInTimeout s) := by
  unfold execPpsInTimeout
  repeat' first
    | (with_reducible first | assumption | apply loseSource_keeps | apply setClk_keeps) | split | simp only [↓outKeeps_mk] | dsimp only

theorem execPpsOutEdge_keeps {s₀ : State} {s : State} (hk : Keeps s₀ s) : OutKeeps s₀ (execPpsOutEdge s) := by
  unfold execPpsOutEdge
  repeat' first
    | (with_reducible first | assumption | apply setTime_keeps | apply setClk_keeps) | intro _
    | (extract_lets +onlyGivenNames x; refine (fun (hx : Keeps s₀ x) => ?_) ?_; (clear_value x); rotate_left; subst x) | split | simp only [↓Keeps.upd_iff, ↓outKeeps_mk]
    | (extract_lets +onlyGivenNames x; subst x) | dsimp only

theorem execLeapSecond_keeps {s₀ : State} {s : State} (hk : Keeps s₀ s) : OutKeeps s₀ (execLeapSecond s) := by
  unfold execLeapSecond
  repeat' first
    | (with_reducible first | assumption | apply timeEvent_keeps | apply setTime_keeps) | intro _
    | (extract_lets +onlyGivenNames x; refine (fun (hx : Keeps s₀ x) => ?_) ?_; (clear_value x); rotate_left; subst x) | split | simp only [↓Keeps.upd_iff, ↓outKeeps_mk]
    | (extract_lets +onlyGivenNames x; subst x) | dsimp only

theorem execTimeSource_keeps {s₀ : State} (c : Cmd) {s : State} (hk : Keeps s₀ s) : OutKeeps s₀ (execTimeSource c s) := by
  unfold execTimeSource
  repeat' first
    | (with_reducible first | assumption | apply command_keeps) | intro _
    | (extract_lets +onlyGivenNames x; refine (fun (hx : Keeps s₀ x) => ?_) ?_; (clear_value x); rotate_left; subst x) | split
    | simp only [↓Keeps.upd_iff, ↓outKeeps_mk, ↓actKeeps_done, ↓actKeeps_boundary, ↓actKeeps_goesOn] | (extract_lets +onlyGivenNames x; subst x) | dsimp only

theorem dropUsed_keeps {s₀ : State} {s : State} (hk : Keeps s₀ s) : Keeps s₀ (dropUsed s) := by
  unfold dropUsed
  repeat' first
    | (with_reducible first | assumption | apply changeUse_keeps | apply raiseIrq_keeps | apply setTState_keeps) | intro _
    | (extract_lets +onlyGivenNames x; refine (fun (hx : Keeps s₀ x) => ?_) ?_; (clear_value x); rotate_left; subst x) | split | simp only [↓Keeps.upd_iff]
    | (extract_lets +onlyGivenNames x; subst x) | dsimp only

theorem applyTimeSource_keeps {s₀ : State} (c : TimeCfg) {s : State} (hk : Keeps s₀ s) : Keeps s₀ (applyTimeSource c s) := by
  unfold applyTimeSource
  repeat' first
    | (with_reducible first | assumption | apply decideUtc_keeps | apply selectSource_keeps | apply dropUsed_keeps | apply runBmca_keeps | apply setTime_keeps)

theorem execTimeStep_keeps {s₀ : State} (c : Cmd) {s : State} (hk : Keeps s₀ s) : OutKeeps s₀ (execTimeStep c s) := by
  unfold execTimeStep
  repeat' first
    | (with_reducible first | assumption | apply command_keeps) | intro _
    | (extract_lets +onlyGivenNames x; refine (fun (hx : Keeps s₀ x) => ?_) ?_; (clear_value x); rotate_left; subst x) | split
    | simp only [↓Keeps.upd_iff, ↓outKeeps_mk, ↓actKeeps_done, ↓actKeeps_boundary, ↓actKeeps_goesOn] | (extract_lets +onlyGivenNames x; subst x) | dsimp only

theorem applyTimeStep_keeps {s₀ : State} (op : Nat) (x : Int) {s : State} (hk : Keeps s₀ s) : SndKeeps s₀ (applyTimeStep op x s) := by
  unfold applyTimeStep
  repeat' first
    | (with_reducible first | assumption | apply setClk_keeps | apply setTime_keeps | apply timeEvent_keeps | apply setTState_keeps) | intro _
    | refine SndKeeps.of_eq (by assumption) ?_ | (extract_lets +onlyGivenNames x; refine (fun (hx : Keeps s₀ x) => ?_) ?_; (clear_value x); rotate_left; subst x) | split
    | simp only [↓Keeps.upd_iff, ↓sndKeeps_mk] | (extract_lets +onlyGivenNames x; subst x) | dsimp only

theorem applyTimeStep_keeps_snd {s₀ : State} (op : Nat) (x : Int) {s : State} (hk : Keeps s₀ s) : Keeps s₀ (applyTimeStep op x s).2 := applyTimeStep_keeps _ _ hk

theorem execTimeRead_keeps {s₀ : State} (c : Cmd) {s : State} (hk : Keeps s₀ s) : OutKeeps s₀ (execTimeRead c s) := by
  unfold execTimeRead
  repeat' first
    | (with_reducible first | assumption | apply command_keeps) | intro _ | simp only [↓outKeeps_mk, ↓actKeeps_done, ↓actKeeps_boundary, ↓actKeeps_goesOn] | dsimp only

/-! ### Supv -/

theorem setMode_keeps {s₀ : State} (f : ModeSt → ModeSt) {s : State} (hk : Keeps s₀ s) : Keeps s₀ (setMode f s) := by
  unfold setMode
  repeat' first
    | assumption | (extract_lets +onlyGivenNames x; refine (fun (hx : Keeps s₀ x) => ?_) ?_; (clear_value x); rotate_left; subst x) | simp only [↓Keeps.upd_iff]
    | (extract_lets +onlyGivenNames x; subst x) | dsimp only

theorem setSupv_keeps {s₀ : State} (f : SupvSt → SupvSt) {s : State} (hk : Keeps s₀ s) : Keeps s₀ (setSupv f s) := by
  unfold setSupv
  repeat' first
    | assumption | (extract_lets +onlyGivenNames x; refine (fun (hx : Keeps s₀ x) => ?_) ?_; (clear_value x); rotate_left; subst x) | simp only [↓Keeps.upd_iff]
    | (extract_lets +onlyGivenNames x; subst x) | dsimp only

theorem raiseSafe_keeps {s₀ : State} (bit : Nat) {s : State} (hk : Keeps s₀ s) : Keeps s₀ (raiseSafe bit s) := by
  unfold raiseSafe
  repeat' first
    | (with_reducible first | assumption | apply setMode_keeps) | intro _
    | (extract_lets +onlyGivenNames x; refine (fun (hx : Keeps s₀ x) => ?_) ?_; (clear_value x); rotate_left; subst x) | split | simp only [↓Keeps.upd_iff]
    | (extract_lets +onlyGivenNames x; subst x) | dsimp only

theorem raiseDeg_keeps {s₀ : State} (bit : Nat) {s : State} (hk : Keeps s₀ s) : Keeps s₀ (raiseDeg bit s) := by
  unfold raiseDeg
  repeat' first
    | (with_reducible first | assumption | apply setMode_keeps) | intro _
    | (extract_lets +onlyGivenNames x; refine (fun (hx : Keeps s₀ x) => ?_) ?_; (clear_value x); rotate_left; subst x) | simp only [↓Keeps.upd_iff]
    | (extract_lets +onlyGivenNames x; subst x) | dsimp only

theorem clearDeg_keeps {s₀ : State} (bit : Nat) {s : State} (hk : Keeps s₀ s) : Keeps s₀ (clearDeg bit s) := by
  unfold clearDeg
  repeat' first
    | (with_reducible first | assumption | apply setMode_keeps) | intro _
    | (extract_lets +onlyGivenNames x; refine (fun (hx : Keeps s₀ x) => ?_) ?_; (clear_value x); rotate_left; subst x) | simp only [↓Keeps.upd_iff]
    | (extract_lets +onlyGivenNames x; subst x) | dsimp only

theorem failCluster_keeps {s₀ : State} (c : Nat) (kind : Nat) {s : State} (hk : Keeps s₀ s) : Keeps s₀ (failCluster c kind s) := by
  unfold failCluster
  repeat' first
    | (with_reducible first | assumption | apply setMode_keeps) | intro _
    | (extract_lets +onlyGivenNames x; refine (fun (hx : Keeps s₀ x) => ?_) ?_; (clear_value x); rotate_left; subst x) | split | simp only [↓Keeps.upd_iff]
    | (extract_lets +onlyGivenNames x; subst x) | dsimp only

theorem failStandby_keeps {s₀ : State} (r : Nat) (kind : Nat) {s : State} (hk : Keeps s₀ s) : Keeps s₀ (failStandby r kind s) := by
  unfold failStandby
  repeat' first
    | (with_reducible first | assumption | apply raiseDeg_keeps | apply setMode_keeps | apply failCluster_keeps) | intro _
    | (extract_lets +onlyGivenNames x; refine (fun (hx : Keeps s₀ x) => ?_) ?_; (clear_value x); rotate_left; subst x) | split | simp only [↓Keeps.upd_iff]
    | (extract_lets +onlyGivenNames x; subst x) | dsimp only

theorem endEpisode_keeps {s₀ : State} (f : FaultInst) {s : State} (hk : Keeps s₀ s) : Keeps s₀ (endEpisode f s) := by
  unfold endEpisode
  repeat' first
    | (with_reducible first | assumption | apply setSupv_keeps | apply postEvent_keeps) | intro _
    | (extract_lets +onlyGivenNames x; refine (fun (hx : Keeps s₀ x) => ?_) ?_; (clear_value x); rotate_left; subst x) | split | simp only [↓Keeps.upd_iff]
    | (extract_lets +onlyGivenNames x; subst x) | dsimp only

theorem clearLasting_keeps {s₀ : State} (id : Nat) (inst : Nat) {s : State} (hk : Keeps s₀ s) : Keeps s₀ (clearLasting id inst s) := by
  unfold clearLasting
  repeat' first
    | (with_reducible first | assumption | apply setSupv_keeps | apply postEvent_keeps)
    | (extract_lets +onlyGivenNames x; refine (fun (hx : Keeps s₀ x) => ?_) ?_; (clear_value x); rotate_left; subst x) | split | simp only [↓Keeps.upd_iff]
    | (extract_lets +onlyGivenNames x; subst x) | dsimp only

theorem clearDue_keeps {s₀ : State} (id : Nat) (inst : Nat) {s : State} (hk : Keeps s₀ s) : Keeps s₀ (clearDue id inst s) := by
  unfold clearDue
  repeat' first
    | (with_reducible first | assumption | apply clearLasting_keeps)
    | (extract_lets +onlyGivenNames x; refine (fun (hx : Keeps s₀ x) => ?_) ?_; (clear_value x); rotate_left; subst x) | split | simp only [↓Keeps.upd_iff]
    | (extract_lets +onlyGivenNames x; subst x) | dsimp only

theorem resetInst_keeps {s₀ : State} (id : Nat) (inst : Nat) {s : State} (hk : Keeps s₀ s) : Keeps s₀ (resetInst id inst s) := by
  unfold resetInst
  repeat' first
    | (with_reducible first | assumption | apply setSupv_keeps) | intro _
    | (extract_lets +onlyGivenNames x; refine (fun (hx : Keeps s₀ x) => ?_) ?_; (clear_value x); rotate_left; subst x) | simp only [↓Keeps.upd_iff]
    | (extract_lets +onlyGivenNames x; subst x) | dsimp only

theorem lastingAction_keeps {s₀ : State} (id : Nat) {s : State} (hk : Keeps s₀ s) : Keeps s₀ (lastingAction id s) := by
  unfold lastingAction
  repeat' first
    | (with_reducible first | assumption | apply raiseSafe_keeps) | split | dsimp only

theorem declare_keeps {s₀ : State} (id : Nat) (inst : Nat) (count : Nat) {s : State} (hk : Keeps s₀ s) : Keeps s₀ (declare id inst count s) := by
  unfold declare
  repeat' first
    | (with_reducible first | assumption | apply setSupv_keeps | apply raiseIrq_keeps | apply lastingAction_keeps) | intro _
    | (extract_lets +onlyGivenNames x; refine (fun (hx : Keeps s₀ x) => ?_) ?_; (clear_value x); rotate_left; subst x) | split | simp only [↓Keeps.upd_iff]
    | (extract_lets +onlyGivenNames x; subst x) | dsimp only

theorem countEvent_keeps {s₀ : State} (id : Nat) (inst : Nat) {s : State} (hk : Keeps s₀ s) : Keeps s₀ (countEvent id inst s) := by
  unfold countEvent
  repeat' first
    | (with_reducible first | assumption | apply clearDue_keeps | apply setSupv_keeps | apply endEpisode_keeps | apply declare_keeps) | intro _
    | (extract_lets +onlyGivenNames x; refine (fun (hx : Keeps s₀ x) => ?_) ?_; (clear_value x); rotate_left; subst x) | split | simp only [↓Keeps.upd_iff]
    | (extract_lets +onlyGivenNames x; subst x) | dsimp only

theorem openError_keeps {s₀ : State} (d : Nat × Nat × Nat) {s : State} (hk : Keeps s₀ s) : Keeps s₀ (openError d s) := by
  unfold openError
  repeat' first
    | (with_reducible first | assumption | apply setSupv_keeps | apply postEvent_keeps | apply raiseSafe_keeps) | intro _
    | (extract_lets +onlyGivenNames x; refine (fun (hx : Keeps s₀ x) => ?_) ?_; (clear_value x); rotate_left; subst x) | split | simp only [↓Keeps.upd_iff]
    | (extract_lets +onlyGivenNames x; subst x) | dsimp only

theorem settle_keeps {s₀ : State} {s : State} (hk : Keeps s₀ s) : Keeps s₀ (settle s) := by
  unfold settle
  repeat' first
    | (with_reducible first | assumption | apply foldl_keeps | apply openError_keeps | apply setSupv_keeps) | intro _
    | (extract_lets +onlyGivenNames x; refine (fun (hx : Keeps s₀ x) => ?_) ?_; (clear_value x); rotate_left; subst x) | simp only [↓Keeps.upd_iff]
    | (extract_lets +onlyGivenNames x; subst x) | dsimp only

theorem endHandler_keeps {s₀ : State} {s : State} (hk : Keeps s₀ s) : Keeps s₀ (endHandler s) := by
  unfold endHandler
  repeat' first
    | (with_reducible first | assumption | apply setSupv_keeps) | intro _
    | (extract_lets +onlyGivenNames x; refine (fun (hx : Keeps s₀ x) => ?_) ?_; (clear_value x); rotate_left; subst x) | split | simp only [↓Keeps.upd_iff]
    | (extract_lets +onlyGivenNames x; subst x) | dsimp only

theorem sweepFaults_keeps {s₀ : State} {s : State} (hk : Keeps s₀ s) : Keeps s₀ (sweepFaults s) := by
  unfold sweepFaults
  repeat' first
    | (with_reducible first | assumption | apply foldl_keeps | apply clearDue_keeps | apply endEpisode_keeps) | intro _
    | (extract_lets +onlyGivenNames x; refine (fun (hx : Keeps s₀ x) => ?_) ?_; (clear_value x); rotate_left; subst x) | split | (extract_lets +onlyGivenNames x; subst x)
    | dsimp only

theorem execLastingFaultCleared_keeps {s₀ : State} (id : BitVec 5) (inst : BitVec 16) {s : State} (hk : Keeps s₀ s) : OutKeeps s₀ (execLastingFaultCleared id inst s) := by
  unfold execLastingFaultCleared
  repeat' first
    | (with_reducible first | assumption | apply clearLasting_keeps | apply setClk_keeps)
    | (extract_lets +onlyGivenNames x; refine (fun (hx : Keeps s₀ x) => ?_) ?_; (clear_value x); rotate_left; subst x) | split | simp only [↓Keeps.upd_iff, ↓outKeeps_mk]
    | (extract_lets +onlyGivenNames x; subst x) | dsimp only

theorem execTransientEpisodeEnd_keeps {s₀ : State} (id : BitVec 5) (inst : BitVec 16) {s : State} (hk : Keeps s₀ s) : OutKeeps s₀ (execTransientEpisodeEnd id inst s) := by
  unfold execTransientEpisodeEnd
  repeat' first
    | (with_reducible first | assumption | apply endEpisode_keeps | apply setClk_keeps)
    | (extract_lets +onlyGivenNames x; refine (fun (hx : Keeps s₀ x) => ?_) ?_; (clear_value x); rotate_left; subst x) | split | simp only [↓outKeeps_mk]
    | (extract_lets +onlyGivenNames x; subst x) | dsimp only

theorem execFaultHandler_keeps {s₀ : State} {s : State} (hk : Keeps s₀ s) : OutKeeps s₀ (execFaultHandler s) := by
  unfold execFaultHandler
  repeat' first
    | (with_reducible first | assumption | apply endHandler_keeps) | simp only [↓outKeeps_mk]

theorem linkRetry_keeps {s₀ : State} (die : Nat) {s : State} (hk : Keeps s₀ s) : Keeps s₀ (linkRetry die s) := by
  unfold linkRetry
  repeat' first
    | (with_reducible first | assumption | apply foldl_keeps | apply countEvent_keeps | apply settle_keeps | apply failCluster_keeps) | intro _
    | (extract_lets +onlyGivenNames x; refine (fun (hx : Keeps s₀ x) => ?_) ?_; (clear_value x); rotate_left; subst x) | split | (extract_lets +onlyGivenNames x; subst x)
    | dsimp only

theorem execDieToDieLinkRetry_keeps {s₀ : State} (die : BitVec 1) {s : State} (hk : Keeps s₀ s) : OutKeeps s₀ (execDieToDieLinkRetry die s) := by
  unfold execDieToDieLinkRetry
  repeat' first
    | (with_reducible first | assumption | apply linkRetry_keeps) | split | simp only [↓outKeeps_mk] | dsimp only

theorem clockJudged_keeps {s₀ : State} {s : State} (hk : Keeps s₀ s) : Keeps s₀ (clockJudged s) := by
  unfold clockJudged
  repeat' first
    | (with_reducible first | assumption | apply settle_keeps | apply countEvent_keeps | apply timeEvent_keeps | apply setTime_keeps) | intro _
    | (extract_lets +onlyGivenNames x; refine (fun (hx : Keeps s₀ x) => ?_) ?_; (clear_value x); rotate_left; subst x) | split | simp only [↓Keeps.upd_iff]
    | (extract_lets +onlyGivenNames x; subst x) | dsimp only

theorem execClockFailure_keeps {s₀ : State} (part : ClockPart) {s : State} (hk : Keeps s₀ s) : OutKeeps s₀ (execClockFailure part s) := by
  unfold execClockFailure
  repeat' first
    | (with_reducible first | assumption | apply setGrid_keeps | apply loseCwClk_keeps | apply setTime_keeps | apply clockJudged_keeps) | intro _
    | (extract_lets +onlyGivenNames x; refine (fun (hx : Keeps s₀ x) => ?_) ?_; (clear_value x); rotate_left; subst x) | split | simp only [↓Keeps.upd_iff, ↓outKeeps_mk]
    | (extract_lets +onlyGivenNames x; subst x) | dsimp only

/-! ### Log -/

theorem appendRecord_logKeeps (e : Event) (l : LogSt) : LogKeeps l (appendRecord e l) := by
  refine ⟨id, fun _ => ?_, Nat.le_succ _⟩
  simp only [appendRecord, List.length_cons, List.length_take, logSlots]
  omega

theorem watermark_keeps {s₀ : State} (before : LogSt) {s : State} (hk : Keeps s₀ s) : Keeps s₀ (watermark before s) := by
  unfold watermark
  repeat' first
    | (with_reducible first | assumption | apply raiseIrq_keeps) | split | dsimp only

theorem enterOverflow_keeps {s₀ s : State} (hk : Keeps s₀ s) : Keeps s₀ (enterOverflow s) := by
  unfold enterOverflow
  split
  · exact hk
  · split
    · exact hk
    · rename_i hq
      refine hk.log_upd ⟨fun _ => ?_, id, Nat.le_refl _⟩
      simp only [List.length_append, List.length_cons, List.length_nil]
      omega

theorem sealOne_keeps {s₀ s : State} (hk : Keeps s₀ s) : Keeps s₀ (sealOne s) := by
  unfold sealOne
  split
  · exact hk
  · rename_i e q hq
    have hl : ∀ o, LogKeeps s.log { s.log with queue := q, overflow := o } := fun o =>
      ⟨fun hn => by rw [hq, List.length_cons] at hn; exact Nat.le_of_succ_le hn, id, Nat.le_refl _⟩
    extract_lets before
    split
    · exact enterOverflow_keeps (watermark_keeps _ (hk.log_upd ((hl _).trans (appendRecord_logKeeps _ _))))
    · extract_lets e' s'
      have hs : Keeps s₀ s' := by
        refine hk.log_upd (((hl none).trans (appendRecord_logKeeps e' _)).trans ⟨id, fun _ => ?_, Nat.le_refl _⟩)
        simp only [List.length_take, logSlots]
        omega
      exact enterOverflow_keeps (finishOpen_keeps _ _ (watermark_keeps _ hs))

theorem execCairnSeal_keeps {s₀ : State} {s : State} (hk : Keeps s₀ s) : OutKeeps s₀ (execCairnSeal s) := by
  unfold execCairnSeal
  repeat' first
    | (with_reducible first | assumption | apply sealOne_keeps) | split | simp only [↓outKeeps_mk] | dsimp only

theorem execQueueOverflowRecord_keeps {s₀ : State} {s : State} (hk : Keeps s₀ s) : OutKeeps s₀ (execQueueOverflowRecord s) := by
  unfold execQueueOverflowRecord
  repeat' first
    | (with_reducible first | assumption | apply enterOverflow_keeps) | simp only [↓outKeeps_mk]

theorem writeDirect_keeps {s₀ : State} (code : Nat) (data : Bytes) {s : State} (hk : Keeps s₀ s) : Keeps s₀ (writeDirect code data s) := by
  refine hk.log_upd ((appendRecord_logKeeps _ _).trans ⟨fun _ => ?_, id, Nat.le_refl _⟩)
  exact Nat.zero_le _

theorem execLogChainVerify_keeps {s₀ : State} {s : State} (hk : Keeps s₀ s) : OutKeeps s₀ (execLogChainVerify s) := by
  unfold execLogChainVerify
  repeat' first
    | (with_reducible first | assumption | apply foldl_keeps | apply postEvent_keeps | refine setLog_keeps (fun l => ?_) ?_)
    | exact ⟨id, id, Nat.le_refl _⟩
    | exact enqueue_logKeeps _ _ _
    | simp only [↓outKeeps_mk]
    | intro _
    | (extract_lets +onlyGivenNames x; refine (fun (hx : Keeps s₀ x) => ?_) ?_; (clear_value x); rotate_left; subst x)
    | split
    | dsimp only

theorem raiseMark_keeps {s₀ : State} (q : Nat) {s : State} (hk : Keeps s₀ s) : Keeps s₀ (raiseMark q s) := by
  unfold raiseMark
  repeat' first
    | (with_reducible first | assumption | apply foldl_keeps | apply postEvent_keeps | refine setLog_keeps (fun l => ?_) ?_)
    | exact ⟨id, id, Nat.le_refl _⟩
    | exact enqueue_logKeeps _ _ _
    | simp only [↓outKeeps_mk]
    | intro _
    | (extract_lets +onlyGivenNames x; refine (fun (hx : Keeps s₀ x) => ?_) ?_; (clear_value x); rotate_left; subst x)
    | split
    | dsimp only

theorem setMark_keeps {s₀ : State} (c : Cmd) (n : Nat) {s : State} (hk : Keeps s₀ s) : Keeps s₀ (setMark c n s) := by
  unfold setMark
  repeat' first
    | (with_reducible first | assumption | apply foldl_keeps | apply postEvent_keeps | refine setLog_keeps (fun l => ?_) ?_)
    | exact ⟨id, id, Nat.le_refl _⟩
    | exact enqueue_logKeeps _ _ _
    | simp only [↓outKeeps_mk]
    | intro _
    | (extract_lets +onlyGivenNames x; refine (fun (hx : Keeps s₀ x) => ?_) ?_; (clear_value x); rotate_left; subst x)
    | split
    | dsimp only

theorem evtReadAct_keeps {s₀ : State} (c : Cmd) {s : State} (hk : Keeps s₀ s) : ActKeeps s₀ (evtReadAct c s) := by
  unfold evtReadAct
  repeat' first
    | (with_reducible first | assumption | apply setMark_keeps | apply raiseMark_keeps) | intro _ | refine ActKeeps.of_done (by assumption) ?_
    | refine ActKeeps.of_boundary (by assumption) ?_ | refine ActKeeps.of_goesOn (by assumption) ?_
    | (extract_lets +onlyGivenNames x; refine (fun (hx : Keeps s₀ x) => ?_) ?_; (clear_value x); rotate_left; subst x) | split
    | simp only [↓actKeeps_done, ↓actKeeps_boundary, ↓actKeeps_goesOn] | (extract_lets +onlyGivenNames x; subst x) | dsimp only

theorem execEvtRead_keeps {s₀ : State} (c : Cmd) {s : State} (hk : Keeps s₀ s) : OutKeeps s₀ (execEvtRead c s) := by
  unfold execEvtRead
  repeat' first
    | (with_reducible first | assumption | apply command_keeps | apply evtReadAct_keeps) | intro _ | simp only [↓outKeeps_mk, ↓actKeeps_done, ↓actKeeps_boundary, ↓actKeeps_goesOn]

theorem execEvtReadStatus_keeps {s₀ : State} (c : Cmd) {s : State} (hk : Keeps s₀ s) : OutKeeps s₀ (execEvtReadStatus c s) := by
  unfold execEvtReadStatus
  repeat' first
    | (with_reducible first | assumption | apply command_keeps | apply evtReadAct_keeps) | intro _ | simp only [↓outKeeps_mk, ↓actKeeps_done, ↓actKeeps_boundary, ↓actKeeps_goesOn]

theorem execEvtClear_keeps {s₀ : State} (c : Cmd) {s : State} (hk : Keeps s₀ s) : OutKeeps s₀ (execEvtClear c s) := by
  unfold execEvtClear
  refine outKeeps_mk.mpr (command_keeps _ _ _ (fun t ht => ?_) hk)
  have hl := setLog_keeps (f := enqueue t.clk.ms { mkEventAt t t.clk.taiU Src.log 2 0 [] with clear := some (refOf c, c.keySlot) }) (fun l => enqueue_logKeeps _ _ _) ht
  exact .ite (.done hl) (.goesOn (queuedEntry_keeps _ hl))

/-! ### Security -/

theorem setSec_keeps {s₀ : State} (f : SecSt → SecSt) {s : State} (hk : Keeps s₀ s) : Keeps s₀ (setSec f s) := by
  unfold setSec
  repeat' first
    | assumption | (extract_lets +onlyGivenNames x; refine (fun (hx : Keeps s₀ x) => ?_) ?_; (clear_value x); rotate_left; subst x) | simp only [↓Keeps.upd_iff]
    | (extract_lets +onlyGivenNames x; subst x) | dsimp only

theorem secRecord_keeps {s₀ : State} (code : Nat) (unit : Nat) (data : Bytes) {s : State} (hk : Keeps s₀ s) : Keeps s₀ (secRecord code unit data s) := by
  unfold secRecord
  repeat' first
    | (with_reducible first | assumption | apply postEvent_keeps)

theorem tamperLoads_keeps {s₀ : State} (p : Nat → KeySlot → Bool) {s : State} (hk : Keeps s₀ s) : Keeps s₀ (tamperLoads p s) := by
  unfold tamperLoads
  repeat' first
    | assumption | intro _ | (extract_lets +onlyGivenNames x; refine (fun (hx : Keeps s₀ x) => ?_) ?_; (clear_value x); rotate_left; subst x) | split | simp only [↓Keeps.upd_iff]
    | (extract_lets +onlyGivenNames x; subst x) | dsimp only

theorem storeKey_keeps {s₀ : State} (slot : Nat) (use : Nat) (alg : Nat) (key : Bytes) (kcv : Nat) {s : State} (hk : Keeps s₀ s) : Keeps s₀ (storeKey slot use alg key kcv s) := by
  unfold storeKey
  repeat' first
    | (with_reducible first | assumption | apply secRecord_keeps | apply setSec_keeps) | intro _
    | (extract_lets +onlyGivenNames x; refine (fun (hx : Keeps s₀ x) => ?_) ?_; (clear_value x); rotate_left; subst x) | simp only [↓Keeps.upd_iff]
    | (extract_lets +onlyGivenNames x; subst x) | dsimp only

theorem keyLoadSlot_keeps {s₀ : State} (c : Cmd) (prov : Bool) (b : Bytes) {s : State} (hk : Keeps s₀ s) : ActKeeps s₀ (keyLoadSlot c prov b s) := by
  unfold keyLoadSlot
  split
  · exact .done hk
  · extract_lets use alg klen kek key
    refine .ite (.done hk) ?_
    clear_value key
    cases key with
    | none => exact .done hk
    | some k => exact .ite (.done hk) (.done (storeKey_keeps _ _ _ _ _ hk))

theorem keyLoadAct_keeps {s₀ : State} (c : Cmd) {s : State} (t : TokenVerdict) (hk : Keeps s₀ s) : ActKeeps s₀ (keyLoadAct c s t) := by
  unfold keyLoadAct
  repeat' first
    | (with_reducible first | assumption | apply secRecord_keeps | apply setSec_keeps | apply keyLoadSlot_keeps) | intro _ | refine ActKeeps.of_done (by assumption) ?_
    | refine ActKeeps.of_boundary (by assumption) ?_ | refine ActKeeps.of_goesOn (by assumption) ?_
    | (extract_lets +onlyGivenNames x; refine (fun (hx : Keeps s₀ x) => ?_) ?_; (clear_value x); rotate_left; subst x) | split
    | simp only [↓Keeps.upd_iff, ↓actKeeps_done, ↓actKeeps_boundary, ↓actKeeps_goesOn] | (extract_lets +onlyGivenNames x; subst x) | dsimp only

theorem execKeyLoad_keeps {s₀ : State} (c : Cmd) {s : State} (hk : Keeps s₀ s) : OutKeeps s₀ (execKeyLoad c s) := by
  unfold execKeyLoad
  repeat' first
    | (with_reducible first | assumption | apply runCommand_keeps | apply keyLoadAct_keeps) | intro _
    | simp only [↓outKeeps_mk, ↓actKeeps_done, ↓actKeeps_boundary, ↓actKeeps_goesOn]

theorem execKeyLoadTamperPolicy_keeps {s₀ : State} (c : Cmd) {s : State} (hk : Keeps s₀ s) : OutKeeps s₀ (execKeyLoadTamperPolicy c s) := by
  unfold execKeyLoadTamperPolicy
  repeat' first
    | (with_reducible first | assumption | apply runCommand_keeps | apply keyLoadAct_keeps) | intro _
    | simp only [↓outKeeps_mk, ↓actKeeps_done, ↓actKeeps_boundary, ↓actKeeps_goesOn]

theorem eraseKeys_keeps {s₀ : State} (p : Nat → Bool) {s : State} (hk : Keeps s₀ s) : Keeps s₀ (eraseKeys p s) := by
  unfold eraseKeys
  repeat' first
    | (with_reducible first | assumption | apply foldl_keeps | apply setSec_keeps | apply secRecord_keeps) | intro _
    | (extract_lets +onlyGivenNames x; refine (fun (hx : Keeps s₀ x) => ?_) ?_; (clear_value x); rotate_left; subst x) | simp only [↓Keeps.upd_iff]
    | (extract_lets +onlyGivenNames x; subst x) | dsimp only

theorem clearLatch_keeps {s₀ : State} {s : State} (hk : Keeps s₀ s) : Keeps s₀ (clearLatch s) := by
  unfold clearLatch
  repeat' first
    | (with_reducible first | assumption | apply secRecord_keeps | apply setMode_keeps | apply setSec_keeps) | intro _
    | (extract_lets +onlyGivenNames x; refine (fun (hx : Keeps s₀ x) => ?_) ?_; (clear_value x); rotate_left; subst x) | split | simp only [↓Keeps.upd_iff]
    | (extract_lets +onlyGivenNames x; subst x) | dsimp only

theorem keyEraseAct_keeps {s₀ : State} (c : Cmd) {s : State} (hk : Keeps s₀ s) : ActKeeps s₀ (keyEraseAct c s) := by
  unfold keyEraseAct
  repeat' first
    | (with_reducible first | assumption | apply clearLatch_keeps | apply eraseKeys_keeps) | intro _ | refine ActKeeps.of_done (by assumption) ?_
    | refine ActKeeps.of_boundary (by assumption) ?_ | refine ActKeeps.of_goesOn (by assumption) ?_
    | (extract_lets +onlyGivenNames x; refine (fun (hx : Keeps s₀ x) => ?_) ?_; (clear_value x); rotate_left; subst x) | split
    | simp only [↓actKeeps_done, ↓actKeeps_boundary, ↓actKeeps_goesOn] | (extract_lets +onlyGivenNames x; subst x) | dsimp only

theorem execKeyErase_keeps {s₀ : State} (c : Cmd) {s : State} (hk : Keeps s₀ s) : OutKeeps s₀ (execKeyErase c s) := by
  unfold execKeyErase
  repeat' first
    | (with_reducible first | assumption | apply command_keeps | apply keyEraseAct_keeps) | intro _ | simp only [↓outKeeps_mk, ↓actKeeps_done, ↓actKeeps_boundary, ↓actKeeps_goesOn]

theorem execKeyEraseTamperLatch_keeps {s₀ : State} (c : Cmd) {s : State} (hk : Keeps s₀ s) : OutKeeps s₀ (execKeyEraseTamperLatch c s) := by
  unfold execKeyEraseTamperLatch
  repeat' first
    | (with_reducible first | assumption | apply command_keeps | apply keyEraseAct_keeps) | intro _ | simp only [↓outKeeps_mk, ↓actKeeps_done, ↓actKeeps_boundary, ↓actKeeps_goesOn]

theorem execKeyStatus_keeps {s₀ : State} (c : Cmd) {s : State} (hk : Keeps s₀ s) : OutKeeps s₀ (execKeyStatus c s) := by
  unfold execKeyStatus
  repeat' first
    | (with_reducible first | assumption | apply command_keeps) | intro _ | simp only [↓outKeeps_mk, ↓actKeeps_done, ↓actKeeps_boundary, ↓actKeeps_goesOn] | dsimp only

theorem setFw_keeps {s₀ : State} (i : Nat) (f : FwSlot → FwSlot) {s : State} (hk : Keeps s₀ s) : Keeps s₀ (setFw i f s) := by
  unfold setFw
  repeat' first
    | (with_reducible first | assumption | apply setSec_keeps) | intro _
    | (extract_lets +onlyGivenNames x; refine (fun (hx : Keeps s₀ x) => ?_) ?_; (clear_value x); rotate_left; subst x) | simp only [↓Keeps.upd_iff]
    | (extract_lets +onlyGivenNames x; subst x) | dsimp only

theorem fwLoadAct_keeps {s₀ : State} (c : Cmd) {s : State} (hk : Keeps s₀ s) : ActKeeps s₀ (fwLoadAct c s) := by
  unfold fwLoadAct
  repeat' first
    | (with_reducible first | assumption | apply setFw_keeps | apply setSec_keeps | apply queuedEntry_keeps) | intro _ | refine ActKeeps.of_done (by assumption) ?_
    | refine ActKeeps.of_boundary (by assumption) ?_ | refine ActKeeps.of_goesOn (by assumption) ?_
    | (extract_lets +onlyGivenNames x; refine (fun (hx : Keeps s₀ x) => ?_) ?_; (clear_value x); rotate_left; subst x) | split
    | simp only [↓Keeps.upd_iff, ↓actKeeps_done, ↓actKeeps_boundary, ↓actKeeps_goesOn] | (extract_lets +onlyGivenNames x; subst x) | dsimp only

theorem execFwLoad_keeps {s₀ : State} (c : Cmd) {s : State} (hk : Keeps s₀ s) : OutKeeps s₀ (execFwLoad c s) := by
  unfold execFwLoad
  repeat' first
    | (with_reducible first | assumption | apply command_keeps | apply fwLoadAct_keeps) | intro _ | simp only [↓outKeeps_mk, ↓actKeeps_done, ↓actKeeps_boundary, ↓actKeeps_goesOn]

theorem execFwVerifyDone_keeps {s₀ : State} {s : State} (hk : Keeps s₀ s) : OutKeeps s₀ (execFwVerifyDone s) := by
  unfold execFwVerifyDone
  repeat' first
    | (with_reducible first | assumption | apply setSec_keeps | apply finishOpen_keeps | apply secRecord_keeps | apply setFw_keeps) | intro _
    | (extract_lets +onlyGivenNames x; refine (fun (hx : Keeps s₀ x) => ?_) ?_; (clear_value x); rotate_left; subst x) | split | simp only [↓Keeps.upd_iff, ↓outKeeps_mk]
    | (extract_lets +onlyGivenNames x; subst x) | dsimp only

theorem dropPartial_keeps {s₀ : State} {s : State} (hk : Keeps s₀ s) : Keeps s₀ (dropPartial s) := by
  unfold dropPartial
  repeat' first
    | (with_reducible first | assumption | apply setFw_keeps) | intro _ | split | dsimp only

theorem execFwActivate_keeps {s₀ : State} (c : Cmd) {s : State} (hk : Keeps s₀ s) : OutKeeps s₀ (execFwActivate c s) := by
  unfold execFwActivate
  repeat' first
    | (with_reducible first | assumption | apply command_keeps | apply setSec_keeps | apply setMode_keeps | apply secRecord_keeps) | intro _
    | (extract_lets +onlyGivenNames x; refine (fun (hx : Keeps s₀ x) => ?_) ?_; (clear_value x); rotate_left; subst x) | split
    | simp only [↓Keeps.upd_iff, ↓outKeeps_mk, ↓actKeeps_done, ↓actKeeps_boundary, ↓actKeeps_goesOn] | (extract_lets +onlyGivenNames x; subst x) | dsimp only

theorem tamperAct_keeps {s₀ : State} (level : Nat) {s : State} (hk : Keeps s₀ s) : Keeps s₀ (tamperAct level s) := by
  unfold tamperAct
  repeat' first
    | (with_reducible first | assumption | apply tamperLoads_keeps | apply setSec_keeps | apply raiseSafe_keeps) | intro _
    | (extract_lets +onlyGivenNames x; refine (fun (hx : Keeps s₀ x) => ?_) ?_; (clear_value x); rotate_left; subst x) | split | simp only [↓Keeps.upd_iff]
    | (extract_lets +onlyGivenNames x; subst x) | dsimp only

theorem fireTamper_keeps {s₀ : State} (j : Nat) {s : State} (hk : Keeps s₀ s) : Keeps s₀ (fireTamper j s) := by
  unfold fireTamper
  repeat' first
    | (with_reducible first | assumption | apply setClk_keeps | apply setSec_keeps | apply tamperAct_keeps | apply secRecord_keeps | apply raiseIrq_keeps) | intro _
    | (extract_lets +onlyGivenNames x; refine (fun (hx : Keeps s₀ x) => ?_) ?_; (clear_value x); rotate_left; subst x) | split | simp only [↓Keeps.upd_iff]
    | (extract_lets +onlyGivenNames x; subst x) | dsimp only

theorem execTamperFire_keeps {s₀ : State} (j : BitVec 3) {s : State} (hk : Keeps s₀ s) : OutKeeps s₀ (execTamperFire j s) := by
  unfold execTamperFire
  repeat' first
    | (with_reducible first | assumption | apply fireTamper_keeps) | simp only [↓outKeeps_mk]

theorem execTamperRearm_keeps {s₀ : State} (j : BitVec 3) {s : State} (hk : Keeps s₀ s) : OutKeeps s₀ (execTamperRearm j s) := by
  unfold execTamperRearm
  repeat' first
    | (with_reducible first | assumption | apply setSec_keeps) | intro _
    | (extract_lets +onlyGivenNames x; refine (fun (hx : Keeps s₀ x) => ?_) ?_; (clear_value x); rotate_left; subst x) | simp only [↓Keeps.upd_iff, ↓outKeeps_mk]
    | (extract_lets +onlyGivenNames x; subst x) | dsimp only

theorem tamperBootRecords_keeps {s₀ : State} {s : State} (hk : Keeps s₀ s) : Keeps s₀ (tamperBootRecords s) := by
  unfold tamperBootRecords
  repeat' first
    | (with_reducible first | assumption | apply foldl_keeps | apply postEvent_keeps | refine setLog_keeps (fun l => ?_) ?_ | apply setSec_keeps)
    | exact ⟨id, id, Nat.le_refl _⟩
    | exact enqueue_logKeeps _ _ _
    | simp only [↓outKeeps_mk]
    | intro _
    | (extract_lets +onlyGivenNames x; refine (fun (hx : Keeps s₀ x) => ?_) ?_; (clear_value x); rotate_left; subst x)
    | split
    | dsimp only

theorem vbatKeysLost_keeps {s₀ : State} {s : State} (hk : Keeps s₀ s) : Keeps s₀ (vbatKeysLost s) := by
  unfold vbatKeysLost
  repeat' first
    | (with_reducible first | assumption | apply setSec_keeps) | intro _
    | (extract_lets +onlyGivenNames x; refine (fun (hx : Keeps s₀ x) => ?_) ?_; (clear_value x); rotate_left; subst x) | simp only [↓Keeps.upd_iff]
    | (extract_lets +onlyGivenNames x; subst x) | dsimp only

end Sys2Proof.Machine.Laws
end

