-- ==== Sys2Proof/Laws/KeepsAcq.lean ====
section
/-! SUPPORT. One lemma per operation of acquisition, the auxiliary converter, DMA, the filter chain and the ports, named after it: it keeps what Keeps says. -/

namespace Sys2Proof.Machine.Laws
open Sys2Proof.Machine

set_option Elab.async false

/-! ### TableFields -/

theorem setProt_keeps {s₀ : State} (f : ProtSt → ProtSt) {s : State} (hk : Keeps s₀ s) : Keeps s₀ (setProt f s) := by
  unfold setProt
  repeat' first
    | assumption | (extract_lets +onlyGivenNames x; refine (fun (hx : Keeps s₀ x) => ?_) ?_; (clear_value x); rotate_left; subst x) | simp only [↓Keeps.upd_iff]
    | (extract_lets +onlyGivenNames x; subst x) | dsimp only

theorem setBay_keeps {s₀ : State} (b : Nat) (f : BayProt → BayProt) {s : State} (hk : Keeps s₀ s) : Keeps s₀ (setBay b f s) := by
  unfold setBay
  repeat' first
    | (with_reducible first | assumption | apply setProt_keeps) | intro _
    | (extract_lets +onlyGivenNames x; refine (fun (hx : Keeps s₀ x) => ?_) ?_; (clear_value x); rotate_left; subst x) | simp only [↓Keeps.upd_iff]
    | (extract_lets +onlyGivenNames x; subst x) | dsimp only

theorem setRun_keeps {s₀ : State} (b : Nat) (f : BayRun → BayRun) {s : State} (hk : Keeps s₀ s) : Keeps s₀ (setRun b f s) := by
  unfold setRun
  repeat' first
    | (with_reducible first | assumption | apply setBay_keeps) | intro _
    | (extract_lets +onlyGivenNames x; refine (fun (hx : Keeps s₀ x) => ?_) ?_; (clear_value x); rotate_left; subst x) | simp only [↓Keeps.upd_iff]
    | (extract_lets +onlyGivenNames x; subst x) | dsimp only

theorem setSect_keeps {s₀ : State} (k : Nat) (f : SectRun → SectRun) {s : State} (hk : Keeps s₀ s) : Keeps s₀ (setSect k f s) := by
  unfold setSect
  repeat' first
    | (with_reducible first | assumption | apply setProt_keeps) | intro _
    | (extract_lets +onlyGivenNames x; refine (fun (hx : Keeps s₀ x) => ?_) ?_; (clear_value x); rotate_left; subst x) | simp only [↓Keeps.upd_iff]
    | (extract_lets +onlyGivenNames x; subst x) | dsimp only

/-! ### Acq -/

theorem setAcq_keeps {s₀ : State} (f : AcqSt → AcqSt) {s : State} (hk : Keeps s₀ s) : Keeps s₀ (setAcq f s) := by
  unfold setAcq
  repeat' first
    | assumption | (extract_lets +onlyGivenNames x; refine (fun (hx : Keeps s₀ x) => ?_) ?_; (clear_value x); rotate_left; subst x) | simp only [↓Keeps.upd_iff]
    | (extract_lets +onlyGivenNames x; subst x) | dsimp only

theorem setSlice_keeps {s₀ : State} (x : Nat) (f : SliceSt → SliceSt) {s : State} (hk : Keeps s₀ s) : Keeps s₀ (setSlice x f s) := by
  unfold setSlice
  repeat' first
    | (with_reducible first | assumption | apply setAcq_keeps) | intro _
    | (extract_lets +onlyGivenNames x; refine (fun (hx : Keeps s₀ x) => ?_) ?_; (clear_value x); rotate_left; subst x) | simp only [↓Keeps.upd_iff]
    | (extract_lets +onlyGivenNames x; subst x) | dsimp only

theorem setGroup_keeps {s₀ : State} (g : Nat) (f : CalGroup → CalGroup) {s : State} (hk : Keeps s₀ s) : Keeps s₀ (setGroup g f s) := by
  unfold setGroup
  repeat' first
    | (with_reducible first | assumption | apply setAcq_keeps) | intro _
    | (extract_lets +onlyGivenNames x; refine (fun (hx : Keeps s₀ x) => ?_) ?_; (clear_value x); rotate_left; subst x) | simp only [↓Keeps.upd_iff]
    | (extract_lets +onlyGivenNames x; subst x) | dsimp only

theorem beginStep_keeps {s₀ : State} (g : Nat) (idx : Nat) {s : State} (hk : Keeps s₀ s) : Keeps s₀ (beginStep g idx s) := by
  unfold beginStep
  repeat' first
    | (with_reducible first | assumption | apply setGroup_keeps | apply begun_keeps) | intro _
    | (extract_lets +onlyGivenNames x; refine (fun (hx : Keeps s₀ x) => ?_) ?_; (clear_value x); rotate_left; subst x) | simp only [↓Keeps.upd_iff]
    | (extract_lets +onlyGivenNames x; subst x) | dsimp only

theorem nextSlice_keeps {s₀ : State} (g : Nat) {s : State} (hk : Keeps s₀ s) : Keeps s₀ (nextSlice g s) := by
  unfold nextSlice
  repeat' first
    | (with_reducible first | assumption | apply beginStep_keeps)

theorem retireRecord_keeps {s₀ : State} (unit : Nat) (phase : Nat) (ofs : Int) (gc : Int) {s : State} (hk : Keeps s₀ s) : Keeps s₀ (retireRecord unit phase ofs gc s) := by
  unfold retireRecord
  repeat' first
    | (with_reducible first | assumption | apply raiseIrq_keeps | apply postEvent_keeps)

theorem retireUnit_keeps {s₀ : State} (unit : Nat) (phase : Nat) (ofs : Int) (gc : Int) {s : State} (hk : Keeps s₀ s) : Keeps s₀ (retireUnit unit phase ofs gc s) := by
  unfold retireUnit
  repeat' first
    | (with_reducible first | assumption | apply setSlice_keeps | apply setGroup_keeps | apply raiseDeg_keeps | apply retireRecord_keeps) | intro _
    | (extract_lets +onlyGivenNames x; refine (fun (hx : Keeps s₀ x) => ?_) ?_; (clear_value x); rotate_left; subst x) | split | simp only [↓Keeps.upd_iff]
    | (extract_lets +onlyGivenNames x; subst x) | dsimp only

theorem calFailure_keeps {s₀ : State} (unit : Nat) (phase : Nat) (ofs : Int) (gc : Int) {s : State} (hk : Keeps s₀ s) : Keeps s₀ (calFailure unit phase ofs gc s) := by
  unfold calFailure
  repeat' first
    | (with_reducible first | assumption | apply countEvent_keeps | apply setSlice_keeps | apply retireUnit_keeps) | intro _
    | (extract_lets +onlyGivenNames x; refine (fun (hx : Keeps s₀ x) => ?_) ?_; (clear_value x); rotate_left; subst x) | split | simp only [↓Keeps.upd_iff]
    | (extract_lets +onlyGivenNames x; subst x) | dsimp only

theorem noteTest_keeps {s₀ : State} (unit : Nat) (pass : Bool) {s : State} (hk : Keeps s₀ s) : Keeps s₀ (noteTest unit pass s) := by
  unfold noteTest
  repeat' first
    | assumption | (extract_lets +onlyGivenNames x; refine (fun (hx : Keeps s₀ x) => ?_) ?_; (clear_value x); rotate_left; subst x) | split | simp only [↓Keeps.upd_iff]
    | (extract_lets +onlyGivenNames x; subst x) | dsimp only

theorem endPhase_keeps {s₀ : State} (g : Nat) (m : CalMeas) {s : State} (hk : Keeps s₀ s) : Keeps s₀ (endPhase g m s) := by
  unfold endPhase
  repeat' first
    | (with_reducible first | assumption | apply setGroup_keeps | apply begun_keeps | apply setSlice_keeps | apply beginStep_keeps | apply noteTest_keeps | apply nextSlice_keeps | apply calFailure_keeps)
    | intro _ | (extract_lets +onlyGivenNames x; refine (fun (hx : Keeps s₀ x) => ?_) ?_; (clear_value x); rotate_left; subst x) | split | simp only [↓Keeps.upd_iff]
    | (extract_lets +onlyGivenNames x; subst x) | dsimp only

theorem execCalPhaseEnd_keeps {s₀ : State} (g : BitVec 2) (m : CalMeas) {s : State} (hk : Keeps s₀ s) : OutKeeps s₀ (execCalPhaseEnd g m s) := by
  unfold execCalPhaseEnd
  repeat' first
    | (with_reducible first | assumption | apply setGroup_keeps) | intro _
    | (extract_lets +onlyGivenNames x; refine (fun (hx : Keeps s₀ x) => ?_) ?_; (clear_value x); rotate_left; subst x) | split | simp only [↓Keeps.upd_iff, ↓outKeeps_mk]
    | (extract_lets +onlyGivenNames x; subst x) | dsimp only

theorem calBoundary_keeps {s₀ : State} {s : State} (hk : Keeps s₀ s) : Keeps s₀ (calBoundary s) := by
  unfold calBoundary
  repeat' first
    | (with_reducible first | assumption | apply foldl_keeps | apply endPhase_keeps) | intro _
    | (extract_lets +onlyGivenNames x; refine (fun (hx : Keeps s₀ x) => ?_) ?_; (clear_value x); rotate_left; subst x) | split | simp only [↓Keeps.upd_iff]
    | (extract_lets +onlyGivenNames x; subst x) | dsimp only

theorem bootUnit_keeps {s₀ : State} (l : List SliceCal) {s : State} (u : Nat) (hk : Keeps s₀ s) : Keeps s₀ (bootUnit l s u) := by
  unfold bootUnit
  repeat' first
    | (with_reducible first | assumption | apply setSlice_keeps | apply calFailure_keeps) | intro _
    | (extract_lets +onlyGivenNames x; refine (fun (hx : Keeps s₀ x) => ?_) ?_; (clear_value x); rotate_left; subst x) | split | simp only [↓Keeps.upd_iff]
    | (extract_lets +onlyGivenNames x; subst x) | dsimp only

theorem bootCalibrate_keeps {s₀ : State} (l : List SliceCal) {s : State} (hk : Keeps s₀ s) : Keeps s₀ (bootCalibrate l s) := by
  unfold bootCalibrate
  repeat' first
    | (with_reducible first | assumption | apply foldl_keeps | apply begun_keeps | apply settle_keeps | apply bootUnit_keeps)
    | (extract_lets +onlyGivenNames x; refine (fun (hx : Keeps s₀ x) => ?_) ?_; (clear_value x); rotate_left; subst x) | simp only [↓Keeps.upd_iff]
    | (extract_lets +onlyGivenNames x; subst x) | dsimp only

theorem laneChanged_keeps {s₀ : State} (l : Nat) (old : Bytes) (new : Bytes) (wasParked : Bool) {s : State} (hk : Keeps s₀ s) : Keeps s₀ (laneChanged l old new wasParked s) := by
  unfold laneChanged
  repeat' first
    | (with_reducible first | assumption | apply setAcq_keeps | apply nextSlice_keeps | apply beginStep_keeps) | intro _
    | (extract_lets +onlyGivenNames x; refine (fun (hx : Keeps s₀ x) => ?_) ?_; (clear_value x); rotate_left; subst x) | split | simp only [↓Keeps.upd_iff]
    | (extract_lets +onlyGivenNames x; subst x) | dsimp only

theorem settlePass_keeps {s₀ : State} {s : State} (hk : Keeps s₀ s) : Keeps s₀ (settlePass s) := by
  unfold settlePass
  repeat' first
    | (with_reducible first | assumption | apply setAcq_keeps) | intro _
    | (extract_lets +onlyGivenNames x; refine (fun (hx : Keeps s₀ x) => ?_) ?_; (clear_value x); rotate_left; subst x) | simp only [↓Keeps.upd_iff]
    | (extract_lets +onlyGivenNames x; subst x) | dsimp only

/-! ### AuxConv -/

theorem setAux_keeps {s₀ : State} (f : AuxSt → AuxSt) {s : State} (hk : Keeps s₀ s) : Keeps s₀ (setAux f s) := by
  unfold setAux
  repeat' first
    | assumption | (extract_lets +onlyGivenNames x; refine (fun (hx : Keeps s₀ x) => ?_) ?_; (clear_value x); rotate_left; subst x) | simp only [↓Keeps.upd_iff]
    | (extract_lets +onlyGivenNames x; subst x) | dsimp only

theorem writeSlot_keeps {s₀ : State} (k : Nat) {s : State} (hk : Keeps s₀ s) : Keeps s₀ (writeSlot k s) := by
  unfold writeSlot
  repeat' first
    | (with_reducible first | assumption | apply setAux_keeps | apply memWriteIf_keeps) | intro _
    | (extract_lets +onlyGivenNames x; refine (fun (hx : Keeps s₀ x) => ?_) ?_; (clear_value x); rotate_left; subst x) | split | simp only [↓Keeps.upd_iff]
    | (extract_lets +onlyGivenNames x; subst x) | dsimp only

theorem dropSlot_keeps {s₀ : State} (k : Nat) {s : State} (hk : Keeps s₀ s) : Keeps s₀ (dropSlot k s) := by
  unfold dropSlot
  repeat' first
    | (with_reducible first | assumption | apply setAux_keeps | apply bumpClass_keeps) | intro _
    | (extract_lets +onlyGivenNames x; refine (fun (hx : Keeps s₀ x) => ?_) ?_; (clear_value x); rotate_left; subst x) | split | simp only [↓Keeps.upd_iff]
    | (extract_lets +onlyGivenNames x; subst x) | dsimp only

theorem offerSlot_keeps {s₀ : State} (p6 : Bool) (k : Nat) {s : State} (hk : Keeps s₀ s) : Keeps s₀ (offerSlot p6 k s) := by
  unfold offerSlot
  repeat' first
    | (with_reducible first | assumption | apply setAux_keeps | apply dropSlot_keeps | apply writeSlot_keeps) | intro _
    | (extract_lets +onlyGivenNames x; refine (fun (hx : Keeps s₀ x) => ?_) ?_; (clear_value x); rotate_left; subst x) | split | simp only [↓Keeps.upd_iff]
    | (extract_lets +onlyGivenNames x; subst x) | dsimp only

theorem flushSlots_keeps {s₀ : State} (p6 : Bool) {s : State} (hk : Keeps s₀ s) : Keeps s₀ (flushSlots p6 s) := by
  unfold flushSlots
  repeat' first
    | (with_reducible first | assumption | apply foldl_keeps | apply dropSlot_keeps | apply writeSlot_keeps) | intro _ | split | dsimp only

theorem execAuxSeq_keeps {s₀ : State} (c : Cmd) {s : State} (hk : Keeps s₀ s) : OutKeeps s₀ (execAuxSeq c s) := by
  unfold execAuxSeq
  repeat' first
    | (with_reducible first | assumption | apply command_keeps) | intro _
    | (extract_lets +onlyGivenNames x; refine (fun (hx : Keeps s₀ x) => ?_) ?_; (clear_value x); rotate_left; subst x) | split
    | simp only [↓Keeps.upd_iff, ↓outKeeps_mk, ↓actKeeps_done, ↓actKeeps_boundary, ↓actKeeps_goesOn] | (extract_lets +onlyGivenNames x; subst x) | dsimp only

theorem applyAuxSeq_keeps {s₀ : State} (c : AuxCfg) {s : State} (hk : Keeps s₀ s) : Keeps s₀ (applyAuxSeq c s) := by
  unfold applyAuxSeq
  repeat' first
    | (with_reducible first | assumption | apply setAux_keeps) | intro _
    | (extract_lets +onlyGivenNames x; refine (fun (hx : Keeps s₀ x) => ?_) ?_; (clear_value x); rotate_left; subst x) | split | simp only [↓Keeps.upd_iff]
    | (extract_lets +onlyGivenNames x; subst x) | dsimp only

theorem entryDone_keeps {s₀ : State} (p6 : Bool) {s : State} (hk : Keeps s₀ s) : Keeps s₀ (entryDone p6 s) := by
  unfold entryDone
  repeat' first
    | (with_reducible first | assumption | apply setAux_keeps | apply offerSlot_keeps) | intro _
    | (extract_lets +onlyGivenNames x; refine (fun (hx : Keeps s₀ x) => ?_) ?_; (clear_value x); rotate_left; subst x) | split | simp only [↓Keeps.upd_iff]
    | (extract_lets +onlyGivenNames x; subst x) | dsimp only

theorem auxConverted_keeps {s₀ : State} (v : Nat) (p6 : Bool) {s : State} (hk : Keeps s₀ s) : Keeps s₀ (auxConverted v p6 s) := by
  unfold auxConverted
  repeat' first
    | (with_reducible first | assumption | apply setClk_keeps | apply setAux_keeps | apply entryDone_keeps) | intro _
    | (extract_lets +onlyGivenNames x; refine (fun (hx : Keeps s₀ x) => ?_) ?_; (clear_value x); rotate_left; subst x) | split | simp only [↓Keeps.upd_iff]
    | (extract_lets +onlyGivenNames x; subst x) | dsimp only

theorem execAuxDelayEnd_keeps {s₀ : State} {s : State} (hk : Keeps s₀ s) : OutKeeps s₀ (execAuxDelayEnd s) := by
  unfold execAuxDelayEnd
  repeat' first
    | (with_reducible first | assumption | apply setClk_keeps | apply setAux_keeps) | intro _
    | (extract_lets +onlyGivenNames x; refine (fun (hx : Keeps s₀ x) => ?_) ?_; (clear_value x); rotate_left; subst x) | split | simp only [↓Keeps.upd_iff, ↓outKeeps_mk]
    | (extract_lets +onlyGivenNames x; subst x) | dsimp only

theorem urgentOverrun_keeps {s₀ : State} (k : Nat) {s : State} (hk : Keeps s₀ s) : Keeps s₀ (urgentOverrun k s) := by
  unfold urgentOverrun
  repeat' first
    | (with_reducible first | assumption | apply settle_keeps | apply countEvent_keeps | apply setAux_keeps) | intro _
    | (extract_lets +onlyGivenNames x; refine (fun (hx : Keeps s₀ x) => ?_) ?_; (clear_value x); rotate_left; subst x) | simp only [↓Keeps.upd_iff]
    | (extract_lets +onlyGivenNames x; subst x) | dsimp only

theorem urgentRequest_keeps {s₀ : State} (k : Nat) {s : State} (hk : Keeps s₀ s) : Keeps s₀ (urgentRequest k s) := by
  unfold urgentRequest
  repeat' first
    | (with_reducible first | assumption | apply urgentOverrun_keeps | apply setAux_keeps) | intro _
    | (extract_lets +onlyGivenNames x; refine (fun (hx : Keeps s₀ x) => ?_) ?_; (clear_value x); rotate_left; subst x) | split | simp only [↓Keeps.upd_iff]
    | (extract_lets +onlyGivenNames x; subst x) | dsimp only

theorem execUrgEdge_keeps {s₀ : State} {s : State} (hk : Keeps s₀ s) : OutKeeps s₀ (execUrgEdge s) := by
  unfold execUrgEdge
  repeat' first
    | (with_reducible first | assumption | apply urgentRequest_keeps) | split | simp only [↓outKeeps_mk] | dsimp only

theorem execUrgentConversionDone_keeps {s₀ : State} (x : AuxCode) {s : State} (hk : Keeps s₀ s) : OutKeeps s₀ (execUrgentConversionDone x s) := by
  unfold execUrgentConversionDone
  repeat' first
    | (with_reducible first | assumption | apply setClk_keeps | apply setAux_keeps | apply offerSlot_keeps) | intro _
    | (extract_lets +onlyGivenNames x; refine (fun (hx : Keeps s₀ x) => ?_) ?_; (clear_value x); rotate_left; subst x) | split | simp only [↓Keeps.upd_iff, ↓outKeeps_mk]
    | (extract_lets +onlyGivenNames x; subst x) | dsimp only

/-! ### Dma -/

theorem setDma_keeps {s₀ : State} (f : DmaSt → DmaSt) {s : State} (hk : Keeps s₀ s) : Keeps s₀ (setDma f s) := by
  unfold setDma
  repeat' first
    | assumption | (extract_lets +onlyGivenNames x; refine (fun (hx : Keeps s₀ x) => ?_) ?_; (clear_value x); rotate_left; subst x) | simp only [↓Keeps.upd_iff]
    | (extract_lets +onlyGivenNames x; subst x) | dsimp only

theorem setCh_keeps {s₀ : State} (k : Nat) (f : DmaCh → DmaCh) {s : State} (hk : Keeps s₀ s) : Keeps s₀ (setCh k f s) := by
  unfold setCh
  repeat' first
    | (with_reducible first | assumption | apply setDma_keeps) | intro _
    | (extract_lets +onlyGivenNames x; refine (fun (hx : Keeps s₀ x) => ?_) ?_; (clear_value x); rotate_left; subst x) | simp only [↓Keeps.upd_iff]
    | (extract_lets +onlyGivenNames x; subst x) | dsimp only

theorem dmaPend_keeps {s₀ : State} (k : Nat) (i : Nat) {s : State} (hk : Keeps s₀ s) : Keeps s₀ (dmaPend k i s) := by
  unfold dmaPend
  repeat' first
    | (with_reducible first | assumption | apply setCh_keeps | apply sendMsix_keeps | apply raiseIrq_keeps) | intro _
    | (extract_lets +onlyGivenNames x; refine (fun (hx : Keeps s₀ x) => ?_) ?_; (clear_value x); rotate_left; subst x) | split | simp only [↓Keeps.upd_iff]
    | (extract_lets +onlyGivenNames x; subst x) | dsimp only

theorem dmaHaltsDone_keeps {s₀ : State} {s : State} (hk : Keeps s₀ s) : Keeps s₀ (dmaHaltsDone s) := by
  unfold dmaHaltsDone
  repeat' first
    | (with_reducible first | assumption | apply foldl_keeps | apply finishOpen_keeps | apply setDma_keeps) | intro _
    | (extract_lets +onlyGivenNames x; refine (fun (hx : Keeps s₀ x) => ?_) ?_; (clear_value x); rotate_left; subst x) | simp only [↓Keeps.upd_iff]
    | (extract_lets +onlyGivenNames x; subst x) | dsimp only

theorem dmaHalted_keeps {s₀ : State} (k : Nat) (cause : Nat) {s : State} (hk : Keeps s₀ s) : Keeps s₀ (dmaHalted k cause s) := by
  unfold dmaHalted
  repeat' first
    | (with_reducible first | assumption | apply setCh_keeps | apply dmaPend_keeps | apply postEvent_keeps | apply dmaHaltsDone_keeps) | intro _
    | (extract_lets +onlyGivenNames x; refine (fun (hx : Keeps s₀ x) => ?_) ?_; (clear_value x); rotate_left; subst x) | split | simp only [↓Keeps.upd_iff]
    | (extract_lets +onlyGivenNames x; subst x) | dsimp only

theorem dmaStop_keeps {s₀ : State} (k : Nat) (cause : Nat) (failPos : Option Nat) {s : State} (hk : Keeps s₀ s) : Keeps s₀ (dmaStop k cause failPos s) := by
  unfold dmaStop
  repeat' first
    | (with_reducible first | assumption | apply setCh_keeps) | intro _
    | (extract_lets +onlyGivenNames x; refine (fun (hx : Keeps s₀ x) => ?_) ?_; (clear_value x); rotate_left; subst x) | split | simp only [↓Keeps.upd_iff]
    | (extract_lets +onlyGivenNames x; subst x) | dsimp only

theorem issueBeat_keeps {s₀ : State} (k : Nat) {s : State} (hk : Keeps s₀ s) : OptKeeps s₀ (issueBeat k s) := by
  unfold issueBeat
  repeat' first
    | (with_reducible first | assumption | apply setCh_keeps) | with_reducible exact OptKeeps.none | intro _ | refine OptKeeps.of_eq (by assumption) ?_
    | (extract_lets +onlyGivenNames x; refine (fun (hx : Keeps s₀ x) => ?_) ?_; (clear_value x); rotate_left; subst x) | split | simp only [↓Keeps.upd_iff, ↓optKeeps_some]
    | (extract_lets +onlyGivenNames x; subst x) | dsimp only

theorem issueSlot_keeps {s₀ s : State} (hk : Keeps s₀ s) : OptKeeps s₀ (issueSlot s) := by
  refine findSome_optKeeps (fun p => ?_)
  refine findSome_optKeeps (fun i => ?_)
  dsimp only
  split
  · exact map_optKeeps (fun _ ht => setDma_keeps _ ht) (issueBeat_keeps _ hk)
  · exact OptKeeps.none

theorem issueAll_keeps {s₀ : State} (n : Nat) {s : State} (hk : Keeps s₀ s) : Keeps s₀ (issueAll n s) := by
  induction n generalizing s with
  | zero => exact hk
  | succ n ih =>
    rw [issueAll]
    split
    · exact hk
    · split
      · exact ih (OptKeeps.of_eq (by assumption) (issueSlot_keeps hk))
      · exact hk

theorem dmaRun_keeps {s₀ : State} {s : State} (hk : Keeps s₀ s) : Keeps s₀ (dmaRun s) := by
  unfold dmaRun
  repeat' first
    | (with_reducible first | assumption | apply foldl_keeps | apply issueAll_keeps | apply dmaHalted_keeps) | intro _
    | (extract_lets +onlyGivenNames x; refine (fun (hx : Keeps s₀ x) => ?_) ?_; (clear_value x); rotate_left; subst x) | split | simp only [↓Keeps.upd_iff]
    | (extract_lets +onlyGivenNames x; subst x) | dsimp only

theorem dropOp_keeps {s₀ : State} (k : Nat) (a : DmaAccess) {s : State} (hk : Keeps s₀ s) : Keeps s₀ (dropOp k a s) := by
  unfold dropOp
  repeat' first
    | (with_reducible first | assumption | apply setCh_keeps) | intro _
    | (extract_lets +onlyGivenNames x; refine (fun (hx : Keeps s₀ x) => ?_) ?_; (clear_value x); rotate_left; subst x) | simp only [↓Keeps.upd_iff]
    | (extract_lets +onlyGivenNames x; subst x) | dsimp only

theorem accessFail_keeps {s₀ : State} (k : Nat) (a : DmaAccess) (bus : Bool) {s : State} (hk : Keeps s₀ s) : Keeps s₀ (accessFail k a bus s) := by
  unfold accessFail
  repeat' first
    | (with_reducible first | assumption | apply settle_keeps | apply countEvent_keeps | apply setCh_keeps | apply dmaRun_keeps | apply dmaStop_keeps | apply dropOp_keeps)
    | intro _ | (extract_lets +onlyGivenNames x; refine (fun (hx : Keeps s₀ x) => ?_) ?_; (clear_value x); rotate_left; subst x) | split | simp only [↓Keeps.upd_iff]
    | (extract_lets +onlyGivenNames x; subst x) | dsimp only

theorem dmaAnswer_keeps {s₀ : State} (k : Nat) (a : DmaAccess) (err : Bool) (f : State → State) {s : State} (hf : ∀  t, Keeps s₀ t → Keeps s₀ (f t)) (hk : Keeps s₀ s) : Keeps s₀ (dmaAnswer k a err f s) := by
  unfold dmaAnswer
  repeat' first
    | (with_reducible first | assumption | apply accessFail_keeps | apply dmaRun_keeps | apply dropOp_keeps | apply hf)
    | (extract_lets +onlyGivenNames x; refine (fun (hx : Keeps s₀ x) => ?_) ?_; (clear_value x); rotate_left; subst x) | split | simp only [↓Keeps.upd_iff]
    | (extract_lets +onlyGivenNames x; subst x) | dsimp only

theorem startFetch_keeps {s₀ : State} (k : Nat) (sp : Nat) (a : Nat) {s : State} (hk : Keeps s₀ s) : Keeps s₀ (startFetch k sp a s) := by
  unfold startFetch
  repeat' first
    | (with_reducible first | assumption | apply setCh_keeps) | intro _
    | (extract_lets +onlyGivenNames x; refine (fun (hx : Keeps s₀ x) => ?_) ?_; (clear_value x); rotate_left; subst x) | split | simp only [↓Keeps.upd_iff]
    | (extract_lets +onlyGivenNames x; subst x) | dsimp only

theorem execDmaDescriptorFetched_keeps {s₀ : State} (ch : BitVec 5) (err : Bool) {s : State} (hk : Keeps s₀ s) : OutKeeps s₀ (execDmaDescriptorFetched ch err s) := by
  unfold execDmaDescriptorFetched
  repeat' first
    | (with_reducible first | assumption | apply dmaAnswer_keeps | apply dmaHalted_keeps | apply setCh_keeps) | intro _
    | (extract_lets +onlyGivenNames x; refine (fun (hx : Keeps s₀ x) => ?_) ?_; (clear_value x); rotate_left; subst x) | split | simp only [↓Keeps.upd_iff, ↓outKeeps_mk]
    | (extract_lets +onlyGivenNames x; subst x) | dsimp only

theorem readDone_keeps {s₀ : State} (k : Nat) (pos : Nat) {s : State} (hk : Keeps s₀ s) : Keeps s₀ (readDone k pos s) := by
  unfold readDone
  repeat' first
    | (with_reducible first | assumption | apply setCh_keeps) | intro _
    | (extract_lets +onlyGivenNames x; refine (fun (hx : Keeps s₀ x) => ?_) ?_; (clear_value x); rotate_left; subst x) | split | simp only [↓Keeps.upd_iff]
    | (extract_lets +onlyGivenNames x; subst x) | dsimp only

theorem writeDone_keeps {s₀ : State} (k : Nat) (pos : Nat) {s : State} (hk : Keeps s₀ s) : Keeps s₀ (writeDone k pos s) := by
  unfold writeDone
  repeat' first
    | (with_reducible first | assumption | apply memWrite_keeps | apply setCh_keeps | apply dmaPend_keeps) | intro _
    | (extract_lets +onlyGivenNames x; refine (fun (hx : Keeps s₀ x) => ?_) ?_; (clear_value x); rotate_left; subst x) | split | simp only [↓Keeps.upd_iff]
    | (extract_lets +onlyGivenNames x; subst x) | dsimp only

theorem execDmaBeatDone_keeps {s₀ : State} (ch : BitVec 5) (write : Bool) (pos : Nat) (err : Bool) {s : State} (hk : Keeps s₀ s) : OutKeeps s₀ (execDmaBeatDone ch write pos err s) := by
  unfold execDmaBeatDone
  repeat' first
    | (with_reducible first | assumption | apply dmaAnswer_keeps | apply writeDone_keeps | apply readDone_keeps) | intro _
    | (extract_lets +onlyGivenNames x; refine (fun (hx : Keeps s₀ x) => ?_) ?_; (clear_value x); rotate_left; subst x) | split | simp only [↓outKeeps_mk]
    | (extract_lets +onlyGivenNames x; subst x) | dsimp only

theorem nextDesc_keeps {s₀ : State} (k : Nat) {s : State} (hk : Keeps s₀ s) : Keeps s₀ (nextDesc k s) := by
  unfold nextDesc
  repeat' first
    | (with_reducible first | assumption | apply setCh_keeps | apply dmaHalted_keeps | apply startFetch_keeps) | intro _
    | (extract_lets +onlyGivenNames x; refine (fun (hx : Keeps s₀ x) => ?_) ?_; (clear_value x); rotate_left; subst x) | split | simp only [↓Keeps.upd_iff]
    | (extract_lets +onlyGivenNames x; subst x) | dsimp only

theorem execDmaWriteback_keeps {s₀ : State} (ch : BitVec 5) (err : Bool) {s : State} (hk : Keeps s₀ s) : OutKeeps s₀ (execDmaWriteback ch err s) := by
  unfold execDmaWriteback
  repeat' first
    | (with_reducible first | assumption | apply dmaAnswer_keeps | apply memWrite_keeps | apply nextDesc_keeps | apply dmaPend_keeps) | intro _
    | (extract_lets +onlyGivenNames x; refine (fun (hx : Keeps s₀ x) => ?_) ?_; (clear_value x); rotate_left; subst x) | split | simp only [↓outKeeps_mk]
    | (extract_lets +onlyGivenNames x; subst x) | dsimp only

theorem execDmaAccessTimeout_keeps {s₀ : State} (ch : BitVec 5) (a : DmaAccess) {s : State} (hk : Keeps s₀ s) : OutKeeps s₀ (execDmaAccessTimeout ch a s) := by
  unfold execDmaAccessTimeout
  repeat' first
    | (with_reducible first | assumption | apply accessFail_keeps | apply setClk_keeps)
    | (extract_lets +onlyGivenNames x; refine (fun (hx : Keeps s₀ x) => ?_) ?_; (clear_value x); rotate_left; subst x) | split | simp only [↓Keeps.upd_iff, ↓outKeeps_mk]
    | (extract_lets +onlyGivenNames x; subst x) | dsimp only

theorem execDmaAccessRetry_keeps {s₀ : State} (ch : BitVec 5) (a : DmaAccess) {s : State} (hk : Keeps s₀ s) : OutKeeps s₀ (execDmaAccessRetry ch a s) := by
  unfold execDmaAccessRetry
  repeat' first
    | (with_reducible first | assumption | apply setClk_keeps | apply setCh_keeps) | intro _
    | (extract_lets +onlyGivenNames x; refine (fun (hx : Keeps s₀ x) => ?_) ?_; (clear_value x); rotate_left; subst x) | split | simp only [↓Keeps.upd_iff, ↓outKeeps_mk]
    | (extract_lets +onlyGivenNames x; subst x) | dsimp only

theorem execDmaPacePoll_keeps {s₀ : State} (ch : BitVec 5) (err : Bool) {s : State} (hk : Keeps s₀ s) : OutKeeps s₀ (execDmaPacePoll ch err s) := by
  unfold execDmaPacePoll
  repeat' first
    | (with_reducible first | assumption | apply setClk_keeps | apply setCh_keeps | apply dmaAnswer_keeps) | intro _
    | (extract_lets +onlyGivenNames x; refine (fun (hx : Keeps s₀ x) => ?_) ?_; (clear_value x); rotate_left; subst x) | split | simp only [↓Keeps.upd_iff, ↓outKeeps_mk]
    | (extract_lets +onlyGivenNames x; subst x) | dsimp only

theorem execDmaStart_keeps {s₀ : State} (c : Cmd) {s : State} (hk : Keeps s₀ s) : OutKeeps s₀ (execDmaStart c s) := by
  unfold execDmaStart
  repeat' first
    | (with_reducible first | assumption | apply command_keeps | apply setCh_keeps | apply startFetch_keeps) | intro _
    | (extract_lets +onlyGivenNames x; refine (fun (hx : Keeps s₀ x) => ?_) ?_; (clear_value x); rotate_left; subst x) | split
    | simp only [↓outKeeps_mk, ↓actKeeps_done, ↓actKeeps_boundary, ↓actKeeps_goesOn] | (extract_lets +onlyGivenNames x; subst x) | dsimp only

theorem execDmaHalt_keeps {s₀ : State} (c : Cmd) {s : State} (hk : Keeps s₀ s) : OutKeeps s₀ (execDmaHalt c s) := by
  unfold execDmaHalt
  repeat' first
    | (with_reducible first | assumption | apply foldl_keeps | apply dmaRun_keeps | apply command_keeps | apply setDma_keeps | apply dmaStop_keeps | apply queuedEntry_keeps)
    | intro _ | (extract_lets +onlyGivenNames x; refine (fun (hx : Keeps s₀ x) => ?_) ?_; (clear_value x); rotate_left; subst x) | split
    | simp only [↓Keeps.upd_iff, ↓outKeeps_mk, ↓actKeeps_done, ↓actKeeps_boundary, ↓actKeeps_goesOn] | (extract_lets +onlyGivenNames x; subst x) | dsimp only

theorem execDmaStat_keeps {s₀ : State} (c : Cmd) {s : State} (hk : Keeps s₀ s) : OutKeeps s₀ (execDmaStat c s) := by
  unfold execDmaStat
  repeat' first
    | (with_reducible first | assumption | apply foldl_keeps | apply command_keeps | apply setCh_keeps) | intro _
    | (extract_lets +onlyGivenNames x; refine (fun (hx : Keeps s₀ x) => ?_) ?_; (clear_value x); rotate_left; subst x) | split
    | simp only [↓Keeps.upd_iff, ↓outKeeps_mk, ↓actKeeps_done, ↓actKeeps_boundary, ↓actKeeps_goesOn] | (extract_lets +onlyGivenNames x; subst x) | dsimp only

theorem dmaRestart_keeps {s₀ : State} {s : State} (hk : Keeps s₀ s) : Keeps s₀ (dmaRestart s) := by
  unfold dmaRestart
  repeat' first
    | (with_reducible first | assumption | apply foldl_keeps | apply dmaRun_keeps | apply dmaStop_keeps | apply setDma_keeps) | intro _
    | (extract_lets +onlyGivenNames x; refine (fun (hx : Keeps s₀ x) => ?_) ?_; (clear_value x); rotate_left; subst x) | split | simp only [↓Keeps.upd_iff]
    | (extract_lets +onlyGivenNames x; subst x) | dsimp only

/-! ### Chain -/

theorem setFilt_keeps {s₀ : State} (f : FiltSt → FiltSt) {s : State} (hk : Keeps s₀ s) : Keeps s₀ (setFilt f s) := by
  unfold setFilt
  repeat' first
    | assumption | (extract_lets +onlyGivenNames x; refine (fun (hx : Keeps s₀ x) => ?_) ?_; (clear_value x); rotate_left; subst x) | simp only [↓Keeps.upd_iff]
    | (extract_lets +onlyGivenNames x; subst x) | dsimp only

theorem setChain_keeps {s₀ : State} (c : Nat) (f : ChainSt → ChainSt) {s : State} (hk : Keeps s₀ s) : Keeps s₀ (setChain c f s) := by
  unfold setChain
  repeat' first
    | (with_reducible first | assumption | apply setFilt_keeps) | intro _
    | (extract_lets +onlyGivenNames x; refine (fun (hx : Keeps s₀ x) => ?_) ?_; (clear_value x); rotate_left; subst x) | simp only [↓Keeps.upd_iff]
    | (extract_lets +onlyGivenNames x; subst x) | dsimp only

theorem syncReset_keeps {s₀ : State} (p : Nat → Bool) {s : State} (hk : Keeps s₀ s) : Keeps s₀ (syncReset p s) := by
  unfold syncReset
  repeat' first
    | (with_reducible first | assumption | apply setFilt_keeps) | intro _
    | (extract_lets +onlyGivenNames x; refine (fun (hx : Keeps s₀ x) => ?_) ?_; (clear_value x); rotate_left; subst x) | split | simp only [↓Keeps.upd_iff]
    | (extract_lets +onlyGivenNames x; subst x) | dsimp only

theorem markLane_keeps {s₀ : State} (l : Nat) (m : List Bool) {s : State} (hk : Keeps s₀ s) : Keeps s₀ (markLane l m s) := by
  unfold markLane
  repeat' first
    | (with_reducible first | assumption | apply setFilt_keeps) | intro _
    | (extract_lets +onlyGivenNames x; refine (fun (hx : Keeps s₀ x) => ?_) ?_; (clear_value x); rotate_left; subst x) | simp only [↓Keeps.upd_iff]
    | (extract_lets +onlyGivenNames x; subst x) | dsimp only

theorem markDelays_keeps {s₀ : State} {was : State} {s : State} (hwas : Keeps s₀ was) (hk : Keeps s₀ s) : Keeps s₀ (markDelays was s) := by
  unfold markDelays
  repeat' first
    | (with_reducible first | assumption | apply foldl_keeps | apply markLane_keeps) | intro _
    | (extract_lets +onlyGivenNames x; refine (fun (hx : Keeps s₀ x) => ?_) ?_; (clear_value x); rotate_left; subst x) | split | (extract_lets +onlyGivenNames x; subst x)
    | dsimp only

theorem execFiltStop_keeps {s₀ : State} (c : Cmd) {s : State} (hk : Keeps s₀ s) : OutKeeps s₀ (execFiltStop c s) := by
  unfold execFiltStop
  repeat' first
    | (with_reducible first | assumption | apply command_keeps) | intro _ | split | simp only [↓outKeeps_mk, ↓actKeeps_done, ↓actKeeps_boundary, ↓actKeeps_goesOn] | dsimp only

theorem startChain_keeps {s₀ : State} (c : Nat) (t12 : Bool) {s : State} (hk : Keeps s₀ s) : Keeps s₀ (startChain c t12 s) := by
  unfold startChain
  repeat' first
    | (with_reducible first | assumption | apply syncReset_keeps | apply setChain_keeps) | intro _
    | (extract_lets +onlyGivenNames x; refine (fun (hx : Keeps s₀ x) => ?_) ?_; (clear_value x); rotate_left; subst x) | simp only [↓Keeps.upd_iff]
    | (extract_lets +onlyGivenNames x; subst x) | dsimp only

theorem applyFiltStop_keeps {s₀ : State} (c : Nat) {s : State} (hk : Keeps s₀ s) : Keeps s₀ (applyFiltStop c s) := by
  unfold applyFiltStop
  repeat' first
    | (with_reducible first | assumption | apply setFilt_keeps | apply setChain_keeps) | intro _
    | (extract_lets +onlyGivenNames x; refine (fun (hx : Keeps s₀ x) => ?_) ?_; (clear_value x); rotate_left; subst x) | split | simp only [↓Keeps.upd_iff]
    | (extract_lets +onlyGivenNames x; subst x) | dsimp only

theorem execFiltCoef_keeps {s₀ : State} (c : Cmd) {s : State} (hk : Keeps s₀ s) : OutKeeps s₀ (execFiltCoef c s) := by
  unfold execFiltCoef
  repeat' first
    | (with_reducible first | assumption | apply foldl_keeps | apply command_keeps | apply setChain_keeps) | intro _
    | (extract_lets +onlyGivenNames x; refine (fun (hx : Keeps s₀ x) => ?_) ?_; (clear_value x); rotate_left; subst x) | split
    | simp only [↓Keeps.upd_iff, ↓outKeeps_mk, ↓actKeeps_done, ↓actKeeps_boundary, ↓actKeeps_goesOn] | (extract_lets +onlyGivenNames x; subst x) | dsimp only

/-! ### Net -/

theorem setNet_keeps {s₀ : State} (f : NetSt → NetSt) {s : State} (hk : Keeps s₀ s) : Keeps s₀ (setNet f s) := by
  unfold setNet
  repeat' first
    | assumption | (extract_lets +onlyGivenNames x; refine (fun (hx : Keeps s₀ x) => ?_) ?_; (clear_value x); rotate_left; subst x) | simp only [↓Keeps.upd_iff]
    | (extract_lets +onlyGivenNames x; subst x) | dsimp only

theorem setNetPort_keeps {s₀ : State} (p : Nat) (f : NetPort → NetPort) {s : State} (hk : Keeps s₀ s) : Keeps s₀ (setNetPort p f s) := by
  unfold setNetPort
  repeat' first
    | (with_reducible first | assumption | apply setNet_keeps) | intro _
    | (extract_lets +onlyGivenNames x; refine (fun (hx : Keeps s₀ x) => ?_) ?_; (clear_value x); rotate_left; subst x) | simp only [↓Keeps.upd_iff]
    | (extract_lets +onlyGivenNames x; subst x) | dsimp only

theorem loadPortSet_keeps {s₀ : State} (c : Cmd) {s : State} (hk : Keeps s₀ s) : ActKeeps s₀ (loadPortSet c s) := by
  unfold loadPortSet
  repeat' first
    | assumption | refine ActKeeps.of_done (by assumption) ?_ | refine ActKeeps.of_boundary (by assumption) ?_ | refine ActKeeps.of_goesOn (by assumption) ?_
    | (extract_lets +onlyGivenNames x; refine (fun (hx : Keeps s₀ x) => ?_) ?_; (clear_value x); rotate_left; subst x) | split
    | simp only [↓Keeps.upd_iff, ↓actKeeps_done, ↓actKeeps_boundary, ↓actKeeps_goesOn] | (extract_lets +onlyGivenNames x; subst x) | dsimp only

theorem applyPortSet_keeps {s₀ : State} (b : Bytes) {s : State} (hk : Keeps s₀ s) : Keeps s₀ (applyPortSet b s) := by
  unfold applyPortSet
  repeat' first
    | (with_reducible first | assumption | apply setNet_keeps) | intro _
    | (extract_lets +onlyGivenNames x; refine (fun (hx : Keeps s₀ x) => ?_) ?_; (clear_value x); rotate_left; subst x) | split | simp only [↓Keeps.upd_iff]
    | (extract_lets +onlyGivenNames x; subst x) | dsimp only

theorem losePortCause_keeps {s₀ : State} (p : Nat) {s : State} (hk : Keeps s₀ s) : Keeps s₀ (losePortCause p s) := by
  unfold losePortCause
  repeat' first
    | (with_reducible first | assumption | apply raiseDeg_keeps | apply setNetPort_keeps) | intro _
    | (extract_lets +onlyGivenNames x; refine (fun (hx : Keeps s₀ x) => ?_) ?_; (clear_value x); rotate_left; subst x) | simp only [↓Keeps.upd_iff]
    | (extract_lets +onlyGivenNames x; subst x) | dsimp only

theorem portError_keeps {s₀ : State} (p : Nat) {s : State} (hk : Keeps s₀ s) : Keeps s₀ (portError p s) := by
  unfold portError
  repeat' first
    | (with_reducible first | assumption | apply setNetPort_keeps | apply countEvent_keeps | apply losePortCause_keeps | apply postEvent_keeps) | intro _
    | (extract_lets +onlyGivenNames x; refine (fun (hx : Keeps s₀ x) => ?_) ?_; (clear_value x); rotate_left; subst x) | split | simp only [↓Keeps.upd_iff]
    | (extract_lets +onlyGivenNames x; subst x) | dsimp only

theorem trackCopy_keeps {s₀ : State} (port : Nat) (src : Nat) (seq : Option (BitVec 16)) {s : State} (hk : Keeps s₀ s) : Keeps s₀ (trackCopy port src seq s) := by
  unfold trackCopy
  repeat' first
    | (with_reducible first | assumption | apply setNet_keeps) | intro _
    | (extract_lets +onlyGivenNames x; refine (fun (hx : Keeps s₀ x) => ?_) ?_; (clear_value x); rotate_left; subst x) | split | simp only [↓Keeps.upd_iff]
    | (extract_lets +onlyGivenNames x; subst x) | dsimp only

theorem takeIn_keeps {s₀ : State} (h : FrameHead) {s : State} (hk : Keeps s₀ s) : OptKeeps s₀ (takeIn h s) := by
  unfold takeIn
  repeat' first
    | (with_reducible first | assumption | apply setClk_keeps | apply trackCopy_keeps) | with_reducible exact OptKeeps.none | refine OptKeeps.of_eq (by assumption) ?_
    | (extract_lets +onlyGivenNames x; refine (fun (hx : Keeps s₀ x) => ?_) ?_; (clear_value x); rotate_left; subst x) | split | simp only [↓Keeps.upd_iff, ↓optKeeps_some]
    | (extract_lets +onlyGivenNames x; subst x) | dsimp only

theorem dedup_keeps {s₀ : State} (h : FrameHead) {s : State} (hk : Keeps s₀ s) : SndKeeps s₀ (dedup h s) := by
  unfold dedup
  repeat' first
    | (with_reducible first | assumption | apply setNet_keeps) | intro _ | refine SndKeeps.of_eq (by assumption) ?_
    | (extract_lets +onlyGivenNames x; refine (fun (hx : Keeps s₀ x) => ?_) ?_; (clear_value x); rotate_left; subst x) | split | simp only [↓Keeps.upd_iff, ↓sndKeeps_mk]
    | (extract_lets +onlyGivenNames x; subst x) | dsimp only

theorem dedup_keeps_snd {s₀ : State} (h : FrameHead) {s : State} (hk : Keeps s₀ s) : Keeps s₀ (dedup h s).2 := dedup_keeps _ hk

theorem countNoMatch_keeps {s₀ : State} (p : Nat) {s : State} (hk : Keeps s₀ s) : Keeps s₀ (countNoMatch p s) := by
  unfold countNoMatch
  repeat' first
    | (with_reducible first | assumption | apply setNetPort_keeps) | intro _
    | (extract_lets +onlyGivenNames x; refine (fun (hx : Keeps s₀ x) => ?_) ?_; (clear_value x); rotate_left; subst x) | simp only [↓Keeps.upd_iff]
    | (extract_lets +onlyGivenNames x; subst x) | dsimp only

theorem putFrame_keeps {s₀ : State} (f : TxFrame) {s : State} (hk : Keeps s₀ s) : Keeps s₀ (putFrame f s) := by
  unfold putFrame
  repeat' first
    | assumption | (extract_lets +onlyGivenNames x; refine (fun (hx : Keeps s₀ x) => ?_) ?_; (clear_value x); rotate_left; subst x) | simp only [↓Keeps.upd_iff]
    | (extract_lets +onlyGivenNames x; subst x) | dsimp only

theorem sendFrame_keeps {s₀ : State} (pair : Nat) (f : TxFrame) {s : State} (hk : Keeps s₀ s) : Keeps s₀ (sendFrame pair f s) := by
  unfold sendFrame
  repeat' first
    | (with_reducible first | assumption | apply putFrame_keeps | apply setNet_keeps) | intro _
    | (extract_lets +onlyGivenNames x; refine (fun (hx : Keeps s₀ x) => ?_) ?_; (clear_value x); rotate_left; subst x) | split | simp only [↓Keeps.upd_iff]
    | (extract_lets +onlyGivenNames x; subst x) | dsimp only

theorem execDiscardedFrameRx_keeps {s₀ : State} (port : BitVec 2) (src : BitVec 48) (why : Discard) {s : State} (hk : Keeps s₀ s) : OutKeeps s₀ (execDiscardedFrameRx port src why s) := by
  unfold execDiscardedFrameRx
  repeat' first
    | (with_reducible first | assumption | apply putFrame_keeps | apply trackCopy_keeps | apply settle_keeps | apply portError_keeps | apply setNetPort_keeps | apply countNoMatch_keeps)
    | intro _ | (extract_lets +onlyGivenNames x; refine (fun (hx : Keeps s₀ x) => ?_) ?_; (clear_value x); rotate_left; subst x) | split | simp only [↓Keeps.upd_iff, ↓outKeeps_mk]
    | (extract_lets +onlyGivenNames x; subst x) | dsimp only

theorem execLinkDown_keeps {s₀ : State} (port : BitVec 2) {s : State} (hk : Keeps s₀ s) : OutKeeps s₀ (execLinkDown port s) := by
  unfold execLinkDown
  repeat' first
    | (with_reducible first | assumption | apply losePortCause_keeps | apply setNetPort_keeps) | intro _
    | (extract_lets +onlyGivenNames x; refine (fun (hx : Keeps s₀ x) => ?_) ?_; (clear_value x); rotate_left; subst x) | split | simp only [↓Keeps.upd_iff, ↓outKeeps_mk]
    | (extract_lets +onlyGivenNames x; subst x) | dsimp only

theorem execLinkUp_keeps {s₀ : State} (port : BitVec 2) {s : State} (hk : Keeps s₀ s) : OutKeeps s₀ (execLinkUp port s) := by
  unfold execLinkUp
  repeat' first
    | (with_reducible first | assumption | apply setNetPort_keeps) | intro _
    | (extract_lets +onlyGivenNames x; refine (fun (hx : Keeps s₀ x) => ?_) ?_; (clear_value x); rotate_left; subst x) | split | simp only [↓Keeps.upd_iff, ↓outKeeps_mk]
    | (extract_lets +onlyGivenNames x; subst x) | dsimp only

theorem execPortRecovered_keeps {s₀ : State} (port : BitVec 2) {s : State} (hk : Keeps s₀ s) : OutKeeps s₀ (execPortRecovered port s) := by
  unfold execPortRecovered
  repeat' first
    | (with_reducible first | assumption | apply setClk_keeps | apply clearLasting_keeps | apply setNetPort_keeps | apply clearDeg_keeps) | intro _
    | (extract_lets +onlyGivenNames x; refine (fun (hx : Keeps s₀ x) => ?_) ?_; (clear_value x); rotate_left; subst x) | split | simp only [↓Keeps.upd_iff, ↓outKeeps_mk]
    | (extract_lets +onlyGivenNames x; subst x) | dsimp only

theorem execPrpSupervisionTx_keeps {s₀ : State} (pair : BitVec 1) {s : State} (hk : Keeps s₀ s) : OutKeeps s₀ (execPrpSupervisionTx pair s) := by
  unfold execPrpSupervisionTx
  repeat' first
    | (with_reducible first | assumption | apply setClk_keeps | apply sendFrame_keeps | apply setNet_keeps) | intro _
    | (extract_lets +onlyGivenNames x; refine (fun (hx : Keeps s₀ x) => ?_) ?_; (clear_value x); rotate_left; subst x) | split | simp only [↓Keeps.upd_iff, ↓outKeeps_mk]
    | (extract_lets +onlyGivenNames x; subst x) | dsimp only

theorem execPrpSupervisionRx_keeps {s₀ : State} (h : FrameHead) {s : State} (hk : Keeps s₀ s) : OutKeeps s₀ (execPrpSupervisionRx h s) := by
  unfold execPrpSupervisionRx
  repeat' first
    | (with_reducible first | assumption | apply takeIn_keeps | apply dedup_keeps | apply dedup_keeps_snd | apply setNet_keeps) | intro _ | refine SndKeeps.of_eq (by assumption) ?_
    | refine OptKeeps.of_eq (by assumption) ?_ | (extract_lets +onlyGivenNames x; refine (fun (hx : Keeps s₀ x) => ?_) ?_; (clear_value x); rotate_left; subst x) | split
    | simp only [↓Keeps.upd_iff, ↓sndKeeps_mk, ↓outKeeps_mk, ↓optKeeps_some] | (extract_lets +onlyGivenNames x; subst x) | dsimp only

theorem execNodeForget_keeps {s₀ : State} (pair : BitVec 1) (src : BitVec 48) {s : State} (hk : Keeps s₀ s) : OutKeeps s₀ (execNodeForget pair src s) := by
  unfold execNodeForget
  repeat' first
    | (with_reducible first | assumption | apply setNet_keeps | apply setClk_keeps) | intro _
    | (extract_lets +onlyGivenNames x; refine (fun (hx : Keeps s₀ x) => ?_) ?_; (clear_value x); rotate_left; subst x) | split | simp only [↓Keeps.upd_iff, ↓outKeeps_mk]
    | (extract_lets +onlyGivenNames x; subst x) | dsimp only

theorem execDuplicateEntryForget_keeps {s₀ : State} (pair : BitVec 1) (src : BitVec 48) (seq : BitVec 16) {s : State} (hk : Keeps s₀ s) : OutKeeps s₀ (execDuplicateEntryForget pair src seq s) := by
  unfold execDuplicateEntryForget
  repeat' first
    | (with_reducible first | assumption | apply setClk_keeps | apply setNet_keeps | apply settle_keeps | apply portError_keeps | apply setNetPort_keeps) | intro _
    | (extract_lets +onlyGivenNames x; refine (fun (hx : Keeps s₀ x) => ?_) ?_; (clear_value x); rotate_left; subst x) | split | simp only [↓Keeps.upd_iff, ↓outKeeps_mk]
    | (extract_lets +onlyGivenNames x; subst x) | dsimp only

end Sys2Proof.Machine.Laws
end

