-- ==== Sys2Proof/Laws/KeepsProt.lean ====
section
/-! SUPPORT. One lemma per operation of subscriptions, plausibility, logic, the protection cycle and the trip outputs, named after it: it keeps what Keeps says. -/

namespace Sys2Proof.Machine.Laws
open Sys2Proof.Machine

set_option Elab.async false

/-! ### Sv -/

theorem setSv_keeps {s₀ : State} (k : Nat) (f : SvCtx → SvCtx) {s : State} (hk : Keeps s₀ s) : Keeps s₀ (setSv k f s) := by
  unfold setSv
  repeat' first
    | (with_reducible first | assumption | apply setNet_keeps) | intro _
    | (extract_lets +onlyGivenNames x; refine (fun (hx : Keeps s₀ x) => ?_) ?_; (clear_value x); rotate_left; subst x) | simp only [↓Keeps.upd_iff]
    | (extract_lets +onlyGivenNames x; subst x) | dsimp only

theorem svLossEvent_keeps {s₀ : State} (k : Nat) {s : State} (hk : Keeps s₀ s) : Keeps s₀ (svLossEvent k s) := by
  unfold svLossEvent
  repeat' first
    | (with_reducible first | assumption | apply countEvent_keeps | apply postEvent_keeps)
    | (extract_lets +onlyGivenNames x; refine (fun (hx : Keeps s₀ x) => ?_) ?_; (clear_value x); rotate_left; subst x) | split | (extract_lets +onlyGivenNames x; subst x)
    | dsimp only

theorem svMissOne_keeps {s₀ : State} (k : Nat) {s : State} (hk : Keeps s₀ s) : Keeps s₀ (svMissOne k s) := by
  unfold svMissOne
  repeat' first
    | (with_reducible first | assumption | apply setSv_keeps | apply svLossEvent_keeps)
    | (extract_lets +onlyGivenNames x; refine (fun (hx : Keeps s₀ x) => ?_) ?_; (clear_value x); rotate_left; subst x) | split | (extract_lets +onlyGivenNames x; subst x)
    | dsimp only

theorem svMiss_keeps {s₀ : State} (k n : Nat) {s : State} (hk : Keeps s₀ s) : Keeps s₀ (svMiss k n s) := by
  induction n generalizing s with
  | zero => exact hk
  | succ n ih => exact ih (svMissOne_keeps _ hk)

theorem svDiscard_keeps {s₀ : State} (k : Nat) (cnt : Nat) {s : State} (hk : Keeps s₀ s) : Keeps s₀ (svDiscard k cnt s) := by
  unfold svDiscard
  repeat' first
    | (with_reducible first | assumption | apply svLossEvent_keeps | apply setSv_keeps) | intro _
    | (extract_lets +onlyGivenNames x; refine (fun (hx : Keeps s₀ x) => ?_) ?_; (clear_value x); rotate_left; subst x) | split | simp only [↓Keeps.upd_iff]
    | (extract_lets +onlyGivenNames x; subst x) | dsimp only

theorem svEntryChanged_keeps {s₀ : State} (k : Nat) (old : Bytes) (new : Bytes) {s : State} (hk : Keeps s₀ s) : Keeps s₀ (svEntryChanged k old new s) := by
  unfold svEntryChanged
  extract_lets on
  clear_value on
  exact Keeps.ite (Keeps.ite (setSv_keeps _ _ hk) hk) (Keeps.ite hk (setSv_keeps _ _ hk))

theorem svSlot_keeps {s₀ : State} (k : Nat) (msTai : Nat) (len : Nat) {s : State} (hk : Keeps s₀ s) : Keeps s₀ (svSlot k msTai len s) := by
  unfold svSlot
  repeat' first
    | (with_reducible first | assumption | apply svMiss_keeps | apply setSv_keeps) | intro _
    | (extract_lets +onlyGivenNames x; refine (fun (hx : Keeps s₀ x) => ?_) ?_; (clear_value x); rotate_left; subst x) | split | simp only [↓Keeps.upd_iff]
    | (extract_lets +onlyGivenNames x; subst x) | dsimp only

theorem svCatchUp_keeps {s₀ : State} (k n : Nat) {s : State} (hk : Keeps s₀ s) : Keeps s₀ (svCatchUp k n s) := by
  induction n generalizing s with
  | zero => exact hk
  | succ n ih => exact Keeps.ite (ih (svSlot_keeps _ _ _ hk)) hk

theorem svFinish_keeps {s₀ : State} (k msTai len n : Nat) {s : State} (hk : Keeps s₀ s) : Keeps s₀ (svFinish k msTai len n s) := by
  induction n generalizing s with
  | zero => exact hk
  | succ n ih => exact Keeps.ite (ih (svSlot_keeps _ _ _ hk)) hk

theorem svResample_keeps {s₀ : State} (k : Nat) (msTai : Nat) (len : Nat) {s : State} (hk : Keeps s₀ s) : Keeps s₀ (svResample k msTai len s) := by
  unfold svResample
  repeat' first
    | (with_reducible first | assumption | apply setSv_keeps | apply svFinish_keeps) | intro _
    | (extract_lets +onlyGivenNames x; refine (fun (hx : Keeps s₀ x) => ?_) ?_; (clear_value x); rotate_left; subst x) | split | simp only [↓Keeps.upd_iff]
    | (extract_lets +onlyGivenNames x; subst x) | dsimp only

theorem svBoundary_keeps {s₀ : State} (msTai : Nat) (len : Nat) {s : State} (hk : Keeps s₀ s) : Keeps s₀ (svBoundary msTai len s) := by
  unfold svBoundary
  repeat' first
    | (with_reducible first | assumption | apply foldl_keeps | apply svResample_keeps | apply setNet_keeps) | intro _
    | (extract_lets +onlyGivenNames x; refine (fun (hx : Keeps s₀ x) => ?_) ?_; (clear_value x); rotate_left; subst x) | split | simp only [↓Keeps.upd_iff]
    | (extract_lets +onlyGivenNames x; subst x) | dsimp only

theorem svAsdu_keeps {s₀ : State} (k : Nat) (sim : Bool) (rx : Int) (n : Nat) (i : Nat) (a : SvAsdu) {s : State} (hk : Keeps s₀ s) : Keeps s₀ (svAsdu k sim rx n i a s) := by
  unfold svAsdu
  repeat' first
    | (with_reducible first | assumption | apply setSv_keeps | apply svDiscard_keeps | apply svMiss_keeps) | intro _
    | (extract_lets +onlyGivenNames x; refine (fun (hx : Keeps s₀ x) => ?_) ?_; (clear_value x); rotate_left; subst x) | split | simp only [↓Keeps.upd_iff]
    | (extract_lets +onlyGivenNames x; subst x) | dsimp only

theorem svDeliver_keeps {s₀ : State} (k : Nat) (f : SvFrame) {s : State} (hk : Keeps s₀ s) : Keeps s₀ (svDeliver k f s) := by
  unfold svDeliver
  repeat' first
    | (with_reducible first | assumption | apply foldl_keeps | apply setSv_keeps | apply svAsdu_keeps) | intro _
    | (extract_lets +onlyGivenNames x; refine (fun (hx : Keeps s₀ x) => ?_) ?_; (clear_value x); rotate_left; subst x) | split | simp only [↓Keeps.upd_iff]
    | (extract_lets +onlyGivenNames x; subst x) | dsimp only

theorem execSvFrameRx_keeps {s₀ : State} (f : SvFrame) {s : State} (hk : Keeps s₀ s) : OutKeeps s₀ (execSvFrameRx f s) := by
  unfold execSvFrameRx
  repeat' first
    | (with_reducible first | assumption | apply takeIn_keeps | apply countNoMatch_keeps | apply settle_keeps | apply svLossEvent_keeps | apply setSv_keeps | apply dedup_keeps | apply dedup_keeps_snd | apply svDeliver_keeps | apply svCatchUp_keeps)
    | intro _ | refine SndKeeps.of_eq (by assumption) ?_ | refine OptKeeps.of_eq (by assumption) ?_
    | (extract_lets +onlyGivenNames x; refine (fun (hx : Keeps s₀ x) => ?_) ?_; (clear_value x); rotate_left; subst x) | split
    | simp only [↓Keeps.upd_iff, ↓sndKeeps_mk, ↓outKeeps_mk, ↓optKeeps_some] | (extract_lets +onlyGivenNames x; subst x) | dsimp only

theorem execSvSampleDeadline_keeps {s₀ : State} (ctx : BitVec 8) {s : State} (hk : Keeps s₀ s) : OutKeeps s₀ (execSvSampleDeadline ctx s) := by
  unfold execSvSampleDeadline
  repeat' first
    | (with_reducible first | assumption | apply svCatchUp_keeps | apply setClk_keeps | apply settle_keeps | apply svMiss_keeps)
    | (extract_lets +onlyGivenNames x; refine (fun (hx : Keeps s₀ x) => ?_) ?_; (clear_value x); rotate_left; subst x) | split | simp only [↓Keeps.upd_iff, ↓outKeeps_mk]
    | (extract_lets +onlyGivenNames x; subst x) | dsimp only

theorem svShift_keeps {s₀ : State} (d : Int) {s : State} (hk : Keeps s₀ s) : Keeps s₀ (svShift d s) := by
  unfold svShift
  repeat' first
    | (with_reducible first | assumption | apply setNet_keeps) | intro _
    | (extract_lets +onlyGivenNames x; refine (fun (hx : Keeps s₀ x) => ?_) ?_; (clear_value x); rotate_left; subst x) | simp only [↓Keeps.upd_iff]
    | (extract_lets +onlyGivenNames x; subst x) | dsimp only

theorem execSvSyncLossTimeout_keeps {s₀ : State} (ctx : BitVec 8) {s : State} (hk : Keeps s₀ s) : OutKeeps s₀ (execSvSyncLossTimeout ctx s) := by
  unfold execSvSyncLossTimeout
  repeat' first
    | (with_reducible first | assumption | apply setSv_keeps | apply svCatchUp_keeps | apply setClk_keeps) | intro _
    | (extract_lets +onlyGivenNames x; refine (fun (hx : Keeps s₀ x) => ?_) ?_; (clear_value x); rotate_left; subst x) | split | simp only [↓Keeps.upd_iff, ↓outKeeps_mk]
    | (extract_lets +onlyGivenNames x; subst x) | dsimp only

theorem loadSvPub_keeps {s₀ : State} (c : Cmd) {s : State} (hk : Keeps s₀ s) : ActKeeps s₀ (loadSvPub c s) := by
  unfold loadSvPub
  repeat' first
    | assumption | refine ActKeeps.of_done (by assumption) ?_ | refine ActKeeps.of_boundary (by assumption) ?_ | refine ActKeeps.of_goesOn (by assumption) ?_
    | (extract_lets +onlyGivenNames x; refine (fun (hx : Keeps s₀ x) => ?_) ?_; (clear_value x); rotate_left; subst x) | split
    | simp only [↓Keeps.upd_iff, ↓actKeeps_done, ↓actKeeps_boundary, ↓actKeeps_goesOn] | (extract_lets +onlyGivenNames x; subst x) | dsimp only

theorem svPubAct_keeps {s₀ : State} (c : Cmd) {s : State} (hk : Keeps s₀ s) : ActKeeps s₀ (svPubAct c s) := by
  unfold svPubAct
  repeat' first
    | (with_reducible first | assumption | apply loadPortSet_keeps | apply loadSvPub_keeps) | refine ActKeeps.of_done (by assumption) ?_
    | refine ActKeeps.of_boundary (by assumption) ?_ | refine ActKeeps.of_goesOn (by assumption) ?_ | split | simp only [↓actKeeps_done, ↓actKeeps_boundary, ↓actKeeps_goesOn]
    | dsimp only

theorem execSvPub_keeps {s₀ : State} (c : Cmd) {s : State} (hk : Keeps s₀ s) : OutKeeps s₀ (execSvPub c s) := by
  unfold execSvPub
  repeat' first
    | (with_reducible first | assumption | apply command_keeps | apply svPubAct_keeps) | intro _ | simp only [↓outKeeps_mk, ↓actKeeps_done, ↓actKeeps_boundary, ↓actKeeps_goesOn]

theorem execSvPubPortSet_keeps {s₀ : State} (c : Cmd) {s : State} (hk : Keeps s₀ s) : OutKeeps s₀ (execSvPubPortSet c s) := by
  unfold execSvPubPortSet
  repeat' first
    | (with_reducible first | assumption | apply command_keeps | apply svPubAct_keeps) | intro _ | simp only [↓outKeeps_mk, ↓actKeeps_done, ↓actKeeps_boundary, ↓actKeeps_goesOn]

theorem applySvPub_keeps {s₀ : State} (i : Nat) (b : Bytes) {s : State} (hk : Keeps s₀ s) : Keeps s₀ (applySvPub i b s) := by
  unfold applySvPub
  repeat' first
    | (with_reducible first | assumption | apply setNet_keeps) | intro _
    | (extract_lets +onlyGivenNames x; refine (fun (hx : Keeps s₀ x) => ?_) ?_; (clear_value x); rotate_left; subst x) | split | simp only [↓Keeps.upd_iff]
    | (extract_lets +onlyGivenNames x; subst x) | dsimp only

theorem execSvPubFrameTx_keeps {s₀ : State} (p : BitVec 3) {s : State} (hk : Keeps s₀ s) : OutKeeps s₀ (execSvPubFrameTx p s) := by
  unfold execSvPubFrameTx
  repeat' first
    | (with_reducible first | assumption | apply setNet_keeps | apply sendFrame_keeps) | intro _
    | (extract_lets +onlyGivenNames x; refine (fun (hx : Keeps s₀ x) => ?_) ?_; (clear_value x); rotate_left; subst x) | split | simp only [↓Keeps.upd_iff, ↓outKeeps_mk]
    | (extract_lets +onlyGivenNames x; subst x) | dsimp only

theorem execSvStats_keeps {s₀ : State} (c : Cmd) {s : State} (hk : Keeps s₀ s) : OutKeeps s₀ (execSvStats c s) := by
  unfold execSvStats
  repeat' first
    | (with_reducible first | assumption | apply command_keeps | apply setSv_keeps) | intro _
    | (extract_lets +onlyGivenNames x; refine (fun (hx : Keeps s₀ x) => ?_) ?_; (clear_value x); rotate_left; subst x) | split
    | simp only [↓Keeps.upd_iff, ↓outKeeps_mk, ↓actKeeps_done, ↓actKeeps_boundary, ↓actKeeps_goesOn] | (extract_lets +onlyGivenNames x; subst x) | dsimp only

/-! ### Goose -/

theorem setGoose_keeps {s₀ : State} (k : Nat) (f : GooseCtx → GooseCtx) {s : State} (hk : Keeps s₀ s) : Keeps s₀ (setGoose k f s) := by
  unfold setGoose
  repeat' first
    | (with_reducible first | assumption | apply setNet_keeps) | intro _
    | (extract_lets +onlyGivenNames x; refine (fun (hx : Keeps s₀ x) => ?_) ?_; (clear_value x); rotate_left; subst x) | simp only [↓Keeps.upd_iff]
    | (extract_lets +onlyGivenNames x; subst x) | dsimp only

theorem gooseEntryChanged_keeps {s₀ : State} (k : Nat) (old : Bytes) (new : Bytes) {s : State} (hk : Keeps s₀ s) : Keeps s₀ (gooseEntryChanged k old new s) := by
  unfold gooseEntryChanged
  repeat' first
    | (with_reducible first | assumption | apply setGoose_keeps) | intro _
    | (extract_lets +onlyGivenNames x; refine (fun (hx : Keeps s₀ x) => ?_) ?_; (clear_value x); rotate_left; subst x) | split | simp only [↓Keeps.upd_iff]
    | (extract_lets +onlyGivenNames x; subst x) | dsimp only

theorem goDeliver_keeps {s₀ : State} (k : Nat) (f : GooseFrame) {s : State} (hk : Keeps s₀ s) : Keeps s₀ (goDeliver k f s) := by
  unfold goDeliver
  repeat' first
    | (with_reducible first | assumption | apply setGoose_keeps) | intro _
    | (extract_lets +onlyGivenNames x; refine (fun (hx : Keeps s₀ x) => ?_) ?_; (clear_value x); rotate_left; subst x) | split | simp only [↓Keeps.upd_iff]
    | (extract_lets +onlyGivenNames x; subst x) | dsimp only

theorem execGooseFrameRx_keeps {s₀ : State} (f : GooseFrame) {s : State} (hk : Keeps s₀ s) : OutKeeps s₀ (execGooseFrameRx f s) := by
  unfold execGooseFrameRx
  repeat' first
    | (with_reducible first | assumption | apply takeIn_keeps | apply countNoMatch_keeps | apply setGoose_keeps | apply dedup_keeps | apply dedup_keeps_snd | apply goDeliver_keeps)
    | intro _ | refine SndKeeps.of_eq (by assumption) ?_ | refine OptKeeps.of_eq (by assumption) ?_
    | (extract_lets +onlyGivenNames x; refine (fun (hx : Keeps s₀ x) => ?_) ?_; (clear_value x); rotate_left; subst x) | split
    | simp only [↓Keeps.upd_iff, ↓sndKeeps_mk, ↓outKeeps_mk, ↓optKeeps_some] | (extract_lets +onlyGivenNames x; subst x) | dsimp only

theorem expireGoose_keeps {s₀ : State} (k : Nat) {s : State} (hk : Keeps s₀ s) : Keeps s₀ (expireGoose k s) := by
  unfold expireGoose
  repeat' first
    | (with_reducible first | assumption | apply countEvent_keeps | apply setGoose_keeps) | intro _
    | (extract_lets +onlyGivenNames x; refine (fun (hx : Keeps s₀ x) => ?_) ?_; (clear_value x); rotate_left; subst x) | simp only [↓Keeps.upd_iff]
    | (extract_lets +onlyGivenNames x; subst x) | dsimp only

theorem execGooseTalExpiry_keeps {s₀ : State} (ctx : BitVec 8) {s : State} (hk : Keeps s₀ s) : OutKeeps s₀ (execGooseTalExpiry ctx s) := by
  unfold execGooseTalExpiry
  repeat' first
    | (with_reducible first | assumption | apply settle_keeps | apply expireGoose_keeps | apply setClk_keeps)
    | (extract_lets +onlyGivenNames x; refine (fun (hx : Keeps s₀ x) => ?_) ?_; (clear_value x); rotate_left; subst x) | split | simp only [↓Keeps.upd_iff, ↓outKeeps_mk]
    | (extract_lets +onlyGivenNames x; subst x) | dsimp only

theorem goSnapshot_keeps {s₀ : State} {s : State} (hk : Keeps s₀ s) : Keeps s₀ (goSnapshot s) := by
  unfold goSnapshot
  repeat' first
    | (with_reducible first | assumption | apply foldl_keeps | apply expireGoose_keeps | apply setNet_keeps) | intro _
    | (extract_lets +onlyGivenNames x; refine (fun (hx : Keeps s₀ x) => ?_) ?_; (clear_value x); rotate_left; subst x) | split | simp only [↓Keeps.upd_iff]
    | (extract_lets +onlyGivenNames x; subst x) | dsimp only

theorem execGooseStats_keeps {s₀ : State} (c : Cmd) {s : State} (hk : Keeps s₀ s) : OutKeeps s₀ (execGooseStats c s) := by
  unfold execGooseStats
  repeat' first
    | (with_reducible first | assumption | apply command_keeps | apply setNet_keeps) | intro _
    | (extract_lets +onlyGivenNames x; refine (fun (hx : Keeps s₀ x) => ?_) ?_; (clear_value x); rotate_left; subst x) | split
    | simp only [↓Keeps.upd_iff, ↓outKeeps_mk, ↓actKeeps_done, ↓actKeeps_boundary, ↓actKeeps_goesOn] | (extract_lets +onlyGivenNames x; subst x) | dsimp only

/-! ### Plaus -/

theorem stageItem_keeps {s₀ : State} (c : Nat) (i : StagedItem) {s : State} (hk : Keeps s₀ s) : Keeps s₀ (stageItem c i s) := by
  unfold stageItem
  repeat' first
    | (with_reducible first | assumption | apply setProt_keeps) | intro _
    | (extract_lets +onlyGivenNames x; refine (fun (hx : Keeps s₀ x) => ?_) ?_; (clear_value x); rotate_left; subst x) | simp only [↓Keeps.upd_iff]
    | (extract_lets +onlyGivenNames x; subst x) | dsimp only

theorem stageEvent_keeps {s₀ : State} (c : Nat) (src : Nat) (code : Nat) (unit : Nat) (data : Bytes) {s : State} (hk : Keeps s₀ s) : Keeps s₀ (stageEvent c src code unit data s) := by
  unfold stageEvent
  repeat' first
    | (with_reducible first | assumption | apply stageItem_keeps)

theorem stageChk_keeps {s₀ : State} (cl : Nat) (code : Nat) (ph : Nat) (unit : Nat) (c : Chk) (evs : List ChkEv) {s : State} (hk : Keeps s₀ s) : Keeps s₀ (stageChk cl code ph unit c evs s) := by
  unfold stageChk
  repeat' first
    | (with_reducible first | assumption | apply foldl_keeps | apply stageItem_keeps | apply stageEvent_keeps) | intro _
    | (extract_lets +onlyGivenNames x; refine (fun (hx : Keeps s₀ x) => ?_) ?_; (clear_value x); rotate_left; subst x) | split | simp only [↓Keeps.upd_iff]
    | (extract_lets +onlyGivenNames x; subst x) | dsimp only

theorem bayChecks_keeps {s₀ : State} (b : Nat) {s : State} (hk : Keeps s₀ s) : Keeps s₀ (bayChecks b s) := by
  unfold bayChecks
  repeat' first
    | (with_reducible first | assumption | apply setRun_keeps | apply stageChk_keeps) | intro _
    | (extract_lets +onlyGivenNames x; refine (fun (hx : Keeps s₀ x) => ?_) ?_; (clear_value x); rotate_left; subst x) | split | simp only [↓Keeps.upd_iff]
    | (extract_lets +onlyGivenNames x; subst x) | dsimp only

theorem clear12_keeps {s₀ : State} (cl : Nat) (unit : Nat) (lasting : Bool) {s : State} (hk : Keeps s₀ s) : Keeps s₀ (clear12 cl unit lasting s) := by
  unfold clear12
  repeat' first
    | (with_reducible first | assumption | apply stageItem_keeps) | split | dsimp only

theorem sectTopology_keeps {s₀ : State} {s : State} (hk : Keeps s₀ s) : Keeps s₀ (sectTopology s) := by
  unfold sectTopology
  repeat' first
    | (with_reducible first | assumption | apply foldl_keeps | apply setSect_keeps) | intro _
    | (extract_lets +onlyGivenNames x; refine (fun (hx : Keeps s₀ x) => ?_) ?_; (clear_value x); rotate_left; subst x) | split | simp only [↓Keeps.upd_iff]
    | (extract_lets +onlyGivenNames x; subst x) | dsimp only

theorem bayChkStart_keeps {s₀ : State} (b : Nat) {s : State} (hk : Keeps s₀ s) : Keeps s₀ (bayChkStart b s) := by
  unfold bayChkStart
  repeat' first
    | (with_reducible first | assumption | apply setRun_keeps) | intro _
    | (extract_lets +onlyGivenNames x; refine (fun (hx : Keeps s₀ x) => ?_) ?_; (clear_value x); rotate_left; subst x) | simp only [↓Keeps.upd_iff]
    | (extract_lets +onlyGivenNames x; subst x) | dsimp only

theorem kirChecks_keeps {s₀ : State} (k : Nat) {s : State} (hk : Keeps s₀ s) : Keeps s₀ (kirChecks k s) := by
  unfold kirChecks
  repeat' first
    | (with_reducible first | assumption | apply foldl_keeps | apply setSect_keeps | apply stageChk_keeps) | intro _
    | (extract_lets +onlyGivenNames x; refine (fun (hx : Keeps s₀ x) => ?_) ?_; (clear_value x); rotate_left; subst x) | split | simp only [↓Keeps.upd_iff]
    | (extract_lets +onlyGivenNames x; subst x) | dsimp only

theorem agreeVoltage_keeps {s₀ : State} (k : Nat) {s : State} (hk : Keeps s₀ s) : Keeps s₀ (agreeVoltage k s) := by
  unfold agreeVoltage
  repeat' first
    | (with_reducible first | assumption | apply foldl_keeps | apply setSect_keeps | apply stageChk_keeps) | intro _
    | (extract_lets +onlyGivenNames x; refine (fun (hx : Keeps s₀ x) => ?_) ?_; (clear_value x); rotate_left; subst x) | split | simp only [↓Keeps.upd_iff]
    | (extract_lets +onlyGivenNames x; subst x) | dsimp only

theorem drop12_keeps {s₀ : State} (unit : Nat) (lasting : Bool) {s : State} (hk : Keeps s₀ s) : Keeps s₀ (drop12 unit lasting s) := by
  unfold drop12
  repeat' first
    | (with_reducible first | assumption | apply resetInst_keeps) | split | dsimp only

theorem plbBayChanged_keeps {s₀ : State} (b : Nat) (old : Bytes) (new : Bytes) {s : State} (hk : Keeps s₀ s) : Keeps s₀ (plbBayChanged b old new s) := by
  unfold plbBayChanged
  repeat' first
    | (with_reducible first | assumption | apply setRun_keeps | apply drop12_keeps) | intro _
    | (extract_lets +onlyGivenNames x; refine (fun (hx : Keeps s₀ x) => ?_) ?_; (clear_value x); rotate_left; subst x) | split | simp only [↓Keeps.upd_iff]
    | (extract_lets +onlyGivenNames x; subst x) | dsimp only

theorem plbSectChanged_keeps {s₀ : State} (k : Nat) (old : Bytes) (new : Bytes) {s : State} (hk : Keeps s₀ s) : Keeps s₀ (plbSectChanged k old new s) := by
  unfold plbSectChanged
  repeat' first
    | (with_reducible first | assumption | apply setSect_keeps | apply drop12_keeps) | intro _
    | (extract_lets +onlyGivenNames x; refine (fun (hx : Keeps s₀ x) => ?_) ?_; (clear_value x); rotate_left; subst x) | split | simp only [↓Keeps.upd_iff]
    | (extract_lets +onlyGivenNames x; subst x) | dsimp only

/-! ### Curves -/

theorem execCurveLoad_keeps {s₀ : State} (c : Cmd) {s : State} (hk : Keeps s₀ s) : OutKeeps s₀ (execCurveLoad c s) := by
  unfold execCurveLoad
  repeat' first
    | (with_reducible first | assumption | apply foldl_keeps | apply command_keeps | apply setProt_keeps) | intro _
    | (extract_lets +onlyGivenNames x; refine (fun (hx : Keeps s₀ x) => ?_) ?_; (clear_value x); rotate_left; subst x) | split
    | simp only [↓Keeps.upd_iff, ↓outKeeps_mk, ↓actKeeps_done, ↓actKeeps_boundary, ↓actKeeps_goesOn] | (extract_lets +onlyGivenNames x; subst x) | dsimp only

/-! ### Bus -/

theorem sectStep_keeps {s₀ : State} (k : Nat) {s : State} (hk : Keeps s₀ s) : Keeps s₀ (sectStep k s) := by
  unfold sectStep
  repeat' first
    | (with_reducible first | assumption | apply setSect_keeps | apply stageEvent_keeps) | intro _
    | (extract_lets +onlyGivenNames x; refine (fun (hx : Keeps s₀ x) => ?_) ?_; (clear_value x); rotate_left; subst x) | split | simp only [↓Keeps.upd_iff]
    | (extract_lets +onlyGivenNames x; subst x) | dsimp only

theorem resetSect_keeps {s₀ : State} (k : Nat) {s : State} (hk : Keeps s₀ s) : Keeps s₀ (resetSect k s) := by
  unfold resetSect
  repeat' first
    | (with_reducible first | assumption | apply setSect_keeps) | intro _ | dsimp only

/-! ### Logic -/

theorem setLogic_keeps {s₀ : State} (b : Nat) (f : LogicBay → LogicBay) {s : State} (hk : Keeps s₀ s) : Keeps s₀ (setLogic b f s) := by
  unfold setLogic
  repeat' first
    | (with_reducible first | assumption | apply setBay_keeps) | intro _
    | (extract_lets +onlyGivenNames x; refine (fun (hx : Keeps s₀ x) => ?_) ?_; (clear_value x); rotate_left; subst x) | simp only [↓Keeps.upd_iff]
    | (extract_lets +onlyGivenNames x; subst x) | dsimp only

theorem logicSkip_keeps {s₀ : State} (b : Nat) (ms : Nat) (cause : Nat) {s : State} (hk : Keeps s₀ s) : Keeps s₀ (logicSkip b ms cause s) := by
  unfold logicSkip
  repeat' first
    | (with_reducible first | assumption | apply bumpClass_keeps | apply setLogic_keeps | apply stageEvent_keeps) | intro _
    | (extract_lets +onlyGivenNames x; refine (fun (hx : Keeps s₀ x) => ?_) ?_; (clear_value x); rotate_left; subst x) | split | simp only [↓Keeps.upd_iff]
    | (extract_lets +onlyGivenNames x; subst x) | dsimp only

theorem logicCycle_keeps {s₀ : State} (b : Nat) {s : State} (hk : Keeps s₀ s) : Keeps s₀ (logicCycle b s) := by
  unfold logicCycle
  repeat' first
    | (with_reducible first | assumption | apply setLogic_keeps) | intro _
    | (extract_lets +onlyGivenNames x; refine (fun (hx : Keeps s₀ x) => ?_) ?_; (clear_value x); rotate_left; subst x) | split | simp only [↓Keeps.upd_iff]
    | (extract_lets +onlyGivenNames x; subst x) | dsimp only

theorem logicRelease_keeps {s₀ : State} (b : Nat) {s : State} (hk : Keeps s₀ s) : Keeps s₀ (logicRelease b s) := by
  unfold logicRelease
  repeat' first
    | (with_reducible first | assumption | apply logicSkip_keeps | apply setLogic_keeps) | intro _
    | (extract_lets +onlyGivenNames x; refine (fun (hx : Keeps s₀ x) => ?_) ?_; (clear_value x); rotate_left; subst x) | split | simp only [↓Keeps.upd_iff]
    | (extract_lets +onlyGivenNames x; subst x) | dsimp only

theorem logicTakeover_keeps {s₀ : State} (b : Nat) (ms : Nat) {s : State} (hk : Keeps s₀ s) : Keeps s₀ (logicTakeover b ms s) := by
  unfold logicTakeover
  repeat' first
    | (with_reducible first | assumption | apply setLogic_keeps | apply logicSkip_keeps) | intro _
    | (extract_lets +onlyGivenNames x; refine (fun (hx : Keeps s₀ x) => ?_) ?_; (clear_value x); rotate_left; subst x) | split | simp only [↓Keeps.upd_iff]
    | (extract_lets +onlyGivenNames x; subst x) | dsimp only

theorem logicOverrun_keeps {s₀ : State} (b : Nat) {s : State} (hk : Keeps s₀ s) : Keeps s₀ (logicOverrun b s) := by
  unfold logicOverrun
  repeat' first
    | (with_reducible first | assumption | apply settle_keeps | apply countEvent_keeps | apply bumpClass_keeps | apply setLogic_keeps) | intro _
    | (extract_lets +onlyGivenNames x; refine (fun (hx : Keeps s₀ x) => ?_) ?_; (clear_value x); rotate_left; subst x) | split | simp only [↓Keeps.upd_iff]
    | (extract_lets +onlyGivenNames x; subst x) | dsimp only

theorem execLogicOverrun_keeps {s₀ : State} (b : BitVec 6) {s : State} (hk : Keeps s₀ s) : OutKeeps s₀ (execLogicOverrun b s) := by
  unfold execLogicOverrun
  repeat' first
    | (with_reducible first | assumption | apply logicOverrun_keeps) | simp only [↓outKeeps_mk]

theorem logicAbort_keeps {s₀ : State} (b : Nat) {s : State} (hk : Keeps s₀ s) : Keeps s₀ (logicAbort b s) := by
  unfold logicAbort
  repeat' first
    | (with_reducible first | assumption | apply settle_keeps | apply countEvent_keeps | apply failCluster_keeps | apply setLogic_keeps) | intro _
    | (extract_lets +onlyGivenNames x; refine (fun (hx : Keeps s₀ x) => ?_) ?_; (clear_value x); rotate_left; subst x) | split | simp only [↓Keeps.upd_iff]
    | (extract_lets +onlyGivenNames x; subst x) | dsimp only

theorem execLogicAbort_keeps {s₀ : State} (b : BitVec 6) {s : State} (hk : Keeps s₀ s) : OutKeeps s₀ (execLogicAbort b s) := by
  unfold execLogicAbort
  repeat' first
    | (with_reducible first | assumption | apply logicAbort_keeps) | simp only [↓outKeeps_mk]

theorem applyLogicRestart_keeps {s₀ : State} (unit : Nat) (kind : Nat) {s : State} (hk : Keeps s₀ s) : FstKeeps s₀ (applyLogicRestart unit kind s) := by
  unfold applyLogicRestart
  refine foldl_fstKeeps (fun q b hq => ?_) (FstKeeps.intro hk)
  dsimp only
  split
  · exact hq
  · split
    · exact hq
    · exact FstKeeps.intro (setLogic_keeps _ _ hq)

theorem applyLogicRestart_keeps_fst {s₀ : State} (unit : Nat) (kind : Nat) {s : State} (hk : Keeps s₀ s) : Keeps s₀ (applyLogicRestart unit kind s).1 := applyLogicRestart_keeps _ _ hk

theorem applyLogicSwitch_keeps {s₀ : State} (b : Nat) {s : State} (hk : Keeps s₀ s) : FstKeeps s₀ (applyLogicSwitch b s) := by
  unfold applyLogicSwitch
  repeat' first
    | (with_reducible first | assumption | apply foldl_keeps | apply foldl_fstKeeps | apply setLogic_keeps | apply postEvent_keeps) | intro _
    | refine FstKeeps.of_eq (by assumption) ?_ | (extract_lets +onlyGivenNames x; refine (fun (hx : Keeps s₀ x) => ?_) ?_; (clear_value x); rotate_left; subst x) | split
    | simp only [↓Keeps.upd_iff, ↓fstKeeps_mk] | (extract_lets +onlyGivenNames x; subst x) | dsimp only

theorem applyLogicSwitch_keeps_fst {s₀ : State} (b : Nat) {s : State} (hk : Keeps s₀ s) : Keeps s₀ (applyLogicSwitch b s).1 := applyLogicSwitch_keeps _ hk

theorem forceRecord_keeps {s₀ : State} (b : Nat) (op : Nat) (f : Force) {s : State} (hk : Keeps s₀ s) : Keeps s₀ (forceRecord b op f s) := by
  unfold forceRecord
  repeat' first
    | (with_reducible first | assumption | apply postEvent_keeps)

theorem applyLogicForce_keeps {s₀ : State} (b : Nat) (f : Force) {s : State} (hk : Keeps s₀ s) : FstKeeps s₀ (applyLogicForce b f s) := by
  unfold applyLogicForce
  repeat' first
    | (with_reducible first | assumption | apply setLogic_keeps | apply forceRecord_keeps) | intro _ | refine FstKeeps.of_eq (by assumption) ?_
    | (extract_lets +onlyGivenNames x; refine (fun (hx : Keeps s₀ x) => ?_) ?_; (clear_value x); rotate_left; subst x) | split | simp only [↓Keeps.upd_iff, ↓fstKeeps_mk]
    | (extract_lets +onlyGivenNames x; subst x) | dsimp only

theorem applyLogicForce_keeps_fst {s₀ : State} (b : Nat) (f : Force) {s : State} (hk : Keeps s₀ s) : Keeps s₀ (applyLogicForce b f s).1 := applyLogicForce_keeps _ _ hk

theorem applyLogicUnforce_keeps {s₀ : State} (b : Nat) (f : Force) (all : Bool) {s : State} (hk : Keeps s₀ s) : FstKeeps s₀ (applyLogicUnforce b f all s) := by
  unfold applyLogicUnforce
  repeat' first
    | (with_reducible first | assumption | apply foldl_keeps | apply foldl_fstKeeps | apply setLogic_keeps | apply forceRecord_keeps) | intro _
    | (extract_lets +onlyGivenNames x; refine (fun (hx : Keeps s₀ x) => ?_) ?_; (clear_value x); rotate_left; subst x) | simp only [↓Keeps.upd_iff, ↓fstKeeps_mk]
    | (extract_lets +onlyGivenNames x; subst x) | dsimp only

theorem applyLogicUnforce_keeps_fst {s₀ : State} (b : Nat) (f : Force) (all : Bool) {s : State} (hk : Keeps s₀ s) : Keeps s₀ (applyLogicUnforce b f all s).1 := applyLogicUnforce_keeps _ _ _ hk

theorem execLogicLoad_keeps {s₀ : State} (c : Cmd) {s : State} (hk : Keeps s₀ s) : OutKeeps s₀ (execLogicLoad c s) := by
  unfold execLogicLoad
  repeat' first
    | (with_reducible first | assumption | apply command_keeps | apply setLogic_keeps) | intro _
    | (extract_lets +onlyGivenNames x; refine (fun (hx : Keeps s₀ x) => ?_) ?_; (clear_value x); rotate_left; subst x) | split
    | simp only [↓Keeps.upd_iff, ↓outKeeps_mk, ↓actKeeps_done, ↓actKeeps_boundary, ↓actKeeps_goesOn] | (extract_lets +onlyGivenNames x; subst x) | dsimp only

theorem execLogicVerify_keeps {s₀ : State} (c : Cmd) {s : State} (hk : Keeps s₀ s) : OutKeeps s₀ (execLogicVerify c s) := by
  unfold execLogicVerify
  repeat' first
    | (with_reducible first | assumption | apply command_keeps | apply setLogic_keeps) | intro _
    | (extract_lets +onlyGivenNames x; refine (fun (hx : Keeps s₀ x) => ?_) ?_; (clear_value x); rotate_left; subst x) | split
    | simp only [↓Keeps.upd_iff, ↓outKeeps_mk, ↓actKeeps_done, ↓actKeeps_boundary, ↓actKeeps_goesOn] | (extract_lets +onlyGivenNames x; subst x) | dsimp only

theorem execLogicSwitch_keeps {s₀ : State} (c : Cmd) {s : State} (hk : Keeps s₀ s) : OutKeeps s₀ (execLogicSwitch c s) := by
  unfold execLogicSwitch
  repeat' first
    | (with_reducible first | assumption | apply command_keeps | apply bumpClass_keeps) | intro _
    | (extract_lets +onlyGivenNames x; refine (fun (hx : Keeps s₀ x) => ?_) ?_; (clear_value x); rotate_left; subst x) | split
    | simp only [↓outKeeps_mk, ↓actKeeps_done, ↓actKeeps_boundary, ↓actKeeps_goesOn] | (extract_lets +onlyGivenNames x; subst x) | dsimp only

theorem execLogicForce_keeps {s₀ : State} (c : Cmd) {s : State} (hk : Keeps s₀ s) : OutKeeps s₀ (execLogicForce c s) := by
  unfold execLogicForce
  repeat' first
    | (with_reducible first | assumption | apply command_keeps) | intro _
    | (extract_lets +onlyGivenNames x; refine (fun (hx : Keeps s₀ x) => ?_) ?_; (clear_value x); rotate_left; subst x) | split
    | simp only [↓outKeeps_mk, ↓actKeeps_done, ↓actKeeps_boundary, ↓actKeeps_goesOn] | (extract_lets +onlyGivenNames x; subst x) | dsimp only

theorem execLogicUnforce_keeps {s₀ : State} (c : Cmd) {s : State} (hk : Keeps s₀ s) : OutKeeps s₀ (execLogicUnforce c s) := by
  unfold execLogicUnforce
  repeat' first
    | (with_reducible first | assumption | apply command_keeps) | intro _
    | (extract_lets +onlyGivenNames x; refine (fun (hx : Keeps s₀ x) => ?_) ?_; (clear_value x); rotate_left; subst x) | split
    | simp only [↓outKeeps_mk, ↓actKeeps_done, ↓actKeeps_boundary, ↓actKeeps_goesOn] | (extract_lets +onlyGivenNames x; subst x) | dsimp only

theorem execLogicRestart_keeps {s₀ : State} (c : Cmd) {s : State} (hk : Keeps s₀ s) : OutKeeps s₀ (execLogicRestart c s) := by
  unfold execLogicRestart
  repeat' first
    | (with_reducible first | assumption | apply command_keeps) | intro _
    | (extract_lets +onlyGivenNames x; refine (fun (hx : Keeps s₀ x) => ?_) ?_; (clear_value x); rotate_left; subst x)
    | simp only [↓outKeeps_mk, ↓actKeeps_done, ↓actKeeps_boundary, ↓actKeeps_goesOn] | (extract_lets +onlyGivenNames x; subst x) | dsimp only

theorem execLogicRead_keeps {s₀ : State} (c : Cmd) {s : State} (hk : Keeps s₀ s) : OutKeeps s₀ (execLogicRead c s) := by
  unfold execLogicRead
  exact outKeeps_mk.mpr (command_keeps _ _ _ (fun t ht => ActKeeps.done (Keeps.ite ht (setLogic_keeps _ _ ht))) hk)

/-! ### Cycle -/

theorem forBaysOf_keeps {s₀ : State} (p : Nat → Bool) (f : Nat → State → State) {s : State} (hf : ∀ a0 t, Keeps s₀ t → Keeps s₀ (f a0 t)) (hk : Keeps s₀ s) : Keeps s₀ (forBaysOf p f s) := by
  unfold forBaysOf
  repeat' first
    | (with_reducible first | assumption | apply foldl_keeps | apply hf) | intro _ | dsimp only

theorem forSectsOf_keeps {s₀ : State} (p : Nat → Bool) (f : Nat → State → State) {s : State} (hf : ∀ a0 t, Keeps s₀ t → Keeps s₀ (f a0 t)) (hk : Keeps s₀ s) : Keeps s₀ (forSectsOf p f s) := by
  unfold forSectsOf
  repeat' first
    | (with_reducible first | assumption | apply foldl_keeps | apply hf) | intro _ | dsimp only

theorem cycleMeasure_keeps {s₀ : State} (b : Nat) {s : State} (hk : Keeps s₀ s) : Keeps s₀ (cycleMeasure b s) := by
  unfold cycleMeasure
  repeat' first
    | (with_reducible first | assumption | apply setRun_keeps) | intro _
    | (extract_lets +onlyGivenNames x; refine (fun (hx : Keeps s₀ x) => ?_) ?_; (clear_value x); rotate_left; subst x) | simp only [↓Keeps.upd_iff]
    | (extract_lets +onlyGivenNames x; subst x) | dsimp only

theorem cycleFreq_keeps {s₀ : State} (b : Nat) {s : State} (hk : Keeps s₀ s) : Keeps s₀ (cycleFreq b s) := by
  unfold cycleFreq
  repeat' first
    | (with_reducible first | assumption | apply setBay_keeps) | intro _
    | (extract_lets +onlyGivenNames x; refine (fun (hx : Keeps s₀ x) => ?_) ?_; (clear_value x); rotate_left; subst x) | split | simp only [↓Keeps.upd_iff]
    | (extract_lets +onlyGivenNames x; subst x) | dsimp only

theorem cycleBayChecks_keeps {s₀ : State} (b : Nat) {s : State} (hk : Keeps s₀ s) : Keeps s₀ (cycleBayChecks b s) := by
  unfold cycleBayChecks
  repeat' first
    | (with_reducible first | assumption | apply bayChecks_keeps | apply clear12_keeps)
    | (extract_lets +onlyGivenNames x; refine (fun (hx : Keeps s₀ x) => ?_) ?_; (clear_value x); rotate_left; subst x) | (extract_lets +onlyGivenNames x; subst x) | dsimp only

theorem clearSect_keeps {s₀ : State} (k : Nat) {s : State} (hk : Keeps s₀ s) : Keeps s₀ (clearSect k s) := by
  unfold clearSect
  repeat' first
    | (with_reducible first | assumption | apply clear12_keeps)

theorem markBay_keeps {s₀ : State} (b : Nat) {s : State} (hk : Keeps s₀ s) : Keeps s₀ (markBay b s) := by
  unfold markBay
  repeat' first
    | (with_reducible first | assumption | apply foldl_keeps | apply setFilt_keeps) | intro _
    | (extract_lets +onlyGivenNames x; refine (fun (hx : Keeps s₀ x) => ?_) ?_; (clear_value x); rotate_left; subst x) | split | simp only [↓Keeps.upd_iff]
    | (extract_lets +onlyGivenNames x; subst x) | dsimp only

theorem cycleElements_keeps {s₀ : State} (b : Nat) {s : State} (hk : Keeps s₀ s) : Keeps s₀ (cycleElements b s) := by
  unfold cycleElements
  repeat' first
    | (with_reducible first | assumption | apply setRun_keeps) | intro _
    | (extract_lets +onlyGivenNames x; refine (fun (hx : Keeps s₀ x) => ?_) ?_; (clear_value x); rotate_left; subst x) | split | simp only [↓Keeps.upd_iff]
    | (extract_lets +onlyGivenNames x; subst x) | dsimp only

theorem cycleBf_keeps {s₀ : State} (b : Nat) {s : State} (hk : Keeps s₀ s) : Keeps s₀ (cycleBf b s) := by
  unfold cycleBf
  repeat' first
    | (with_reducible first | assumption | apply setRun_keeps) | intro _
    | (extract_lets +onlyGivenNames x; refine (fun (hx : Keeps s₀ x) => ?_) ?_; (clear_value x); rotate_left; subst x) | split | simp only [↓Keeps.upd_iff]
    | (extract_lets +onlyGivenNames x; subst x) | dsimp only

theorem cycleBfAll_keeps {s₀ : State} (p : Nat → Bool) (n : Nat) {s : State} (hk : Keeps s₀ s) : Keeps s₀ (cycleBfAll p n s) := by
  induction n generalizing s with
  | zero => exact hk
  | succ n ih =>
    have ht : Keeps s₀ (forBaysOf p cycleBf s) := forBaysOf_keeps _ _ (fun b _ ht => cycleBf_keeps b ht) hk
    exact Keeps.ite ht (ih ht)

theorem tripStep_keeps {s₀ : State} (b : Nat) {s : State} (hk : Keeps s₀ s) : Keeps s₀ (tripStep b s) := by
  unfold tripStep
  repeat' first
    | (with_reducible first | assumption | apply stageEvent_keeps | apply setRun_keeps) | intro _
    | (extract_lets +onlyGivenNames x; refine (fun (hx : Keeps s₀ x) => ?_) ?_; (clear_value x); rotate_left; subst x) | split | simp only [↓Keeps.upd_iff]
    | (extract_lets +onlyGivenNames x; subst x) | dsimp only

theorem cycleFinish_keeps {s₀ : State} (b : Nat) {s : State} (hk : Keeps s₀ s) : Keeps s₀ (cycleFinish b s) := by
  unfold cycleFinish
  repeat' first
    | (with_reducible first | assumption | apply tripStep_keeps | apply setBay_keeps) | intro _
    | (extract_lets +onlyGivenNames x; refine (fun (hx : Keeps s₀ x) => ?_) ?_; (clear_value x); rotate_left; subst x) | split | simp only [↓Keeps.upd_iff]
    | (extract_lets +onlyGivenNames x; subst x) | dsimp only

theorem clearAbsent_keeps {s₀ : State} {s : State} (hk : Keeps s₀ s) : Keeps s₀ (clearAbsent s) := by
  unfold clearAbsent
  repeat' first
    | (with_reducible first | assumption | apply foldl_keeps | apply setRun_keeps) | intro _
    | (extract_lets +onlyGivenNames x; refine (fun (hx : Keeps s₀ x) => ?_) ?_; (clear_value x); rotate_left; subst x) | split | simp only [↓Keeps.upd_iff]
    | (extract_lets +onlyGivenNames x; subst x) | dsimp only

theorem cycleOf_keeps {s₀ : State} (p : Nat → Bool) {s : State} (hk : Keeps s₀ s) : Keeps s₀ (cycleOf p s) := by
  unfold cycleOf
  repeat' first
    | (with_reducible first | assumption | apply forBaysOf_keeps | apply markBay_keeps | apply bayChkStart_keeps | apply sectTopology_keeps | apply cycleMeasure_keeps | apply forSectsOf_keeps | apply kirChecks_keeps | apply agreeVoltage_keeps | apply cycleFreq_keeps | apply cycleBayChecks_keeps | apply clearSect_keeps | apply cycleElements_keeps | apply sectStep_keeps | apply cycleBfAll_keeps | apply cycleFinish_keeps)
    | intro _ | (extract_lets +onlyGivenNames x; refine (fun (hx : Keeps s₀ x) => ?_) ?_; (clear_value x); rotate_left; subst x) | (extract_lets +onlyGivenNames x; subst x)
    | dsimp only

theorem protectionCycle_keeps {s₀ : State} {s : State} (hk : Keeps s₀ s) : Keeps s₀ (protectionCycle s) := by
  unfold protectionCycle
  repeat' first
    | (with_reducible first | assumption | apply setProt_keeps | apply forBays_keeps | apply logicCycle_keeps | apply cycleOf_keeps | apply clearAbsent_keeps) | intro _
    | (extract_lets +onlyGivenNames x; refine (fun (hx : Keeps s₀ x) => ?_) ?_; (clear_value x); rotate_left; subst x) | simp only [↓Keeps.upd_iff]
    | (extract_lets +onlyGivenNames x; subst x) | dsimp only

theorem setCkpt_keeps {s₀ : State} (c : Nat) (f : Option Ckpt → Option Ckpt) {s : State} (hk : Keeps s₀ s) : Keeps s₀ (setCkpt c f s) := by
  unfold setCkpt
  repeat' first
    | (with_reducible first | assumption | apply setProt_keeps) | intro _
    | (extract_lets +onlyGivenNames x; refine (fun (hx : Keeps s₀ x) => ?_) ?_; (clear_value x); rotate_left; subst x) | simp only [↓Keeps.upd_iff]
    | (extract_lets +onlyGivenNames x; subst x) | dsimp only

theorem carryCkpts_keeps {s₀ : State} {s : State} (hk : Keeps s₀ s) : Keeps s₀ (carryCkpts s) := by
  unfold carryCkpts
  repeat' first
    | (with_reducible first | assumption | apply setProt_keeps) | intro _
    | (extract_lets +onlyGivenNames x; refine (fun (hx : Keeps s₀ x) => ?_) ?_; (clear_value x); rotate_left; subst x) | simp only [↓Keeps.upd_iff]
    | (extract_lets +onlyGivenNames x; subst x) | dsimp only

theorem noteCycle_keeps {s₀ : State} {s : State} (hk : Keeps s₀ s) : Keeps s₀ (noteCycle s) := by
  unfold noteCycle
  repeat' first
    | (with_reducible first | assumption | apply setProt_keeps) | intro _
    | (extract_lets +onlyGivenNames x; refine (fun (hx : Keeps s₀ x) => ?_) ?_; (clear_value x); rotate_left; subst x) | simp only [↓Keeps.upd_iff]
    | (extract_lets +onlyGivenNames x; subst x) | dsimp only

theorem replayCluster_keeps {s₀ : State} {s : State} (c : Nat) (hk : Keeps s₀ s) : Keeps s₀ (replayCluster s c) := by
  unfold replayCluster
  repeat' first
    | (with_reducible first | assumption | apply setProt_keeps | apply setFilt_keeps | apply cycleOf_keeps) | intro _
    | (extract_lets +onlyGivenNames x; refine (fun (hx : Keeps s₀ x) => ?_) ?_; (clear_value x); rotate_left; subst x) | split | simp only [↓Keeps.upd_iff]
    | (extract_lets +onlyGivenNames x; subst x) | dsimp only

theorem startBay_keeps {s₀ : State} (warm : Bool) (b : Nat) {s : State} (hk : Keeps s₀ s) : Keeps s₀ (startBay warm b s) := by
  unfold startBay
  repeat' first
    | (with_reducible first | assumption | apply setBay_keeps) | intro _
    | (extract_lets +onlyGivenNames x; refine (fun (hx : Keeps s₀ x) => ?_) ?_; (clear_value x); rotate_left; subst x) | simp only [↓Keeps.upd_iff]
    | (extract_lets +onlyGivenNames x; subst x) | dsimp only

theorem groupContents_keeps {s₀ : State} (b : Nat) (carry : Bool) (old : Bytes) {s : State} (hk : Keeps s₀ s) : Keeps s₀ (groupContents b carry old s) := by
  unfold groupContents
  repeat' first
    | (with_reducible first | assumption | apply setRun_keeps) | intro _
    | (extract_lets +onlyGivenNames x; refine (fun (hx : Keeps s₀ x) => ?_) ?_; (clear_value x); rotate_left; subst x) | split | simp only [↓Keeps.upd_iff]
    | (extract_lets +onlyGivenNames x; subst x) | dsimp only

theorem applyGroup_keeps {s₀ : State} (b : Nat) (g : Nat) {s : State} (hk : Keeps s₀ s) : Keeps s₀ (applyGroup b g s) := by
  unfold applyGroup
  repeat' first
    | (with_reducible first | assumption | apply setBay_keeps | apply groupContents_keeps) | intro _
    | (extract_lets +onlyGivenNames x; refine (fun (hx : Keeps s₀ x) => ?_) ?_; (clear_value x); rotate_left; subst x) | split | simp only [↓Keeps.upd_iff]
    | (extract_lets +onlyGivenNames x; subst x) | dsimp only

theorem groupRequest_keeps {s₀ : State} (b : Nat) {s : State} (hk : Keeps s₀ s) : Keeps s₀ (groupRequest b s) := by
  unfold groupRequest
  repeat' first
    | (with_reducible first | assumption | apply setBay_keeps | apply applyGroup_keeps | apply postEvent_keeps) | intro _
    | (extract_lets +onlyGivenNames x; refine (fun (hx : Keeps s₀ x) => ?_) ?_; (clear_value x); rotate_left; subst x) | split | simp only [↓Keeps.upd_iff]
    | (extract_lets +onlyGivenNames x; subst x) | dsimp only

theorem releaseBay_keeps {s₀ : State} (b : Nat) {s : State} (hk : Keeps s₀ s) : Keeps s₀ (releaseBay b s) := by
  unfold releaseBay
  repeat' first
    | (with_reducible first | assumption | apply logicRelease_keeps | apply setBay_keeps) | intro _
    | (extract_lets +onlyGivenNames x; refine (fun (hx : Keeps s₀ x) => ?_) ?_; (clear_value x); rotate_left; subst x) | simp only [↓Keeps.upd_iff]
    | (extract_lets +onlyGivenNames x; subst x) | dsimp only

theorem releaseSects_keeps {s₀ : State} (held : Nat → Bool) {s : State} (hk : Keeps s₀ s) : Keeps s₀ (releaseSects held s) := by
  unfold releaseSects
  repeat' first
    | (with_reducible first | assumption | apply setProt_keeps) | intro _
    | (extract_lets +onlyGivenNames x; refine (fun (hx : Keeps s₀ x) => ?_) ?_; (clear_value x); rotate_left; subst x) | split | simp only [↓Keeps.upd_iff]
    | (extract_lets +onlyGivenNames x; subst x) | dsimp only

theorem runStaged_keeps {s₀ : State} (replay : Bool) (i : StagedItem) {s : State} (hk : Keeps s₀ s) : Keeps s₀ (runStaged replay i s) := by
  unfold runStaged
  repeat' first
    | (with_reducible first | assumption | apply foldl_keeps | apply postEvent_keeps | refine setLog_keeps (fun l => ?_) ?_ | apply setSupv_keeps | apply declare_keeps | apply clearLasting_keeps)
    | exact ⟨id, id, Nat.le_refl _⟩
    | exact enqueue_logKeeps _ _ _
    | simp only [↓outKeeps_mk]
    | intro _
    | (extract_lets +onlyGivenNames x; refine (fun (hx : Keeps s₀ x) => ?_) ?_; (clear_value x); rotate_left; subst x)
    | split
    | dsimp only

/-! ### Trip -/

theorem setTrip_keeps {s₀ : State} (f : TripSt → TripSt) {s : State} (hk : Keeps s₀ s) : Keeps s₀ (setTrip f s) := by
  unfold setTrip
  repeat' first
    | assumption | (extract_lets +onlyGivenNames x; refine (fun (hx : Keeps s₀ x) => ?_) ?_; (clear_value x); rotate_left; subst x) | simp only [↓Keeps.upd_iff]
    | (extract_lets +onlyGivenNames x; subst x) | dsimp only

theorem setPin_keeps {s₀ : State} (p : Nat) (f : PinSt → PinSt) {s : State} (hk : Keeps s₀ s) : Keeps s₀ (setPin p f s) := by
  unfold setPin
  repeat' first
    | (with_reducible first | assumption | apply setTrip_keeps) | intro _
    | (extract_lets +onlyGivenNames x; refine (fun (hx : Keeps s₀ x) => ?_) ?_; (clear_value x); rotate_left; subst x) | simp only [↓Keeps.upd_iff]
    | (extract_lets +onlyGivenNames x; subst x) | dsimp only

theorem pinRecord_keeps {s₀ : State} (how : PinRec) (p : Nat) (code : Nat) (data : Bytes) {s : State} (hk : Keeps s₀ s) : Keeps s₀ (pinRecord how p code data s) := by
  unfold pinRecord
  repeat' first
    | (with_reducible first | assumption | apply postCycle_keeps | apply stageEvent_keeps | apply stageItem_keeps)
    | (extract_lets +onlyGivenNames x; refine (fun (hx : Keeps s₀ x) => ?_) ?_; (clear_value x); rotate_left; subst x) | split | simp only [↓Keeps.upd_iff]
    | (extract_lets +onlyGivenNames x; subst x) | dsimp only

theorem pinChangedBy_keeps {s₀ : State} (how : PinRec) (p : Nat) (was : Bool) (cause : Nat) (at_ : Nat) {s : State} (hk : Keeps s₀ s) : Keeps s₀ (pinChangedBy how p was cause at_ s) := by
  unfold pinChangedBy
  repeat' first
    | (with_reducible first | assumption | apply setPin_keeps | apply pinRecord_keeps | apply raiseIrq_keeps) | intro _
    | (extract_lets +onlyGivenNames x; refine (fun (hx : Keeps s₀ x) => ?_) ?_; (clear_value x); rotate_left; subst x) | split | simp only [↓Keeps.upd_iff]
    | (extract_lets +onlyGivenNames x; subst x) | dsimp only

theorem pinChanged_keeps {s₀ : State} (p : Nat) (was : Bool) (cause : Nat) (at_ : Nat) {s : State} (hk : Keeps s₀ s) : Keeps s₀ (pinChanged p was cause at_ s) := by
  unfold pinChanged
  repeat' first
    | (with_reducible first | assumption | apply pinChangedBy_keeps)

theorem setLevel_keeps {s₀ : State} (how : PinRec) (p : Nat) (v : Bool) (cause : Nat) (at_ : Nat) {s : State} (hk : Keeps s₀ s) : Keeps s₀ (setLevel how p v cause at_ s) := by
  unfold setLevel
  repeat' first
    | (with_reducible first | assumption | apply pinChangedBy_keeps | apply setPin_keeps) | intro _
    | (extract_lets +onlyGivenNames x; refine (fun (hx : Keeps s₀ x) => ?_) ?_; (clear_value x); rotate_left; subst x) | simp only [↓Keeps.upd_iff]
    | (extract_lets +onlyGivenNames x; subst x) | dsimp only

theorem pinStep_keeps {s₀ : State} (how : PinRec) (p : Nat) (b : Nat) {s : State} (hk : Keeps s₀ s) : Keeps s₀ (pinStep how p b s) := by
  unfold pinStep
  repeat' first
    | (with_reducible first | assumption | apply setPin_keeps | apply setLevel_keeps | apply pinRecord_keeps) | intro _
    | (extract_lets +onlyGivenNames x; refine (fun (hx : Keeps s₀ x) => ?_) ?_; (clear_value x); rotate_left; subst x) | split | simp only [↓Keeps.upd_iff]
    | (extract_lets +onlyGivenNames x; subst x) | dsimp only

theorem pinFailSafe_keeps {s₀ : State} (p : Nat) (b : Nat) (bay : Nat) {s : State} (hk : Keeps s₀ s) : Keeps s₀ (pinFailSafe p b bay s) := by
  unfold pinFailSafe
  repeat' first
    | (with_reducible first | assumption | apply setPin_keeps | apply setLevel_keeps) | intro _
    | (extract_lets +onlyGivenNames x; refine (fun (hx : Keeps s₀ x) => ?_) ?_; (clear_value x); rotate_left; subst x) | split | simp only [↓Keeps.upd_iff]
    | (extract_lets +onlyGivenNames x; subst x) | dsimp only

theorem adoptSlot_keeps {s₀ : State} (p : Nat) {s : State} (hk : Keeps s₀ s) : Keeps s₀ (adoptSlot p s) := by
  unfold adoptSlot
  repeat' first
    | (with_reducible first | assumption | apply setPin_keeps) | intro _
    | (extract_lets +onlyGivenNames x; refine (fun (hx : Keeps s₀ x) => ?_) ?_; (clear_value x); rotate_left; subst x) | split | simp only [↓Keeps.upd_iff]
    | (extract_lets +onlyGivenNames x; subst x) | dsimp only

theorem pinBoundary_keeps {s₀ : State} (withheld : Nat → Bool) (b : Nat) (p : Nat) {s : State} (hk : Keeps s₀ s) : Keeps s₀ (pinBoundary withheld b p s) := by
  unfold pinBoundary
  repeat' first
    | (with_reducible first | assumption | apply setPin_keeps | apply pinFailSafe_keeps | apply adoptSlot_keeps | apply pinStep_keeps) | intro _
    | (extract_lets +onlyGivenNames x; refine (fun (hx : Keeps s₀ x) => ?_) ?_; (clear_value x); rotate_left; subst x) | split | simp only [↓Keeps.upd_iff]
    | (extract_lets +onlyGivenNames x; subst x) | dsimp only

theorem takeSeal_keeps {s₀ : State} (withheld : Nat → Bool) {s : State} (hk : Keeps s₀ s) : Keeps s₀ (takeSeal withheld s) := by
  unfold takeSeal
  repeat' first
    | (with_reducible first | assumption | apply foldl_keeps | apply setPin_keeps) | intro _
    | (extract_lets +onlyGivenNames x; refine (fun (hx : Keeps s₀ x) => ?_) ?_; (clear_value x); rotate_left; subst x) | split | simp only [↓Keeps.upd_iff]
    | (extract_lets +onlyGivenNames x; subst x) | dsimp only

theorem pinsBoundary_keeps {s₀ : State} (withheld : Nat → Bool) (b : Nat) {s : State} (hk : Keeps s₀ s) : Keeps s₀ (pinsBoundary withheld b s) := by
  unfold pinsBoundary
  repeat' first
    | (with_reducible first | assumption | apply foldl_keeps | apply pinBoundary_keeps) | intro _ | simp only [↓Keeps.upd_iff] | dsimp only

theorem resolvePin_keeps {s₀ : State} (b : Nat) (p : Nat) {s : State} (hk : Keeps s₀ s) : Keeps s₀ (resolvePin b p s) := by
  unfold resolvePin
  repeat' first
    | (with_reducible first | assumption | apply setPin_keeps) | intro _
    | (extract_lets +onlyGivenNames x; refine (fun (hx : Keeps s₀ x) => ?_) ?_; (clear_value x); rotate_left; subst x) | split | simp only [↓Keeps.upd_iff]
    | (extract_lets +onlyGivenNames x; subst x) | dsimp only

theorem resolvePins_keeps {s₀ : State} (b : Nat) {s : State} (hk : Keeps s₀ s) : Keeps s₀ (resolvePins b s) := by
  unfold resolvePins
  repeat' first
    | (with_reducible first | assumption | apply foldl_keeps | apply resolvePin_keeps) | intro _ | dsimp only

theorem pinsLow_keeps {s₀ : State} {s : State} (hk : Keeps s₀ s) : Keeps s₀ (pinsLow s) := by
  unfold pinsLow
  repeat' first
    | (with_reducible first | assumption | apply foldl_keeps | apply setTrip_keeps | apply pinChanged_keeps | apply setPin_keeps) | intro _
    | (extract_lets +onlyGivenNames x; refine (fun (hx : Keeps s₀ x) => ?_) ?_; (clear_value x); rotate_left; subst x) | split | simp only [↓Keeps.upd_iff]
    | (extract_lets +onlyGivenNames x; subst x) | dsimp only

theorem pinEnds_keeps {s₀ : State} (p : Nat) {s : State} (hk : Keeps s₀ s) : Keeps s₀ (pinEnds p s) := by
  unfold pinEnds
  repeat' first
    | (with_reducible first | assumption | apply setPin_keeps | apply setClk_keeps | apply adoptSlot_keeps | apply pinStep_keeps) | intro _
    | (extract_lets +onlyGivenNames x; refine (fun (hx : Keeps s₀ x) => ?_) ?_; (clear_value x); rotate_left; subst x) | split | simp only [↓Keeps.upd_iff]
    | (extract_lets +onlyGivenNames x; subst x) | dsimp only

theorem execMinPulseEnd_keeps {s₀ : State} (p : BitVec 5) {s : State} (hk : Keeps s₀ s) : OutKeeps s₀ (execMinPulseEnd p s) := by
  unfold execMinPulseEnd
  repeat' first
    | (with_reducible first | assumption | apply pinEnds_keeps) | (extract_lets +onlyGivenNames x; refine (fun (hx : Keeps s₀ x) => ?_) ?_; (clear_value x); rotate_left; subst x)
    | split | simp only [↓outKeeps_mk] | (extract_lets +onlyGivenNames x; subst x) | dsimp only

theorem execSealMaxEnd_keeps {s₀ : State} (p : BitVec 5) {s : State} (hk : Keeps s₀ s) : OutKeeps s₀ (execSealMaxEnd p s) := by
  unfold execSealMaxEnd
  repeat' first
    | (with_reducible first | assumption | apply pinEnds_keeps) | (extract_lets +onlyGivenNames x; refine (fun (hx : Keeps s₀ x) => ?_) ?_; (clear_value x); rotate_left; subst x)
    | split | simp only [↓Keeps.upd_iff, ↓outKeeps_mk] | (extract_lets +onlyGivenNames x; subst x) | dsimp only

theorem rbRecord_keeps {s₀ : State} (p : Nat) (code : Nat) (more : Bytes) {s : State} (hk : Keeps s₀ s) : Keeps s₀ (rbRecord p code more s) := by
  unfold rbRecord
  repeat' first
    | (with_reducible first | assumption | apply postEvent_keeps)

theorem mismatchEpisode_keeps {s₀ : State} (p : Nat) {s : State} (hk : Keeps s₀ s) : Keeps s₀ (mismatchEpisode p s) := by
  unfold mismatchEpisode
  repeat' first
    | (with_reducible first | assumption | apply settle_keeps | apply countEvent_keeps | apply rbRecord_keeps | apply setPin_keeps) | intro _
    | (extract_lets +onlyGivenNames x; refine (fun (hx : Keeps s₀ x) => ?_) ?_; (clear_value x); rotate_left; subst x) | split | simp only [↓Keeps.upd_iff]
    | (extract_lets +onlyGivenNames x; subst x) | dsimp only

theorem execRbMismatchStart_keeps {s₀ : State} (p : BitVec 5) (level : Bool) {s : State} (hk : Keeps s₀ s) : OutKeeps s₀ (execRbMismatchStart p level s) := by
  unfold execRbMismatchStart
  repeat' first
    | (with_reducible first | assumption | apply mismatchEpisode_keeps | apply setTrip_keeps) | intro _
    | (extract_lets +onlyGivenNames x; refine (fun (hx : Keeps s₀ x) => ?_) ?_; (clear_value x); rotate_left; subst x) | simp only [↓Keeps.upd_iff, ↓outKeeps_mk]
    | (extract_lets +onlyGivenNames x; subst x) | dsimp only

theorem execRbMismatchEnd_keeps {s₀ : State} (p : BitVec 5) (level : Bool) {s : State} (hk : Keeps s₀ s) : OutKeeps s₀ (execRbMismatchEnd p level s) := by
  unfold execRbMismatchEnd
  repeat' first
    | (with_reducible first | assumption | apply setTrip_keeps | apply rbRecord_keeps | apply setPin_keeps) | intro _
    | (extract_lets +onlyGivenNames x; refine (fun (hx : Keeps s₀ x) => ?_) ?_; (clear_value x); rotate_left; subst x) | split | simp only [↓Keeps.upd_iff, ↓outKeeps_mk]
    | (extract_lets +onlyGivenNames x; subst x) | dsimp only

theorem tcsChange_keeps {s₀ : State} (p : Nat) (alarm : Bool) {s : State} (hk : Keeps s₀ s) : Keeps s₀ (tcsChange p alarm s) := by
  unfold tcsChange
  repeat' first
    | (with_reducible first | assumption | apply setPin_keeps | apply postEvent_keeps | apply raiseIrq_keeps) | intro _
    | (extract_lets +onlyGivenNames x; refine (fun (hx : Keeps s₀ x) => ?_) ?_; (clear_value x); rotate_left; subst x) | split | simp only [↓Keeps.upd_iff]
    | (extract_lets +onlyGivenNames x; subst x) | dsimp only

theorem tcsStep_keeps {s₀ : State} (p : Nat) {s : State} (hk : Keeps s₀ s) : Keeps s₀ (tcsStep p s) := by
  unfold tcsStep
  repeat' first
    | (with_reducible first | assumption | apply setPin_keeps | apply tcsChange_keeps) | intro _
    | (extract_lets +onlyGivenNames x; refine (fun (hx : Keeps s₀ x) => ?_) ?_; (clear_value x); rotate_left; subst x) | split | simp only [↓Keeps.upd_iff]
    | (extract_lets +onlyGivenNames x; subst x) | dsimp only

theorem tcsAll_keeps {s₀ : State} {s : State} (hk : Keeps s₀ s) : Keeps s₀ (tcsAll s) := by
  unfold tcsAll
  repeat' first
    | (with_reducible first | assumption | apply foldl_keeps | apply tcsStep_keeps) | intro _ | dsimp only

theorem execAuxConversionDone_keeps {s₀ : State} (x : AuxCode) {s : State} (hk : Keeps s₀ s) : OutKeeps s₀ (execAuxConversionDone x s) := by
  unfold execAuxConversionDone
  repeat' first
    | (with_reducible first | assumption | apply tcsAll_keeps | apply auxConverted_keeps) | simp only [↓outKeeps_mk]

theorem tcsDelay_keeps {s₀ : State} (p : Nat) (ok : Bool) {s : State} (hk : Keeps s₀ s) : Keeps s₀ (tcsDelay p ok s) := by
  unfold tcsDelay
  repeat' first
    | (with_reducible first | assumption | apply tcsStep_keeps | apply setClk_keeps)
    | (extract_lets +onlyGivenNames x; refine (fun (hx : Keeps s₀ x) => ?_) ?_; (clear_value x); rotate_left; subst x) | split | simp only [↓Keeps.upd_iff]
    | (extract_lets +onlyGivenNames x; subst x) | dsimp only

theorem execTcsAlarm_keeps {s₀ : State} (p : BitVec 5) {s : State} (hk : Keeps s₀ s) : OutKeeps s₀ (execTcsAlarm p s) := by
  unfold execTcsAlarm
  repeat' first
    | (with_reducible first | assumption | apply tcsDelay_keeps) | simp only [↓outKeeps_mk]

theorem execTcsClear_keeps {s₀ : State} (p : BitVec 5) {s : State} (hk : Keeps s₀ s) : OutKeeps s₀ (execTcsClear p s) := by
  unfold execTcsClear
  repeat' first
    | (with_reducible first | assumption | apply tcsDelay_keeps) | simp only [↓outKeeps_mk]

theorem execTcsStale_keeps {s₀ : State} (p : BitVec 5) {s : State} (hk : Keeps s₀ s) : OutKeeps s₀ (execTcsStale p s) := by
  unfold execTcsStale
  repeat' first
    | (with_reducible first | assumption | apply tcsStep_keeps | apply setClk_keeps)
    | (extract_lets +onlyGivenNames x; refine (fun (hx : Keeps s₀ x) => ?_) ?_; (clear_value x); rotate_left; subst x) | split | simp only [↓Keeps.upd_iff, ↓outKeeps_mk]
    | (extract_lets +onlyGivenNames x; subst x) | dsimp only

theorem setBi_keeps {s₀ : State} (i : Nat) (f : BiSt → BiSt) {s : State} (hk : Keeps s₀ s) : Keeps s₀ (setBi i f s) := by
  unfold setBi
  repeat' first
    | (with_reducible first | assumption | apply setTrip_keeps) | intro _
    | (extract_lets +onlyGivenNames x; refine (fun (hx : Keeps s₀ x) => ?_) ?_; (clear_value x); rotate_left; subst x) | simp only [↓Keeps.upd_iff]
    | (extract_lets +onlyGivenNames x; subst x) | dsimp only

theorem noteEdge_keeps {s₀ : State} (i : Nat) (up : Bool) {s : State} (hk : Keeps s₀ s) : Keeps s₀ (noteEdge i up s) := by
  unfold noteEdge
  repeat' first
    | assumption | (extract_lets +onlyGivenNames x; refine (fun (hx : Keeps s₀ x) => ?_) ?_; (clear_value x); rotate_left; subst x) | split | simp only [↓Keeps.upd_iff]
    | (extract_lets +onlyGivenNames x; subst x) | dsimp only

theorem biAccept_keeps {s₀ : State} (i : Nat) {s : State} (hk : Keeps s₀ s) : Keeps s₀ (biAccept i s) := by
  unfold biAccept
  repeat' first
    | (with_reducible first | assumption | apply setBi_keeps | apply noteEdge_keeps) | intro _
    | (extract_lets +onlyGivenNames x; refine (fun (hx : Keeps s₀ x) => ?_) ?_; (clear_value x); rotate_left; subst x) | split | simp only [↓Keeps.upd_iff]
    | (extract_lets +onlyGivenNames x; subst x) | dsimp only

theorem execBiEdge_keeps {s₀ : State} (i : BitVec 6) (level : Bool) (t : Nat) {s : State} (hk : Keeps s₀ s) : OutKeeps s₀ (execBiEdge i level t s) := by
  unfold execBiEdge
  repeat' first
    | (with_reducible first | assumption | apply biAccept_keeps | apply setClk_keeps | apply setBi_keeps) | intro _
    | (extract_lets +onlyGivenNames x; refine (fun (hx : Keeps s₀ x) => ?_) ?_; (clear_value x); rotate_left; subst x) | split | simp only [↓Keeps.upd_iff, ↓outKeeps_mk]
    | (extract_lets +onlyGivenNames x; subst x) | dsimp only

theorem execBiDebounceEnd_keeps {s₀ : State} (i : BitVec 6) {s : State} (hk : Keeps s₀ s) : OutKeeps s₀ (execBiDebounceEnd i s) := by
  unfold execBiDebounceEnd
  repeat' first
    | (with_reducible first | assumption | apply biAccept_keeps | apply setClk_keeps)
    | (extract_lets +onlyGivenNames x; refine (fun (hx : Keeps s₀ x) => ?_) ?_; (clear_value x); rotate_left; subst x) | split | simp only [↓outKeeps_mk]
    | (extract_lets +onlyGivenNames x; subst x) | dsimp only

theorem biSnapshot_keeps {s₀ : State} {s : State} (hk : Keeps s₀ s) : Keeps s₀ (biSnapshot s) := by
  unfold biSnapshot
  repeat' first
    | (with_reducible first | assumption | apply foldl_keeps | apply biAccept_keeps | apply setTrip_keeps) | intro _
    | (extract_lets +onlyGivenNames x; refine (fun (hx : Keeps s₀ x) => ?_) ?_; (clear_value x); rotate_left; subst x) | simp only [↓Keeps.upd_iff]
    | (extract_lets +onlyGivenNames x; subst x) | dsimp only

theorem notePins_keeps {s₀ : State} {s : State} (hk : Keeps s₀ s) : Keeps s₀ (notePins s) := by
  unfold notePins
  repeat' first
    | (with_reducible first | assumption | apply setTrip_keeps) | intro _
    | (extract_lets +onlyGivenNames x; refine (fun (hx : Keeps s₀ x) => ?_) ?_; (clear_value x); rotate_left; subst x) | split | simp only [↓Keeps.upd_iff]
    | (extract_lets +onlyGivenNames x; subst x) | dsimp only

end Sys2Proof.Machine.Laws
end

