-- ==== Sys2Proof/Laws/KeepsRec.lean ====
section
/-! SUPPORT. One lemma per operation of publications, timers, loops and records, named after it: it keeps what Keeps says. -/

namespace Sys2Proof.Machine.Laws
open Sys2Proof.Machine

set_option Elab.async false

/-! ### GoosePub -/

theorem setGoosePub_keeps {s₀ : State} (i : Nat) (f : GoosePub → GoosePub) {s : State} (hk : Keeps s₀ s) : Keeps s₀ (setGoosePub i f s) := by
  unfold setGoosePub
  repeat' first
    | (with_reducible first | assumption | apply setNet_keeps) | intro _
    | (extract_lets +onlyGivenNames x; refine (fun (hx : Keeps s₀ x) => ?_) ?_; (clear_value x); rotate_left; subst x) | simp only [↓Keeps.upd_iff]
    | (extract_lets +onlyGivenNames x; subst x) | dsimp only

theorem execGoosePub_keeps {s₀ : State} (c : Cmd) {s : State} (hk : Keeps s₀ s) : OutKeeps s₀ (execGoosePub c s) := by
  unfold execGoosePub
  repeat' first
    | (with_reducible first | assumption | apply command_keeps) | intro _
    | (extract_lets +onlyGivenNames x; refine (fun (hx : Keeps s₀ x) => ?_) ?_; (clear_value x); rotate_left; subst x) | split
    | simp only [↓Keeps.upd_iff, ↓outKeeps_mk, ↓actKeeps_done, ↓actKeeps_boundary, ↓actKeeps_goesOn] | (extract_lets +onlyGivenNames x; subst x) | dsimp only

theorem applyGoosePub_keeps {s₀ : State} (i : Nat) (b : Bytes) {s : State} (hk : Keeps s₀ s) : Keeps s₀ (applyGoosePub i b s) := by
  unfold applyGoosePub
  repeat' first
    | (with_reducible first | assumption | apply setGoosePub_keeps) | intro _
    | (extract_lets +onlyGivenNames x; refine (fun (hx : Keeps s₀ x) => ?_) ?_; (clear_value x); rotate_left; subst x) | split | simp only [↓Keeps.upd_iff]
    | (extract_lets +onlyGivenNames x; subst x) | dsimp only

theorem sendGoose_keeps {s₀ : State} (i : Nat) (ahead : Nat × Nat) {s : State} (hk : Keeps s₀ s) : Keeps s₀ (sendGoose i ahead s) := by
  unfold sendGoose
  repeat' first
    | (with_reducible first | assumption | apply setGoosePub_keeps | apply sendFrame_keeps) | intro _
    | (extract_lets +onlyGivenNames x; refine (fun (hx : Keeps s₀ x) => ?_) ?_; (clear_value x); rotate_left; subst x) | split | simp only [↓Keeps.upd_iff]
    | (extract_lets +onlyGivenNames x; subst x) | dsimp only

theorem evalGoosePub_keeps {s₀ : State} (i : Nat) (ahead : Nat × Nat) {s : State} (hk : Keeps s₀ s) : Keeps s₀ (evalGoosePub i ahead s) := by
  unfold evalGoosePub
  repeat' first
    | (with_reducible first | assumption | apply setGoosePub_keeps | apply sendGoose_keeps) | intro _
    | (extract_lets +onlyGivenNames x; refine (fun (hx : Keeps s₀ x) => ?_) ?_; (clear_value x); rotate_left; subst x) | split | simp only [↓Keeps.upd_iff]
    | (extract_lets +onlyGivenNames x; subst x) | dsimp only

theorem evalGooseClass_keeps {s₀ : State} (trip : Bool) (withheld : Nat → Bool) {s : State} (hk : Keeps s₀ s) : Keeps s₀ (evalGooseClass trip withheld s) := by
  unfold evalGooseClass
  refine FstKeeps.proj (foldl_fstKeeps (fun q i hq => ?_) (FstKeeps.intro hk))
  dsimp only
  split
  · exact hq
  · split
    · exact FstKeeps.intro (evalGoosePub_keeps _ _ hq)
    · exact FstKeeps.intro (evalGoosePub_keeps _ _ hq)

theorem evalGoosePubs_keeps {s₀ : State} (withheld : Nat → Bool) {s : State} (hk : Keeps s₀ s) : Keeps s₀ (evalGoosePubs withheld s) := by
  unfold evalGoosePubs
  repeat' first
    | (with_reducible first | assumption | apply evalGooseClass_keeps) | simp only [↓Keeps.upd_iff]

theorem stopGoosePubs_keeps {s₀ : State} {s : State} (hk : Keeps s₀ s) : Keeps s₀ (stopGoosePubs s) := by
  unfold stopGoosePubs
  repeat' first
    | (with_reducible first | assumption | apply setNet_keeps) | intro _
    | (extract_lets +onlyGivenNames x; refine (fun (hx : Keeps s₀ x) => ?_) ?_; (clear_value x); rotate_left; subst x) | simp only [↓Keeps.upd_iff]
    | (extract_lets +onlyGivenNames x; subst x) | dsimp only

theorem execGooseRetransmit_keeps {s₀ : State} (i : BitVec 6) {s : State} (hk : Keeps s₀ s) : OutKeeps s₀ (execGooseRetransmit i s) := by
  unfold execGooseRetransmit
  repeat' first
    | (with_reducible first | assumption | apply sendGoose_keeps | apply setGoosePub_keeps | apply setClk_keeps) | intro _
    | (extract_lets +onlyGivenNames x; refine (fun (hx : Keeps s₀ x) => ?_) ?_; (clear_value x); rotate_left; subst x) | split | simp only [↓Keeps.upd_iff, ↓outKeeps_mk]
    | (extract_lets +onlyGivenNames x; subst x) | dsimp only

/-! ### Timers -/

theorem reach_keeps {s₀ : State} (t : Nat) {s : State} (hk : Keeps s₀ s) : Keeps s₀ (reach t s) := by
  unfold reach
  repeat' first
    | (with_reducible first | assumption | apply setClk_keeps) | split | dsimp only

theorem raiseTrip_keeps {s₀ : State} (b : Nat) {s : State} (hk : Keeps s₀ s) : Keeps s₀ (raiseTrip b s) := by
  unfold raiseTrip
  repeat' first
    | (with_reducible first | assumption | apply tripStep_keeps) | split | dsimp only

theorem afterTimer_keeps {s₀ : State} (b : Nat) (f : BCtx → BayRun → BayRun) {s : State} (hk : Keeps s₀ s) : Keeps s₀ (afterTimer b f s) := by
  unfold afterTimer
  repeat' first
    | (with_reducible first | assumption | apply setBay_keeps | apply raiseTrip_keeps) | intro _
    | (extract_lets +onlyGivenNames x; refine (fun (hx : Keeps s₀ x) => ?_) ?_; (clear_value x); rotate_left; subst x) | split | simp only [↓Keeps.upd_iff]
    | (extract_lets +onlyGivenNames x; subst x) | dsimp only

theorem stageTimer_keeps {s₀ : State} (b : Nat) (i : Nat) (f : BCtx → Bytes → StageSt → StageSt) {s : State} (hk : Keeps s₀ s) : Keeps s₀ (stageTimer b i f s) := by
  unfold stageTimer
  repeat' first
    | (with_reducible first | assumption | apply afterTimer_keeps) | intro _
    | (extract_lets +onlyGivenNames x; refine (fun (hx : Keeps s₀ x) => ?_) ?_; (clear_value x); rotate_left; subst x) | split | simp only [↓Keeps.upd_iff]
    | (extract_lets +onlyGivenNames x; subst x) | dsimp only

theorem execStageTdExpiry_keeps {s₀ : State} (bay : BitVec 6) (elem : BitVec 6) {s : State} (hk : Keeps s₀ s) : OutKeeps s₀ (execStageTdExpiry bay elem s) := by
  unfold execStageTdExpiry
  repeat' first
    | (with_reducible first | assumption | apply afterTimer_keeps | apply reach_keeps | apply stageTimer_keeps) | intro _
    | (extract_lets +onlyGivenNames x; refine (fun (hx : Keeps s₀ x) => ?_) ?_; (clear_value x); rotate_left; subst x) | split | simp only [↓Keeps.upd_iff, ↓outKeeps_mk]
    | (extract_lets +onlyGivenNames x; subst x) | dsimp only

theorem execStageResetTimeout_keeps {s₀ : State} (bay : BitVec 6) (i : BitVec 5) {s : State} (hk : Keeps s₀ s) : OutKeeps s₀ (execStageResetTimeout bay i s) := by
  unfold execStageResetTimeout
  repeat' first
    | (with_reducible first | assumption | apply reach_keeps | apply setRun_keeps) | intro _
    | (extract_lets +onlyGivenNames x; refine (fun (hx : Keeps s₀ x) => ?_) ?_; (clear_value x); rotate_left; subst x) | split | simp only [↓Keeps.upd_iff, ↓outKeeps_mk]
    | (extract_lets +onlyGivenNames x; subst x) | dsimp only

theorem execCurveOperate_keeps {s₀ : State} (bay : BitVec 6) (i : BitVec 5) {s : State} (hk : Keeps s₀ s) : OutKeeps s₀ (execCurveOperate bay i s) := by
  unfold execCurveOperate
  repeat' first
    | (with_reducible first | assumption | apply reach_keeps | apply stageTimer_keeps) | intro _
    | (extract_lets +onlyGivenNames x; refine (fun (hx : Keeps s₀ x) => ?_) ?_; (clear_value x); rotate_left; subst x) | split | simp only [↓outKeeps_mk]
    | (extract_lets +onlyGivenNames x; subst x) | dsimp only

theorem execCurveResetTimeout_keeps {s₀ : State} (bay : BitVec 6) (i : BitVec 5) {s : State} (hk : Keeps s₀ s) : OutKeeps s₀ (execCurveResetTimeout bay i s) := by
  unfold execCurveResetTimeout
  repeat' first
    | (with_reducible first | assumption | apply reach_keeps | apply setRun_keeps) | intro _
    | (extract_lets +onlyGivenNames x; refine (fun (hx : Keeps s₀ x) => ?_) ?_; (clear_value x); rotate_left; subst x) | split | simp only [↓Keeps.upd_iff, ↓outKeeps_mk]
    | (extract_lets +onlyGivenNames x; subst x) | dsimp only

theorem arTimer_keeps {s₀ : State} (st : Nat) (b : Nat) {s : State} (hk : Keeps s₀ s) : Keeps s₀ (arTimer st b s) := by
  unfold arTimer
  repeat' first
    | (with_reducible first | assumption | apply reach_keeps | apply stageEvent_keeps | apply setRun_keeps) | intro _
    | (extract_lets +onlyGivenNames x; refine (fun (hx : Keeps s₀ x) => ?_) ?_; (clear_value x); rotate_left; subst x) | split | simp only [↓Keeps.upd_iff]
    | (extract_lets +onlyGivenNames x; subst x) | dsimp only

theorem execTrippedTimeout_keeps {s₀ : State} (bay : BitVec 6) {s : State} (hk : Keeps s₀ s) : OutKeeps s₀ (execTrippedTimeout bay s) := by
  unfold execTrippedTimeout
  repeat' first
    | (with_reducible first | assumption | apply arTimer_keeps) | simp only [↓outKeeps_mk]

theorem execDeadTimeEnd_keeps {s₀ : State} (bay : BitVec 6) {s : State} (hk : Keeps s₀ s) : OutKeeps s₀ (execDeadTimeEnd bay s) := by
  unfold execDeadTimeEnd
  repeat' first
    | (with_reducible first | assumption | apply arTimer_keeps) | simp only [↓outKeeps_mk]

theorem execCloseTEnd_keeps {s₀ : State} (bay : BitVec 6) {s : State} (hk : Keeps s₀ s) : OutKeeps s₀ (execCloseTEnd bay s) := by
  unfold execCloseTEnd
  repeat' first
    | (with_reducible first | assumption | apply arTimer_keeps) | simp only [↓outKeeps_mk]

theorem execReclaimEnd_keeps {s₀ : State} (bay : BitVec 6) {s : State} (hk : Keeps s₀ s) : OutKeeps s₀ (execReclaimEnd bay s) := by
  unfold execReclaimEnd
  repeat' first
    | (with_reducible first | assumption | apply arTimer_keeps) | simp only [↓outKeeps_mk]

theorem bfReach_keeps {s₀ : State} (b : Nat) (off : Nat) {s : State} (hk : Keeps s₀ s) : Keeps s₀ (bfReach b off s) := by
  unfold bfReach
  repeat' first
    | (with_reducible first | assumption | apply reach_keeps) | (extract_lets +onlyGivenNames x; refine (fun (hx : Keeps s₀ x) => ?_) ?_; (clear_value x); rotate_left; subst x)
    | split | simp only [↓Keeps.upd_iff] | (extract_lets +onlyGivenNames x; subst x) | dsimp only

theorem execBfRetrip_keeps {s₀ : State} (bay : BitVec 6) {s : State} (hk : Keeps s₀ s) : OutKeeps s₀ (execBfRetrip bay s) := by
  unfold execBfRetrip
  repeat' first
    | (with_reducible first | assumption | apply afterTimer_keeps | apply bfReach_keeps) | intro _
    | (extract_lets +onlyGivenNames x; refine (fun (hx : Keeps s₀ x) => ?_) ?_; (clear_value x); rotate_left; subst x) | split | simp only [↓Keeps.upd_iff, ↓outKeeps_mk]
    | (extract_lets +onlyGivenNames x; subst x) | dsimp only

theorem execBfBktrip_keeps {s₀ : State} (bay : BitVec 6) {s : State} (hk : Keeps s₀ s) : OutKeeps s₀ (execBfBktrip bay s) := by
  unfold execBfBktrip
  repeat' first
    | (with_reducible first | assumption | apply afterTimer_keeps | apply bfReach_keeps | apply forBays_keeps | apply raiseTrip_keeps) | intro _
    | (extract_lets +onlyGivenNames x; refine (fun (hx : Keeps s₀ x) => ?_) ?_; (clear_value x); rotate_left; subst x) | split | simp only [↓Keeps.upd_iff, ↓outKeeps_mk]
    | (extract_lets +onlyGivenNames x; subst x) | dsimp only

theorem execSotfArmed_keeps {s₀ : State} (bay : BitVec 6) {s : State} (hk : Keeps s₀ s) : OutKeeps s₀ (execSotfArmed bay s) := by
  unfold execSotfArmed
  repeat' first
    | (with_reducible first | assumption | apply setRun_keeps | apply reach_keeps) | intro _
    | (extract_lets +onlyGivenNames x; refine (fun (hx : Keeps s₀ x) => ?_) ?_; (clear_value x); rotate_left; subst x) | split | simp only [↓Keeps.upd_iff, ↓outKeeps_mk]
    | (extract_lets +onlyGivenNames x; subst x) | dsimp only

theorem execSotfWindowEnd_keeps {s₀ : State} (bay : BitVec 6) {s : State} (hk : Keeps s₀ s) : OutKeeps s₀ (execSotfWindowEnd bay s) := by
  unfold execSotfWindowEnd
  repeat' first
    | (with_reducible first | assumption | apply setRun_keeps | apply reach_keeps) | intro _
    | (extract_lets +onlyGivenNames x; refine (fun (hx : Keeps s₀ x) => ?_) ?_; (clear_value x); rotate_left; subst x) | split | simp only [↓Keeps.upd_iff, ↓outKeeps_mk]
    | (extract_lets +onlyGivenNames x; subst x) | dsimp only

theorem execClpDeenergised_keeps {s₀ : State} (bay : BitVec 6) {s : State} (hk : Keeps s₀ s) : OutKeeps s₀ (execClpDeenergised bay s) := by
  unfold execClpDeenergised
  repeat' first
    | (with_reducible first | assumption | apply setRun_keeps | apply reach_keeps) | intro _
    | (extract_lets +onlyGivenNames x; refine (fun (hx : Keeps s₀ x) => ?_) ?_; (clear_value x); rotate_left; subst x) | split | simp only [↓Keeps.upd_iff, ↓outKeeps_mk]
    | (extract_lets +onlyGivenNames x; subst x) | dsimp only

theorem execClpActEnd_keeps {s₀ : State} (bay : BitVec 6) {s : State} (hk : Keeps s₀ s) : OutKeeps s₀ (execClpActEnd bay s) := by
  unfold execClpActEnd
  repeat' first
    | (with_reducible first | assumption | apply setRun_keeps | apply reach_keeps) | intro _
    | (extract_lets +onlyGivenNames x; refine (fun (hx : Keeps s₀ x) => ?_) ?_; (clear_value x); rotate_left; subst x) | split | simp only [↓Keeps.upd_iff, ↓outKeeps_mk]
    | (extract_lets +onlyGivenNames x; subst x) | dsimp only

theorem execInrushWindowEnd_keeps {s₀ : State} (bay : BitVec 6) {s : State} (hk : Keeps s₀ s) : OutKeeps s₀ (execInrushWindowEnd bay s) := by
  unfold execInrushWindowEnd
  repeat' first
    | (with_reducible first | assumption | apply afterTimer_keeps) | intro _
    | (extract_lets +onlyGivenNames x; refine (fun (hx : Keeps s₀ x) => ?_) ?_; (clear_value x); rotate_left; subst x) | split | simp only [↓Keeps.upd_iff, ↓outKeeps_mk]
    | (extract_lets +onlyGivenNames x; subst x) | dsimp only

theorem execInrushHoldEnd_keeps {s₀ : State} (bay : BitVec 6) (phase : BitVec 2) {s : State} (hk : Keeps s₀ s) : OutKeeps s₀ (execInrushHoldEnd bay phase s) := by
  unfold execInrushHoldEnd
  repeat' first
    | (with_reducible first | assumption | apply afterTimer_keeps) | intro _
    | (extract_lets +onlyGivenNames x; refine (fun (hx : Keeps s₀ x) => ?_) ?_; (clear_value x); rotate_left; subst x) | split | simp only [↓Keeps.upd_iff, ↓outKeeps_mk]
    | (extract_lets +onlyGivenNames x; subst x) | dsimp only

theorem execRiTdExpiry_keeps {s₀ : State} (sect : BitVec 4) {s : State} (hk : Keeps s₀ s) : OutKeeps s₀ (execRiTdExpiry sect s) := by
  unfold execRiTdExpiry
  repeat' first
    | (with_reducible first | assumption | apply setSect_keeps | apply reach_keeps | apply stageEvent_keeps | apply forBays_keeps | apply raiseTrip_keeps) | intro _
    | (extract_lets +onlyGivenNames x; refine (fun (hx : Keeps s₀ x) => ?_) ?_; (clear_value x); rotate_left; subst x) | split | simp only [↓Keeps.upd_iff, ↓outKeeps_mk]
    | (extract_lets +onlyGivenNames x; subst x) | dsimp only

theorem execSatBlkEnd_keeps {s₀ : State} (sect : BitVec 4) {s : State} (hk : Keeps s₀ s) : OutKeeps s₀ (execSatBlkEnd sect s) := by
  unfold execSatBlkEnd
  repeat' first
    | (with_reducible first | assumption | apply setSect_keeps | apply reach_keeps) | intro _
    | (extract_lets +onlyGivenNames x; refine (fun (hx : Keeps s₀ x) => ?_) ?_; (clear_value x); rotate_left; subst x) | split | simp only [↓Keeps.upd_iff, ↓outKeeps_mk]
    | (extract_lets +onlyGivenNames x; subst x) | dsimp only

theorem execRiHoldEnd_keeps {s₀ : State} (sect : BitVec 4) {s : State} (hk : Keeps s₀ s) : OutKeeps s₀ (execRiHoldEnd sect s) := by
  unfold execRiHoldEnd
  repeat' first
    | (with_reducible first | assumption | apply foldl_keeps | apply reach_keeps | apply setSect_keeps) | intro _
    | (extract_lets +onlyGivenNames x; refine (fun (hx : Keeps s₀ x) => ?_) ?_; (clear_value x); rotate_left; subst x) | simp only [↓Keeps.upd_iff, ↓outKeeps_mk]
    | (extract_lets +onlyGivenNames x; subst x) | dsimp only

theorem execFrzTripEnd_keeps {s₀ : State} (bay : BitVec 6) {s : State} (hk : Keeps s₀ s) : OutKeeps s₀ (execFrzTripEnd bay s) := by
  unfold execFrzTripEnd
  repeat' first
    | (with_reducible first | assumption | apply setRun_keeps | apply reach_keeps) | intro _
    | (extract_lets +onlyGivenNames x; refine (fun (hx : Keeps s₀ x) => ?_) ?_; (clear_value x); rotate_left; subst x) | split | simp only [↓Keeps.upd_iff, ↓outKeeps_mk]
    | (extract_lets +onlyGivenNames x; subst x) | dsimp only

theorem execHifBackgroundValid_keeps {s₀ : State} (bay : BitVec 6) (lane : BitVec 2) {s : State} (hk : Keeps s₀ s) : OutKeeps s₀ (execHifBackgroundValid bay lane s) := by
  unfold execHifBackgroundValid
  repeat' first
    | (with_reducible first | assumption | apply setRun_keeps) | intro _
    | (extract_lets +onlyGivenNames x; refine (fun (hx : Keeps s₀ x) => ?_) ?_; (clear_value x); rotate_left; subst x) | split | simp only [↓Keeps.upd_iff, ↓outKeeps_mk]
    | (extract_lets +onlyGivenNames x; subst x) | dsimp only

theorem execMemTEnd_keeps {s₀ : State} (bay : BitVec 6) {s : State} (hk : Keeps s₀ s) : OutKeeps s₀ (execMemTEnd bay s) := by
  unfold execMemTEnd
  repeat' first
    | (with_reducible first | assumption | apply setRun_keeps | apply reach_keeps) | intro _
    | (extract_lets +onlyGivenNames x; refine (fun (hx : Keeps s₀ x) => ?_) ?_; (clear_value x); rotate_left; subst x) | split | simp only [↓Keeps.upd_iff, ↓outKeeps_mk]
    | (extract_lets +onlyGivenNames x; subst x) | dsimp only

theorem execLogicTimerExpiry_keeps {s₀ : State} (bay : BitVec 6) (t : BitVec 8) {s : State} (hk : Keeps s₀ s) : OutKeeps s₀ (execLogicTimerExpiry bay t s) := by
  unfold execLogicTimerExpiry
  repeat' first
    | (with_reducible first | assumption | apply setLogic_keeps) | intro _
    | (extract_lets +onlyGivenNames x; refine (fun (hx : Keeps s₀ x) => ?_) ?_; (clear_value x); rotate_left; subst x) | split | simp only [↓Keeps.upd_iff, ↓outKeeps_mk]
    | (extract_lets +onlyGivenNames x; subst x) | dsimp only

theorem setChk_keeps {s₀ : State} (unit : Nat) (code : Nat) (ph : Nat) (c : Chk) {s : State} (hk : Keeps s₀ s) : Keeps s₀ (setChk unit code ph c s) := by
  unfold setChk
  repeat' first
    | (with_reducible first | assumption | apply setRun_keeps | apply setSect_keeps) | intro _
    | (extract_lets +onlyGivenNames x; refine (fun (hx : Keeps s₀ x) => ?_) ?_; (clear_value x); rotate_left; subst x) | split | simp only [↓Keeps.upd_iff]
    | (extract_lets +onlyGivenNames x; subst x) | dsimp only

theorem chkRow_keeps {s₀ : State} (f : Bytes → Chk → Chk × List ChkEv) (unit : Nat) (code : Nat) (ph : Nat) {s : State} (hk : Keeps s₀ s) : Keeps s₀ (chkRow f unit code ph s) := by
  unfold chkRow
  repeat' first
    | (with_reducible first | assumption | apply settle_keeps | apply stageChk_keeps | apply setChk_keeps)
    | (extract_lets +onlyGivenNames x; refine (fun (hx : Keeps s₀ x) => ?_) ?_; (clear_value x); rotate_left; subst x) | split | (extract_lets +onlyGivenNames x; subst x)
    | dsimp only

theorem execPlausibilityLasting_keeps {s₀ : State} (unit : BitVec 16) (code : BitVec 3) (phase : BitVec 2) {s : State} (hk : Keeps s₀ s) : OutKeeps s₀ (execPlausibilityLasting unit code phase s) := by
  unfold execPlausibilityLasting
  repeat' first
    | (with_reducible first | assumption | apply chkRow_keeps) | intro _ | simp only [↓outKeeps_mk] | dsimp only

theorem execPlausibilityCleared_keeps {s₀ : State} (unit : BitVec 16) (code : BitVec 3) (phase : BitVec 2) {s : State} (hk : Keeps s₀ s) : OutKeeps s₀ (execPlausibilityCleared unit code phase s) := by
  unfold execPlausibilityCleared
  repeat' first
    | (with_reducible first | assumption | apply chkRow_keeps | apply clear12_keeps | apply clearSect_keeps) | intro _
    | (extract_lets +onlyGivenNames x; refine (fun (hx : Keeps s₀ x) => ?_) ?_; (clear_value x); rotate_left; subst x) | split | simp only [↓outKeeps_mk]
    | (extract_lets +onlyGivenNames x; subst x) | dsimp only

theorem execPlausibilityEpisodeEnd_keeps {s₀ : State} (unit : BitVec 16) (code : BitVec 3) (phase : BitVec 2) {s : State} (hk : Keeps s₀ s) : OutKeeps s₀ (execPlausibilityEpisodeEnd unit code phase s) := by
  unfold execPlausibilityEpisodeEnd
  repeat' first
    | (with_reducible first | assumption | apply chkRow_keeps) | intro _ | simp only [↓outKeeps_mk] | dsimp only

theorem frameEnd_keeps {s₀ : State} (b : Nat) {s : State} (hk : Keeps s₀ s) : Keeps s₀ (frameEnd b s) := by
  unfold frameEnd
  repeat' first
    | (with_reducible first | assumption | apply setRun_keeps) | intro _
    | (extract_lets +onlyGivenNames x; refine (fun (hx : Keeps s₀ x) => ?_) ?_; (clear_value x); rotate_left; subst x) | split | simp only [↓Keeps.upd_iff]
    | (extract_lets +onlyGivenNames x; subst x) | dsimp only

theorem execCycleFrameEnd_keeps {s₀ : State} {s : State} (hk : Keeps s₀ s) : OutKeeps s₀ (execCycleFrameEnd s) := by
  unfold execCycleFrameEnd
  repeat' first
    | (with_reducible first | assumption | apply forBays_keeps | apply frameEnd_keeps) | intro _ | simp only [↓outKeeps_mk]

theorem execEnergyCountersSave_keeps {s₀ : State} {s : State} (hk : Keeps s₀ s) : OutKeeps s₀ (execEnergyCountersSave s) := by
  unfold execEnergyCountersSave
  repeat' first
    | (with_reducible first | assumption | apply setProt_keeps) | intro _
    | (extract_lets +onlyGivenNames x; refine (fun (hx : Keeps s₀ x) => ?_) ?_; (clear_value x); rotate_left; subst x) | simp only [↓Keeps.upd_iff, ↓outKeeps_mk]
    | (extract_lets +onlyGivenNames x; subst x) | dsimp only

/-! ### Loops -/

theorem setLoops_keeps {s₀ : State} (f : LoopsSt → LoopsSt) {s : State} (hk : Keeps s₀ s) : Keeps s₀ (setLoops f s) := by
  unfold setLoops
  repeat' first
    | assumption | (extract_lets +onlyGivenNames x; refine (fun (hx : Keeps s₀ x) => ?_) ?_; (clear_value x); rotate_left; subst x) | simp only [↓Keeps.upd_iff]
    | (extract_lets +onlyGivenNames x; subst x) | dsimp only

theorem setLoop_keeps {s₀ : State} (i : Nat) (f : LoopSt → LoopSt) {s : State} (hk : Keeps s₀ s) : Keeps s₀ (setLoop i f s) := by
  unfold setLoop
  repeat' first
    | (with_reducible first | assumption | apply setLoops_keeps) | intro _
    | (extract_lets +onlyGivenNames x; refine (fun (hx : Keeps s₀ x) => ?_) ?_; (clear_value x); rotate_left; subst x) | simp only [↓Keeps.upd_iff]
    | (extract_lets +onlyGivenNames x; subst x) | dsimp only

theorem countModel_keeps {s₀ : State} (i : Nat) (exc : Bool) (b : Bytes) {s : State} (hk : Keeps s₀ s) : Keeps s₀ (countModel i exc b s) := by
  unfold countModel
  repeat' first
    | (with_reducible first | assumption | apply setLoop_keeps | apply setSupv_keeps | apply endEpisode_keeps) | intro _
    | (extract_lets +onlyGivenNames x; refine (fun (hx : Keeps s₀ x) => ?_) ?_; (clear_value x); rotate_left; subst x) | split | simp only [↓Keeps.upd_iff]
    | (extract_lets +onlyGivenNames x; subst x) | dsimp only

theorem handover_keeps {s₀ : State} (i : Nat) (u : Int) (b : Bytes) {s : State} (hk : Keeps s₀ s) : Keeps s₀ (handover i u b s) := by
  unfold handover
  repeat' first
    | (with_reducible first | assumption | apply setLoop_keeps | apply setLoops_keeps | apply postEvent_keeps | apply raiseIrq_keeps | apply settle_keeps | apply declare_keeps)
    | intro _ | (extract_lets +onlyGivenNames x; refine (fun (hx : Keeps s₀ x) => ?_) ?_; (clear_value x); rotate_left; subst x) | split | simp only [↓Keeps.upd_iff]
    | (extract_lets +onlyGivenNames x; subst x) | dsimp only

theorem injUpdate_keeps {s₀ : State} (i : Nat) (d : Nat) (held : Bool) {s : State} (hk : Keeps s₀ s) : Keeps s₀ (injUpdate i d held s) := by
  unfold injUpdate
  repeat' first
    | (with_reducible first | assumption | apply setLoops_keeps) | intro _
    | (extract_lets +onlyGivenNames x; refine (fun (hx : Keeps s₀ x) => ?_) ?_; (clear_value x); rotate_left; subst x) | split | simp only [↓Keeps.upd_iff]
    | (extract_lets +onlyGivenNames x; subst x) | dsimp only

theorem endInjection_keeps {s₀ : State} (i : Nat) (stops : Bool) {s : State} (hk : Keeps s₀ s) : Keeps s₀ (endInjection i stops s) := by
  unfold endInjection
  repeat' first
    | (with_reducible first | assumption | apply setLoops_keeps) | intro _
    | (extract_lets +onlyGivenNames x; refine (fun (hx : Keeps s₀ x) => ?_) ?_; (clear_value x); rotate_left; subst x) | split | simp only [↓Keeps.upd_iff]
    | (extract_lets +onlyGivenNames x; subst x) | dsimp only

theorem answerLoop_keeps {s₀ : State} (x : Option CmdRef) (r : Reply) {s : State} (hk : Keeps s₀ s) : Keeps s₀ (answerLoop x r s) := by
  unfold answerLoop
  repeat' first
    | (with_reducible first | assumption | apply finishOpen_keeps)
    | (extract_lets +onlyGivenNames x; refine (fun (hx : Keeps s₀ x) => ?_) ?_; (clear_value x); rotate_left; subst x) | split | simp only [↓Keeps.upd_iff]
    | (extract_lets +onlyGivenNames x; subst x) | dsimp only

theorem loopRequest_keeps {s₀ : State} (i : Nat) (b : Bytes) (q : Option CmdRef × LoopReq) {s : State} (hk : Keeps s₀ s) : FstKeeps s₀ (loopRequest i b q s) := by
  unfold loopRequest
  repeat' first
    | (with_reducible first | assumption | apply answerLoop_keeps | apply setLoop_keeps | apply postEvent_keeps | apply endInjection_keeps) | intro _
    | refine FstKeeps.of_eq (by assumption) ?_ | (extract_lets +onlyGivenNames x; refine (fun (hx : Keeps s₀ x) => ?_) ?_; (clear_value x); rotate_left; subst x) | split
    | simp only [↓Keeps.upd_iff, ↓fstKeeps_mk] | (extract_lets +onlyGivenNames x; subst x) | dsimp only

theorem loopRequest_keeps_fst {s₀ : State} (i : Nat) (b : Bytes) (q : Option CmdRef × LoopReq) {s : State} (hk : Keeps s₀ s) : Keeps s₀ (loopRequest i b q s).1 := loopRequest_keeps _ _ _ hk

theorem loopRequests_keeps {s₀ : State} (i : Nat) (b : Bytes) {s : State} (hk : Keeps s₀ s) : FstKeeps s₀ (loopRequests i b s) := by
  unfold loopRequests
  exact foldl_fstKeeps (fun q x hq => FstKeeps.intro (loopRequest_keeps_fst _ _ _ hq)) (FstKeeps.intro (setLoop_keeps _ _ hk))

theorem loopRequests_keeps_fst {s₀ : State} (i : Nat) (b : Bytes) {s : State} (hk : Keeps s₀ s) : Keeps s₀ (loopRequests i b s).1 := loopRequests_keeps _ _ hk

theorem answerAuto_keeps {s₀ : State} (i : Nat) (l : List (Option CmdRef)) {s : State} (hk : Keeps s₀ s) : Keeps s₀ (answerAuto i l s) := by
  unfold answerAuto
  repeat' first
    | (with_reducible first | assumption | apply foldl_keeps | apply clearLasting_keeps | apply postEvent_keeps | apply endInjection_keeps | apply answerLoop_keeps) | intro _
    | (extract_lets +onlyGivenNames x; refine (fun (hx : Keeps s₀ x) => ?_) ?_; (clear_value x); rotate_left; subst x) | split | (extract_lets +onlyGivenNames x; subst x)
    | dsimp only

theorem loopFresh_keeps {s₀ : State} (i : Nat) (b : Bytes) (y : Int) (f : Int) (d : Nat) (toAuto : Bool) {s : State} (hk : Keeps s₀ s) : Keeps s₀ (loopFresh i b y f d toAuto s) := by
  unfold loopFresh
  repeat' first
    | (with_reducible first | assumption | apply setLoop_keeps) | intro _
    | (extract_lets +onlyGivenNames x; refine (fun (hx : Keeps s₀ x) => ?_) ?_; (clear_value x); rotate_left; subst x) | split | simp only [↓Keeps.upd_iff]
    | (extract_lets +onlyGivenNames x; subst x) | dsimp only

theorem loopHeld_keeps {s₀ : State} (i : Nat) (b : Bytes) (d : Nat) (toAuto : Bool) {s : State} (hk : Keeps s₀ s) : Keeps s₀ (loopHeld i b d toAuto s) := by
  unfold loopHeld
  repeat' first
    | (with_reducible first | assumption | apply setLoop_keeps) | intro _
    | (extract_lets +onlyGivenNames x; refine (fun (hx : Keeps s₀ x) => ?_) ?_; (clear_value x); rotate_left; subst x) | split | simp only [↓Keeps.upd_iff]
    | (extract_lets +onlyGivenNames x; subst x) | dsimp only

theorem loopUpdate_keeps {s₀ : State} (i : Nat) {s : State} (hk : Keeps s₀ s) : Keeps s₀ (loopUpdate i s) := by
  unfold loopUpdate
  repeat' first
    | (with_reducible first | assumption | apply setLoop_keeps | apply loopRequests_keeps | apply loopRequests_keeps_fst | apply loopHeld_keeps | apply loopFresh_keeps | apply answerAuto_keeps | apply handover_keeps | apply countModel_keeps | apply injUpdate_keeps)
    | intro _ | refine FstKeeps.of_eq (by assumption) ?_ | (extract_lets +onlyGivenNames x; refine (fun (hx : Keeps s₀ x) => ?_) ?_; (clear_value x); rotate_left; subst x) | split
    | simp only [↓Keeps.upd_iff, ↓fstKeeps_mk] | (extract_lets +onlyGivenNames x; subst x) | dsimp only

theorem execUserLoopUpdate_keeps {s₀ : State} (i : BitVec 5) {s : State} (hk : Keeps s₀ s) : OutKeeps s₀ (execUserLoopUpdate i s) := by
  unfold execUserLoopUpdate
  repeat' first
    | (with_reducible first | assumption | apply loopUpdate_keeps) | split | simp only [↓outKeeps_mk] | dsimp only

theorem dropLoops_keeps {s₀ : State} {s : State} (hk : Keeps s₀ s) : Keeps s₀ (dropLoops s) := by
  unfold dropLoops
  repeat' first
    | (with_reducible first | assumption | apply foldl_keeps | apply bumpClass_keeps | apply setLoop_keeps) | intro _
    | (extract_lets +onlyGivenNames x; refine (fun (hx : Keeps s₀ x) => ?_) ?_; (clear_value x); rotate_left; subst x) | split | simp only [↓Keeps.upd_iff]
    | (extract_lets +onlyGivenNames x; subst x) | dsimp only

theorem execDeviceLoopUpdate_keeps {s₀ : State} (i : BitVec 5) (y : Int) {s : State} (hk : Keeps s₀ s) : OutKeeps s₀ (execDeviceLoopUpdate i y s) := by
  unfold execDeviceLoopUpdate
  repeat' first
    | (with_reducible first | assumption | apply setLoop_keeps | apply setClk_keeps | apply setLoops_keeps) | intro _
    | (extract_lets +onlyGivenNames x; refine (fun (hx : Keeps s₀ x) => ?_) ?_; (clear_value x); rotate_left; subst x) | split | simp only [↓Keeps.upd_iff, ↓outKeeps_mk]
    | (extract_lets +onlyGivenNames x; subst x) | dsimp only

theorem loopEntryChanged_keeps {s₀ : State} (i : Nat) (old : Bytes) (new : Bytes) {s : State} (hk : Keeps s₀ s) : Keeps s₀ (loopEntryChanged i old new s) := by
  unfold loopEntryChanged
  repeat' first
    | (with_reducible first | assumption | apply foldl_keeps | apply setLoop_keeps | apply resetInst_keeps | apply endInjection_keeps | apply answerLoop_keeps) | intro _
    | (extract_lets +onlyGivenNames x; refine (fun (hx : Keeps s₀ x) => ?_) ?_; (clear_value x); rotate_left; subst x) | split | simp only [↓Keeps.upd_iff]
    | (extract_lets +onlyGivenNames x; subst x) | dsimp only

theorem stopLoops_keeps {s₀ : State} {s : State} (hk : Keeps s₀ s) : Keeps s₀ (stopLoops s) := by
  unfold stopLoops
  repeat' first
    | (with_reducible first | assumption | apply setLoops_keeps) | intro _
    | (extract_lets +onlyGivenNames x; refine (fun (hx : Keeps s₀ x) => ?_) ?_; (clear_value x); rotate_left; subst x) | simp only [↓Keeps.upd_iff]
    | (extract_lets +onlyGivenNames x; subst x) | dsimp only

theorem loopAct_keeps {s₀ : State} (c : Cmd) (q : LoopReq) {s : State} (hk : Keeps s₀ s) : ActKeeps s₀ (loopAct c q s) := by
  unfold loopAct
  repeat' first
    | (with_reducible first | assumption | apply setLoop_keeps | apply queuedEntry_keeps) | intro _ | refine ActKeeps.of_done (by assumption) ?_
    | refine ActKeeps.of_boundary (by assumption) ?_ | refine ActKeeps.of_goesOn (by assumption) ?_
    | (extract_lets +onlyGivenNames x; refine (fun (hx : Keeps s₀ x) => ?_) ?_; (clear_value x); rotate_left; subst x) | split
    | simp only [↓Keeps.upd_iff, ↓actKeeps_done, ↓actKeeps_boundary, ↓actKeeps_goesOn] | (extract_lets +onlyGivenNames x; subst x) | dsimp only

theorem execLoopXfer_keeps {s₀ : State} (c : Cmd) {s : State} (hk : Keeps s₀ s) : OutKeeps s₀ (execLoopXfer c s) := by
  unfold execLoopXfer
  repeat' first
    | (with_reducible first | assumption | apply command_keeps | apply loopAct_keeps) | intro _
    | (extract_lets +onlyGivenNames x; refine (fun (hx : Keeps s₀ x) => ?_) ?_; (clear_value x); rotate_left; subst x)
    | simp only [↓outKeeps_mk, ↓actKeeps_done, ↓actKeeps_boundary, ↓actKeeps_goesOn] | (extract_lets +onlyGivenNames x; subst x) | dsimp only

theorem execLoopBank_keeps {s₀ : State} (c : Cmd) {s : State} (hk : Keeps s₀ s) : OutKeeps s₀ (execLoopBank c s) := by
  unfold execLoopBank
  repeat' first
    | (with_reducible first | assumption | apply command_keeps | apply loopAct_keeps) | intro _ | simp only [↓outKeeps_mk, ↓actKeeps_done, ↓actKeeps_boundary, ↓actKeeps_goesOn]

theorem execLoopSetpt_keeps {s₀ : State} (c : Cmd) {s : State} (hk : Keeps s₀ s) : OutKeeps s₀ (execLoopSetpt c s) := by
  unfold execLoopSetpt
  repeat' first
    | (with_reducible first | assumption | apply command_keeps | apply loopAct_keeps) | intro _ | simp only [↓outKeeps_mk, ↓actKeeps_done, ↓actKeeps_boundary, ↓actKeeps_goesOn]

theorem injectAct_keeps {s₀ : State} (c : Cmd) {s : State} (hk : Keeps s₀ s) : ActKeeps s₀ (injectAct c s) := by
  unfold injectAct
  repeat' first
    | (with_reducible first | assumption | apply setLoops_keeps | apply queuedEntry_keeps) | intro _ | refine ActKeeps.of_done (by assumption) ?_
    | refine ActKeeps.of_boundary (by assumption) ?_ | refine ActKeeps.of_goesOn (by assumption) ?_
    | (extract_lets +onlyGivenNames x; refine (fun (hx : Keeps s₀ x) => ?_) ?_; (clear_value x); rotate_left; subst x) | split
    | simp only [↓Keeps.upd_iff, ↓actKeeps_done, ↓actKeeps_boundary, ↓actKeeps_goesOn] | (extract_lets +onlyGivenNames x; subst x) | dsimp only

theorem injectRun_keeps {s₀ : State} (c : Cmd) {s : State} (hk : Keeps s₀ s) : Keeps s₀ (injectRun c s) := by
  unfold injectRun
  repeat' first
    | (with_reducible first | assumption | apply command_keeps | apply injectAct_keeps) | intro _ | simp only [↓actKeeps_done, ↓actKeeps_boundary, ↓actKeeps_goesOn]

theorem execLoopInject_keeps {s₀ : State} (c : Cmd) {s : State} (hk : Keeps s₀ s) : OutKeeps s₀ (execLoopInject c s) := by
  unfold execLoopInject
  repeat' first
    | (with_reducible first | assumption | apply injectRun_keeps) | simp only [↓outKeeps_mk]

theorem execLoopInjectStop_keeps {s₀ : State} (c : Cmd) {s : State} (hk : Keeps s₀ s) : OutKeeps s₀ (execLoopInjectStop c s) := by
  unfold execLoopInjectStop
  repeat' first
    | (with_reducible first | assumption | apply injectRun_keeps) | simp only [↓outKeeps_mk]

theorem execInjectionCaptureDone_keeps {s₀ : State} {s : State} (hk : Keeps s₀ s) : OutKeeps s₀ (execInjectionCaptureDone s) := by
  unfold execInjectionCaptureDone
  refine outKeeps_mk.mpr ?_
  split
  · exact hk
  · refine Keeps.ite hk ?_
    have hs := fun f => setLoops_keeps f hk
    exact Keeps.ite (finishOpen_keeps _ _ (memWrite_keeps _ _ _ (hs _))) (finishOpen_keeps _ _ (hs _))

/-! ### RecTrig -/

theorem setRec_keeps {s₀ : State} (f : RecSt → RecSt) {s : State} (hk : Keeps s₀ s) : Keeps s₀ (setRec f s) := by
  unfold setRec
  repeat' first
    | assumption | (extract_lets +onlyGivenNames x; refine (fun (hx : Keeps s₀ x) => ?_) ?_; (clear_value x); rotate_left; subst x) | simp only [↓Keeps.upd_iff]
    | (extract_lets +onlyGivenNames x; subst x) | dsimp only

theorem setRegion_keeps {s₀ : State} (r : Nat) (f : RegionRec → RegionRec) {s : State} (hk : Keeps s₀ s) : Keeps s₀ (setRegion r f s) := by
  unfold setRegion
  repeat' first
    | (with_reducible first | assumption | apply setRec_keeps) | intro _
    | (extract_lets +onlyGivenNames x; refine (fun (hx : Keeps s₀ x) => ?_) ?_; (clear_value x); rotate_left; subst x) | simp only [↓Keeps.upd_iff]
    | (extract_lets +onlyGivenNames x; subst x) | dsimp only

theorem addPend_keeps {s₀ : State} (r : Nat) (x : Nat × Nat × Nat) {s : State} (hk : Keeps s₀ s) : Keeps s₀ (addPend r x s) := by
  unfold addPend
  repeat' first
    | (with_reducible first | assumption | apply setRegion_keeps) | intro _
    | (extract_lets +onlyGivenNames x; refine (fun (hx : Keeps s₀ x) => ?_) ?_; (clear_value x); rotate_left; subst x) | split | simp only [↓Keeps.upd_iff]
    | (extract_lets +onlyGivenNames x; subst x) | dsimp only

theorem tcFire_keeps {s₀ : State} (b : Nat) (c : Nat) (r : Bytes) (j : Nat) {s : State} (hk : Keeps s₀ s) : Keeps s₀ (tcFire b c r j s) := by
  unfold tcFire
  repeat' first
    | (with_reducible first | assumption | apply foldl_keeps | apply addPend_keeps | apply setRec_keeps) | intro _
    | (extract_lets +onlyGivenNames x; refine (fun (hx : Keeps s₀ x) => ?_) ?_; (clear_value x); rotate_left; subst x) | split | simp only [↓Keeps.upd_iff]
    | (extract_lets +onlyGivenNames x; subst x) | dsimp only

theorem tcRun_keeps {s₀ : State} (b : Nat) (c : Nat) {s : State} (hk : Keeps s₀ s) : Keeps s₀ (tcRun b c s) := by
  unfold tcRun
  repeat' first
    | (with_reducible first | assumption | apply setRec_keeps | apply tcFire_keeps) | intro _
    | (extract_lets +onlyGivenNames x; refine (fun (hx : Keeps s₀ x) => ?_) ?_; (clear_value x); rotate_left; subst x) | split | simp only [↓Keeps.upd_iff]
    | (extract_lets +onlyGivenNames x; subst x) | dsimp only

theorem triggerEngines_keeps {s₀ : State} {s : State} (hk : Keeps s₀ s) : Keeps s₀ (triggerEngines s) := by
  unfold triggerEngines
  repeat' first
    | (with_reducible first | assumption | apply foldl_keeps | apply tcRun_keeps) | intro _ | dsimp only

theorem drivePulses_keeps {s₀ : State} {s : State} (hk : Keeps s₀ s) : Keeps s₀ (drivePulses s) := by
  unfold drivePulses
  repeat' first
    | (with_reducible first | assumption | apply setRec_keeps) | intro _
    | (extract_lets +onlyGivenNames x; refine (fun (hx : Keeps s₀ x) => ?_) ?_; (clear_value x); rotate_left; subst x) | split | simp only [↓Keeps.upd_iff]
    | (extract_lets +onlyGivenNames x; subst x) | dsimp only

theorem execSystemTriggerEdge_keeps {s₀ : State} (j : BitVec 3) (rising : Bool) (t : Nat) {s : State} (hk : Keeps s₀ s) : OutKeeps s₀ (execSystemTriggerEdge j rising t s) := by
  unfold execSystemTriggerEdge
  repeat' first
    | (with_reducible first | assumption | apply foldl_keeps | apply setClk_keeps | apply addPend_keeps) | intro _
    | (extract_lets +onlyGivenNames x; refine (fun (hx : Keeps s₀ x) => ?_) ?_; (clear_value x); rotate_left; subst x) | split | simp only [↓Keeps.upd_iff, ↓outKeeps_mk]
    | (extract_lets +onlyGivenNames x; subst x) | dsimp only

theorem execTriggerTimeout_keeps {s₀ : State} (bay : BitVec 6) (c : BitVec 4) {s : State} (hk : Keeps s₀ s) : OutKeeps s₀ (execTriggerTimeout bay c s) := by
  unfold execTriggerTimeout
  repeat' first
    | (with_reducible first | assumption | apply tcRun_keeps) | (extract_lets +onlyGivenNames x; refine (fun (hx : Keeps s₀ x) => ?_) ?_; (clear_value x); rotate_left; subst x)
    | split | simp only [↓outKeeps_mk] | (extract_lets +onlyGivenNames x; subst x) | dsimp only

/-! ### RecStore -/

theorem keepRms_keeps {s₀ : State} {s : State} (hk : Keeps s₀ s) : Keeps s₀ (keepRms s) := by
  unfold keepRms
  repeat' first
    | (with_reducible first | assumption | apply setRec_keeps) | intro _
    | (extract_lets +onlyGivenNames x; refine (fun (hx : Keeps s₀ x) => ?_) ?_; (clear_value x); rotate_left; subst x) | split | simp only [↓Keeps.upd_iff]
    | (extract_lets +onlyGivenNames x; subst x) | dsimp only

theorem setRecord_keeps {s₀ : State} (r : Nat) (id : Nat) (f : Rec → Rec) {s : State} (hk : Keeps s₀ s) : Keeps s₀ (setRecord r id f s) := by
  unfold setRecord
  repeat' first
    | (with_reducible first | assumption | apply setRegion_keeps) | intro _
    | (extract_lets +onlyGivenNames x; refine (fun (hx : Keeps s₀ x) => ?_) ?_; (clear_value x); rotate_left; subst x) | split | simp only [↓Keeps.upd_iff]
    | (extract_lets +onlyGivenNames x; subst x) | dsimp only

theorem endRecord_keeps {s₀ : State} (r : Nat) (id : Nat) (cause : Nat) {s : State} (hk : Keeps s₀ s) : Keeps s₀ (endRecord r id cause s) := by
  unfold endRecord
  repeat' first
    | (with_reducible first | assumption | apply setRecord_keeps) | intro _
    | (extract_lets +onlyGivenNames x; refine (fun (hx : Keeps s₀ x) => ?_) ?_; (clear_value x); rotate_left; subst x) | simp only [↓Keeps.upd_iff]
    | (extract_lets +onlyGivenNames x; subst x) | dsimp only

theorem recEvent_keeps {s₀ : State} (code : Nat) (r : Nat) (data : Bytes) {s : State} (hk : Keeps s₀ s) : Keeps s₀ (recEvent code r data s) := by
  unfold recEvent
  repeat' first
    | (with_reducible first | assumption | apply postEvent_keeps)

theorem enterFull_keeps {s₀ : State} (r : Nat) {s : State} (hk : Keeps s₀ s) : Keeps s₀ (enterFull r s) := by
  unfold enterFull
  repeat' first
    | (with_reducible first | assumption | apply raiseIrq_keeps | apply recEvent_keeps | apply setRegion_keeps) | intro _
    | (extract_lets +onlyGivenNames x; refine (fun (hx : Keeps s₀ x) => ?_) ?_; (clear_value x); rotate_left; subst x) | split | simp only [↓Keeps.upd_iff]
    | (extract_lets +onlyGivenNames x; subst x) | dsimp only

theorem deleteOldest_keeps {s₀ : State} (r : Nat) {s : State} (hk : Keeps s₀ s) : Keeps s₀ (deleteOldest r s) := by
  unfold deleteOldest
  repeat' first
    | (with_reducible first | assumption | apply raiseIrq_keeps | apply recEvent_keeps | apply setRegion_keeps) | intro _
    | (extract_lets +onlyGivenNames x; refine (fun (hx : Keeps s₀ x) => ?_) ?_; (clear_value x); rotate_left; subst x) | split | simp only [↓Keeps.upd_iff]
    | (extract_lets +onlyGivenNames x; subst x) | dsimp only

theorem makeRoom_keeps {s₀ : State} (r id : Nat) (stop : Bool) (sp : List (Nat × Nat)) (n : Nat) {s : State} (hk : Keeps s₀ s) :
    FstKeeps s₀ (makeRoom r id stop sp n s) := by
  induction n generalizing s with
  | zero => exact hk
  | succ n ih =>
    rw [makeRoom]
    split
    · exact setRegion_keeps _ _ hk
    · split
      · exact enterFull_keeps _ hk
      · split
        · exact hk
        · exact ih (deleteOldest_keeps _ hk)

theorem makeRoom_keeps_fst {s₀ : State} (r id : Nat) (stop : Bool) (sp : List (Nat × Nat)) (n : Nat) {s : State} (hk : Keeps s₀ s) :
    Keeps s₀ (makeRoom r id stop sp n s).1 := makeRoom_keeps r id stop sp n hk

theorem ringWrite_keeps {s₀ : State} (ring : Nat) (len : Nat) (o : Nat) (b : Bytes) {s : State} (hk : Keeps s₀ s) : Keeps s₀ (ringWrite ring len o b s) := by
  unfold ringWrite
  repeat' first
    | (with_reducible first | assumption | apply memWrite_keeps) | split | dsimp only

theorem putRow_keeps {s₀ : State} (r : Nat) (id : Nat) (k : Nat) (stop : Bool) (ms : Nat) (row : Nat × Nat × Bytes) {s : State} (hk : Keeps s₀ s) : Keeps s₀ (putRow r id k stop ms row s) := by
  unfold putRow
  repeat' first
    | (with_reducible first | assumption | apply enterFull_keeps | apply makeRoom_keeps | apply makeRoom_keeps_fst | apply endRecord_keeps | apply ringWrite_keeps | apply setRecord_keeps | apply setRegion_keeps)
    | intro _ | refine FstKeeps.of_eq (by assumption) ?_ | (extract_lets +onlyGivenNames x; refine (fun (hx : Keeps s₀ x) => ?_) ?_; (clear_value x); rotate_left; subst x) | split
    | simp only [↓Keeps.upd_iff, ↓fstKeeps_mk] | (extract_lets +onlyGivenNames x; subst x) | dsimp only

theorem putMs_keeps {s₀ : State} (r : Nat) (id : Nat) (stop : Bool) (hist : List RecMs) (m : RecMs) {s : State} (hk : Keeps s₀ s) : Keeps s₀ (putMs r id stop hist m s) := by
  unfold putMs
  repeat' first
    | (with_reducible first | assumption | apply foldl_keeps | apply setRecord_keeps | apply putRow_keeps) | intro _
    | (extract_lets +onlyGivenNames x; refine (fun (hx : Keeps s₀ x) => ?_) ?_; (clear_value x); rotate_left; subst x) | split | simp only [↓Keeps.upd_iff]
    | (extract_lets +onlyGivenNames x; subst x) | dsimp only

theorem openRecord_keeps {s₀ : State} (r : Nat) (a : ArmSt) (ms : Nat) (cause : Nat) (slot : Nat) {s : State} (hk : Keeps s₀ s) : Keeps s₀ (openRecord r a ms cause slot s) := by
  unfold openRecord
  extract_lets lost live s1 g id file pre
  have hl : ∀ t, Keeps s₀ t → Keeps s₀ (lost t) := fun _ ht => setRegion_keeps _ _ ht
  have h1 : Keeps s₀ s1 := foldl_keeps (fun t x ht => setRegion_keeps _ _ (setRecord_keeps _ _ _ ht)) hk
  split
  · exact hl _ hk
  · split
    · split
      · exact setRecord_keeps _ _ _ (hl _ hk)
      · exact hl _ hk
    · split
      extract_lets rows short x y s2 s3 g' s4
      have h2 : Keeps s₀ s2 := setRec_keeps _ (setRegion_keeps _ _ h1)
      have h3 : Keeps s₀ s3 := recEvent_keeps _ _ _ h2
      have h4 : Keeps s₀ s4 := by
        subst s4
        split
        · split
          · exact endRecord_keeps _ _ _ (enterFull_keeps _ h3)
          · exact deleteOldest_keeps _ h3
        · split
          · exact setRegion_keeps _ _ h3
          · exact h3
      exact foldl_keeps (fun t m ht => putMs_keeps _ _ _ _ _ ht) h4

theorem reachTrigger_keeps {s₀ : State} (r : Nat) (a : ArmSt) (ms : Nat) (cause : Nat) (slot : Nat) {s : State} (hk : Keeps s₀ s) : Keeps s₀ (reachTrigger r a ms cause slot s) := by
  unfold reachTrigger
  repeat' first
    | (with_reducible first | assumption | apply setRecord_keeps | apply openRecord_keeps) | intro _
    | (extract_lets +onlyGivenNames x; refine (fun (hx : Keeps s₀ x) => ?_) ?_; (clear_value x); rotate_left; subst x) | split | simp only [↓Keeps.upd_iff]
    | (extract_lets +onlyGivenNames x; subst x) | dsimp only

theorem dropRows_keeps {s₀ : State} (r : Nat) {s : State} (hk : Keeps s₀ s) : Keeps s₀ (dropRows r s) := by
  unfold dropRows
  repeat' first
    | (with_reducible first | assumption | apply countEvent_keeps | apply bumpClass_keeps | apply setRegion_keeps) | intro _
    | (extract_lets +onlyGivenNames x; refine (fun (hx : Keeps s₀ x) => ?_) ?_; (clear_value x); rotate_left; subst x) | simp only [↓Keeps.upd_iff]
    | (extract_lets +onlyGivenNames x; subst x) | dsimp only

theorem regionEndMs_keeps {s₀ : State} (held : Nat → Bool) (dropped : Bool) (newFl : List Bool) (r : Nat) {s : State} (hk : Keeps s₀ s) : Keeps s₀ (regionEndMs held dropped newFl r s) := by
  unfold regionEndMs
  repeat' first
    | (with_reducible first | assumption | apply foldl_keeps | apply setRegion_keeps | apply dropRows_keeps | apply setRecord_keeps | apply putMs_keeps | apply reachTrigger_keeps)
    | intro _ | (extract_lets +onlyGivenNames x; refine (fun (hx : Keeps s₀ x) => ?_) ?_; (clear_value x); rotate_left; subst x) | split | simp only [↓Keeps.upd_iff]
    | (extract_lets +onlyGivenNames x; subst x) | dsimp only

theorem recordEndMs_keeps {s₀ : State} (held : Nat → Bool) (drops : Nat) (newFl : List Bool) {s : State} (hk : Keeps s₀ s) : Keeps s₀ (recordEndMs held drops newFl s) := by
  unfold recordEndMs
  repeat' first
    | (with_reducible first | assumption | apply foldl_keeps | apply keepRms_keeps | apply triggerEngines_keeps | apply regionEndMs_keeps) | intro _
    | (extract_lets +onlyGivenNames x; refine (fun (hx : Keeps s₀ x) => ?_) ?_; (clear_value x); rotate_left; subst x) | (extract_lets +onlyGivenNames x; subst x) | dsimp only

theorem fireAt_keeps {s₀ : State} (r : Nat) (cause : Nat) {s : State} (hk : Keeps s₀ s) : FstKeeps s₀ (fireAt r cause s) := by
  unfold fireAt
  repeat' first
    | (with_reducible first | assumption | apply reachTrigger_keeps) | refine FstKeeps.of_eq (by assumption) ?_
    | (extract_lets +onlyGivenNames x; refine (fun (hx : Keeps s₀ x) => ?_) ?_; (clear_value x); rotate_left; subst x) | split | simp only [↓Keeps.upd_iff, ↓fstKeeps_mk]
    | (extract_lets +onlyGivenNames x; subst x) | dsimp only

theorem fireAt_keeps_fst {s₀ : State} (r : Nat) (cause : Nat) {s : State} (hk : Keeps s₀ s) : Keeps s₀ (fireAt r cause s).1 := fireAt_keeps _ _ hk

theorem autoRecords_keeps {s₀ : State} {s : State} (hk : Keeps s₀ s) : Keeps s₀ (autoRecords s) := by
  unfold autoRecords
  repeat' first
    | (with_reducible first | assumption | apply foldl_keeps | apply fireAt_keeps | apply fireAt_keeps_fst | apply setRegion_keeps) | intro _
    | refine FstKeeps.of_eq (by assumption) ?_ | (extract_lets +onlyGivenNames x; refine (fun (hx : Keeps s₀ x) => ?_) ?_; (clear_value x); rotate_left; subst x) | split
    | simp only [↓Keeps.upd_iff, ↓fstKeeps_mk] | (extract_lets +onlyGivenNames x; subst x) | dsimp only

theorem leaveFull_keeps {s₀ : State} (r : Nat) {s : State} (hk : Keeps s₀ s) : Keeps s₀ (leaveFull r s) := by
  unfold leaveFull
  repeat' first
    | (with_reducible first | assumption | apply setRegion_keeps | apply recEvent_keeps) | intro _
    | (extract_lets +onlyGivenNames x; refine (fun (hx : Keeps s₀ x) => ?_) ?_; (clear_value x); rotate_left; subst x) | split | simp only [↓Keeps.upd_iff]
    | (extract_lets +onlyGivenNames x; subst x) | dsimp only

theorem stopRegion_keeps {s₀ : State} (cause : Nat) (r : Nat) {s : State} (hk : Keeps s₀ s) : Keeps s₀ (stopRegion cause r s) := by
  unfold stopRegion
  repeat' first
    | (with_reducible first | assumption | apply foldl_keeps | apply endRecord_keeps | apply setRegion_keeps) | intro _
    | (extract_lets +onlyGivenNames x; refine (fun (hx : Keeps s₀ x) => ?_) ?_; (clear_value x); rotate_left; subst x) | simp only [↓Keeps.upd_iff]
    | (extract_lets +onlyGivenNames x; subst x) | dsimp only

theorem stopRegions_keeps {s₀ : State} (cause : Nat) {s : State} (hk : Keeps s₀ s) : Keeps s₀ (stopRegions cause s) := by
  unfold stopRegions
  repeat' first
    | (with_reducible first | assumption | apply foldl_keeps | apply stopRegion_keeps) | intro _ | dsimp only

theorem startRecording_keeps {s₀ : State} {s : State} (hk : Keeps s₀ s) : Keeps s₀ (startRecording s) := by
  unfold startRecording
  repeat' first
    | (with_reducible first | assumption | apply setRec_keeps) | intro _
    | (extract_lets +onlyGivenNames x; refine (fun (hx : Keeps s₀ x) => ?_) ?_; (clear_value x); rotate_left; subst x) | simp only [↓Keeps.upd_iff]
    | (extract_lets +onlyGivenNames x; subst x) | dsimp only

theorem shedRecording_keeps {s₀ : State} {s : State} (hk : Keeps s₀ s) : Keeps s₀ (shedRecording s) := by
  unfold shedRecording
  repeat' first
    | (with_reducible first | assumption | apply setRec_keeps | apply stopRegions_keeps) | intro _
    | (extract_lets +onlyGivenNames x; refine (fun (hx : Keeps s₀ x) => ?_) ?_; (clear_value x); rotate_left; subst x) | simp only [↓Keeps.upd_iff]
    | (extract_lets +onlyGivenNames x; subst x) | dsimp only

theorem restoreRecording_keeps {s₀ : State} {s : State} (hk : Keeps s₀ s) : Keeps s₀ (restoreRecording s) := by
  unfold restoreRecording
  repeat' first
    | (with_reducible first | assumption | apply setRec_keeps) | intro _
    | (extract_lets +onlyGivenNames x; refine (fun (hx : Keeps s₀ x) => ?_) ?_; (clear_value x); rotate_left; subst x) | simp only [↓Keeps.upd_iff]
    | (extract_lets +onlyGivenNames x; subst x) | dsimp only

theorem recordStep_keeps {s₀ : State} (ns : Int) {s : State} (hk : Keeps s₀ s) : Keeps s₀ (recordStep ns s) := by
  unfold recordStep
  repeat' first
    | (with_reducible first | assumption | apply setRec_keeps) | intro _
    | (extract_lets +onlyGivenNames x; refine (fun (hx : Keeps s₀ x) => ?_) ?_; (clear_value x); rotate_left; subst x) | split | simp only [↓Keeps.upd_iff]
    | (extract_lets +onlyGivenNames x; subst x) | dsimp only

theorem clearRecording_keeps {s₀ : State} {s : State} (hk : Keeps s₀ s) : Keeps s₀ (clearRecording s) := by
  unfold clearRecording
  repeat' first
    | (with_reducible first | assumption | apply setRec_keeps) | intro _ | dsimp only

theorem execRecordClose_keeps {s₀ : State} (r : BitVec 2) {s : State} (hk : Keeps s₀ s) : OutKeeps s₀ (execRecordClose r s) := by
  unfold execRecordClose
  repeat' first
    | (with_reducible first | assumption | apply raiseIrq_keeps | apply recEvent_keeps | apply setRecord_keeps) | intro _
    | (extract_lets +onlyGivenNames x; refine (fun (hx : Keeps s₀ x) => ?_) ?_; (clear_value x); rotate_left; subst x) | split | simp only [↓Keeps.upd_iff, ↓outKeeps_mk]
    | (extract_lets +onlyGivenNames x; subst x) | dsimp only

theorem execAutoRecord_keeps {s₀ : State} (r : BitVec 2) {s : State} (hk : Keeps s₀ s) : OutKeeps s₀ (execAutoRecord r s) := by
  unfold execAutoRecord
  repeat' first
    | (with_reducible first | assumption | apply setRegion_keeps | apply setClk_keeps) | intro _
    | (extract_lets +onlyGivenNames x; refine (fun (hx : Keeps s₀ x) => ?_) ?_; (clear_value x); rotate_left; subst x) | split | simp only [↓Keeps.upd_iff, ↓outKeeps_mk]
    | (extract_lets +onlyGivenNames x; subst x) | dsimp only

/-! ### RecCmd -/

theorem execRecArm_keeps {s₀ : State} (c : Cmd) {s : State} (hk : Keeps s₀ s) : OutKeeps s₀ (execRecArm c s) := by
  unfold execRecArm
  repeat' first
    | (with_reducible first | assumption | apply foldl_keeps | apply command_keeps) | intro _
    | (extract_lets +onlyGivenNames x; refine (fun (hx : Keeps s₀ x) => ?_) ?_; (clear_value x); rotate_left; subst x) | split
    | simp only [↓Keeps.upd_iff, ↓outKeeps_mk, ↓actKeeps_done, ↓actKeeps_boundary, ↓actKeeps_goesOn] | (extract_lets +onlyGivenNames x; subst x) | dsimp only

theorem applyArm_keeps {s₀ : State} (x : Nat × ArmSt) {s : State} (hk : Keeps s₀ s) : Keeps s₀ (applyArm x s) := by
  unfold applyArm
  repeat' first
    | (with_reducible first | assumption | apply recEvent_keeps | apply setRegion_keeps) | intro _
    | (extract_lets +onlyGivenNames x; refine (fun (hx : Keeps s₀ x) => ?_) ?_; (clear_value x); rotate_left; subst x) | split | simp only [↓Keeps.upd_iff]
    | (extract_lets +onlyGivenNames x; subst x) | dsimp only

theorem execRecDisarm_keeps {s₀ : State} (c : Cmd) {s : State} (hk : Keeps s₀ s) : OutKeeps s₀ (execRecDisarm c s) := by
  unfold execRecDisarm
  repeat' first
    | (with_reducible first | assumption | apply command_keeps) | intro _
    | (extract_lets +onlyGivenNames x; refine (fun (hx : Keeps s₀ x) => ?_) ?_; (clear_value x); rotate_left; subst x) | split
    | simp only [↓outKeeps_mk, ↓actKeeps_done, ↓actKeeps_boundary, ↓actKeeps_goesOn] | (extract_lets +onlyGivenNames x; subst x) | dsimp only

theorem applyDisarm_keeps {s₀ : State} (r : Nat) {s : State} (hk : Keeps s₀ s) : Keeps s₀ (applyDisarm r s) := by
  unfold applyDisarm
  repeat' first
    | (with_reducible first | assumption | apply recEvent_keeps | apply setRegion_keeps | apply stopRegion_keeps) | intro _
    | (extract_lets +onlyGivenNames x; refine (fun (hx : Keeps s₀ x) => ?_) ?_; (clear_value x); rotate_left; subst x) | simp only [↓Keeps.upd_iff]
    | (extract_lets +onlyGivenNames x; subst x) | dsimp only

theorem execRecForce_keeps {s₀ : State} (c : Cmd) {s : State} (hk : Keeps s₀ s) : OutKeeps s₀ (execRecForce c s) := by
  unfold execRecForce
  repeat' first
    | (with_reducible first | assumption | apply command_keeps) | intro _
    | (extract_lets +onlyGivenNames x; refine (fun (hx : Keeps s₀ x) => ?_) ?_; (clear_value x); rotate_left; subst x) | split
    | simp only [↓outKeeps_mk, ↓actKeeps_done, ↓actKeeps_boundary, ↓actKeeps_goesOn] | (extract_lets +onlyGivenNames x; subst x) | dsimp only

theorem applyForce_keeps {s₀ : State} (l : List Nat) {s : State} (hk : Keeps s₀ s) : FstKeeps s₀ (applyForce l s) := by
  unfold applyForce
  exact foldl_fstKeeps (fun q r hq => FstKeeps.intro (fireAt_keeps_fst _ _ hq)) (FstKeeps.intro hk)

theorem applyForce_keeps_fst {s₀ : State} (l : List Nat) {s : State} (hk : Keeps s₀ s) : Keeps s₀ (applyForce l s).1 := applyForce_keeps _ hk

theorem execRecFree_keeps {s₀ : State} (c : Cmd) {s : State} (hk : Keeps s₀ s) : OutKeeps s₀ (execRecFree c s) := by
  unfold execRecFree
  repeat' first
    | (with_reducible first | assumption | apply command_keeps | apply setRegion_keeps) | intro _
    | (extract_lets +onlyGivenNames x; refine (fun (hx : Keeps s₀ x) => ?_) ?_; (clear_value x); rotate_left; subst x) | split
    | simp only [↓Keeps.upd_iff, ↓outKeeps_mk, ↓actKeeps_done, ↓actKeeps_boundary, ↓actKeeps_goesOn] | (extract_lets +onlyGivenNames x; subst x) | dsimp only

theorem execRecList_keeps {s₀ : State} (c : Cmd) {s : State} (hk : Keeps s₀ s) : OutKeeps s₀ (execRecList c s) := by
  unfold execRecList
  repeat' first
    | (with_reducible first | assumption | apply command_keeps) | intro _
    | (extract_lets +onlyGivenNames x; refine (fun (hx : Keeps s₀ x) => ?_) ?_; (clear_value x); rotate_left; subst x) | split
    | simp only [↓Keeps.upd_iff, ↓outKeeps_mk, ↓actKeeps_done, ↓actKeeps_boundary, ↓actKeeps_goesOn] | (extract_lets +onlyGivenNames x; subst x) | dsimp only

theorem execRecCfg_keeps {s₀ : State} (c : Cmd) {s : State} (hk : Keeps s₀ s) : OutKeeps s₀ (execRecCfg c s) := by
  unfold execRecCfg
  repeat' first
    | (with_reducible first | assumption | apply command_keeps) | intro _
    | (extract_lets +onlyGivenNames x; refine (fun (hx : Keeps s₀ x) => ?_) ?_; (clear_value x); rotate_left; subst x) | split
    | simp only [↓Keeps.upd_iff, ↓outKeeps_mk, ↓actKeeps_done, ↓actKeeps_boundary, ↓actKeeps_goesOn] | (extract_lets +onlyGivenNames x; subst x) | dsimp only

/-! ### BayRead -/

theorem readAct_keeps {s₀ : State} (c : Cmd) {s : State} (hk : Keeps s₀ s) : ActKeeps s₀ (readAct c s) := by
  unfold readAct
  repeat' first
    | (with_reducible first | assumption | apply setFilt_keeps | apply setLoop_keeps) | intro _ | refine ActKeeps.of_done (by assumption) ?_
    | refine ActKeeps.of_boundary (by assumption) ?_ | refine ActKeeps.of_goesOn (by assumption) ?_
    | (extract_lets +onlyGivenNames x; refine (fun (hx : Keeps s₀ x) => ?_) ?_; (clear_value x); rotate_left; subst x) | split
    | simp only [↓Keeps.upd_iff, ↓actKeeps_done, ↓actKeeps_boundary, ↓actKeeps_goesOn] | (extract_lets +onlyGivenNames x; subst x) | dsimp only

theorem readRun_keeps {s₀ : State} (c : Cmd) {s : State} (hk : Keeps s₀ s) : Keeps s₀ (readRun c s) := by
  unfold readRun
  repeat' first
    | (with_reducible first | assumption | apply command_keeps | apply readAct_keeps) | intro _ | simp only [↓actKeeps_done, ↓actKeeps_boundary, ↓actKeeps_goesOn]

theorem execBayRead_keeps {s₀ : State} (c : Cmd) {s : State} (hk : Keeps s₀ s) : OutKeeps s₀ (execBayRead c s) := by
  unfold execBayRead
  repeat' first
    | (with_reducible first | assumption | apply readRun_keeps) | simp only [↓outKeeps_mk]

theorem execBayReadSection_keeps {s₀ : State} (c : Cmd) {s : State} (hk : Keeps s₀ s) : OutKeeps s₀ (execBayReadSection c s) := by
  unfold execBayReadSection
  repeat' first
    | (with_reducible first | assumption | apply readRun_keeps) | simp only [↓outKeeps_mk]

theorem execBayReadTripStatus_keeps {s₀ : State} (c : Cmd) {s : State} (hk : Keeps s₀ s) : OutKeeps s₀ (execBayReadTripStatus c s) := by
  unfold execBayReadTripStatus
  repeat' first
    | (with_reducible first | assumption | apply readRun_keeps) | simp only [↓outKeeps_mk]

theorem execBayReadLoop_keeps {s₀ : State} (c : Cmd) {s : State} (hk : Keeps s₀ s) : OutKeeps s₀ (execBayReadLoop c s) := by
  unfold execBayReadLoop
  repeat' first
    | (with_reducible first | assumption | apply readRun_keeps) | simp only [↓outKeeps_mk]

theorem execBayGroup_keeps {s₀ : State} (c : Cmd) {s : State} (hk : Keeps s₀ s) : OutKeeps s₀ (execBayGroup c s) := by
  unfold execBayGroup
  extract_lets g
  clear_value g
  simp only [↓outKeeps_mk]
  with_reducible apply command_keeps
  · intro t ht
    with_reducible refine .ite ?_ (.ite ?_ ?_)
    · with_reducible exact ActKeeps.done ht
    · with_reducible exact ActKeeps.done ht
    · with_reducible exact ActKeeps.atBoundary ht
  · exact hk

theorem execBayBeh_keeps {s₀ : State} (c : Cmd) {s : State} (hk : Keeps s₀ s) : OutKeeps s₀ (execBayBeh c s) := by
  unfold execBayBeh
  repeat' first
    | (with_reducible first | assumption | apply command_keeps) | intro _
    | (extract_lets +onlyGivenNames x; refine (fun (hx : Keeps s₀ x) => ?_) ?_; (clear_value x); rotate_left; subst x)
    | simp only [↓outKeeps_mk, ↓actKeeps_done, ↓actKeeps_boundary, ↓actKeeps_goesOn] | (extract_lets +onlyGivenNames x; subst x) | dsimp only

theorem execBayReset_keeps {s₀ : State} (c : Cmd) {s : State} (hk : Keeps s₀ s) : OutKeeps s₀ (execBayReset c s) := by
  unfold execBayReset
  repeat' first
    | (with_reducible first | assumption | apply command_keeps) | intro _
    | (extract_lets +onlyGivenNames x; refine (fun (hx : Keeps s₀ x) => ?_) ?_; (clear_value x); rotate_left; subst x) | split
    | simp only [↓outKeeps_mk, ↓actKeeps_done, ↓actKeeps_boundary, ↓actKeeps_goesOn] | (extract_lets +onlyGivenNames x; subst x) | dsimp only

theorem applyBayReset_keeps {s₀ : State} (b : Nat) (bits : Nat) {s : State} (hk : Keeps s₀ s) : Keeps s₀ (applyBayReset b bits s) := by
  unfold applyBayReset
  repeat' first
    | (with_reducible first | assumption | apply setBay_keeps) | intro _
    | (extract_lets +onlyGivenNames x; refine (fun (hx : Keeps s₀ x) => ?_) ?_; (clear_value x); rotate_left; subst x) | split | simp only [↓Keeps.upd_iff]
    | (extract_lets +onlyGivenNames x; subst x) | dsimp only

end Sys2Proof.Machine.Laws
end

