-- ==== Sys2Proof/Laws/KeepsMode.lean ====
section
/-! SUPPORT. One lemma per operation of the trace, self-tests, tables, modes, takeover, restarts and power, named after it: it keeps what Keeps says. -/

namespace Sys2Proof.Machine.Laws
open Sys2Proof.Machine

set_option Elab.async false

/-! ### Trace -/

theorem setTrace_keeps {s₀ : State} (f : TraceSt → TraceSt) {s : State} (hk : Keeps s₀ s) : Keeps s₀ (setTrace f s) := by
  unfold setTrace
  repeat' first
    | (with_reducible first | assumption | apply setLoops_keeps) | intro _
    | (extract_lets +onlyGivenNames x; refine (fun (hx : Keeps s₀ x) => ?_) ?_; (clear_value x); rotate_left; subst x) | simp only [↓Keeps.upd_iff]
    | (extract_lets +onlyGivenNames x; subst x) | dsimp only

theorem tracePoint_keeps {s₀ : State} (k : Nat) {s : State} (hk : Keeps s₀ s) : Keeps s₀ (tracePoint k s) := by
  unfold tracePoint
  repeat' first
    | (with_reducible first | assumption | apply foldl_keeps | apply memWrite_keeps | apply setTrace_keeps) | intro _
    | (extract_lets +onlyGivenNames x; refine (fun (hx : Keeps s₀ x) => ?_) ?_; (clear_value x); rotate_left; subst x) | split | simp only [↓Keeps.upd_iff]
    | (extract_lets +onlyGivenNames x; subst x) | dsimp only

theorem tracePoints_keeps {s₀ : State} {s : State} (hk : Keeps s₀ s) : Keeps s₀ (tracePoints s) := by
  unfold tracePoints
  repeat' first
    | (with_reducible first | assumption | apply foldl_keeps | apply tracePoint_keeps) | intro _
    | (extract_lets +onlyGivenNames x; refine (fun (hx : Keeps s₀ x) => ?_) ?_; (clear_value x); rotate_left; subst x) | split | simp only [↓Keeps.upd_iff]
    | (extract_lets +onlyGivenNames x; subst x) | dsimp only

theorem endTrace_keeps {s₀ : State} (cause : Nat) {s : State} (hk : Keeps s₀ s) : Keeps s₀ (endTrace cause s) := by
  unfold endTrace
  repeat' first
    | (with_reducible first | assumption | apply setTrace_keeps) | intro _
    | (extract_lets +onlyGivenNames x; refine (fun (hx : Keeps s₀ x) => ?_) ?_; (clear_value x); rotate_left; subst x) | split | simp only [↓Keeps.upd_iff]
    | (extract_lets +onlyGivenNames x; subst x) | dsimp only

theorem traceAct_keeps {s₀ : State} (c : Cmd) {s : State} (hk : Keeps s₀ s) : ActKeeps s₀ (traceAct c s) := by
  unfold traceAct
  refine .ite (.done (endTrace_keeps 1 hk)) ?_
  split
  · exact .done hk
  · split
    · exact .done hk
    · generalize 0x400100 = n
      exact .ite (.done hk) (.ite (.done hk) (.goesOn (setLoops_keeps _ (queuedEntry_keeps _ hk))))

theorem traceRun_keeps {s₀ : State} (c : Cmd) {s : State} (hk : Keeps s₀ s) : Keeps s₀ (traceRun c s) := by
  unfold traceRun
  repeat' first
    | (with_reducible first | assumption | apply command_keeps | apply traceAct_keeps) | intro _ | simp only [↓actKeeps_done, ↓actKeeps_boundary, ↓actKeeps_goesOn]

theorem execLoopTrace_keeps {s₀ : State} (c : Cmd) {s : State} (hk : Keeps s₀ s) : OutKeeps s₀ (execLoopTrace c s) := by
  unfold execLoopTrace
  repeat' first
    | (with_reducible first | assumption | apply traceRun_keeps) | simp only [↓outKeeps_mk]

theorem execLoopTraceStop_keeps {s₀ : State} (c : Cmd) {s : State} (hk : Keeps s₀ s) : OutKeeps s₀ (execLoopTraceStop c s) := by
  unfold execLoopTraceStop
  repeat' first
    | (with_reducible first | assumption | apply traceRun_keeps) | simp only [↓outKeeps_mk]

theorem execTraceTrigger_keeps {s₀ : State} {s : State} (hk : Keeps s₀ s) : OutKeeps s₀ (execTraceTrigger s) := by
  unfold execTraceTrigger
  repeat' first
    | (with_reducible first | assumption | apply setTrace_keeps) | intro _
    | (extract_lets +onlyGivenNames x; refine (fun (hx : Keeps s₀ x) => ?_) ?_; (clear_value x); rotate_left; subst x) | split | simp only [↓Keeps.upd_iff, ↓outKeeps_mk]
    | (extract_lets +onlyGivenNames x; subst x) | dsimp only

theorem execTraceDone_keeps {s₀ : State} (overrun : Bool) {s : State} (hk : Keeps s₀ s) : OutKeeps s₀ (execTraceDone overrun s) := by
  unfold execTraceDone
  repeat' first
    | (with_reducible first | assumption | apply bumpClass_keeps | apply endTrace_keeps | apply memWrite_keeps | apply setLoops_keeps | apply finishOpen_keeps) | intro _
    | (extract_lets +onlyGivenNames x; refine (fun (hx : Keeps s₀ x) => ?_) ?_; (clear_value x); rotate_left; subst x) | split | simp only [↓Keeps.upd_iff, ↓outKeeps_mk]
    | (extract_lets +onlyGivenNames x; subst x) | dsimp only

/-! ### SelfTest -/

theorem setSvc_keeps {s₀ : State} (f : SvcSt → SvcSt) {s : State} (hk : Keeps s₀ s) : Keeps s₀ (setSvc f s) := by
  unfold setSvc
  repeat' first
    | assumption | (extract_lets +onlyGivenNames x; refine (fun (hx : Keeps s₀ x) => ?_) ?_; (clear_value x); rotate_left; subst x) | simp only [↓Keeps.upd_iff]
    | (extract_lets +onlyGivenNames x; subst x) | dsimp only

theorem svcRecord_keeps {s₀ : State} (code : Nat) (unit : Nat) (data : Bytes) {s : State} (hk : Keeps s₀ s) : Keeps s₀ (svcRecord code unit data s) := by
  unfold svcRecord
  repeat' first
    | (with_reducible first | assumption | apply postEvent_keeps)

theorem wmkAct_keeps {s₀ : State} (c : Cmd) {s : State} (hk : Keeps s₀ s) : ActKeeps s₀ (wmkAct c s) := by
  unfold wmkAct
  repeat' first
    | assumption | refine ActKeeps.of_done (by assumption) ?_ | refine ActKeeps.of_boundary (by assumption) ?_ | refine ActKeeps.of_goesOn (by assumption) ?_ | split
    | simp only [↓actKeeps_done, ↓actKeeps_boundary, ↓actKeeps_goesOn] | dsimp only

theorem execWmkSel_keeps {s₀ : State} (c : Cmd) {s : State} (hk : Keeps s₀ s) : OutKeeps s₀ (execWmkSel c s) := by
  unfold execWmkSel
  repeat' first
    | (with_reducible first | assumption | apply command_keeps | apply wmkAct_keeps) | intro _ | simp only [↓outKeeps_mk, ↓actKeeps_done, ↓actKeeps_boundary, ↓actKeeps_goesOn]

theorem applyWmk_keeps {s₀ : State} (ch : Nat) (w : WmkSel) {s : State} (hk : Keeps s₀ s) : Keeps s₀ (applyWmk ch w s) := by
  unfold applyWmk
  repeat' first
    | (with_reducible first | assumption | apply svcRecord_keeps | apply setSvc_keeps) | intro _
    | (extract_lets +onlyGivenNames x; refine (fun (hx : Keeps s₀ x) => ?_) ?_; (clear_value x); rotate_left; subst x) | simp only [↓Keeps.upd_iff]
    | (extract_lets +onlyGivenNames x; subst x) | dsimp only

theorem wmkRefresh_keeps {s₀ : State} (p6 : Bool) {s : State} (hk : Keeps s₀ s) : Keeps s₀ (wmkRefresh p6 s) := by
  unfold wmkRefresh
  repeat' first
    | (with_reducible first | assumption | apply bumpClass_keeps | apply setSvc_keeps) | intro _
    | (extract_lets +onlyGivenNames x; refine (fun (hx : Keeps s₀ x) => ?_) ?_; (clear_value x); rotate_left; subst x) | split | simp only [↓Keeps.upd_iff]
    | (extract_lets +onlyGivenNames x; subst x) | dsimp only

theorem wmkOff_keeps {s₀ : State} {s : State} (hk : Keeps s₀ s) : Keeps s₀ (wmkOff s) := by
  unfold wmkOff
  repeat' first
    | (with_reducible first | assumption | apply setSvc_keeps) | intro _
    | (extract_lets +onlyGivenNames x; refine (fun (hx : Keeps s₀ x) => ?_) ?_; (clear_value x); rotate_left; subst x) | simp only [↓Keeps.upd_iff]
    | (extract_lets +onlyGivenNames x; subst x) | dsimp only

theorem setResult_keeps {s₀ : State} (id : Nat) (r : TestRes) {s : State} (hk : Keeps s₀ s) : Keeps s₀ (setResult id r s) := by
  unfold setResult
  repeat' first
    | (with_reducible first | assumption | apply setSvc_keeps) | intro _
    | (extract_lets +onlyGivenNames x; refine (fun (hx : Keeps s₀ x) => ?_) ?_; (clear_value x); rotate_left; subst x) | simp only [↓Keeps.upd_iff]
    | (extract_lets +onlyGivenNames x; subst x) | dsimp only

theorem startTest_keeps {s₀ : State} (t : TestRun) {s : State} (hk : Keeps s₀ s) : Keeps s₀ (startTest t s) := by
  unfold startTest
  repeat' first
    | (with_reducible first | assumption | apply svcRecord_keeps | apply setResult_keeps | apply setSvc_keeps | apply beginStep_keeps) | intro _
    | (extract_lets +onlyGivenNames x; refine (fun (hx : Keeps s₀ x) => ?_) ?_; (clear_value x); rotate_left; subst x) | split | simp only [↓Keeps.upd_iff]
    | (extract_lets +onlyGivenNames x; subst x) | dsimp only

theorem testAct_keeps {s₀ : State} (c : Cmd) {s : State} (hk : Keeps s₀ s) : ActKeeps s₀ (testAct c s) := by
  unfold testAct
  repeat' first
    | (with_reducible first | assumption | apply startTest_keeps | apply queuedEntry_keeps) | refine ActKeeps.of_done (by assumption) ?_
    | refine ActKeeps.of_boundary (by assumption) ?_ | refine ActKeeps.of_goesOn (by assumption) ?_
    | (extract_lets +onlyGivenNames x; refine (fun (hx : Keeps s₀ x) => ?_) ?_; (clear_value x); rotate_left; subst x) | split
    | simp only [↓actKeeps_done, ↓actKeeps_boundary, ↓actKeeps_goesOn] | (extract_lets +onlyGivenNames x; subst x) | dsimp only

theorem testRunRow_keeps {s₀ : State} (c : Cmd) {s : State} (hk : Keeps s₀ s) : Keeps s₀ (testRunRow c s) := by
  unfold testRunRow
  repeat' first
    | (with_reducible first | assumption | apply command_keeps | apply testAct_keeps) | intro _ | simp only [↓actKeeps_done, ↓actKeeps_boundary, ↓actKeeps_goesOn]

theorem execTestRun_keeps {s₀ : State} (c : Cmd) {s : State} (hk : Keeps s₀ s) : OutKeeps s₀ (execTestRun c s) := by
  unfold execTestRun
  repeat' first
    | (with_reducible first | assumption | apply testRunRow_keeps) | simp only [↓outKeeps_mk]

theorem execTestRunStop_keeps {s₀ : State} (c : Cmd) {s : State} (hk : Keeps s₀ s) : OutKeeps s₀ (execTestRunStop c s) := by
  unfold execTestRunStop
  repeat' first
    | (with_reducible first | assumption | apply testRunRow_keeps) | simp only [↓outKeeps_mk]

theorem endTest_keeps {s₀ : State} (outcome : Nat) (fail : Nat) (vals : List Nat) {s : State} (hk : Keeps s₀ s) : Keeps s₀ (endTest outcome fail vals s) := by
  unfold endTest
  repeat' first
    | (with_reducible first | assumption | apply setResult_keeps | apply setSvc_keeps | apply svcRecord_keeps | apply finishOpen_keeps) | intro _
    | (extract_lets +onlyGivenNames x; refine (fun (hx : Keeps s₀ x) => ?_) ?_; (clear_value x); rotate_left; subst x) | split | simp only [↓Keeps.upd_iff]
    | (extract_lets +onlyGivenNames x; subst x) | dsimp only

theorem endPulse_keeps {s₀ : State} (b : Nat) {s : State} (hk : Keeps s₀ s) : Keeps s₀ (endPulse b s) := by
  unfold endPulse
  repeat' first
    | (with_reducible first | assumption | apply pinChanged_keeps | apply setTrip_keeps) | intro _
    | (extract_lets +onlyGivenNames x; refine (fun (hx : Keeps s₀ x) => ?_) ?_; (clear_value x); rotate_left; subst x) | split | simp only [↓Keeps.upd_iff]
    | (extract_lets +onlyGivenNames x; subst x) | dsimp only

theorem startPulse_keeps {s₀ : State} (b : Nat) {s : State} (hk : Keeps s₀ s) : Keeps s₀ (startPulse b s) := by
  unfold startPulse
  repeat' first
    | (with_reducible first | assumption | apply pinChanged_keeps | apply setTrip_keeps | apply setSvc_keeps) | intro _
    | (extract_lets +onlyGivenNames x; refine (fun (hx : Keeps s₀ x) => ?_) ?_; (clear_value x); rotate_left; subst x) | split | simp only [↓Keeps.upd_iff]
    | (extract_lets +onlyGivenNames x; subst x) | dsimp only

theorem testBoundary_keeps {s₀ : State} {s : State} (hk : Keeps s₀ s) : Keeps s₀ (testBoundary s) := by
  unfold testBoundary
  repeat' first
    | (with_reducible first | assumption | apply endPulse_keeps | apply endTest_keeps | apply startPulse_keeps)
    | (extract_lets +onlyGivenNames x; refine (fun (hx : Keeps s₀ x) => ?_) ?_; (clear_value x); rotate_left; subst x) | split | simp only [↓Keeps.upd_iff]
    | (extract_lets +onlyGivenNames x; subst x) | dsimp only

theorem abortTest_keeps {s₀ : State} (m : Mode) {s : State} (hk : Keeps s₀ s) : Keeps s₀ (abortTest m s) := by
  unfold abortTest
  repeat' first
    | (with_reducible first | assumption | apply endTest_keeps | apply endPulse_keeps)
    | (extract_lets +onlyGivenNames x; refine (fun (hx : Keeps s₀ x) => ?_) ?_; (clear_value x); rotate_left; subst x) | split | simp only [↓Keeps.upd_iff]
    | (extract_lets +onlyGivenNames x; subst x) | dsimp only

theorem execTestTripPulseEnd_keeps {s₀ : State} {s : State} (hk : Keeps s₀ s) : OutKeeps s₀ (execTestTripPulseEnd s) := by
  unfold execTestTripPulseEnd
  repeat' first
    | (with_reducible first | assumption | apply endPulse_keeps | apply setClk_keeps)
    | (extract_lets +onlyGivenNames x; refine (fun (hx : Keeps s₀ x) => ?_) ?_; (clear_value x); rotate_left; subst x) | split | simp only [↓Keeps.upd_iff, ↓outKeeps_mk]
    | (extract_lets +onlyGivenNames x; subst x) | dsimp only

theorem execTestEnd_keeps {s₀ : State} (m : List Int) {s : State} (hk : Keeps s₀ s) : OutKeeps s₀ (execTestEnd m s) := by
  unfold execTestEnd
  repeat' first
    | (with_reducible first | assumption | apply setClk_keeps | apply endTest_keeps)
    | (extract_lets +onlyGivenNames x; refine (fun (hx : Keeps s₀ x) => ?_) ?_; (clear_value x); rotate_left; subst x) | split | simp only [↓Keeps.upd_iff, ↓outKeeps_mk]
    | (extract_lets +onlyGivenNames x; subst x) | dsimp only

theorem execTestResult_keeps {s₀ : State} (c : Cmd) {s : State} (hk : Keeps s₀ s) : OutKeeps s₀ (execTestResult c s) := by
  unfold execTestResult
  repeat' first
    | (with_reducible first | assumption | apply command_keeps) | intro _ | simp only [↓outKeeps_mk, ↓actKeeps_done, ↓actKeeps_boundary, ↓actKeeps_goesOn] | dsimp only

/-! ### Tables -/

theorem setTbl_keeps {s₀ : State} (f : TblSt → TblSt) {s : State} (hk : Keeps s₀ s) : Keeps s₀ (setTbl f s) := by
  unfold setTbl
  repeat' first
    | assumption | (extract_lets +onlyGivenNames x; refine (fun (hx : Keeps s₀ x) => ?_) ?_; (clear_value x); rotate_left; subst x) | simp only [↓Keeps.upd_iff]
    | (extract_lets +onlyGivenNames x; subst x) | dsimp only

theorem execTblBase_keeps {s₀ : State} (c : Cmd) {s : State} (hk : Keeps s₀ s) : OutKeeps s₀ (execTblBase c s) := by
  unfold execTblBase
  repeat' first
    | (with_reducible first | assumption | apply command_keeps | apply setTbl_keeps) | intro _
    | (extract_lets +onlyGivenNames x; refine (fun (hx : Keeps s₀ x) => ?_) ?_; (clear_value x); rotate_left; subst x) | split
    | simp only [↓Keeps.upd_iff, ↓outKeeps_mk, ↓actKeeps_done, ↓actKeeps_boundary, ↓actKeeps_goesOn] | (extract_lets +onlyGivenNames x; subst x) | dsimp only

theorem execTblRead_keeps {s₀ : State} (c : Cmd) {s : State} (hk : Keeps s₀ s) : OutKeeps s₀ (execTblRead c s) := by
  unfold execTblRead
  repeat' first
    | (with_reducible first | assumption | apply command_keeps) | intro _
    | (extract_lets +onlyGivenNames x; refine (fun (hx : Keeps s₀ x) => ?_) ?_; (clear_value x); rotate_left; subst x) | split
    | simp only [↓Keeps.upd_iff, ↓outKeeps_mk, ↓actKeeps_done, ↓actKeeps_boundary, ↓actKeeps_goesOn] | (extract_lets +onlyGivenNames x; subst x) | dsimp only

theorem applyClassD_keeps {s₀ : State} (x : Staged) {s : State} (hk : Keeps s₀ s) : Keeps s₀ (applyClassD x s) := by
  unfold applyClassD
  repeat' first
    | (with_reducible first | assumption | apply setTbl_keeps | apply setLoop_keeps) | intro _
    | (extract_lets +onlyGivenNames x; refine (fun (hx : Keeps s₀ x) => ?_) ?_; (clear_value x); rotate_left; subst x) | split | simp only [↓Keeps.upd_iff]
    | (extract_lets +onlyGivenNames x; subst x) | dsimp only

theorem execTblSync_keeps {s₀ : State} (c : Cmd) {s : State} (hk : Keeps s₀ s) : OutKeeps s₀ (execTblSync c s) := by
  unfold execTblSync
  repeat' first
    | (with_reducible first | assumption | apply command_keeps | apply setTbl_keeps | apply queuedEntry_keeps) | intro _
    | (extract_lets +onlyGivenNames x; refine (fun (hx : Keeps s₀ x) => ?_) ?_; (clear_value x); rotate_left; subst x)
    | simp only [↓Keeps.upd_iff, ↓outKeeps_mk, ↓actKeeps_done, ↓actKeeps_boundary, ↓actKeeps_goesOn] | (extract_lets +onlyGivenNames x; subst x) | dsimp only

theorem execTblSyncCheckDone_keeps {s₀ : State} {s : State} (hk : Keeps s₀ s) : OutKeeps s₀ (execTblSyncCheckDone s) := by
  unfold execTblSyncCheckDone
  repeat' first
    | (with_reducible first | assumption | apply foldl_keeps | apply setTbl_keeps | apply finishOpen_keeps | apply bumpClass_keeps | apply applyClassD_keeps) | intro _
    | (extract_lets +onlyGivenNames x; refine (fun (hx : Keeps s₀ x) => ?_) ?_; (clear_value x); rotate_left; subst x) | split | simp only [↓Keeps.upd_iff, ↓outKeeps_mk]
    | (extract_lets +onlyGivenNames x; subst x) | dsimp only

theorem entryChanged_keeps {s₀ : State} {was : State} (x : Staged) (old : Bytes) {s : State} (hwas : Keeps s₀ was) (hk : Keeps s₀ s) : Keeps s₀ (entryChanged was x old s) := by
  unfold entryChanged
  repeat' first
    | (with_reducible first | assumption | apply foldl_keeps | apply plbBayChanged_keeps | apply setRun_keeps | apply setTbl_keeps | apply markLane_keeps | apply laneChanged_keeps | apply gooseEntryChanged_keeps | apply svEntryChanged_keeps | apply plbSectChanged_keeps | apply resetSect_keeps | apply setRec_keeps | apply loopEntryChanged_keeps | apply groupContents_keeps)
    | intro _ | (extract_lets +onlyGivenNames x; refine (fun (hx : Keeps s₀ x) => ?_) ?_; (clear_value x); rotate_left; subst x) | split | simp only [↓Keeps.upd_iff]
    | (extract_lets +onlyGivenNames x; subst x) | dsimp only

theorem actGroup_keeps {s₀ : State} (x : Staged) (old : Bytes) {s : State} (hk : Keeps s₀ s) : Keeps s₀ (actGroup x old s) := by
  unfold actGroup
  repeat' first
    | (with_reducible first | assumption | apply applyGroup_keeps) | split | dsimp only

theorem applyStaged_keeps {s₀ : State} {s : State} (hk : Keeps s₀ s) : Keeps s₀ (applyStaged s) := by
  unfold applyStaged
  repeat' first
    | (with_reducible first | assumption | apply foldl_keeps | apply setTbl_keeps | apply entryChanged_keeps | apply markDelays_keeps | apply resolvePins_keeps | apply actGroup_keeps | apply finishOpen_keeps)
    | intro _ | (extract_lets +onlyGivenNames x; refine (fun (hx : Keeps s₀ x) => ?_) ?_; (clear_value x); rotate_left; subst x) | split | simp only [↓Keeps.upd_iff]
    | (extract_lets +onlyGivenNames x; subst x) | dsimp only

theorem execFiltStart_keeps {s₀ : State} (c : Cmd) {s : State} (hk : Keeps s₀ s) : OutKeeps s₀ (execFiltStart c s) := by
  unfold execFiltStart
  repeat' first
    | (with_reducible first | assumption | apply command_keeps) | intro _
    | (extract_lets +onlyGivenNames x; refine (fun (hx : Keeps s₀ x) => ?_) ?_; (clear_value x); rotate_left; subst x) | split
    | simp only [↓Keeps.upd_iff, ↓outKeeps_mk, ↓actKeeps_done, ↓actKeeps_boundary, ↓actKeeps_goesOn] | (extract_lets +onlyGivenNames x; subst x) | dsimp only

/-! ### SupvCount -/

theorem execSupvCount_keeps {s₀ : State} (c : Cmd) {s : State} (hk : Keeps s₀ s) : OutKeeps s₀ (execSupvCount c s) := by
  unfold execSupvCount
  repeat' first
    | (with_reducible first | assumption | apply command_keeps) | intro _ | simp only [↓outKeeps_mk, ↓actKeeps_done, ↓actKeeps_boundary, ↓actKeeps_goesOn] | dsimp only

/-! ### Modes -/

theorem saveEnergy_keeps {s₀ : State} {s : State} (hk : Keeps s₀ s) : Keeps s₀ (saveEnergy s) := by
  unfold saveEnergy
  repeat' first
    | (with_reducible first | assumption | apply setProt_keeps) | intro _
    | (extract_lets +onlyGivenNames x; refine (fun (hx : Keeps s₀ x) => ?_) ?_; (clear_value x); rotate_left; subst x) | simp only [↓Keeps.upd_iff]
    | (extract_lets +onlyGivenNames x; subst x) | dsimp only

theorem changeMode_keeps {s₀ : State} (m : Mode) (cause : Nat) (bit : Option Nat) {s : State} (hk : Keeps s₀ s) : Keeps s₀ (changeMode m cause bit s) := by
  unfold changeMode
  repeat' first
    | (with_reducible first | assumption | apply setMode_keeps | apply dropPartial_keeps | apply saveEnergy_keeps | apply raiseIrq_keeps | apply postEvent_keeps) | intro _
    | (extract_lets +onlyGivenNames x; refine (fun (hx : Keeps s₀ x) => ?_) ?_; (clear_value x); rotate_left; subst x) | split | simp only [↓Keeps.upd_iff]
    | (extract_lets +onlyGivenNames x; subst x) | dsimp only

theorem startProtection_keeps {s₀ : State} (warm : Bool) {s : State} (hk : Keeps s₀ s) : Keeps s₀ (startProtection warm s) := by
  unfold startProtection
  repeat' first
    | (with_reducible first | assumption | apply foldl_keeps | apply setFilt_keeps | apply syncReset_keeps | apply startBay_keeps | apply resetSect_keeps | apply startRecording_keeps | apply setProt_keeps)
    | intro _ | (extract_lets +onlyGivenNames x; refine (fun (hx : Keeps s₀ x) => ?_) ?_; (clear_value x); rotate_left; subst x) | simp only [↓Keeps.upd_iff]
    | (extract_lets +onlyGivenNames x; subst x) | dsimp only

theorem startStopped_keeps {s₀ : State} {s : State} (hk : Keeps s₀ s) : Keeps s₀ (startStopped s) := by
  unfold startStopped
  repeat' first
    | (with_reducible first | assumption | apply foldl_keeps | apply startChain_keeps) | intro _
    | (extract_lets +onlyGivenNames x; refine (fun (hx : Keeps s₀ x) => ?_) ?_; (clear_value x); rotate_left; subst x) | split | (extract_lets +onlyGivenNames x; subst x)
    | dsimp only

theorem stopProtection_keeps {s₀ : State} {s : State} (hk : Keeps s₀ s) : Keeps s₀ (stopProtection s) := by
  unfold stopProtection
  repeat' first
    | (with_reducible first | assumption | apply stopGoosePubs_keeps | apply pinsLow_keeps | apply stopRegions_keeps | apply setProt_keeps) | intro _
    | (extract_lets +onlyGivenNames x; refine (fun (hx : Keeps s₀ x) => ?_) ?_; (clear_value x); rotate_left; subst x) | simp only [↓Keeps.upd_iff]
    | (extract_lets +onlyGivenNames x; subst x) | dsimp only

theorem enterSafe_keeps {s₀ : State} (bit : Nat) {s : State} (hk : Keeps s₀ s) : Keeps s₀ (enterSafe bit s) := by
  unfold enterSafe
  repeat' first
    | (with_reducible first | assumption | apply abortTest_keeps | apply setMode_keeps | apply changeMode_keeps) | intro _
    | (extract_lets +onlyGivenNames x; refine (fun (hx : Keeps s₀ x) => ?_) ?_; (clear_value x); rotate_left; subst x) | simp only [↓Keeps.upd_iff]
    | (extract_lets +onlyGivenNames x; subst x) | dsimp only

theorem sysModeAct_keeps {s₀ : State} (c : Cmd) {s : State} (hk : Keeps s₀ s) : ActKeeps s₀ (sysModeAct c s) := by
  unfold sysModeAct
  repeat' first
    | assumption | refine ActKeeps.of_done (by assumption) ?_ | refine ActKeeps.of_boundary (by assumption) ?_ | refine ActKeeps.of_goesOn (by assumption) ?_
    | (extract_lets +onlyGivenNames x; refine (fun (hx : Keeps s₀ x) => ?_) ?_; (clear_value x); rotate_left; subst x) | split
    | simp only [↓Keeps.upd_iff, ↓actKeeps_done, ↓actKeeps_boundary, ↓actKeeps_goesOn] | (extract_lets +onlyGivenNames x; subst x) | dsimp only

theorem execSysMode_keeps {s₀ : State} (c : Cmd) {s : State} (hk : Keeps s₀ s) : OutKeeps s₀ (execSysMode c s) := by
  unfold execSysMode
  repeat' first
    | (with_reducible first | assumption | apply command_keeps | apply sysModeAct_keeps) | intro _ | simp only [↓outKeeps_mk, ↓actKeeps_done, ↓actKeeps_boundary, ↓actKeeps_goesOn]

theorem applySysMode_keeps {s₀ : State} (t : Mode) (warm : Bool) {s : State} (hk : Keeps s₀ s) : FstKeeps s₀ (applySysMode t warm s) := by
  unfold applySysMode
  repeat' first
    | (with_reducible first | assumption | apply abortTest_keeps | apply changeMode_keeps | apply stopProtection_keeps | apply evalGoosePubs_keeps | apply startProtection_keeps | apply startStopped_keeps)
    | intro _ | refine FstKeeps.of_eq (by assumption) ?_ | (extract_lets +onlyGivenNames x; refine (fun (hx : Keeps s₀ x) => ?_) ?_; (clear_value x); rotate_left; subst x) | split
    | simp only [↓fstKeeps_mk] | (extract_lets +onlyGivenNames x; subst x) | dsimp only

theorem applySysMode_keeps_fst {s₀ : State} (t : Mode) (warm : Bool) {s : State} (hk : Keeps s₀ s) : Keeps s₀ (applySysMode t warm s).1 := applySysMode_keeps _ _ hk

theorem finishAct_keeps {s₀ : State} (a : PendAct) (r : Reply) {s : State} (hk : Keeps s₀ s) : Keeps s₀ (finishAct a r s) := by
  unfold finishAct
  repeat' first
    | (with_reducible first | assumption | apply finishOpen_keeps) | split | dsimp only

theorem modeAct_keeps {s₀ : State} (a : PendAct) {s : State} (hk : Keeps s₀ s) : Keeps s₀ (modeAct a s) := by
  unfold modeAct
  repeat' first
    | (with_reducible first | assumption | apply finishAct_keeps | apply applySysMode_keeps | apply applySysMode_keeps_fst) | refine FstKeeps.of_eq (by assumption) ?_
    | (extract_lets +onlyGivenNames x; refine (fun (hx : Keeps s₀ x) => ?_) ?_; (clear_value x); rotate_left; subst x) | split | simp only [↓Keeps.upd_iff, ↓fstKeeps_mk]
    | (extract_lets +onlyGivenNames x; subst x) | dsimp only

theorem takeTransition_keeps {s₀ : State} (m : Mode) (cause : Nat) (bit : Option Nat) {s : State} (hk : Keeps s₀ s) : Keeps s₀ (takeTransition m cause bit s) := by
  unfold takeTransition
  repeat' first
    | (with_reducible first | assumption | apply enterSafe_keeps | apply changeMode_keeps | apply abortTest_keeps) | split | dsimp only

theorem modeBoundary_keeps {s₀ : State} {s : State} (hk : Keeps s₀ s) : Keeps s₀ (modeBoundary s) := by
  unfold modeBoundary
  repeat' first
    | (with_reducible first | assumption | apply modeAct_keeps | apply finishAct_keeps | apply takeTransition_keeps) | intro _
    | (extract_lets +onlyGivenNames x; refine (fun (hx : Keeps s₀ x) => ?_) ?_; (clear_value x); rotate_left; subst x) | split | simp only [↓Keeps.upd_iff]
    | (extract_lets +onlyGivenNames x; subst x) | dsimp only

theorem execSysStatus_keeps {s₀ : State} (c : Cmd) {s : State} (hk : Keeps s₀ s) : OutKeeps s₀ (execSysStatus c s) := by
  unfold execSysStatus
  repeat' first
    | (with_reducible first | assumption | apply command_keeps) | intro _ | simp only [↓outKeeps_mk, ↓actKeeps_done, ↓actKeeps_boundary, ↓actKeeps_goesOn] | dsimp only

theorem execSysCaps_keeps {s₀ : State} (c : Cmd) {s : State} (hk : Keeps s₀ s) : OutKeeps s₀ (execSysCaps c s) := by
  unfold execSysCaps
  repeat' first
    | (with_reducible first | assumption | apply command_keeps) | intro _ | simp only [↓outKeeps_mk, ↓actKeeps_done, ↓actKeeps_boundary, ↓actKeeps_goesOn] | dsimp only

theorem restartAct_keeps {s₀ : State} (c : Cmd) {s : State} (hk : Keeps s₀ s) : ActKeeps s₀ (restartAct c s) := by
  unfold restartAct
  repeat' first
    | assumption | refine ActKeeps.of_done (by assumption) ?_ | refine ActKeeps.of_boundary (by assumption) ?_ | refine ActKeeps.of_goesOn (by assumption) ?_
    | (extract_lets +onlyGivenNames x; refine (fun (hx : Keeps s₀ x) => ?_) ?_; (clear_value x); rotate_left; subst x) | split
    | simp only [↓Keeps.upd_iff, ↓actKeeps_done, ↓actKeeps_boundary, ↓actKeeps_goesOn] | (extract_lets +onlyGivenNames x; subst x) | dsimp only

theorem execSysRestartWarm_keeps {s₀ : State} (c : Cmd) {s : State} (hk : Keeps s₀ s) : OutKeeps s₀ (execSysRestartWarm c s) := by
  unfold execSysRestartWarm
  repeat' first
    | (with_reducible first | assumption | apply command_keeps | apply restartAct_keeps) | intro _ | simp only [↓outKeeps_mk, ↓actKeeps_done, ↓actKeeps_boundary, ↓actKeeps_goesOn]

theorem execSysRestartCold_keeps {s₀ : State} (c : Cmd) {s : State} (hk : Keeps s₀ s) : OutKeeps s₀ (execSysRestartCold c s) := by
  unfold execSysRestartCold
  repeat' first
    | (with_reducible first | assumption | apply command_keeps | apply restartAct_keeps) | intro _ | simp only [↓outKeeps_mk, ↓actKeeps_done, ↓actKeeps_boundary, ↓actKeeps_goesOn]

/-! ### Takeover -/

theorem isolate_keeps {s₀ : State} (c : Nat) {s : State} (hk : Keeps s₀ s) : Keeps s₀ (isolate c s) := by
  unfold isolate
  repeat' first
    | (with_reducible first | assumption | apply raiseDeg_keeps | apply setMode_keeps) | intro _
    | (extract_lets +onlyGivenNames x; refine (fun (hx : Keeps s₀ x) => ?_) ?_; (clear_value x); rotate_left; subst x) | simp only [↓Keeps.upd_iff]
    | (extract_lets +onlyGivenNames x; subst x) | dsimp only

theorem loseCover_keeps {s₀ : State} (c : Nat) {s : State} (hk : Keeps s₀ s) : Keeps s₀ (loseCover c s) := by
  unfold loseCover
  repeat' first
    | (with_reducible first | assumption | apply raiseSafe_keeps | apply setMode_keeps) | intro _
    | (extract_lets +onlyGivenNames x; refine (fun (hx : Keeps s₀ x) => ?_) ?_; (clear_value x); rotate_left; subst x) | simp only [↓Keeps.upd_iff]
    | (extract_lets +onlyGivenNames x; subst x) | dsimp only

theorem judgeCluster_keeps {s₀ : State} (p : State × TkoPass) (c : Nat) (hk : FstKeeps s₀ p) : FstKeeps s₀ (judgeCluster p c) := by
  obtain ⟨s, q⟩ := p
  have hk : Keeps s₀ s := hk
  unfold judgeCluster
  dsimp only
  split
  · split
    · exact FstKeeps.intro (setMode_keeps _ hk)
    · exact FstKeeps.intro (loseCover_keeps _ hk)
  · exact FstKeeps.intro (loseCover_keeps _ hk)
  · exact FstKeeps.intro hk

theorem judgeClusters_keeps {s₀ s : State} (hk : Keeps s₀ s) : FstKeeps s₀ (judgeClusters s) :=
  foldl_fstKeeps (fun p c hp => judgeCluster_keeps p c hp) hk

theorem judgeClusters_keeps_fst {s₀ s : State} (hk : Keeps s₀ s) : Keeps s₀ (judgeClusters s).1 := judgeClusters_keeps hk

theorem runItems_keeps {s₀ : State} (replay : Bool) (k : Nat) {s : State} (hk : Keeps s₀ s) : Keeps s₀ (runItems replay k s) := by
  unfold runItems
  repeat' first
    | (with_reducible first | assumption | apply foldl_keeps | apply runStaged_keeps) | intro _ | dsimp only

theorem releaseReplay_keeps {s₀ : State} {s : State} (c : Nat) (hk : Keeps s₀ s) : Keeps s₀ (releaseReplay s c) := by
  unfold releaseReplay
  repeat' first
    | (with_reducible first | assumption | apply runItems_keeps | apply postCycle_keeps)
    | (extract_lets +onlyGivenNames x; refine (fun (hx : Keeps s₀ x) => ?_) ?_; (clear_value x); rotate_left; subst x) | split | simp only [↓Keeps.upd_iff]
    | (extract_lets +onlyGivenNames x; subst x) | dsimp only

theorem releaseItems_keeps {s₀ : State} (p : TkoPass) (fin : List Nat) {s : State} (hk : Keeps s₀ s) : Keeps s₀ (releaseItems p fin s) := by
  unfold releaseItems
  repeat' first
    | (with_reducible first | assumption | apply foldl_keeps | apply releaseReplay_keeps | apply runItems_keeps | apply setProt_keeps | apply postCycle_keeps) | intro _
    | (extract_lets +onlyGivenNames x; refine (fun (hx : Keeps s₀ x) => ?_) ?_; (clear_value x); rotate_left; subst x) | split | simp only [↓Keeps.upd_iff]
    | (extract_lets +onlyGivenNames x; subst x) | dsimp only

theorem keepReplay_keeps {s₀ : State} (b : Nat) {s : State} (hk : Keeps s₀ s) : Keeps s₀ (keepReplay b s) := by
  unfold keepReplay
  repeat' first
    | (with_reducible first | assumption | apply logicTakeover_keeps | apply setBay_keeps) | intro _
    | (extract_lets +onlyGivenNames x; refine (fun (hx : Keeps s₀ x) => ?_) ?_; (clear_value x); rotate_left; subst x) | simp only [↓Keeps.upd_iff]
    | (extract_lets +onlyGivenNames x; subst x) | dsimp only

theorem endTakeover_keeps {s₀ : State} {s : State} (c : Nat) (hk : Keeps s₀ s) : Keeps s₀ (endTakeover s c) := by
  unfold endTakeover
  repeat' first
    | (with_reducible first | assumption | apply foldl_keeps | apply setBay_keeps | apply setMode_keeps) | intro _
    | (extract_lets +onlyGivenNames x; refine (fun (hx : Keeps s₀ x) => ?_) ?_; (clear_value x); rotate_left; subst x) | simp only [↓Keeps.upd_iff]
    | (extract_lets +onlyGivenNames x; subst x) | dsimp only

theorem releaseOutputs_keeps {s₀ : State} (p : TkoPass) {s : State} (hk : Keeps s₀ s) : Keeps s₀ (releaseOutputs p s) := by
  unfold releaseOutputs
  extract_lets held s1 s2 s3
  have h1 : Keeps s₀ s1 := takeSeal_keeps _ hk
  have h2 : Keeps s₀ s2 := by
    refine Keeps.ite (releaseSects_keeps _ (foldl_keeps (fun t b ht => ?_) h1)) h1
    exact Keeps.ite ht (releaseBay_keeps _ ht)
  have h3 : Keeps s₀ s3 := evalGoosePubs_keeps _ h2
  exact Keeps.ite (pinsBoundary_keeps _ _ h3) h3

theorem sealCkpts_keeps {s₀ : State} (p : TkoPass) {s : State} (hk : Keeps s₀ s) : Keeps s₀ (sealCkpts p s) := by
  unfold sealCkpts
  repeat' first
    | (with_reducible first | assumption | apply foldl_keeps | apply setCkpt_keeps) | intro _
    | (extract_lets +onlyGivenNames x; refine (fun (hx : Keeps s₀ x) => ?_) ?_; (clear_value x); rotate_left; subst x) | split | (extract_lets +onlyGivenNames x; subst x)
    | dsimp only

theorem releaseCycle_keeps {s₀ : State} {s : State} (hk : Keeps s₀ s) : FstKeeps s₀ (releaseCycle s) := by
  unfold releaseCycle
  split
  rename_i t p e
  have h0 : Keeps s₀ t := FstKeeps.of_eq e (judgeClusters_keeps hk)
  extract_lets fin s1 newFl s2 s3 s4 s5
  have h1 : Keeps s₀ s1 := foldl_keeps (fun _ c ht => isolate_keeps c ht) h0
  have h2 : Keeps s₀ s2 := releaseItems_keeps _ _ (releaseOutputs_keeps _ h1)
  have h3 : Keeps s₀ s3 := foldl_keeps (fun _ c ht => replayCluster_keeps c ht) h2
  have h4 : Keeps s₀ s4 := foldl_keeps (fun _ b ht => Keeps.ite (keepReplay_keeps b ht) ht) h3
  have h5 : Keeps s₀ s5 := foldl_keeps (fun _ c ht => endTakeover_keeps c ht) h4
  exact FstKeeps.intro (sealCkpts_keeps _ (setProt_keeps _ h5))

theorem releaseCycle_keeps_fst {s₀ : State} {s : State} (hk : Keeps s₀ s) : Keeps s₀ (releaseCycle s).1 := releaseCycle_keeps hk

theorem lockstepMismatch_keeps {s₀ : State} (c : Nat) {s : State} (hk : Keeps s₀ s) : Keeps s₀ (lockstepMismatch c s) := by
  unfold lockstepMismatch
  repeat' first
    | (with_reducible first | assumption | apply settle_keeps | apply countEvent_keeps | apply failCluster_keeps) | split | dsimp only

theorem execLockstepMismatch_keeps {s₀ : State} (c : BitVec 3) {s : State} (hk : Keeps s₀ s) : OutKeeps s₀ (execLockstepMismatch c s) := by
  unfold execLockstepMismatch
  repeat' first
    | (with_reducible first | assumption | apply lockstepMismatch_keeps) | split | simp only [↓outKeeps_mk] | dsimp only

theorem standbyFault_keeps {s₀ : State} (id : Nat) (r : Nat) (kind : Nat) {s : State} (hk : Keeps s₀ s) : Keeps s₀ (standbyFault id r kind s) := by
  unfold standbyFault
  repeat' first
    | (with_reducible first | assumption | apply countEvent_keeps | apply failStandby_keeps | apply settle_keeps | apply postEvent_keeps)
    | (extract_lets +onlyGivenNames x; refine (fun (hx : Keeps s₀ x) => ?_) ?_; (clear_value x); rotate_left; subst x) | split | (extract_lets +onlyGivenNames x; subst x)
    | dsimp only

theorem eccCorrected_keeps {s₀ : State} (u : Nat) {s : State} (hk : Keeps s₀ s) : Keeps s₀ (eccCorrected u s) := by
  unfold eccCorrected
  repeat' first
    | (with_reducible first | assumption | apply settle_keeps | apply countEvent_keeps) | split | dsimp only

theorem execSramEccCorrected_keeps {s₀ : State} (u : BitVec 4) {s : State} (hk : Keeps s₀ s) : OutKeeps s₀ (execSramEccCorrected u s) := by
  unfold execSramEccCorrected
  repeat' first
    | (with_reducible first | assumption | apply eccCorrected_keeps) | simp only [↓outKeeps_mk]

theorem eccUncorrectable_keeps {s₀ : State} (u : Nat) {s : State} (hk : Keeps s₀ s) : Keeps s₀ (eccUncorrectable u s) := by
  unfold eccUncorrectable
  repeat' first
    | (with_reducible first | assumption | apply settle_keeps | apply countEvent_keeps | apply failCluster_keeps | apply standbyFault_keeps) | split | dsimp only

theorem execSramEccUncorrectable_keeps {s₀ : State} (u : BitVec 4) {s : State} (hk : Keeps s₀ s) : OutKeeps s₀ (execSramEccUncorrectable u s) := by
  unfold execSramEccUncorrectable
  repeat' first
    | (with_reducible first | assumption | apply eccUncorrectable_keeps) | simp only [↓outKeeps_mk]

theorem execStandbyTakeover_keeps {s₀ : State} (c : BitVec 3) {s : State} (hk : Keeps s₀ s) : OutKeeps s₀ (execStandbyTakeover c s) := by
  unfold execStandbyTakeover
  repeat' first
    | (with_reducible first | assumption | apply isolate_keeps) | (extract_lets +onlyGivenNames x; refine (fun (hx : Keeps s₀ x) => ?_) ?_; (clear_value x); rotate_left; subst x)
    | split | simp only [↓Keeps.upd_iff, ↓outKeeps_mk] | (extract_lets +onlyGivenNames x; subst x) | dsimp only

theorem execStandbyReplayMismatch_keeps {s₀ : State} (r : BitVec 2) {s : State} (hk : Keeps s₀ s) : OutKeeps s₀ (execStandbyReplayMismatch r s) := by
  unfold execStandbyReplayMismatch
  repeat' first
    | (with_reducible first | assumption | apply settle_keeps | apply countEvent_keeps | apply failStandby_keeps)
    | (extract_lets +onlyGivenNames x; refine (fun (hx : Keeps s₀ x) => ?_) ?_; (clear_value x); rotate_left; subst x) | split | simp only [↓Keeps.upd_iff, ↓outKeeps_mk]
    | (extract_lets +onlyGivenNames x; subst x) | dsimp only

theorem selftestMismatch_keeps {s₀ : State} (r : Nat) {s : State} (hk : Keeps s₀ s) : Keeps s₀ (selftestMismatch r s) := by
  unfold selftestMismatch
  repeat' first
    | (with_reducible first | assumption | apply standbyFault_keeps) | split | dsimp only

theorem execStandbySelftestMismatch_keeps {s₀ : State} (r : BitVec 2) {s : State} (hk : Keeps s₀ s) : OutKeeps s₀ (execStandbySelftestMismatch r s) := by
  unfold execStandbySelftestMismatch
  repeat' first
    | (with_reducible first | assumption | apply selftestMismatch_keeps) | split | simp only [↓outKeeps_mk] | dsimp only

/-! ### Restart -/

theorem setPwr_keeps {s₀ : State} (f : PowerSt → PowerSt) {s : State} (hk : Keeps s₀ s) : Keeps s₀ (setPwr f s) := by
  unfold setPwr
  repeat' first
    | assumption | (extract_lets +onlyGivenNames x; refine (fun (hx : Keeps s₀ x) => ?_) ?_; (clear_value x); rotate_left; subst x) | simp only [↓Keeps.upd_iff]
    | (extract_lets +onlyGivenNames x; subst x) | dsimp only

theorem setHost_keeps {s₀ : State} (f : HostIf → HostIf) {s : State} (hk : Keeps s₀ s) : Keeps s₀ (setHost f s) := by
  unfold setHost
  repeat' first
    | assumption | (extract_lets +onlyGivenNames x; refine (fun (hx : Keeps s₀ x) => ?_) ?_; (clear_value x); rotate_left; subst x) | simp only [↓Keeps.upd_iff]
    | (extract_lets +onlyGivenNames x; subst x) | dsimp only

theorem endSession_keeps {s₀ : State} (cause : Nat) {s : State} (hk : Keeps s₀ s) : Keeps s₀ (endSession cause s) := by
  unfold endSession
  repeat' first
    | (with_reducible first | assumption | apply setSvc_keeps | apply svcRecord_keeps) | intro _
    | (extract_lets +onlyGivenNames x; refine (fun (hx : Keeps s₀ x) => ?_) ?_; (clear_value x); rotate_left; subst x) | split | simp only [↓Keeps.upd_iff]
    | (extract_lets +onlyGivenNames x; subst x) | dsimp only

theorem resetLog_logKeeps (src ms : Nat) (l : LogSt) : LogKeeps l (resetLog src ms l) := by
  have hf : ∀ (q : List Event) (m : LogSt), LogKeeps m (q.foldl (fun l e => enqueue ms e l) m) := by
    intro q
    induction q with
    | nil => exact LogKeeps.refl
    | cons e q ih => exact fun m => (enqueue_logKeeps _ e m).trans (ih _)
  have h0 := LogKeeps.trans (m := { l with timeRecs := [] }) (LogKeeps.mk (l := l) id id (Nat.le_refl _)) (hf l.timeRecs _)
  unfold resetLog
  split
  · exact h0.trans ⟨fun _ => Nat.zero_le _, id, Nat.le_refl _⟩
  · exact h0.trans ⟨fun hq => Nat.le_trans (List.length_filter_le ..) hq, id, Nat.le_refl _⟩

theorem resetDevice_keeps {s₀ : State} (src : Nat) {s : State} (hk : Keeps s₀ s) : Keeps s₀ (resetDevice src s) := by
  have he := endSession_keeps 3 hk
  refine ⟨he.variant, he.pending, fun hm => ?_, he.log.trans (resetLog_logKeeps src _ _)⟩
  have hw := he.mem hm
  show (resetMem src (endSession 3 s).mem).wf = true
  unfold resetMem
  simp only [Mems.wf, Bool.and_eq_true] at hw ⊢
  split
  · exact ⟨⟨rfl, rfl⟩, hw.2⟩
  · exact ⟨⟨hw.1.1, filter_wf hw.1.2 _⟩, hw.2⟩

theorem bootFatal_keeps {s₀ : State} (code : Nat) {s : State} (hk : Keeps s₀ s) : Keeps s₀ (bootFatal code s) := by
  unfold bootFatal
  repeat' first
    | (with_reducible first | assumption | apply setMode_keeps) | intro _
    | (extract_lets +onlyGivenNames x; refine (fun (hx : Keeps s₀ x) => ?_) ?_; (clear_value x); rotate_left; subst x) | simp only [↓Keeps.upd_iff]
    | (extract_lets +onlyGivenNames x; subst x) | dsimp only

theorem bootBackup_keeps {s₀ : State} (r : BootReport) {s : State} (hk : Keeps s₀ s) : Keeps s₀ (bootBackup r s) := by
  unfold bootBackup
  repeat' first
    | (with_reducible first | assumption | apply foldl_keeps | apply postEvent_keeps | refine setLog_keeps (fun l => ?_) ?_ | apply vbatKeysLost_keeps | apply setPwr_keeps | apply setTime_keeps | apply raiseSafe_keeps)
    | exact ⟨id, id, Nat.le_refl _⟩
    | exact enqueue_logKeeps _ _ _
    | simp only [↓outKeeps_mk]
    | intro _
    | (extract_lets +onlyGivenNames x; refine (fun (hx : Keeps s₀ x) => ?_) ?_; (clear_value x); rotate_left; subst x)
    | split
    | dsimp only

theorem bootCluster_keeps {s₀ : State} {s : State} (c : Nat) (hk : Keeps s₀ s) : Keeps s₀ (bootCluster s c) := by
  unfold bootCluster
  repeat' first
    | (with_reducible first | assumption | apply isolate_keeps | apply setMode_keeps) | intro _
    | (extract_lets +onlyGivenNames x; refine (fun (hx : Keeps s₀ x) => ?_) ?_; (clear_value x); rotate_left; subst x) | split | simp only [↓Keeps.upd_iff]
    | (extract_lets +onlyGivenNames x; subst x) | dsimp only

theorem bootStandby_keeps {s₀ : State} {s : State} (r : Nat) (hk : Keeps s₀ s) : Keeps s₀ (bootStandby s r) := by
  unfold bootStandby
  repeat' first
    | (with_reducible first | assumption | apply failStandby_keeps) | split | dsimp only

theorem bootUnits_keeps {s₀ : State} (r : BootReport) {s : State} (hk : Keeps s₀ s) : Keeps s₀ (bootUnits r s) := by
  unfold bootUnits
  repeat' first
    | (with_reducible first | assumption | apply foldl_keeps | apply bootCluster_keeps | apply bootStandby_keeps)

theorem bootClocks_keeps {s₀ : State} (r : BootReport) {s : State} (hk : Keeps s₀ s) : Keeps s₀ (bootClocks r s) := by
  unfold bootClocks
  repeat' first
    | (with_reducible first | assumption | apply setClk_keeps | apply setGrid_keeps | apply setProt_keeps) | intro _
    | (extract_lets +onlyGivenNames x; refine (fun (hx : Keeps s₀ x) => ?_) ?_; (clear_value x); rotate_left; subst x) | split | simp only [↓Keeps.upd_iff]
    | (extract_lets +onlyGivenNames x; subst x) | dsimp only

theorem bootTime_keeps {s₀ : State} {s : State} (hk : Keeps s₀ s) : Keeps s₀ (bootTime s) := by
  unfold bootTime
  repeat' first
    | (with_reducible first | assumption | apply timeEvent_keeps | apply setTime_keeps) | intro _
    | (extract_lets +onlyGivenNames x; refine (fun (hx : Keeps s₀ x) => ?_) ?_; (clear_value x); rotate_left; subst x) | split | simp only [↓Keeps.upd_iff]
    | (extract_lets +onlyGivenNames x; subst x) | dsimp only

theorem bootRecords_keeps {s₀ : State} (r : BootReport) (fallback : Bool) {s : State} (hk : Keeps s₀ s) : Keeps s₀ (bootRecords r fallback s) := by
  unfold bootRecords
  repeat' first
    | (with_reducible first | assumption | apply foldl_keeps | apply postEvent_keeps | refine setLog_keeps (fun l => ?_) ?_ | apply svcRecord_keeps | apply setSvc_keeps | apply bootTime_keeps | apply tamperBootRecords_keeps | apply raiseIrq_keeps)
    | exact ⟨id, id, Nat.le_refl _⟩
    | exact enqueue_logKeeps _ _ _
    | simp only [↓outKeeps_mk]
    | intro _
    | (extract_lets +onlyGivenNames x; refine (fun (hx : Keeps s₀ x) => ?_) ?_; (clear_value x); rotate_left; subst x)
    | split
    | dsimp only

theorem bootSteps_keeps {s₀ : State} (r : BootReport) {s : State} (hk : Keeps s₀ s) : Keeps s₀ (bootSteps r s) := by
  unfold bootSteps
  repeat' first
    | (with_reducible first | assumption | apply bootFatal_keeps | apply bootBackup_keeps | apply setMode_keeps | apply setSec_keeps | apply bootUnits_keeps | apply bootClocks_keeps | apply bootCalibrate_keeps | apply bootRecords_keeps)
    | intro _ | (extract_lets +onlyGivenNames x; refine (fun (hx : Keeps s₀ x) => ?_) ?_; (clear_value x); rotate_left; subst x) | split | simp only [↓Keeps.upd_iff]
    | (extract_lets +onlyGivenNames x; subst x) | dsimp only

theorem dropWork_keeps {s₀ s : State} (hk : Keeps s₀ s) : Keeps s₀ (dropWork s) := by
  unfold dropWork
  refine setLog_keeps (fun l => ⟨fun hq => Nat.le_trans (List.length_filter_le ..) hq, id, Nat.le_refl _⟩) ?_
  exact setGrid_keeps _ (setSec_keeps _ (setLoops_keeps _ (setTbl_keeps _ (Keeps.upd_iff.mpr hk))))

theorem restartReplies_keeps {s₀ : State} {s : State} (hk : Keeps s₀ s) : Keeps s₀ (restartReplies s) := by
  unfold restartReplies
  repeat' first
    | (with_reducible first | assumption | apply foldl_keeps | apply complete_keeps | apply dropInFlight_keeps | apply finish_keeps) | intro _
    | (extract_lets +onlyGivenNames x; refine (fun (hx : Keeps s₀ x) => ?_) ?_; (clear_value x); rotate_left; subst x) | split | simp only [↓Keeps.upd_iff]
    | (extract_lets +onlyGivenNames x; subst x) | dsimp only

theorem supvDown_keeps {s₀ : State} {s : State} (hk : Keeps s₀ s) : Keeps s₀ (supvDown s) := by
  unfold supvDown
  repeat' first
    | (with_reducible first | assumption | apply dropWork_keeps | apply endSession_keeps | apply setMode_keeps) | intro _
    | (extract_lets +onlyGivenNames x; refine (fun (hx : Keeps s₀ x) => ?_) ?_; (clear_value x); rotate_left; subst x) | simp only [↓Keeps.upd_iff]
    | (extract_lets +onlyGivenNames x; subst x) | dsimp only

theorem restartRecord_keeps {s₀ : State} (src : Nat) {s : State} (hk : Keeps s₀ s) : Keeps s₀ (restartRecord src s) := by
  unfold restartRecord
  repeat' first
    | (with_reducible first | assumption | apply postEvent_keeps | apply setMode_keeps) | intro _
    | (extract_lets +onlyGivenNames x; refine (fun (hx : Keeps s₀ x) => ?_) ?_; (clear_value x); rotate_left; subst x) | simp only [↓Keeps.upd_iff]
    | (extract_lets +onlyGivenNames x; subst x) | dsimp only

theorem endLoopWork_keeps {s₀ : State} {s : State} (hk : Keeps s₀ s) : Keeps s₀ (endLoopWork s) := by
  unfold endLoopWork
  repeat' first
    | (with_reducible first | assumption | apply foldl_keeps | apply dropInFlight_keeps | apply setLoops_keeps) | intro _
    | (extract_lets +onlyGivenNames x; refine (fun (hx : Keeps s₀ x) => ?_) ?_; (clear_value x); rotate_left; subst x) | split | simp only [↓Keeps.upd_iff]
    | (extract_lets +onlyGivenNames x; subst x) | dsimp only

theorem beginWarm_keeps {s₀ : State} (src : Nat) {s : State} (hk : Keeps s₀ s) : Keeps s₀ (beginWarm src s) := by
  unfold beginWarm
  repeat' first
    | (with_reducible first | assumption | apply dmaRestart_keeps | apply restartRecord_keeps | apply supvDown_keeps | apply endLoopWork_keeps | apply setMode_keeps | apply endTest_keeps | apply endPulse_keeps | apply setSvc_keeps | apply setHost_keeps | apply setTime_keeps | apply setTState_keeps)
    | intro _ | (extract_lets +onlyGivenNames x; refine (fun (hx : Keeps s₀ x) => ?_) ?_; (clear_value x); rotate_left; subst x) | split | simp only [↓Keeps.upd_iff]
    | (extract_lets +onlyGivenNames x; subst x) | dsimp only

theorem watchdogExpiry_keeps {s₀ : State} {s : State} (hk : Keeps s₀ s) : Keeps s₀ (watchdogExpiry s) := by
  unfold watchdogExpiry
  repeat' first
    | (with_reducible first | assumption | apply settle_keeps | apply countEvent_keeps | apply beginWarm_keeps) | split | dsimp only

theorem execSupvWatchdogExpiry_keeps {s₀ : State} {s : State} (hk : Keeps s₀ s) : OutKeeps s₀ (execSupvWatchdogExpiry s) := by
  unfold execSupvWatchdogExpiry
  repeat' first
    | (with_reducible first | assumption | apply watchdogExpiry_keeps) | simp only [↓outKeeps_mk]

theorem execWarmRestartDone_keeps {s₀ : State} (ok : Bool) {s : State} (hk : Keeps s₀ s) : OutKeeps s₀ (execWarmRestartDone ok s) := by
  unfold execWarmRestartDone
  repeat' first
    | (with_reducible first | assumption | apply setMode_keeps | apply restartReplies_keeps | apply setSec_keeps | apply raiseSafe_keeps) | intro _
    | (extract_lets +onlyGivenNames x; refine (fun (hx : Keeps s₀ x) => ?_) ?_; (clear_value x); rotate_left; subst x) | split | simp only [↓Keeps.upd_iff, ↓outKeeps_mk]
    | (extract_lets +onlyGivenNames x; subst x) | dsimp only

theorem lockstepRestart_keeps {s₀ : State} {s : State} (hk : Keeps s₀ s) : Keeps s₀ (lockstepRestart s) := by
  unfold lockstepRestart
  repeat' first
    | (with_reducible first | assumption | apply settle_keeps | apply countEvent_keeps | apply supvDown_keeps | apply restartRecord_keeps | apply setMode_keeps) | intro _
    | (extract_lets +onlyGivenNames x; refine (fun (hx : Keeps s₀ x) => ?_) ?_; (clear_value x); rotate_left; subst x) | split | simp only [↓Keeps.upd_iff]
    | (extract_lets +onlyGivenNames x; subst x) | dsimp only

theorem execSupvLockstepRestart_keeps {s₀ : State} {s : State} (hk : Keeps s₀ s) : OutKeeps s₀ (execSupvLockstepRestart s) := by
  unfold execSupvLockstepRestart
  repeat' first
    | (with_reducible first | assumption | apply lockstepRestart_keeps) | simp only [↓outKeeps_mk]

theorem execSupvLockstepRestartDone_keeps {s₀ : State} {s : State} (hk : Keeps s₀ s) : OutKeeps s₀ (execSupvLockstepRestartDone s) := by
  unfold execSupvLockstepRestartDone
  repeat' first
    | (with_reducible first | assumption | apply restartReplies_keeps | apply setMode_keeps) | intro _
    | (extract_lets +onlyGivenNames x; refine (fun (hx : Keeps s₀ x) => ?_) ?_; (clear_value x); rotate_left; subst x) | split | simp only [↓Keeps.upd_iff, ↓outKeeps_mk]
    | (extract_lets +onlyGivenNames x; subst x) | dsimp only

theorem execRstN_keeps {s₀ : State} (r : BootReport) {s : State} (hk : Keeps s₀ s) : OutKeeps s₀ (execRstN r s) := by
  unfold execRstN
  repeat' first
    | (with_reducible first | assumption | apply resetDevice_keeps | apply bootSteps_keeps)
    | (extract_lets +onlyGivenNames x; refine (fun (hx : Keeps s₀ x) => ?_) ?_; (clear_value x); rotate_left; subst x) | split | simp only [↓outKeeps_mk]
    | (extract_lets +onlyGivenNames x; subst x) | dsimp only

theorem execPowerOn_keeps {s₀ : State} (r : BootReport) {s : State} (hk : Keeps s₀ s) : OutKeeps s₀ (execPowerOn r s) := by
  unfold execPowerOn
  repeat' first
    | (with_reducible first | assumption | apply bootSteps_keeps | apply resetDevice_keeps) | split | simp only [↓outKeeps_mk] | dsimp only

theorem execRailsGood_keeps {s₀ : State} (r : BootReport) {s : State} (hk : Keeps s₀ s) : OutKeeps s₀ (execRailsGood r s) := by
  unfold execRailsGood
  repeat' first
    | (with_reducible first | assumption | apply bootSteps_keeps | apply setPwr_keeps) | intro _
    | (extract_lets +onlyGivenNames x; refine (fun (hx : Keeps s₀ x) => ?_) ?_; (clear_value x); rotate_left; subst x) | split | simp only [↓Keeps.upd_iff, ↓outKeeps_mk]
    | (extract_lets +onlyGivenNames x; subst x) | dsimp only

theorem execPerstN_keeps {s₀ : State} (low : Bool) {s : State} (hk : Keeps s₀ s) : OutKeeps s₀ (execPerstN low s) := by
  unfold execPerstN
  repeat' first
    | (with_reducible first | assumption | apply setHost_keeps) | intro _
    | (extract_lets +onlyGivenNames x; refine (fun (hx : Keeps s₀ x) => ?_) ?_; (clear_value x); rotate_left; subst x) | simp only [↓Keeps.upd_iff, ↓outKeeps_mk]
    | (extract_lets +onlyGivenNames x; subst x) | dsimp only

theorem execPcieLinkTrained_keeps {s₀ : State} {s : State} (hk : Keeps s₀ s) : OutKeeps s₀ (execPcieLinkTrained s) := by
  unfold execPcieLinkTrained
  repeat' first
    | (with_reducible first | assumption | apply setHost_keeps) | intro _
    | (extract_lets +onlyGivenNames x; refine (fun (hx : Keeps s₀ x) => ?_) ?_; (clear_value x); rotate_left; subst x) | split | simp only [↓Keeps.upd_iff, ↓outKeeps_mk]
    | (extract_lets +onlyGivenNames x; subst x) | dsimp only

theorem execPcieLinkLost_keeps {s₀ : State} {s : State} (hk : Keeps s₀ s) : OutKeeps s₀ (execPcieLinkLost s) := by
  unfold execPcieLinkLost
  repeat' first
    | (with_reducible first | assumption | apply setHost_keeps) | intro _
    | (extract_lets +onlyGivenNames x; refine (fun (hx : Keeps s₀ x) => ?_) ?_; (clear_value x); rotate_left; subst x) | simp only [↓Keeps.upd_iff, ↓outKeeps_mk]
    | (extract_lets +onlyGivenNames x; subst x) | dsimp only

/-! ### Power -/

theorem powerEvent_keeps {s₀ : State} (code : Nat) (unit : Nat) {s : State} (hk : Keeps s₀ s) : Keeps s₀ (powerEvent code unit s) := by
  unfold powerEvent
  repeat' first
    | (with_reducible first | assumption | apply raiseIrq_keeps | apply postEvent_keeps)

theorem powerDown_keeps {s₀ : State} (code : Nat) {s : State} (hk : Keeps s₀ s) : Keeps s₀ (powerDown code s) := by
  unfold powerDown
  repeat' first
    | (with_reducible first | assumption | apply writeDirect_keeps | apply resetDevice_keeps | apply setMode_keeps | apply setPwr_keeps) | intro _
    | (extract_lets +onlyGivenNames x; refine (fun (hx : Keeps s₀ x) => ?_) ?_; (clear_value x); rotate_left; subst x) | split | simp only [↓Keeps.upd_iff]
    | (extract_lets +onlyGivenNames x; subst x) | dsimp only

theorem execBrownOut_keeps {s₀ : State} (rail : BitVec 3) {s : State} (hk : Keeps s₀ s) : OutKeeps s₀ (execBrownOut rail s) := by
  unfold execBrownOut
  repeat' first
    | (with_reducible first | assumption | apply setPwr_keeps | apply powerDown_keeps | apply resetDevice_keeps) | intro _
    | (extract_lets +onlyGivenNames x; refine (fun (hx : Keeps s₀ x) => ?_) ?_; (clear_value x); rotate_left; subst x) | split | simp only [↓Keeps.upd_iff, ↓outKeeps_mk]
    | (extract_lets +onlyGivenNames x; subst x) | dsimp only

theorem execBrownOutLatch_keeps {s₀ : State} {s : State} (hk : Keeps s₀ s) : OutKeeps s₀ (execBrownOutLatch s) := by
  unfold execBrownOutLatch
  repeat' first
    | (with_reducible first | assumption | apply foldl_keeps | apply powerDown_keeps | apply setClk_keeps) | intro _
    | (extract_lets +onlyGivenNames x; refine (fun (hx : Keeps s₀ x) => ?_) ?_; (clear_value x); rotate_left; subst x) | split | simp only [↓outKeeps_mk]
    | (extract_lets +onlyGivenNames x; subst x) | dsimp only

theorem execRailOvervoltage_keeps {s₀ : State} (rail : BitVec 3) {s : State} (hk : Keeps s₀ s) : OutKeeps s₀ (execRailOvervoltage rail s) := by
  unfold execRailOvervoltage
  repeat' first
    | (with_reducible first | assumption | apply powerDown_keeps) | split | simp only [↓outKeeps_mk] | dsimp only

theorem execVinLoss_keeps {s₀ : State} {s : State} (hk : Keeps s₀ s) : OutKeeps s₀ (execVinLoss s) := by
  unfold execVinLoss
  repeat' first
    | (with_reducible first | assumption | apply setPwr_keeps | apply powerEvent_keeps | apply endTrace_keeps | apply urgentRequest_keeps) | intro _
    | (extract_lets +onlyGivenNames x; refine (fun (hx : Keeps s₀ x) => ?_) ?_; (clear_value x); rotate_left; subst x) | split | simp only [↓Keeps.upd_iff, ↓outKeeps_mk]
    | (extract_lets +onlyGivenNames x; subst x) | dsimp only

theorem execVinGood_keeps {s₀ : State} {s : State} (hk : Keeps s₀ s) : OutKeeps s₀ (execVinGood s) := by
  unfold execVinGood
  repeat' first
    | (with_reducible first | assumption | apply setPwr_keeps | apply powerEvent_keeps) | intro _
    | (extract_lets +onlyGivenNames x; refine (fun (hx : Keeps s₀ x) => ?_) ?_; (clear_value x); rotate_left; subst x) | split | simp only [↓Keeps.upd_iff, ↓outKeeps_mk]
    | (extract_lets +onlyGivenNames x; subst x) | dsimp only

theorem execVinGood50ms_keeps {s₀ : State} {s : State} (hk : Keeps s₀ s) : OutKeeps s₀ (execVinGood50ms s) := by
  unfold execVinGood50ms
  repeat' first
    | (with_reducible first | assumption | apply setPwr_keeps | apply setClk_keeps) | intro _
    | (extract_lets +onlyGivenNames x; refine (fun (hx : Keeps s₀ x) => ?_) ?_; (clear_value x); rotate_left; subst x) | split | simp only [↓Keeps.upd_iff, ↓outKeeps_mk]
    | (extract_lets +onlyGivenNames x; subst x) | dsimp only

theorem execVinOv_keeps {s₀ : State} {s : State} (hk : Keeps s₀ s) : OutKeeps s₀ (execVinOv s) := by
  unfold execVinOv
  repeat' first
    | (with_reducible first | assumption | apply powerEvent_keeps | apply setPwr_keeps) | intro _
    | (extract_lets +onlyGivenNames x; refine (fun (hx : Keeps s₀ x) => ?_) ?_; (clear_value x); rotate_left; subst x) | split | simp only [↓Keeps.upd_iff, ↓outKeeps_mk]
    | (extract_lets +onlyGivenNames x; subst x) | dsimp only

theorem execHoldFull_keeps {s₀ : State} {s : State} (hk : Keeps s₀ s) : OutKeeps s₀ (execHoldFull s) := by
  unfold execHoldFull
  repeat' first
    | (with_reducible first | assumption | apply powerEvent_keeps | apply setPwr_keeps) | intro _
    | (extract_lets +onlyGivenNames x; refine (fun (hx : Keeps s₀ x) => ?_) ?_; (clear_value x); rotate_left; subst x) | split | simp only [↓Keeps.upd_iff, ↓outKeeps_mk]
    | (extract_lets +onlyGivenNames x; subst x) | dsimp only

theorem execHoldCapMeasured_keeps {s₀ : State} (us : Nat) {s : State} (hk : Keeps s₀ s) : OutKeeps s₀ (execHoldCapMeasured us s) := by
  unfold execHoldCapMeasured
  repeat' first
    | (with_reducible first | assumption | apply setPwr_keeps | apply powerEvent_keeps) | intro _
    | (extract_lets +onlyGivenNames x; refine (fun (hx : Keeps s₀ x) => ?_) ?_; (clear_value x); rotate_left; subst x) | split | simp only [↓Keeps.upd_iff, ↓outKeeps_mk]
    | (extract_lets +onlyGivenNames x; subst x) | dsimp only

theorem execHold30v_keeps {s₀ : State} {s : State} (hk : Keeps s₀ s) : OutKeeps s₀ (execHold30v s) := by
  unfold execHold30v
  repeat' first
    | (with_reducible first | assumption | apply powerEvent_keeps | apply shedRecording_keeps | apply setPwr_keeps) | intro _
    | (extract_lets +onlyGivenNames x; refine (fun (hx : Keeps s₀ x) => ?_) ?_; (clear_value x); rotate_left; subst x) | split | simp only [↓Keeps.upd_iff, ↓outKeeps_mk]
    | (extract_lets +onlyGivenNames x; subst x) | dsimp only

theorem execHold20v_keeps {s₀ : State} {s : State} (hk : Keeps s₀ s) : OutKeeps s₀ (execHold20v s) := by
  unfold execHold20v
  repeat' first
    | (with_reducible first | assumption | apply powerEvent_keeps | apply setMode_keeps | apply setPwr_keeps) | intro _
    | (extract_lets +onlyGivenNames x; refine (fun (hx : Keeps s₀ x) => ?_) ?_; (clear_value x); rotate_left; subst x) | split | simp only [↓Keeps.upd_iff, ↓outKeeps_mk]
    | (extract_lets +onlyGivenNames x; subst x) | dsimp only

theorem execHold10v_keeps {s₀ : State} {s : State} (hk : Keeps s₀ s) : OutKeeps s₀ (execHold10v s) := by
  unfold execHold10v
  repeat' first
    | (with_reducible first | assumption | apply powerDown_keeps) | split | simp only [↓outKeeps_mk] | dsimp only

theorem restoreLoads_keeps {s₀ : State} {s : State} (hk : Keeps s₀ s) : Keeps s₀ (restoreLoads s) := by
  unfold restoreLoads
  repeat' first
    | (with_reducible first | assumption | apply setMode_keeps | apply setPwr_keeps | apply powerEvent_keeps | apply restoreRecording_keeps) | intro _
    | (extract_lets +onlyGivenNames x; refine (fun (hx : Keeps s₀ x) => ?_) ?_; (clear_value x); rotate_left; subst x) | split | simp only [↓Keeps.upd_iff]
    | (extract_lets +onlyGivenNames x; subst x) | dsimp only

theorem execTjHigh_keeps {s₀ : State} (above : Bool) {s : State} (hk : Keeps s₀ s) : OutKeeps s₀ (execTjHigh above s) := by
  unfold execTjHigh
  repeat' first
    | (with_reducible first | assumption | apply powerEvent_keeps | apply setPwr_keeps) | intro _
    | (extract_lets +onlyGivenNames x; refine (fun (hx : Keeps s₀ x) => ?_) ?_; (clear_value x); rotate_left; subst x) | split | simp only [↓Keeps.upd_iff, ↓outKeeps_mk]
    | (extract_lets +onlyGivenNames x; subst x) | dsimp only

theorem execOvertempPowerDown_keeps {s₀ : State} {s : State} (hk : Keeps s₀ s) : OutKeeps s₀ (execOvertempPowerDown s) := by
  unfold execOvertempPowerDown
  repeat' first
    | (with_reducible first | assumption | apply powerDown_keeps) | split | simp only [↓outKeeps_mk] | dsimp only

theorem execVbatCheck_keeps {s₀ : State} (low : Bool) {s : State} (hk : Keeps s₀ s) : OutKeeps s₀ (execVbatCheck low s) := by
  unfold execVbatCheck
  repeat' first
    | (with_reducible first | assumption | apply powerEvent_keeps | apply setPwr_keeps) | intro _
    | (extract_lets +onlyGivenNames x; refine (fun (hx : Keeps s₀ x) => ?_) ?_; (clear_value x); rotate_left; subst x) | split | simp only [↓Keeps.upd_iff, ↓outKeeps_mk]
    | (extract_lets +onlyGivenNames x; subst x) | dsimp only

theorem execVaux18Changeover_keeps {s₀ : State} {s : State} (hk : Keeps s₀ s) : OutKeeps s₀ (execVaux18Changeover s) := by
  unfold execVaux18Changeover
  repeat' first
    | (with_reducible first | assumption | apply setPwr_keeps) | intro _
    | (extract_lets +onlyGivenNames x; refine (fun (hx : Keeps s₀ x) => ?_) ?_; (clear_value x); rotate_left; subst x) | simp only [↓Keeps.upd_iff, ↓outKeeps_mk]
    | (extract_lets +onlyGivenNames x; subst x) | dsimp only

theorem execOpMinuteTick_keeps {s₀ : State} {s : State} (hk : Keeps s₀ s) : OutKeeps s₀ (execOpMinuteTick s) := by
  unfold execOpMinuteTick
  repeat' first
    | (with_reducible first | assumption | apply foldl_keeps | apply postEvent_keeps | refine setLog_keeps (fun l => ?_) ?_ | apply saveEnergy_keeps | apply setPwr_keeps | apply setClk_keeps)
    | exact ⟨id, id, Nat.le_refl _⟩
    | exact enqueue_logKeeps _ _ _
    | simp only [↓outKeeps_mk]
    | intro _
    | (extract_lets +onlyGivenNames x; refine (fun (hx : Keeps s₀ x) => ?_) ?_; (clear_value x); rotate_left; subst x)
    | split
    | dsimp only

theorem execPwrStatus_keeps {s₀ : State} (c : Cmd) {s : State} (hk : Keeps s₀ s) : OutKeeps s₀ (execPwrStatus c s) := by
  unfold execPwrStatus
  repeat' first
    | (with_reducible first | assumption | apply command_keeps) | intro _ | simp only [↓outKeeps_mk, ↓actKeeps_done, ↓actKeeps_boundary, ↓actKeeps_goesOn] | dsimp only

end Sys2Proof.Machine.Laws
end

