-- ==== Sys2Proof/Laws/KeepsCmd.lean ====
section
/-! SUPPORT. One lemma per operation of the console, the logic machine and the Milestone boundary, named after it: it keeps what Keeps says. -/

namespace Sys2Proof.Machine.Laws
open Sys2Proof.Machine

set_option Elab.async false

/-! ### Komir -/

theorem flushLate_keeps {s₀ : State} {s : State} (hk : Keeps s₀ s) : Keeps s₀ (flushLate s) := by
  unfold flushLate
  repeat' first
    | (with_reducible first | assumption | apply uartLine_keeps | apply setSvc_keeps | apply setClk_keeps) | intro _
    | (extract_lets +onlyGivenNames x; refine (fun (hx : Keeps s₀ x) => ?_) ?_; (clear_value x); rotate_left; subst x) | split | simp only [↓Keeps.upd_iff]
    | (extract_lets +onlyGivenNames x; subst x) | dsimp only

theorem sweepIdle_keeps {s₀ : State} {s : State} (hk : Keeps s₀ s) : Keeps s₀ (sweepIdle s) := by
  unfold sweepIdle
  repeat' first
    | (with_reducible first | assumption | apply endSession_keeps) | split | dsimp only

theorem sweepLate_keeps {s₀ : State} {s : State} (hk : Keeps s₀ s) : Keeps s₀ (sweepLate s) := by
  unfold sweepLate
  repeat' first
    | (with_reducible first | assumption | apply sweepIdle_keeps | apply flushLate_keeps)
    | (extract_lets +onlyGivenNames x; refine (fun (hx : Keeps s₀ x) => ?_) ?_; (clear_value x); rotate_left; subst x) | split | simp only [↓Keeps.upd_iff]
    | (extract_lets +onlyGivenNames x; subst x) | dsimp only

theorem komirLine_keeps {s₀ : State} (rec_ : Bool) (free : Bool) (f : State → State) {s : State} (hf : ∀  t, Keeps s₀ t → Keeps s₀ (f t)) (hk : Keeps s₀ s) : Keeps s₀ (komirLine rec_ free f s) := by
  unfold komirLine
  repeat' first
    | (with_reducible first | assumption | apply sweepIdle_keeps | apply flushLate_keeps | apply setSvc_keeps | apply uartLine_keeps | apply hf) | intro _
    | (extract_lets +onlyGivenNames x; refine (fun (hx : Keeps s₀ x) => ?_) ?_; (clear_value x); rotate_left; subst x) | split | simp only [↓Keeps.upd_iff]
    | (extract_lets +onlyGivenNames x; subst x) | dsimp only

theorem okText_keeps {s₀ : State} (t : String) {s : State} (hk : Keeps s₀ s) : Keeps s₀ (okText t s) := by
  unfold okText
  repeat' first
    | (with_reducible first | assumption | apply uartLine_keeps)

theorem okVals_keeps {s₀ : State} (b : Bytes) {s : State} (hk : Keeps s₀ s) : Keeps s₀ (okVals b s) := by
  unfold okVals
  repeat' first
    | (with_reducible first | assumption | apply uartLine_keeps)

theorem consoleRun_keeps {s₀ : State} (c : Cmd) (j : State → Judge) (act : State → Action) {s : State} (hact : ∀ t, Keeps s₀ t → ActKeeps s₀ (act t)) (hk : Keeps s₀ s) : Keeps s₀ (consoleRun c j act s) := by
  unfold consoleRun
  repeat' first
    | (with_reducible first | assumption | apply consoleReply_keeps | apply hact) | refine ActKeeps.of_done (by assumption) ?_ | refine ActKeeps.of_boundary (by assumption) ?_
    | refine ActKeeps.of_goesOn (by assumption) ?_ | (extract_lets +onlyGivenNames x; refine (fun (hx : Keeps s₀ x) => ?_) ?_; (clear_value x); rotate_left; subst x) | split
    | simp only [↓Keeps.upd_iff] | (extract_lets +onlyGivenNames x; subst x) | dsimp only

theorem execKomirHelp_keeps {s₀ : State} {s : State} (hk : Keeps s₀ s) : OutKeeps s₀ (execKomirHelp s) := by
  unfold execKomirHelp
  repeat' first
    | (with_reducible first | assumption | apply komirLine_keeps | apply okText_keeps) | intro _ | simp only [↓outKeeps_mk] | dsimp only

theorem execKomirId_keeps {s₀ : State} {s : State} (hk : Keeps s₀ s) : OutKeeps s₀ (execKomirId s) := by
  unfold execKomirId
  repeat' first
    | (with_reducible first | assumption | apply komirLine_keeps | apply okVals_keeps) | intro _ | simp only [↓outKeeps_mk] | dsimp only

theorem execKomirStatus_keeps {s₀ : State} {s : State} (hk : Keeps s₀ s) : OutKeeps s₀ (execKomirStatus s) := by
  unfold execKomirStatus
  repeat' first
    | (with_reducible first | assumption | apply komirLine_keeps | apply okVals_keeps) | intro _ | simp only [↓outKeeps_mk] | dsimp only

theorem execKomirBaud_keeps {s₀ : State} (n : Nat) {s : State} (hk : Keeps s₀ s) : OutKeeps s₀ (execKomirBaud n s) := by
  unfold execKomirBaud
  repeat' first
    | (with_reducible first | assumption | apply komirLine_keeps | apply setSvc_keeps | apply uartLine_keeps) | intro _
    | (extract_lets +onlyGivenNames x; refine (fun (hx : Keeps s₀ x) => ?_) ?_; (clear_value x); rotate_left; subst x) | split | simp only [↓Keeps.upd_iff, ↓outKeeps_mk]
    | (extract_lets +onlyGivenNames x; subst x) | dsimp only

theorem execKomirEcho_keeps {s₀ : State} (on : Bool) {s : State} (hk : Keeps s₀ s) : OutKeeps s₀ (execKomirEcho on s) := by
  unfold execKomirEcho
  repeat' first
    | (with_reducible first | assumption | apply komirLine_keeps | apply uartLine_keeps | apply setSvc_keeps) | intro _
    | (extract_lets +onlyGivenNames x; refine (fun (hx : Keeps s₀ x) => ?_) ?_; (clear_value x); rotate_left; subst x) | simp only [↓Keeps.upd_iff, ↓outKeeps_mk]
    | (extract_lets +onlyGivenNames x; subst x) | dsimp only

theorem execKomirUnlockNonce_keeps {s₀ : State} {s : State} (hk : Keeps s₀ s) : OutKeeps s₀ (execKomirUnlockNonce s) := by
  unfold execKomirUnlockNonce
  repeat' first
    | (with_reducible first | assumption | apply komirLine_keeps | apply uartLine_keeps | apply okText_keeps | apply setSvc_keeps) | intro _
    | (extract_lets +onlyGivenNames x; refine (fun (hx : Keeps s₀ x) => ?_) ?_; (clear_value x); rotate_left; subst x) | split | simp only [↓Keeps.upd_iff, ↓outKeeps_mk]
    | (extract_lets +onlyGivenNames x; subst x) | dsimp only

theorem unlockFailed_keeps {s₀ : State} (slot : Nat) {s : State} (hk : Keeps s₀ s) : Keeps s₀ (unlockFailed slot s) := by
  unfold unlockFailed
  repeat' first
    | (with_reducible first | assumption | apply setSvc_keeps | apply setSec_keeps | apply secRecord_keeps | apply fireTamper_keeps) | intro _
    | (extract_lets +onlyGivenNames x; refine (fun (hx : Keeps s₀ x) => ?_) ?_; (clear_value x); rotate_left; subst x) | split | simp only [↓Keeps.upd_iff]
    | (extract_lets +onlyGivenNames x; subst x) | dsimp only

theorem execKomirUnlockToken_keeps {s₀ : State} (slot : BitVec 8) (token : BitVec 64) {s : State} (hk : Keeps s₀ s) : OutKeeps s₀ (execKomirUnlockToken slot token s) := by
  unfold execKomirUnlockToken
  repeat' first
    | (with_reducible first | assumption | apply komirLine_keeps | apply setSvc_keeps | apply uartLine_keeps | apply secRecord_keeps | apply setSec_keeps | apply unlockFailed_keeps)
    | intro _ | (extract_lets +onlyGivenNames x; refine (fun (hx : Keeps s₀ x) => ?_) ?_; (clear_value x); rotate_left; subst x) | split | simp only [↓Keeps.upd_iff, ↓outKeeps_mk]
    | (extract_lets +onlyGivenNames x; subst x) | dsimp only

theorem execKomirLock_keeps {s₀ : State} {s : State} (hk : Keeps s₀ s) : OutKeeps s₀ (execKomirLock s) := by
  unfold execKomirLock
  repeat' first
    | (with_reducible first | assumption | apply komirLine_keeps | apply uartLine_keeps | apply endSession_keeps) | intro _ | simp only [↓outKeeps_mk] | dsimp only

theorem execKomirCaps_keeps {s₀ : State} {s : State} (hk : Keeps s₀ s) : OutKeeps s₀ (execKomirCaps s) := by
  unfold execKomirCaps
  repeat' first
    | (with_reducible first | assumption | apply komirLine_keeps | apply okVals_keeps) | intro _ | simp only [↓outKeeps_mk] | dsimp only

theorem execKomirLog_keeps {s₀ : State} (seq : Option (BitVec 64)) (n : Option (BitVec 16)) {s : State} (hk : Keeps s₀ s) : OutKeeps s₀ (execKomirLog seq n s) := by
  unfold execKomirLog
  repeat' first
    | (with_reducible first | assumption | apply komirLine_keeps | apply uartLine_keeps | apply okVals_keeps | apply setSvc_keeps) | intro _
    | (extract_lets +onlyGivenNames x; refine (fun (hx : Keeps s₀ x) => ?_) ?_; (clear_value x); rotate_left; subst x) | split | simp only [↓Keeps.upd_iff, ↓outKeeps_mk]
    | (extract_lets +onlyGivenNames x; subst x) | dsimp only

theorem execKomirSlice_keeps {s₀ : State} (x : BitVec 8) {s : State} (hk : Keeps s₀ s) : OutKeeps s₀ (execKomirSlice x s) := by
  unfold execKomirSlice
  repeat' first
    | (with_reducible first | assumption | apply komirLine_keeps | apply okVals_keeps | apply uartLine_keeps) | intro _ | split | simp only [↓outKeeps_mk] | dsimp only

theorem execKomirBay_keeps {s₀ : State} (b : BitVec 8) {s : State} (hk : Keeps s₀ s) : OutKeeps s₀ (execKomirBay b s) := by
  unfold execKomirBay
  repeat' first
    | (with_reducible first | assumption | apply komirLine_keeps | apply consoleRun_keeps | apply readAct_keeps) | intro _
    | (extract_lets +onlyGivenNames x; refine (fun (hx : Keeps s₀ x) => ?_) ?_; (clear_value x); rotate_left; subst x)
    | simp only [↓outKeeps_mk, ↓actKeeps_done, ↓actKeeps_boundary, ↓actKeeps_goesOn] | (extract_lets +onlyGivenNames x; subst x) | dsimp only

theorem execKomirPins_keeps {s₀ : State} {s : State} (hk : Keeps s₀ s) : OutKeeps s₀ (execKomirPins s) := by
  unfold execKomirPins
  repeat' first
    | (with_reducible first | assumption | apply komirLine_keeps | apply okVals_keeps) | intro _ | simp only [↓outKeeps_mk] | dsimp only

theorem execKomirTime_keeps {s₀ : State} {s : State} (hk : Keeps s₀ s) : OutKeeps s₀ (execKomirTime s) := by
  unfold execKomirTime
  repeat' first
    | (with_reducible first | assumption | apply komirLine_keeps | apply okVals_keeps) | intro _ | simp only [↓outKeeps_mk] | dsimp only

theorem execKomirSupv_keeps {s₀ : State} {s : State} (hk : Keeps s₀ s) : OutKeeps s₀ (execKomirSupv s) := by
  unfold execKomirSupv
  repeat' first
    | (with_reducible first | assumption | apply komirLine_keeps | apply okVals_keeps) | intro _ | simp only [↓outKeeps_mk] | dsimp only

theorem execKomirWmk_keeps {s₀ : State} (ch : BitVec 16) (kind : BitVec 4) (unit : BitVec 9) (sel : BitVec 8) (e : BitVec 8) (diff : Bool) (level : BitVec 12) {s : State} (hk : Keeps s₀ s) : OutKeeps s₀ (execKomirWmk ch kind unit sel e diff level s) := by
  unfold execKomirWmk
  repeat' first
    | (with_reducible first | assumption | apply komirLine_keeps | apply consoleRun_keeps | apply wmkAct_keeps) | intro _
    | (extract_lets +onlyGivenNames x; refine (fun (hx : Keeps s₀ x) => ?_) ?_; (clear_value x); rotate_left; subst x)
    | simp only [↓outKeeps_mk, ↓actKeeps_done, ↓actKeeps_boundary, ↓actKeeps_goesOn] | (extract_lets +onlyGivenNames x; subst x) | dsimp only

theorem consoleTest_keeps {s₀ : State} (c : Cmd) {s : State} (hk : Keeps s₀ s) : ActKeeps s₀ (consoleTest c s) := by
  unfold consoleTest
  repeat' first
    | (with_reducible first | assumption | apply startTest_keeps) | refine ActKeeps.of_done (by assumption) ?_ | refine ActKeeps.of_boundary (by assumption) ?_
    | refine ActKeeps.of_goesOn (by assumption) ?_ | (extract_lets +onlyGivenNames x; refine (fun (hx : Keeps s₀ x) => ?_) ?_; (clear_value x); rotate_left; subst x) | split
    | simp only [↓actKeeps_done, ↓actKeeps_boundary, ↓actKeeps_goesOn] | (extract_lets +onlyGivenNames x; subst x) | dsimp only

theorem execKomirTest_keeps {s₀ : State} (t : KomirTest) {s : State} (hk : Keeps s₀ s) : OutKeeps s₀ (execKomirTest t s) := by
  unfold execKomirTest
  simp only [↓outKeeps_mk]
  with_reducible apply komirLine_keeps
  · intro u hu
    split
    · with_reducible exact consoleRun_keeps _ _ _ (fun v hv => consoleTest_keeps _ hv) hu
    · with_reducible exact consoleRun_keeps _ _ _ (fun v hv => testAct_keeps _ hv) hu
    · with_reducible exact Keeps.ite (uartLine_keeps _ hu) (okVals_keeps _ hu)
  · exact hk

theorem consoleXfer_keeps {s₀ : State} (c : Cmd) (q : LoopReq) {s : State} (hk : Keeps s₀ s) : ActKeeps s₀ (consoleXfer c q s) := by
  unfold consoleXfer
  repeat' first
    | (with_reducible first | assumption | apply setLoop_keeps) | intro _ | refine ActKeeps.of_done (by assumption) ?_ | refine ActKeeps.of_boundary (by assumption) ?_
    | refine ActKeeps.of_goesOn (by assumption) ?_ | (extract_lets +onlyGivenNames x; refine (fun (hx : Keeps s₀ x) => ?_) ?_; (clear_value x); rotate_left; subst x) | split
    | simp only [↓Keeps.upd_iff, ↓actKeeps_done, ↓actKeeps_boundary, ↓actKeeps_goesOn] | (extract_lets +onlyGivenNames x; subst x) | dsimp only

theorem execKomirLoop_keeps {s₀ : State} (l : BitVec 16) (man : Option (BitVec 32)) {s : State} (hk : Keeps s₀ s) : OutKeeps s₀ (execKomirLoop l man s) := by
  unfold execKomirLoop
  repeat' first
    | (with_reducible first | assumption | apply komirLine_keeps | apply consoleRun_keeps | apply consoleXfer_keeps) | intro _ | refine ActKeeps.of_done (by assumption) ?_
    | refine ActKeeps.of_boundary (by assumption) ?_ | refine ActKeeps.of_goesOn (by assumption) ?_
    | (extract_lets +onlyGivenNames x; refine (fun (hx : Keeps s₀ x) => ?_) ?_; (clear_value x); rotate_left; subst x) | split
    | simp only [↓Keeps.upd_iff, ↓outKeeps_mk, ↓actKeeps_done, ↓actKeeps_boundary, ↓actKeeps_goesOn] | (extract_lets +onlyGivenNames x; subst x) | dsimp only

theorem execKomirRestartWarm_keeps {s₀ : State} {s : State} (hk : Keeps s₀ s) : OutKeeps s₀ (execKomirRestartWarm s) := by
  unfold execKomirRestartWarm
  repeat' first
    | (with_reducible first | assumption | apply komirLine_keeps | apply uartLine_keeps | apply svcRecord_keeps | apply setMode_keeps) | intro _
    | (extract_lets +onlyGivenNames x; refine (fun (hx : Keeps s₀ x) => ?_) ?_; (clear_value x); rotate_left; subst x) | split | simp only [↓Keeps.upd_iff, ↓outKeeps_mk]
    | (extract_lets +onlyGivenNames x; subst x) | dsimp only

theorem execKomirRestartCold_keeps {s₀ : State} {s : State} (hk : Keeps s₀ s) : OutKeeps s₀ (execKomirRestartCold s) := by
  unfold execKomirRestartCold
  repeat' first
    | (with_reducible first | assumption | apply komirLine_keeps | apply uartLine_keeps | apply svcRecord_keeps | apply setMode_keeps | apply setSvc_keeps | apply okText_keeps)
    | intro _ | (extract_lets +onlyGivenNames x; refine (fun (hx : Keeps s₀ x) => ?_) ?_; (clear_value x); rotate_left; subst x) | split | simp only [↓Keeps.upd_iff, ↓outKeeps_mk]
    | (extract_lets +onlyGivenNames x; subst x) | dsimp only

theorem execKomirFwd_keeps {s₀ : State} (off : Nat) (data : Bytes) {s : State} (hk : Keeps s₀ s) : OutKeeps s₀ (execKomirFwd off data s) := by
  unfold execKomirFwd
  repeat' first
    | (with_reducible first | assumption | apply komirLine_keeps | apply uartLine_keeps | apply setSvc_keeps | apply setFw_keeps) | intro _
    | (extract_lets +onlyGivenNames x; refine (fun (hx : Keeps s₀ x) => ?_) ?_; (clear_value x); rotate_left; subst x) | split | simp only [↓Keeps.upd_iff, ↓outKeeps_mk]
    | (extract_lets +onlyGivenNames x; subst x) | dsimp only

theorem execKomirFwe_keeps {s₀ : State} {s : State} (hk : Keeps s₀ s) : OutKeeps s₀ (execKomirFwe s) := by
  unfold execKomirFwe
  repeat' first
    | (with_reducible first | assumption | apply komirLine_keeps | apply uartLine_keeps | apply setSvc_keeps | apply setFw_keeps) | intro _
    | (extract_lets +onlyGivenNames x; refine (fun (hx : Keeps s₀ x) => ?_) ?_; (clear_value x); rotate_left; subst x) | split | simp only [↓Keeps.upd_iff, ↓outKeeps_mk]
    | (extract_lets +onlyGivenNames x; subst x) | dsimp only

theorem execKomirBreak_keeps {s₀ : State} {s : State} (hk : Keeps s₀ s) : OutKeeps s₀ (execKomirBreak s) := by
  unfold execKomirBreak
  repeat' first
    | (with_reducible first | assumption | apply endSession_keeps | apply setSvc_keeps) | intro _
    | (extract_lets +onlyGivenNames x; refine (fun (hx : Keeps s₀ x) => ?_) ?_; (clear_value x); rotate_left; subst x) | split | simp only [↓Keeps.upd_iff, ↓outKeeps_mk]
    | (extract_lets +onlyGivenNames x; subst x) | dsimp only

theorem execKomirIdleTimeout_keeps {s₀ : State} {s : State} (hk : Keeps s₀ s) : OutKeeps s₀ (execKomirIdleTimeout s) := by
  unfold execKomirIdleTimeout
  repeat' first
    | (with_reducible first | assumption | apply endSession_keeps | apply setClk_keeps) | split | simp only [↓outKeeps_mk] | dsimp only

theorem execKomirNonceExpiry_keeps {s₀ : State} {s : State} (hk : Keeps s₀ s) : OutKeeps s₀ (execKomirNonceExpiry s) := by
  unfold execKomirNonceExpiry
  repeat' first
    | (with_reducible first | assumption | apply setSvc_keeps | apply setClk_keeps) | intro _
    | (extract_lets +onlyGivenNames x; refine (fun (hx : Keeps s₀ x) => ?_) ?_; (clear_value x); rotate_left; subst x) | split | simp only [↓Keeps.upd_iff, ↓outKeeps_mk]
    | (extract_lets +onlyGivenNames x; subst x) | dsimp only

theorem execKomirSyntaxError_keeps {s₀ : State} {s : State} (hk : Keeps s₀ s) : OutKeeps s₀ (execKomirSyntaxError s) := by
  unfold execKomirSyntaxError
  repeat' first
    | (with_reducible first | assumption | apply komirLine_keeps | apply uartLine_keeps) | intro _ | simp only [↓outKeeps_mk] | dsimp only

/-! ### LogicOps -/

theorem instrRow_keeps {s₀ : State} (b : Nat) (k : OpKind) (clocks : Nat) (f : LCtx → Nat → LM → LM) (a : Nat) {s : State} (hk : Keeps s₀ s) : Keeps s₀ (instrRow b k clocks f a s) := by
  unfold instrRow
  repeat' first
    | (with_reducible first | assumption | apply setLogic_keeps) | intro _
    | (extract_lets +onlyGivenNames x; refine (fun (hx : Keeps s₀ x) => ?_) ?_; (clear_value x); rotate_left; subst x) | split | simp only [↓Keeps.upd_iff]
    | (extract_lets +onlyGivenNames x; subst x) | dsimp only

theorem execOpNop_keeps {s₀ : State} (bay : BitVec 6) {s : State} (hk : Keeps s₀ s) : OutKeeps s₀ (execOpNop bay s) := by
  unfold execOpNop
  repeat' first
    | (with_reducible first | assumption | apply instrRow_keeps) | simp only [↓outKeeps_mk]

theorem execOpLd_keeps {s₀ : State} (bay : BitVec 6) (a : BitVec 24) {s : State} (hk : Keeps s₀ s) : OutKeeps s₀ (execOpLd bay a s) := by
  unfold execOpLd
  repeat' first
    | (with_reducible first | assumption | apply instrRow_keeps) | simp only [↓outKeeps_mk]

theorem execOpLdn_keeps {s₀ : State} (bay : BitVec 6) (a : BitVec 24) {s : State} (hk : Keeps s₀ s) : OutKeeps s₀ (execOpLdn bay a s) := by
  unfold execOpLdn
  repeat' first
    | (with_reducible first | assumption | apply instrRow_keeps) | simp only [↓outKeeps_mk]

theorem execOpAnd_keeps {s₀ : State} (bay : BitVec 6) (a : BitVec 24) {s : State} (hk : Keeps s₀ s) : OutKeeps s₀ (execOpAnd bay a s) := by
  unfold execOpAnd
  repeat' first
    | (with_reducible first | assumption | apply instrRow_keeps) | simp only [↓outKeeps_mk]

theorem execOpAndn_keeps {s₀ : State} (bay : BitVec 6) (a : BitVec 24) {s : State} (hk : Keeps s₀ s) : OutKeeps s₀ (execOpAndn bay a s) := by
  unfold execOpAndn
  repeat' first
    | (with_reducible first | assumption | apply instrRow_keeps) | simp only [↓outKeeps_mk]

theorem execOpOr_keeps {s₀ : State} (bay : BitVec 6) (a : BitVec 24) {s : State} (hk : Keeps s₀ s) : OutKeeps s₀ (execOpOr bay a s) := by
  unfold execOpOr
  repeat' first
    | (with_reducible first | assumption | apply instrRow_keeps) | simp only [↓outKeeps_mk]

theorem execOpOrn_keeps {s₀ : State} (bay : BitVec 6) (a : BitVec 24) {s : State} (hk : Keeps s₀ s) : OutKeeps s₀ (execOpOrn bay a s) := by
  unfold execOpOrn
  repeat' first
    | (with_reducible first | assumption | apply instrRow_keeps) | simp only [↓outKeeps_mk]

theorem execOpXor_keeps {s₀ : State} (bay : BitVec 6) (a : BitVec 24) {s : State} (hk : Keeps s₀ s) : OutKeeps s₀ (execOpXor bay a s) := by
  unfold execOpXor
  repeat' first
    | (with_reducible first | assumption | apply instrRow_keeps) | simp only [↓outKeeps_mk]

theorem execOpNot_keeps {s₀ : State} (bay : BitVec 6) {s : State} (hk : Keeps s₀ s) : OutKeeps s₀ (execOpNot bay s) := by
  unfold execOpNot
  repeat' first
    | (with_reducible first | assumption | apply instrRow_keeps) | simp only [↓outKeeps_mk]

theorem execOpApush_keeps {s₀ : State} (bay : BitVec 6) {s : State} (hk : Keeps s₀ s) : OutKeeps s₀ (execOpApush bay s) := by
  unfold execOpApush
  repeat' first
    | (with_reducible first | assumption | apply instrRow_keeps) | simp only [↓outKeeps_mk]

theorem execOpOpush_keeps {s₀ : State} (bay : BitVec 6) {s : State} (hk : Keeps s₀ s) : OutKeeps s₀ (execOpOpush bay s) := by
  unfold execOpOpush
  repeat' first
    | (with_reducible first | assumption | apply instrRow_keeps) | simp only [↓outKeeps_mk]

theorem execOpPop_keeps {s₀ : State} (bay : BitVec 6) {s : State} (hk : Keeps s₀ s) : OutKeeps s₀ (execOpPop bay s) := by
  unfold execOpPop
  repeat' first
    | (with_reducible first | assumption | apply instrRow_keeps) | simp only [↓outKeeps_mk]

theorem execOpDup_keeps {s₀ : State} (bay : BitVec 6) {s : State} (hk : Keeps s₀ s) : OutKeeps s₀ (execOpDup bay s) := by
  unfold execOpDup
  repeat' first
    | (with_reducible first | assumption | apply instrRow_keeps) | simp only [↓outKeeps_mk]

theorem execOpRds_keeps {s₀ : State} (bay : BitVec 6) {s : State} (hk : Keeps s₀ s) : OutKeeps s₀ (execOpRds bay s) := by
  unfold execOpRds
  repeat' first
    | (with_reducible first | assumption | apply instrRow_keeps) | simp only [↓outKeeps_mk]

theorem execOpDrop_keeps {s₀ : State} (bay : BitVec 6) {s : State} (hk : Keeps s₀ s) : OutKeeps s₀ (execOpDrop bay s) := by
  unfold execOpDrop
  repeat' first
    | (with_reducible first | assumption | apply instrRow_keeps) | simp only [↓outKeeps_mk]

theorem execOpSt_keeps {s₀ : State} (bay : BitVec 6) (a : BitVec 24) {s : State} (hk : Keeps s₀ s) : OutKeeps s₀ (execOpSt bay a s) := by
  unfold execOpSt
  repeat' first
    | (with_reducible first | assumption | apply instrRow_keeps) | simp only [↓outKeeps_mk]

theorem execOpStn_keeps {s₀ : State} (bay : BitVec 6) (a : BitVec 24) {s : State} (hk : Keeps s₀ s) : OutKeeps s₀ (execOpStn bay a s) := by
  unfold execOpStn
  repeat' first
    | (with_reducible first | assumption | apply instrRow_keeps) | simp only [↓outKeeps_mk]

theorem execOpSet_keeps {s₀ : State} (bay : BitVec 6) (a : BitVec 24) {s : State} (hk : Keeps s₀ s) : OutKeeps s₀ (execOpSet bay a s) := by
  unfold execOpSet
  repeat' first
    | (with_reducible first | assumption | apply instrRow_keeps) | simp only [↓outKeeps_mk]

theorem execOpRst_keeps {s₀ : State} (bay : BitVec 6) (a : BitVec 24) {s : State} (hk : Keeps s₀ s) : OutKeeps s₀ (execOpRst bay a s) := by
  unfold execOpRst
  repeat' first
    | (with_reducible first | assumption | apply instrRow_keeps) | simp only [↓outKeeps_mk]

theorem execOpRise_keeps {s₀ : State} (bay : BitVec 6) (a : BitVec 24) {s : State} (hk : Keeps s₀ s) : OutKeeps s₀ (execOpRise bay a s) := by
  unfold execOpRise
  repeat' first
    | (with_reducible first | assumption | apply instrRow_keeps) | simp only [↓outKeeps_mk]

theorem execOpFall_keeps {s₀ : State} (bay : BitVec 6) (a : BitVec 24) {s : State} (hk : Keeps s₀ s) : OutKeeps s₀ (execOpFall bay a s) := by
  unfold execOpFall
  repeat' first
    | (with_reducible first | assumption | apply instrRow_keeps) | simp only [↓outKeeps_mk]

theorem execOpTon_keeps {s₀ : State} (bay : BitVec 6) (a : BitVec 24) {s : State} (hk : Keeps s₀ s) : OutKeeps s₀ (execOpTon bay a s) := by
  unfold execOpTon
  repeat' first
    | (with_reducible first | assumption | apply instrRow_keeps) | simp only [↓outKeeps_mk]

theorem execOpTof_keeps {s₀ : State} (bay : BitVec 6) (a : BitVec 24) {s : State} (hk : Keeps s₀ s) : OutKeeps s₀ (execOpTof bay a s) := by
  unfold execOpTof
  repeat' first
    | (with_reducible first | assumption | apply instrRow_keeps) | simp only [↓outKeeps_mk]

theorem execOpTp_keeps {s₀ : State} (bay : BitVec 6) (a : BitVec 24) {s : State} (hk : Keeps s₀ s) : OutKeeps s₀ (execOpTp bay a s) := by
  unfold execOpTp
  repeat' first
    | (with_reducible first | assumption | apply instrRow_keeps) | simp only [↓outKeeps_mk]

theorem execOpTrst_keeps {s₀ : State} (bay : BitVec 6) (a : BitVec 24) {s : State} (hk : Keeps s₀ s) : OutKeeps s₀ (execOpTrst bay a s) := by
  unfold execOpTrst
  repeat' first
    | (with_reducible first | assumption | apply instrRow_keeps) | simp only [↓outKeeps_mk]

theorem execOpCtu_keeps {s₀ : State} (bay : BitVec 6) (a : BitVec 24) {s : State} (hk : Keeps s₀ s) : OutKeeps s₀ (execOpCtu bay a s) := by
  unfold execOpCtu
  repeat' first
    | (with_reducible first | assumption | apply instrRow_keeps) | simp only [↓outKeeps_mk]

theorem execOpCtd_keeps {s₀ : State} (bay : BitVec 6) (a : BitVec 24) {s : State} (hk : Keeps s₀ s) : OutKeeps s₀ (execOpCtd bay a s) := by
  unfold execOpCtd
  repeat' first
    | (with_reducible first | assumption | apply instrRow_keeps) | simp only [↓outKeeps_mk]

theorem execOpCrst_keeps {s₀ : State} (bay : BitVec 6) (a : BitVec 24) {s : State} (hk : Keeps s₀ s) : OutKeeps s₀ (execOpCrst bay a s) := by
  unfold execOpCrst
  repeat' first
    | (with_reducible first | assumption | apply instrRow_keeps) | simp only [↓outKeeps_mk]

theorem execOpCld_keeps {s₀ : State} (bay : BitVec 6) (a : BitVec 24) {s : State} (hk : Keeps s₀ s) : OutKeeps s₀ (execOpCld bay a s) := by
  unfold execOpCld
  repeat' first
    | (with_reducible first | assumption | apply instrRow_keeps) | simp only [↓outKeeps_mk]

theorem execOpCge_keeps {s₀ : State} (bay : BitVec 6) (a : BitVec 24) {s : State} (hk : Keeps s₀ s) : OutKeeps s₀ (execOpCge bay a s) := by
  unfold execOpCge
  repeat' first
    | (with_reducible first | assumption | apply instrRow_keeps) | simp only [↓outKeeps_mk]

theorem execOpJmpc_keeps {s₀ : State} (bay : BitVec 6) (a : BitVec 24) {s : State} (hk : Keeps s₀ s) : OutKeeps s₀ (execOpJmpc bay a s) := by
  unfold execOpJmpc
  repeat' first
    | (with_reducible first | assumption | apply instrRow_keeps) | simp only [↓outKeeps_mk]

theorem execOpJmpnc_keeps {s₀ : State} (bay : BitVec 6) (a : BitVec 24) {s : State} (hk : Keeps s₀ s) : OutKeeps s₀ (execOpJmpnc bay a s) := by
  unfold execOpJmpnc
  repeat' first
    | (with_reducible first | assumption | apply instrRow_keeps) | simp only [↓outKeeps_mk]

theorem execOpJmp_keeps {s₀ : State} (bay : BitVec 6) (a : BitVec 24) {s : State} (hk : Keeps s₀ s) : OutKeeps s₀ (execOpJmp bay a s) := by
  unfold execOpJmp
  repeat' first
    | (with_reducible first | assumption | apply instrRow_keeps) | simp only [↓outKeeps_mk]

theorem execOpEnd_keeps {s₀ : State} (bay : BitVec 6) {s : State} (hk : Keeps s₀ s) : OutKeeps s₀ (execOpEnd bay s) := by
  unfold execOpEnd
  repeat' first
    | (with_reducible first | assumption | apply instrRow_keeps) | simp only [↓outKeeps_mk]

/-! ### Boundary -/

theorem countUnit_keeps {s₀ : State} (m : MsIn) {s : State} (u : Nat) (hk : Keeps s₀ s) : Keeps s₀ (countUnit m s u) := by
  unfold countUnit
  repeat' first
    | (with_reducible first | assumption | apply foldl_keeps | apply setSvc_keeps | apply setSlice_keeps) | intro _
    | (extract_lets +onlyGivenNames x; refine (fun (hx : Keeps s₀ x) => ?_) ?_; (clear_value x); rotate_left; subst x) | split | simp only [↓Keeps.upd_iff]
    | (extract_lets +onlyGivenNames x; subst x) | dsimp only

theorem countUnits_keeps {s₀ : State} (m : MsIn) (ms : Nat) {s : State} (hk : Keeps s₀ s) : Keeps s₀ (countUnits m ms s) := by
  unfold countUnits
  repeat' first
    | (with_reducible first | assumption | apply foldl_keeps | apply countUnit_keeps | apply setSvc_keeps) | intro _
    | (extract_lets +onlyGivenNames x; refine (fun (hx : Keeps s₀ x) => ?_) ?_; (clear_value x); rotate_left; subst x) | split | simp only [↓Keeps.upd_iff]
    | (extract_lets +onlyGivenNames x; subst x) | dsimp only

theorem laneStepAll_keeps {s₀ : State} (m : MsIn) (len : Nat) {s : State} (hk : Keeps s₀ s) : Keeps s₀ (laneStepAll m len s) := by
  unfold laneStepAll
  repeat' first
    | (with_reducible first | assumption | apply setProt_keeps | apply setFilt_keeps) | intro _
    | (extract_lets +onlyGivenNames x; refine (fun (hx : Keeps s₀ x) => ?_) ?_; (clear_value x); rotate_left; subst x) | simp only [↓Keeps.upd_iff]
    | (extract_lets +onlyGivenNames x; subst x) | dsimp only

theorem ringSnap_keeps {s₀ : State} {s : State} (hk : Keeps s₀ s) : Keeps s₀ (ringSnap s) := by
  unfold ringSnap
  repeat' first
    | (with_reducible first | assumption | apply setProt_keeps) | intro _
    | (extract_lets +onlyGivenNames x; refine (fun (hx : Keeps s₀ x) => ?_) ?_; (clear_value x); rotate_left; subst x) | simp only [↓Keeps.upd_iff]
    | (extract_lets +onlyGivenNames x; subst x) | dsimp only

theorem acquire_keeps {s₀ : State} (m : MsIn) (msTai : Nat) (len : Nat) {s : State} (hk : Keeps s₀ s) : Keeps s₀ (acquire m msTai len s) := by
  unfold acquire
  repeat' first
    | (with_reducible first | assumption | apply settlePass_keeps | apply countUnits_keeps | apply laneStepAll_keeps | apply svBoundary_keeps)

theorem gridEnd_keeps {s₀ : State} (held : Nat → Bool) {s : State} (hk : Keeps s₀ s) : Keeps s₀ (gridEnd held s) := by
  unfold gridEnd
  repeat' first
    | (with_reducible first | assumption | apply startNominal_keeps | apply chooseRef_keeps | apply flushTime_keeps | apply setGrid_keeps | apply updateF_keeps) | intro _
    | (extract_lets +onlyGivenNames x; refine (fun (hx : Keeps s₀ x) => ?_) ?_; (clear_value x); rotate_left; subst x) | split | (extract_lets +onlyGivenNames x; subst x)
    | dsimp only

theorem gridOpen_keeps {s₀ : State} {s : State} (hk : Keeps s₀ s) : Keeps s₀ (gridOpen s) := by
  unfold gridOpen
  repeat' first
    | (with_reducible first | assumption | apply driveCwSync_keeps | apply openMilestone_keeps | apply fixedF_keeps | apply setProt_keeps) | intro _
    | (extract_lets +onlyGivenNames x; refine (fun (hx : Keeps s₀ x) => ?_) ?_; (clear_value x); rotate_left; subst x) | simp only [↓Keeps.upd_iff]
    | (extract_lets +onlyGivenNames x; subst x) | dsimp only

theorem actDone_keeps {s₀ : State} (a : PendAct) {s : State} (hk : Keeps s₀ s) : Keeps s₀ (actDone a s) := by
  unfold actDone
  repeat' first
    | (with_reducible first | assumption | apply finishAct_keeps)

theorem runSwitch_keeps {s₀ : State} (a : PendAct) (b : Nat) {s : State} (hk : Keeps s₀ s) : Keeps s₀ (runSwitch a b s) := by
  unfold runSwitch
  repeat' first
    | (with_reducible first | assumption | apply finishAct_keeps | apply bumpClass_keeps | apply applyLogicSwitch_keeps | apply applyLogicSwitch_keeps_fst)
    | refine FstKeeps.of_eq (by assumption) ?_ | (extract_lets +onlyGivenNames x; refine (fun (hx : Keeps s₀ x) => ?_) ?_; (clear_value x); rotate_left; subst x) | split
    | simp only [↓Keeps.upd_iff, ↓fstKeeps_mk] | (extract_lets +onlyGivenNames x; subst x) | dsimp only

theorem runAct_keeps {s₀ : State} {s : State} (a : PendAct) (hk : Keeps s₀ s) : Keeps s₀ (runAct s a) := by
  unfold runAct
  repeat' first
    | (with_reducible first | assumption | apply foldl_keeps | apply runSwitch_keeps | apply applyLogicRestart_keeps | apply applyLogicRestart_keeps_fst | apply finishAct_keeps | apply applyLogicForce_keeps | apply applyLogicForce_keeps_fst | apply applyLogicUnforce_keeps | apply applyLogicUnforce_keeps_fst | apply applyForce_keeps | apply applyForce_keeps_fst | apply applyTimeStep_keeps | apply applyTimeStep_keeps_snd | apply actDone_keeps | apply recordStep_keeps | apply svShift_keeps | apply applyGroup_keeps | apply setMode_keeps | apply applyGridCfg_keeps | apply applyGridSlew_keeps | apply syncReset_keeps | apply applyGridStep_keeps | apply applyTimeSource_keeps | apply applyAuxSeq_keeps | apply applyFiltStop_keeps | apply startChain_keeps | apply applyPortSet_keeps | apply applySvPub_keeps | apply applyGoosePub_keeps | apply applyBayReset_keeps | apply applyArm_keeps | apply applyDisarm_keeps | apply applyWmk_keeps | apply setSvc_keeps)
    | intro _ | refine FstKeeps.of_eq (by assumption) ?_ | refine SndKeeps.of_eq (by assumption) ?_
    | (extract_lets +onlyGivenNames x; refine (fun (hx : Keeps s₀ x) => ?_) ?_; (clear_value x); rotate_left; subst x) | split
    | simp only [↓Keeps.upd_iff, ↓fstKeeps_mk, ↓sndKeeps_mk] | (extract_lets +onlyGivenNames x; subst x) | dsimp only

theorem runActs_keeps {s₀ : State} (place : Nat) (l : List PendAct) {s : State} (hk : Keeps s₀ s) : Keeps s₀ (runActs place l s) := by
  unfold runActs
  repeat' first
    | (with_reducible first | assumption | apply foldl_keeps | apply runAct_keeps) | intro _ | dsimp only

theorem runAllActs_keeps {s₀ : State} (l : List PendAct) {s : State} (hk : Keeps s₀ s) : Keeps s₀ (runAllActs l s) := by
  unfold runAllActs
  repeat' first
    | (with_reducible first | assumption | apply foldl_keeps | apply runActs_keeps | apply applyStaged_keeps | apply groupRequest_keeps | apply setTime_keeps) | intro _
    | (extract_lets +onlyGivenNames x; refine (fun (hx : Keeps s₀ x) => ?_) ?_; (clear_value x); rotate_left; subst x) | simp only [↓Keeps.upd_iff]
    | (extract_lets +onlyGivenNames x; subst x) | dsimp only

theorem leaveBoot_keeps {s₀ : State} {s : State} (hk : Keeps s₀ s) : Keeps s₀ (leaveBoot s) := by
  unfold leaveBoot
  repeat' first
    | (with_reducible first | assumption | apply foldl_keeps | apply beginStep_keeps | apply changeMode_keeps | apply setMode_keeps | apply pinsLow_keeps) | intro _
    | (extract_lets +onlyGivenNames x; refine (fun (hx : Keeps s₀ x) => ?_) ?_; (clear_value x); rotate_left; subst x) | split | simp only [↓Keeps.upd_iff]
    | (extract_lets +onlyGivenNames x; subst x) | dsimp only

theorem warmBoundary_keeps {s₀ : State} {s : State} (hk : Keeps s₀ s) : Keeps s₀ (warmBoundary s) := by
  unfold warmBoundary
  repeat' first
    | (with_reducible first | assumption | apply beginWarm_keeps) | (extract_lets +onlyGivenNames x; refine (fun (hx : Keeps s₀ x) => ?_) ?_; (clear_value x); rotate_left; subst x)
    | split | simp only [↓Keeps.upd_iff] | (extract_lets +onlyGivenNames x; subst x) | dsimp only

theorem endMilestone_keeps {s₀ : State} (m : MsIn) {s : State} (hk : Keeps s₀ s) : FstKeeps s₀ (endMilestone m s) := by
  unfold endMilestone
  extract_lets s1
  have h1 : Keeps s₀ s1 := setProt_keeps _ hk
  split
  rename_i t p fl e
  have h2 : Keeps s₀ t := FstKeeps.of_eq e (releaseCycle_keeps h1)
  exact FstKeeps.intro (dropLoops_keeps (wmkRefresh_keeps _ (tracePoints_keeps (recordEndMs_keeps _ _ _ h2))))

theorem endMilestone_keeps_fst {s₀ : State} (m : MsIn) {s : State} (hk : Keeps s₀ s) : Keeps s₀ (endMilestone m s).1 := endMilestone_keeps _ hk

theorem openMs_keeps {s₀ : State} (m : MsIn) (p : TkoPass) {s : State} (hk : Keeps s₀ s) : Keeps s₀ (openMs m p s) := by
  unfold openMs
  repeat' first
    | (with_reducible first | assumption | apply foldl_keeps | apply drivePulses_keeps | apply openNext_keeps | apply gridEnd_keeps | apply acquire_keeps | apply setGrid_keeps | apply stepNow_keeps | apply runAllActs_keeps | apply gridOpen_keeps | apply runActs_keeps | apply leaveFull_keeps | apply autoRecords_keeps | apply setClk_keeps | apply testBoundary_keeps | apply calBoundary_keeps | apply leaveBoot_keeps | apply restoreLoads_keeps | apply modeBoundary_keeps)
    | intro _ | (extract_lets +onlyGivenNames x; refine (fun (hx : Keeps s₀ x) => ?_) ?_; (clear_value x); rotate_left; subst x) | split | simp only [↓Keeps.upd_iff]
    | (extract_lets +onlyGivenNames x; subst x) | dsimp only

theorem startMs_keeps {s₀ : State} (m : MsIn) {s : State} (hk : Keeps s₀ s) : Keeps s₀ (startMs m s) := by
  unfold startMs
  extract_lets x s1 s2 s3
  have h1 : Keeps s₀ s1 := flushSlots_keeps _ (Keeps.upd_iff.mpr hk)
  have h2 : Keeps s₀ s2 := carryCkpts_keeps (ringSnap_keeps (goSnapshot_keeps (biSnapshot_keeps (notePins_keeps (tcsAll_keeps h1)))))
  have h3 : Keeps s₀ s3 := noteCycle_keeps (Keeps.ite (protectionCycle_keeps h2) h2)
  exact warmBoundary_keeps (settle_keeps (sweepFaults_keeps h3))

theorem boundary_keeps {s₀ : State} (m : MsIn) {s : State} (hk : Keeps s₀ s) : Keeps s₀ (boundary m s) := by
  unfold boundary
  extract_lets s1
  have h1 : Keeps s₀ s1 := sweepLate_keeps (setClk_keeps _ hk)
  split
  rename_i t p e
  have h2 : Keeps s₀ t := FstKeeps.of_eq e (endMilestone_keeps m h1)
  split
  · exact resetDevice_keeps _ (openNext_keeps h2)
  · exact startMs_keeps m (openMs_keeps _ _ h2)

theorem execMilestoneBoundary_keeps {s₀ : State} (m : MsIn) {s : State} (hk : Keeps s₀ s) : OutKeeps s₀ (execMilestoneBoundary m s) := by
  unfold execMilestoneBoundary
  repeat' first
    | (with_reducible first | assumption | apply boundary_keeps) | split | simp only [↓outKeeps_mk] | dsimp only

theorem execBootComplete_keeps {s₀ : State} {s : State} (hk : Keeps s₀ s) : OutKeeps s₀ (execBootComplete s) := by
  unfold execBootComplete
  repeat' first
    | (with_reducible first | assumption | apply bootSteps_keeps | apply boundary_keeps | apply setMode_keeps) | intro _
    | (extract_lets +onlyGivenNames x; refine (fun (hx : Keeps s₀ x) => ?_) ?_; (clear_value x); rotate_left; subst x) | split | simp only [↓Keeps.upd_iff, ↓outKeeps_mk]
    | (extract_lets +onlyGivenNames x; subst x) | dsimp only

theorem execWarmRestart_keeps {s₀ : State} {s : State} (hk : Keeps s₀ s) : OutKeeps s₀ (execWarmRestart s) := by
  unfold execWarmRestart
  repeat' first
    | (with_reducible first | assumption | apply boundary_keeps) | split | simp only [↓outKeeps_mk] | dsimp only

theorem execColdRestart_keeps {s₀ : State} (r : BootReport) {s : State} (hk : Keeps s₀ s) : OutKeeps s₀ (execColdRestart r s) := by
  unfold execColdRestart
  repeat' first
    | (with_reducible first | assumption | apply bootSteps_keeps | apply boundary_keeps) | split | simp only [↓outKeeps_mk] | dsimp only

/-! ### Sources -/

theorem plausEvent_keeps {s₀ : State} (unit : Nat) {s : State} (hk : Keeps s₀ s) : Keeps s₀ (plausEvent unit s) := by
  unfold plausEvent
  repeat' first
    | (with_reducible first | assumption | apply foldl_keeps | apply chkRow_keeps) | intro _ | dsimp only

theorem calEvent_keeps {s₀ : State} (unit : Nat) {s : State} (hk : Keeps s₀ s) : Keeps s₀ (calEvent unit s) := by
  unfold calEvent
  repeat' first
    | (with_reducible first | assumption | apply settle_keeps | apply calFailure_keeps)
    | (extract_lets +onlyGivenNames x; refine (fun (hx : Keeps s₀ x) => ?_) ?_; (clear_value x); rotate_left; subst x) | split | simp only [↓Keeps.upd_iff]
    | (extract_lets +onlyGivenNames x; subst x) | dsimp only

theorem sourceEvent_keeps {s₀ : State} (id : Nat) (inst : Nat) {s : State} (hk : Keeps s₀ s) : Keeps s₀ (sourceEvent id inst s) := by
  unfold sourceEvent
  repeat' first
    | (with_reducible first | assumption | apply lockstepMismatch_keeps | apply eccUncorrectable_keeps | apply logicAbort_keeps | apply selftestMismatch_keeps | apply eccCorrected_keeps | apply linkRetry_keeps | apply calEvent_keeps | apply urgentOverrun_keeps | apply settle_keeps | apply svLossEvent_keeps | apply setSv_keeps | apply portError_keeps | apply setNetPort_keeps | apply expireGoose_keeps | apply plausEvent_keeps | apply logicOverrun_keeps | apply mismatchEpisode_keeps | apply handover_keeps | apply countEvent_keeps | apply dropRows_keeps | apply watchdogExpiry_keeps | apply lockstepRestart_keeps | apply clockJudged_keeps)
    | intro _ | (extract_lets +onlyGivenNames x; refine (fun (hx : Keeps s₀ x) => ?_) ?_; (clear_value x); rotate_left; subst x) | split | simp only [↓Keeps.upd_iff]
    | (extract_lets +onlyGivenNames x; subst x) | dsimp only

theorem execLastingFaultDeclared_keeps {s₀ : State} (id : BitVec 5) (inst : BitVec 16) {s : State} (hk : Keeps s₀ s) : OutKeeps s₀ (execLastingFaultDeclared id inst s) := by
  unfold execLastingFaultDeclared
  repeat' first
    | (with_reducible first | assumption | apply sourceEvent_keeps) | simp only [↓outKeeps_mk]

end Sys2Proof.Machine.Laws
end

