-- ==== Sys2Proof/Laws/State.lean ====
section
/-! SUPPORT. The fields of the state after each of its plain updates. -/

namespace Sys2Proof.Machine.Laws
open Sys2Proof.Machine

section
variable (f : AcqSt → AcqSt) (s : State)
@[simp] theorem setAcq_variant : (setAcq f s).variant = s.variant := rfl
@[simp] theorem setAcq_pending : (setAcq f s).pending = s.pending := rfl
@[simp] theorem setAcq_clk : (setAcq f s).clk = s.clk := rfl
@[simp] theorem setAcq_host : (setAcq f s).host = s.host := rfl
@[simp] theorem setAcq_mem : (setAcq f s).mem = s.mem := rfl
@[simp] theorem setAcq_acts : (setAcq f s).acts = s.acts := rfl
@[simp] theorem setAcq_mode : (setAcq f s).mode = s.mode := rfl
@[simp] theorem setAcq_pwr : (setAcq f s).pwr = s.pwr := rfl
@[simp] theorem setAcq_acq : (setAcq f s).acq = f s.acq := rfl
@[simp] theorem setAcq_aux : (setAcq f s).aux = s.aux := rfl
@[simp] theorem setAcq_filt : (setAcq f s).filt = s.filt := rfl
@[simp] theorem setAcq_prot : (setAcq f s).prot = s.prot := rfl
@[simp] theorem setAcq_rec_ : (setAcq f s).rec_ = s.rec_ := rfl
@[simp] theorem setAcq_loops : (setAcq f s).loops = s.loops := rfl
@[simp] theorem setAcq_dma : (setAcq f s).dma = s.dma := rfl
@[simp] theorem setAcq_svc : (setAcq f s).svc = s.svc := rfl
@[simp] theorem setAcq_trip : (setAcq f s).trip = s.trip := rfl
@[simp] theorem setAcq_tbl : (setAcq f s).tbl = s.tbl := rfl
@[simp] theorem setAcq_grid : (setAcq f s).grid = s.grid := rfl
@[simp] theorem setAcq_time : (setAcq f s).time = s.time := rfl
@[simp] theorem setAcq_net : (setAcq f s).net = s.net := rfl
@[simp] theorem setAcq_log : (setAcq f s).log = s.log := rfl
@[simp] theorem setAcq_supv : (setAcq f s).supv = s.supv := rfl
@[simp] theorem setAcq_sec : (setAcq f s).sec = s.sec := rfl
@[simp] theorem setAcq_out : (setAcq f s).out = s.out := rfl
end

section
variable (f : AuxSt → AuxSt) (s : State)
@[simp] theorem setAux_variant : (setAux f s).variant = s.variant := rfl
@[simp] theorem setAux_pending : (setAux f s).pending = s.pending := rfl
@[simp] theorem setAux_clk : (setAux f s).clk = s.clk := rfl
@[simp] theorem setAux_host : (setAux f s).host = s.host := rfl
@[simp] theorem setAux_mem : (setAux f s).mem = s.mem := rfl
@[simp] theorem setAux_acts : (setAux f s).acts = s.acts := rfl
@[simp] theorem setAux_mode : (setAux f s).mode = s.mode := rfl
@[simp] theorem setAux_pwr : (setAux f s).pwr = s.pwr := rfl
@[simp] theorem setAux_acq : (setAux f s).acq = s.acq := rfl
@[simp] theorem setAux_aux : (setAux f s).aux = f s.aux := rfl
@[simp] theorem setAux_filt : (setAux f s).filt = s.filt := rfl
@[simp] theorem setAux_prot : (setAux f s).prot = s.prot := rfl
@[simp] theorem setAux_rec_ : (setAux f s).rec_ = s.rec_ := rfl
@[simp] theorem setAux_loops : (setAux f s).loops = s.loops := rfl
@[simp] theorem setAux_dma : (setAux f s).dma = s.dma := rfl
@[simp] theorem setAux_svc : (setAux f s).svc = s.svc := rfl
@[simp] theorem setAux_trip : (setAux f s).trip = s.trip := rfl
@[simp] theorem setAux_tbl : (setAux f s).tbl = s.tbl := rfl
@[simp] theorem setAux_grid : (setAux f s).grid = s.grid := rfl
@[simp] theorem setAux_time : (setAux f s).time = s.time := rfl
@[simp] theorem setAux_net : (setAux f s).net = s.net := rfl
@[simp] theorem setAux_log : (setAux f s).log = s.log := rfl
@[simp] theorem setAux_supv : (setAux f s).supv = s.supv := rfl
@[simp] theorem setAux_sec : (setAux f s).sec = s.sec := rfl
@[simp] theorem setAux_out : (setAux f s).out = s.out := rfl
end

section
variable (f : FiltSt → FiltSt) (s : State)
@[simp] theorem setFilt_variant : (setFilt f s).variant = s.variant := rfl
@[simp] theorem setFilt_pending : (setFilt f s).pending = s.pending := rfl
@[simp] theorem setFilt_clk : (setFilt f s).clk = s.clk := rfl
@[simp] theorem setFilt_host : (setFilt f s).host = s.host := rfl
@[simp] theorem setFilt_mem : (setFilt f s).mem = s.mem := rfl
@[simp] theorem setFilt_acts : (setFilt f s).acts = s.acts := rfl
@[simp] theorem setFilt_mode : (setFilt f s).mode = s.mode := rfl
@[simp] theorem setFilt_pwr : (setFilt f s).pwr = s.pwr := rfl
@[simp] theorem setFilt_acq : (setFilt f s).acq = s.acq := rfl
@[simp] theorem setFilt_aux : (setFilt f s).aux = s.aux := rfl
@[simp] theorem setFilt_filt : (setFilt f s).filt = f s.filt := rfl
@[simp] theorem setFilt_prot : (setFilt f s).prot = s.prot := rfl
@[simp] theorem setFilt_rec_ : (setFilt f s).rec_ = s.rec_ := rfl
@[simp] theorem setFilt_loops : (setFilt f s).loops = s.loops := rfl
@[simp] theorem setFilt_dma : (setFilt f s).dma = s.dma := rfl
@[simp] theorem setFilt_svc : (setFilt f s).svc = s.svc := rfl
@[simp] theorem setFilt_trip : (setFilt f s).trip = s.trip := rfl
@[simp] theorem setFilt_tbl : (setFilt f s).tbl = s.tbl := rfl
@[simp] theorem setFilt_grid : (setFilt f s).grid = s.grid := rfl
@[simp] theorem setFilt_time : (setFilt f s).time = s.time := rfl
@[simp] theorem setFilt_net : (setFilt f s).net = s.net := rfl
@[simp] theorem setFilt_log : (setFilt f s).log = s.log := rfl
@[simp] theorem setFilt_supv : (setFilt f s).supv = s.supv := rfl
@[simp] theorem setFilt_sec : (setFilt f s).sec = s.sec := rfl
@[simp] theorem setFilt_out : (setFilt f s).out = s.out := rfl
end

section
variable (f : DmaSt → DmaSt) (s : State)
@[simp] theorem setDma_variant : (setDma f s).variant = s.variant := rfl
@[simp] theorem setDma_pending : (setDma f s).pending = s.pending := rfl
@[simp] theorem setDma_clk : (setDma f s).clk = s.clk := rfl
@[simp] theorem setDma_host : (setDma f s).host = s.host := rfl
@[simp] theorem setDma_mem : (setDma f s).mem = s.mem := rfl
@[simp] theorem setDma_acts : (setDma f s).acts = s.acts := rfl
@[simp] theorem setDma_mode : (setDma f s).mode = s.mode := rfl
@[simp] theorem setDma_pwr : (setDma f s).pwr = s.pwr := rfl
@[simp] theorem setDma_acq : (setDma f s).acq = s.acq := rfl
@[simp] theorem setDma_aux : (setDma f s).aux = s.aux := rfl
@[simp] theorem setDma_filt : (setDma f s).filt = s.filt := rfl
@[simp] theorem setDma_prot : (setDma f s).prot = s.prot := rfl
@[simp] theorem setDma_rec_ : (setDma f s).rec_ = s.rec_ := rfl
@[simp] theorem setDma_loops : (setDma f s).loops = s.loops := rfl
@[simp] theorem setDma_dma : (setDma f s).dma = f s.dma := rfl
@[simp] theorem setDma_svc : (setDma f s).svc = s.svc := rfl
@[simp] theorem setDma_trip : (setDma f s).trip = s.trip := rfl
@[simp] theorem setDma_tbl : (setDma f s).tbl = s.tbl := rfl
@[simp] theorem setDma_grid : (setDma f s).grid = s.grid := rfl
@[simp] theorem setDma_time : (setDma f s).time = s.time := rfl
@[simp] theorem setDma_net : (setDma f s).net = s.net := rfl
@[simp] theorem setDma_log : (setDma f s).log = s.log := rfl
@[simp] theorem setDma_supv : (setDma f s).supv = s.supv := rfl
@[simp] theorem setDma_sec : (setDma f s).sec = s.sec := rfl
@[simp] theorem setDma_out : (setDma f s).out = s.out := rfl
end

section
variable (f : GridSt → GridSt) (s : State)
@[simp] theorem setGrid_variant : (setGrid f s).variant = s.variant := rfl
@[simp] theorem setGrid_pending : (setGrid f s).pending = s.pending := rfl
@[simp] theorem setGrid_clk : (setGrid f s).clk = s.clk := rfl
@[simp] theorem setGrid_host : (setGrid f s).host = s.host := rfl
@[simp] theorem setGrid_mem : (setGrid f s).mem = s.mem := rfl
@[simp] theorem setGrid_acts : (setGrid f s).acts = s.acts := rfl
@[simp] theorem setGrid_mode : (setGrid f s).mode = s.mode := rfl
@[simp] theorem setGrid_pwr : (setGrid f s).pwr = s.pwr := rfl
@[simp] theorem setGrid_acq : (setGrid f s).acq = s.acq := rfl
@[simp] theorem setGrid_aux : (setGrid f s).aux = s.aux := rfl
@[simp] theorem setGrid_filt : (setGrid f s).filt = s.filt := rfl
@[simp] theorem setGrid_prot : (setGrid f s).prot = s.prot := rfl
@[simp] theorem setGrid_rec_ : (setGrid f s).rec_ = s.rec_ := rfl
@[simp] theorem setGrid_loops : (setGrid f s).loops = s.loops := rfl
@[simp] theorem setGrid_dma : (setGrid f s).dma = s.dma := rfl
@[simp] theorem setGrid_svc : (setGrid f s).svc = s.svc := rfl
@[simp] theorem setGrid_trip : (setGrid f s).trip = s.trip := rfl
@[simp] theorem setGrid_tbl : (setGrid f s).tbl = s.tbl := rfl
@[simp] theorem setGrid_grid : (setGrid f s).grid = f s.grid := rfl
@[simp] theorem setGrid_time : (setGrid f s).time = s.time := rfl
@[simp] theorem setGrid_net : (setGrid f s).net = s.net := rfl
@[simp] theorem setGrid_log : (setGrid f s).log = s.log := rfl
@[simp] theorem setGrid_supv : (setGrid f s).supv = s.supv := rfl
@[simp] theorem setGrid_sec : (setGrid f s).sec = s.sec := rfl
@[simp] theorem setGrid_out : (setGrid f s).out = s.out := rfl
end

section
variable (f : Clock → Clock) (s : State)
@[simp] theorem setClk_variant : (setClk f s).variant = s.variant := rfl
@[simp] theorem setClk_pending : (setClk f s).pending = s.pending := rfl
@[simp] theorem setClk_clk : (setClk f s).clk = f s.clk := rfl
@[simp] theorem setClk_host : (setClk f s).host = s.host := rfl
@[simp] theorem setClk_mem : (setClk f s).mem = s.mem := rfl
@[simp] theorem setClk_acts : (setClk f s).acts = s.acts := rfl
@[simp] theorem setClk_mode : (setClk f s).mode = s.mode := rfl
@[simp] theorem setClk_pwr : (setClk f s).pwr = s.pwr := rfl
@[simp] theorem setClk_acq : (setClk f s).acq = s.acq := rfl
@[simp] theorem setClk_aux : (setClk f s).aux = s.aux := rfl
@[simp] theorem setClk_filt : (setClk f s).filt = s.filt := rfl
@[simp] theorem setClk_prot : (setClk f s).prot = s.prot := rfl
@[simp] theorem setClk_rec_ : (setClk f s).rec_ = s.rec_ := rfl
@[simp] theorem setClk_loops : (setClk f s).loops = s.loops := rfl
@[simp] theorem setClk_dma : (setClk f s).dma = s.dma := rfl
@[simp] theorem setClk_svc : (setClk f s).svc = s.svc := rfl
@[simp] theorem setClk_trip : (setClk f s).trip = s.trip := rfl
@[simp] theorem setClk_tbl : (setClk f s).tbl = s.tbl := rfl
@[simp] theorem setClk_grid : (setClk f s).grid = s.grid := rfl
@[simp] theorem setClk_time : (setClk f s).time = s.time := rfl
@[simp] theorem setClk_net : (setClk f s).net = s.net := rfl
@[simp] theorem setClk_log : (setClk f s).log = s.log := rfl
@[simp] theorem setClk_supv : (setClk f s).supv = s.supv := rfl
@[simp] theorem setClk_sec : (setClk f s).sec = s.sec := rfl
@[simp] theorem setClk_out : (setClk f s).out = s.out := rfl
end

section
variable (f : LogSt → LogSt) (s : State)
@[simp] theorem setLog_variant : (setLog f s).variant = s.variant := rfl
@[simp] theorem setLog_pending : (setLog f s).pending = s.pending := rfl
@[simp] theorem setLog_clk : (setLog f s).clk = s.clk := rfl
@[simp] theorem setLog_host : (setLog f s).host = s.host := rfl
@[simp] theorem setLog_mem : (setLog f s).mem = s.mem := rfl
@[simp] theorem setLog_acts : (setLog f s).acts = s.acts := rfl
@[simp] theorem setLog_mode : (setLog f s).mode = s.mode := rfl
@[simp] theorem setLog_pwr : (setLog f s).pwr = s.pwr := rfl
@[simp] theorem setLog_acq : (setLog f s).acq = s.acq := rfl
@[simp] theorem setLog_aux : (setLog f s).aux = s.aux := rfl
@[simp] theorem setLog_filt : (setLog f s).filt = s.filt := rfl
@[simp] theorem setLog_prot : (setLog f s).prot = s.prot := rfl
@[simp] theorem setLog_rec_ : (setLog f s).rec_ = s.rec_ := rfl
@[simp] theorem setLog_loops : (setLog f s).loops = s.loops := rfl
@[simp] theorem setLog_dma : (setLog f s).dma = s.dma := rfl
@[simp] theorem setLog_svc : (setLog f s).svc = s.svc := rfl
@[simp] theorem setLog_trip : (setLog f s).trip = s.trip := rfl
@[simp] theorem setLog_tbl : (setLog f s).tbl = s.tbl := rfl
@[simp] theorem setLog_grid : (setLog f s).grid = s.grid := rfl
@[simp] theorem setLog_time : (setLog f s).time = s.time := rfl
@[simp] theorem setLog_net : (setLog f s).net = s.net := rfl
@[simp] theorem setLog_log : (setLog f s).log = f s.log := rfl
@[simp] theorem setLog_supv : (setLog f s).supv = s.supv := rfl
@[simp] theorem setLog_sec : (setLog f s).sec = s.sec := rfl
@[simp] theorem setLog_out : (setLog f s).out = s.out := rfl
end

section
variable (f : LoopsSt → LoopsSt) (s : State)
@[simp] theorem setLoops_variant : (setLoops f s).variant = s.variant := rfl
@[simp] theorem setLoops_pending : (setLoops f s).pending = s.pending := rfl
@[simp] theorem setLoops_clk : (setLoops f s).clk = s.clk := rfl
@[simp] theorem setLoops_host : (setLoops f s).host = s.host := rfl
@[simp] theorem setLoops_mem : (setLoops f s).mem = s.mem := rfl
@[simp] theorem setLoops_acts : (setLoops f s).acts = s.acts := rfl
@[simp] theorem setLoops_mode : (setLoops f s).mode = s.mode := rfl
@[simp] theorem setLoops_pwr : (setLoops f s).pwr = s.pwr := rfl
@[simp] theorem setLoops_acq : (setLoops f s).acq = s.acq := rfl
@[simp] theorem setLoops_aux : (setLoops f s).aux = s.aux := rfl
@[simp] theorem setLoops_filt : (setLoops f s).filt = s.filt := rfl
@[simp] theorem setLoops_prot : (setLoops f s).prot = s.prot := rfl
@[simp] theorem setLoops_rec_ : (setLoops f s).rec_ = s.rec_ := rfl
@[simp] theorem setLoops_loops : (setLoops f s).loops = f s.loops := rfl
@[simp] theorem setLoops_dma : (setLoops f s).dma = s.dma := rfl
@[simp] theorem setLoops_svc : (setLoops f s).svc = s.svc := rfl
@[simp] theorem setLoops_trip : (setLoops f s).trip = s.trip := rfl
@[simp] theorem setLoops_tbl : (setLoops f s).tbl = s.tbl := rfl
@[simp] theorem setLoops_grid : (setLoops f s).grid = s.grid := rfl
@[simp] theorem setLoops_time : (setLoops f s).time = s.time := rfl
@[simp] theorem setLoops_net : (setLoops f s).net = s.net := rfl
@[simp] theorem setLoops_log : (setLoops f s).log = s.log := rfl
@[simp] theorem setLoops_supv : (setLoops f s).supv = s.supv := rfl
@[simp] theorem setLoops_sec : (setLoops f s).sec = s.sec := rfl
@[simp] theorem setLoops_out : (setLoops f s).out = s.out := rfl
end

section
variable (f : NetSt → NetSt) (s : State)
@[simp] theorem setNet_variant : (setNet f s).variant = s.variant := rfl
@[simp] theorem setNet_pending : (setNet f s).pending = s.pending := rfl
@[simp] theorem setNet_clk : (setNet f s).clk = s.clk := rfl
@[simp] theorem setNet_host : (setNet f s).host = s.host := rfl
@[simp] theorem setNet_mem : (setNet f s).mem = s.mem := rfl
@[simp] theorem setNet_acts : (setNet f s).acts = s.acts := rfl
@[simp] theorem setNet_mode : (setNet f s).mode = s.mode := rfl
@[simp] theorem setNet_pwr : (setNet f s).pwr = s.pwr := rfl
@[simp] theorem setNet_acq : (setNet f s).acq = s.acq := rfl
@[simp] theorem setNet_aux : (setNet f s).aux = s.aux := rfl
@[simp] theorem setNet_filt : (setNet f s).filt = s.filt := rfl
@[simp] theorem setNet_prot : (setNet f s).prot = s.prot := rfl
@[simp] theorem setNet_rec_ : (setNet f s).rec_ = s.rec_ := rfl
@[simp] theorem setNet_loops : (setNet f s).loops = s.loops := rfl
@[simp] theorem setNet_dma : (setNet f s).dma = s.dma := rfl
@[simp] theorem setNet_svc : (setNet f s).svc = s.svc := rfl
@[simp] theorem setNet_trip : (setNet f s).trip = s.trip := rfl
@[simp] theorem setNet_tbl : (setNet f s).tbl = s.tbl := rfl
@[simp] theorem setNet_grid : (setNet f s).grid = s.grid := rfl
@[simp] theorem setNet_time : (setNet f s).time = s.time := rfl
@[simp] theorem setNet_net : (setNet f s).net = f s.net := rfl
@[simp] theorem setNet_log : (setNet f s).log = s.log := rfl
@[simp] theorem setNet_supv : (setNet f s).supv = s.supv := rfl
@[simp] theorem setNet_sec : (setNet f s).sec = s.sec := rfl
@[simp] theorem setNet_out : (setNet f s).out = s.out := rfl
end

section
variable (f : RecSt → RecSt) (s : State)
@[simp] theorem setRec_variant : (setRec f s).variant = s.variant := rfl
@[simp] theorem setRec_pending : (setRec f s).pending = s.pending := rfl
@[simp] theorem setRec_clk : (setRec f s).clk = s.clk := rfl
@[simp] theorem setRec_host : (setRec f s).host = s.host := rfl
@[simp] theorem setRec_mem : (setRec f s).mem = s.mem := rfl
@[simp] theorem setRec_acts : (setRec f s).acts = s.acts := rfl
@[simp] theorem setRec_mode : (setRec f s).mode = s.mode := rfl
@[simp] theorem setRec_pwr : (setRec f s).pwr = s.pwr := rfl
@[simp] theorem setRec_acq : (setRec f s).acq = s.acq := rfl
@[simp] theorem setRec_aux : (setRec f s).aux = s.aux := rfl
@[simp] theorem setRec_filt : (setRec f s).filt = s.filt := rfl
@[simp] theorem setRec_prot : (setRec f s).prot = s.prot := rfl
@[simp] theorem setRec_rec_ : (setRec f s).rec_ = f s.rec_ := rfl
@[simp] theorem setRec_loops : (setRec f s).loops = s.loops := rfl
@[simp] theorem setRec_dma : (setRec f s).dma = s.dma := rfl
@[simp] theorem setRec_svc : (setRec f s).svc = s.svc := rfl
@[simp] theorem setRec_trip : (setRec f s).trip = s.trip := rfl
@[simp] theorem setRec_tbl : (setRec f s).tbl = s.tbl := rfl
@[simp] theorem setRec_grid : (setRec f s).grid = s.grid := rfl
@[simp] theorem setRec_time : (setRec f s).time = s.time := rfl
@[simp] theorem setRec_net : (setRec f s).net = s.net := rfl
@[simp] theorem setRec_log : (setRec f s).log = s.log := rfl
@[simp] theorem setRec_supv : (setRec f s).supv = s.supv := rfl
@[simp] theorem setRec_sec : (setRec f s).sec = s.sec := rfl
@[simp] theorem setRec_out : (setRec f s).out = s.out := rfl
end

section
variable (f : PowerSt → PowerSt) (s : State)
@[simp] theorem setPwr_variant : (setPwr f s).variant = s.variant := rfl
@[simp] theorem setPwr_pending : (setPwr f s).pending = s.pending := rfl
@[simp] theorem setPwr_clk : (setPwr f s).clk = s.clk := rfl
@[simp] theorem setPwr_host : (setPwr f s).host = s.host := rfl
@[simp] theorem setPwr_mem : (setPwr f s).mem = s.mem := rfl
@[simp] theorem setPwr_acts : (setPwr f s).acts = s.acts := rfl
@[simp] theorem setPwr_mode : (setPwr f s).mode = s.mode := rfl
@[simp] theorem setPwr_pwr : (setPwr f s).pwr = f s.pwr := rfl
@[simp] theorem setPwr_acq : (setPwr f s).acq = s.acq := rfl
@[simp] theorem setPwr_aux : (setPwr f s).aux = s.aux := rfl
@[simp] theorem setPwr_filt : (setPwr f s).filt = s.filt := rfl
@[simp] theorem setPwr_prot : (setPwr f s).prot = s.prot := rfl
@[simp] theorem setPwr_rec_ : (setPwr f s).rec_ = s.rec_ := rfl
@[simp] theorem setPwr_loops : (setPwr f s).loops = s.loops := rfl
@[simp] theorem setPwr_dma : (setPwr f s).dma = s.dma := rfl
@[simp] theorem setPwr_svc : (setPwr f s).svc = s.svc := rfl
@[simp] theorem setPwr_trip : (setPwr f s).trip = s.trip := rfl
@[simp] theorem setPwr_tbl : (setPwr f s).tbl = s.tbl := rfl
@[simp] theorem setPwr_grid : (setPwr f s).grid = s.grid := rfl
@[simp] theorem setPwr_time : (setPwr f s).time = s.time := rfl
@[simp] theorem setPwr_net : (setPwr f s).net = s.net := rfl
@[simp] theorem setPwr_log : (setPwr f s).log = s.log := rfl
@[simp] theorem setPwr_supv : (setPwr f s).supv = s.supv := rfl
@[simp] theorem setPwr_sec : (setPwr f s).sec = s.sec := rfl
@[simp] theorem setPwr_out : (setPwr f s).out = s.out := rfl
end

section
variable (f : HostIf → HostIf) (s : State)
@[simp] theorem setHost_variant : (setHost f s).variant = s.variant := rfl
@[simp] theorem setHost_pending : (setHost f s).pending = s.pending := rfl
@[simp] theorem setHost_clk : (setHost f s).clk = s.clk := rfl
@[simp] theorem setHost_host : (setHost f s).host = f s.host := rfl
@[simp] theorem setHost_mem : (setHost f s).mem = s.mem := rfl
@[simp] theorem setHost_acts : (setHost f s).acts = s.acts := rfl
@[simp] theorem setHost_mode : (setHost f s).mode = s.mode := rfl
@[simp] theorem setHost_pwr : (setHost f s).pwr = s.pwr := rfl
@[simp] theorem setHost_acq : (setHost f s).acq = s.acq := rfl
@[simp] theorem setHost_aux : (setHost f s).aux = s.aux := rfl
@[simp] theorem setHost_filt : (setHost f s).filt = s.filt := rfl
@[simp] theorem setHost_prot : (setHost f s).prot = s.prot := rfl
@[simp] theorem setHost_rec_ : (setHost f s).rec_ = s.rec_ := rfl
@[simp] theorem setHost_loops : (setHost f s).loops = s.loops := rfl
@[simp] theorem setHost_dma : (setHost f s).dma = s.dma := rfl
@[simp] theorem setHost_svc : (setHost f s).svc = s.svc := rfl
@[simp] theorem setHost_trip : (setHost f s).trip = s.trip := rfl
@[simp] theorem setHost_tbl : (setHost f s).tbl = s.tbl := rfl
@[simp] theorem setHost_grid : (setHost f s).grid = s.grid := rfl
@[simp] theorem setHost_time : (setHost f s).time = s.time := rfl
@[simp] theorem setHost_net : (setHost f s).net = s.net := rfl
@[simp] theorem setHost_log : (setHost f s).log = s.log := rfl
@[simp] theorem setHost_supv : (setHost f s).supv = s.supv := rfl
@[simp] theorem setHost_sec : (setHost f s).sec = s.sec := rfl
@[simp] theorem setHost_out : (setHost f s).out = s.out := rfl
end

section
variable (f : SecSt → SecSt) (s : State)
@[simp] theorem setSec_variant : (setSec f s).variant = s.variant := rfl
@[simp] theorem setSec_pending : (setSec f s).pending = s.pending := rfl
@[simp] theorem setSec_clk : (setSec f s).clk = s.clk := rfl
@[simp] theorem setSec_host : (setSec f s).host = s.host := rfl
@[simp] theorem setSec_mem : (setSec f s).mem = s.mem := rfl
@[simp] theorem setSec_acts : (setSec f s).acts = s.acts := rfl
@[simp] theorem setSec_mode : (setSec f s).mode = s.mode := rfl
@[simp] theorem setSec_pwr : (setSec f s).pwr = s.pwr := rfl
@[simp] theorem setSec_acq : (setSec f s).acq = s.acq := rfl
@[simp] theorem setSec_aux : (setSec f s).aux = s.aux := rfl
@[simp] theorem setSec_filt : (setSec f s).filt = s.filt := rfl
@[simp] theorem setSec_prot : (setSec f s).prot = s.prot := rfl
@[simp] theorem setSec_rec_ : (setSec f s).rec_ = s.rec_ := rfl
@[simp] theorem setSec_loops : (setSec f s).loops = s.loops := rfl
@[simp] theorem setSec_dma : (setSec f s).dma = s.dma := rfl
@[simp] theorem setSec_svc : (setSec f s).svc = s.svc := rfl
@[simp] theorem setSec_trip : (setSec f s).trip = s.trip := rfl
@[simp] theorem setSec_tbl : (setSec f s).tbl = s.tbl := rfl
@[simp] theorem setSec_grid : (setSec f s).grid = s.grid := rfl
@[simp] theorem setSec_time : (setSec f s).time = s.time := rfl
@[simp] theorem setSec_net : (setSec f s).net = s.net := rfl
@[simp] theorem setSec_log : (setSec f s).log = s.log := rfl
@[simp] theorem setSec_supv : (setSec f s).supv = s.supv := rfl
@[simp] theorem setSec_sec : (setSec f s).sec = f s.sec := rfl
@[simp] theorem setSec_out : (setSec f s).out = s.out := rfl
end

section
variable (f : SvcSt → SvcSt) (s : State)
@[simp] theorem setSvc_variant : (setSvc f s).variant = s.variant := rfl
@[simp] theorem setSvc_pending : (setSvc f s).pending = s.pending := rfl
@[simp] theorem setSvc_clk : (setSvc f s).clk = s.clk := rfl
@[simp] theorem setSvc_host : (setSvc f s).host = s.host := rfl
@[simp] theorem setSvc_mem : (setSvc f s).mem = s.mem := rfl
@[simp] theorem setSvc_acts : (setSvc f s).acts = s.acts := rfl
@[simp] theorem setSvc_mode : (setSvc f s).mode = s.mode := rfl
@[simp] theorem setSvc_pwr : (setSvc f s).pwr = s.pwr := rfl
@[simp] theorem setSvc_acq : (setSvc f s).acq = s.acq := rfl
@[simp] theorem setSvc_aux : (setSvc f s).aux = s.aux := rfl
@[simp] theorem setSvc_filt : (setSvc f s).filt = s.filt := rfl
@[simp] theorem setSvc_prot : (setSvc f s).prot = s.prot := rfl
@[simp] theorem setSvc_rec_ : (setSvc f s).rec_ = s.rec_ := rfl
@[simp] theorem setSvc_loops : (setSvc f s).loops = s.loops := rfl
@[simp] theorem setSvc_dma : (setSvc f s).dma = s.dma := rfl
@[simp] theorem setSvc_svc : (setSvc f s).svc = f s.svc := rfl
@[simp] theorem setSvc_trip : (setSvc f s).trip = s.trip := rfl
@[simp] theorem setSvc_tbl : (setSvc f s).tbl = s.tbl := rfl
@[simp] theorem setSvc_grid : (setSvc f s).grid = s.grid := rfl
@[simp] theorem setSvc_time : (setSvc f s).time = s.time := rfl
@[simp] theorem setSvc_net : (setSvc f s).net = s.net := rfl
@[simp] theorem setSvc_log : (setSvc f s).log = s.log := rfl
@[simp] theorem setSvc_supv : (setSvc f s).supv = s.supv := rfl
@[simp] theorem setSvc_sec : (setSvc f s).sec = s.sec := rfl
@[simp] theorem setSvc_out : (setSvc f s).out = s.out := rfl
end

section
variable (f : ModeSt → ModeSt) (s : State)
@[simp] theorem setMode_variant : (setMode f s).variant = s.variant := rfl
@[simp] theorem setMode_pending : (setMode f s).pending = s.pending := rfl
@[simp] theorem setMode_clk : (setMode f s).clk = s.clk := rfl
@[simp] theorem setMode_host : (setMode f s).host = s.host := rfl
@[simp] theorem setMode_mem : (setMode f s).mem = s.mem := rfl
@[simp] theorem setMode_acts : (setMode f s).acts = s.acts := rfl
@[simp] theorem setMode_mode : (setMode f s).mode = f s.mode := rfl
@[simp] theorem setMode_pwr : (setMode f s).pwr = s.pwr := rfl
@[simp] theorem setMode_acq : (setMode f s).acq = s.acq := rfl
@[simp] theorem setMode_aux : (setMode f s).aux = s.aux := rfl
@[simp] theorem setMode_filt : (setMode f s).filt = s.filt := rfl
@[simp] theorem setMode_prot : (setMode f s).prot = s.prot := rfl
@[simp] theorem setMode_rec_ : (setMode f s).rec_ = s.rec_ := rfl
@[simp] theorem setMode_loops : (setMode f s).loops = s.loops := rfl
@[simp] theorem setMode_dma : (setMode f s).dma = s.dma := rfl
@[simp] theorem setMode_svc : (setMode f s).svc = s.svc := rfl
@[simp] theorem setMode_trip : (setMode f s).trip = s.trip := rfl
@[simp] theorem setMode_tbl : (setMode f s).tbl = s.tbl := rfl
@[simp] theorem setMode_grid : (setMode f s).grid = s.grid := rfl
@[simp] theorem setMode_time : (setMode f s).time = s.time := rfl
@[simp] theorem setMode_net : (setMode f s).net = s.net := rfl
@[simp] theorem setMode_log : (setMode f s).log = s.log := rfl
@[simp] theorem setMode_supv : (setMode f s).supv = s.supv := rfl
@[simp] theorem setMode_sec : (setMode f s).sec = s.sec := rfl
@[simp] theorem setMode_out : (setMode f s).out = s.out := rfl
end

section
variable (f : SupvSt → SupvSt) (s : State)
@[simp] theorem setSupv_variant : (setSupv f s).variant = s.variant := rfl
@[simp] theorem setSupv_pending : (setSupv f s).pending = s.pending := rfl
@[simp] theorem setSupv_clk : (setSupv f s).clk = s.clk := rfl
@[simp] theorem setSupv_host : (setSupv f s).host = s.host := rfl
@[simp] theorem setSupv_mem : (setSupv f s).mem = s.mem := rfl
@[simp] theorem setSupv_acts : (setSupv f s).acts = s.acts := rfl
@[simp] theorem setSupv_mode : (setSupv f s).mode = s.mode := rfl
@[simp] theorem setSupv_pwr : (setSupv f s).pwr = s.pwr := rfl
@[simp] theorem setSupv_acq : (setSupv f s).acq = s.acq := rfl
@[simp] theorem setSupv_aux : (setSupv f s).aux = s.aux := rfl
@[simp] theorem setSupv_filt : (setSupv f s).filt = s.filt := rfl
@[simp] theorem setSupv_prot : (setSupv f s).prot = s.prot := rfl
@[simp] theorem setSupv_rec_ : (setSupv f s).rec_ = s.rec_ := rfl
@[simp] theorem setSupv_loops : (setSupv f s).loops = s.loops := rfl
@[simp] theorem setSupv_dma : (setSupv f s).dma = s.dma := rfl
@[simp] theorem setSupv_svc : (setSupv f s).svc = s.svc := rfl
@[simp] theorem setSupv_trip : (setSupv f s).trip = s.trip := rfl
@[simp] theorem setSupv_tbl : (setSupv f s).tbl = s.tbl := rfl
@[simp] theorem setSupv_grid : (setSupv f s).grid = s.grid := rfl
@[simp] theorem setSupv_time : (setSupv f s).time = s.time := rfl
@[simp] theorem setSupv_net : (setSupv f s).net = s.net := rfl
@[simp] theorem setSupv_log : (setSupv f s).log = s.log := rfl
@[simp] theorem setSupv_supv : (setSupv f s).supv = f s.supv := rfl
@[simp] theorem setSupv_sec : (setSupv f s).sec = s.sec := rfl
@[simp] theorem setSupv_out : (setSupv f s).out = s.out := rfl
end

section
variable (f : ProtSt → ProtSt) (s : State)
@[simp] theorem setProt_variant : (setProt f s).variant = s.variant := rfl
@[simp] theorem setProt_pending : (setProt f s).pending = s.pending := rfl
@[simp] theorem setProt_clk : (setProt f s).clk = s.clk := rfl
@[simp] theorem setProt_host : (setProt f s).host = s.host := rfl
@[simp] theorem setProt_mem : (setProt f s).mem = s.mem := rfl
@[simp] theorem setProt_acts : (setProt f s).acts = s.acts := rfl
@[simp] theorem setProt_mode : (setProt f s).mode = s.mode := rfl
@[simp] theorem setProt_pwr : (setProt f s).pwr = s.pwr := rfl
@[simp] theorem setProt_acq : (setProt f s).acq = s.acq := rfl
@[simp] theorem setProt_aux : (setProt f s).aux = s.aux := rfl
@[simp] theorem setProt_filt : (setProt f s).filt = s.filt := rfl
@[simp] theorem setProt_prot : (setProt f s).prot = f s.prot := rfl
@[simp] theorem setProt_rec_ : (setProt f s).rec_ = s.rec_ := rfl
@[simp] theorem setProt_loops : (setProt f s).loops = s.loops := rfl
@[simp] theorem setProt_dma : (setProt f s).dma = s.dma := rfl
@[simp] theorem setProt_svc : (setProt f s).svc = s.svc := rfl
@[simp] theorem setProt_trip : (setProt f s).trip = s.trip := rfl
@[simp] theorem setProt_tbl : (setProt f s).tbl = s.tbl := rfl
@[simp] theorem setProt_grid : (setProt f s).grid = s.grid := rfl
@[simp] theorem setProt_time : (setProt f s).time = s.time := rfl
@[simp] theorem setProt_net : (setProt f s).net = s.net := rfl
@[simp] theorem setProt_log : (setProt f s).log = s.log := rfl
@[simp] theorem setProt_supv : (setProt f s).supv = s.supv := rfl
@[simp] theorem setProt_sec : (setProt f s).sec = s.sec := rfl
@[simp] theorem setProt_out : (setProt f s).out = s.out := rfl
end

section
variable (f : TblSt → TblSt) (s : State)
@[simp] theorem setTbl_variant : (setTbl f s).variant = s.variant := rfl
@[simp] theorem setTbl_pending : (setTbl f s).pending = s.pending := rfl
@[simp] theorem setTbl_clk : (setTbl f s).clk = s.clk := rfl
@[simp] theorem setTbl_host : (setTbl f s).host = s.host := rfl
@[simp] theorem setTbl_mem : (setTbl f s).mem = s.mem := rfl
@[simp] theorem setTbl_acts : (setTbl f s).acts = s.acts := rfl
@[simp] theorem setTbl_mode : (setTbl f s).mode = s.mode := rfl
@[simp] theorem setTbl_pwr : (setTbl f s).pwr = s.pwr := rfl
@[simp] theorem setTbl_acq : (setTbl f s).acq = s.acq := rfl
@[simp] theorem setTbl_aux : (setTbl f s).aux = s.aux := rfl
@[simp] theorem setTbl_filt : (setTbl f s).filt = s.filt := rfl
@[simp] theorem setTbl_prot : (setTbl f s).prot = s.prot := rfl
@[simp] theorem setTbl_rec_ : (setTbl f s).rec_ = s.rec_ := rfl
@[simp] theorem setTbl_loops : (setTbl f s).loops = s.loops := rfl
@[simp] theorem setTbl_dma : (setTbl f s).dma = s.dma := rfl
@[simp] theorem setTbl_svc : (setTbl f s).svc = s.svc := rfl
@[simp] theorem setTbl_trip : (setTbl f s).trip = s.trip := rfl
@[simp] theorem setTbl_tbl : (setTbl f s).tbl = f s.tbl := rfl
@[simp] theorem setTbl_grid : (setTbl f s).grid = s.grid := rfl
@[simp] theorem setTbl_time : (setTbl f s).time = s.time := rfl
@[simp] theorem setTbl_net : (setTbl f s).net = s.net := rfl
@[simp] theorem setTbl_log : (setTbl f s).log = s.log := rfl
@[simp] theorem setTbl_supv : (setTbl f s).supv = s.supv := rfl
@[simp] theorem setTbl_sec : (setTbl f s).sec = s.sec := rfl
@[simp] theorem setTbl_out : (setTbl f s).out = s.out := rfl
end

section
variable (f : TimeSt → TimeSt) (s : State)
@[simp] theorem setTime_variant : (setTime f s).variant = s.variant := rfl
@[simp] theorem setTime_pending : (setTime f s).pending = s.pending := rfl
@[simp] theorem setTime_clk : (setTime f s).clk = s.clk := rfl
@[simp] theorem setTime_host : (setTime f s).host = s.host := rfl
@[simp] theorem setTime_mem : (setTime f s).mem = s.mem := rfl
@[simp] theorem setTime_acts : (setTime f s).acts = s.acts := rfl
@[simp] theorem setTime_mode : (setTime f s).mode = s.mode := rfl
@[simp] theorem setTime_pwr : (setTime f s).pwr = s.pwr := rfl
@[simp] theorem setTime_acq : (setTime f s).acq = s.acq := rfl
@[simp] theorem setTime_aux : (setTime f s).aux = s.aux := rfl
@[simp] theorem setTime_filt : (setTime f s).filt = s.filt := rfl
@[simp] theorem setTime_prot : (setTime f s).prot = s.prot := rfl
@[simp] theorem setTime_rec_ : (setTime f s).rec_ = s.rec_ := rfl
@[simp] theorem setTime_loops : (setTime f s).loops = s.loops := rfl
@[simp] theorem setTime_dma : (setTime f s).dma = s.dma := rfl
@[simp] theorem setTime_svc : (setTime f s).svc = s.svc := rfl
@[simp] theorem setTime_trip : (setTime f s).trip = s.trip := rfl
@[simp] theorem setTime_tbl : (setTime f s).tbl = s.tbl := rfl
@[simp] theorem setTime_grid : (setTime f s).grid = s.grid := rfl
@[simp] theorem setTime_time : (setTime f s).time = f s.time := rfl
@[simp] theorem setTime_net : (setTime f s).net = s.net := rfl
@[simp] theorem setTime_log : (setTime f s).log = s.log := rfl
@[simp] theorem setTime_supv : (setTime f s).supv = s.supv := rfl
@[simp] theorem setTime_sec : (setTime f s).sec = s.sec := rfl
@[simp] theorem setTime_out : (setTime f s).out = s.out := rfl
end

section
variable (f : TripSt → TripSt) (s : State)
@[simp] theorem setTrip_variant : (setTrip f s).variant = s.variant := rfl
@[simp] theorem setTrip_pending : (setTrip f s).pending = s.pending := rfl
@[simp] theorem setTrip_clk : (setTrip f s).clk = s.clk := rfl
@[simp] theorem setTrip_host : (setTrip f s).host = s.host := rfl
@[simp] theorem setTrip_mem : (setTrip f s).mem = s.mem := rfl
@[simp] theorem setTrip_acts : (setTrip f s).acts = s.acts := rfl
@[simp] theorem setTrip_mode : (setTrip f s).mode = s.mode := rfl
@[simp] theorem setTrip_pwr : (setTrip f s).pwr = s.pwr := rfl
@[simp] theorem setTrip_acq : (setTrip f s).acq = s.acq := rfl
@[simp] theorem setTrip_aux : (setTrip f s).aux = s.aux := rfl
@[simp] theorem setTrip_filt : (setTrip f s).filt = s.filt := rfl
@[simp] theorem setTrip_prot : (setTrip f s).prot = s.prot := rfl
@[simp] theorem setTrip_rec_ : (setTrip f s).rec_ = s.rec_ := rfl
@[simp] theorem setTrip_loops : (setTrip f s).loops = s.loops := rfl
@[simp] theorem setTrip_dma : (setTrip f s).dma = s.dma := rfl
@[simp] theorem setTrip_svc : (setTrip f s).svc = s.svc := rfl
@[simp] theorem setTrip_trip : (setTrip f s).trip = f s.trip := rfl
@[simp] theorem setTrip_tbl : (setTrip f s).tbl = s.tbl := rfl
@[simp] theorem setTrip_grid : (setTrip f s).grid = s.grid := rfl
@[simp] theorem setTrip_time : (setTrip f s).time = s.time := rfl
@[simp] theorem setTrip_net : (setTrip f s).net = s.net := rfl
@[simp] theorem setTrip_log : (setTrip f s).log = s.log := rfl
@[simp] theorem setTrip_supv : (setTrip f s).supv = s.supv := rfl
@[simp] theorem setTrip_sec : (setTrip f s).sec = s.sec := rfl
@[simp] theorem setTrip_out : (setTrip f s).out = s.out := rfl
end

section
variable (sp : Space) (a : Nat) (b : Bytes) (s : State)
@[simp] theorem memWrite_variant : (memWrite sp a b s).variant = s.variant := rfl
@[simp] theorem memWrite_pending : (memWrite sp a b s).pending = s.pending := rfl
@[simp] theorem memWrite_clk : (memWrite sp a b s).clk = s.clk := rfl
@[simp] theorem memWrite_host : (memWrite sp a b s).host = s.host := rfl
@[simp] theorem memWrite_mem : (memWrite sp a b s).mem = s.mem.write sp a b := rfl
@[simp] theorem memWrite_acts : (memWrite sp a b s).acts = s.acts := rfl
@[simp] theorem memWrite_mode : (memWrite sp a b s).mode = s.mode := rfl
@[simp] theorem memWrite_pwr : (memWrite sp a b s).pwr = s.pwr := rfl
@[simp] theorem memWrite_acq : (memWrite sp a b s).acq = s.acq := rfl
@[simp] theorem memWrite_aux : (memWrite sp a b s).aux = s.aux := rfl
@[simp] theorem memWrite_filt : (memWrite sp a b s).filt = s.filt := rfl
@[simp] theorem memWrite_prot : (memWrite sp a b s).prot = s.prot := rfl
@[simp] theorem memWrite_rec_ : (memWrite sp a b s).rec_ = s.rec_ := rfl
@[simp] theorem memWrite_loops : (memWrite sp a b s).loops = s.loops := rfl
@[simp] theorem memWrite_dma : (memWrite sp a b s).dma = s.dma := rfl
@[simp] theorem memWrite_svc : (memWrite sp a b s).svc = s.svc := rfl
@[simp] theorem memWrite_trip : (memWrite sp a b s).trip = s.trip := rfl
@[simp] theorem memWrite_tbl : (memWrite sp a b s).tbl = s.tbl := rfl
@[simp] theorem memWrite_grid : (memWrite sp a b s).grid = s.grid := rfl
@[simp] theorem memWrite_time : (memWrite sp a b s).time = s.time := rfl
@[simp] theorem memWrite_net : (memWrite sp a b s).net = s.net := rfl
@[simp] theorem memWrite_log : (memWrite sp a b s).log = s.log := rfl
@[simp] theorem memWrite_supv : (memWrite sp a b s).supv = s.supv := rfl
@[simp] theorem memWrite_sec : (memWrite sp a b s).sec = s.sec := rfl
@[simp] theorem memWrite_out : (memWrite sp a b s).out = s.out := rfl
end

section
variable (src code unit : Nat) (data : Bytes) (s : State)
@[simp] theorem postEvent_variant : (postEvent src code unit data s).variant = s.variant := rfl
@[simp] theorem postEvent_pending : (postEvent src code unit data s).pending = s.pending := rfl
@[simp] theorem postEvent_clk : (postEvent src code unit data s).clk = s.clk := rfl
@[simp] theorem postEvent_host : (postEvent src code unit data s).host = s.host := rfl
@[simp] theorem postEvent_mem : (postEvent src code unit data s).mem = s.mem := rfl
@[simp] theorem postEvent_acts : (postEvent src code unit data s).acts = s.acts := rfl
@[simp] theorem postEvent_mode : (postEvent src code unit data s).mode = s.mode := rfl
@[simp] theorem postEvent_pwr : (postEvent src code unit data s).pwr = s.pwr := rfl
@[simp] theorem postEvent_acq : (postEvent src code unit data s).acq = s.acq := rfl
@[simp] theorem postEvent_aux : (postEvent src code unit data s).aux = s.aux := rfl
@[simp] theorem postEvent_filt : (postEvent src code unit data s).filt = s.filt := rfl
@[simp] theorem postEvent_prot : (postEvent src code unit data s).prot = s.prot := rfl
@[simp] theorem postEvent_rec_ : (postEvent src code unit data s).rec_ = s.rec_ := rfl
@[simp] theorem postEvent_loops : (postEvent src code unit data s).loops = s.loops := rfl
@[simp] theorem postEvent_dma : (postEvent src code unit data s).dma = s.dma := rfl
@[simp] theorem postEvent_svc : (postEvent src code unit data s).svc = s.svc := rfl
@[simp] theorem postEvent_trip : (postEvent src code unit data s).trip = s.trip := rfl
@[simp] theorem postEvent_tbl : (postEvent src code unit data s).tbl = s.tbl := rfl
@[simp] theorem postEvent_grid : (postEvent src code unit data s).grid = s.grid := rfl
@[simp] theorem postEvent_time : (postEvent src code unit data s).time = s.time := rfl
@[simp] theorem postEvent_net : (postEvent src code unit data s).net = s.net := rfl
@[simp] theorem postEvent_log : (postEvent src code unit data s).log = enqueue s.clk.ms (mkEventAt s s.clk.taiU src code unit data) s.log := rfl
@[simp] theorem postEvent_supv : (postEvent src code unit data s).supv = s.supv := rfl
@[simp] theorem postEvent_sec : (postEvent src code unit data s).sec = s.sec := rfl
@[simp] theorem postEvent_out : (postEvent src code unit data s).out = s.out := rfl
end

section
variable (src code unit : Nat) (data : Bytes) (s : State)
@[simp] theorem postCycle_variant : (postCycle src code unit data s).variant = s.variant := rfl
@[simp] theorem postCycle_pending : (postCycle src code unit data s).pending = s.pending := rfl
@[simp] theorem postCycle_clk : (postCycle src code unit data s).clk = s.clk := rfl
@[simp] theorem postCycle_host : (postCycle src code unit data s).host = s.host := rfl
@[simp] theorem postCycle_mem : (postCycle src code unit data s).mem = s.mem := rfl
@[simp] theorem postCycle_acts : (postCycle src code unit data s).acts = s.acts := rfl
@[simp] theorem postCycle_mode : (postCycle src code unit data s).mode = s.mode := rfl
@[simp] theorem postCycle_pwr : (postCycle src code unit data s).pwr = s.pwr := rfl
@[simp] theorem postCycle_acq : (postCycle src code unit data s).acq = s.acq := rfl
@[simp] theorem postCycle_aux : (postCycle src code unit data s).aux = s.aux := rfl
@[simp] theorem postCycle_filt : (postCycle src code unit data s).filt = s.filt := rfl
@[simp] theorem postCycle_prot : (postCycle src code unit data s).prot = s.prot := rfl
@[simp] theorem postCycle_rec_ : (postCycle src code unit data s).rec_ = s.rec_ := rfl
@[simp] theorem postCycle_loops : (postCycle src code unit data s).loops = s.loops := rfl
@[simp] theorem postCycle_dma : (postCycle src code unit data s).dma = s.dma := rfl
@[simp] theorem postCycle_svc : (postCycle src code unit data s).svc = s.svc := rfl
@[simp] theorem postCycle_trip : (postCycle src code unit data s).trip = s.trip := rfl
@[simp] theorem postCycle_tbl : (postCycle src code unit data s).tbl = s.tbl := rfl
@[simp] theorem postCycle_grid : (postCycle src code unit data s).grid = s.grid := rfl
@[simp] theorem postCycle_time : (postCycle src code unit data s).time = s.time := rfl
@[simp] theorem postCycle_net : (postCycle src code unit data s).net = s.net := rfl
@[simp] theorem postCycle_log : (postCycle src code unit data s).log = enqueue s.clk.ms (mkEventAt s s.clk.msTai src code unit data) s.log := rfl
@[simp] theorem postCycle_supv : (postCycle src code unit data s).supv = s.supv := rfl
@[simp] theorem postCycle_sec : (postCycle src code unit data s).sec = s.sec := rfl
@[simp] theorem postCycle_out : (postCycle src code unit data s).out = s.out := rfl
end

end Sys2Proof.Machine.Laws
end

