-- ==== Sys2Proof/WellFormed.lean ====
section
/-! DEFINITION. WellFormed: what the outside world can bring in an operand. The rows themselves answer for every operand; a term
that is not well formed names an event the board, the network or the host cannot cause. -/

namespace Sys2Proof

/-- No unit is named twice. -/
def SliceIn.apart (l : List SliceIn) : Bool := decide ((l.map (·.unit)).Nodup)

/-- Conversions of one slice or spare in one Milestone (R150, R152): units 0 to 50, at most 128 codes, comparator positions among
them. -/
def SliceIn.wf (x : SliceIn) : Bool :=
  decide (x.unit.toNat < 51) && decide (x.codes.length ≤ 128) && x.ovr.all (fun p => decide (p < 128))

/-- A register write names the aligned place of its width (R42); a discarded one may lie anywhere. -/
def BarWrite.wf (off : Nat) : BarWrite → Bool
  | .narrow => true
  | .word _ => decide (off % 4 = 0)
  | .double _ => decide (off % 8 = 0)

/-- Inputs of one Milestone. -/
def MsIn.wf (m : MsIn) : Bool := m.slices.all SliceIn.wf && SliceIn.apart m.slices

/-- Calibration results: one for each of the three gains (R158). -/
def CalMeas.wf (m : CalMeas) : Bool := decide (m.ofs.length = 3) && decide (m.gc.length = 3)

/-- Findings of a boot: two image slots, clusters 0 to 7, standbys 0 to 3, slices and spares 0 to 50, each named once. -/
def BootReport.wf (r : BootReport) : Bool :=
  decide (r.slots.length = 2) && r.clusters.all (fun c => decide (c < 8)) && r.standbys.all (fun c => decide (c < 4)) &&
  r.slices.all (fun c => decide (c.unit < 51) && c.first.wf && c.second.wf) && decide (r.clusters.Nodup) && decide (r.standbys.Nodup) && decide ((r.slices.map (·.unit)).Nodup)

/-- One IRIG-B frame: day of the year 1 to 366, second of the day, a two-digit year, an offset within 24 hours (R140). -/
def IrigFrame.wf (m : IrigFrame) : Bool :=
  decide (1 ≤ m.day ∧ m.day ≤ 366) && decide (m.second ≤ 86400) && decide (m.year ≤ 99) && decide (m.localOfs.natAbs ≤ 48)

/-- One ASDU: eight INT32 values with their qualities (R189). -/
def SvAsdu.wf (a : SvAsdu) : Bool :=
  decide (a.vals.length = 8) && decide (a.quals.length = 8) &&
  a.vals.all (fun v => decide (-(2 ^ 31) ≤ v ∧ v < 2 ^ 31)) && decide (a.svId.length ≤ 129)

/-- A sampled-value frame carries 1 to 8 ASDUs; the counts of the profiles are 1, 2, 6 and 8 (R189). -/
def SvFrame.wf (f : SvFrame) : Bool := f.asdus.all SvAsdu.wf && decide (1 ≤ f.asdus.length ∧ f.asdus.length ≤ 8)

/-- A GOOSE frame: its stated number of entries is that of its members (R211). -/
def GooseFrame.wf (f : GooseFrame) : Bool :=
  decide (f.members.length = f.numEntries) && decide (f.gocbRef.length ≤ 129) && decide (f.datSet.length ≤ 129)

/-- A QSPI frame reads at least one byte at a clock of the target, up to 50 MHz (R37, R48). -/
def qspiReadWf (len mhz : Nat) : Bool := decide (1 ≤ len) && decide (1 ≤ mhz ∧ mhz ≤ 50)

/-- Whether a command names something that can be sent. -/
def Instr.wf (i : Instr) : Bool :=
  match i with
  | .sysCaps _ => true
  | .sysMode _ => true
  | .sysStatus _ => true
  | .sysRestartWarm _ => true
  | .sysRestartCold _ => true
  | .tblBase _ => true
  | .tblSync _ => true
  | .tblRead _ => true
  | .bayGroup _ => true
  | .bayBeh _ => true
  | .bayRead _ => true
  | .bayReadSection _ => true
  | .bayReadTripStatus _ => true
  | .bayReadLoop _ => true
  | .bayReset _ => true
  | .filtStop _ => true
  | .filtStart _ => true
  | .filtCoef _ => true
  | .auxSeq _ => true
  | .svPub _ => true
  | .svPubPortSet _ => true
  | .svStats _ => true
  | .goosePub _ => true
  | .gooseStats _ => true
  | .curveLoad _ => true
  | .logicLoad _ => true
  | .logicVerify _ => true
  | .logicSwitch _ => true
  | .logicForce _ => true
  | .logicUnforce _ => true
  | .logicRestart _ => true
  | .logicRead _ => true
  | .gridMode _ => true
  | .gridSyncSlew _ => true
  | .gridSyncStep _ => true
  | .timeStep _ => true
  | .timeSource _ => true
  | .timeRead _ => true
  | .recArm _ => true
  | .recDisarm _ => true
  | .recForce _ => true
  | .recList _ => true
  | .recCfg _ => true
  | .recFree _ => true
  | .dmaStart _ => true
  | .dmaHalt _ => true
  | .dmaStat _ => true
  | .evtRead _ => true
  | .evtReadStatus _ => true
  | .evtClear _ => true
  | .loopXfer _ => true
  | .loopBank _ => true
  | .loopSetpt _ => true
  | .loopInject _ => true
  | .loopInjectStop _ => true
  | .loopTrace _ => true
  | .loopTraceStop _ => true
  | .pwrStatus _ => true
  | .keyLoad _ => true
  | .keyLoadTamperPolicy _ => true
  | .keyErase _ => true
  | .keyEraseTamperLatch _ => true
  | .keyStatus _ => true
  | .fwLoad _ => true
  | .fwActivate _ => true
  | .testRun _ => true
  | .testRunStop _ => true
  | .testResult _ => true
  | .wmkSel _ => true
  | .supvCount _ => true
  | .unknownCommand _ => true
  | .commandFetch => true
  | .commandStartTimeout _ => true
  | .tblSyncCheckDone => true
  | .fwVerifyDone => true
  | .gridFollowRelock => true
  | .mbDoorbell _ _ => true
  | .ringEnable _ _ => true
  | .cqHeadWrite _ => true
  | .cqEnable _ => true
  | .cqDisable => true
  | .irqStatWrite _ => true
  | .irqMaskWrite _ => true
  | .taiSecLoRead => true
  | .registerWrite off w => BarWrite.wf off.toNat w
  | .qspiRead _ len mhz => qspiReadWf len mhz
  | .qspiWrite _ data => decide (1 ≤ data.length)
  | .qspiStat => true
  | .perstN _ => true
  | .powerOn r => r.wf
  | .rstN r => r.wf
  | .brownOut rail => decide (rail.toNat < 6)
  | .brownOutLatch => true
  | .railOvervoltage rail => decide (rail.toNat < 6)
  | .vinLoss => true
  | .vinGood => true
  | .vinGood50ms => true
  | .vinOv => true
  | .holdFull => true
  | .holdCapMeasured _ => true
  | .hold30v => true
  | .hold20v => true
  | .hold10v => true
  | .tjHigh _ => true
  | .overtempPowerDown => true
  | .vbatCheck _ => true
  | .vaux18Changeover => true
  | .opMinuteTick => true
  | .deviceLoopUpdate idx _ => decide (idx.toNat < 10 ∧ idx.toNat ≠ 8)
  | .milestoneBoundary m => m.wf
  | .cycleFrameEnd => true
  | .stageTdExpiry _ elem => decide (elem.toNat < 36)
  | .stageResetTimeout _ idx => decide (idx.toNat < 25)
  | .curveOperate _ idx => decide (idx.toNat < 25)
  | .curveResetTimeout _ idx => decide (idx.toNat < 25)
  | .deadTimeEnd _ => true
  | .reclaimEnd _ => true
  | .closeTEnd _ => true
  | .trippedTimeout _ => true
  | .bfRetrip _ => true
  | .bfBktrip _ => true
  | .sotfArmed _ => true
  | .sotfWindowEnd _ => true
  | .clpDeenergised _ => true
  | .clpActEnd _ => true
  | .inrushWindowEnd _ => true
  | .inrushHoldEnd _ phase => decide (phase.toNat < 3)
  | .riTdExpiry _ => true
  | .satBlkEnd _ => true
  | .frzTripEnd _ => true
  | .hifBackgroundValid _ _ => true
  | .plausibilityLasting _ _ phase => decide (phase.toNat < 3)
  | .plausibilityCleared _ _ phase => decide (phase.toNat < 3)
  | .plausibilityEpisodeEnd _ _ phase => decide (phase.toNat < 3)
  | .minPulseEnd _ => true
  | .sealMaxEnd _ => true
  | .logicOverrun _ => true
  | .logicAbort _ => true
  | .logicTimerExpiry _ _ => true
  | .opNop _ => true
  | .opLd _ _ => true
  | .opLdn _ _ => true
  | .opAnd _ _ => true
  | .opAndn _ _ => true
  | .opOr _ _ => true
  | .opOrn _ _ => true
  | .opXor _ _ => true
  | .opNot _ => true
  | .opApush _ => true
  | .opOpush _ => true
  | .opPop _ => true
  | .opDup _ => true
  | .opRds _ => true
  | .opDrop _ => true
  | .opSt _ _ => true
  | .opStn _ _ => true
  | .opSet _ _ => true
  | .opRst _ _ => true
  | .opRise _ _ => true
  | .opFall _ _ => true
  | .opTon _ _ => true
  | .opTof _ _ => true
  | .opTp _ _ => true
  | .opTrst _ _ => true
  | .opCtu _ _ => true
  | .opCtd _ _ => true
  | .opCrst _ _ => true
  | .opCld _ _ => true
  | .opCge _ _ => true
  | .opJmpc _ _ => true
  | .opJmpnc _ _ => true
  | .opJmp _ _ => true
  | .opEnd _ => true
  | .lockstepMismatch _ => true
  | .sramEccCorrected u => decide (u.toNat < 12)
  | .sramEccUncorrectable u => decide (u.toNat < 12)
  | .standbyTakeover _ => true
  | .standbyReplayMismatch _ => true
  | .standbySelftestMismatch _ => true
  | .supvWatchdogExpiry => true
  | .warmRestart => true
  | .warmRestartDone _ => true
  | .supvLockstepRestart => true
  | .coldRestart r => r.wf
  | .lastingFaultDeclared id _ => decide (1 ≤ id.toNat ∧ id.toNat ≤ 23)
  | .lastingFaultCleared id _ => decide (1 ≤ id.toNat ∧ id.toNat ≤ 23)
  | .transientEpisodeEnd id _ => decide (1 ≤ id.toNat ∧ id.toNat ≤ 23)
  | .faultHandler => true
  | .ptpSyncRx _ _ => true
  | .ptpAnnounceRx _ _ => true
  | .ptpPdelayReqRx _ _ => true
  | .ptpPdelayRespRx _ _ => true
  | .ptpMessageTx _ _ => true
  | .ptpAnnounceTimeout _ => true
  | .ptpSyncTimeout _ => true
  | .irigFrame m => m.wf
  | .irigTimeout => true
  | .ppsInEdge _ => true
  | .ppsInTimeout => true
  | .timeSourceSwitch src => decide (1 ≤ src.toNat)
  | .timeSecondTick => true
  | .ppsOutEdge => true
  | .leapSecond => true
  | .gridSyncEdge _ => true
  | .gridSyncLost => true
  | .cwSyncPulse _ _ => true
  | .cwSyncLoss => true
  | .cwClkLoss => true
  | .refPrioritySwitch _ => true
  | .gridHoldoverTimeout => true
  | .calPhaseEnd g m => decide (g.toNat < 3) && m.wf
  | .auxConversionDone _ => true
  | .auxDelayEnd => true
  | .urgEdge => true
  | .urgentConversionDone _ => true
  | .svFrameRx f => f.wf
  | .svSampleDeadline _ => true
  | .svSyncLossTimeout _ => true
  | .svPubFrameTx p => decide (p.toNat < 6)
  | .gooseFrameRx f => f.wf
  | .gooseTalExpiry _ => true
  | .gooseRetransmit _ => true
  | .prpSupervisionTx _ => true
  | .prpSupervisionRx _ => true
  | .duplicateEntryForget _ _ _ => true
  | .nodeForget _ _ => true
  | .linkDown _ => true
  | .linkUp _ => true
  | .portRecovered _ => true
  | .biEdge _ _ _ => true
  | .biDebounceEnd _ => true
  | .rbMismatchStart _ _ => true
  | .rbMismatchEnd _ _ => true
  | .tcsAlarm _ => true
  | .tcsClear _ => true
  | .tcsStale _ => true
  | .systemTriggerEdge _ _ _ => true
  | .triggerTimeout _ _ => true
  | .recordClose _ => true
  | .autoRecord _ => true
  | .cairnSeal => true
  | .queueOverflowRecord => true
  | .logChainVerify => true
  | .userLoopUpdate _ => true
  | .injectionCaptureDone => true
  | .traceTrigger => true
  | .traceDone _ => true
  | .dmaDescriptorFetched _ _ => true
  | .dmaBeatDone _ _ _ _ => true
  | .dmaWriteback _ _ => true
  | .dmaAccessTimeout _ _ => true
  | .dmaAccessRetry _ _ => true
  | .dmaPacePoll _ _ => true
  | .tamperFire j => decide (j.toNat < 7)
  | .tamperRearm j => decide (j.toNat < 7)
  | .testEnd _ => true
  | .testTripPulseEnd => true
  | .komirHelp => true
  | .komirId => true
  | .komirStatus => true
  | .komirBaud _ => true
  | .komirEcho _ => true
  | .komirUnlockNonce => true
  | .komirUnlockToken _ _ => true
  | .komirLock => true
  | .komirCaps => true
  | .komirLog _ _ => true
  | .komirSlice _ => true
  | .komirBay _ => true
  | .komirPins => true
  | .komirTime => true
  | .komirSupv => true
  | .komirWmk _ _ _ _ _ _ _ => true
  | .komirTest _ => true
  | .komirLoop _ _ => true
  | .komirRestartWarm => true
  | .komirRestartCold => true
  | .komirFwd _ _ => true
  | .komirFwe => true
  | .komirBreak => true
  | .komirIdleTimeout => true
  | .komirNonceExpiry => true
  | .bootComplete => true
  | .railsGood r => r.wf
  | .supvLockstepRestartDone => true
  | .clockFailure _ => true
  | .pcieLinkTrained => true
  | .pcieLinkLost => true
  | .discardedFrameRx _ _ _ => true
  | .ptpFollowUpRx _ _ => true
  | .energyCountersSave => true
  | .memTEnd _ => true
  | .riHoldEnd _ => true
  | .dieToDieLinkRetry _ => true
  | .komirSyntaxError => true

end Sys2Proof
end

