-- ==== Sys2Proof/Tests/Slice0.lean ====
section
/-! SUPPORT. Own tests: each check of WellFormed refuses an ill-formed term, and each statement with hypotheses has concrete
states and operands that meet them. -/

namespace Sys2Proof.Tests

set_option Elab.async false

open Sys2Proof Machine Safety

/-! ### Helpers -/

/-- The machine just after reset in a mode, its rings served, the Milestone clock running. -/
def inMode (m : Mode) : State :=
  { State.reset with mode := { mode := m, prev := .boot, mbReady := true }, clk := { sclk := true, ms := 7 } }

/-- The command alone in flight. -/
def posted (c : Cmd) (s : State) : State := { s with host := { s.host with inflight := [{ cmd := c }] } }

/-- A command entry: its code, unit, buffer address, buffer length and words of ARGS. -/
def entry (code unit : Nat) (buf len : Nat) (args : List (Nat × Nat)) : Cmd :=
  consoleCmd code unit ([(8, buf % 2 ^ 32), (12, buf / 2 ^ 32), (0x10, len)] ++ args)

/-- Bytes of mailbox memory from its address 0. -/
def withBlock (b : Bytes) (s : State) : State := { s with mem := { s.mem with mbx := s.mem.mbx.writeBytes 0 b } }

def goes (j : Cmd → State → Judge) (p : Cmd → State → Bool) (c : Cmd) (s : State) : Bool :=
  let t := posted c s
  served t && findInFlight t c == some { cmd := c } && mayStart t.host.inflight { cmd := c } &&
    ((j c t).verdict c .notNeeded (cfgRefused t c.code)).isNone && p c (begun c t)

/-- Some command starts, passes its judge, and meets `p` with the state its action runs in. -/
def Meets (j : Cmd → State → Judge) (p : Cmd → State → Bool) : Prop :=
  ∃ (c : Cmd) (s : State) (f : InFlight), Starts c s f ∧ Passes (j c s) c s f ∧ p c (begun c s) = true

theorem meets {j : Cmd → State → Judge} {p : Cmd → State → Bool} (c : Cmd) (s : State) (h : goes j p c s = true) : Meets j p := by
  simp only [goes, Bool.and_eq_true, beq_iff_eq, Option.isNone_iff_eq_none] at h
  exact ⟨c, posted c s, { cmd := c }, ⟨h.1.1.1.1, h.1.1.1.2, rfl, h.1.1.2⟩, h.1.2, h.2⟩

/-- Any command that starts. -/
abbrev anyCmd : Cmd → State → Bool := fun _ _ => true

/-! ### WellFormed refuses -/

/-- The first term is well formed, every other is refused. -/
def onlyFirst : List Instr → Bool
  | [] => false
  | i :: l => i.wf && l.all (fun j => !j.wf)

def goodSlice : SliceIn := { unit := 3, codes := [1, 2], ovr := [0, 127] }

theorem test_wf_slices : onlyFirst
    [.milestoneBoundary { slices := [goodSlice] }, .milestoneBoundary { slices := [{ goodSlice with unit := 51 }] },
     .milestoneBoundary { slices := [{ goodSlice with codes := List.replicate 129 0 }] },
     .milestoneBoundary { slices := [{ goodSlice with ovr := [128] }] }, .milestoneBoundary { slices := [goodSlice, goodSlice] }] = true := by
  decide +kernel

theorem test_wf_calibration : onlyFirst
    [.calPhaseEnd 0 {}, .calPhaseEnd 3 {}, .calPhaseEnd 0 { ofs := [0, 0] }, .calPhaseEnd 0 { gc := [] }] = true := by decide +kernel

theorem test_wf_boot : onlyFirst
    [.rstN {}, .rstN { slots := [true] }, .powerOn { clusters := [8] }, .coldRestart { standbys := [4] }, .railsGood { slices := [{ unit := 51 }] },
     .rstN { clusters := [1, 1] }, .rstN { standbys := [0, 0] }, .rstN { slices := [{ unit := 2 }, { unit := 2 }] }] = true := by decide +kernel

def goodIrig : IrigFrame :=
  { stamp := 0, year := 26, day := 366, second := 86399, parityOk := true, localOfs := 0, quality := 0, leap61 := false, leap59 := false }

theorem test_wf_irig : onlyFirst
    [.irigFrame goodIrig, .irigFrame { goodIrig with day := 0 }, .irigFrame { goodIrig with day := 367 },
     .irigFrame { goodIrig with second := 86401 }, .irigFrame { goodIrig with year := 100 }, .irigFrame { goodIrig with localOfs := -49 }] = true := by
  decide +kernel

def someHead : FrameHead := { port := 0, src := 0x020000000001#48, dst := 0x010CCD040001#48, appid := 0x4000, seq := none, sim := false, stamp := 1000, auth := none }

def goodAsdu : SvAsdu :=
  { svId := [0x53], smpCnt := 0, confRev := 1, smpSynch := 2, vals := List.replicate 8 0, quals := List.replicate 8 {} }

theorem test_wf_sv : onlyFirst
    [.svFrameRx { head := someHead, asdus := [goodAsdu] }, .svFrameRx { head := someHead, asdus := [] },
     .svFrameRx { head := someHead, asdus := List.replicate 9 goodAsdu }, .svFrameRx { head := someHead, asdus := [{ goodAsdu with vals := [0] }] },
     .svFrameRx { head := someHead, asdus := [{ goodAsdu with quals := [] }] },
     .svFrameRx { head := someHead, asdus := [{ goodAsdu with vals := (2 ^ 31) :: List.replicate 7 0 }] },
     .svFrameRx { head := someHead, asdus := [{ goodAsdu with svId := List.replicate 130 0x53 }] }] = true := by decide +kernel

def goodGoose : GooseFrame :=
  { head := { someHead with dst := 0x010CCD010001#48, appid := 1 }, gocbRef := [0x47], datSet := [0x44], confRev := 1, numEntries := 1, stNum := 1, sqNum := 0,
    tal := 1000, ndsCom := false, members := [.bool true] }

theorem test_wf_goose : onlyFirst
    [.gooseFrameRx goodGoose, .gooseFrameRx { goodGoose with numEntries := 2 }, .gooseFrameRx { goodGoose with gocbRef := List.replicate 130 0 },
     .gooseFrameRx { goodGoose with datSet := List.replicate 130 0 }] = true := by decide +kernel

theorem test_wf_registers : onlyFirst
    [.registerWrite 0x0044 (.word 0), .registerWrite 0x0045 (.word 0), .registerWrite 0x0046 (.word 0), .registerWrite 0x0047 (.word 0)] = true := by decide +kernel

theorem test_wf_qspi : onlyFirst
    [.qspiRead 0 4 50, .qspiRead 0 0 50, .qspiRead 0 4 0, .qspiRead 0 4 51, .qspiWrite 0 []] = true ∧ (Instr.qspiWrite 0 [1]).wf = true := by decide +kernel

theorem test_wf_numbers : onlyFirst
    [.railOvervoltage 5, .brownOut 6, .railOvervoltage 6, .deviceLoopUpdate 8 0, .deviceLoopUpdate 10 0, .stageTdExpiry 0 36,
     .stageResetTimeout 0 25, .curveOperate 0 25, .curveResetTimeout 0 25, .inrushHoldEnd 0 3, .plausibilityLasting 0 0 3,
     .plausibilityCleared 0 0 3, .plausibilityEpisodeEnd 0 0 3, .sramEccCorrected 12, .sramEccUncorrectable 12, .lastingFaultDeclared 0 0,
     .lastingFaultCleared 24 0, .transientEpisodeEnd 0 0, .timeSourceSwitch 0, .svPubFrameTx 6, .tamperFire 7, .tamperRearm 7] = true := by decide +kernel

/-! ### States and operands that meet the hypotheses of the statements -/

theorem witness_stepRunsFront : (∃ (c : Instr) (cs : List Instr) (s : State), s.pending = c :: cs) ∧ (∃ s : State, s.pending = []) :=
  ⟨⟨.cycleFrameEnd, [], { State.reset with pending := [.cycleFrameEnd] }, rfl⟩, State.reset, rfl⟩

theorem witness_stepKeepsSound : ∃ s : State, Sound s := ⟨State.reset, by constructor <;> decide⟩

theorem witness_seqNeverFalls : (∃ s t : State, step s = .next t) ∧ (∃ s : State, sealing s = true ∧ s.log.queue ≠ []) :=
  ⟨⟨State.reset, _, rfl⟩, { inMode .service with log := { queue := [{}] } }, by decide⟩

/-- A capability request, one whose token is wrong, one whose unit is absent. -/
def capsCmd : Cmd := entry 0x0101 0 0x1001 256 []

theorem witness_commandCourse :
    (∃ s : State, served s = false) ∧
    (∃ (c : Cmd) (s : State) (f : InFlight), findInFlight s c = some f ∧ f.started = true) ∧
    (∃ (c : Cmd) (s : State) (f : InFlight), findInFlight s c = some f ∧ f.started = false ∧ mayStart s.host.inflight f = false) ∧
    (∃ (c : Cmd) (s : State) (f : InFlight) (r : Reply), Starts c s f ∧ ({} : Judge).verdict c f.token (cfgRefused s c.code) = some r) ∧
    (∃ (c : Cmd) (s : State) (f : InFlight) (r : Reply), Starts c s f ∧
      (bayJudge c [(0x14, 0, 3)] [(decide (5 < c.at_ 0x14 0 3), 0x14)] s).verdict c f.token (cfgRefused s c.code) = some r) ∧
    (∃ (c : Cmd) (s : State) (f : InFlight) (r : Reply), Starts c s f ∧ (gridJudge c s).verdict c f.token (cfgRefused s c.code) = some r) ∧
    (∃ (c : Cmd) (s : State) (f : InFlight) (r : Reply), Starts c s f ∧ (fwLoadJudge c s).verdict c f.token (cfgRefused s c.code) = some r) := by
  have go : ∀ (c : Cmd) (s : State) (f : InFlight), s.host.inflight = [f] → f.cmd = c → f.started = false → served s = true → f.order = 0 → Starts c s f := by
    intro c s f h1 h2 h3 h4 _
    refine ⟨h4, ?_, h3, ?_⟩
    · simp [findInFlight, h1, InFlight.is, h2]
    · simp [mayStart, h1, blocks]
  refine ⟨⟨State.reset, by decide⟩, ?_, ?_, ?_, ?_, ?_, ?_⟩
  · exact ⟨capsCmd, { inMode .service with host := { inflight := [{ cmd := capsCmd, started := true }] } }, { cmd := capsCmd, started := true }, by decide +kernel, rfl⟩
  · exact ⟨capsCmd, { inMode .service with host := { inflight :=
      [{ cmd := entry 0x0102 0 0 0 [(0x14, 2)], order := 0 }, { cmd := capsCmd, order := 1 }] } }, { cmd := capsCmd, order := 1 }, by decide +kernel, rfl, by decide +kernel⟩
  · exact ⟨capsCmd, { inMode .service with host := { inflight := [{ cmd := capsCmd, token := .wrong }] } }, _, Reply.fail St.auth 2,
      go _ _ _ rfl rfl rfl (by decide) rfl, by decide +kernel⟩
  · exact ⟨entry 0x0302 64 0 0 [], { inMode .service with host := { inflight := [{ cmd := entry 0x0302 64 0 0 [] }] } }, _, Reply.fail St.absent 0,
      go _ _ _ rfl rfl rfl (by decide) rfl, by decide +kernel⟩
  · exact ⟨entry 0x0A01 0 0 0 [], { inMode .safe with host := { inflight := [{ cmd := entry 0x0A01 0 0 0 [] }] } }, _, Reply.refuse Rsn.mode,
      go _ _ _ rfl rfl rfl (by decide) rfl, by decide +kernel⟩
  · exact ⟨entry 0x1201 0 0 0 [(0x14, 1)], { inMode .service with host := { inflight := [{ cmd := entry 0x1201 0 0 0 [(0x14, 1)] }] } }, _, Reply.range 0x14,
      go _ _ _ rfl rfl rfl (by decide) rfl, by decide +kernel⟩

/-- A pin asserted. -/
def tripped (s : State) : State := { s with trip := { s.trip with driven := true, pins := s.trip.pins.set 0 { level := true } } }

theorem witness_sysCommands : Meets (fun _ _ => {}) anyCmd ∧
    Meets restartJudge (fun c b => c.at_ 0x14 0 2 == 2 && anyTrip b) ∧ Meets restartJudge (fun c b => c.at_ 0x14 0 2 == 2 && !anyTrip b) ∧
    Meets restartJudge (fun c _ => c.at_ 0x14 0 2 == 1) :=
  ⟨meets capsCmd (inMode .service) (by decide +kernel), meets (entry 0x0104 0 0 0 [(0x14, 2)]) (tripped (inMode .service)) (by decide +kernel),
   meets (entry 0x0104 0 0 0 [(0x14, 2)]) (inMode .service) (by decide +kernel), meets (entry 0x0104 0 0 0 [(0x14, 1)]) (inMode .service) (by decide +kernel)⟩

def toMode (t : Nat) : Cmd := entry 0x0102 0 0 0 [(0x14, t)]

theorem witness_modeRequests :
    Meets sysModeJudge (fun c b => b.mode.mode == .configure && targetMode (c.at_ 0x14 0 4) != .configure && !startBarred b) ∧
    Meets sysModeJudge (fun c b => b.mode.mode == .configure && targetMode (c.at_ 0x14 0 4) == .configure) ∧
    Meets sysModeJudge (fun c b => b.mode.mode == .configure && targetMode (c.at_ 0x14 0 4) == .service && startBarred b) ∧
    Meets sysModeJudge (fun c b => b.mode.mode == .commission && targetMode (c.at_ 0x14 0 4) == .service) ∧
    Meets sysModeJudge (fun c b => b.mode.mode == .degraded && targetMode (c.at_ 0x14 0 4) == .service) ∧
    Meets sysModeJudge (fun c b => b.mode.mode == .service && targetMode (c.at_ 0x14 0 4) == .configure && !anyTrip b) ∧
    Meets sysModeJudge (fun c b => b.mode.mode == .service && targetMode (c.at_ 0x14 0 4) == .configure && anyTrip b) ∧
    (∃ s : State, s.mode.deg ≠ 0) :=
  ⟨meets (toMode 3) (inMode .configure) (by decide +kernel), meets (toMode 2) (inMode .configure) (by decide +kernel),
   meets (toMode 4) { inMode .configure with mode := { (inMode .configure).mode with safe := 1 } } (by decide +kernel),
   meets (toMode 4) (inMode .commission) (by decide +kernel), meets (toMode 4) (inMode .degraded) (by decide +kernel),
   meets (toMode 2) (inMode .service) (by decide +kernel), meets (toMode 2) (tripped (inMode .service)) (by decide +kernel),
   { inMode .service with mode := { mode := .service, deg := 1 } }, by decide⟩

/-- `n` bytes with values at byte offsets. -/
def blk (n : Nat) (l : List (Nat × Nat)) : Bytes := leBytes n (l.foldl (fun a x => a + x.2 * 2 ^ (8 * x.1)) 0)

theorem witness_tableCommands :
    Meets tblBaseJudge (fun c _ => c.unit == 5 && c.at_ 0x1C 0 16 == 32) ∧ Meets tblBaseJudge (fun c _ => c.unit == 0 && c.at_ 0x1C 0 16 == 0) ∧
    Meets (fun _ s => { modeBad := !s.mode.mode.configurable, used := [(0x14, 0, 6), (0x18, 0, 32)] }) anyCmd ∧
    Meets tblReadJudge (fun c _ => readPlace c == some (6, 383)) ∧ Meets tblReadJudge (fun c _ => readPlace c == some (1, 0)) ∧
    (∃ s : State, s.tbl.job = none) :=
  ⟨meets (entry 0x0201 5 0 0 [(0x14, 1), (0x1C, 32)]) (inMode .configure) (by decide +kernel),
   meets (entry 0x0201 0 0 0 [(0x14, 1)]) (inMode .configure) (by decide +kernel),
   meets (entry 0x0202 0 0 0 [(0x14, 0x3F)]) (inMode .configure) (by decide +kernel),
   meets (entry 0x0203 0 1 512 [(0x14, 0x83F5)]) (inMode .service) (by decide +kernel),
   meets (entry 0x0203 1 1 64 []) (inMode .service) (by decide +kernel), State.reset, rfl⟩

/-- A TBL.SYNC of one entry of the Loop Table, with the table placed where the mailbox memory or, in DDR4, nothing is. -/
def syncing (place : TblBase) : State :=
  { inMode .configure with tbl := { base := List.replicate 6 place, job := some { cmd := { ring := 0, slot := 0, tag := 0 }, mask := 32, first := 10, count := 1, base := List.replicate 6 place } } }

theorem witness_syncEnds :
    (∃ (s : State) (j : SyncJob), s.tbl.job = some j ∧ (syncPasses (setTbl (fun t => { t with job := none }) s) j 1400 []).ok = false) ∧
    (∃ (s : State) (j : SyncJob), s.tbl.job = some j ∧ (syncPasses (setTbl (fun t => { t with job := none }) s) j 1400 []).ok = true ∧
      (syncPasses (setTbl (fun t => { t with job := none }) s) j 1400 []).staged = []) :=
  ⟨⟨syncing { placed := true, ddr := false, count := 32 }, _, rfl, by decide +kernel⟩, ⟨syncing {}, _, rfl, by decide +kernel, by decide +kernel⟩⟩

/-- Bay 0 with groups 1 and 2 present. -/
def grouped : State :=
  { inMode .configure with tbl :=
    { bay := [{ bytes := blk 512 [(0, 1), (0x50, 1), (0x58, 1)] }], group := [{}, { bytes := blk 4 [(0, 1)] }, { bytes := blk 4 [(0, 1)] }] } }

def groupJudge (c : Cmd) (s : State) : Judge := bayJudge c [(0x14, 0, 3)] [(decide (5 < c.at_ 0x14 0 3), 0x14)] s

theorem witness_bayCommands :
    Meets groupJudge (fun c b => !groupPresent b c.unit (c.at_ 0x14 0 3)) ∧
    Meets groupJudge (fun c b => groupPresent b c.unit (c.at_ 0x14 0 3) && c.at_ 0x14 0 3 == (bayProt b c.unit).group && !groupPending b c.unit) ∧
    Meets groupJudge (fun c b => groupPresent b c.unit (c.at_ 0x14 0 3) && c.at_ 0x14 0 3 != (bayProt b c.unit).group) ∧
    Meets groupJudge (fun c _ => c.unit == 63 && c.at_ 0x14 0 3 == 5) ∧
    Meets (fun c s => bayJudge c [(0x14, 0, 6)] [] s) (fun c _ => c.at_ 0x14 0 6 == 0) ∧
    Meets (fun c s => bayJudge c [(0x14, 0, 6)] [] s) (fun c _ => c.at_ 0x14 0 6 == 63) ∧
    (∃ (a : PendAct) (bay v : Nat), a.act = .bayBeh bay v) :=
  ⟨meets (entry 0x0301 0 0 0 []) grouped (by decide +kernel),
   meets (entry 0x0301 0 0 0 [(0x14, 1)]) { grouped with prot := { bays := [{ group := 1 }] } } (by decide +kernel),
   meets (entry 0x0301 0 0 0 [(0x14, 2)]) grouped (by decide +kernel), meets (entry 0x0302 63 0 0 [(0x14, 5)]) grouped (by decide +kernel),
   meets (entry 0x0304 0 0 0 []) grouped (by decide +kernel), meets (entry 0x0304 0 0 0 [(0x14, 63)]) grouped (by decide +kernel),
   { cmd := consoleRef, act := .bayBeh 0 5 }, 0, 5, rfl⟩

/-- Bay 0 enabled and running its cycle in SERVICE. -/
def running : State :=
  { inMode .service with
    tbl := { bay := [{ bytes := blk 512 [(0, 1)] }] }
    prot := { bays := { cur := { ran := true }, rel := { ran := true } } :: List.replicate 63 {}, inCycle := true } }

theorem witness_bayReads :
    Meets readJudge (fun c b => readUnit b c.unit == .bay 0 && (runningBays b).contains 0 && (bayProt b 0).rel.ran) ∧
    Meets readJudge (fun c b => readUnit b c.unit == .bay 63 && !(runningBays b).contains 63) ∧
    Meets readJudge (fun c b => readUnit b c.unit == .section_ 15) ∧ Meets readJudge (fun c b => readUnit b c.unit == .trip) ∧
    Meets readJudge (fun c b => readUnit b c.unit == .loop 31 && returns c 128 b) ∧ Meets readJudge (fun c b => readUnit b c.unit == .loop 0 && !returns c 128 b) :=
  ⟨meets (entry 0x0303 0 1 2048 []) running (by decide +kernel), meets (entry 0x0303 63 1 2048 []) running (by decide +kernel),
   meets (entry 0x0303 0x010F 1 64 []) running (by decide +kernel), meets (entry 0x0303 0x0200 1 800 []) running (by decide +kernel),
   meets (entry 0x0303 0x031F 1 128 []) running (by decide +kernel), meets (entry 0x0303 0x0300 1 127 []) running (by decide +kernel)⟩

/-- Cluster 0's chain stopped. -/
def chainStopped : State := { inMode .configure with filt := { chains := { running := false } :: List.replicate 7 {} } }

/-- Lanes 0 and 1 of bay 0 enabled, the second with a user set in stage 3 whose delay differs. -/
def unequal : State :=
  { chainStopped with
    filt := { chains := { running := false, user := [{}, { c := [1], delay := 8000 }, {}] } :: List.replicate 7 {} }
    tbl := { lane := [{ bytes := blk 64 [(0, 1)] }, { bytes := blk 64 [(0, 1), (0x24, 2)] }] } }

/-- A stage-3 set whose one coefficient stands in its middle. -/
def midTap : Bytes := blk 252 [(124, 0x400000)]

theorem midTap_delay : 0 ≤ (gainDelay (coefsOf midTap 63) 384).2 ∧ (gainDelay (coefsOf midTap 63) 384).2 ≤ 62 * 256 := by
  have h (x : Int) (d : Nat) : roundOpen 26 x d = x / d ∨ roundOpen 26 x d = x / d + 1 := by
    unfold roundOpen; split
    · simp
    · split <;> simp
  have e : (gainDelay (coefsOf midTap 63) 384).2 =
      roundOpen 26 (-(angleOf (response (coefsOf midTap 63) 384).2 (response (coefsOf midTap 63) 384).1) * (256 * 384 : Nat)) (2 ^ 48) := by
    unfold gainDelay; generalize response (coefsOf midTap 63) 384 = r; obtain ⟨x, y⟩ := r; rfl
  have lo : 0 ≤ -(angleOf (response (coefsOf midTap 63) 384).2 (response (coefsOf midTap 63) 384).1) * (256 * 384 : Nat) / ((2 ^ 48 : Nat) : Int) := by
    decide +kernel
  have hi : -(angleOf (response (coefsOf midTap 63) 384).2 (response (coefsOf midTap 63) 384).1) * (256 * 384 : Nat) / ((2 ^ 48 : Nat) : Int) + 1 ≤ 62 * 256 := by
    decide +kernel
  rw [e]; rcases h (-(angleOf (response (coefsOf midTap 63) 384).2 (response (coefsOf midTap 63) 384).1) * (256 * 384 : Nat)) (2 ^ 48) with h | h <;> omega

theorem witness_filterCommands :
    Meets (fun c s => filtJudge c [] s) (fun c b => chainLatest b c.unit) ∧ Meets (fun c s => filtJudge c [] s) (fun c b => !chainLatest b c.unit) ∧
    Meets (fun c s => filtJudge c [(0x14, 0, 1)] s) (fun c b => chainLatest b c.unit) ∧
    Meets (fun c s => filtJudge c [(0x14, 0, 1)] s) (fun c b => !chainLatest b c.unit && (startObstacle b sectionNames c.unit false).isNone) ∧
    Meets coefJudge (fun c b => c.at_ 0x14 0 4 == 1 && match readBlock c 76 b with
      | .ok blk => (List.range 19).all (fun i => fld blk (4 * i) 24 8 == 0 && (coefsOf blk 19).getD i 0 == (coefsOf blk 19).getD (18 - i) 0)
      | .error _ => false) ∧
    (∃ (c : Cmd) (s : State) (f : InFlight) (x : Bytes), Starts c s f ∧ Passes (coefJudge c s) c s f ∧ c.at_ 0x14 0 4 = 3 ∧
      readBlock c 252 (begun c s) = .ok x ∧ (∀ i, i < 63 → fld x (4 * i) 24 8 = 0) ∧
      2 ^ 29 ≤ (gainDelay (coefsOf x 63) 384).1 ∧ 0 ≤ (gainDelay (coefsOf x 63) 384).2 ∧ (gainDelay (coefsOf x 63) 384).2 ≤ 62 * 256) :=
  ⟨meets (entry 0x0401 7 0 0 []) (inMode .configure) (by decide +kernel), meets (entry 0x0401 0 0 0 []) chainStopped (by decide +kernel),
   meets (entry 0x0402 1 0 0 []) chainStopped (by decide +kernel), meets (entry 0x0402 0 0 0 []) chainStopped (by decide +kernel),
   meets (entry 0x0403 0 1 76 [(0x14, 0x11)]) (withBlock (blk 76 [(0, 5), (36, 0x10000), (72, 5)]) chainStopped) (by decide +kernel),
   by
    obtain ⟨c, s, f, h1, h2, h3⟩ := meets (j := coefJudge) (p := fun c b => c.at_ 0x14 0 4 == 3 && (match readBlock c 252 b with | .ok x => x == midTap | .error _ => false))
      (entry 0x0403 0 1 252 [(0x14, 0x23)]) (withBlock midTap chainStopped) (by decide +kernel)
    simp only [Bool.and_eq_true, beq_iff_eq] at h3
    obtain ⟨h3, h4⟩ := h3
    split at h4
    case h_2 => cases h4
    rename_i x hx
    rw [beq_iff_eq] at h4; subst h4
    exact ⟨c, s, f, midTap, h1, h2, h3, hx, by decide +kernel, by decide +kernel, midTap_delay.1, midTap_delay.2⟩⟩

theorem witness_filterEffects :
    (∃ (a : PendAct) (n : Nat) (s : State), a.act = .filtStop n ∧ n < s.filt.chains.length ∧ ∃ l, l < s.filt.lanes.length ∧ l / 64 = n) ∧
    (∃ (a : PendAct) (n : Nat) (s : State), a.act = .filtStart n true ∧ n < s.filt.chains.length) :=
  ⟨⟨{ cmd := consoleRef, act := .filtStop 7 }, 7, State.reset, rfl, by decide, 511, by decide +kernel, by decide⟩,
   ⟨{ cmd := consoleRef, act := .filtStart 0 true }, 0, State.reset, rfl, by decide⟩⟩


theorem witness_blockLoads :
    Meets auxJudge (fun c b => (blockRange (auxRange (c.at_ 0x14 0 7) ((auxBlock c b).toOption.getD []))).isNone && (auxBlock c b).isOk) ∧
    Meets auxJudge (fun c b => c.at_ 0x14 0 7 == 2 && (auxBlock c b).isOk) ∧
    Meets svPubJudge (fun c b => c.unit == 5 && (readBlock c 128 b).isOk) ∧
    Meets svPubJudge (fun c b => c.unit == 0x0100 && (readBlock c 64 b).isOk) ∧
    Meets (fun c s => { absent := decide (s.variant.goosePubs ≤ c.unit) }) (fun c b => c.unit == 63 && (readBlock c 512 b).isOk) ∧
    Meets (fun _ _ => {}) (fun c b => (readBlock c 64 b).isOk && (blockRange (timeReserved (blk 64 []))).isNone) ∧
    (∃ a : PendAct, a.act = .portSet []) ∧ (∃ (a : PendAct) (s : State), a.act = .svPub 5 [] ∧ 5 < s.net.svPubs.length) ∧
    (∃ (a : PendAct) (s : State), a.act = .goosePub 63 [] ∧ 63 < s.net.goosePubs.length) ∧
    (∃ (a : PendAct) (cfg : AuxCfg), a.act = .auxSeq cfg ∧ cfg.entries ≠ []) ∧ (∃ (a : PendAct) (cfg : TimeCfg), a.act = .timeSource cfg) :=
  ⟨meets (entry 0x0501 0 0 0 []) (inMode .configure) (by decide +kernel), meets (entry 0x0501 0 1 16 [(0x14, 2)]) (inMode .configure) (by decide +kernel),
   meets (entry 0x0601 5 1 128 []) (inMode .configure) (by decide +kernel), meets (entry 0x0601 0x0100 1 64 []) (inMode .configure) (by decide +kernel),
   meets (entry 0x0701 63 1 512 []) (inMode .configure) (by decide +kernel), meets (entry 0x0B02 0 1 64 []) (inMode .configure) (by decide +kernel),
   ⟨{ cmd := consoleRef, act := .portSet [] }, rfl⟩, ⟨{ cmd := consoleRef, act := .svPub 5 [] }, State.reset, rfl, by decide⟩,
   ⟨{ cmd := consoleRef, act := .goosePub 63 [] }, State.reset, rfl, by decide⟩,
   ⟨{ cmd := consoleRef, act := .auxSeq { entries := [⟨16, 0, 0⟩] } }, _, rfl, by decide⟩, { cmd := consoleRef, act := .timeSource {} }, _, rfl⟩

/-- A user curve of two points, 1.01 for 2 s and 40 for 0.001 s. -/
def goodCurve : Bytes := blk 272 [(0, 2), (2, 1), (0x10, 0x1028F), (0x14, 2000000), (0x18, 40 * 65536), (0x1C, 1000)]

def curveJudge (c : Cmd) (s : State) : Judge := { absent := c.unit != 0x00FF && decide (dieCount s.variant ≤ c.unit), used := [(0x14, 0, 2)] }

theorem witness_curveLoads :
    Meets curveJudge (fun c b => !(readBlock c 272 b).isOk) ∧
    Meets curveJudge (fun c b => match readBlock c 272 b with | .ok x => (curveBad x).isSome | .error _ => false) ∧
    Meets curveJudge (fun c b => c.unit == 0x00FF && match readBlock c 272 b with | .ok x => (curveBad x).isNone | .error _ => false) ∧
    (∃ s : State, slotNamed s 0 3 = true) :=
  ⟨meets (entry 0x0801 0 1 271 []) (inMode .configure) (by decide +kernel), meets (entry 0x0801 1 1 272 []) (inMode .configure) (by decide +kernel),
   meets (entry 0x0801 0x00FF 1 272 [(0x14, 3)]) (withBlock goodCurve (inMode .configure)) (by decide +kernel),
   { inMode .service with tbl := { bay := [{ bytes := blk 512 [(0, 1), (0x48, 1)] }], group := [{ bytes := blk 4096 [(0, 1), (0x240, 1), (0x24C, 0x0B)] }] } }, by decide +kernel⟩

theorem witness_readingCommands :
    Meets (fun _ _ => {}) anyCmd ∧
    Meets (fun c _ => { range := [(c.unit == 0 || decide (15 < c.unit), 0x04)] }) (fun c _ => c.unit == 15) ∧
    Meets (fun c s => { absent := decide (0x200 ≤ c.unit) && decide (c.unit ≤ 0x20F) && decide (s.variant.sections ≤ c.unit - 0x200)
                        range := [((supvPart s c.unit).isNone, 4)] }) (fun c _ => c.unit == 0x20F) ∧
    Meets (fun c s => logicJudge c (fun _ => true) [] [] s) (fun c _ => c.unit == 63) ∧
    Meets (fun c s => { absent := recAbsent s c.unit, used := (0x14, 0, 2) :: (if c.at_ 0x14 0 2 ≤ 1 then [(0x18, 0, 32)] else [])
                        range := [(c.at_ 0x14 0 2 == 2 && c.unit == 0x00FF, 0x04), (c.at_ 0x14 0 2 == 3, 0x14)] })
      (fun c b => c.at_ 0x14 0 2 == 1 && ((recsOf b (recUnits b c.unit)).find? (fun x => x.2.id == c.at_ 0x18 0 32)).isSome) ∧
    Meets (fun c s => { absent := !(decide (c.unit < s.variant.svSubs) || (decide (0x0100 ≤ c.unit) && decide (c.unit < 0x0106))) })
      (fun c b => c.unit == 255 && returns c 64 b) ∧
    Meets (fun c s => { absent := !(decide (c.unit < s.variant.gooseSubs) || (decide (0x0100 ≤ c.unit) && decide (c.unit < 0x0100 + s.variant.goosePubs))) })
      (fun c b => c.unit == 0x013F && returns c 64 b) :=
  ⟨meets capsCmd (inMode .service) (by decide +kernel), meets (entry 0x1302 15 1 64 []) (inMode .service) (by decide +kernel),
   meets (entry 0x1501 0x20F 1 64 []) (inMode .service) (by decide +kernel), meets (entry 0x0907 63 1 4352 []) (inMode .service) (by decide +kernel),
   meets (entry 0x0C04 3 1 256 [(0x14, 1), (0x18, 9)])
     { inMode .service with rec_ := { regions := List.replicate 3 {} ++ [{ recs := [{ id := 9 }] }] } } (by decide +kernel),
   meets (entry 0x0602 255 1 64 []) (inMode .service) (by decide +kernel), meets (entry 0x0702 0x013F 1 64 []) (inMode .service) (by decide +kernel)⟩

/-- A program image of instructions and its length and checksum. -/
def progOf (n : Nat) (code : Nat) : Bytes :=
  let h := blk 0x3C [(0, 1), (4, n), (0x10, 1), (0x38, 64 + 4 * n)]
  let t := leBytes (4 * n) code
  h ++ leBytes 4 (crc32c (h ++ t)).toNat ++ t

/-- One END. -/
def endProg : Bytes := progOf 1 0xFF000000

/-- Bay 0's inactive bank holds an image. -/
def banked (k : Bank) (m : Mode) : State := { inMode m with prot := { bays := { logic := { banks := [{}, k] } } :: List.replicate 63 {} } }

def logicCmds (c : Cmd) (s : State) : Judge := logicJudge c logicModes [] [] s

theorem witness_logicCommands :
    Meets logicCmds (fun c b => let img := memRead b c.bufSpace c.bufAddr c.room
      reachable b c.bufSpace c.bufAddr c.room && decide (64 ≤ c.room) && u16At img 0 == 1 && u32At img 0x38 == c.room && pLength img == c.room &&
        (crc32c (img.take 0x3C ++ img.drop 0x40)).toNat == u32At img 0x3C && decide (poolUsed b c.unit + bankKib { image := img } ≤ 512)) ∧
    Meets logicCmds (fun c b => (idleBank (logicBay b c.unit)).image == []) ∧
    Meets logicCmds (fun c b => (verify (idleBank (logicBay b c.unit)).image).bad.isSome && (idleBank (logicBay b c.unit)).image != []) ∧
    Meets logicCmds (fun c b => (verify (idleBank (logicBay b c.unit)).image).bad.isNone && (idleBank (logicBay b c.unit)).image != []) ∧
    Meets logicCmds (fun c b => (idleBank (logicBay b c.unit)).verified &&
      loadsWithin b c.unit (idleBank (logicBay b c.unit)).image (idleBank (logicBay b c.unit)).wcet logicBudget) ∧
    Meets logicCmds (fun c b => (idleBank (logicBay b c.unit)).verified &&
      !loadsWithin b c.unit (idleBank (logicBay b c.unit)).image (idleBank (logicBay b c.unit)).wcet logicBudget) ∧
    Meets (fun c s => logicJudge c logicModes (forceUsed c false) (forceRange c) s) (fun c b =>
      !(forceOf c).ident && decide ((logicBay b c.unit).forces.length < 64)) ∧
    Meets (fun c s => logicJudge c logicModes (forceUsed c true) (if c.at_ 0x14 2 1 == 1 then [] else forceRange c) s) (fun c _ => c.at_ 0x14 2 1 == 1) ∧
    Meets (fun c s => { absent := c.unit != 0x00FF && decide (s.variant.bays ≤ c.unit)
                        modeBad := !(s.mode.mode == .commission || s.mode.mode == .service || s.mode.mode == .degraded)
                        used := [(0x14, 0, 2)], range := [(c.at_ 0x14 0 2 == 0 || c.at_ 0x14 0 2 == 3, 0x14)] }) (fun c _ => c.unit == 0x00FF) ∧
    (∃ (b : Nat) (s : State), b < s.prot.bays.length) :=
  ⟨meets (entry 0x0901 0 1 68 []) (withBlock endProg (inMode .service)) (by decide +kernel),
   meets (entry 0x0902 63 0 0 []) (inMode .service) (by decide +kernel),
   meets (entry 0x0902 0 0 0 []) (banked { image := progOf 1 0x08000000 } .service) (by decide +kernel),
   meets (entry 0x0902 0 0 0 []) (banked { image := endProg } .service) (by decide +kernel),
   meets (entry 0x0903 0 0 0 []) (banked { image := endProg, verified := true, wcet := 59520 } .service) (by decide +kernel),
   meets (entry 0x0903 0 0 0 []) (banked { image := endProg, verified := true, wcet := 59521 } .service) (by decide +kernel),
   meets (entry 0x0904 0 0 0 [(0x14, 2), (0x18, 0x500000)]) (inMode .service) (by decide +kernel),
   meets (entry 0x0905 0 0 0 [(0x14, 4)]) (inMode .service) (by decide +kernel),
   meets (entry 0x0906 0x00FF 0 0 [(0x14, 2)]) (inMode .service) (by decide +kernel), 63, State.reset, by decide⟩

theorem witness_gridAndTimeCommands :
    Meets gridJudge (fun c b => (gridCfgOf c).gmode == 2 && (gridLatest b).gmode != 2) ∧ Meets gridJudge (fun c _ => (gridCfgOf c).gmode == 0) ∧
    Meets syncJudge (fun _ b => (presentErr b.grid).isNone) ∧
    Meets syncJudge (fun _ b => presentErr b.grid == some (-2) && b.grid.cfg.syncSrc == 1 && decide (2 ≤ (frameMove b.clk.len).natAbs)) ∧
    Meets syncJudge (fun c b => c.at_ 0x14 0 2 == 1 && presentErr b.grid == some 10000000000000000 && decide ((frameMove b.clk.len).natAbs < 10000000000000000)) ∧
    Meets syncJudge (fun c b => c.at_ 0x14 0 2 == 2 && presentErr b.grid == some 10000000000000000 && decide ((frameMove b.clk.len).natAbs < 10000000000000000)) ∧
    Meets stepJudge (fun c _ => c.at_ 0x14 0 2 == 1) ∧ Meets stepJudge (fun c _ => c.at_ 0x14 0 2 == 2 && c.at_ 0x20 0 30 == 999999999) ∧
    Meets stepJudge (fun c _ => c.at_ 0x14 0 2 == 3) ∧
    (∃ (s t : State) (d : Int), applyTimeStep 3 5 s = (some d, t)) ∧ (∃ (s t : State) (d : Int), applyTimeStep 1 0 s = (some d, t)) ∧
    (∃ (s t : State) (d : Int), applyTimeStep 2 5 s = (some d, t)) ∧ (∃ s : State, s.time.pending = none) :=
  ⟨meets (entry 0x0A01 0 0 0 [(0x14, 0x320032), (0x20, 0xA0032)]) (inMode .configure) (by decide +kernel), meets (entry 0x0A01 0 0 0 [(0x14, 0x320000), (0x20, 0xA0032)]) (inMode .configure) (by decide +kernel),
   meets (entry 0x0A02 0 0 0 [(0x14, 1)]) (inMode .configure) (by decide +kernel),
   meets (entry 0x0A02 0 0 0 [(0x14, 1)]) { inMode .configure with grid := { err := some (-2), cfg := { syncSrc := 1 } } } (by decide +kernel),
   meets (entry 0x0A02 0 0 0 [(0x14, 1)]) { inMode .configure with grid := { err := some 10000000000000000, cfg := { syncSrc := 1 } } } (by decide +kernel),
   meets (entry 0x0A02 0 0 0 [(0x14, 2)]) { inMode .configure with grid := { err := some 10000000000000000, cfg := { syncSrc := 1 } } } (by decide +kernel),
   meets (entry 0x0B01 0 0 0 [(0x14, 1)]) (inMode .configure) (by decide +kernel),
   meets (entry 0x0B01 0 0 0 [(0x14, 2), (0x20, 999999999)]) (inMode .configure) (by decide +kernel),
   meets (entry 0x0B01 0 0 0 [(0x14, 3), (0x18, 5)]) (inMode .configure) (by decide +kernel),
   ⟨State.reset, _, 5, rfl⟩, ⟨{ State.reset with time := { pending := some (-7) } }, _, 7, rfl⟩, ⟨State.reset, _, _, rfl⟩, State.reset, rfl⟩

def recJudge (c : Cmd) (s : State) : Judge := { absent := recAbsent s c.unit }

/-- An arm block: T0 and T1, 2 s before and 3 s after, areas of 64 MiB and of 4 GiB. -/
def armBlock : Bytes := blk 128 [(0, 3), (4, 100), (6, 200), (8, 1), (10, 1), (0x10, 0), (0x18, 65536), (0x20, 67108864), (0x28, 1048576)]

theorem witness_recordCommands :
    Meets recJudge (fun c b => !(readBlock c 128 b).isOk) ∧
    Meets recJudge (fun c b => match readBlock c 128 b with
      | .ok x => (armRange b (recUnits b c.unit) x).isNone && !(recUnits b c.unit).any (recUnitRuns b) &&
          (armsOf b (recUnits b c.unit) x).all (fun y => decide (histKibNeed y.2 ≤ y.2.histKib) && !ringsSmall y.2)
      | .error _ => false) ∧
    Meets recJudge (fun c b => (recUnits b c.unit).any (recUnitRuns b) && !((recUnits b c.unit).filter (fun r => (region b r).armed.isSome)).isEmpty) ∧
    Meets recJudge (fun c b => (recUnits b c.unit).filter (recUnitRuns b) == []) ∧
    Meets (fun c s => { absent := decide (s.variant.regions ≤ c.unit), used := [(0x14, 0, 32), (0x18, 0, 1)] }) (fun c b => (findRec b c.unit (c.at_ 0x14 0 32)).isNone) ∧
    Meets (fun c s => { absent := decide (s.variant.regions ≤ c.unit), used := [(0x14, 0, 32), (0x18, 0, 1)] }) (fun c b =>
      match findRec b c.unit (c.at_ 0x14 0 32) with | some x => x.state == .open_ | none => false) ∧
    Meets (fun c s => { absent := decide (s.variant.regions ≤ c.unit), used := [(0x14, 0, 32), (0x18, 0, 1)] }) (fun c b =>
      match findRec b c.unit (c.at_ 0x14 0 32) with | some x => x.state != .open_ | none => false) ∧
    Meets (fun _ _ => { used := [(0x14, 0, 32), (0x18, 0, 3)] }) (fun c b =>
      match ((recsOf b (List.range 4)).map (·.2)).find? (fun x => x.id == c.at_ 0x14 0 32) with
      | some x => x.state != .open_ && x.red / 2 ^ c.at_ 0x18 0 2 % 2 == 1 | none => false) :=
  let kept (x : RecState) : State := { inMode .service with rec_ := { regions := [{ armed := some { block := armBlock, hist := 0, histKib := 0, store := 0, storeKib := 0, bays := [], quals := [] }, recs := [{ id := 9, state := x, red := 8 }] }] } }
  ⟨meets (entry 0x0C01 0 1 127 []) (inMode .configure) (by decide +kernel),
   meets (entry 0x0C01 0 1 128 []) (withBlock armBlock (inMode .configure)) (by decide +kernel),
   meets (entry 0x0C02 0x00FF 0 0 []) (kept .open_) (by decide +kernel), meets (entry 0x0C02 3 0 0 []) (inMode .configure) (by decide +kernel),
   meets (entry 0x0C06 0 0 0 [(0x14, 8)]) (kept .open_) (by decide +kernel), meets (entry 0x0C06 0 0 0 [(0x14, 9)]) (kept .open_) (by decide +kernel),
   meets (entry 0x0C06 0 0 0 [(0x14, 9), (0x18, 1)]) (kept .closed) (by decide +kernel),
   meets (entry 0x0C05 0 1 4096 [(0x14, 9), (0x18, 3)]) (kept .closed) (by decide +kernel)⟩

theorem witness_dmaCommands :
    Meets dmaStartJudge (fun c b => !dmaActive b c.unit && c.unit == 31) ∧ Meets dmaStartJudge (fun c b => dmaActive b c.unit) ∧
    Meets (fun c _ => { range := [(c.unit != 0x00FF && decide (31 < c.unit), 0x04)] }) (fun c b =>
      c.unit == 0x00FF && !((List.range 32).filter (dmaActive b)).isEmpty) ∧
    Meets (fun c _ => { range := [(c.unit != 0x00FF && decide (31 < c.unit), 0x04)] }) (fun c b => decide (32 ≤ c.room) && returns c 32 b && !dmaActive b c.unit) :=
  ⟨meets (entry 0x0D01 31 0 0 [(0x14, 32)]) (inMode .service) (by decide +kernel),
   meets (entry 0x0D01 0 0 0 [(0x14, 32)]) { inMode .service with dma := { ch := { st := .running } :: List.replicate 31 {} } } (by decide +kernel),
   meets (entry 0x0D02 0x00FF 0 0 []) { inMode .service with dma := { ch := { st := .running } :: List.replicate 31 {} } } (by decide +kernel),
   meets (entry 0x0D03 31 1 32 []) (inMode .service) (by decide +kernel)⟩

theorem witness_eventCommands :
    Meets evtReadJudge (fun c _ => decide (c.room < 64)) ∧ Meets evtReadJudge (fun c _ => decide (64 ≤ c.room) && c.at_ 0x1C 0 2 == 1) ∧
    Meets evtReadJudge (fun c b => decide (64 ≤ c.room) && c.at_ 0x1C 0 3 == 4 && returns c 64 b) ∧
    Meets (fun c _ => { range := [(c.unit != 0, 0x04)] }) (fun _ b => decide (b.log.queue.length < 1024)) :=
  ⟨meets (entry 0x0E01 0 0 0 []) (inMode .service) (by decide +kernel), meets (entry 0x0E01 0 1 64 [(0x1C, 1)]) (inMode .service) (by decide +kernel),
   meets (entry 0x0E01 0 1 64 [(0x1C, 4)]) (inMode .service) (by decide +kernel), meets (entry 0x0E02 0 0 0 []) (inMode .service) (by decide +kernel)⟩

/-- Loop 31 runs automatically. -/
def looping : State := { inMode .service with loops := { loops := List.replicate 31 {} ++ [{ on := true, auto := true }] } }

theorem witness_loopCommands :
    Meets (fun c s => loopJudge c [(0x14, 0, 3), (0x18, 0, 32)] [(c.at_ 0x14 0 2 == 0 || c.at_ 0x14 0 2 == 3, 0x14)] s) (fun c b => c.unit == 31 && (loopSt b 31).on) ∧
    Meets (fun c s => loopJudge c [(0x14, 0, 1), (0x14, 16, 16)] [] s) (fun c _ => c.unit == 9) ∧ Meets (fun c s => loopJudge c [(0x14, 0, 32)] [] s) anyCmd ∧
    Meets (fun c s => loopJudge c [(0x14, 0, 1)] [] s) (fun c _ => c.at_ 0x14 0 1 == 1) ∧
    Meets (fun c s => loopJudge c [(0x14, 0, 1)] [] s) (fun c b => c.at_ 0x14 0 1 == 0 &&
      match readBlock c 64 b with | .ok x => (injBad b c.unit x).isNone | .error _ => false) ∧
    Meets traceJudge (fun c _ => c.at_ 0x14 0 1 == 1) ∧
    Meets traceJudge (fun c b => c.at_ 0x14 0 1 == 0 && match readBlock c 192 b with
      | .ok x => (traceBad x).isNone && reachable b .ddr (u64At x 0) 0x400100 | .error _ => false) :=
  ⟨meets (entry 0x0F01 31 0 0 [(0x14, 2)]) looping (by decide +kernel), meets (entry 0x0F02 9 0 0 [(0x14, 0xFFFF0001)]) looping (by decide +kernel),
   meets (entry 0x0F03 10 0 0 [(0x14, 2)]) looping (by decide +kernel), meets (entry 0x0F04 31 0 0 [(0x14, 1)]) looping (by decide +kernel),
   meets (entry 0x0F04 31 1 64 []) (withBlock (blk 64 [(8, 1), (0x18, 2048)]) looping) (by decide +kernel),
   meets (entry 0x0F05 0 0 0 [(0x14, 1)]) looping (by decide +kernel),
   meets (entry 0x0F05 0 1 192 []) looping (by decide +kernel)⟩

/-! ### Rings, registers, keys, supplies and boot -/

def ringOn : Ring := { en := true, log2n := 8, baseLo := 1 }

def oneRing (g : Ring) : State := { inMode .service with host := { rings := g :: List.replicate 3 {} } }

theorem witness_commandRings :
    (∃ s : State, s.host.rings[0]? = some ringOn ∧ s.mode.mbReady = true ∧ (255#8).toNat < 2 ^ ringOn.log2n.toNat) ∧
    (∃ (s : State) (g : Ring), s.host.rings[3]? = some g ∧ g.en = false) ∧
    (∃ (s : State) (g : Ring), s.host.rings[0]? = some g ∧ g.en = false ∧ g.baseLo.getLsbD 0 = true ∧
      ringAddr g.baseLo g.baseHi + 64 * 2 ^ 8 ≤ mbxSize ∧ enabledSpans s 0 = []) ∧
    (∃ (s : State), s.host.rings[0]? = some ringOn ∧ ringOn.en = true ∧ 7#4 ≠ ringOn.log2n) :=
  ⟨⟨oneRing ringOn, rfl, by decide, by decide⟩, ⟨State.reset, {}, rfl, rfl⟩, ⟨oneRing { baseLo := 1 }, { baseLo := 1 }, by decide +kernel⟩,
   oneRing ringOn, rfl, by decide, by decide⟩

def oneCq (q : CompRing) (held : List Completion) : State := { inMode .service with host := { cq := q, held := held, inflight := [{ cmd := capsCmd }] } }

def aReply : Completion := Reply.completion {} 7 0 0 0

theorem witness_completionRing :
    (∃ s : State, s.host.cq.en = false ∧ ringOk s 4 s.host.cq.baseLo s.host.cq.baseHi 8 32 = true) ∧
    (∃ s : State, s.host.cq.en = true ∧ s.host.inflight ≠ []) ∧ (∃ s : State, s.host.cq.en = true ∧ s.host.inflight = []) ∧
    (∃ s : State, s.host.cq.en = true ∧ s.host.cq.full = false ∧ s.host.held = []) ∧ (∃ s : State, s.host.cq.full = true) ∧
    (∃ s : State, s.host.held ≠ []) ∧
    (∃ s : State, reachable s (ringSpace s.host.cq.baseLo) (ringAddr s.host.cq.baseLo s.host.cq.baseHi + 32 * s.host.cq.tail.toNat) 32 = true) :=
  ⟨⟨oneCq { baseLo := 1 } [], by decide +kernel⟩, ⟨oneCq { en := true, log2n := 1 } [], by decide⟩,
   ⟨{ State.reset with host := { cq := { en := true } } }, by decide⟩, ⟨oneCq { en := true, log2n := 1 } [], by decide⟩,
   ⟨oneCq { en := true, log2n := 1, tail := 1 } [], by decide⟩, ⟨oneCq {} [aReply], by decide⟩, oneCq { baseLo := 1, en := true, log2n := 1, tail := 1 } [], by decide +kernel⟩

def irqState (stat mask : BitVec 13) (v : MsixEntry) (link : Bool) : State :=
  { State.reset with host := { pcieLink := link, regs := { irqStat := stat, irqMask := mask, msix := List.replicate 32 v } } }

theorem witness_interruptRegisters :
    (∃ (v : Word) (s : State), ∀ k, k < 13 → v.getLsbD k = true → s.host.regs.irqMask.getLsbD k = false → s.host.regs.irqStat.getLsbD k = false) ∧
    (∃ s : State, s.host.regs.irqStat.getLsbD 12 = true) ∧
    (∃ s : State, s.host.regs.irqStat.getLsbD 12 = false ∧ s.host.regs.irqMask.getLsbD 12 = true ∧ (s.host.regs.msix.getD 12 {}).ctrl.getLsbD 0 = true) ∧
    (∃ s : State, s.host.regs.irqStat.getLsbD 12 = false ∧ s.host.regs.irqMask.getLsbD 12 = true ∧ (s.host.regs.msix.getD 12 {}).ctrl.getLsbD 0 = false ∧
      s.host.linkUp = true) :=
  ⟨⟨0x1FFF, irqState 0 0 {} false, by decide +kernel⟩, ⟨irqState 0x1000 0 {} false, by decide⟩, ⟨irqState 0 0x1000 { ctrl := 1 } false, by decide⟩,
   irqState 0 0x1000 { ctrl := 0 } true, by decide⟩

theorem witness_registerAccess :
    (∃ off : BitVec 14, off.toNat / 4 * 4 = 0x3000) ∧ (∃ s : State, s.host.pcieLink = false) ∧ (∃ s : State, (s.host.rings.getD 3 {}).en = true) ∧
    (∃ v : Word, v.toNat < 256) :=
  ⟨⟨0x3003, by decide⟩, ⟨State.reset, rfl⟩, ⟨{ State.reset with host := { rings := List.replicate 4 ringOn } }, by decide⟩, 255, by decide⟩

theorem witness_qspiFrames :
    (∃ (a : BitVec 24) (s : State), 0x100000 ≤ a.toNat ∧ a.toNat < 0x200000 ∧ dummyClocks s.host.regs < 24) ∧
    (∃ (a : BitVec 24) (len : Nat), 0x010000 ≤ a.toNat ∧ a.toNat + len ≤ 0x030000) ∧
    (∃ (a : BitVec 24) (d : Bytes) (s : State), 0x010000 ≤ a.toNat ∧ a.toNat + d.length ≤ 0x030000 ∧ d.length = 7 ∧ s.mem.wf = true) :=
  ⟨⟨0x1FFFFF, State.reset, by decide⟩, ⟨0x02FFFC, 4, by decide⟩, 0x02FFF9, List.replicate 7 1, State.reset, by decide⟩

/-- A command posted on ring 0, which stands in mailbox memory. -/
def fetching (busy : List InFlight) : State :=
  withBlock (leBytes 64 0x0101000102) { inMode .service with host :=
    { rings := { ringOn with baseLo := 1, log2n := 1, tail := 1 } :: List.replicate 3 {}, cq := { en := true, log2n := 8 }, inflight := busy } }

theorem witness_fetching :
    (∃ s : State, canFetch s = false) ∧ (∃ (s : State) (g : Ring), s.host.rings[0]? = some g ∧ g.en = true ∧ g.head ≠ g.tail) ∧
    (∃ (s : State) (g : Ring), canFetch s = true ∧ nextRing s.host = some 0 ∧ s.host.rings[0]? = some g ∧
      reachable s (ringSpace g.baseLo) (ringAddr g.baseLo g.baseHi) 64 = true ∧ ∀ f ∈ s.host.inflight, f.cmd.tag ≠ 2) ∧
    (∃ s : State, canFetch s = true ∧ nextRing s.host = some 0 ∧ ∃ f ∈ s.host.inflight, f.cmd.tag = 2) ∧
    (∃ (s : State) (f : InFlight), s.host.inflight.find? (fun f => f.cmd.tag == 0) = some f ∧ f.started = false ∧ mayStart s.host.inflight f = true) ∧
    (∃ (s : State) (f : InFlight), s.host.inflight.find? (fun f => f.cmd.tag == 0) = some f ∧ f.started = true) ∧
    Meets (fun _ _ => { used := [(0x14, 0, 256)] }) anyCmd :=
  ⟨⟨State.reset, by decide⟩, ⟨fetching [], _, rfl, by decide, by decide⟩, ⟨fetching [], _, by decide +kernel, by decide +kernel, rfl, by decide +kernel, by decide +kernel⟩,
   ⟨fetching [{ cmd := { bits := 2, ring := 0, slot := 9 } }], by decide +kernel, by decide +kernel, _, List.mem_singleton.mpr rfl, by decide +kernel⟩,
   ⟨posted capsCmd (inMode .service), { cmd := capsCmd }, by decide +kernel, rfl, by decide +kernel⟩,
   ⟨{ inMode .service with host := { inflight := [{ cmd := capsCmd, started := true }] } }, { cmd := capsCmd, started := true }, by decide +kernel, rfl⟩,
   meets (entry 0x7F7F 0 0 0 [(0x30, 5)]) (inMode .service) (by decide +kernel)⟩

def zeroKey : Bytes := List.replicate 16 0#8

/-- The key of 16 zero bytes wrapped with itself (NIST SP 800-38F KW). -/
def wrappedZero : Bytes := beBytes 24 0xBF3B77B5E90170A5500A2F0F3B40F3A20DED6C5C58A2C0A5

/-- A KEY.LOAD block: use 2, AES-128, 16 bytes, the wrapped key and its check value. -/
def keyBlock : Bytes := blk 8 [(0, 2), (4, 16)] ++ wrappedZero ++ List.replicate 16 0#8 ++ leBytes 4 (kcvOf zeroKey) ++ List.replicate 12 0#8

/-- Slot 0 holds the administrator's key of use 6. -/
def keyed : State := withBlock keyBlock { inMode .service with sec := { slots := { use := 6, key := zeroKey } :: List.replicate 31 {} } }

theorem witness_keyCommands :
    Meets keyLoadJudge (fun c b => c.unit == 0x0100 && match readBlock c 16 b with | .ok x => (blockRange (policyRange x)).isNone | .error _ => false) ∧
    Meets keyLoadJudge (fun c b => c.unit == 31 && ((findInFlight b c).map (·.tampered)).getD false == false && match readBlock c 64 b with
      | .ok x => (blockRange (keyBlockRange false x)).isNone && keyUnwrap (b.sec.slots.getD 1 {}).key ((x.drop 8).take 24) == none | .error _ => false) ∧
    (keyUnwrap zeroKey wrappedZero = some zeroKey →
      Meets keyLoadJudge (fun c b => c.unit == 31 && decide (31 < b.sec.slots.length) && match readBlock c 64 b with
        | .ok x => (blockRange (keyBlockRange false x)).isNone && fld x 4 0 8 == keyLength (fld x 0 0 4) (fld x 0 4 1) &&
            (b.sec.slots.getD c.keySlot {}).key == zeroKey && (x.drop 8).take (fld x 4 0 8 + 8) == wrappedZero && kcvOf zeroKey == u32At x 0x30
        | .error _ => false)) ∧
    Meets keyEraseJudge (fun c _ => c.unit == 0x0100) ∧ Meets keyEraseJudge (fun c b => c.unit == 0x00FF && (b.sec.slots.getD 0 {}).use != 0) ∧
    Meets keyEraseJudge (fun c b => c.unit == 31 && (b.sec.slots.getD 31 {}).use == 0) :=
  ⟨meets (entry 0x1101 0x0100 1 16 []) (withBlock (blk 16 [(4, 100), (6, 5), (8, 1440)]) keyed) (by decide +kernel),
   meets (entry 0x1101 31 1 64 [(0x34, 1)]) keyed (by decide +kernel), fun _ => meets (entry 0x1101 31 1 64 []) keyed (by decide +kernel),
   meets (entry 0x1102 0x0100 0 0 []) keyed (by decide +kernel), meets (entry 0x1102 0x00FF 0 0 []) keyed (by decide +kernel),
   meets (entry 0x1102 31 0 0 []) keyed (by decide +kernel)⟩

/-- The inactive slot is being loaded, with 4 KiB of its image there. -/
def loadingFw (v : Option CmdRef) (valid : Bool) : State :=
  { inMode .service with sec := { verify := v, fw := [{}, { image := List.replicate 4096 0#8, loading := true, valid := valid }] } }

theorem witness_firmwareCommands :
    Meets fwLoadJudge (fun c _ => c.room == 4095) ∧
    Meets fwLoadJudge (fun c b => c.room == 65536 && c.at_ 0x14 0 32 == 8192 && b.sec.verify.isNone) ∧
    Meets fwLoadJudge (fun c b => c.room == 4096 && c.at_ 0x14 0 32 == 4096 && b.sec.verify.isNone && (b.sec.fw.getD 1 {}).loading &&
      (b.sec.fw.getD 1 {}).image.length == 4096 && (readBlock c 4096 b).isOk) ∧
    Meets (fun _ _ => { used := [(0x14, 0, 1)] }) (fun _ b => !(b.sec.fw.getD 1 {}).valid) ∧
    Meets (fun _ _ => { used := [(0x14, 0, 1)] }) (fun _ b => (b.sec.fw.getD 1 {}).valid) ∧
    (∃ s : State, s.sec.verify = none) ∧ (∃ s : State, s.sec.verify ≠ none ∧ imageFault s.variant s.sec.minSvn (s.sec.fw.getD 1 {}).image = some 1) ∧
    (∀ img : Bytes, imageFault .k64 0 img = none →
      ∃ s : State, s.sec.verify ≠ none ∧ imageFault s.variant s.sec.minSvn (s.sec.fw.getD (1 - s.sec.active) {}).image = none) :=
  ⟨meets (entry 0x1201 0 1 4095 []) (inMode .service) (by decide +kernel), meets (entry 0x1201 0 1 65536 [(0x14, 8192)]) (loadingFw none false) (by decide +kernel),
   meets (entry 0x1201 0 1 4096 [(0x14, 4096)]) (loadingFw none false) (by decide +kernel), meets (entry 0x1202 0 0 0 []) (inMode .service) (by decide +kernel),
   meets (entry 0x1202 0 0 0 [(0x14, 1)]) (loadingFw none true) (by decide +kernel), ⟨State.reset, rfl⟩,
   ⟨loadingFw (some { ring := 0, slot := 0, tag := 0 }) false, by decide, by decide +kernel⟩,
   fun img h => ⟨{ State.reset with sec := { verify := some { ring := 0, slot := 0, tag := 0 }, fw := [{}, { image := img }] } }, by simp, h⟩⟩

def tampering (lv : Nat) : State := { inMode .service with sec := { policy := { level := List.replicate 7 lv } } }

theorem witness_tamperRows :
    (∃ s : State, s.sec.tarmed.getD 6 false = false) ∧
    (∀ lv ∈ [0, 1, 2], ∃ s : State, s.sec.policy.en.getD 6 false = true ∧ s.sec.tarmed.getD 6 false = true ∧ s.mode.mode ≠ .backup ∧
      lv = s.sec.policy.level.getD 6 0 ∧ s.sec.tlatch.length = 7 ∧ s.sec.tarmed.length = 7) := by
  refine ⟨⟨{ State.reset with sec := { tarmed := [] } }, rfl⟩, fun lv h => ⟨tampering lv, rfl, rfl, ?_, rfl, rfl, rfl⟩⟩
  show Mode.service ≠ Mode.backup; decide

def powered (p : PowerSt) : State := { inMode .service with pwr := p }

theorem witness_supplyRows :
    (∃ s : State, s.pwr.vinGood = true ∧ s.mode.mode ≠ .backup ∧ s.pwr.shed1 = true) ∧ (∃ s : State, s.pwr.vinGood = false ∧ s.mode.mode ≠ .backup ∧ s.pwr.shed2 = false) ∧
    (∃ s : State, s.mode.mode ≠ .backup ∧ s.pwr.hu = .charging) ∧
    (∃ s : State, s.mode.mode ≠ .backup ∧ s.pwr.vinGood = false ∧ s.pwr.shed3 = false ∧ ∃ r, r < 4 ∧ mayPark s r = true) ∧
    (∃ s : State, s.mode.mode ≠ .backup ∧ s.pwr.tjHigh = true ∧ s.pwr.vbatLow = true) ∧ (∃ s : State, s.mode.mode ≠ .backup ∧ s.pwr.tjHigh = false ∧ s.pwr.vbatLow = false) :=
  ⟨⟨powered { shed1 := true }, by decide⟩, ⟨powered { vinGood := false }, by decide⟩, ⟨powered {}, by decide⟩,
   ⟨powered { vinGood := false }, by decide, rfl, rfl, 3, by decide, by decide +kernel⟩, ⟨powered { tjHigh := true, vbatLow := true }, by decide⟩, powered {}, by decide⟩

theorem witness_powerDownRows :
    (∃ s : State, s.mode.mode ≠ .backup ∧ hasRail s 5 = true) ∧ (∃ s : State, s.mode.mode ≠ .backup ∧ s.pwr.vinGood = false) ∧
    (∃ s : State, s.mode.mode ≠ .backup ∧ s.pwr.waitRails = true) ∧
    (∃ s : State, s.mode.mode ≠ .backup ∧ hasRail s 1 = true ∧
      2 ≤ (s.pwr.boTimes.filter (fun t => decide ((s.clk.mono : Int) < t + (secU 60 : Nat)))).length) ∧
    (∃ s : State, s.mode.mode ≠ .backup ∧ hasRail s 0 = true ∧
      (s.pwr.boTimes.filter (fun t => decide ((s.clk.mono : Int) < t + (secU 60 : Nat)))).length < 2) :=
  ⟨⟨powered {}, by decide⟩, ⟨powered { vinGood := false }, by decide⟩, ⟨powered { waitRails := true }, by decide⟩, ⟨powered { boTimes := [0, 0] }, by decide +kernel⟩,
   powered { boTimes := [0] }, by decide +kernel⟩

def restarting (src : Nat) : State := { inMode .service with mode := { (inMode .service).mode with restart := some { src := src } } }

theorem witness_restartRows :
    (∃ (s : State) (x : RestartReq), s.mode.restart = some x ∧ restartDue s = true ∧ 5 ≤ x.src ∧ s.mode.mode ≠ .boot ∧ s.mode.mode ≠ .backup ∧ s.mode.warm = none ∧
      s.clk.sclk = true) ∧
    (∃ s : State, s.mode.mode ≠ .boot ∧ s.mode.mode ≠ .backup ∧ s.mode.warm = none ∧ s.mode.supvRst = false ∧ s.mode.restart = none) ∧
    (∃ s : State, s.mode.warm ≠ none ∧ slotValid s.variant s.sec s.sec.active true = true) ∧ (∃ s : State, s.mode.supvRst = true ∧ s.mode.warm = none) ∧
    (∃ (s : State) (x : RestartReq), s.mode.restart = some x ∧ restartDue s = true ∧ x.src < 5 ∧ s.mode.mode ≠ .boot ∧ s.mode.mode ≠ .backup ∧ s.clk.sclk = true) ∧
    (∃ s : State, s.mode.mode = .boot ∧ s.mode.bootCode = 0 ∧ s.mode.fatal = false ∧ s.pwr.waitRails = false) :=
  ⟨⟨restarting 5, { src := 5 }, by decide +kernel⟩, ⟨inMode .service, by decide⟩,
   ⟨{ inMode .service with mode := { mode := .service, warm := some 5, supvRst := true } }, by decide +kernel⟩,
   ⟨{ inMode .service with mode := { mode := .service, supvRst := true } }, by decide⟩, ⟨restarting 4, { src := 4 }, by decide +kernel⟩, State.reset, by decide⟩

theorem witness_bootRows :
    (∃ s : State, s.mode.mode = .backup ∧ s.pwr.vinGood = true ∧ s.pwr.latched = false) ∧ (∃ s : State, s.mode.mode ≠ .backup) ∧ (∃ s : State, s.pwr.waitRails = true) ∧
    (∃ (r : BootReport) (s : State), s.mode.mode = .boot ∧ s.mode.fatal = false ∧ r.selfTest = true ∧ s.sec.active ≤ 1 ∧ r.slots.getD 0 false = false ∧
      r.slots.getD 1 false = false) ∧
    (∃ (r : BootReport) (s : State), s.mode.mode = .boot ∧ s.mode.fatal = false ∧ r.selfTest = true ∧ bootSlot s.variant r (bootBackup r s).sec ≠ none ∧ r.ddr = false) ∧
    (∃ (r : BootReport) (s : State), s.mode.mode = .boot ∧ s.mode.fatal = false ∧ r.selfTest = true ∧ bootSlot s.variant r (bootBackup r s).sec ≠ none ∧ r.ddr = true ∧
      r.pll = true ∧ r.mram = true ∧ s.mode.resetSrc = 0 ∧ r.contentsLost = false) ∧
    (∃ s : State, s.mode.mode = .boot ∧ s.mode.fatal = false ∧ s.pwr.waitRails = false ∧ s.mode.bootCode = 9) ∧
    (∃ s : State, s.mode.mode = .boot ∧ s.mode.fatal = false ∧ s.mode.bootCode = 0x0A) :=
  ⟨⟨inMode .backup, by decide⟩, ⟨State.reset, by decide⟩, ⟨powered { waitRails := true }, rfl⟩, ⟨{ slots := [false, false] }, State.reset, by decide⟩,
   ⟨{ ddr := false }, State.reset, by decide +kernel⟩, ⟨{}, State.reset, by decide +kernel⟩,
   ⟨{ State.reset with mode := { bootCode := 9 } }, by decide⟩, { State.reset with mode := { bootCode := 0x0A } }, by decide⟩

/-! ### Grid, time, acquisition and network -/

def gridded (g : GridSt) : State := { inMode .configure with grid := g }

theorem witness_gridEventRows :
    (∃ s : State, s.grid.sync = .locked ∧ s.grid.cfg.syncSrc = 2) ∧ (∃ s : State, s.grid.sync = .none) ∧
    (∃ s : State, s.grid.cfg.gmode = 2 ∧ s.grid.sync ≠ .lost) ∧ (∃ s : State, s.grid.cfg.gmode ≠ 2) ∧
    (∃ s : State, s.grid.relock = none) ∧ (∃ (s : State) (g : GridCfg) (x : CmdRef), s.grid.relock = some (g, x)) ∧
    (∃ s : State, s.grid.refSel = some 3 ∧ s.grid.refValidSince.getD 2 none = some 5 ∧ tracking s.grid = true) ∧
    (∃ s : State, s.grid.refSel = some 3 ∧ s.grid.refValidSince.getD 3 none = some 5 ∧ tracking s.grid = false) ∧
    (∃ s : State, s.grid.hold = true ∧ s.grid.cfg.holdMode = true ∧ s.grid.toNominal = false) ∧ (∃ s : State, s.grid.hold = false) :=
  ⟨⟨gridded { sync := .locked, cfg := { syncSrc := 2 } }, by decide⟩, ⟨gridded {}, rfl⟩, ⟨gridded { cfg := { gmode := 2 } }, by decide⟩, ⟨gridded {}, by decide⟩,
   ⟨gridded {}, rfl⟩, ⟨gridded { relock := some ({}, consoleRef) }, _, _, rfl⟩,
   ⟨gridded { cfg := { gmode := 1 }, refSel := some 3, refValidSince := [none, none, some 5, none] }, by decide⟩,
   ⟨gridded { refSel := some 3, refValidSince := [none, none, none, some 5] }, by decide⟩,
   ⟨gridded { cfg := { holdMode := true }, hold := true }, by decide⟩, gridded {}, rfl⟩

/-- The trim a correction needs is a free value (log entry 7): where it lies within its bound, an edge is accepted. -/
theorem witness_syncEdgeRows :
    (∃ len : Nat, 0 < len) ∧ (∃ (e : Int) (s : State), s.clk.len < 4 * e.natAbs ∧ s.grid.refused = true ∧ s.grid.sync = .acquiring) ∧
    (∀ e : Int, 4 * e.natAbs ≤ 1875000 * 2 ^ 32 → (trimNeeded {} e).natAbs ≤ 100000 →
      ∃ s : State, 4 * e.natAbs ≤ s.clk.len ∧ (trimNeeded s.grid e).natAbs ≤ 100000) ∧
    (∃ s : State, s.grid.stepNow = true) ∧ (∃ s : State, s.grid.stepNow = false ∧ s.grid.cfg.syncSrc = 1) ∧
    (∃ s : State, s.grid.stepNow = false ∧ s.grid.cfg.syncSrc = 2 ∧ s.time.ptpSecond = true) ∧
    (∃ s : State, s.grid.cfg.gmode = 2 ∧ s.grid.stepNow = false ∧ s.mode.mode ≠ .configure) :=
  ⟨⟨1, by decide⟩, ⟨-2013265920000001, gridded { refused := true, sync := .acquiring }, by decide⟩, fun _ h1 h2 => ⟨State.reset, h1, h2⟩,
   ⟨gridded { stepNow := true }, rfl⟩, ⟨gridded { cfg := { syncSrc := 1 } }, by decide⟩,
   ⟨{ gridded { cfg := { syncSrc := 2 } } with time := { ptpSecond := true } }, by decide⟩, { inMode .service with grid := { cfg := { gmode := 2 } } }, by decide⟩

/-- Port 1 is enabled and PTP runs on its pair; `g` is heard on it. -/
def ptpState (master : Bool) (p : PtpPort) : State :=
  { inMode .service with
    net := { portSet := blk 64 [(1, 2)] }, time := { cfg := { ptpPorts := 1, slaveOnly := !master }, ports := [{}, p] } }

def timed (src : List Nat) (used : Nat) : State :=
  { inMode .service with time :=
    { cfg := { src := src, utcOfsValid := true }, utcValid := true, used := used, irig := { live := true, locked := true }, ptp := { live := true, locked := true } } }

theorem witness_ptpRows :
    (∃ s : State, ptpOn s 1 = false) ∧ (∃ (s : State) (m : PtpEvent), ptpOn s 1 = true ∧ m.domain.toNat = s.time.cfg.domain ∧ m.twoStep = true) ∧
    (∃ (s : State) (m : PtpEvent), ptpOn s 1 = true ∧ m.domain.toNat = s.time.cfg.domain ∧ m.twoStep = false ∧ s.time.ports.length = 2 ∧
      (ptpPort s.time 1).twoStep = some (m.seq.toNat, 0, 0) ∧ (ptpPort s.time 1).pdelayReq = some (m.seq.toNat, 0) ∧ (ptpPort s.time 1).foreign ≠ none) ∧
    (∃ s : State, ptpOn s 1 = true ∧ (ptpPort s.time 1).twoStep = none ∧ (ptpPort s.time 1).pdelayReq = none ∧ (ptpPort s.time 1).foreign = none) ∧
    (∃ s : State, ptpOn s 1 = true ∧ isMaster s.time = true) ∧ (∃ s : State, ptpOn s 1 = true ∧ isMaster s.time = false) ∧
    (∃ (s : State) (a b : Nat), srcRank s.time 1 = some a ∧ srcRank s.time s.time.used = some b ∧ a < b ∧ (srcSt s.time 1).locked = true ∧ s.time.used = 2 ∧
      s.time.utcValid = true ∧ (srcSt s.time 2).live = true ∧ ∀ k, k < 4 → ∀ c, srcRank s.time k = some c → c < b → k ≠ 1 → (srcSt s.time k).locked = false) :=
  ⟨⟨State.reset, by decide⟩,
   ⟨ptpState false {}, { domain := 0, seq := 3, twoStep := true, stamp := 0, origin := 0, correction := 0 }, by decide +kernel⟩,
   ⟨ptpState false { twoStep := some (3, 0, 0), pdelayReq := some (3, 0), foreign := some {} },
    { domain := 0, seq := 3, twoStep := false, stamp := 0, origin := 0, correction := 0 }, by decide +kernel⟩,
   ⟨ptpState false {}, by decide +kernel⟩, ⟨ptpState true {}, by decide +kernel⟩, ⟨ptpState false {}, by decide +kernel⟩, timed [1, 2, 0] 2, 0, 1,
   by decide +kernel, by decide +kernel, by decide, by decide, by decide, by decide, by decide, by
     intro k hk c h1 h2 h3
     have h : ∀ k, k < 4 → (srcRank (timed [1, 2, 0] 2).time k).getD 1 < 1 → k ≠ 1 → (srcSt (timed [1, 2, 0] 2).time k).locked = false := by decide +kernel
     exact h k hk (by rw [h1]; exact h2) h3⟩

def clocked (t : TimeSt) : State := { inMode .service with time := t }

theorem witness_timeRows :
    (∃ s : State, s.mode.mode = .boot) ∧ (∃ s : State, s.mode.mode ≠ .boot ∧ s.mode.mode ≠ .backup ∧ s.time.ppsInAt = some 0 ∧ max s.clk.mono (0 * uPerNs) < 0 + msU 900) ∧
    (∃ s : State, s.mode.mode ≠ .boot ∧ s.mode.mode ≠ .backup ∧ s.time.ppsInAt = none ∧ srcRank s.time 3 = none) ∧
    (∃ s : State, s.mode.mode ≠ .boot ∧ s.mode.mode ≠ .backup ∧ s.time.ppsInAt = none ∧ srcRank s.time 3 ≠ none) ∧ (∃ s : State, s.time.utcValid = false) ∧
    (∃ (s : State) (m : IrigFrame), srcRank s.time 2 ≠ none ∧ s.time.utcValid = true ∧ s.time.cfg.irig1344 = true ∧ m.parityOk = false) ∧
    (∃ s : State, s.time.irig.live = false ∧ s.time.pps.live = false) ∧
    (∃ s : State, s.time.irig.live = true ∧ s.time.used = 2 ∧ (srcSt s.time 1).locked = false ∧ (srcSt s.time 3).locked = false) ∧
    (∃ s : State, s.time.pps.live = true ∧ s.time.used = 3 ∧ (srcSt s.time 1).locked = false ∧ (srcSt s.time 2).locked = false) ∧
    (∃ s : State, s.time.state = .locked) ∧ (∃ s : State, s.time.state ≠ .locked ∧ ppsDriven s = false ∧ s.time.leap61 = false ∧ s.time.leap59 = false) ∧
    (∃ s : State, ppsDriven s = true ∧ 0 ≤ (s.clk.mono : Int) + s.clk.taiOfs ∧ s.time.ppsOutAt = none) ∧ (∃ s : State, ppsDriven s = true ∧ s.time.ppsOutAt = some 0) ∧
    (∃ s : State, s.time.leap59 = true) ∧ (∃ s : State, s.grid.cwClkGood = true ∧ s.time.counterOk = true) ∧ (∃ s : State, s.grid.refclkGood = false) :=
  ⟨⟨inMode .boot, rfl⟩, ⟨clocked { ppsInAt := some 0 }, by decide⟩, ⟨clocked {}, by decide +kernel⟩, ⟨clocked { cfg := { src := [0, 0, 3] } }, by decide +kernel⟩, ⟨clocked {}, rfl⟩,
   ⟨clocked { cfg := { src := [2, 0, 0], irig1344 := true }, utcValid := true },
    { stamp := 0, year := 26, day := 1, second := 0, parityOk := false, localOfs := 0, quality := 0, leap61 := false, leap59 := false }, by decide +kernel⟩,
   ⟨clocked {}, by decide⟩, ⟨clocked { irig := { live := true }, used := 2 }, by decide⟩, ⟨clocked { pps := { live := true }, used := 3 }, by decide⟩,
   ⟨clocked { state := .locked }, rfl⟩, ⟨clocked {}, by decide⟩, ⟨clocked { cfg := { ppsOutEn := true } }, by decide⟩,
   ⟨clocked { cfg := { ppsOutEn := true }, ppsOutAt := some 0 }, by decide⟩, ⟨clocked { leap59 := true }, rfl⟩, ⟨gridded { cwClkGood := true }, by decide⟩,
   gridded { refclkGood := false }, rfl⟩

def sequencing (a : AuxSt) : State := { inMode .service with aux := a }

theorem witness_acquisitionRows :
    (∃ s : State, s.aux.converting = false) ∧ (∃ s : State, s.aux.converting = true ∧ s.aux.aborted = false ∧ s.aux.urgRunning = none ∧ s.aux.discard = true) ∧
    (∃ (s : State) (e : AuxEntry), s.aux.converting = true ∧ s.aux.aborted = false ∧ s.aux.urgRunning = none ∧ s.aux.discard = false ∧
      s.aux.cfg.entries[s.aux.entry]? = some e ∧ s.aux.cur.n + 1 ≤ e.repeat_) ∧
    (∃ (s : State) (e : AuxEntry), s.aux.converting = true ∧ s.aux.aborted = false ∧ s.aux.urgRunning = none ∧ s.aux.discard = false ∧
      s.aux.cfg.entries[s.aux.entry]? = some e ∧ e.repeat_ < s.aux.cur.n + 1 ∧ e.delay = 0 ∧ s.aux.entry + 1 < s.aux.cfg.entries.length) ∧
    (∃ s : State, s.aux.delayEnd = some 9 ∧ s.aux.urgRunning = none ∧ s.aux.cfg.entries ≠ []) ∧ (∃ s : State, s.aux.cfg.urgEn = true) ∧
    (∃ s : State, s.aux.urgent.length = 2 ∧ (s.aux.urgent.getD 1 {}).waits = true ∧ s.aux.urgRunning = some 0) ∧
    (∃ s : State, s.aux.urgent.length = 2 ∧ (s.aux.urgent.getD 0 {}).waits = false ∧ (s.aux.urgent.getD 1 {}).waits = false ∧ s.aux.urgRunning = some 1) ∧
    (∃ s : State, (s.aux.urgent.getD 0 {}).latched = true ∧ (s.aux.urgent.getD 0 {}).waits = true) ∧
    (∃ s : State, s.mode.mode ≠ .boot ∧ s.mode.mode ≠ .backup ∧ groupCals s 2 = true) ∧ (∃ s : State, s.mode.mode = .boot) ∧
    (∃ s : State, ∀ g, g < 3 → (calGroup s g).due = none) ∧
    (∀ ph, 1 ≤ ph → ph ≤ 4 → ∃ (s : State) (m : CalMeas), s.acq.groups.length = 3 ∧ (calGroup s 2).phase = ph ∧ (calGroup s 2).idx < 16 ∧ diffOk m.mean m.rms = true ∧
      ([0, 1, 2].all (fun k => calOk (m.ofs.getD k 0) (m.gc.getD k 0))) = true) ∧
    (∃ m : CalMeas, diffOk m.mean m.rms = false) := by
  refine ⟨⟨sequencing { converting := false }, rfl⟩, ⟨sequencing { discard := true }, by decide⟩, ⟨sequencing {}, ⟨16, 15, 1000⟩, by decide⟩,
    ⟨sequencing { cfg := { entries := [⟨16, 0, 0⟩, ⟨17, 0, 0⟩] } }, ⟨16, 0, 0⟩, by decide⟩, ⟨sequencing { delayEnd := some 9 }, by decide⟩,
    ⟨sequencing { cfg := { urgEn := true } }, rfl⟩, ⟨sequencing { urgent := [{}, { pending := true }], urgRunning := some 0 }, by decide⟩,
    ⟨sequencing { urgRunning := some 1 }, by decide⟩, ⟨sequencing { urgent := [{ pending := true, latched := true }, {}] }, by decide⟩,
    ⟨inMode .service, by decide +kernel⟩, ⟨State.reset, rfl⟩, ⟨State.reset, by decide⟩, ?_, ⟨{ rms := 16778 }, by decide⟩⟩
  intro ph _ _
  exact ⟨{ inMode .service with acq := { groups := [{}, {}, { phase := ph, idx := 15 }] } }, {}, rfl, rfl, by show (15 : Nat) < 16; decide, by decide, by decide⟩

/-- An SV stream of one ASDU and a GOOSE stream on context 255, for the address and names of the frames of the tests above. -/
def listening (auth : Nat) : State :=
  { inMode .service with
    net := { portSet := blk 64 [(1, 1)], goose := List.replicate 255 {} ++ [{ seen := true, stNum := 1, deadline := some 9 }]
             sv := List.replicate 255 {} ++ [{ seen := true, buf := [{ cnt := 0, t := 0, missing := false, ch := [] }] }] }
    tbl := { stream := List.replicate 255 {} ++ [{ bytes := (blk 256 <|
      (List.range 15).map (fun m => (0xA4 + 4 * m, 0xFF)) ++ [(0xA0, 0xFF00), (0, 1), (4, 3), (8, 0x010CCD040001), (14, 0x4000), (0x10, 1), (0x14, (crc32c [0x53]).toNat), (0x1C, 2), (0x28, auth),
       (0x80, 0x010CCD010001), (0x86, 1), (0x88, 1), (0x89, 1), (0x8A, 1), (0x8C, (crc32c [0x47]).toNat), (0x90, (crc32c [0x44]).toNat), (0x94, 1), (0x98, auth)]) }] } }

/-- A frame is taken in, and `p` holds of the state after that. -/
def taken (h : FrameHead) (p : State → Bool) (s : State) : Bool := match takeIn h s with | some b => p b | none => false

def someSv : SvFrame := { head := someHead, asdus := [goodAsdu] }

theorem witness_subscriptionRows :
    (∃ s : State, portEn s 0 = false) ∧ (∃ s : State, taken someHead (fun b => (svMatch b someSv).isNone && (goMatch b goodGoose).isNone) s = true) ∧
    (∃ s : State, taken someHead (fun b => svMatch b someSv == some 255 && authAccepts b 0 false 0 0 none && (dedup someHead b).1 && b.net.sv.length == 256 &&
      svAsdus (streamBytes b 255) == 1) s = true) ∧
    (∃ s : State, taken someHead (fun b => svMatch b someSv == some 255 && !authAccepts b 1 true 0 0 none) s = true) ∧
    (∃ s : State, taken goodGoose.head (fun b => goMatch b goodGoose == some 255 && b.net.goose.length == 256 && (dedup goodGoose.head b).1 &&
      goodGoose.confRev.toNat == u32At (streamBytes b 255) 0x94 && goodGoose.numEntries == byteAt (streamBytes b 255) 0x8A &&
      goTypesOk (streamBytes b 255) goodGoose && (gooseCtx b 255).seen) s = true) ∧
    (∃ s : State, (gooseCtx s 255).deadline = some 9 ∧ s.net.goose.length = 256) ∧
    (∃ s : State, (svCtx s 255).buf ≠ [] ∧ svEn s 255 = true ∧ s.net.sv.length = 256 ∧ (svCtx s 255).seen = true ∧ (svCtx s 255).sync = false ∧ 4 ≤ s.clk.len) ∧
    (∃ s : State, (gooseCtx s 0).deadline = none ∧ svEn s 0 = false) :=
  ⟨⟨State.reset, by decide⟩, ⟨{ listening 0 with tbl := {} }, by decide +kernel⟩, ⟨listening 0, by decide +kernel⟩, ⟨listening 0, by decide +kernel⟩,
   ⟨listening 0, by decide +kernel⟩, ⟨listening 0, by decide +kernel⟩, ⟨listening 0, by decide +kernel⟩, State.reset, by decide +kernel⟩

def ported (l : List NetPort) (set : List (Nat × Nat)) : State := { inMode .service with net := { ports := l, portSet := blk 64 set } }

theorem witness_portRows :
    (∃ s : State, s.net.ports.length = 4 ∧ (netPort s 3).link = false) ∧ (∃ s : State, s.net.ports.length = 4 ∧ (netPort s 3).link = true) ∧
    (∃ s : State, s.net.ports.length = 4 ∧ (netPort s 0).lost = true ∧ (netPort s 0).link = true ∧ ∀ k, k < 4 → k ≠ 0 → (netPort s k).lost = false) ∧
    (∃ s : State, s.net.ports.length = 4 ∧ (netPort s 0).lost = true ∧ (netPort s 0).link = true ∧ (netPort s 1).lost = true) ∧
    (∃ s : State, s.net.ports.length = 4 ∧ portEn s 0 = true) ∧ (∃ s : State, s.net.ports.length = 4 ∧ portEn s 0 = false) ∧
    (∃ (s : State) (e : DupEntry), s.net.ports.length = 4 ∧ s.net.dups.find? (fun e => e.pair == 1 && e.src == 5 && e.seq == 6) = some e ∧ e.port < 4 ∧ e.both = false) ∧
    (∃ (s : State) (e : NodeEntry), s.net.ports.length = 4 ∧ s.net.nodes.find? (fun e => e.pair == 1 && e.src == 5) = some e) ∧
    (∃ s : State, s.net.ports.length = 4 ∧ pairMode s 1 = 1 ∧ sendPorts s 1 ≠ [] ∧ s.net.superTx.getD 1 none = some 4) ∧
    (∃ s : State, s.net.ports.length = 4 ∧ (takeIn someHead s).isNone = true) ∧ (∃ s : State, s.net.ports.length = 4 ∧ (takeIn someHead s).isSome = true) :=
  ⟨⟨State.reset, by decide⟩, ⟨ported (List.replicate 4 { link := true }) [], by decide⟩, ⟨ported [{ link := true, lost := true }, {}, {}, {}] [], by decide⟩,
   ⟨ported [{ link := true, lost := true }, { lost := true }, {}, {}] [], by decide⟩, ⟨ported (List.replicate 4 {}) [(1, 1)], by decide +kernel⟩,
   ⟨State.reset, by decide +kernel⟩, ⟨{ State.reset with net := { dups := [{ pair := 1, src := 5, seq := 6, port := 3, at_ := 0 }] } }, _, rfl, rfl, by decide, rfl⟩,
   ⟨{ State.reset with net := { nodes := [{ pair := 1, src := 5, at_ := 0 }] } }, _, rfl, rfl⟩,
   ⟨{ inMode .service with net := { superTx := [none, some 4], portSet := blk 64 [(0, 0xC10)] } }, by decide +kernel⟩, ⟨State.reset, by decide +kernel⟩,
   ported (List.replicate 4 {}) [(1, 1)], by decide +kernel⟩

/-- Publication 5 is enabled, its next pair `n`; GOOSE publication 63 retransmits at 9. -/
def publishing (n : Nat) : State :=
  { inMode .service with
    clk := { sclk := true, msTai := secU 2 }
    net := { portSet := blk 64 [(1, 1)], svPubs := List.replicate 5 {} ++ [{ block := blk 128 [(0, 1)], next := some n }]
             goosePubs := List.replicate 63 {} ++ [{ nextAt := some 9, sending := true }] } }

theorem roundOpen_near (k : Nat) (x : Int) (d : Nat) : roundOpen k x d = x / d ∨ roundOpen k x d = x / d + 1 := by
  unfold roundOpen; split
  · simp
  · split <;> simp

theorem witness_publicationRows :
    (∃ s : State, pubEn (svPubBytes s 0) = false) ∧
    (∃ (s : State) (n : Nat), pubEn (svPubBytes s 5) = true ∧ sendPorts s (fld (svPubBytes s 5) 0 1 1) ≠ [] ∧ s.mode.mode ≠ .backup ∧ s.mode.mode ≠ .boot ∧
      (s.net.svPubs.getD 5 {}).next = some n ∧ ((n + 1 : Nat) : Int) ≤
        ((s.clk.msTai : Int) - (roundOpen 34 (175 * gridLen s : Nat) 128 + ((s.clk.len / 2 : Nat) : Int))) / ((secU 1 / 4800 : Nat) : Int)) ∧
    (∃ (s : State) (n : Nat), (s.net.svPubs.getD 5 {}).next = some n ∧ pubEn (svPubBytes s 5) = true ∧
      ((s.clk.msTai : Int) - (roundOpen 34 (175 * gridLen s : Nat) 128 + ((s.clk.len / 2 : Nat) : Int))) / ((secU 1 / 4800 : Nat) : Int) < ((n + 1 : Nat) : Int)) ∧
    (∃ s : State, (goosePub s 63).nextAt = some 9 ∧ (goosePub s 63).sending = true ∧ s.mode.mode.runs = true ∧ s.net.goosePubs.length = 64) ∧
    (∃ s : State, (goosePub s 0).nextAt = none) := by
  refine ⟨⟨State.reset, by decide +kernel⟩, ⟨publishing 9000, 9000, by decide +kernel, by decide +kernel, by decide, by decide, rfl, ?_⟩,
    ⟨publishing 100000, 100000, rfl, by decide +kernel, ?_⟩, ⟨publishing 0, by decide +kernel⟩, State.reset, by decide +kernel⟩
  · rcases roundOpen_near 34 (175 * gridLen (publishing 9000) : Nat) 128 with h | h <;> rw [h] <;> decide +kernel
  · rcases roundOpen_near 34 (175 * gridLen (publishing 100000) : Nat) 128 with h | h <;> rw [h] <;> decide +kernel

/-! ### Protection, logic, trip path, supervision and records -/

/-- Bay 0 runs its cycle with these elements and stages on this setting group; one Milestone is open. -/
def live (e : Elems) (st : List StageSt) (g : List (Nat × Nat)) : State :=
  { inMode .service with
    clk := { sclk := true, ms := 1000 }
    tbl := { bay := [{ bytes := blk 512 [(0, 1), (4, 1)] }], group := [{ bytes := blk 2560 g }] }
    prot := { bays := { cur := { ran := true, el := e, stages := st } } :: List.replicate 63 {}, inCycle := true } }

theorem witness_stageTimers :
    (∃ s : State, ((bayRun s 0).stages.getD 24 {}).held ≠ 0 ∧ ((bayRun s 0).stages.getD 24 {}).heldTo = endOfMs s ∧ 24 < (bayRun s 0).stages.length ∧ 0 < s.prot.bays.length) ∧
    (∃ s : State, endOfMs s < ((bayRun s 0).stages.getD 0 {}).heldTo ∧ 0 < (bayRun s 0).stages.length) ∧ isCurve 12 = true ∧ isCurve 13 = false ∧
    (∃ s : State, ((bayRun s 0).stages.getD 8 {}).rstAt = some 0 ∧ recRst (recBytes (grpBytes s 0) 8) = 1 ∧ ((bayRun s 0).stages.getD 8 {}).pu = false ∧
      0 + usU (recResetT (recBytes (grpBytes s 0) 8)) ≤ endOfMs s) ∧
    (∃ s : State, ((bayRun s 0).stages.getD 8 {}).pu = true ∧ ((bayRun s 0).stages.getD 8 {}).h = hOne) ∧ (∃ s : State, bayLive s 0 = false) :=
  ⟨⟨live {} (List.replicate 24 ({} : StageSt) ++ [{ held := 1, heldTo := 1875000 * 2 ^ 32 }]) [], by decide +kernel⟩, ⟨live {} [{ heldTo := 2 ^ 60 }] [], by decide +kernel⟩, by decide, by decide,
   ⟨live {} (List.replicate 8 ({} : StageSt) ++ [{ rstAt := some 0 }]) [(0x24C, 16)], by decide +kernel⟩, ⟨live {} (List.replicate 8 ({} : StageSt) ++ [{ pu := true, h := hOne }]) [], by decide +kernel⟩,
   State.reset, by decide +kernel⟩

theorem witness_elementDelays :
    (∃ s : State, bayLive s 0 = true ∧ (bayRun s 0).el.bc.pu = true ∧ (bayRun s 0).el.bc.blk = false ∧ (bayRun s 0).el.bc.tPu + usU (u32At (grpBytes s 0) 0x708) ≤ endOfMs s) ∧
    (∃ s : State, bayLive s 0 = true ∧ (bayRun s 0).el.hif.pu = true ∧ (bayRun s 0).el.hif.blk = false ∧ (bayRun s 0).el.hif.tPu + usU (u32At (grpBytes s 0) 0x9CC) ≤ endOfMs s) ∧
    (∃ s : State, bayLive s 0 = true ∧ (bayRun s 0).el.bfAt = some 0 ∧ 0 + usU (u32At (grpBytes s 0) 0x788) ≤ endOfMs s ∧ endOfMs s < 0 + usU (u32At (grpBytes s 0) 0x78C)) ∧
    (∃ s : State, (bayRun s 0).el.armSince = some 0 ∧ bitAt (grpBytes s 0) 0x900 0 = true ∧ 0 + usU (u32At (grpBytes s 0) 0x908) ≤ endOfMs s) ∧
    (∃ s : State, (bayRun s 0).el.armSince = some 0 ∧ bitAt (grpBytes s 0) 0x900 0 = false) ∧
    (∃ s : State, (bayRun s 0).el.sotfAt = some 0 ∧ 0 + usU (u32At (grpBytes s 0) 0x90C) ≤ endOfMs s ∧ (bayRun s 0).el.deadSince = some 0 ∧
      0 + secU (u16At (grpBytes s 0) 0x984) ≤ endOfMs s ∧ (bayRun s 0).el.clpAt = some 0 ∧ endOfMs s < 0 + secU (u16At (grpBytes s 0) 0x986)) ∧
    (∃ s : State, bayLive s 0 = true ∧ (bayRun s 0).el.winAt = some 0 ∧ 0 + inrWin (grpBytes s 0) ≤ s.clk.ms ∧ (bayRun s 0).el.ratioMs.getD 2 none = some 0 ∧
      0 + u16At (grpBytes s 0) 0x94C < s.clk.ms) ∧
    (∃ s : State, (bayRun s 0).el.winAt = some 2000 ∧ s.clk.ms < 2000 + inrWin (grpBytes s 0)) ∧
    (∃ s : State, (bayRun s 0).el.bfAt = none ∧ (bayRun s 0).el.armSince = none) :=
  ⟨⟨live { bc := { pu := true } } [] [], by decide +kernel⟩, ⟨live { hif := { pu := true } } [] [], by decide +kernel⟩, ⟨live { bfAt := some 0 } [] [(0x78C, 9000)], by decide +kernel⟩,
   ⟨live { armSince := some 0 } [] [(0x900, 1)], by decide +kernel⟩, ⟨live { armSince := some 0 } [] [], by decide +kernel⟩,
   ⟨live { sotfAt := some 0, deadSince := some 0, clpAt := some 0 } [] [(0x986, 1)], by decide +kernel⟩,
   ⟨live { winAt := some 0, ratioMs := [none, none, some 0] } [] [(0x94C, 999)], by decide +kernel⟩, ⟨live { winAt := some 2000 } [] [], by decide +kernel⟩,
   live {} [] [], by decide +kernel⟩

theorem witness_reclosingTimers :
    (∀ st ∈ [2, 3, 4, 5], ∃ s : State, bayLive s 0 = true ∧ (bayRun s 0).el.ar.st = st ∧
      ((bayRun s 0).el.ar.at_ + usU (arLimit (bayCtx s 0).g (bayRun s 0).el.ar) ≤ endOfMs s ↔ st ≠ 2) ∧ 0 < s.prot.bays.length) ∧
    (∃ s : State, bayLive s 0 = false) := by
  refine ⟨fun st h => ?_, State.reset, by decide +kernel⟩
  simp only [List.mem_cons, List.not_mem_nil, or_false] at h
  rcases h with rfl | rfl | rfl | rfl
  · exact ⟨live { ar := { st := 2 } } [] [], by decide +kernel⟩
  · exact ⟨live { ar := { st := 3 } } [] [], by decide +kernel⟩
  · exact ⟨live { ar := { st := 4 } } [] [], by decide +kernel⟩
  · exact ⟨live { ar := { st := 5 } } [] [], by decide +kernel⟩

/-- Section 15 runs. -/
def sectioned (r : SectRun) : State :=
  { inMode .service with
    tbl := { section_ := List.replicate 15 {} ++ [{ bytes := blk 512 [(0, 1)] }] }, prot := { sects := List.replicate 15 {} ++ [r] } }

theorem witness_sectionAndFreezeTimers :
    (∃ s : State, sectionEn s 15 = true ∧ (sectRun s 15).ran = true ∧ (sectRun s 15).riPu = true ∧ (sectRun s 15).riOp = false ∧
      (sectRun s 15).riAt + msU (riTd (sectionBytes s 15)) ≤ endOfMs s ∧ 15 < s.prot.sects.length ∧ (sectRun s 15).satEnd = some (endOfMs s)) ∧
    (∃ s : State, sectionEn s 15 = false) ∧ (∃ s : State, endOfMs s < 2 ^ 60 ∧ (sectRun s 15).satEnd = some (2 ^ 60)) ∧
    (∃ s : State, (bayRun s 0).el.tripAt = some 0 ∧ (bayRun s 0).el.bayTrip = true) ∧
    (∃ s : State, (bayRun s 0).el.tripAt = some 0 ∧ (bayRun s 0).el.bayTrip = false ∧ 0 + frzTrip (bayBytes s 0) ≤ endOfMs s) ∧
    (∃ s : State, hifWarm (bayBytes s 0) ≤ (bayRun s 0).el.bkgAge.getD 3 0 ∧ 3 < (bayRun s 0).el.bkgOk.length) ∧
    (∃ s : State, (bayRun s 0).el.bkgAge.getD 3 0 < hifWarm (bayBytes s 0)) ∧
    (∃ s : State, (bayRun s 0).el.vmem = some (0, 0, 0) ∧ 0 + msU (u16At ((grpBytes s 0).drop 0x680) 0xC) < endOfMs s) ∧
    (∃ s : State, (logicBay s 0).ran = true ∧ ((logicBay s 0).data.tmr.getD 0 {}).run = true ∧ 0 < (logicBay s 0).data.tmr.length ∧
      timerOp ((activeImage (logicBay s 0)).getD []) 0 = some 0x40 ∧
      ((logicBay s 0).data.tmr.getD 0 {}).start + tmrPt ((activeImage (logicBay s 0)).getD []) 0 ≤ (logicBay s 0).exec.rn) ∧
    (∃ s : State, (bayCtx s 0).frame = true ∧ 0 < s.prot.bays.length) ∧ (∃ s : State, (bayCtx s 0).frame = false) :=
  ⟨⟨sectioned { ran := true, riPu := true, satEnd := some (1875000 * 2 ^ 32) }, by decide +kernel⟩, ⟨State.reset, by decide +kernel⟩,
   ⟨sectioned { satEnd := some (2 ^ 60) }, by decide +kernel⟩, ⟨live { tripAt := some 0, bayTrip := true } [] [], by decide +kernel⟩,
   ⟨{ live { tripAt := some 0 } [] [] with clk := { len := 2 ^ 80 } }, by decide +kernel⟩,
   ⟨live { bkgAge := [0, 0, 0, 2 ^ 80] } [] [], by decide +kernel⟩, ⟨live {} [] [], by decide +kernel⟩, ⟨live { vmem := some (0, 0, 0) } [] [], by decide +kernel⟩,
   ⟨{ inMode .service with prot := { bays := { logic :=
      { ran := true, data := { tmr := [{ run := true }] }
        banks := [{ image := blk 64 [(0, 1), (4, 1), (12, 1), (0x38, 76)] ++ blk 12 [(0, 1), (11, 0x40), (10, 0x60)] }, {}] } } :: List.replicate 63 {} } }, by decide +kernel⟩,
   ⟨{ live {} [] [] with clk := { ms := 95 } }, by decide +kernel⟩, live {} [] [], by decide +kernel⟩

/-- Bay 0 runs its cycle, and this check of its currents stands. -/
def checking (k : Chk) : State :=
  { live {} [] [] with prot := { bays := { cur := { ran := true, inChk := k } } :: List.replicate 63 {} } }

theorem witness_plausibilityRows :
    (∃ s : State, chkUnit s 0 1 = false) ∧
    (∃ s : State, 0 < s.prot.bays.length ∧ chkUnit s 0 1 = true ∧ (bayRun s 0).inChk.last = false ∧ plbN (bayBytes s 0) ≤ (bayRun s 0).inChk.win.length) ∧
    (∃ s : State, 0 < s.prot.bays.length ∧ chkUnit s 0 1 = true ∧ (bayRun s 0).inChk.last = true ∧ plbW (bayBytes s 0) ≤ (bayRun s 0).inChk.streak) ∧
    (∃ s : State, 0 < s.prot.bays.length ∧ chkUnit s 0 1 = true ∧ (bayRun s 0).inChk.ep = true ∧ (bayRun s 0).inChk.lastExc + plbW (bayBytes s 0) ≤ s.clk.ms ∧
      (bayRun s 0).inChk.recAt = some 0 ∧ s.clk.mono < 0 + secU 60) ∧
    (∃ s : State, 0 < s.prot.bays.length ∧ chkUnit s 0 1 = true ∧ (bayRun s 0).inChk.ep = true ∧ (bayRun s 0).inChk.recAt = none) ∧
    (∃ s : State, 0 < s.prot.bays.length ∧ chkUnit s 0 1 = true ∧ (bayRun s 0).inChk.ep = false) :=
  ⟨⟨State.reset, by decide +kernel⟩, ⟨checking { win := List.replicate 96 0 }, by decide +kernel⟩, ⟨checking { last := true, streak := 480 }, by decide +kernel⟩,
   ⟨checking { ep := true, lastExc := 520, recAt := some 0 }, by decide +kernel⟩, ⟨checking { ep := true }, by decide +kernel⟩, checking {}, by decide +kernel⟩

/-- Bay 0's active bank holds a program of a variable, a timer, a counter and an edge. -/
def programmed (x : LExec) (f : List Force) : State :=
  let bank : Bank := { image := blk 64 [(0, 1), (4, 9), (8, 1), (12, 1 + 512 + 262144), (0x38, 132)] ++ zeros 68 }
  { inMode .service with prot := { bays := ({ logic := { banks := [bank, {}], exec := x, forces := f } } :: List.replicate 63 {}) } }

theorem witness_logicInstructions :
    (∀ t, ∃ s : State, (logicBay s 0).exec.stack = (true, t) :: []) ∧
    (∃ s : State, mayRead (pNvar (logicCtx s 0).img) 0x500000 = true ∧ mayWrite (pNvar (logicCtx s 0).img) 0x500000 = true ∧ forcedAt (logicCtx s 0) 0x500000 = none) ∧
    (∃ s : State, mayWrite (pNvar (logicCtx s 0).img) 0x400000 = true ∧ forcedAt (logicCtx s 0) 0x400000 = some true) ∧
    (∃ s : State, mayRead (pNvar (logicCtx s 0).img) 0x500001 = false ∧ mayWrite (pNvar (logicCtx s 0).img) 0x500001 = false) ∧
    (∃ s : State, opSpace 0x800000 = 8 ∧ opIndex 0x800000 < pNedg (logicCtx s 0).img ∧ opSpace 0x600000 = 6 ∧ opIndex 0x600000 < pNtmr (logicCtx s 0).img ∧
      opSpace 0x700000 = 7 ∧ opIndex 0x700000 < pNcnt (logicCtx s 0).img) ∧
    (∃ s : State, pNedg (logicCtx s 0).img ≤ opIndex 0x800001 ∧ pNtmr (logicCtx s 0).img ≤ opIndex 0x600001 ∧ pNcnt (logicCtx s 0).img ≤ opIndex 0x700001) ∧
    (∃ s : State, (logicBay s 0).exec.idx + 8 + 1 ≤ pNinstr (logicCtx s 0).img) ∧ (∃ s : State, pNinstr (logicCtx s 0).img < (logicBay s 0).exec.idx + 9 + 1) ∧
    (∃ t : LTimer, t.resume = false ∧ t.inn = true ∧ t.run = true ∧ t.q = true) ∧ (∃ t : LTimer, t.resume = false ∧ t.inn = false ∧ t.q = false) ∧
    (∃ t : LTimer, t.resume = false ∧ t.inn = true ∧ t.run = true ∧ t.q = false) :=
  ⟨fun t => ⟨programmed { stack := [(true, t)] } [], rfl⟩, ⟨programmed {} [], by decide +kernel⟩,
   ⟨programmed {} [{ ident := false, where_ := 0x400000, value := true }], by decide +kernel⟩, ⟨programmed {} [], by decide +kernel⟩, ⟨programmed {} [], by decide +kernel⟩,
   ⟨programmed {} [], by decide +kernel⟩, ⟨programmed {} [], by decide +kernel⟩, ⟨programmed {} [], by decide +kernel⟩,
   ⟨{ inn := true, run := true, q := true }, by decide⟩, ⟨{}, by decide⟩, { inn := true, run := true }, by decide⟩

def logicAt (x : LogicBay) : State := { inMode .service with prot := { bays := { logic := x } :: List.replicate 63 {} } }

theorem witness_logicFailures :
    (∃ s : State, (logicBay s 0).ran = true ∧ (logicBay s 0).exec.ms = s.clk.ms ∧ (logicBay s 0).overrunState = 0 ∧ 0 < s.prot.bays.length) ∧
    (∃ s : State, (logicBay s 0).ran = true ∧ (logicBay s 0).overrunState = 2 ∧ s.mode.clusters.getD 0 .outOfService = .active ∧ s.mode.tko.getD 0 .none = .none ∧
      0 < s.mode.tko.length) ∧ (∃ s : State, (logicBay s 0).ran = false) :=
  ⟨⟨logicAt { ran := true, exec := { ms := 7 } }, by decide +kernel⟩, ⟨logicAt { ran := true, overrunState := 2 }, by decide +kernel⟩, State.reset, by decide⟩

/-- Pin 31 belongs to bay 0's slot 0 with these settings. -/
def pinned (x : PinSt) (cfg : List (Nat × Nat)) : State :=
  { live {} [] [] with clk := { sclk := true, ms := 1000, len := 2 ^ 80 }, trip := { driven := true, pins := List.replicate 31 {} ++ [{ x with owner := some (0, 0), cfg := blk 16 cfg }] } }

theorem witness_tripRows :
    (∃ s : State, 31 < s.trip.pins.length ∧ (pinSt s 31).level = true ∧ (pinSt s 31).tOn + msU (tsMinPulse (pinSt s 31).cfg) ≤ endOfMs s) ∧
    (∃ s : State, sealBay (pinSt s 31) = some 0 ∧ s.mode.mode.runs = true ∧ s.mode.fsActive.getD 0 false = false ∧ s.mode.tko.getD (clusterOf 0) .none = .none ∧
      (pinSt s 31).demand = false ∧ demandNext s 31 = false ∧ (pinSt s 31).level = true ∧ (pinSt s 31).minp = true ∧
      (pinSt s 31).tOn + msU (tsMinPulse (pinSt s 31).cfg) ≤ endOfMs s ∧ (pinSt s 31).tOff = some 0 ∧ (pinSt s 31).sealed = true ∧
      0 + msU (tsSealMax (pinSt s 31).cfg) ≤ endOfMs s) ∧
    (∃ s : State, (pinSt s 31).demand = true) ∧ (∃ s : State, (pinSt s 31).level = false ∧ (pinSt s 31).tOff = none) ∧
    (∃ s : State, s.trip.pins.length = 32 ∧ s.trip.trb.length = 32 ∧ tsRbEn (pinSt s 31).cfg = true ∧ (sealBay (pinSt s 31)).isSome = true ∧
      (pinSt s 31).rbFail = false ∧ rbExpected s 31 = false ∧ (pinSt s 31).changedAt + usU 120 < s.clk.mono) ∧
    (∃ s : State, s.trip.pins.length = 32 ∧ s.trip.trb.length = 32 ∧ (pinSt s 31).tcsSince = some (true, 0) ∧ tsTcsEn (pinSt s 31).cfg = true ∧
      (sealBay (pinSt s 31)).isSome = true ∧ tcsSuspended s 31 = false ∧ tcsMean s 31 = some 0 ∧
      (decide (tsTcsLo (pinSt s 31).cfg * 16 ≤ 0) && decide (0 ≤ tsTcsHi (pinSt s 31).cfg * 16)) = true ∧ 0 + msU (tsTcsT (pinSt s 31).cfg) ≤ s.clk.mono) ∧
    (∃ s : State, s.trip.bi.length = 64 ∧ (s.trip.bi.getD 63 {}).raw = (s.trip.bi.getD 63 {}).accepted) ∧
    (∃ s : State, s.trip.bi.length = 64 ∧ (s.trip.bi.getD 63 {}).raw ≠ (s.trip.bi.getD 63 {}).accepted ∧ max s.clk.mono 0 < (s.trip.bi.getD 63 {}).rawAt + debounce s 63) :=
  ⟨⟨pinned { level := true } [], by decide +kernel⟩, ⟨pinned { level := true, minp := true, sealed := true, tOff := some 0 } [], by decide +kernel⟩,
   ⟨pinned { demand := true } [], by decide +kernel⟩, ⟨State.reset, by decide +kernel⟩,
   ⟨{ pinned {} [(2, 1)] with clk := { mono := 2 ^ 60 } }, by decide +kernel⟩,
   ⟨{ pinned { tcsSince := some (true, 0) } [(2, 4)] with
      clk := { mono := msU 600 }, aux := { cfg := { entries := [⟨0, 0, 0⟩] }, means := some (0, 0) :: List.replicate 19 none } }, by decide +kernel⟩,
   ⟨State.reset, by decide⟩, { State.reset with trip := { bi := List.replicate 63 {} ++ [{ raw := true, rawAt := 2 ^ 60 }] } }, by decide +kernel⟩

def moded (m : ModeSt) : State := { inMode .service with mode := { m with mode := .service } }

theorem witness_supervisionRows :
    (∃ s : State, s.mode.tko.length = 8 ∧ s.mode.standbys.length = 4 ∧ s.mode.clusters.length = 8 ∧ s.mode.clusters.getD 7 .outOfService = .active ∧
      s.mode.tko.getD 7 .none = .none ∧ servesCluster s 7 = true ∧ s.mode.standbys.getD 3 .absent = .ready ∧ standbyServes s 3 = true) ∧
    (∃ s : State, servesCluster s 7 = false ∧ standbyServes s 3 = false) ∧
    (∃ s : State, s.mode.standbys.length = 4 ∧ s.mode.standbys.getD 3 .absent = .inUse 1 ∧ s.mode.clusters.getD 7 .outOfService = .covered ∧ s.mode.tko.getD 7 .none = .none) ∧
    (∃ s : State, s.mode.tko.length = 8 ∧ s.mode.tko.getD 7 .none = .replaying 5) ∧
    (∃ s : State, (findInst s.supv 5 0).lasting = true ∧ s.clk.mono < (findInst s.supv 5 0).lastEvent + 1 ∧ (monitor 5).clear.isSome = true) ∧
    (∃ s : State, (findInst s.supv 6 1).lasting = false ∧ (findInst s.supv 6 1).episode = true) ∧
    (∃ s : State, (findInst s.supv 6 0).episode = false) ∧ (∃ s : State, s.mode.supvRst = true) ∧ (∃ s : State, s.mode.supvRst = false ∧ isLasting s 6 0 = false) ∧
    (∃ s : State, isLasting s 6 0 = true) :=
  ⟨⟨moded {}, by decide +kernel⟩, ⟨State.reset, by decide +kernel⟩,
   ⟨moded { standbys := List.replicate 3 .ready ++ [.inUse 1], clusters := List.replicate 7 .active ++ [.covered] }, by decide +kernel⟩,
   ⟨moded { tko := List.replicate 7 .none ++ [.replaying 5] }, by decide +kernel⟩,
   ⟨{ State.reset with supv := { insts := [{ id := 5, inst := 0, lasting := true }] } }, by decide +kernel⟩,
   ⟨{ State.reset with supv := { insts := [{ id := 6, inst := 1, episode := true }] } }, by decide +kernel⟩, ⟨State.reset, by decide +kernel⟩,
   ⟨moded { supvRst := true }, rfl⟩, ⟨State.reset, by decide +kernel⟩, { State.reset with supv := { insts := [{ id := 6, inst := 0, lasting := true }] } }, by decide +kernel⟩

def anEvent : Event := mkEventAt State.reset 0 Src.log 1 0 []

/-- Region 3 is armed with SYS_EN and AUTO, and a record has ended. -/
def armedRegion (recs : List Rec) : State :=
  { running with
    tbl := { bay := [{ bytes := blk 512 [(0, 1), (4, 1)] }], trigger := [{ bytes := blk 512 [(0x60, 3)] }] }
    rec_ := { regions := List.replicate 4 { armed := some { block := blk 128 [(0, 64), (12, 0xFF)], hist := 0, histKib := 0, store := 0, storeKib := 0, bays := [], quals := [] }, recs := recs }
              cwIgnore := [1, 0, 0, 0] } }

theorem witness_recordAndLogRows :
    (∃ s : State, 0 * uPerNs < s.rec_.cwIgnore.getD (4 - 4) 0) ∧
    (∃ (s : State) (m : ArmSt), s.rec_.cwIgnore.getD (7 - 4) 0 ≤ 0 * uPerNs ∧ 3 < s.variant.regions ∧ 3 < s.rec_.regions.length ∧ (region s 3).armed = some m ∧
      sysTakes m 7 true = true ∧ sysTakes m 7 false = false ∧ recording s 3 = true ∧ armAuto m = true) ∧
    (∃ s : State, tcKind (tcBytes (trgBytes s 0) 0) = 3 ∧ 0 ∈ runningBays s ∧ recording s (regionOf (clusterOf 0)) = true ∧ s.prot.inCycle = true) ∧
    (∃ s : State, s.prot.inCycle = false ∧ (region s 3).armed = none) ∧
    (∃ (s : State) (x : Rec), (region s 3).recs.find? (fun x => x.state == .open_ && x.ended) = some x ∧ 3 < s.rec_.regions.length) ∧
    (∃ s : State, (region s 3).recs.find? (fun x => x.state == .open_ && x.ended) = none) ∧
    (∃ (s : State) (o : Overflow), s.log.overflow = some o ∧ s.log.queue.length ≤ 768) ∧ (∃ s : State, s.log.overflow = none) ∧
    (∃ s : State, s.mode.mode ≠ .boot ∧ s.mode.mode ≠ .backup ∧ brokenSeals s.log.records = []) ∧ (∃ s : State, s.mode.mode = .boot) :=
  ⟨⟨armedRegion [], by decide⟩, ⟨armedRegion [], _, by decide, by decide, by decide, rfl, by decide +kernel⟩, ⟨armedRegion [], by decide +kernel⟩,
   ⟨State.reset, by decide +kernel⟩, ⟨armedRegion [{ id := 1, ended := true }], _, rfl, by decide⟩, ⟨State.reset, by decide +kernel⟩,
   ⟨{ State.reset with log := { overflow := some { count := 1, firstSource := 0, firstMs := 0, lastMs := 0, first := anEvent } } }, _, rfl, by decide⟩,
   ⟨State.reset, rfl⟩, ⟨inMode .service, by decide +kernel⟩, State.reset, rfl⟩

/-! ### Loops, trace, DMA, self-tests, console and the Milestone -/

/-- Loop 31 on, and this injection and trace. -/
def looped (j : Option InjSt) (t : Option TraceSt) : State :=
  { inMode .service with loops := { loops := List.replicate 31 {} ++ [{ on := true }], inj := j, trace := t } }

def anInj (a : Nat) : InjSt := { loop := 31, cmd := consoleRef, block := blk 64 [(8, 4), (0x20, a)], k := 4, capDone := true }

def aTrace (x : TraceSt) : TraceSt := { x with block := blk 128 [] }

theorem witness_loopAndTraceRows :
    (∃ s : State, isUserLoop 9 = false ∧ (loopSt s 30).on = false) ∧
    (∃ s : State, isUserLoop 31 = true ∧ (loopSt s 31).on = true ∧ s.clk.ms % 2 ^ rateDiv (loopBytes s 31) = 0 ∧ (loopSt s 31).servedMs ≠ some s.clk.ms) ∧
    (∃ s : State, steers s.time = true) ∧ (∃ s : State, steers s.time = false) ∧ (∃ s : State, s.variant ≠ .k64) ∧ (∃ s : State, s.loops.inj = none ∧ s.loops.trace = none) ∧
    (∃ (s : State) (x : InjSt), s.loops.inj = some x ∧ x.capDone = false) ∧
    (∃ (s : State) (x : InjSt), s.loops.inj = some x ∧ x.capDone = true ∧ x.written = false ∧ u64At x.block 0x20 % 2 = 1 ∧ (x.stop = true ∨ injPre x.block + injDur x.block ≤ x.k) ∧
      reachable s .mbx (u64At x.block 0x20 / 64 * 64) (captureBytes x).length = true) ∧
    (∃ (s : State) (x : InjSt), s.loops.inj = some x ∧ x.capDone = true ∧ x.written = false ∧ u64At x.block 0x20 % 2 = 1 ∧
      reachable s .mbx (u64At x.block 0x20 / 64 * 64) (captureBytes x).length = false) ∧
    (∃ (s : State) (x : TraceSt), s.loops.trace = some x ∧ x.ended = false ∧ x.trig = none ∧ trigComes s x = true) ∧
    (∃ (s : State) (x : TraceSt), s.loops.trace = some x ∧ x.trig ≠ none ∧ x.ended = true) ∧ (∃ (s : State) (x : TraceSt), s.loops.trace = some x ∧ x.ended = false) :=
  ⟨⟨State.reset, by decide⟩, ⟨looped none none, by decide +kernel⟩, ⟨{ State.reset with time := { state := .locked } }, by decide⟩,
   ⟨{ State.reset with time := { state := .holdover } }, by decide⟩, ⟨{ State.reset with variant := .k8 }, by decide⟩, ⟨State.reset, by decide⟩,
   ⟨looped (some { anInj 1 with capDone := false }) none, _, rfl, rfl⟩, ⟨looped (some (anInj 1)) none, _, rfl, by decide +kernel⟩,
   ⟨looped (some (anInj (131072 + 1))) none, _, rfl, by decide +kernel⟩, ⟨looped none (some (aTrace { cmd := consoleRef, block := [] })), _, rfl, by decide +kernel⟩,
   ⟨looped none (some (aTrace { cmd := consoleRef, block := [], ended := true, trig := some (0, 7) })), _, rfl, by decide⟩,
   looped none (some (aTrace { cmd := consoleRef, block := [] })), _, rfl, rfl⟩

/-- Channel 31 like this; a descriptor of 64 bytes stands at mailbox address 0. -/
def dmaAt (c : DmaCh) (d : Bytes) : State :=
  withBlock d { inMode .service with dma := { ch := List.replicate 31 {} ++ [c] } }

/-- 64 bytes within the mailbox memory, last of its list. -/
def goodDesc : Bytes := blk 32 [(0, 0x1000 + 2 * 2 ^ 48), (8, 0x2000 + 2 * 2 ^ 48), (0x10, 64 + 2 ^ 30)]

theorem witness_dmaRows :
    (∃ s : State, ∀ a, waiting (dmaCh s 31) a = none) ∧
    (∃ (s : State) (o : DmaOp), waiting (dmaCh s 31) .fetch = some o ∧ dmaReach s (dmaCh s 31).descSp (dmaCh s 31).desc 32 = true ∧
      descBad (memRead s (dmaSpace (dmaCh s 31).descSp) (dmaCh s 31).desc 32) = true ∧ o.fails + 1 ≤ (dmaCh s 31).retry ∧ 31 < s.dma.ch.length) ∧
    (∃ s : State, waiting (dmaCh s 31) .fetch ≠ none ∧ dmaReach s (dmaCh s 31).descSp (dmaCh s 31).desc 32 = true ∧
      descBad (memRead s (dmaSpace (dmaCh s 31).descSp) (dmaCh s 31).desc 32) = false) ∧
    (∃ s : State, waiting (dmaCh s 31) .fetch ≠ none ∧ dmaReach s (dmaCh s 31).descSp (dmaCh s 31).desc 32 = false) ∧
    (∃ (s : State) (o : DmaOp) (t : Nat), (dmaCh s 31).ops.find? (fun o => o.a == .fetch) = some o ∧ o.retryAt = some t ∧ 31 < s.dma.ch.length) ∧
    (∃ s : State, (dmaCh s 31).st = .paced ∧ (dmaCh s 31).halting = none ∧ ∀ o ∈ (dmaCh s 31).ops, o.a ≠ .count) ∧
    (∃ s : State, (∃ o ∈ (dmaCh s 31).ops, o.a = .count) ∧ waiting (dmaCh s 31) .count ≠ none ∧
      dmaReach s (accessAt (dmaCh s 31) .count).1 (accessAt (dmaCh s 31) .count).2.1 (accessAt (dmaCh s 31) .count).2.2 = true) ∧
    (∃ s : State, waiting (dmaCh s 31) (.read 0) ≠ none ∧ dmaReach s (accessAt (dmaCh s 31) (.read 0)).1 (accessAt (dmaCh s 31) (.read 0)).2.1 (accessAt (dmaCh s 31) (.read 0)).2.2 = true) ∧
    (∃ s : State, waiting (dmaCh s 31) (.write 0) ≠ none ∧ dmaReach s (accessAt (dmaCh s 31) (.write 0)).1 (accessAt (dmaCh s 31) (.write 0)).2.1 (accessAt (dmaCh s 31) (.write 0)).2.2 = true) ∧
    (∃ s : State, waiting (dmaCh s 31) .back ≠ none ∧ dmaReach s (dmaCh s 31).descSp ((dmaCh s 31).desc + 0x10) 8 = true) :=
  let op (a : DmaAccess) : List DmaOp := [{ a := a, at_ := 0 }]
  ⟨⟨State.reset, fun _ => rfl⟩, ⟨dmaAt { descSp := 2, ops := op .fetch, retry := 1 } [], { a := .fetch, at_ := 0 }, by decide +kernel⟩,
   ⟨dmaAt { descSp := 2, ops := op .fetch } goodDesc, by decide +kernel⟩, ⟨dmaAt { descSp := 3, ops := op .fetch } [], by decide +kernel⟩,
   ⟨dmaAt { ops := [{ a := .fetch, at_ := 0, fails := 1, retryAt := some 9 }] } [], _, _, rfl, rfl, by decide⟩, ⟨dmaAt { st := .paced } [], by decide +kernel⟩,
   ⟨dmaAt { st := .paced, paceSp := 2, ops := op .count } [], by decide +kernel⟩,
   ⟨dmaAt { st := .running, d := some goodDesc, ops := op (.read 0), reads := [{ pos := 0, n := 64 }] } [], by decide +kernel⟩,
   ⟨dmaAt { st := .running, d := some goodDesc, ops := op (.write 0), writes := [{ pos := 0, n := 64, data := zeros 64 }] } [], by decide +kernel⟩,
   dmaAt { st := .running, descSp := 2, ops := op .back } [], by decide +kernel⟩

def tested (m : Mode) (t : Option TestRun) : State := { inMode m with svc := { test := t } }

theorem witness_testRows :
    Meets wmkJudge (fun c b => c.unit == 1 && (wmk0Latest b).diff) ∧ Meets wmkJudge (fun c b => c.unit == 0 && !(wmk0Latest b).diff) ∧
    Meets testJudge (fun c b => c.at_ 0x14 8 1 == 1 && b.svc.test.isNone) ∧ Meets testJudge (fun c b => c.at_ 0x14 8 1 == 1 && b.svc.test.isSome) ∧
    Meets testJudge (fun c b => c.at_ 0x14 8 1 == 0 && b.svc.test.isSome) ∧
    Meets testJudge (fun c b => c.at_ 0x14 8 1 == 0 && b.svc.test.isNone && !testReady b (c.at_ 0x14 0 8) c.unit) ∧
    Meets testJudge (fun c b => c.at_ 0x14 8 1 == 0 && b.svc.test.isNone && testReady b (c.at_ 0x14 0 8) c.unit) ∧
    (∃ s : State, s.svc.test = none) ∧ (∃ (s : State) (t : TestRun), s.svc.test = some t ∧ testWaits s t = true) ∧
    (∃ (s : State) (t : TestRun), s.svc.test = some t ∧ testWaits s t = false ∧ t.id < s.svc.results.length) ∧ (∃ s : State, s.trip.pulse = none) ∧
    (∃ (s : State) (p e : Nat), s.trip.pulse = some (p, e) ∧ endOfMs s < e) ∧ (∃ (s : State) (p e : Nat), s.trip.pulse = some (p, e) ∧ e ≤ endOfMs s) :=
  ⟨meets (entry 0x1401 1 0 0 []) { inMode .service with svc := { wmk := [{ diff := true }, {}] } } (by decide +kernel),
   meets (entry 0x1401 0 0 0 [(0x14, 8 + 50 * 16), (0x18, 0xF7)]) (inMode .service) (by decide +kernel),
   meets (entry 0x1402 0 0 0 [(0x14, 256)]) (inMode .service) (by decide +kernel),
   meets (entry 0x1402 0 0 0 [(0x14, 256)]) (tested .service (some { id := 9, unit := 0, param := 10 })) (by decide +kernel),
   meets (entry 0x1402 63 0 0 [(0x14, 5), (0x18, 60000)]) (tested .service (some { id := 9, unit := 0, param := 10 })) (by decide +kernel),
   meets (entry 0x1402 0 0 0 [(0x14, 11)]) (inMode .service) (by decide +kernel),
   meets (entry 0x1402 31 0 0 [(0x14, 4), (0x18, 10)]) (inMode .commission) (by decide +kernel),
   ⟨State.reset, rfl⟩, ⟨tested .service (some { id := 1, unit := 0, param := 0 }), _, rfl, by decide⟩,
   ⟨tested .service (some { id := 15, unit := 3, param := 0 }), _, rfl, by decide +kernel⟩, ⟨State.reset, rfl⟩,
   ⟨{ State.reset with trip := { pulse := some (31, 2 ^ 60) } }, _, _, rfl, by decide⟩, { State.reset with trip := { pulse := some (31, 0) } }, _, _, rfl, by decide⟩

/-- The console unlocked or not, on a machine whose slot 5 has a service key. -/
def console (on : Bool) (n : Option (Nat × Nat × Nat)) : State :=
  { inMode .service with
    svc := { unlocked := on, nonce := n }
    sec := { slots := List.replicate 5 {} ++ [{ use := 5, key := zeros 32 }] ++ List.replicate 26 {} } }

theorem witness_consoleLocked :
    (∃ s : State, xarikRuns s = true ∧ s.mode.warm = none ∧ s.mode.supvRst = false ∧ s.svc.late = none ∧ s.svc.unlocked = false ∧ serviceSlot s = none) ∧
    (∃ s : State, xarikRuns s = true ∧ s.mode.warm = none ∧ s.mode.supvRst = false ∧ s.svc.late = none ∧ s.svc.unlocked = true ∧
      s.clk.mono < s.svc.lineAt + secU 900 ∧ serviceSlot s = some 5) ∧
    (∃ (s b : State) (token : BitVec 64), xarikRuns s = true ∧ s.mode.warm = none ∧ s.mode.supvRst = false ∧ s.svc.late = none ∧ s.svc.unlocked = false ∧
      b = { s with svc := { s.svc with lineAt := s.clk.mono } } ∧ unlockOk b 5 token = true) ∧
    (∃ (s b : State) (token : BitVec 64), xarikRuns s = true ∧ s.mode.warm = none ∧ s.mode.supvRst = false ∧ s.svc.late = none ∧ s.svc.unlocked = false ∧
      b = { s with svc := { s.svc with lineAt := s.clk.mono } } ∧ unlockOk b 5 token = false) := by
  refine ⟨⟨inMode .service, by decide +kernel⟩, ⟨console true none, by decide +kernel⟩, ?_, ⟨console false none, _, 0, rfl, rfl, rfl, rfl, rfl, rfl, rfl⟩⟩
  obtain ⟨t, h⟩ := Laws.beBytes_word (unlockToken { use := 5, key := zeros 32 } 5 77) (by simp [unlockToken])
  refine ⟨console false (some (77, 5, 0)), _, t, rfl, rfl, rfl, rfl, rfl, rfl, ?_⟩
  have e : ((console false (some (77, 5, 0))).sec.slots.getD 5 {}) = { use := 5, key := zeros 32 } := rfl
  simp only [unlockOk, e]
  simp only [console, inMode, h, beq_self_eq_true, Bool.and_true, Bool.and_eq_true, decide_eq_true_eq, secU, uPerNs]
  decide

/-- The boot ROM serves the recovery set; the active slot holds what has been loaded so far. -/
def recovering (b : Bytes) (n : Nat) : State :=
  { State.reset with
    mode := { fatal := true, bootCode := 0xE3 }, svc := { fwdEnd := n }
    sec := { fw := [{ image := b, valid := false }, {}] } }

theorem witness_consoleRows :
    (∃ s : State, s.svc.late = none ∧ xarikRuns s = true ∧ s.mode.warm = none ∧ s.mode.supvRst = false ∧ s.svc.unlocked = true ∧
      s.clk.mono < s.svc.lineAt + secU 900 ∧ s.mode.restart = none ∧ s.svc.confirmTo = none) ∧
    (∃ (s : State) (a : Nat), s.svc.late = none ∧ xarikRuns s = true ∧ s.mode.warm = none ∧ s.mode.supvRst = false ∧ s.svc.unlocked = true ∧
      s.clk.mono < s.svc.lineAt + secU 900 ∧ s.svc.confirmTo = some a ∧ s.clk.mono ≤ a) ∧
    (∃ s : State, s.svc.late = none ∧ s.svc.unlocked = false ∧ xarikRuns s = true ∧ s.mode.supvRst = true) ∧
    (∃ s : State, s.svc.late = none ∧ s.svc.unlocked = false ∧ recoveryMode s = true ∧ s.svc.fwdEnd = 64 ∧ s.sec.active < s.sec.fw.length ∧
      imageFault s.variant s.sec.minSvn (s.sec.fw.getD s.sec.active {}).image = some 1) ∧
    (∀ img, imageFault State.reset.variant State.reset.sec.minSvn img = none → ∃ s : State, s.svc.late = none ∧ s.svc.unlocked = false ∧ recoveryMode s = true ∧
      imageFault s.variant s.sec.minSvn (s.sec.fw.getD s.sec.active {}).image = none ∧ s.sec.active < s.sec.fw.length) ∧
    (∃ s : State, s.svc.nonce = none) ∧ (∃ (s : State) (n k a : Nat), s.svc.nonce = some (n, k, a)) :=
  ⟨⟨console true none, by decide +kernel⟩, ⟨{ console true none with svc := { unlocked := true, confirmTo := some 9 } }, 9, by decide +kernel⟩,
   ⟨moded { supvRst := true }, by decide +kernel⟩, ⟨recovering (zeros 64) 64, by decide +kernel⟩,
   fun img h => ⟨recovering img 0, rfl, rfl, rfl, h, Nat.zero_lt_two⟩, ⟨State.reset, rfl⟩, console false (some (77, 5, 0)), _, _, _, rfl⟩

theorem witness_milestoneRow :
    (∃ s : State, s.clk.sclk = false) ∧ (∃ s : State, s.clk.sclk = true ∧ s.mode.mode ≠ .backup) ∧
    (∃ (m : MsIn) (s : State), coldDue (endMilestone m (sweepLate (setClk (fun k => k.advance (endOfMs s)) s))).1 = none) ∧
    (∃ s : State, coldDue s = some 4) :=
  ⟨⟨State.reset, rfl⟩, ⟨inMode .service, by decide⟩, ⟨{}, inMode .configure, by decide +kernel⟩,
   { inMode .service with mode := { mode := .service, restart := some { src := 4 } } }, by decide +kernel⟩

end Sys2Proof.Tests
end

section
/-! SUPPORT. What supervision leaves as it was: raising a SAFE cause, counting an event, and opening and clearing a fault touch only the
supervision state, the log, the interrupt status and the SAFE causes; and what these do to the count of a unit. -/

namespace Sys2Proof.Machine.Laws
open Sys2Proof.Machine

/-! ### Outside supervision -/

/-- The state with all that supervision writes left blank: its own counts, the log, the interrupt status with its messages, and the
SAFE causes with the entry to SAFE they ask for. -/
def unsupervised (s : State) : State :=
  { s with
    host := { s.host with regs := { s.host.regs with irqStat := 0, pba := 0 } }
    out := { s.out with msix := [] }
    mode := { s.mode with safe := 0, safePend := none }
    log := {}
    supv := {} }

section
variable {s t : State} (h : unsupervised t = unsupervised s)
include h
theorem clk_of_unsupervised : t.clk = s.clk := (congrArg State.clk h :)
theorem trip_of_unsupervised : t.trip = s.trip := (congrArg State.trip h :)
theorem prot_of_unsupervised : t.prot = s.prot := (congrArg State.prot h :)
theorem tko_of_unsupervised : t.mode.tko = s.mode.tko := (congrArg (·.mode.tko) h :)
theorem clusters_of_unsupervised : t.mode.clusters = s.mode.clusters := (congrArg (·.mode.clusters) h :)
theorem standbys_of_unsupervised : t.mode.standbys = s.mode.standbys := (congrArg (·.mode.standbys) h :)
theorem deg_of_unsupervised : t.mode.deg = s.mode.deg := (congrArg (·.mode.deg) h :)
theorem mode_of_unsupervised : t.mode.mode = s.mode.mode := (congrArg (·.mode.mode) h :)
end

section
variable (s : State)

@[simp] theorem unsupervised_ite (p : Prop) [Decidable p] (t : State) :
    unsupervised (if p then s else t) = if p then unsupervised s else unsupervised t := apply_ite ..

@[simp] theorem unsupervised_setSupv (f : SupvSt → SupvSt) : unsupervised (setSupv f s) = unsupervised s := rfl

@[simp] theorem unsupervised_postEvent (src code unit : Nat) (data : Bytes) :
    unsupervised (postEvent src code unit data s) = unsupervised s := rfl

@[simp] theorem unsupervised_raiseSafe (bit : Nat) : unsupervised (raiseSafe bit s) = unsupervised s := rfl

@[simp] theorem unsupervised_sendMsix (v : Nat) : unsupervised (sendMsix v s) = unsupervised s := by
  unfold sendMsix
  dsimp only
  split
  · rfl
  · split <;> rfl

@[simp] theorem unsupervised_raiseIrq (i : Nat) : unsupervised (raiseIrq i s) = unsupervised s := by
  unfold raiseIrq
  dsimp only
  split
  · exact unsupervised_sendMsix _ _
  · rfl

@[simp] theorem unsupervised_lastingAction (id : Nat) : unsupervised (lastingAction id s) = unsupervised s := by
  simp [lastingAction]

@[simp] theorem unsupervised_endEpisode (f : FaultInst) : unsupervised (endEpisode f s) = unsupervised s := by
  simp [endEpisode]

@[simp] theorem unsupervised_clearLasting (id inst : Nat) : unsupervised (clearLasting id inst s) = unsupervised s := by
  simp [clearLasting]

@[simp] theorem unsupervised_clearDue (id inst : Nat) : unsupervised (clearDue id inst s) = unsupervised s := by
  unfold clearDue
  cases (monitor id).clear <;> simp

@[simp] theorem unsupervised_declare (id inst count : Nat) : unsupervised (declare id inst count s) = unsupervised s := by
  simp [declare]

@[simp] theorem unsupervised_countEvent (id inst : Nat) : unsupervised (countEvent id inst s) = unsupervised s := by
  simp [countEvent]

@[simp] theorem unsupervised_openError (d : Nat × Nat × Nat) : unsupervised (openError d s) = unsupervised s := by
  simp [openError]

@[simp] theorem unsupervised_settle : unsupervised (settle s) = unsupervised s :=
  List.foldlRecOn (motive := fun t => unsupervised t = unsupervised s) _ _ (unsupervised_setSupv s _)
    fun _ ht d _ => (unsupervised_openError _ d).trans ht

end

/-! ### The supervision state after the operations that count nothing -/

section
variable (s : State)

@[simp] theorem sendMsix_supv (v : Nat) : (sendMsix v s).supv = s.supv := by
  unfold sendMsix
  dsimp only
  split
  · rfl
  · split <;> rfl

@[simp] theorem raiseIrq_supv (i : Nat) : (raiseIrq i s).supv = s.supv := by
  unfold raiseIrq
  dsimp only
  split
  · exact sendMsix_supv _ _
  · rfl

@[simp] theorem raiseSafe_supv (bit : Nat) : (raiseSafe bit s).supv = s.supv := rfl

@[simp] theorem lastingAction_supv (id : Nat) : (lastingAction id s).supv = s.supv := by
  simp [lastingAction, apply_ite State.supv]

/-- Opening an error changes no count (R533). -/
@[simp] theorem openError_insts (d : Nat × Nat × Nat) : (openError d s).supv.insts = s.supv.insts := by
  simp [openError, startHandler, apply_ite State.supv, apply_ite SupvSt.insts]

@[simp] theorem settle_insts : (settle s).supv.insts = s.supv.insts :=
  List.foldlRecOn (motive := fun t : State => t.supv.insts = s.supv.insts) _ _ rfl fun _ ht d _ => (openError_insts _ d).trans ht

@[simp] theorem isLasting_settle (id inst : Nat) : isLasting (settle s) id inst = isLasting s id inst := by
  simp only [isLasting, findInst, settle_insts]

end

/-! ### The counts of monitored sources -/

section
variable (v : SupvSt) (id inst : Nat)

theorem isInst_findInst : isInst id inst (findInst v id inst) = true := by
  unfold findInst
  cases h : v.insts.find? (isInst id inst) with
  | none => simp [isInst]
  | some f => exact List.find?_some h

@[simp] theorem findInst_id : (findInst v id inst).id = id := by
  have h := isInst_findInst v id inst
  simp only [isInst, Bool.and_eq_true, beq_iff_eq] at h
  exact h.1

@[simp] theorem findInst_inst : (findInst v id inst).inst = inst := by
  have h := isInst_findInst v id inst
  simp only [isInst, Bool.and_eq_true, beq_iff_eq] at h
  exact h.2

@[simp] theorem findInst_setTotals (k : Nat) (f : SrcTotals → SrcTotals) : findInst (setTotals k f v) id inst = findInst v id inst := rfl

@[simp] theorem findInst_batch (b : List (Nat × Nat × Nat)) : findInst { v with batch := b } id inst = findInst v id inst := rfl

/-- A count that was put is found. -/
theorem findInst_putInst {f : FaultInst} (hid : f.id = id) (hinst : f.inst = inst) : findInst (putInst f v) id inst = f := by
  simp [findInst, putInst, isInst, hid, hinst]

end

/-! ### Ends of episodes and of lasting faults (R531, R532) -/

section
variable (s : State) (id inst : Nat)

/-- An episode that ends leaves its unit without one, with an empty count, and as lasting as it was. -/
theorem findInst_endEpisode {f : FaultInst} (hid : f.id = id) (hinst : f.inst = inst) :
    ∃ g, findInst (endEpisode f s).supv id inst = g ∧ g.episode = false ∧ g.events = [] ∧ g.lasting = f.lasting := by
  simp [endEpisode, apply_ite State.supv, findInst_putInst, hid, hinst]

/-- A lasting fault that clears leaves its unit with an empty count. -/
theorem findInst_clearLasting (h : (findInst s.supv id inst).lasting = true) :
    ∃ g, findInst (clearLasting id inst s).supv id inst = g ∧ g.lasting = false ∧ g.events = [] := by
  simp [clearLasting, h, apply_ite State.supv, findInst_putInst]

theorem clearDue_of_not_lasting (h : (findInst s.supv id inst).lasting = false) : clearDue id inst s = s := by
  unfold clearDue
  cases (monitor id).clear <;> simp [h]

theorem clearDue_before (h : ∀ a, (monitor id).clear = some a → s.clk.mono < (findInst s.supv id inst).lastEvent + secU a) :
    clearDue id inst s = s := by
  unfold clearDue
  cases hc : (monitor id).clear with
  | none => rfl
  | some a => simp [Nat.not_le.mpr (h a hc)]

end

/-! ### Counting (R529) -/

section
variable (s : State) (id inst : Nat)

/-- An event of a lasting unit whose clearing time has not passed is counted in the totals and notes its time. -/
theorem countEvent_of_lasting (hl : (findInst s.supv id inst).lasting = true)
    (hc : ∀ a, (monitor id).clear = some a → s.clk.mono < (findInst s.supv id inst).lastEvent + secU a) :
    countEvent id inst s =
      setSupv (fun v => putInst { findInst s.supv id inst with lastEvent := s.clk.mono }
        (setTotals id (fun t => { t with events := satN 32 (t.events + 1) }) v)) s := by
  unfold countEvent
  simp only [clearDue_before s id inst hc, hl, if_true]
  rfl

/-- A declaration makes its unit lasting. -/
theorem findInst_declare_lasting (count : Nat) : (findInst (declare id inst count s).supv id inst).lasting = true := by
  unfold declare
  dsimp only
  split
  · assumption
  · simp [findInst_putInst]

theorem declareIf_lasting_iff {s : State} {id inst : Nat} (hl : (findInst s.supv id inst).lasting = false) (p : Prop) [Decidable p] (count : Nat) :
    (findInst (if p then declare id inst count s else s).supv id inst).lasting = true ↔ p := by
  split <;> simp [*, findInst_declare_lasting]

/-- An event of a unit that is not lasting makes it lasting exactly when its window then holds N events. -/
theorem countEvent_lasting_iff (hl : (findInst s.supv id inst).lasting = false) :
    (findInst (countEvent id inst s).supv id inst).lasting = true ↔
      (monitor id).n ≤ ((findInst s.supv id inst).events.filter (fun a => decide (s.clk.mono < a + (monitor id).w))).length + 1 := by
  have hend (t : State) : (findInst (endEpisode (findInst s.supv id inst) t).supv id inst).lasting = false := by
    obtain ⟨g, hg, -, -, hlast⟩ := findInst_endEpisode t id inst (findInst_id s.supv id inst) (findInst_inst s.supv id inst)
    rw [hg, hlast, hl]
  unfold countEvent
  simp only [clearDue_of_not_lasting s id inst hl, hl, Bool.false_eq_true, if_false, List.length_cons]
  refine declareIf_lasting_iff ?_ _ _
  rw [setSupv_supv, findInst_putInst]
  · dsimp only
    split
    · exact hend _
    · exact hl
  · exact findInst_id ..
  · exact findInst_inst ..

end
end Sys2Proof.Machine.Laws
end

section
/-! SUPPORT. A failure of a cluster or of a standby: what it marks and what it leaves (R22, R23, R27, R392). -/

namespace Sys2Proof.Machine.Laws
open Sys2Proof.Machine

theorem modAt_const {α : Type} (l : List α) (i : Nat) (a : α) : modAt l i (fun _ => a) = l.set i a := by
  refine List.ext_getElem? fun j => ?_
  rw [modAt, List.getElem?_modify, List.getElem?_set']
  cases l[j]? <;> split <;> rfl

/-! ### Clusters -/

section
variable (c kind : Nat) (s : State)

@[simp] theorem failCluster_clusters : (failCluster c kind s).mode.clusters = s.mode.clusters := by
  unfold failCluster
  split <;> rfl

@[simp] theorem failCluster_standbys : (failCluster c kind s).mode.standbys = s.mode.standbys := by
  unfold failCluster
  split <;> rfl

@[simp] theorem failCluster_clk : (failCluster c kind s).clk = s.clk := by
  unfold failCluster
  split <;> rfl

@[simp] theorem failCluster_trip : (failCluster c kind s).trip = s.trip := by
  unfold failCluster
  split <;> rfl

@[simp] theorem failCluster_supv : (failCluster c kind s).supv = s.supv := by
  unfold failCluster
  split <;> rfl

@[simp] theorem failCluster_tko_length : (failCluster c kind s).mode.tko.length = s.mode.tko.length := by
  unfold failCluster
  split <;> simp [modAt_const]

/-- The failure of another cluster leaves the takeover of this one. -/
theorem failCluster_tko_of_ne {d : Nat} (h : d ≠ c) (dflt : Takeover) :
    (failCluster d kind s).mode.tko.getD c dflt = s.mode.tko.getD c dflt := by
  unfold failCluster
  split <;> simp [modAt_const, List.getD_eq_getElem?_getD, List.getElem?_set_ne h]

end

section
variable {s : State} {c kind : Nat}

/-- An active cluster with no takeover is marked failed in this Milestone (R22). -/
theorem failCluster_active (ha : s.mode.clusters.getD c .outOfService = .active) (hn : s.mode.tko.getD c .none = .none) :
    (failCluster c kind s).mode.tko = s.mode.tko.set c (.failed kind s.clk.ms) := by
  unfold failCluster
  rw [ha, hn]
  exact modAt_const ..

/-- A covered cluster is lost with the standby that holds its role (R392). -/
theorem failCluster_covered (hc : s.mode.clusters.getD c .outOfService = .covered) (hn : s.mode.tko.getD c .none = .none) :
    (failCluster c kind s).mode.tko = s.mode.tko.set c (.lost kind s.clk.ms) := by
  unfold failCluster
  rw [hc, hn]
  exact modAt_const ..

/-- A cluster that has failed in this Milestone stays so whichever cluster fails next. -/
theorem failCluster_keeps_failed {k m : Nat} (h : s.mode.tko.getD c .none = .failed k m) (d : Nat) :
    (failCluster d kind s).mode.tko.getD c .none = .failed k m := by
  by_cases hd : d = c
  · subst hd
    unfold failCluster
    rw [h]
    split <;> simp_all
  · rw [failCluster_tko_of_ne c kind s hd, h]

/-- Of clusters that fail together each active one with no takeover is marked. -/
theorem foldl_failCluster_tko {l : List Nat} (hmem : c ∈ l) (ha : s.mode.clusters.getD c .outOfService = .active)
    (hn : s.mode.tko.getD c .none = .none) (hlen : c < s.mode.tko.length) :
    (l.foldl (fun s c => failCluster c kind s) s).mode.tko.getD c .none = .failed kind s.clk.ms := by
  induction l generalizing s with
  | nil => cases hmem
  | cons d l ih =>
    rw [List.foldl_cons]
    by_cases hd : d = c
    · subst hd
      refine List.foldlRecOn (motive := fun t : State => t.mode.tko.getD d .none = .failed kind s.clk.ms) _ _ ?_
        fun _ ht e _ => failCluster_keeps_failed ht e
      simp [failCluster_active ha hn, List.getD_eq_getElem?_getD, hlen]
    · have hc : c ∈ l := (List.mem_cons.mp hmem).resolve_left (Ne.symm hd)
      have hkept := failCluster_tko_of_ne c kind s hd .none
      rw [ih hc (by simpa using ha) (hkept.trans hn) (by simpa using hlen), failCluster_clk]

theorem foldl_failCluster_supv (l : List Nat) : (l.foldl (fun s c => failCluster c kind s) s).supv = s.supv :=
  List.foldlRecOn (motive := fun t : State => t.supv = s.supv) _ _ rfl fun _ ht d _ => (failCluster_supv d kind _).trans ht

end

/-! ### Standbys -/

section
variable {s : State} {r kind : Nat}

/-- A DEGRADED cause that is raised is set (R85). -/
theorem raiseDeg_deg_getLsbD (bit : Nat) (h : bit < 4) : (raiseDeg bit s).mode.deg.getLsbD bit = true := by
  simp only [raiseDeg, setMode_mode, BitVec.getLsbD_or, BitVec.getLsbD_ofNat, Nat.testBit_two_pow_self, h, decide_true,
    Bool.and_self, Bool.or_true]

/-- A ready standby is retired, which degrades the device (R27). -/
theorem failStandby_ready (h : s.mode.standbys.getD r .absent = .ready) :
    failStandby r kind s = raiseDeg DegCause.stbyRetired (setMode (fun m =>
      { m with standbys := m.standbys.set r .retired, parked := modAt m.parked r (fun _ => false) }) s) := by
  unfold failStandby
  rw [h]
  simp only [modAt_const]

/-- A standby in use is retired, and the cluster it covers fails (R392). -/
theorem failStandby_inUse {k : BitVec 1} (h : s.mode.standbys.getD r .absent = .inUse k) :
    failStandby r kind s =
      setMode (fun m => { m with standbys := m.standbys.set r .retired }) (failCluster (2 * r + k.toNat) kind s) := by
  unfold failStandby
  rw [h]
  simp only [modAt_const]

/-- No standby stands beyond the end of their list. -/
theorem standbyServes_of_le (hlen : s.mode.standbys.length ≤ r) : standbyServes s r = false := by
  simp [standbyServes, List.getD_eq_getElem?_getD, List.getElem?_eq_none hlen]

theorem unsupervised_standbyFault (id : Nat) : unsupervised (standbyFault id r kind s) = unsupervised (failStandby r kind s) := by
  simp [standbyFault]

/-- The fault of a ready standby under either of its sources retires it and raises STBY_RETIRED (R27, R23). -/
theorem standbyFault_ready (h : s.mode.standbys.getD r .absent = .ready) (id : Nat) :
    ∃ t, standbyFault id r kind s = t ∧ t.mode.standbys = s.mode.standbys.set r .retired ∧
      t.mode.deg.getLsbD DegCause.stbyRetired = true ∧ t.mode.tko = s.mode.tko ∧ t.mode.mode = s.mode.mode := by
  have hu := unsupervised_standbyFault (s := s) (r := r) (kind := kind) id
  rw [failStandby_ready h] at hu
  refine ⟨_, rfl, standbys_of_unsupervised hu, ?_, (tko_of_unsupervised hu :), (mode_of_unsupervised hu :)⟩
  rw [deg_of_unsupervised hu]
  exact raiseDeg_deg_getLsbD _ (by decide)

end

/-! ### Units that do not serve -/

section
variable {s : State} {u : Nat}

theorem lockstepMismatch_of_not_serves (h : servesCluster s u = false) : lockstepMismatch u s = s := by
  simp [lockstepMismatch, h]

theorem eccCorrected_of_no_unit (hlen : s.mode.standbys.length = 4) (h : 12 ≤ u) : eccCorrected u s = s := by
  have hs : standbyServes s (u - 8) = false := standbyServes_of_le (by omega)
  simp [eccCorrected, hs]
  omega

theorem eccUncorrectable_of_no_unit (hlen : s.mode.standbys.length = 4) (h : 12 ≤ u) : eccUncorrectable u s = s := by
  have hs : standbyServes s (u - 8) = false := standbyServes_of_le (by omega)
  have hu : ¬u < 8 := by omega
  simp [eccUncorrectable, hs, hu]

/-- A corrected error only counts (R23). -/
theorem unsupervised_eccCorrected : unsupervised (eccCorrected u s) = unsupervised s := by
  simp [eccCorrected]

theorem selftestMismatch_of_not_ready (h : standbyServes s u = false ∨ s.mode.standbys.getD u .absent ≠ .ready) :
    selftestMismatch u s = s := by
  unfold selftestMismatch
  rw [if_neg]
  rcases h with h | h <;> simp_all

end

/-! ### Retries of a die's link (R530) -/

section
variable {s : State} {die : Nat}

/-- A retry on a link that is lasting already marks no cluster. -/
theorem linkRetry_of_lasting (h : isLasting s 6 die = true) : unsupervised (linkRetry die s) = unsupervised s := by
  simp [linkRetry, h]

/-- The retry that makes a link lasting fails every active cluster of its die. -/
theorem linkRetry_declares {c : Nat} (hs : isLasting s 6 die = false) (ht : isLasting (linkRetry die s) 6 die = true)
    (hc : c < 8) (hdie : c / 4 = die) (hlen : s.mode.tko.length = 8) (ha : s.mode.clusters.getD c .outOfService = .active)
    (hn : s.mode.tko.getD c .none = .none) : (linkRetry die s).mode.tko.getD c .none = .failed 1 s.clk.ms := by
  have hcount := unsupervised_countEvent s 6 die
  have hd : isLasting (countEvent 6 die s) 6 die = true := by
    simp only [linkRetry, isLasting_settle] at ht
    split at ht
    · simpa only [isLasting, foldl_failCluster_supv] using ht
    · exact ht
  simp only [linkRetry, hs, hd, Bool.not_false, Bool.and_self, if_true]
  rw [tko_of_unsupervised (unsupervised_settle _), ← clk_of_unsupervised hcount]
  have htko := tko_of_unsupervised hcount
  apply foldl_failCluster_tko
  · simp [hc, hdie]
  · rw [clusters_of_unsupervised hcount, ha]
  · rw [htko, hn]
  · rw [htko, hlen]
    exact hc

end
end Sys2Proof.Machine.Laws
end

section
/-! SUPPORT. The rows of clusters, standbys and monitored faults, and the statement that gathers them (R22, R23, R27, R28, R392,
R529-R533). -/

namespace Sys2Proof.Machine.Laws
open Sys2Proof Sys2Proof.Machine

/-! ### The rows by their operations -/

section
variable (s : State)
theorem exec_lockstepMismatch (c : BitVec 3) : exec (.lockstepMismatch c) s = .next (lockstepMismatch c.toNat s) := rfl
theorem exec_sramEccCorrected (u : BitVec 4) : exec (.sramEccCorrected u) s = .next (eccCorrected u.toNat s) := rfl
theorem exec_sramEccUncorrectable (u : BitVec 4) : exec (.sramEccUncorrectable u) s = .next (eccUncorrectable u.toNat s) := rfl
theorem exec_standbySelftestMismatch (r : BitVec 2) : exec (.standbySelftestMismatch r) s = .next (selftestMismatch r.toNat s) := rfl
theorem exec_logicAbort (b : BitVec 6) : exec (.logicAbort b) s = .next (logicAbort b.toNat s) := rfl
theorem exec_logicOverrun (b : BitVec 6) : exec (.logicOverrun b) s = .next (logicOverrun b.toNat s) := rfl
theorem exec_dieToDieLinkRetry (die : BitVec 1) :
    exec (.dieToDieLinkRetry die) s = .next (if die.toNat < s.variant.dies then linkRetry die.toNat s else s) := rfl
theorem exec_lastingFaultDeclared (id : BitVec 5) (inst : BitVec 16) :
    exec (.lastingFaultDeclared id inst) s = .next (sourceEvent id.toNat inst.toNat s) := rfl
end

section
variable {s : State}

/-! ### Clusters and standbys -/

/-- A failure of an active cluster under its source marks it and changes nothing else of clusters, standbys and trip outputs. -/
theorem settle_countEvent_failCluster {c : Nat} (id kind : Nat) (ha : s.mode.clusters.getD c .outOfService = .active)
    (hn : s.mode.tko.getD c .none = .none) : ∃ t, settle (countEvent id c (failCluster c kind s)) = t ∧
      t.mode.tko = s.mode.tko.set c (.failed kind s.clk.ms) ∧ t.mode.clusters = s.mode.clusters ∧ t.mode.standbys = s.mode.standbys ∧
      t.trip = s.trip := by
  have hu : unsupervised (settle (countEvent id c (failCluster c kind s))) = unsupervised (failCluster c kind s) := by simp
  exact ⟨_, rfl, (tko_of_unsupervised hu).trans (failCluster_active ha hn), (clusters_of_unsupervised hu).trans (failCluster_clusters ..),
    (standbys_of_unsupervised hu).trans (failCluster_standbys ..), (trip_of_unsupervised hu).trans (failCluster_trip ..)⟩

theorem exec_clusterFault {c : BitVec 3} {u : BitVec 4} (hu : u.toNat = c.toNat) (ha : s.mode.clusters.getD c.toNat .outOfService = .active)
    (hn : s.mode.tko.getD c.toNat .none = .none) (hs : servesCluster s c.toNat = true) (i : Instr) (k : Nat)
    (hi : (i, k) ∈ [(Instr.lockstepMismatch c, 1), (Instr.sramEccUncorrectable u, 2)]) :
    ∃ t, exec i s = .next t ∧ t.mode.tko = s.mode.tko.set c.toNat (.failed k s.clk.ms) ∧ t.mode.clusters = s.mode.clusters ∧
      t.mode.standbys = s.mode.standbys ∧ t.trip = s.trip := by
  simp only [List.mem_cons, Prod.mk.injEq, List.not_mem_nil, or_false] at hi
  rcases hi with ⟨rfl, rfl⟩ | ⟨rfl, rfl⟩
  · obtain ⟨t, rfl, ht⟩ := settle_countEvent_failCluster 1 1 ha hn
    refine ⟨_, ?_, ht⟩
    rw [exec_lockstepMismatch, lockstepMismatch, if_pos hs]
  · obtain ⟨t, rfl, ht⟩ := settle_countEvent_failCluster 2 2 ha hn
    refine ⟨_, ?_, ht⟩
    have hc : c.toNat < 8 := c.isLt
    rw [exec_sramEccUncorrectable, eccUncorrectable, hu, if_pos (by simp [hs, hc])]

theorem exec_sramEccCorrected_frame (u : BitVec 4) : ∃ t, exec (.sramEccCorrected u) s = .next t ∧ t.mode.tko = s.mode.tko ∧
    t.mode.standbys = s.mode.standbys ∧ t.mode.deg = s.mode.deg ∧ t.prot = s.prot := by
  have hu : unsupervised (eccCorrected u.toNat s) = unsupervised s := unsupervised_eccCorrected
  exact ⟨_, rfl, tko_of_unsupervised hu, standbys_of_unsupervised hu, deg_of_unsupervised hu, prot_of_unsupervised hu⟩

theorem exec_readyStandbyFault {r : BitVec 2} {u : BitVec 4} (hu : u.toNat = 8 + r.toNat) (hr : s.mode.standbys.getD r.toNat .absent = .ready)
    (hs : standbyServes s r.toNat = true) (i : Instr) (hi : i ∈ [Instr.standbySelftestMismatch r, Instr.sramEccUncorrectable u]) :
    ∃ t, exec i s = .next t ∧ t.mode.standbys = s.mode.standbys.set r.toNat .retired ∧
      t.mode.deg.getLsbD DegCause.stbyRetired = true ∧ t.mode.tko = s.mode.tko ∧ t.mode.mode = s.mode.mode := by
  simp only [List.mem_cons, List.not_mem_nil, or_false] at hi
  rcases hi with rfl | rfl
  · obtain ⟨t, rfl, ht⟩ := standbyFault_ready (kind := 1) hr 4
    refine ⟨_, ?_, ht⟩
    rw [exec_standbySelftestMismatch, selftestMismatch, if_pos (by simp only [hr, hs, beq_self_eq_true, Bool.and_self])]
  · obtain ⟨t, rfl, ht⟩ := standbyFault_ready (kind := 2) hr 2
    refine ⟨_, ?_, ht⟩
    have hactive : ¬8 + r.toNat < 8 := by omega
    have hstandby : 8 ≤ 8 + r.toNat := Nat.le_add_right ..
    rw [exec_sramEccUncorrectable, eccUncorrectable, hu, Nat.add_sub_cancel_left, decide_eq_false hactive, decide_eq_true hstandby, hs]
    rfl

theorem exec_standbyReplayMismatch_inUse {r : BitVec 2} {k : BitVec 1} (h : s.mode.standbys.getD r.toNat .absent = .inUse k) :
    ∃ t, exec (.standbyReplayMismatch r) s = .next t ∧ t.mode.standbys = s.mode.standbys.set r.toNat .retired ∧
      (s.mode.clusters.getD (2 * r.toNat + k.toNat) .outOfService = .covered → s.mode.tko.getD (2 * r.toNat + k.toNat) .none = .none →
        t.mode.tko = s.mode.tko.set (2 * r.toNat + k.toNat) (.lost 1 s.clk.ms)) := by
  have he : exec (.standbyReplayMismatch r) s = .next (settle (countEvent 1 (2 * r.toNat + k.toNat) (failStandby r.toNat 1 s))) := by
    change execStandbyReplayMismatch r s = _
    rw [execStandbyReplayMismatch, h]
  have hu : unsupervised (settle (countEvent 1 (2 * r.toNat + k.toNat) (failStandby r.toNat 1 s))) = unsupervised (failStandby r.toNat 1 s) := by simp
  rw [failStandby_inUse h] at hu he
  refine ⟨_, he, (standbys_of_unsupervised hu).trans ?_, fun hc hn => (tko_of_unsupervised hu).trans (failCluster_covered hc hn)⟩
  rw [setMode_mode, failCluster_standbys]

theorem exec_standbyReplayMismatch_of_not_inUse {r : BitVec 2} (h : ∀ k, s.mode.standbys.getD r.toNat .absent ≠ .inUse k) :
    exec (.standbyReplayMismatch r) s = .next s := by
  change execStandbyReplayMismatch r s = _
  unfold execStandbyReplayMismatch
  split
  · exact absurd ‹_› (h _)
  · rfl

theorem exec_standbyTakeover_replaying {c : BitVec 3} {m : Nat} (h : s.mode.tko.getD c.toNat .none = .replaying m) :
    ∃ t, exec (.standbyTakeover c) s = .next t ∧ t.mode.clusters = s.mode.clusters.set c.toNat .covered ∧
      t.mode.deg.getLsbD DegCause.stbyInUse = true ∧ t.mode.tko = s.mode.tko ∧ t.mode.mode = s.mode.mode := by
  have he : exec (.standbyTakeover c) s = .next (isolate c.toNat s) := by
    change execStandbyTakeover c s = _
    rw [execStandbyTakeover, h]
  exact ⟨_, he, modAt_const .., raiseDeg_deg_getLsbD _ (by decide), rfl, rfl⟩

theorem exec_standbyTakeover_of_not_replaying {c : BitVec 3} (h : ∀ m, s.mode.tko.getD c.toNat .none ≠ .replaying m) :
    exec (.standbyTakeover c) s = .next s := by
  change execStandbyTakeover c s = _
  unfold execStandbyTakeover
  split
  · exact absurd ‹_› (h _)
  · rfl

/-! ### Monitored faults -/

theorem sourceEvent_counts {id inst : Nat} (h : (id = 16 ∧ inst < 32) ∨ (id ∈ [18, 19, 22] ∧ inst = 0)) :
    sourceEvent id inst s = settle (countEvent id inst s) := by
  rcases h with ⟨rfl, hinst⟩ | ⟨hid, rfl⟩
  · simp [sourceEvent, hinst]
  · simp only [List.mem_cons, List.not_mem_nil, or_false] at hid
    rcases hid with rfl | rfl | rfl <;> rfl

theorem sourceEvent_of_no_source {id : Nat} (inst : Nat) (h : id = 0 ∨ 24 ≤ id) : sourceEvent id inst s = s := by
  rcases h with rfl | h
  · rfl
  · obtain ⟨n, rfl⟩ := Nat.exists_eq_add_of_le' h
    rfl

theorem exec_lastingFaultCleared_of_lasting {id : BitVec 5} {inst : BitVec 16} (hl : (findInst s.supv id.toNat inst.toNat).lasting = true)
    {a : Nat} (ha : (monitor id.toNat).clear = some a) :
    ∃ t, exec (.lastingFaultCleared id inst) s = .next t ∧ (findInst t.supv id.toNat inst.toNat).lasting = false ∧
      (findInst t.supv id.toNat inst.toNat).events = [] ∧ t.clk = s.clk.advance ((findInst s.supv id.toNat inst.toNat).lastEvent + secU a) := by
  have he : exec (.lastingFaultCleared id inst) s = .next (clearLasting id.toNat inst.toNat
      (setClk (·.advance ((findInst s.supv id.toNat inst.toNat).lastEvent + secU a)) s)) := by
    change execLastingFaultCleared id inst s = _
    simp only [execLastingFaultCleared, hl, ha, findInst_id, findInst_inst]
  obtain ⟨g, rfl, hgl, hge⟩ := findInst_clearLasting (setClk (·.advance ((findInst s.supv id.toNat inst.toNat).lastEvent + secU a)) s)
    id.toNat inst.toNat hl
  exact ⟨_, he, hgl, hge, (clk_of_unsupervised (unsupervised_clearLasting ..) :)⟩

theorem exec_lastingFaultCleared_of_none {id : BitVec 5} {inst : BitVec 16}
    (h : (findInst s.supv id.toNat inst.toNat).lasting = false ∨ (monitor id.toNat).clear = none) :
    exec (.lastingFaultCleared id inst) s = .next s := by
  change execLastingFaultCleared id inst s = _
  unfold execLastingFaultCleared
  rcases h with h | h
  · simp only [h]
  · simp only [h]
    cases (findInst s.supv id.toNat inst.toNat).lasting <;> rfl

theorem exec_transientEpisodeEnd_of_episode {id : BitVec 5} {inst : BitVec 16} (he : (findInst s.supv id.toNat inst.toNat).episode = true)
    (hl : (findInst s.supv id.toNat inst.toNat).lasting = false) :
    ∃ t, exec (.transientEpisodeEnd id inst) s = .next t ∧ (findInst t.supv id.toNat inst.toNat).episode = false ∧
      (findInst t.supv id.toNat inst.toNat).events = [] ∧
      t.clk = s.clk.advance ((findInst s.supv id.toNat inst.toNat).lastEvent + (monitor id.toNat).w) := by
  have hx : exec (.transientEpisodeEnd id inst) s = .next (endEpisode (findInst s.supv id.toNat inst.toNat)
      (setClk (·.advance ((findInst s.supv id.toNat inst.toNat).lastEvent + (monitor id.toNat).w)) s)) := by
    change execTransientEpisodeEnd id inst s = _
    simp [execTransientEpisodeEnd, he, hl]
  obtain ⟨g, rfl, hgp, hge, -⟩ := findInst_endEpisode
    (setClk (·.advance ((findInst s.supv id.toNat inst.toNat).lastEvent + (monitor id.toNat).w)) s) id.toNat inst.toNat
    (findInst_id s.supv id.toNat inst.toNat) (findInst_inst s.supv id.toNat inst.toNat)
  exact ⟨_, hx, hgp, hge, (clk_of_unsupervised (unsupervised_endEpisode ..) :)⟩

theorem exec_transientEpisodeEnd_of_none {id : BitVec 5} {inst : BitVec 16}
    (h : (findInst s.supv id.toNat inst.toNat).episode = false ∨ (findInst s.supv id.toNat inst.toNat).lasting = true) :
    exec (.transientEpisodeEnd id inst) s = .next s := by
  change execTransientEpisodeEnd id inst s = _
  unfold execTransientEpisodeEnd
  rcases h with h | h <;> simp [h]

theorem exec_faultHandler_of_restarting (h : s.mode.supvRst = true) : exec .faultHandler s = .next s := by
  change Host.Outcome.next (endHandler s) = _
  rw [endHandler, if_pos h]

theorem exec_faultHandler_of_running (h : s.mode.supvRst = false) :
    exec .faultHandler s = .next { s with supv := startHandler { s.supv with open_ := s.supv.open_.drop 1 } } := by
  change Host.Outcome.next (endHandler s) = _
  rw [endHandler, if_neg (by simp [h])]
  rfl

/-! ### The rows that are another source's event -/

theorem exec_lastingFaultDeclared_ofNat (id : BitVec 5) {k : Nat} (h : k < 2 ^ 16) :
    exec (.lastingFaultDeclared id (BitVec.ofNat 16 k)) s = .next (sourceEvent id.toNat k s) := by
  rw [exec_lastingFaultDeclared, BitVec.toNat_ofNat, Nat.mod_eq_of_lt h]

/-- A source whose event is operation `f` of its unit has its fault declared by the row that runs `f`, where the row's operand
holds the unit. -/
theorem exec_lastingFaultDeclared_eq_row (id : BitVec 5) {w k : Nat} (hw : w ≤ 16) (hk : k < 2 ^ w) {f : Nat → State → State} {row : BitVec w → Instr}
    (hrow : ∀ x, exec (row x) s = .next (f x.toNat s)) (hsrc : sourceEvent id.toNat k s = f k s) :
    exec (.lastingFaultDeclared id (BitVec.ofNat 16 k)) s = exec (row (BitVec.ofNat w k)) s := by
  rw [exec_lastingFaultDeclared_ofNat id (Nat.lt_of_lt_of_le hk (Nat.pow_le_pow_right Nat.two_pos hw)), hrow, hsrc, BitVec.toNat_ofNat, Nat.mod_eq_of_lt hk]

/-- Standby r is unit 8 + r of source 4 (R27). -/
theorem sourceEvent_selftest (r : Nat) : sourceEvent 4 (8 + r) s = selftestMismatch r s := by
  change (if 8 ≤ 8 + r then selftestMismatch (8 + r - 8) s else s) = _
  rw [if_pos (Nat.le_add_right ..), Nat.add_sub_cancel_left]

theorem exec_lastingFaultDeclared_selftest {k : Nat} (hk : k < 4) :
    exec (.lastingFaultDeclared 4 (BitVec.ofNat 16 (8 + k))) s = exec (.standbySelftestMismatch (BitVec.ofNat 2 k)) s := by
  rw [exec_lastingFaultDeclared_ofNat _ (by omega), exec_standbySelftestMismatch, BitVec.toNat_ofNat, Nat.mod_eq_of_lt hk]
  exact congrArg _ (sourceEvent_selftest k)

theorem exec_dieToDieLinkRetry_frame (die : BitVec 1) (htko : s.mode.tko.length = 8) : ∃ t, exec (.dieToDieLinkRetry die) s = .next t ∧
    (isLasting s 6 die.toNat = true → t.mode.tko = s.mode.tko) ∧
    (isLasting s 6 die.toNat = false → isLasting t 6 die.toNat = true → ∀ c, c < 8 → c / 4 = die.toNat →
      s.mode.clusters.getD c .outOfService = .active → s.mode.tko.getD c .none = .none → t.mode.tko.getD c .none = .failed 1 s.clk.ms) := by
  rw [exec_dieToDieLinkRetry]
  refine ⟨_, rfl, ?_⟩
  split
  · exact ⟨fun hl => tko_of_unsupervised (linkRetry_of_lasting hl), fun hs ht c hc hdie ha hn => linkRetry_declares hs ht hc hdie htko ha hn⟩
  · exact ⟨fun _ => rfl, fun hs ht => absurd (hs.symm.trans ht) Bool.false_ne_true⟩

end

/-- Settles O53: each clause is the rule of its row; what counting and opening errors leave alone carries the failures' marks through. -/
theorem supervisionRows : Obligations.SupervisionRows := by
  unfold Obligations.SupervisionRows
  intro s htko hstby _
  refine ⟨fun c u hu ha hn hs i k hi => exec_clusterFault hu ha hn hs i k hi, fun c h => ?_, fun u h => ⟨?_, ?_⟩, exec_sramEccCorrected_frame,
    fun r u hu hr hs i hi => exec_readyStandbyFault hu hr hs i hi, fun r h => ?_, fun r k h => exec_standbyReplayMismatch_inUse h,
    fun r h => exec_standbyReplayMismatch_of_not_inUse h,
    fun c => ⟨fun m h => exec_standbyTakeover_replaying h, fun h => exec_standbyTakeover_of_not_replaying h⟩, ?_,
    fun k hk => exec_lastingFaultDeclared_eq_row 1 (by decide) hk (exec_lockstepMismatch s) rfl,
    fun k hk => exec_lastingFaultDeclared_selftest hk,
    fun k hk => have hk : k < 2 ^ 4 := Nat.lt_trans hk (by decide)
      ⟨exec_lastingFaultDeclared_eq_row 2 (by decide) hk (exec_sramEccUncorrectable s) rfl,
       exec_lastingFaultDeclared_eq_row 5 (by decide) hk (exec_sramEccCorrected s) rfl⟩,
    fun k hk => ⟨exec_lastingFaultDeclared_eq_row 3 (by decide) hk (exec_logicAbort s) rfl,
      exec_lastingFaultDeclared_eq_row 13 (by decide) hk (exec_logicOverrun s) rfl⟩,
    fun k hk => exec_lastingFaultDeclared_eq_row 6 (by decide) hk (exec_dieToDieLinkRetry s) rfl, fun inst => ⟨rfl, rfl⟩, fun h => exec_faultHandler_of_restarting h,
    fun h => exec_faultHandler_of_running h, fun die => exec_dieToDieLinkRetry_frame die htko⟩
  · rw [exec_lockstepMismatch, lockstepMismatch_of_not_serves h]
  · rw [exec_sramEccCorrected, eccCorrected_of_no_unit hstby h]
  · rw [exec_sramEccUncorrectable, eccUncorrectable_of_no_unit hstby h]
  · rw [exec_standbySelftestMismatch, selftestMismatch_of_not_ready h]
  · rintro id inst f m rfl rfl
    refine ⟨fun h => ?_, fun h => ?_, ⟨_, rfl, fun hl hc => ?_, countEvent_lasting_iff s _ _⟩,
      fun hl a ha => exec_lastingFaultCleared_of_lasting hl ha, exec_lastingFaultCleared_of_none, exec_transientEpisodeEnd_of_episode,
      exec_transientEpisodeEnd_of_none⟩
    · rw [exec_lastingFaultDeclared, sourceEvent_counts h]
    · rw [exec_lastingFaultDeclared, sourceEvent_of_no_source _ h]
    · rw [countEvent_of_lasting s _ _ hl hc]
      exact ⟨findInst_putInst _ _ _ (findInst_id ..) (findInst_inst ..), rfl⟩

end Sys2Proof.Machine.Laws
end

section
/-! SUPPORT. Interrupts: what a message and a cause that is raised change, and IRQ_STAT, IRQ_MASK and INT_N (R43, R45, R46). -/

namespace Sys2Proof.Machine.Laws
open Sys2Proof Sys2Proof.Machine

/-! ### Messages -/

/-- Nothing but the messages sent and the pending bits tells `t` from `s`. -/
def OnlyMessages (s t : State) : Prop :=
  t = { s with
    host := { s.host with regs := { s.host.regs with pba := t.host.regs.pba } }
    out := { s.out with msix := t.out.msix } }

theorem OnlyMessages.trans {s t u : State} (h : OnlyMessages s t) (k : OnlyMessages t u) : OnlyMessages s u := by
  unfold OnlyMessages at *
  rw [k, h]

section
variable {v : Nat} {s : State}

/-- A masked vector keeps its message pending (R46). -/
theorem sendMsix_of_masked (h : (s.host.regs.msix.getD v {}).ctrl.getLsbD 0 = true) :
    sendMsix v s = setRegs (fun r => { r with pba := r.pba ||| BitVec.ofNat 32 (2 ^ v) }) s := by
  unfold sendMsix
  exact if_pos h

/-- One that is not masked sends it while the link is up (R46). -/
theorem sendMsix_of_unmasked (h : (s.host.regs.msix.getD v {}).ctrl.getLsbD 0 = false) (hl : s.host.linkUp = true) :
    sendMsix v s = { s with out := { s.out with
      msix := s.out.msix ++ [(v, (s.host.regs.msix.getD v {}).addr.toNat, (s.host.regs.msix.getD v {}).data.toNat)] } } := by
  unfold sendMsix
  simp only [h, hl, Bool.false_eq_true, if_false, if_true]

variable (v s) in
theorem sendMsix_onlyMessages : OnlyMessages s (sendMsix v s) := by
  unfold OnlyMessages sendMsix
  dsimp only
  split
  · rfl
  · split <;> rfl

end

/-! ### Causes -/

/-- Cause `k` of IRQ_STAT set, with no message. -/
def setCause (k : Nat) (s : State) : State := setRegs (fun r => { r with irqStat := r.irqStat ||| BitVec.ofNat 13 (2 ^ k) }) s

section
variable {k : Nat} {s : State}

/-- A cause that is set already, or is not enabled, sends no message (R46). -/
theorem raiseIrq_of_silent (h : s.host.regs.irqStat.getLsbD k = true ∨ s.host.regs.irqMask.getLsbD k = false) :
    raiseIrq k s = setCause k s := by
  unfold raiseIrq
  rcases h with h | h <;> simp only [h, Bool.not_true, Bool.false_and, Bool.and_false, Bool.false_eq_true, if_false] <;> rfl

/-- The 0-to-1 transition of an enabled cause sends its message (R46). -/
theorem raiseIrq_of_enabled (hs : s.host.regs.irqStat.getLsbD k = false) (hm : s.host.regs.irqMask.getLsbD k = true) :
    raiseIrq k s = sendMsix k (setCause k s) := by
  unfold raiseIrq
  simp only [hs, hm, Bool.not_false, Bool.and_true, if_true]
  rfl

variable (k s)

/-- Raising a cause sets it; beyond that only messages can change. -/
theorem raiseIrq_onlyMessages : OnlyMessages (setCause k s) (raiseIrq k s) := by
  by_cases h : s.host.regs.irqStat.getLsbD k = true ∨ s.host.regs.irqMask.getLsbD k = false
  · rw [raiseIrq_of_silent h]
    rfl
  · obtain ⟨hs, hm⟩ := not_or.mp h
    rw [raiseIrq_of_enabled (Bool.eq_false_iff.mpr hs) (Bool.not_eq_false _ ▸ hm)]
    exact sendMsix_onlyMessages _ _

@[simp] theorem raiseIrq_mem : (raiseIrq k s).mem = s.mem := (congrArg State.mem (raiseIrq_onlyMessages k s) :)
@[simp] theorem raiseIrq_rings : (raiseIrq k s).host.rings = s.host.rings := (congrArg (·.host.rings) (raiseIrq_onlyMessages k s) :)
@[simp] theorem raiseIrq_cq : (raiseIrq k s).host.cq = s.host.cq := (congrArg (·.host.cq) (raiseIrq_onlyMessages k s) :)
@[simp] theorem raiseIrq_held : (raiseIrq k s).host.held = s.host.held := (congrArg (·.host.held) (raiseIrq_onlyMessages k s) :)
@[simp] theorem raiseIrq_inflight : (raiseIrq k s).host.inflight = s.host.inflight :=
  (congrArg (·.host.inflight) (raiseIrq_onlyMessages k s) :)
@[simp] theorem raiseIrq_irqMask : (raiseIrq k s).host.regs.irqMask = s.host.regs.irqMask :=
  (congrArg (·.host.regs.irqMask) (raiseIrq_onlyMessages k s) :)
theorem raiseIrq_irqStat : (raiseIrq k s).host.regs.irqStat = s.host.regs.irqStat ||| BitVec.ofNat 13 (2 ^ k) :=
  (congrArg (·.host.regs.irqStat) (raiseIrq_onlyMessages k s) :)

/-- Raising a cause sets its bit and no other. -/
theorem raiseIrq_irqStat_getLsbD {j : Nat} (hj : j < 13) :
    (raiseIrq k s).host.regs.irqStat.getLsbD j = (s.host.regs.irqStat.getLsbD j || decide (j = k)) := by
  rw [raiseIrq_irqStat, BitVec.getLsbD_or, BitVec.getLsbD_ofNat, Nat.testBit_two_pow]
  simp only [hj, decide_true, Bool.true_and, eq_comm (a := k)]

theorem raiseIrq_sets_cause (hk : k < 13) : (raiseIrq k s).host.regs.irqStat.getLsbD k = true := by
  simp [raiseIrq_irqStat_getLsbD k s hk]

end

/-! ### IRQ_STAT, IRQ_MASK and INT_N -/

theorem writeIrqStat_getLsbD (v : Word) (s : State) {k : Nat} (hk : k < 13) :
    (writeIrqStat v s).host.regs.irqStat.getLsbD k = (s.host.regs.irqStat.getLsbD k && !v.getLsbD k) := by
  simp [writeIrqStat, setRegs, hk]

/-- A write of IRQ_MASK sets it and beyond that changes messages only. -/
theorem writeIrqMask_onlyMessages (v : Word) (s : State) :
    OnlyMessages (setRegs (fun r => { r with irqMask := v.setWidth 13 }) s) (writeIrqMask v s) :=
  List.foldlRecOn (motive := OnlyMessages _) _ _ rfl fun t ht i _ => by
    split
    · exact ht.trans (sendMsix_onlyMessages i t)
    · exact ht

/-- Where no cause that it enables is pending, it sends nothing. -/
theorem writeIrqMask_of_none_pending {v : Word} {s : State}
    (h : ∀ k, k < 13 → v.getLsbD k = true → s.host.regs.irqMask.getLsbD k = false → s.host.regs.irqStat.getLsbD k = false) :
    writeIrqMask v s = setRegs (fun r => { r with irqMask := v.setWidth 13 }) s :=
  List.foldlRecOn (motive := fun t => t = setRegs (fun r => { r with irqMask := v.setWidth 13 }) s) _ _ rfl fun t ht i hi => by
    have hstat : t.host.regs.irqStat = s.host.regs.irqStat := congrArg (·.host.regs.irqStat) ht
    have hi : i < 13 := List.mem_range.mp hi
    rw [if_neg]
    · exact ht
    · simp only [hstat, Bool.and_eq_true, Bool.not_eq_true', not_and, Bool.not_eq_true]
      exact fun ⟨hv, hm⟩ => h i hi hv hm

theorem intLow_iff (s : State) : intLow s = true ↔ s.host.regs.irqStat &&& s.host.regs.irqMask ≠ 0 := bne_iff_ne

theorem exec_irqStatWrite (v : Word) (s : State) : exec (.irqStatWrite v) s = .next (writeIrqStat v s) := rfl
theorem exec_irqMaskWrite (v : Word) (s : State) : exec (.irqMaskWrite v) s = .next (writeIrqMask v s) := rfl

/-- Settles O26: the register writes and the raising of a cause change what their frames allow, bit by bit. -/
theorem interruptRegisters : Obligations.InterruptRegisters := by
  unfold Obligations.InterruptRegisters
  refine ⟨fun v s => ⟨_, exec_irqStatWrite v s, rfl, fun k hk => writeIrqStat_getLsbD v s hk⟩, fun v s => ?_, intLow_iff, fun k s hk => ?_⟩
  · have hframe := writeIrqMask_onlyMessages v s
    refine ⟨_, exec_irqMaskWrite v s, (congrArg (·.host.regs.irqMask) hframe :), (congrArg (·.host.regs.irqStat) hframe :), hframe,
      fun h => ?_⟩
    rw [writeIrqMask_of_none_pending h]
    exact ⟨rfl, rfl⟩
  · refine ⟨_, rfl, raiseIrq_irqMask k s, raiseIrq_rings k s, raiseIrq_mem k s, fun j hj => raiseIrq_irqStat_getLsbD k s hj,
      fun h => ?_, fun hs hm => ⟨fun hmask => ?_, fun hmask hl => ?_⟩⟩
    · rw [raiseIrq_of_silent h]
      exact ⟨rfl, rfl⟩
    · rw [raiseIrq_of_enabled hs hm, sendMsix_of_masked (s := setCause k s) hmask]
      exact ⟨rfl, rfl⟩
    · rw [raiseIrq_of_enabled hs hm, sendMsix_of_unmasked (s := setCause k s) hmask hl]
      rfl

end Sys2Proof.Machine.Laws
end

section
/-! SUPPORT. The completion ring: an entry written, held or let out, and the writes of CQ_CFG and CQ_HEAD (R51, R55, R56). -/

namespace Sys2Proof.Machine.Laws
open Sys2Proof Sys2Proof.Machine

@[simp] theorem completion_encode_length (c : Completion) (phase : Bool) (ns : Nat) : (c.encode phase ns).length = 32 := by
  simp [Completion.encode]

@[simp] theorem memWriteIf_host (sp : Space) (a : Nat) (b : Bytes) (s : State) : (memWriteIf sp a b s).host = s.host := by
  unfold memWriteIf
  split <;> rfl

/-! ### One entry written (R51) -/

section
variable (c : Completion) (s : State)

@[simp] theorem putCompletion_rings : (putCompletion c s).host.rings = s.host.rings := by simp [putCompletion]
@[simp] theorem putCompletion_inflight : (putCompletion c s).host.inflight = s.host.inflight := by simp [putCompletion]
@[simp] theorem putCompletion_held : (putCompletion c s).host.held = s.host.held := by simp [putCompletion]

/-- An entry written moves TAIL to the next slot, and PHASE inverts where TAIL wraps. -/
theorem putCompletion_cq : (putCompletion c s).host.cq =
    { s.host.cq with
      tail := nextSlot s.host.cq.tail.toNat s.host.cq.size
      phase := s.host.cq.phase ^^ decide (s.host.cq.size ≤ s.host.cq.tail.toNat + 1) } := by simp [putCompletion]

theorem putCompletion_sets_cause : (putCompletion c s).host.regs.irqStat.getLsbD Irq.cq = true := raiseIrq_sets_cause _ _ (by decide)

/-- Where the ring's memory answers, the entry stands in the slot of TAIL. -/
theorem putCompletion_mem
    (h : reachable s (ringSpace s.host.cq.baseLo) (ringAddr s.host.cq.baseLo s.host.cq.baseHi + 32 * s.host.cq.tail.toNat) 32 = true) :
    (putCompletion c s).mem = s.mem.write (ringSpace s.host.cq.baseLo)
      (ringAddr s.host.cq.baseLo s.host.cq.baseHi + 32 * s.host.cq.tail.toNat)
      ((restartEffect c s).encode s.host.cq.phase s.clk.shortTime) := by
  simp [putCompletion, memWriteIf, h]

end

/-! ### Written or held (R55, R56) -/

section
variable (c : Completion) {s : State}

theorem complete_of_room (hen : s.host.cq.en = true) (hroom : s.host.cq.full = false) (hnone : s.host.held = []) :
    complete c s = putCompletion c s := by
  simp [complete, hen, hroom, hnone]

theorem complete_of_held (h : s.host.cq.en = false ∨ s.host.cq.full = true ∨ s.host.held ≠ []) :
    complete c s = raiseIrq Irq.cqstall { s with host := { s.host with held := s.host.held ++ [c] } } := by
  unfold complete
  rw [if_neg]
  rcases h with h | h | h <;> simp [h]

variable (s)

@[simp] theorem complete_rings : (complete c s).host.rings = s.host.rings := by
  unfold complete
  split <;> simp

@[simp] theorem complete_inflight : (complete c s).host.inflight = s.host.inflight := by
  unfold complete
  split <;> simp

end

/-- Letting held completions out changes no command in flight. -/
@[simp] theorem flushHeld_inflight (l : List Completion) (s : State) : (flushHeld l s).host.inflight = s.host.inflight := by
  induction l generalizing s with
  | nil => rfl
  | cons c l ih =>
    rw [flushHeld]
    split
    · rw [ih, putCompletion_inflight]
    · rfl

/-- Held completions leave in order, and the rest stays only where the ring is disabled or full (R55). -/
theorem flushHeld_held (l : List Completion) (s : State) :
    ∃ n, n ≤ l.length ∧ (flushHeld l s).host.held = l.drop n ∧
      (n < l.length → (flushHeld l s).host.cq.en = false ∨ (flushHeld l s).host.cq.full = true) := by
  induction l generalizing s with
  | nil => exact ⟨0, Nat.le_refl _, rfl, fun h => absurd h (Nat.lt_irrefl _)⟩
  | cons c l ih =>
    rw [flushHeld]
    split
    · obtain ⟨n, hle, hheld, hstay⟩ := ih (putCompletion c s)
      exact ⟨n + 1, Nat.succ_le_succ hle, hheld, fun h => hstay (Nat.lt_of_succ_lt_succ h)⟩
    · next hblocked =>
      refine ⟨0, Nat.zero_le _, rfl, fun _ => ?_⟩
      cases hen : s.host.cq.en with
      | false => exact .inl rfl
      | true => exact .inr (by simpa [hen] using hblocked)

/-! ### CQ_CFG and CQ_HEAD -/

section
variable {s : State}

theorem enableCq_of_ok {log2n : BitVec 4} (hen : s.host.cq.en = false)
    (hok : ringOk s 4 s.host.cq.baseLo s.host.cq.baseHi log2n 32 = true) :
    enableCq log2n s = flushHeld s.host.held (setCq (fun q => { q with log2n := log2n, en := true, tail := 0, phase := true }) s) := by
  unfold enableCq
  simp only [hen, hok, Bool.not_true, Bool.false_eq_true, if_false]
  rfl

theorem disableCq_of_disabled (hen : s.host.cq.en = false) : disableCq s = s := by
  simp [disableCq, hen]

theorem disableCq_of_idle (hen : s.host.cq.en = true) (hidle : s.host.inflight = []) :
    disableCq s = setCq (fun q => { q with en := false }) s := by
  simp [disableCq, setCq, hen, hidle]

/-- Commands in flight go on, and their completions will be held (R56). -/
theorem disableCq_of_busy (hen : s.host.cq.en = true) (hbusy : s.host.inflight ≠ []) :
    disableCq s = raiseIrq Irq.cqstall (setCq (fun q => { q with en := false }) s) := by
  simp [disableCq, setCq, hen, hbusy]

end

section
variable (s : State)
theorem exec_cqEnable (log2n : BitVec 4) : exec (.cqEnable log2n) s = .next (enableCq log2n s) := rfl
theorem exec_cqDisable : exec .cqDisable s = .next (disableCq s) := rfl
theorem exec_cqHeadWrite (head : BitVec 8) : exec (.cqHeadWrite head) s = .next (writeCqHead head s) := rfl
end

/-- Settles O25: each clause is the rule of its operation; letting held entries out is an induction on them. -/
theorem completionRing : Obligations.CompletionRing := by
  unfold Obligations.CompletionRing
  intro s
  refine ⟨fun log2n hen hok => ?_, fun hen => ?_, fun hen => ?_, exec_cqHeadWrite s, fun c => ⟨complete_of_room c, complete_of_held c, ?_⟩,
    fun l => ⟨flushHeld_inflight l s, flushHeld_held l s⟩⟩
  · rw [exec_cqEnable, enableCq_of_ok hen hok]
  · rw [exec_cqDisable]
    refine ⟨_, rfl, ?_⟩
    by_cases hidle : s.host.inflight = []
    · rw [disableCq_of_idle hen hidle]
      exact ⟨rfl, rfl, rfl, rfl, fun h => absurd hidle h, fun _ => rfl⟩
    · rw [disableCq_of_busy hen hidle]
      exact ⟨raiseIrq_cq .., raiseIrq_inflight .., raiseIrq_held .., raiseIrq_mem .., fun _ => raiseIrq_sets_cause _ _ (by decide),
        fun h => absurd h hidle⟩
  · rw [exec_cqDisable, disableCq_of_disabled hen]
  · have hcq := putCompletion_cq c s
    refine ⟨_, rfl, putCompletion_sets_cause c s, putCompletion_held c s, (congrArg CompRing.tail hcq :), (congrArg CompRing.phase hcq :), ?_⟩
    rintro e rfl a rfl
    exact putCompletion_mem c s

end Sys2Proof.Machine.Laws
end

section
/-! SUPPORT. Frames of the QSPI target: what a READ returns and latches, and what a WRITE stores in mailbox memory (R48, R49). -/

namespace Sys2Proof.Machine.Laws
open Sys2Proof Sys2Proof.Machine

theorem readBytes_getElem? (m : Memory) (x : Nat) {n k : Nat} (hk : k < n) : (m.readBytes x n)[k]? = some (m.read (x + k)) := by
  induction n generalizing x k with
  | zero => cases hk
  | succ n ih =>
    cases k with
    | zero => rfl
    | succ k =>
      rw [Memory.readBytes, List.getElem?_cons_succ, ih (x + 1) (Nat.lt_of_succ_lt_succ hk), Nat.add_assoc, Nat.add_comm 1]

/-- A byte written among others reads back. -/
theorem writeBytes_read_inside {m : Memory} (h : m.wf = true) (x : Nat) (b : Bytes) {k : Nat} (hk : k < b.length) :
    (m.writeBytes x b).read (x + k) = b.getD k 0 := by
  have hread := readBytes_getElem? (m.writeBytes x b) x hk
  rw [writeBytes_readBytes h] at hread
  rw [List.getD_eq_getElem?_getD, hread, Option.getD_some]

/-! ### READ -/

/-- `t` is `s` but for what a read of TAI_SEC_LO latches (R127). -/
def OnlyLatched (s t : State) : Prop := ∃ hi ns, t = setRegs (fun r => { r with taiHi := hi, taiNs := ns }) s

theorem OnlyLatched.refl (s : State) : OnlyLatched s s := ⟨_, _, rfl⟩

theorem OnlyLatched.trans {s t u : State} : OnlyLatched s t → OnlyLatched t u → OnlyLatched s u := by
  rintro ⟨_, _, rfl⟩ ⟨hi, ns, rfl⟩
  exact ⟨hi, ns, rfl⟩

theorem barRead_onlyLatched (off : Nat) (s : State) : OnlyLatched s (barRead off s).2 := by
  unfold barRead
  dsimp only
  split
  · exact ⟨_, _, rfl⟩
  · exact .refl s

theorem qspiByte_onlyLatched (a : Nat) (s : State) : OnlyLatched s (qspiByte a s).2 := by
  unfold qspiByte
  split
  · dsimp only
    split
    · exact barRead_onlyLatched a s
    · exact .refl s
  · split
    · exact .refl s
    · split <;> exact .refl s

theorem qspiBytes_onlyLatched (n a : Nat) (s : State) : OnlyLatched s (qspiBytes n a s).2 := by
  induction n generalizing a s with
  | zero => exact .refl s
  | succ n ih => exact (qspiByte_onlyLatched _ s).trans (ih ..)

@[simp] theorem qspiBytes_length (n a : Nat) (s : State) : (qspiBytes n a s).1.length = n := by
  induction n generalizing a s with
  | zero => rfl
  | succ n ih => exact congrArg (· + 1) (ih ..)

theorem qspiByte_mbx {a : Nat} (hlo : 0x010000 ≤ a) (hhi : a < 0x030000) (s : State) :
    qspiByte a s = ((s.mem.mbx.read (a - 0x010000)).toNat, s) := by
  unfold qspiByte
  rw [if_neg (by omega), if_pos ⟨hlo, hhi⟩]

/-- A run of bytes inside mailbox memory is what stands there, and reading it changes nothing. -/
theorem qspiBytes_mbx {n a : Nat} (hlo : 0x010000 ≤ a) (hhi : a + n ≤ 0x030000) (s : State) :
    qspiBytes n a s = (s.mem.mbx.readBytes (a - 0x010000) n, s) := by
  induction n generalizing a with
  | zero => rfl
  | succ n ih =>
    have ha : a % 2 ^ 24 = a := Nat.mod_eq_of_lt (by omega)
    have hnext : a + 1 - 0x010000 = a - 0x010000 + 1 := by omega
    simp only [qspiBytes, ha, qspiByte_mbx hlo (by omega : a < 0x030000), ih (a := a + 1) (by omega) (by omega), hnext, Memory.readBytes,
      BitVec.ofNat_toNat, BitVec.setWidth_eq]

/-- A frame in the DDR4 window at 50 MHz and above with too few dummy clocks reads 0xFF and sets ERR (R49). -/
theorem qspiReadFrame_of_few_dummies {addr mhz : Nat} {s : State} (hlo : 0x100000 ≤ addr) (hhi : addr < 0x200000) (hclk : 50 ≤ mhz)
    (hfew : dummyClocks s.host.regs < 24) (len : Nat) :
    qspiReadFrame addr len mhz s = csRise true (setRegs (fun r => { r with qspiOut := List.replicate len 0xFF#8 }) s) := by
  simp [qspiReadFrame, hlo, hhi, hclk, hfew]

/-- Any other frame returns the bytes at its addresses and clears ERR. -/
theorem qspiReadFrame_of_taken {addr mhz : Nat} {s : State}
    (h : ¬(0x100000 ≤ addr ∧ addr < 0x200000 ∧ 50 ≤ mhz ∧ dummyClocks s.host.regs < 24)) (len : Nat) :
    qspiReadFrame addr len mhz s = csRise false (setRegs (fun r => { r with qspiOut := (qspiBytes len addr s).1 }) (qspiBytes len addr s).2) := by
  unfold qspiReadFrame
  rw [if_neg (by simpa [and_assoc] using h)]

/-- A READ frame returns as many bytes as it clocks, and of the state only the registers of the target and of the time latch change. -/
theorem qspiReadFrame_frame (addr len mhz : Nat) (s : State) :
    (qspiReadFrame addr len mhz s).host.regs.qspiOut.length = len ∧ (qspiReadFrame addr len mhz s).mem = s.mem ∧
      (qspiReadFrame addr len mhz s).log = s.log ∧ (qspiReadFrame addr len mhz s).host.rings = s.host.rings := by
  by_cases h : 0x100000 ≤ addr ∧ addr < 0x200000 ∧ 50 ≤ mhz ∧ dummyClocks s.host.regs < 24
  · obtain ⟨hlo, hhi, hclk, hfew⟩ := h
    rw [qspiReadFrame_of_few_dummies hlo hhi hclk hfew]
    exact ⟨List.length_replicate, rfl, rfl, rfl⟩
  · rw [qspiReadFrame_of_taken h]
    obtain ⟨_, _, hlatched⟩ := qspiBytes_onlyLatched len addr s
    rw [hlatched]
    exact ⟨qspiBytes_length .., rfl, rfl, rfl⟩

/-- A frame inside mailbox memory returns what stands there and clears ERR. -/
theorem qspiReadFrame_mbx {addr len : Nat} (hlo : 0x010000 ≤ addr) (hhi : addr + len ≤ 0x030000) (mhz : Nat) (s : State) :
    qspiReadFrame addr len mhz s = csRise false (setRegs (fun r => { r with qspiOut := s.mem.mbx.readBytes (addr - 0x010000) len }) s) := by
  rw [qspiReadFrame_of_taken (by omega), qspiBytes_mbx hlo hhi]

/-! ### WRITE -/

theorem memWrite_cons (sp : Space) (x : Nat) (b : Byte) (bs : Bytes) (s : State) :
    memWrite sp x (b :: bs) s = memWrite sp (x + 1) bs (memWrite sp x [b] s) := by
  cases sp <;> rfl

/-- The data of a frame inside mailbox memory is stored there, and no byte of it is rejected. -/
theorem qspiWriteBytes_mbx {addr : Nat} {data : Bytes} (hlo : 0x010000 ≤ addr) (hhi : addr + data.length ≤ 0x030000) (s : State) :
    qspiWriteBytes addr data [] false s = (false, memWrite .mbx (addr - 0x010000) data s) := by
  induction data generalizing addr s with
  | nil => rfl
  | cons b bs ih =>
    rw [List.length_cons] at hhi
    have ha : addr % 2 ^ 24 = addr := Nat.mod_eq_of_lt (by omega)
    have hnext : addr + 1 - 0x010000 = addr - 0x010000 + 1 := by omega
    rw [qspiWriteBytes]
    simp only [ha]
    rw [if_neg (by omega), if_pos (by omega), ih (by omega) (by omega), hnext, ← memWrite_cons]

section
variable (s : State)
theorem exec_qspiRead (addr : BitVec 24) (len mhz : Nat) : exec (.qspiRead addr len mhz) s = .next (qspiReadFrame addr.toNat len mhz s) := rfl
theorem exec_qspiWrite (addr : BitVec 24) (data : Bytes) : exec (.qspiWrite addr data) s = .next (qspiWriteFrame addr.toNat data s) := rfl
theorem exec_qspiStat : exec .qspiStat s = .next (qspiStatFrame s) := rfl
end

/-- Settles O28: a frame is read or written byte by byte, and inside mailbox memory no byte of it is turned away. -/
theorem qspiFrames : Obligations.QspiFrames := by
  unfold Obligations.QspiFrames
  refine ⟨fun addr len mhz s => ?_, fun addr data s hlo hhi hwf => ?_, exec_qspiStat⟩
  · obtain ⟨hlen, hmem, hlog, hrings⟩ := qspiReadFrame_frame addr.toNat len mhz s
    refine ⟨_, exec_qspiRead s addr len mhz, hlen, hmem, hlog, hrings, fun hlo hhi hclk hfew => ?_, fun hlo hhi => ?_⟩
    · rw [qspiReadFrame_of_few_dummies hlo hhi hclk hfew]
      exact ⟨rfl, fun k hk => List.getElem?_replicate_of_lt hk⟩
    · rw [qspiReadFrame_mbx hlo hhi]
      exact ⟨rfl, fun k hk => readBytes_getElem? _ _ hk⟩
  · have hmbx : s.mem.mbx.wf = true := by
      simp only [Mems.wf, Bool.and_eq_true] at hwf
      exact hwf.1.1
    have hframe : qspiWriteFrame addr.toNat data s = csRise false (memWrite .mbx (addr.toNat - 0x010000) data s) := by
      rw [qspiWriteFrame, qspiWriteBytes_mbx hlo hhi]
    rw [exec_qspiWrite, hframe]
    exact ⟨_, rfl, rfl, fun k hk => writeBytes_read_inside hmbx _ _ hk, fun a ha => writeBytes_read_outside hmbx _ _ a ha, rfl, rfl⟩

end Sys2Proof.Machine.Laws
end

section
/-! SUPPORT. Doorbells and the enabling of a command ring (R47). -/

namespace Sys2Proof.Machine.Laws
open Sys2Proof Sys2Proof.Machine

theorem getD_of_getElem? {α : Type} {l : List α} {k : Nat} {g : α} (h : l[k]? = some g) (d : α) : l.getD k d = g := by
  rw [List.getD_eq_getElem?_getD, h, Option.getD_some]

section
variable {s : State} {k : Nat} {g : Ring} (hg : s.host.rings[k]? = some g)

/-- The span of a ring of 2^log2n slots of 64 bytes at g's place fits mailbox memory and meets no other enabled ring, where it lies
there (R47). -/
def RingFits (s : State) (k : Nat) (g : Ring) (log2n : BitVec 4) : Prop :=
  g.baseLo.getLsbD 0 = true → ringAddr g.baseLo g.baseHi + 64 * 2 ^ log2n.toNat ≤ mbxSize ∧
    ∀ p ∈ enabledSpans s k, p.2 ≤ ringAddr g.baseLo g.baseHi ∨ ringAddr g.baseLo g.baseHi + 64 * 2 ^ log2n.toNat ≤ p.1

theorem ringOk_of_fits {log2n : BitVec 4} (hlo : 1 ≤ log2n.toNat) (hhi : log2n.toNat ≤ 8) (hfits : RingFits s k g log2n) :
    ringOk s k g.baseLo g.baseHi log2n 64 = true := by
  unfold ringOk ringSpan
  cases hloc : g.baseLo.getLsbD 0 with
  | false => simp [hlo, hhi]
  | true =>
    obtain ⟨hfit, happart⟩ := hfits hloc
    simp only [hlo, hhi, and_self, decide_true, Bool.true_and, if_true, hfit, Bool.not_eq_true', List.any_eq_false, decide_eq_true_eq]
    intro p hp
    have := happart p hp
    omega

theorem ringOk_log2n {lo hi : Word} {log2n : BitVec 4} {entry : Nat} (h : ringOk s k lo hi log2n entry = true) :
    1 ≤ log2n.toNat ∧ log2n.toNat ≤ 8 := by
  unfold ringOk at h
  exact of_decide_eq_true (Bool.and_eq_true_iff.mp h).1

include hg

theorem ringDoorbell_of_served {tail : BitVec 8} (hen : g.en = true) (hready : s.mode.mbReady = true) (htail : tail.toNat < 2 ^ g.log2n.toNat) :
    ringDoorbell k tail s = setRing k (fun g => { g with tail := tail }) s := by
  unfold ringDoorbell
  rw [getD_of_getElem? hg, if_neg (by simp [hen, hready, htail])]

theorem ringDoorbell_of_ignored {tail : BitVec 8} (h : g.en = false ∨ s.mode.mbReady = false ∨ 2 ^ g.log2n.toNat ≤ tail.toNat) :
    ringDoorbell k tail s = raiseIrq Irq.mberr s := by
  unfold ringDoorbell
  rw [getD_of_getElem? hg, if_pos, mbErr]
  rcases h with h | h | h <;> simp [h]

theorem writeRingCfg_enables {log2n : BitVec 4} (hsame : g.en = true → log2n = g.log2n) (hlo : 1 ≤ log2n.toNat) (hhi : log2n.toNat ≤ 8)
    (hfits : RingFits s k g log2n) : writeRingCfg k log2n true s = setRing k (fun g => { g with log2n := log2n, en := true }) s := by
  unfold writeRingCfg
  rw [getD_of_getElem? hg, if_neg (by simpa using hsame), if_neg (by simp [ringOk_of_fits hlo hhi hfits])]

theorem writeRingCfg_of_ignored {log2n : BitVec 4} (h : (g.en = true ∧ log2n ≠ g.log2n) ∨ log2n = 0 ∨ 8 < log2n.toNat) :
    writeRingCfg k log2n true s = raiseIrq Irq.mberr s := by
  unfold writeRingCfg
  rw [getD_of_getElem? hg]
  rcases h with ⟨hen, hother⟩ | hsize
  · rw [if_pos (by simp [hen, hother]), mbErr]
  · have hbad : ringOk s k g.baseLo g.baseHi log2n 64 = false := by
      refine Bool.eq_false_iff.mpr fun hok => ?_
      obtain ⟨hlo, hhi⟩ := ringOk_log2n hok
      rcases hsize with rfl | hbig
      · exact absurd hlo (by decide)
      · omega
    simp [hbad, mbErr]

end

section
variable (s : State)
theorem exec_mbDoorbell (k : BitVec 2) (tail : BitVec 8) : exec (.mbDoorbell k tail) s = .next (ringDoorbell k.toNat tail s) := rfl
theorem exec_ringEnable (k : BitVec 2) (log2n : BitVec 4) : exec (.ringEnable k log2n) s = .next (writeRingCfg k.toNat log2n true s) := rfl
end

/-- Settles O24: a doorbell and a write of MBk_CFG are taken or ignored by the checks of R47. -/
theorem commandRings : Obligations.CommandRings := by
  unfold Obligations.CommandRings
  intro s
  refine ⟨fun k tail g hg => ⟨fun hen hready htail => ?_, fun h => ?_⟩, fun k log2n g hg => ⟨fun hsame hlo hhi hfits => ?_, fun h => ?_⟩,
    raiseIrq_rings .., raiseIrq_cq .., raiseIrq_sets_cause _ _ (by decide)⟩
  · rw [exec_mbDoorbell, ringDoorbell_of_served hg hen hready htail]
  · rw [exec_mbDoorbell, ringDoorbell_of_ignored hg h]
  · rw [exec_ringEnable, writeRingCfg_enables hg hsame hlo hhi hfits]
  · rw [exec_ringEnable, writeRingCfg_of_ignored hg h]

end Sys2Proof.Machine.Laws
end

section
/-! SUPPORT. Writes of BAR0, the read of TAI_SEC_LO, and the PCIe link (R42, R44, R47, R59, R127, R590). -/

namespace Sys2Proof.Machine.Laws
open Sys2Proof Sys2Proof.Machine

/-! ### Where a write of BAR0 goes -/

section
variable (v : Word) (s : State)

/-- The offsets named that are read-only or undefined ignore a write (R8, R42). -/
theorem barWrite_of_ignored {off : Nat} (h : off ∈ [0x0000, 0x0010, 0x0014, 0x0018, 0x001C, 0x0020, 0x0060, 0x0064, 0x0068, 0x010C, 0x011C,
    0x012C, 0x013C, 0x014C, 0x0300, 0x1000, 0x3000]) : barWrite off v s = s := by
  simp only [List.mem_cons, List.not_mem_nil, or_false] at h
  rcases h with rfl | rfl | rfl | rfl | rfl | rfl | rfl | rfl | rfl | rfl | rfl | rfl | rfl | rfl | rfl | rfl | rfl <;> rfl

/-- MBk_BASE_LO of a disabled ring takes its writable bits; of an enabled one the write is ignored (R44, R47). -/
theorem barWrite_baseLo {k : Nat} (hk : k < 4) : barWrite (0x0100 + 16 * k) v s =
    if (s.host.rings.getD k {}).en = true then raiseIrq Irq.mberr s else setRing k (fun g => { g with baseLo := v &&& 0xFFFFFFC1 }) s := by
  match k, hk with
  | 0, _ | 1, _ | 2, _ | 3, _ => rfl

theorem barWrite_baseHi {k : Nat} (hk : k < 4) : barWrite (0x0104 + 16 * k) v s =
    if (s.host.rings.getD k {}).en = true then raiseIrq Irq.mberr s else setRing k (fun g => { g with baseHi := v }) s := by
  match k, hk with
  | 0, _ | 1, _ | 2, _ | 3, _ => rfl

theorem barWrite_doorbell {k : Nat} (hk : k < 4) (hv : v.toNat < 256) : barWrite (0x0200 + 4 * k) v s = ringDoorbell k (v.setWidth 8) s := by
  have hword : barWrite (0x0200 + 4 * k) v s = doorbellWord k v s := by
    match k, hk with
    | 0, _ | 1, _ | 2, _ | 3, _ => rfl
  rw [hword, doorbellWord, if_neg (Nat.not_le.mpr hv)]

end

/-! ### The rows -/

section
variable (s : State)

theorem exec_registerWrite (off : BitVec 14) (w : BarWrite) : exec (.registerWrite off w) s = .next (hostWrite off.toNat w s) := rfl

/-- A word written at an aligned offset is the write of BAR0 there. -/
theorem exec_registerWrite_word {off : Nat} (hoff : off < 2 ^ 14) (haligned : off % 4 = 0) (v : Word) :
    exec (.registerWrite (BitVec.ofNat 14 off) (.word v)) s = .next (barWrite off v s) := by
  have hplace : off / 4 * 4 = off := by omega
  rw [exec_registerWrite, BitVec.toNat_ofNat, Nat.mod_eq_of_lt hoff, hostWrite, hplace]

theorem exec_taiSecLoRead : exec .taiSecLoRead s = .next (latchTai s) := rfl
theorem exec_perstN (low : Bool) :
    exec (.perstN low) s = .next { s with host := { s.host with perst := low, pcieLink := s.host.pcieLink && !low } } := rfl
theorem exec_pcieLinkLost : exec .pcieLinkLost s = .next { s with host := { s.host with pcieLink := false } } := rfl

/-- The link comes up unless PERST_N holds the endpoint (R59, R590). -/
theorem exec_pcieLinkTrained :
    exec .pcieLinkTrained s = .next { s with host := { s.host with pcieLink := s.host.pcieLink || !s.host.perst } } := by
  change Host.Outcome.next (if s.host.perst = true then s else _) = _
  cases hperst : s.host.perst with
  | false => simp [setHost]
  | true => simp

/-- No access to host memory is answered while the link is down (R59). -/
theorem reachable_host_of_down {s : State} (h : s.host.pcieLink = false) (a n : Nat) : reachable s .host a n = false := by
  simp [reachable, HostIf.linkUp, h]

end

/-- Settles O27: a write access is cut to aligned words, and each word is the write of the register at its offset. -/
theorem registerAccess : Obligations.RegisterAccess := by
  unfold Obligations.RegisterAccess
  refine ⟨fun s v => ⟨fun _ => rfl, fun _ _ => rfl, fun _ => rfl, fun off h => ?_, fun k hk => ⟨?_, ?_, fun hv => ?_⟩, ?_, ?_, ?_, ?_, ?_,
    exec_taiSecLoRead s, rfl⟩, fun s => ⟨exec_perstN s, exec_pcieLinkTrained s, exec_pcieLinkLost s, fun h a n => reachable_host_of_down h a n⟩⟩
  · rw [exec_registerWrite, hostWrite, barWrite_of_ignored v s h]
  · rw [exec_registerWrite_word s (by omega) (by omega), barWrite_baseLo v s hk]
  · rw [exec_registerWrite_word s (by omega) (by omega), barWrite_baseHi v s hk]
  · rw [exec_registerWrite_word s (by omega) (by omega), barWrite_doorbell v s hk hv, exec_mbDoorbell, BitVec.toNat_ofNat, Nat.mod_eq_of_lt hk]
  · exact exec_registerWrite_word s (off := 0x0040) (by decide) (by decide) v
  · exact exec_registerWrite_word s (off := 0x0044) (by decide) (by decide) v
  · exact exec_registerWrite_word s (off := 0x0084) (by decide) (by decide) v
  · exact exec_registerWrite_word s (off := 0x0080) (by decide) (by decide) v
  · exact exec_registerWrite_word s (off := 0x0150) (by decide) (by decide) v

end Sys2Proof.Machine.Laws
end

section
/-! SUPPORT. The fetching of commands, the timeout of their start, and a command that is not in the command set (R53, R54, R68, R542). -/

namespace Sys2Proof.Machine.Laws
open Sys2Proof Sys2Proof.Machine Sys2Proof.Safety

/-! ### Taking a command in (R53, R512) -/

section
variable (c : Cmd) (s : State)

theorem checkToken_host : (checkToken c s).2.host = s.host := by
  unfold checkToken
  dsimp only
  split <;> rfl

theorem checkToken_clk : (checkToken c s).2.clk = s.clk := by
  unfold checkToken
  dsimp only
  split <;> rfl

variable {c s}

/-- A command whose TAG is in flight is refused and does not enter flight. -/
theorem enterFlight_of_tag_busy (h : ∃ f ∈ s.host.inflight, f.cmd.tag = c.tag) :
    enterFlight c s = complete ((Reply.refuse Rsn.tagBusy).completion (BitVec.ofNat 8 c.tag) c.ring c.slot 0) s := by
  unfold enterFlight
  exact if_pos (by simpa using h)

/-- Any other is in flight from now on, last in the order of fetching. -/
theorem enterFlight_of_tag_free (h : ∀ f ∈ s.host.inflight, f.cmd.tag ≠ c.tag) : (enterFlight c s).host =
    { s.host with
      inflight := s.host.inflight ++
        [{ cmd := c, order := s.host.fetched, at_ := s.clk.mono, waitFrom := s.clk.mono, token := (checkToken c s).1 }]
      fetched := s.host.fetched + 1 } := by
  unfold enterFlight
  rw [if_neg (by simpa using h), ← checkToken_host c s, ← checkToken_clk c s]

end

/-! ### COMMAND_FETCH -/

/-- The slot at HEAD. -/
def headSlot (g : Ring) : Nat := g.head.toNat % 2 ^ g.log2n.toNat

/-- The command posted at HEAD of ring k. -/
def headCmd (s : State) (k : Nat) (g : Ring) : Cmd :=
  { bits := BitVec.ofNat 512 (leAt (memRead s (ringSpace g.baseLo) (ringAddr g.baseLo g.baseHi + 64 * headSlot g) 64) 0 64)
    ring := BitVec.ofNat 2 k, slot := BitVec.ofNat 8 (headSlot g) }

/-- HEAD of ring k past its slot, and the turn of MB1 to MB3 given on where the ring is one of them. -/
def passHead (k : Nat) (g : Ring) (s : State) : State :=
  let t := setRing k (fun r => { r with head := nextSlot (headSlot g) (2 ^ g.log2n.toNat) }) s
  if k == 0 then t else { t with host := { t.host with turn := BitVec.ofNat 2 (k % 3 + 1) } }

section
variable {s : State} {k : Nat} {g : Ring}

theorem fetchOne_of_idle (h : canFetch s = false ∨ nextRing s.host = none) : fetchOne s = s := by
  unfold fetchOne
  rcases h with h | h <;> simp [h]

/-- MB0 goes first (R53). -/
theorem nextRing_of_posted_mb0 (hg : s.host.rings[0]? = some g) (hen : g.en = true) (hposted : g.head ≠ g.tail) :
    nextRing s.host = some 0 := by
  unfold nextRing
  rw [getD_of_getElem? hg, if_pos (by simp [ringPosted, hen, hposted])]

theorem fetchOne_of_posted (hcan : canFetch s = true) (hnext : nextRing s.host = some k) (hg : s.host.rings[k]? = some g)
    (hreach : reachable s (ringSpace g.baseLo) (ringAddr g.baseLo g.baseHi + 64 * headSlot g) 64 = true) :
    fetchOne s = enterFlight (headCmd s k g) (passHead k g s) := by
  unfold headSlot at hreach
  unfold fetchOne
  simp only [hcan, hnext, getD_of_getElem? hg, hreach, Bool.not_true, Bool.false_eq_true, if_false]
  rfl

variable (k g s)

@[simp] theorem passHead_inflight : (passHead k g s).host.inflight = s.host.inflight := by
  unfold passHead
  dsimp only
  split <;> rfl

@[simp] theorem passHead_fetched : (passHead k g s).host.fetched = s.host.fetched := by
  unfold passHead
  dsimp only
  split <;> rfl

@[simp] theorem passHead_clk : (passHead k g s).clk = s.clk := by
  unfold passHead
  dsimp only
  split <;> rfl

theorem passHead_rings :
    (passHead k g s).host.rings = modAt s.host.rings k (fun r => { r with head := nextSlot (headSlot g) (2 ^ g.log2n.toNat) }) := by
  unfold passHead
  dsimp only
  split <;> rfl

variable {k g s}

theorem passHead_head (hg : s.host.rings[k]? = some g) :
    ((passHead k g s).host.rings[k]?).map (·.head) = some (nextSlot (headSlot g) (2 ^ g.log2n.toNat)) := by
  rw [passHead_rings, modAt, List.getElem?_modify_eq, hg]
  rfl

theorem passHead_other {j : Nat} (hj : j ≠ k) : (passHead k g s).host.rings[j]? = s.host.rings[j]? := by
  rw [passHead_rings, modAt, List.getElem?_modify_ne _ _ hj.symm]

end

/-- Whatever becomes of the command, taking it in leaves the rings. -/
@[simp] theorem enterFlight_rings (c : Cmd) (s : State) : (enterFlight c s).host.rings = s.host.rings := by
  by_cases h : ∃ f ∈ s.host.inflight, f.cmd.tag = c.tag
  · rw [enterFlight_of_tag_busy h, complete_rings]
  · rw [enterFlight_of_tag_free fun f hf he => h ⟨f, hf, he⟩]

/-! ### COMMAND_START_TIMEOUT (R542) -/

section
variable {s : State} {tag : BitVec 8} {f : InFlight}

theorem startTimeout_of_unknown (h : s.host.inflight.find? (fun f => f.cmd.tag == tag.toNat) = none) : startTimeout tag s = s := by
  unfold startTimeout
  rw [h]

theorem startTimeout_of_held (hf : s.host.inflight.find? (fun f => f.cmd.tag == tag.toNat) = some f)
    (h : f.started = true ∨ mayStart s.host.inflight f = false) : startTimeout tag s = s := by
  unfold startTimeout
  simp only [hf]
  rw [if_pos]
  rcases h with h | h <;> simp [h]

theorem startTimeout_of_free (hf : s.host.inflight.find? (fun f => f.cmd.tag == tag.toNat) = some f)
    (hfresh : f.started = false) (hfree : mayStart s.host.inflight f = true) :
    startTimeout tag s = finish f.cmd (Reply.refuse Rsn.overload)
      (bumpClass 5 ClassCount.refuse { s with clk := s.clk.advance (f.waitFrom + msU 50) }) := by
  unfold startTimeout
  simp only [hf, hfresh, hfree, Bool.not_true, Bool.or_self, Bool.false_eq_true, if_false]

end

section
variable (s : State)
theorem exec_commandFetch : exec .commandFetch s = .next (fetchOne s) := rfl
theorem exec_commandStartTimeout (tag : BitVec 8) : exec (.commandStartTimeout tag) s = .next (startTimeout tag s) := rfl
theorem exec_unknownCommand (c : Cmd) : exec (.unknownCommand c) s =
    .next (command c (fun _ => { used := [(0x14, 0, 256)] }) (fun s => .done (Reply.refuse Rsn.unknown) s) s) := rfl
end

/-- Settles O29: a fetch passes HEAD and then takes the command in, which by its TAG enters flight or is refused. -/
theorem fetching : Obligations.Fetching := by
  unfold Obligations.Fetching
  refine ⟨fun s h => ?_, fun s g hg hen hposted => nextRing_of_posted_mb0 hg hen hposted, ?_,
    fun tag s => ⟨fun f hf hfresh hfree => ?_, fun f hf h => ?_, fun h => ?_⟩, fun c s f h hp => ?_⟩
  · rw [exec_commandFetch, fetchOne_of_idle h]
  · rintro s k g _ _ _ hcan hnext hg rfl rfl hreach rfl
    rw [exec_commandFetch, fetchOne_of_posted hcan hnext hg hreach]
    refine ⟨_, rfl, ?_, fun j hj => ?_, fun hfree => ?_, fun hbusy => ?_⟩
    · rw [enterFlight_rings, passHead_head hg, headSlot]
    · rw [enterFlight_rings, passHead_other hj]
    · have hhost := enterFlight_of_tag_free (c := headCmd s k g) (s := passHead k g s) (by rwa [passHead_inflight])
      rw [hhost, passHead_inflight, passHead_fetched, passHead_clk]
      exact ⟨_, rfl, rfl, rfl, rfl, rfl, rfl⟩
    · have hrefused := enterFlight_of_tag_busy (c := headCmd s k g) (s := passHead k g s) (by rwa [passHead_inflight])
      rw [hrefused]
      exact ⟨by rw [complete_inflight, passHead_inflight], _, rfl⟩
  · rw [exec_commandStartTimeout, startTimeout_of_free hf hfresh hfree]
  · rw [exec_commandStartTimeout, startTimeout_of_held hf h]
  · rw [exec_commandStartTimeout, startTimeout_of_unknown h]
  · rw [exec_unknownCommand, command_runs h hp]

end Sys2Proof.Machine.Laws
end

section
/-! SUPPORT. The order of a command's statuses, and the commands of the families SYS and TBL (R50, R52, R57, R58, R59, R62, R90, R95). -/

namespace Sys2Proof.Machine.Laws
open Sys2Proof Sys2Proof.Machine Sys2Proof.Safety

/-! ### The order of R52 -/

section
variable {j : Judge} {c : Cmd} {v : TokenVerdict} {m : Bool}

theorem verdict_absent (ha : j.absent = true) : j.verdict c v m = some (Reply.fail St.absent 0) := by
  rw [Judge.verdict, if_pos ha]

theorem verdict_mode (ha : j.absent = false) (hm : j.modeBad = true ∨ m = true) : j.verdict c v m = some (Reply.refuse Rsn.mode) := by
  rw [Judge.verdict, if_neg (Bool.eq_false_iff.mp ha), if_pos (Bool.or_eq_true_iff.mpr hm)]

/-- With the unit there and the mode right, the token is next, then the ranges, then the lock. -/
theorem verdict_rest (ha : j.absent = false) (hj : j.modeBad = false) (hm : m = false) : j.verdict c v m =
    match authDetail v with
    | some d => some (Reply.fail St.auth d)
    | none =>
      match j.rangeAt c with
      | some o => some (Reply.range o)
      | none => if j.locked then some (Reply.fail St.locked 0) else none := by
  unfold Judge.verdict
  exact (if_neg (Bool.eq_false_iff.mp ha)).trans (if_neg (by simp [hj, hm]))

end

/-! ### A command that waits or is turned away (R52, R53, R57) -/

section
variable {c : Cmd} {j : State → Judge} {act : State → Action} {s : State} {f : InFlight}

theorem command_of_unserved (h : served s = false) : command c j act s = s := runCommand_unserved h

theorem command_of_held (hf : findInFlight s c = some f) (h : f.started = true ∨ mayStart s.host.inflight f = false) :
    command c j act s = s := by
  cases hs : served s with
  | false => exact command_of_unserved hs
  | true => exact runCommand_held hs hf h

theorem command_refused (h : Starts c s f) {r : Reply} (hv : (j s).verdict c f.token (cfgRefused s c.code) = some r) :
    command c j act s = finish c r s := runCommand_refused h hv

end

section
variable (c : Cmd) (s : State)
theorem exec_sysCaps :
    exec (.sysCaps c) s = .next (command c (fun _ => {}) (fun s => .done { out := some (sysCapsBlock s) } s) s) := rfl
theorem exec_sysStatus :
    exec (.sysStatus c) s = .next (command c (fun _ => {}) (fun s => .done { out := some (sysStatusBlock s) } s) s) := rfl
theorem exec_sysRestartWarm : exec (.sysRestartWarm c) s = .next (command c (restartJudge c) (restartAct c) s) := rfl
theorem exec_sysRestartCold : exec (.sysRestartCold c) s = .next (command c (restartJudge c) (restartAct c) s) := rfl
theorem exec_bayBeh : exec (.bayBeh c) s = .next (command c (bayJudge c [(0x14, 0, 3)] [(decide (5 < c.at_ 0x14 0 3), 0x14)])
    (fun s => .atBoundary 0 0 (.bayBeh c.unit (c.at_ 0x14 0 3)) s) s) := rfl
theorem exec_gridMode : ∃ act, exec (.gridMode c) s = .next (command c (gridJudge c) act s) := ⟨_, rfl⟩
theorem exec_fwLoad : exec (.fwLoad c) s = .next (command c (fwLoadJudge c) (fwLoadAct c) s) := rfl
end

/-- What changes nothing whatever its judgement and its action changes nothing as one of the four commands. -/
theorem exec_four_unchanged {c : Cmd} {s : State} (h : ∀ j act, command c j act s = s) :
    exec (.sysCaps c) s = .next s ∧ exec (.bayBeh c) s = .next s ∧ exec (.gridMode c) s = .next s ∧ exec (.fwLoad c) s = .next s := by
  obtain ⟨_, hgrid⟩ := exec_gridMode c s
  rw [exec_sysCaps, exec_bayBeh, hgrid, exec_fwLoad, h, h, h, h]
  exact ⟨rfl, rfl, rfl, rfl⟩

/-- Settles O6: the course of a command, and the branches of its judgement in their order. -/
theorem commandCourse : Obligations.CommandCourse := by
  unfold Obligations.CommandCourse
  refine fun c s => ⟨fun h => exec_four_unchanged fun _ _ => command_of_unserved h,
    fun f hf h => exec_four_unchanged fun _ _ => command_of_held hf h, fun f j r h hv => ⟨?_, ?_, ?_, ?_⟩,
    fun j v m => ⟨verdict_absent, verdict_mode, fun ha hj hm d hd => ?_, fun ha hj hm hd => ⟨fun o ho => ?_, fun ho hl => ?_, fun ho hl => ?_⟩⟩⟩
  · rintro rfl
    rw [exec_sysCaps, command_refused h hv]
  · rintro rfl
    rw [exec_bayBeh, command_refused h hv]
  · rintro rfl
    obtain ⟨_, hgrid⟩ := exec_gridMode c s
    rw [hgrid, command_refused h hv]
  · rintro rfl
    rw [exec_fwLoad, command_refused h hv]
  · rw [verdict_rest ha hj hm, hd]
  · rw [verdict_rest ha hj hm, hd, ho]
  · rw [verdict_rest ha hj hm, hd, ho, hl]
    rfl
  · rw [verdict_rest ha hj hm, hd, ho, hl]
    rfl

/-! ### SYS -/

theorem sysCapsBlock_length (s : State) : (sysCapsBlock s).length = 256 := by
  unfold sysCapsBlock
  simp only [List.length_append, leBytes_length, zeros_length, flatMap_length_const _ _ 1 fun _ _ => leBytes_length 1 _, List.length_range]

theorem sysStatusBlock_length (s : State) : (sysStatusBlock s).length = 128 := by
  unfold sysStatusBlock
  simp only [List.length_append, leBytes_length, zeros_length, flatMap_length_const _ _ 1 fun _ _ => leBytes_length 1 _, List.length_range]

theorem sysCapsBlock_take (s : State) : (sysCapsBlock s).take 12 =
    leBytes 4 (devCaps0 s.variant) ++ leBytes 4 (devCaps1 s.variant) ++ leBytes 4 (devCaps2 s.variant) := by
  unfold sysCapsBlock
  simp only [List.append_assoc]
  rfl

theorem sysStatusBlock_take (s : State) : (sysStatusBlock s).take 4 =
    leBytes 4 (s.mode.mode.code + place s.mode.prev.code 4 4 + place s.mode.bootCode.toNat 8 8 + place s.mode.resetSrc 16 8 +
      place s.sec.active 24 1 + place (flag s.mode.fallback) 25 1) := by
  unfold sysStatusBlock
  simp only [List.append_assoc]
  rfl

section
variable {c : Cmd} {s : State}

/-- A SYS.RESTART of the KIND cold while a TRIP output is asserted (R90). -/
theorem restartAct_of_tripped (hcold : c.at_ 0x14 0 2 = 2) (htrip : anyTrip s = true) :
    restartAct c s = .done (Reply.refuse Rsn.state) s := by
  simp [restartAct, hcold, htrip]

/-- Any other is accepted: the restart waits for its completion, and fetching stops (R90). -/
theorem restartAct_accepted (h : c.at_ 0x14 0 2 = 2 → anyTrip s = false) : restartAct c s =
    .done { effect := some (s.clk.ms + 1) }
      { s with
        mode := { s.mode with restart := some { src := if c.at_ 0x14 0 2 = 2 then 3 else 5, cmd := some (refOf c) } }
        host := { s.host with fetchStop := true } } := by
  unfold restartAct
  by_cases hcold : c.at_ 0x14 0 2 = 2
  · simp [hcold, h hcold, nextMs]
  · simp [hcold, nextMs]

end

/-- Settles O7: the blocks are sums of parts of known length, and SYS.RESTART is accepted or refused by its KIND and the TRIP outputs. -/
theorem sysCommands : Obligations.SysCommands := by
  unfold Obligations.SysCommands
  refine ⟨fun c s f h hp => ⟨?_, ?_, fun t => ⟨sysCapsBlock_length t, sysStatusBlock_length t, sysCapsBlock_take t, sysStatusBlock_take t⟩⟩, ?_⟩
  · rw [exec_sysCaps, command_runs h hp]
  · rw [exec_sysStatus, command_runs h hp]
  · rintro c s f h hp _ rfl
    refine ⟨fun hcold htrip => ?_, fun hcold htrip => ?_, fun hwarm => ?_⟩
    · rw [exec_sysRestartCold, command_runs h hp, restartAct_of_tripped hcold htrip]
    · rw [exec_sysRestartCold, command_runs h hp, restartAct_accepted fun _ => htrip, hcold]
      rfl
    · rw [exec_sysRestartWarm, command_runs h hp, restartAct_accepted fun hcold => absurd (hwarm.symm.trans hcold) (by decide), hwarm]
      rfl

end Sys2Proof.Machine.Laws
end

section
/-! SUPPORT. TBL.BASE, TBL.SYNC and TBL.READ, and the end of a TBL.SYNC's check (R59, R62, R63, R64, R66). -/

namespace Sys2Proof.Machine.Laws
open Sys2Proof Sys2Proof.Machine Sys2Proof.Safety

/-! ### The commands -/

section
variable (c : Cmd) (s : State)

theorem exec_tblBase : exec (.tblBase c) s = .next (command c (tblBaseJudge c) (fun s =>
    .done {} (setTbl (fun t => mapTbl c.unit (fun e => { e with seqValid := false })
      { t with
        base := modAt t.base c.unit (fun _ =>
          { placed := true, ddr := c.at_ 0x14 0 1 == 1, addr := 4096 * c.at_ 0x14 12 52,
            count := if c.at_ 0x1C 0 16 == 0 then tblCount s.variant c.unit else c.at_ 0x1C 0 16 })
        rebased := modAt t.rebased c.unit (fun _ => true) }) s)) s) := rfl

theorem exec_tblSync : exec (.tblSync c) s = .next (command c
    (fun s => { modeBad := !s.mode.mode.configurable, used := [(0x14, 0, 6), (0x18, 0, 32)] })
    (fun s => .goesOn (setTbl (fun t =>
      { t with
        job := some { cmd := refOf c, mask := c.at_ 0x14 0 6, first := c.at_ 0x18 0 16, count := c.at_ 0x18 16 16, base := t.base }
        rebased := List.replicate 6 false }) (queuedEntry c s))) s) := rfl

/-- TBL.READ of a place that its INDEX names (R62). -/
theorem exec_tblRead {f : InFlight} (h : Starts c s f) (hp : Passes (tblReadJudge c s) c s f) {k i : Nat} (hplace : readPlace c = some (k, i)) :
    exec (.tblRead c) s = .next (answer c
      { out := some (padTo (tblSize k) (tblEntry (begun c s).tbl k i).bytes)
        result := u16At (padTo (tblSize k) (tblEntry (begun c s).tbl k i).bytes) (tblSize k - 8) +
          place (flag (tblEntry (begun c s).tbl k i).cached) 16 1 +
          place (if (tblEntry (begun c s).tbl k i).cached then (tblEntry (begun c s).tbl k i).since else 0) 32 32 } (begun c s)) := by
  have hrow : exec (.tblRead c) s = execTblRead c s := rfl
  rw [hrow, execTblRead, command_runs h hp]
  simp only [hplace]

end

/-! ### The end of a check -/

/-- A report entry stages nothing. -/
theorem foldl_addRep_staged (l : List Staged) (status detail : Nat) (warning : Bool) (a : SyncAcc) :
    (l.foldl (fun a x => addRep x.table x.index status detail warning a) a).staged = a.staged :=
  List.foldlRecOn (motive := fun x : SyncAcc => x.staged = a.staged) _ _ rfl fun _ hx _ _ => hx

/-- The result says whether an entry was staged. -/
theorem syncResult_any (s : State) (j : SyncJob) (a : SyncAcc) (room : Nat) : (syncResult s j a room).any = !a.staged.isEmpty := by
  unfold syncResult
  dsimp only
  rw [foldl_addRep_staged]

/-- The refusals of the class that a check counts (R541). -/
def countRefusals (n : Nat) (s : State) : State := (List.range n).foldl (fun s _ => bumpClass 0 ClassCount.refuse s) s

@[simp] theorem countRefusals_tbl (n : Nat) (s : State) : (countRefusals n s).tbl = s.tbl :=
  List.foldlRecOn (motive := fun t : State => t.tbl = s.tbl) _ _ rfl fun _ ht _ _ => ht

@[simp] theorem countRefusals_prot (n : Nat) (s : State) : (countRefusals n s).prot = s.prot :=
  List.foldlRecOn (motive := fun t : State => t.prot = s.prot) _ _ rfl fun _ ht _ _ => ht

section
variable {s : State}

theorem exec_tblSyncCheckDone : exec .tblSyncCheckDone s = execTblSyncCheckDone s := rfl

theorem exec_tblSyncCheckDone_of_none (h : s.tbl.job = none) : exec .tblSyncCheckDone s = .next s := by
  rw [exec_tblSyncCheckDone, execTblSyncCheckDone, h]

end

/-- The state in which a check ends: its job is over. -/
def endJob (s : State) : State := setTbl (fun t => { t with job := none }) s

/-- What the check of a job comes to in a state (R63). -/
def checked (b : State) (j : SyncJob) : SyncAcc := syncPasses b j 1400 []

/-- Its result, with the report cut to the room of its command (R66). -/
def checkedResult (b : State) (j : SyncJob) : SyncDone :=
  syncResult b j (checked b j) (match openCmd b j.cmd with | some c => c.room | none => 0)

/-- The staged entries wait with the reply for the boundary (R64). -/
def stageChecked (b : State) (j : SyncJob) (s : State) : State :=
  setTbl (fun t => { t with staged := (checked b j).staged, done := some (checkedResult b j) }) s

/-- What the end of a check does, by the mode, by what the memory answered and by what was staged. -/
theorem exec_tblSyncCheckDone_of_job {s : State} {j : SyncJob} (hj : s.tbl.job = some j) : ∃ n, exec .tblSyncCheckDone s = .next (
    if (endJob s).mode.mode.configurable = false then finishOpen j.cmd (Reply.refuse Rsn.mode) (endJob s)
    else if (checked (endJob s) j).ok = false then finishOpen j.cmd (Reply.fail St.fault 3) (endJob s)
    else if (checked (endJob s) j).staged = [] then
      finishOpen j.cmd (syncReply (checkedResult (endJob s) j) none) (countRefusals n (endJob s))
    else
      (checked (endJob s) j).staged.foldl (fun s x => applyClassD x s) (stageChecked (endJob s) j (countRefusals n (endJob s)))) := by
  have hany : (checkedResult (endJob s) j).any = !(checked (endJob s) j).staged.isEmpty := syncResult_any ..
  refine ⟨((checked (endJob s) j).reps.filter (fun r => r.status == St.refused && r.detail == Rsn.capacity)).length, ?_⟩
  rw [exec_tblSyncCheckDone, execTblSyncCheckDone, hj]
  change Host.Outcome.next (if (!(endJob s).mode.mode.configurable) = true then _ else if (!(checked (endJob s) j).ok) = true then _
    else if (!(checkedResult (endJob s) j).any) = true then _ else _) = _
  simp only [hany, Bool.not_eq_true', Bool.not_eq_false', List.isEmpty_iff]
  rfl

/-- Settles O10: by the mode, by what the memory answered and by what was staged. -/
theorem syncEnds : Obligations.SyncEnds := by
  unfold Obligations.SyncEnds
  intro s j hj
  obtain ⟨n, hrow⟩ := exec_tblSyncCheckDone_of_job hj
  rw [hrow]
  refine ⟨fun hmode => congrArg _ (if_pos hmode), fun hmode hok => congrArg _ ((if_neg (ne_false_of_eq_true hmode)).trans (if_pos hok)),
    fun hmode hok hnone => ⟨countRefusals n (endJob s), ?_, countRefusals_tbl .., countRefusals_prot ..⟩,
    fun hmode hok hsome => ⟨stageChecked (endJob s) j (countRefusals n (endJob s)), ?_, ?_⟩⟩
  · exact congrArg _ ((if_neg (ne_false_of_eq_true hmode)).trans ((if_neg (ne_false_of_eq_true hok)).trans (if_pos hnone)))
  · exact congrArg _ ((if_neg (ne_false_of_eq_true hmode)).trans ((if_neg (ne_false_of_eq_true hok)).trans (if_neg hsome)))
  · rw [stageChecked, setTbl_tbl, countRefusals_tbl]
    rfl

/-- Settles O9: each command's action, and a row that finds no check. -/
theorem tableCommands : Obligations.TableCommands := by
  unfold Obligations.TableCommands
  rintro c s f h _ rfl
  refine ⟨fun hp => ?_, fun hp => ?_, fun hp k i hplace => ⟨exec_tblRead c s h hp hplace, padTo_length ..⟩, exec_tblSyncCheckDone_of_none⟩
  · rw [exec_tblBase, command_runs h hp]
    simp only [beq_iff_eq]
  · rw [exec_tblSync, command_runs h hp]

end Sys2Proof.Machine.Laws
end

section
/-! SUPPORT. The state that reset leaves, and the Milestone boundary (R44, R45, R56, R65, R73, R97, R117). -/

namespace Sys2Proof.Machine.Laws
open Sys2Proof Sys2Proof.Machine Sys2Proof.Safety

/-! ### Reset -/

/-- The empty memories, queue and ring of a new device are within their bounds (R498, R501). -/
theorem reset_sound : Sound State.reset := ⟨rfl, Nat.zero_le _, Nat.zero_le _⟩

/-- Every command ring is a disabled one at address 0 with no slots. -/
theorem reset_rings {k : Nat} (hk : k < 4) : State.reset.host.rings.getD k {} = {} := by
  match k, hk with
  | 0, _ | 1, _ | 2, _ | 3, _ => rfl

/-- Settles O2: reset leaves one state, read field by field. -/
theorem resetLeaves : Obligations.ResetLeaves := by
  unfold Obligations.ResetLeaves
  exact ⟨rfl, rfl, rfl, fun k hk => reset_rings hk, rfl, rfl, rfl, rfl, rfl, rfl, rfl, reset_sound⟩

/-! ### The boundary -/

section
variable (m : MsIn) {s : State}

theorem exec_milestoneBoundary_of_idle (h : s.clk.sclk = false ∨ s.mode.mode = .backup) : exec (.milestoneBoundary m) s = .next s := by
  have hrow : exec (.milestoneBoundary m) s = execMilestoneBoundary m s := rfl
  rw [hrow, execMilestoneBoundary, if_neg]
  rcases h with h | h <;> simp [h]

theorem exec_milestoneBoundary_of_running (hclk : s.clk.sclk = true) (hmode : s.mode.mode ≠ .backup) :
    exec (.milestoneBoundary m) s = .next (boundary m s) := by
  have hrow : exec (.milestoneBoundary m) s = execMilestoneBoundary m s := rfl
  rw [hrow, execMilestoneBoundary, if_pos (by simp [hclk, hmode])]

/-- After the end of the Milestone in progress a cold restart that is due takes the whole device, and else the next one starts (R70, R90). -/
theorem boundary_eq_of_end {p : State × TkoPass} (hp : p = endMilestone m (sweepLate (setClk (fun k => k.advance (endOfMs s)) s))) :
    boundary m s = (coldDue p.1).elim (startMs m (openMs m p.2 p.1)) fun src => resetDevice src (openNext p.1) := by
  obtain ⟨t, q⟩ := p
  unfold boundary
  extract_lets b
  rw [show endMilestone m b = (t, q) from hp.symm]
  dsimp only
  cases coldDue t with
  | none => dsimp only [Option.elim_none]
  | some src => dsimp only [Option.elim_some]

end

/-- A number aligned is the multiple of 96 that is next, itself where it is one (R117). -/
theorem alignUp_spec (n : Nat) : alignUp n % 96 = 0 ∧ n ≤ alignUp n ∧ alignUp n ≤ n + 95 := by
  unfold alignUp
  omega

/-- Settles O60: when the boundary acts and what a cold restart cuts off; the number it opens; the order of the actions; their completion. -/
theorem milestoneRow : Obligations.MilestoneRow := by
  unfold Obligations.MilestoneRow
  refine ⟨fun m s => ⟨exec_milestoneBoundary_of_idle m, exec_milestoneBoundary_of_running m, ?_⟩, fun s => ⟨rfl, alignUp_spec⟩, ?_,
    fun _ _ => rfl⟩
  · rintro _ p rfl hp
    rw [boundary_eq_of_end m hp]
    exact ⟨fun src h => by rw [h, Option.elim_some], fun h => by rw [h, Option.elim_none]⟩
  · rintro l s _ rfl
    rfl

end Sys2Proof.Machine.Laws
end

section
/-! SUPPORT. BAY.GROUP, BAY.BEH and BAY.RESET, and what BAY.BEH does at the boundary (R81, R286, R317). -/

namespace Sys2Proof.Machine.Laws
open Sys2Proof Sys2Proof.Machine Sys2Proof.Safety

/-- The state that a command's action comes to. -/
def cameTo (c : Cmd) : Action → State
  | .done r t => answer c r t
  | .atBoundary d x a t => waits c d x a t
  | .goesOn t => t

section
variable {c : Cmd} {s : State} {f : InFlight} (h : Starts c s f)
include h

/-- A command that starts and passes is what its action comes to. -/
theorem command_cameTo {j : State → Judge} {act : State → Action} (hp : Passes (j s) c s f) :
    command c j act s = cameTo c (act (begun c s)) := by
  rw [command_runs h hp]
  cases act (begun c s) <;> rfl

/-- BAY.GROUP by whether the group is present, and whether it is in force with no switch pending (R286). -/
theorem exec_bayGroup (hp : Passes (bayJudge c [(0x14, 0, 3)] [(decide (5 < c.at_ 0x14 0 3), 0x14)] s) c s f) :
    exec (.bayGroup c) s = .next (
      if groupPresent (begun c s) c.unit (c.at_ 0x14 0 3) = false then answer c (Reply.refuse Rsn.state) (begun c s)
      else if c.at_ 0x14 0 3 = (bayProt (begun c s) c.unit).group ∧ groupPending (begun c s) c.unit = false then answer c {} (begun c s)
      else waits c 0 0 (.bayGroup c.unit (c.at_ 0x14 0 3)) (begun c s)) := by
  have hrow : exec (.bayGroup c) s = execBayGroup c s := rfl
  rw [hrow, execBayGroup, command_cameTo h hp]
  simp only [apply_ite (cameTo c), Bool.not_eq_true', Bool.and_eq_true, beq_iff_eq]
  rfl

/-- BAY.RESET by whether a bit is set (R317). -/
theorem exec_bayReset (hp : Passes (bayJudge c [(0x14, 0, 6)] [] s) c s f) :
    exec (.bayReset c) s = .next (if c.at_ 0x14 0 6 = 0 then answer c {} (begun c s)
      else waits c 0 0 (.bayReset c.unit (c.at_ 0x14 0 6)) (begun c s)) := by
  have hrow : exec (.bayReset c) s = execBayReset c s := rfl
  rw [hrow, execBayReset, command_cameTo h hp]
  simp only [apply_ite (cameTo c), beq_iff_eq]
  rfl

end

/-- At the boundary BAY.BEH puts its value among the overrides and completes (R81). -/
theorem runAct_bayBeh {a : PendAct} {bay v : Nat} (ha : a.act = .bayBeh bay v) (s : State) :
    runAct s a = actDone a (setMode (fun m => { m with override := modAt m.override bay (fun _ => v) }) s) := by
  rw [runAct, ha]

/-- Settles O11: each command by what stands in its way, and the act of BAY.BEH. -/
theorem bayCommands : Obligations.BayCommands := by
  unfold Obligations.BayCommands
  refine ⟨?_, fun a bay v s ha => runAct_bayBeh ha s⟩
  rintro c s f h _ rfl
  refine ⟨fun hp => ⟨exec_bayGroup h hp, ?_⟩, exec_bayReset h⟩
  rw [exec_bayBeh, command_cameTo h hp]
  rfl

end Sys2Proof.Machine.Laws
end

section
/-! SUPPORT. A warm restart that begins while time is LOCKED: the fall to HOLDOVER is a time event of its own, which sets IRQ_STAT.TIME
after BAR0 has been reset (R45, R93, R125, R149). -/

namespace Sys2Proof.Machine.Laws
open Sys2Proof Sys2Proof.Machine

/-- A device in SERVICE whose time is LOCKED. -/
def lockedService : State := { clk := { sclk := true }, mode := { mode := .service, mbReady := true }, time := { state := .locked } }

/-- A warm restart of that device leaves IRQ_STAT.TIME set. -/
theorem beginWarm_lockedService_irqStat : (beginWarm 5 lockedService).host.regs.irqStat = BitVec.ofNat 13 (2 ^ Irq.time) := by
  decide +kernel

/-- Refutes O35: the registers that a warm restart leaves are those of a reset only where time is not LOCKED; where it is, the restart
makes it HOLDOVER, and IRQ_STAT.TIME stands when it has begun. -/
theorem not_restartRows : ¬ Obligations.RestartRows := by
  unfold Obligations.RestartRows
  rintro ⟨-, -, -, hbegins, -⟩
  obtain ⟨t, rfl, -, -, -, -, -, -, -, -, hregs, -⟩ := hbegins 5 lockedService
  have hstat := beginWarm_lockedService_irqStat
  rw [hregs] at hstat
  exact absurd hstat (by decide)

end Sys2Proof.Machine.Laws
end

section
/-! SUPPORT. What leaves the clocks and the mode as they are: events, completions, self-tests, the pins, and the start and the end of
protection. -/

namespace Sys2Proof.Machine.Laws
open Sys2Proof Sys2Proof.Machine

/-- The clocks, and all of the operating-mode state. -/
def clkMode (s : State) : Clock × ModeSt := (s.clk, s.mode)

theorem clk_of_clkMode {s t : State} (h : clkMode t = clkMode s) : t.clk = s.clk := congrArg Prod.fst h
theorem mode_of_clkMode {s t : State} (h : clkMode t = clkMode s) : t.mode = s.mode := congrArg Prod.snd h

/-- A fold of steps that keep the clocks and the mode keeps them. -/
theorem clkMode_foldl {α : Type} {f : State → α → State} (hf : ∀ s a, clkMode (f s a) = clkMode s) (l : List α) (s : State) :
    clkMode (l.foldl f s) = clkMode s :=
  List.foldlRecOn (motive := fun t => clkMode t = clkMode s) _ _ rfl fun t ht a _ => (hf t a).trans ht

/-! ### Interrupts and completions -/

section
variable (s : State)

@[simp] theorem clkMode_ite (p : Prop) [Decidable p] (t : State) : clkMode (if p then s else t) = if p then clkMode s else clkMode t :=
  apply_ite ..

@[simp] theorem clkMode_raiseIrq (k : Nat) : clkMode (raiseIrq k s) = clkMode s := (congrArg clkMode (raiseIrq_onlyMessages k s) :)

@[simp] theorem clkMode_postEvent (src code unit : Nat) (data : Bytes) : clkMode (postEvent src code unit data s) = clkMode s := rfl

@[simp] theorem clkMode_memWrite (sp : Space) (a : Nat) (b : Bytes) : clkMode (memWrite sp a b s) = clkMode s := rfl

@[simp] theorem clkMode_memWriteIf (sp : Space) (a : Nat) (b : Bytes) : clkMode (memWriteIf sp a b s) = clkMode s := by
  simp [memWriteIf]

@[simp] theorem clkMode_putCompletion (c : Completion) : clkMode (putCompletion c s) = clkMode s := by
  unfold putCompletion
  exact (clkMode_raiseIrq _ _).trans (clkMode_memWriteIf s _ _ _ :)

@[simp] theorem clkMode_complete (c : Completion) : clkMode (complete c s) = clkMode s := by
  unfold complete
  split
  · exact clkMode_putCompletion s c
  · exact clkMode_raiseIrq _ _

@[simp] theorem clkMode_dropInFlight (c : Cmd) : clkMode (dropInFlight c s) = clkMode s := rfl

@[simp] theorem clkMode_markInFlight (c : Cmd) (g : InFlight → InFlight) : clkMode (markInFlight c g s) = clkMode s := rfl

@[simp] theorem clkMode_conclude (c : Cmd) (x : Completion) : clkMode (conclude c x s) = clkMode s := by simp [conclude]

@[simp] theorem clkMode_countAuthFail : clkMode (countAuthFail s) = clkMode s := by
  unfold countAuthFail
  exact (clkMode_ite ..).trans (ite_self _)

@[simp] theorem clkMode_clearDenied (c : Cmd) (d : Nat) : clkMode (clearDenied c d s) = clkMode s := rfl

@[simp] theorem clkMode_bumpClass (k : Nat) (f : ClassCount → ClassCount) : clkMode (bumpClass k f s) = clkMode s := rfl

/-- The final completion of a command touches neither. -/
@[simp] theorem clkMode_finish (c : Cmd) (r : Reply) : clkMode (finish c r s) = clkMode s := by
  unfold finish
  dsimp only [delayed]
  split
  · simp
  · split <;> simp

@[simp] theorem clkMode_consoleReply (r : Reply) : clkMode (consoleReply r s) = clkMode s := by
  unfold consoleReply
  split
  · cases r.out
    · dsimp only
      split <;> rfl
    · rfl
  · rfl

@[simp] theorem clkMode_finishOpen (x : CmdRef) (r : Reply) : clkMode (finishOpen x r s) = clkMode s := by
  unfold finishOpen
  split
  · exact clkMode_consoleReply s r
  · split
    · exact clkMode_finish ..
    · rfl

/-! ### Pins and self-tests -/

@[simp] theorem clkMode_pinChanged (p : Nat) (was : Bool) (cause b : Nat) : clkMode (pinChanged p was cause b s) = clkMode s := by
  unfold pinChanged pinChangedBy
  dsimp only
  split
  · rfl
  · exact clkMode_raiseIrq _ _

@[simp] theorem clkMode_endPulse (b : Nat) : clkMode (endPulse b s) = clkMode s := by
  unfold endPulse
  split
  · exact clkMode_pinChanged ..
  · rfl

@[simp] theorem clkMode_endTest (outcome fail : Nat) (vals : List Nat) : clkMode (endTest outcome fail vals s) = clkMode s := by
  unfold endTest
  split
  · rfl
  · dsimp only
    split
    · exact clkMode_finishOpen ..
    · rfl

@[simp] theorem clkMode_abortTest (m : Mode) : clkMode (abortTest m s) = clkMode s := by
  unfold abortTest
  split
  · simp
  · rfl

@[simp] theorem clkMode_setTrip (f : TripSt → TripSt) : clkMode (setTrip f s) = clkMode s := rfl

@[simp] theorem clkMode_pinsLow : clkMode (pinsLow s) = clkMode s := by
  unfold pinsLow
  dsimp only
  rw [clkMode_foldl, clkMode_setTrip, clkMode_foldl]
  · exact fun t p => clkMode_pinChanged ..
  · intro t p
    split <;> rfl

/-! ### Protection -/

@[simp] theorem clkMode_setRegion (r : Nat) (f : RegionRec → RegionRec) : clkMode (setRegion r f s) = clkMode s := rfl
@[simp] theorem clkMode_setNet (f : NetSt → NetSt) : clkMode (setNet f s) = clkMode s := rfl
@[simp] theorem clkMode_setProt (f : ProtSt → ProtSt) : clkMode (setProt f s) = clkMode s := rfl
@[simp] theorem clkMode_setFilt (f : FiltSt → FiltSt) : clkMode (setFilt f s) = clkMode s := rfl
@[simp] theorem clkMode_syncReset (p : Nat → Bool) : clkMode (syncReset p s) = clkMode s := rfl
@[simp] theorem clkMode_startChain (c : Nat) (t12 : Bool) : clkMode (startChain c t12 s) = clkMode s := rfl
@[simp] theorem clkMode_startRecording : clkMode (startRecording s) = clkMode s := rfl

@[simp] theorem clkMode_startBay (warm : Bool) (b : Nat) : clkMode (startBay warm b s) = clkMode s := rfl
@[simp] theorem clkMode_resetSect (k : Nat) : clkMode (resetSect k s) = clkMode s := rfl

theorem clkMode_stopRegion (cause r : Nat) : clkMode (stopRegion cause r s) = clkMode s := by
  unfold stopRegion
  rw [clkMode_setRegion]
  exact clkMode_foldl (fun _ _ => clkMode_setRegion ..) _ _

@[simp] theorem clkMode_stopRegions (cause : Nat) : clkMode (stopRegions cause s) = clkMode s := by
  unfold stopRegions
  exact clkMode_foldl (fun t r => clkMode_stopRegion t cause r) _ _

@[simp] theorem clkMode_stopProtection : clkMode (stopProtection s) = clkMode s := by
  unfold stopProtection stopGoosePubs
  simp

@[simp] theorem clkMode_startProtection (warm : Bool) : clkMode (startProtection warm s) = clkMode s := by
  unfold startProtection
  dsimp only
  rw [clkMode_startRecording, clkMode_setProt, clkMode_foldl (fun t k => clkMode_resetSect t k),
    clkMode_foldl (fun t b => clkMode_startBay t warm b), clkMode_syncReset, clkMode_setFilt]

@[simp] theorem clkMode_startStopped : clkMode (startStopped s) = clkMode s := by
  unfold startStopped
  refine clkMode_foldl (fun t c => ?_) _ _
  dsimp only
  split
  · rfl
  · exact clkMode_startChain ..

@[simp] theorem clkMode_sendFrame (pair : Nat) (f : TxFrame) : clkMode (sendFrame pair f s) = clkMode s := by
  unfold sendFrame
  split <;> rfl

@[simp] theorem clkMode_evalGoosePub (i : Nat) (ahead : Nat × Nat) : clkMode (evalGoosePub i ahead s) = clkMode s := by
  unfold evalGoosePub
  dsimp only
  split
  · rfl
  · split
    · rfl
    · exact clkMode_sendFrame ..

theorem clkMode_evalGooseClass (trip : Bool) (withheld : Nat → Bool) : clkMode (evalGooseClass trip withheld s) = clkMode s := by
  refine List.foldlRecOn (motive := fun a : State × List (Nat × Nat) => clkMode a.1 = clkMode s) _ _ rfl fun a ha i _ => ?_
  dsimp only
  split
  · exact ha
  · split <;> exact (clkMode_evalGoosePub ..).trans ha

@[simp] theorem clkMode_evalGoosePubs (withheld : Nat → Bool) : clkMode (evalGoosePubs withheld s) = clkMode s :=
  (clkMode_evalGooseClass ..).trans (clkMode_evalGooseClass ..)

end

end Sys2Proof.Machine.Laws
end

section
/-! SUPPORT. SYS.MODE: its answer in each mode, and the mode it enters (R69, R77, R78, R79, R597). -/

namespace Sys2Proof.Machine.Laws
open Sys2Proof Sys2Proof.Machine Sys2Proof.Safety

/-! ### The answer -/

theorem targetMode_cases (n : Nat) : targetMode n = .configure ∨ targetMode n = .commission ∨ targetMode n = .service := by
  unfold targetMode
  split
  · exact .inl rfl
  · split
    · exact .inr (.inl rfl)
    · exact .inr (.inr rfl)

/-- The request is accepted for the next boundary. -/
def modeAccepted (c : Cmd) (s : State) : Action := .atBoundary 0 0 (.sysMode (targetMode (c.at_ 0x14 0 4)) (c.at_ 0x14 4 1 == 1)) s

def modeRefused (s : State) : Action := .done (Reply.refuse Rsn.state) s

section
variable {c : Cmd} {s : State}

/-- In CONFIGURE a start of protection is accepted unless it is barred (R77). -/
theorem sysModeAct_of_configure (hm : s.mode.mode = .configure) : sysModeAct c s =
    if targetMode (c.at_ 0x14 0 4) ≠ .configure ∧ startBarred s = false then modeAccepted c s else modeRefused s := by
  unfold sysModeAct modeAccepted
  rcases targetMode_cases (c.at_ 0x14 0 4) with ht | ht | ht <;> cases hbar : startBarred s <;> simp [hm, ht, modeRefused]

theorem sysModeAct_of_commission (hm : s.mode.mode = .commission) (ht : targetMode (c.at_ 0x14 0 4) = .service) :
    sysModeAct c s = modeAccepted c s := by
  unfold sysModeAct modeAccepted
  simp only [hm, ht]

theorem sysModeAct_of_degraded (hm : s.mode.mode = .degraded) (ht : targetMode (c.at_ 0x14 0 4) = .service) :
    sysModeAct c s = .done { result := 6 } s := by
  unfold sysModeAct
  simp only [hm, ht]

/-- The end of protection is accepted unless a TRIP output is asserted (R79). -/
theorem sysModeAct_of_stop (hm : s.mode.mode = .commission ∨ s.mode.mode = .service ∨ s.mode.mode = .degraded)
    (ht : targetMode (c.at_ 0x14 0 4) = .configure) :
    sysModeAct c s = if anyTrip s = false then modeAccepted c s else modeRefused s := by
  unfold sysModeAct modeAccepted
  rcases hm with hm | hm | hm <;> cases htrip : anyTrip s <;> simp [hm, ht, modeRefused]

/-- Every other transition is refused (R69). -/
theorem sysModeAct_of_unlisted (hconf : s.mode.mode ≠ .configure) (hcomm : ¬(s.mode.mode = .commission ∧ targetMode (c.at_ 0x14 0 4) = .service))
    (hdeg : ¬(s.mode.mode = .degraded ∧ targetMode (c.at_ 0x14 0 4) = .service))
    (hstop : ¬((s.mode.mode = .commission ∨ s.mode.mode = .service ∨ s.mode.mode = .degraded) ∧ targetMode (c.at_ 0x14 0 4) = .configure)) :
    sysModeAct c s = modeRefused s := by
  unfold sysModeAct
  rcases targetMode_cases (c.at_ 0x14 0 4) with ht | ht | ht <;> cases hm : s.mode.mode <;> simp_all [modeRefused]

/-- The answer in every mode to every request (R69, R77, R78, R79). -/
theorem sysModeAct_eq (c : Cmd) (s : State) : sysModeAct c s =
    if s.mode.mode = .configure then
      if targetMode (c.at_ 0x14 0 4) ≠ .configure ∧ startBarred s = false then modeAccepted c s else modeRefused s
    else if s.mode.mode = .commission ∧ targetMode (c.at_ 0x14 0 4) = .service then modeAccepted c s
    else if s.mode.mode = .degraded ∧ targetMode (c.at_ 0x14 0 4) = .service then .done { result := 6 } s
    else if (s.mode.mode = .commission ∨ s.mode.mode = .service ∨ s.mode.mode = .degraded) ∧ targetMode (c.at_ 0x14 0 4) = .configure ∧
      anyTrip s = false then modeAccepted c s
    else modeRefused s := by
  by_cases hconf : s.mode.mode = .configure
  · rw [if_pos hconf, sysModeAct_of_configure hconf]
  rw [if_neg hconf]
  by_cases hcomm : s.mode.mode = .commission ∧ targetMode (c.at_ 0x14 0 4) = .service
  · rw [if_pos hcomm, sysModeAct_of_commission hcomm.1 hcomm.2]
  rw [if_neg hcomm]
  by_cases hdeg : s.mode.mode = .degraded ∧ targetMode (c.at_ 0x14 0 4) = .service
  · rw [if_pos hdeg, sysModeAct_of_degraded hdeg.1 hdeg.2]
  rw [if_neg hdeg]
  by_cases hstop : (s.mode.mode = .commission ∨ s.mode.mode = .service ∨ s.mode.mode = .degraded) ∧ targetMode (c.at_ 0x14 0 4) = .configure
  · obtain ⟨hm, ht⟩ := hstop
    rw [sysModeAct_of_stop hm ht]
    simp only [hm, ht, true_and]
  · rw [sysModeAct_of_unlisted hconf hcomm hdeg hstop, if_neg fun h => hstop ⟨h.1, h.2.1⟩]

theorem exec_sysMode {f : InFlight} (h : Starts c s f) (hp : Passes (sysModeJudge c s) c s f) :
    exec (.sysMode c) s = .next (cameTo c (sysModeAct c (begun c s))) := by
  have hrow : exec (.sysMode c) s = execSysMode c s := rfl
  rw [hrow, execSysMode, command_cameTo h hp]

end

/-! ### The mode entered -/

/-- The mode that a request enters: DEGRADED for SERVICE while a DEGRADED cause is active (R78). -/
def enteredMode (t : Mode) (s : State) : Mode := if t = .service ∧ s.mode.deg ≠ 0 then .degraded else t

section
variable (t : Mode) (s : State)

@[simp] theorem clkMode_dropPartial : clkMode (dropPartial s) = clkMode s := by
  unfold dropPartial
  split <;> rfl

/-- A mode change keeps the mode before it as PREV_MODE and notes its Milestone (R95, R597). -/
theorem clkMode_changeMode (cause : Nat) (bit : Option Nat) :
    clkMode (changeMode t cause bit s) = (s.clk, { s.mode with prev := s.mode.mode, mode := t, modeMs := s.clk.ms }) := by
  have hsave (u : State) : clkMode (saveEnergy u) = clkMode u := rfl
  unfold changeMode
  dsimp only
  rw [clkMode_raiseIrq, clkMode_postEvent, clkMode_ite, hsave, ite_self, clkMode_ite, clkMode_dropPartial, ite_self]
  rfl

/-- A SYS.MODE in effect: what starts or ends with it leaves the mode that it has entered. -/
theorem applySysMode_mode (warm : Bool) : (applySysMode t warm s).1.mode =
    { s.mode with prev := s.mode.mode, mode := enteredMode t s, modeMs := s.clk.ms } := by
  have hkept : clkMode (applySysMode t warm s).1 =
      clkMode (changeMode (enteredMode t s) 1 none (abortTest (enteredMode t s) s)) := by
    unfold applySysMode enteredMode
    simp
  have habort := clkMode_abortTest s (enteredMode t s)
  have hmode := congrArg Prod.snd (hkept.trans (clkMode_changeMode ..))
  rwa [clk_of_clkMode habort, mode_of_clkMode habort] at hmode

theorem applySysMode_result (warm : Bool) : (applySysMode t warm s).2.2 = (enteredMode t s).code := by
  unfold applySysMode enteredMode
  simp

end

/-- Settles O8: the answer by mode and request, and the mode that is entered. -/
theorem modeRequests : Obligations.ModeRequests := by
  unfold Obligations.ModeRequests
  refine ⟨?_, fun t warm s _ => ?_⟩
  · rintro c s f h hp _ rfl
    rw [exec_sysMode h hp, sysModeAct_eq]
    simp only [apply_ite (cameTo c), apply_ite Host.Outcome.next]
    rfl
  · have hmode := applySysMode_mode t s warm
    exact ⟨(congrArg ModeSt.mode hmode :), (congrArg ModeSt.prev hmode :), applySysMode_result t s warm⟩

end Sys2Proof.Machine.Laws
end

section
/-! SUPPORT. What the findings of a boot leave alone: events, the counts of monitored sources, and the steps by name (R73-R76, R92). -/

namespace Sys2Proof.Machine.Laws
open Sys2Proof Sys2Proof.Machine

/-- What a boot is judged by: the variant, the mode, MB_READY, whether a failure holds it, the source of the reset, the active slot, the
clocks, the memories, what is sealed in the log, and the power cycles counted. -/
structure BootView where
  variant : Variant
  mode : Mode
  ready : Bool
  fatal : Bool
  src : Nat
  active : Nat
  clk : Clock
  mem : Mems
  headSeq : Nat
  records : List Bytes
  pwrCycles : Nat

def bootView (s : State) : BootView :=
  { variant := s.variant, mode := s.mode.mode, ready := s.mode.mbReady, fatal := s.mode.fatal, src := s.mode.resetSrc
    active := s.sec.active, clk := s.clk, mem := s.mem, headSeq := s.log.headSeq, records := s.log.records, pwrCycles := s.log.pwrCycles }

/-- Two logs that differ in the queue and its losses only. -/
def SealedAlike (l m : LogSt) : Prop := m.headSeq = l.headSeq ∧ m.records = l.records ∧ m.pwrCycles = l.pwrCycles

theorem SealedAlike.trans {l m n : LogSt} (h : SealedAlike l m) (k : SealedAlike m n) : SealedAlike l n :=
  ⟨k.1.trans h.1, k.2.1.trans h.2.1, k.2.2.trans h.2.2⟩

/-- Entering an event seals nothing. -/
theorem enqueue_sealedAlike (ms : Nat) (e : Event) (l : LogSt) : SealedAlike l (enqueue ms e l) := by
  unfold enqueue loseEvent
  split
  · split <;> exact ⟨rfl, rfl, rfl⟩
  · split <;> exact ⟨rfl, rfl, rfl⟩

theorem bootView_setLog {s : State} {f : LogSt → LogSt} (h : SealedAlike s.log (f s.log)) : bootView (setLog f s) = bootView s := by
  obtain ⟨hhead, hrecords, hcycles⟩ := h
  simp only [bootView, setLog_log, hhead, hrecords, hcycles]
  rfl

theorem bootView_foldl {α : Type} {f : State → α → State} (hf : ∀ s a, bootView (f s a) = bootView s) (l : List α) (s : State) :
    bootView (l.foldl f s) = bootView s :=
  List.foldlRecOn (motive := fun t => bootView t = bootView s) _ _ rfl fun t ht a _ => (hf t a).trans ht

/-! ### Events -/

section
variable (s : State)

@[simp] theorem bootView_ite (p : Prop) [Decidable p] (t : State) : bootView (if p then s else t) = if p then bootView s else bootView t :=
  apply_ite ..

@[simp] theorem bootView_setSupv (f : SupvSt → SupvSt) : bootView (setSupv f s) = bootView s := rfl
@[simp] theorem bootView_setTime (f : TimeSt → TimeSt) : bootView (setTime f s) = bootView s := rfl
@[simp] theorem bootView_setSvc (f : SvcSt → SvcSt) : bootView (setSvc f s) = bootView s := rfl
@[simp] theorem bootView_setSlice (u : Nat) (f : SliceSt → SliceSt) : bootView (setSlice u f s) = bootView s := rfl
@[simp] theorem bootView_setGroup (g : Nat) (f : CalGroup → CalGroup) : bootView (setGroup g f s) = bootView s := rfl
@[simp] theorem bootView_raiseSafe (bit : Nat) : bootView (raiseSafe bit s) = bootView s := rfl
@[simp] theorem bootView_raiseDeg (bit : Nat) : bootView (raiseDeg bit s) = bootView s := rfl

@[simp] theorem bootView_raiseIrq (k : Nat) : bootView (raiseIrq k s) = bootView s := (congrArg bootView (raiseIrq_onlyMessages k s) :)

@[simp] theorem bootView_postEvent (src code unit : Nat) (data : Bytes) : bootView (postEvent src code unit data s) = bootView s :=
  bootView_setLog (enqueue_sealedAlike ..)

@[simp] theorem bootView_svcRecord (code unit : Nat) (data : Bytes) : bootView (svcRecord code unit data s) = bootView s :=
  bootView_postEvent ..

@[simp] theorem bootView_timeEvent (code unit : Nat) (data : Bytes) : bootView (timeEvent code unit data s) = bootView s := by
  unfold timeEvent postTime
  rw [bootView_raiseIrq]
  split
  · rfl
  · exact bootView_postEvent ..

/-! ### Monitored sources -/

@[simp] theorem bootView_lastingAction (id : Nat) : bootView (lastingAction id s) = bootView s := by
  simp [lastingAction]

@[simp] theorem bootView_endEpisode (f : FaultInst) : bootView (endEpisode f s) = bootView s := by
  simp [endEpisode]

@[simp] theorem bootView_clearLasting (id inst : Nat) : bootView (clearLasting id inst s) = bootView s := by
  simp [clearLasting]

@[simp] theorem bootView_clearDue (id inst : Nat) : bootView (clearDue id inst s) = bootView s := by
  unfold clearDue
  cases (monitor id).clear <;> simp

@[simp] theorem bootView_declare (id inst count : Nat) : bootView (declare id inst count s) = bootView s := by
  simp [declare]

@[simp] theorem bootView_countEvent (id inst : Nat) : bootView (countEvent id inst s) = bootView s := by
  simp [countEvent]

@[simp] theorem bootView_openError (d : Nat × Nat × Nat) : bootView (openError d s) = bootView s := by
  simp [openError]

@[simp] theorem bootView_settle : bootView (settle s) = bootView s :=
  (bootView_foldl (fun t d => bootView_openError t d) ..).trans (bootView_setSupv ..)

/-! ### The steps of the units and of calibration (R75, R166) -/

@[simp] theorem bootView_failCluster (c kind : Nat) : bootView (failCluster c kind s) = bootView s := by
  unfold failCluster
  split <;> rfl

theorem bootView_bootStandby (r : Nat) : bootView (bootStandby s r) = bootView s := by
  unfold bootStandby failStandby
  split
  · rfl
  · split
    · rfl
    · exact bootView_failCluster s _ 1
    · rfl

theorem bootView_bootCluster (c : Nat) : bootView (bootCluster s c) = bootView s := by
  unfold bootCluster
  split
  · rfl
  · split <;> rfl

@[simp] theorem bootView_bootUnits (r : BootReport) : bootView (bootUnits r s) = bootView s := by
  unfold bootUnits
  rw [bootView_foldl bootView_bootCluster, bootView_foldl bootView_bootStandby]

@[simp] theorem bootView_calFailure (unit phase : Nat) (ofs gc : Int) : bootView (calFailure unit phase ofs gc s) = bootView s := by
  simp [calFailure, retireUnit, retireRecord]

theorem bootView_bootUnit (l : List SliceCal) (u : Nat) : bootView (bootUnit l s u) = bootView s := by
  simp [bootUnit]

@[simp] theorem bootView_bootCalibrate (l : List SliceCal) : bootView (bootCalibrate l s) = bootView s := by
  unfold bootCalibrate
  dsimp only
  rw [bootView_settle, bootView_foldl fun t u => bootView_bootUnit t l u]
  rfl

/-! ### The backup domain, the clocks and the records (R92, R97, R440) -/

/-- Lost contents of the backup domain bring back the copy of the count of power cycles; nothing else is touched. -/
@[simp] theorem bootView_bootBackup (r : BootReport) :
    bootView (bootBackup r s) = { bootView s with pwrCycles := if r.contentsLost then s.log.pwrCopy else s.log.pwrCycles } := by
  unfold bootBackup
  dsimp only
  rw [bootView_ite, bootView_raiseSafe, ite_self]
  cases r.contentsLost with
  | true => rfl
  | false => cases r.rtc <;> rfl

@[simp] theorem bootView_bootTime : bootView (bootTime s) = bootView s := by
  simp [bootTime]

@[simp] theorem bootView_tamperBootRecords : bootView (tamperBootRecords s) = bootView s := by
  unfold tamperBootRecords
  dsimp only
  exact bootView_foldl (fun t j => bootView_setLog (enqueue_sealedAlike ..)) ..

/-- Step 0x09 counts a power cycle after a power-on (R440). -/
@[simp] theorem bootView_bootRecords (r : BootReport) (fallback : Bool) : bootView (bootRecords r fallback s) =
    { bootView s with pwrCycles := if s.mode.resetSrc = 0 then satN 32 (s.log.pwrCycles + 1) else s.log.pwrCycles } := by
  unfold bootRecords
  dsimp only
  split <;> simp only [bootView_svcRecord, bootView_setSvc, bootView_bootTime, bootView_tamperBootRecords, bootView_ite, bootView_raiseIrq,
    bootView_postEvent, ite_self, beq_iff_eq] <;> split <;> rfl

end

end Sys2Proof.Machine.Laws
end

section
/-! SUPPORT. The rows of power-on and boot, and the end of BOOT (R73-R76, R92, R97, R426, R440). -/

namespace Sys2Proof.Machine.Laws
open Sys2Proof Sys2Proof.Machine

/-! ### The course of the boot steps -/

/-- Step 0x03 has found the slot that boots, and whether it is the fallback. -/
def bootedFrom (slot : Nat × Bool) (s : State) : State :=
  setMode (fun m => { m with fallback := slot.2 }) (setSec (fun x => { x with active := slot.1 }) s)

/-- Steps 0x02 to 0x06: the backup domain, the slot and the units. -/
def bootFound (r : BootReport) (slot : Nat × Bool) (s : State) : State := bootUnits r (bootedFrom slot (bootBackup r s))

section
variable {r : BootReport} {s : State}

theorem bootSteps_of_selfTest (h : r.selfTest = false) : bootSteps r s = bootFatal 0xE1 s := by
  simp [bootSteps, h]

theorem bootSteps_of_no_slot (h : r.selfTest = true) (hslot : bootSlot (bootBackup r s).variant r (bootBackup r s).sec = none) :
    bootSteps r s = bootFatal 0xE2 (bootBackup r s) := by
  simp [bootSteps, h, hslot]

/-- With a slot to boot from, the steps go on to the memory, the PLL and MRAM. -/
theorem bootSteps_of_slot (h : r.selfTest = true) {slot : Nat × Bool}
    (hslot : bootSlot (bootBackup r s).variant r (bootBackup r s).sec = some slot) : bootSteps r s =
      if r.ddr = false then bootFatal 0xE3 (bootedFrom slot (bootBackup r s))
      else if r.pll = false then bootFatal 0xE5 (bootFound r slot s)
      else if r.mram = false then bootFatal 0xE4 (bootClocks r (bootFound r slot s))
      else setMode (fun m => { m with bootCode := 9 })
        (bootCalibrate r.slices (bootRecords r slot.2 (bootClocks r (bootFound r slot s)))) := by
  unfold bootSteps
  simp only [h, hslot, Bool.not_true, Bool.false_eq_true, if_false, Bool.not_eq_true']
  rfl

/-- A slot whose check fails does not boot (R74). -/
theorem bootSlot_of_bad (v : Variant) {x : SecSt} (hactive : x.active ≤ 1) (h0 : r.slots.getD 0 false = false) (h1 : r.slots.getD 1 false = false) :
    bootSlot v r x = none := by
  have hbad (i : Nat) (hi : i ≤ 1) : slotValid v x i (r.slots.getD i false) = false := by
    rcases (by omega : i = 0 ∨ i = 1) with rfl | rfl
    · simp only [slotValid, h0, Bool.false_and]
    · simp only [slotValid, h1, Bool.false_and]
  unfold bootSlot
  simp only [hbad x.active hactive, hbad (1 - x.active) (Nat.sub_le ..), Bool.false_eq_true, if_false]

end

/-! ### What the steps leave -/

section
variable (r : BootReport) (slot : Nat × Bool) (s : State)

theorem bootBackup_variant : (bootBackup r s).variant = s.variant := (congrArg BootView.variant (bootView_bootBackup s r) :)
theorem bootBackup_active : (bootBackup r s).sec.active = s.sec.active := (congrArg BootView.active (bootView_bootBackup s r) :)

@[simp] theorem bootView_bootFatal (code : Nat) : bootView (bootFatal code s) = { bootView s with fatal := true } := rfl
@[simp] theorem bootView_bootedFrom : bootView (bootedFrom slot s) = { bootView s with active := slot.1 } := rfl
@[simp] theorem bootView_bootClocks : bootView (bootClocks r s) = { bootView s with clk := (bootClocks r s).clk } := rfl
@[simp] theorem bootView_bootCode (code : BitVec 8) : bootView (setMode (fun m => { m with bootCode := code }) s) = bootView s := rfl

theorem bootView_bootFound : bootView (bootFound r slot s) =
    { bootView s with active := slot.1, pwrCycles := if r.contentsLost then s.log.pwrCopy else s.log.pwrCycles } := by
  simp [bootFound]

/-- Whatever they find, the boot steps leave the mode, MB_READY, the memories and all that is sealed. -/
theorem bootView_bootSteps : ∃ fatal active clk cycles, bootView (bootSteps r s) =
    { bootView s with fatal := fatal, active := active, clk := clk, pwrCycles := cycles } := by
  cases htest : r.selfTest with
  | false =>
    rw [bootSteps_of_selfTest htest]
    exact ⟨_, _, _, _, rfl⟩
  | true =>
    cases hslot : bootSlot (bootBackup r s).variant r (bootBackup r s).sec with
    | none =>
      rw [bootSteps_of_no_slot htest hslot, bootView_bootFatal, bootView_bootBackup]
      exact ⟨_, _, _, _, rfl⟩
    | some slot =>
      rw [bootSteps_of_slot htest hslot]
      by_cases hddr : r.ddr = false
      · rw [if_pos hddr, bootView_bootFatal, bootView_bootedFrom, bootView_bootBackup]
        exact ⟨_, _, _, _, rfl⟩
      rw [if_neg hddr]
      by_cases hpll : r.pll = false
      · rw [if_pos hpll, bootView_bootFatal, bootView_bootFound]
        exact ⟨_, _, _, _, rfl⟩
      rw [if_neg hpll]
      by_cases hmram : r.mram = false
      · rw [if_pos hmram, bootView_bootFatal, bootView_bootClocks, bootView_bootFound]
        exact ⟨_, _, _, _, rfl⟩
      · rw [if_neg hmram, bootView_bootCode, bootView_bootCalibrate, bootView_bootRecords, bootView_bootClocks, bootView_bootFound]
        exact ⟨_, _, _, _, rfl⟩

end

/-- SCLK has been started at 4800 Hz with Milestone 0, which opens now (R76, R97). -/
theorem bootClocks_clk (r : BootReport) (s : State) : (bootClocks r s).clk.ms = 0 ∧ (bootClocks r s).clk.sclk = true ∧
    (bootClocks r s).clk.len = 1875000 * 2 ^ 32 ∧ (bootClocks r s).clk.openedAt = (bootClocks r s).clk.mono := ⟨rfl, rfl, rfl, rfl⟩

/-- Steps that find nothing amiss end with BOOT_CODE 9 and the clocks started; a power-on counts a power cycle (R73, R440). -/
theorem bootSteps_of_good {r : BootReport} {s : State} (htest : r.selfTest = true) {slot : Nat × Bool}
    (hslot : bootSlot (bootBackup r s).variant r (bootBackup r s).sec = some slot) (hddr : r.ddr = true) (hpll : r.pll = true)
    (hmram : r.mram = true) : ∃ t, bootSteps r s = t ∧ t.mode.bootCode = 9 ∧ t.mode.fatal = s.mode.fatal ∧
      t.clk = (bootClocks r (bootFound r slot s)).clk ∧
      (s.mode.resetSrc = 0 → r.contentsLost = false → t.log.pwrCycles = satN 32 (s.log.pwrCycles + 1)) := by
  have hsteps : bootSteps r s = setMode (fun m => { m with bootCode := 9 })
      (bootCalibrate r.slices (bootRecords r slot.2 (bootClocks r (bootFound r slot s)))) := by
    rw [bootSteps_of_slot htest hslot, if_neg (ne_false_of_eq_true hddr), if_neg (ne_false_of_eq_true hpll), if_neg (ne_false_of_eq_true hmram)]
  have hfound := bootView_bootFound r slot s
  have hview : bootView (bootSteps r s) =
      { bootView (bootClocks r (bootFound r slot s)) with
        pwrCycles := if (bootFound r slot s).mode.resetSrc = 0 then satN 32 ((bootFound r slot s).log.pwrCycles + 1)
          else (bootFound r slot s).log.pwrCycles } := by
    rw [hsteps, bootView_bootCode, bootView_bootCalibrate, bootView_bootRecords]
    rfl
  refine ⟨_, rfl, ?_, (congrArg BootView.fatal hview).trans (congrArg BootView.fatal hfound), (congrArg BootView.clk hview :),
    fun hsrc hkept => ?_⟩
  · rw [hsteps]
    rfl
  · have hcycles : (bootFound r slot s).log.pwrCycles = s.log.pwrCycles :=
      (congrArg BootView.pwrCycles hfound).trans (if_neg (Bool.eq_false_iff.mp hkept))
    have hzero : (bootFound r slot s).mode.resetSrc = 0 := (congrArg BootView.src hfound).trans hsrc
    rw [← hcycles]
    exact (congrArg BootView.pwrCycles hview).trans (if_pos hzero)

/-! ### Power-on (R426, R436) -/

/-- A reset seals nothing and loses nothing sealed. -/
theorem resetLog_sealedAlike (src ms : Nat) (l : LogSt) : SealedAlike l (resetLog src ms l) := by
  have hflush : SealedAlike l (l.timeRecs.foldl (fun l e => enqueue ms e l) { l with timeRecs := [] }) :=
    List.foldlRecOn (motive := SealedAlike l) _ _ ⟨rfl, rfl, rfl⟩ fun m hm e _ => hm.trans (enqueue_sealedAlike ms e m)
  unfold resetLog
  dsimp only
  split <;> exact hflush.trans ⟨rfl, rfl, rfl⟩

theorem endSession_sealedAlike (cause : Nat) (s : State) : SealedAlike s.log (endSession cause s).log := by
  unfold endSession
  dsimp only
  split
  · exact enqueue_sealedAlike ..
  · exact ⟨rfl, rfl, rfl⟩

theorem resetDevice_sealedAlike (src : Nat) (s : State) : SealedAlike s.log (resetDevice src s).log :=
  (endSession_sealedAlike 3 s).trans (resetLog_sealedAlike ..)

section
variable {r : BootReport} {s : State}

theorem exec_powerOn (hmode : s.mode.mode = .backup) (hvin : s.pwr.vinGood = true) (hlatched : s.pwr.latched = false) :
    exec (.powerOn r) s = .next (bootSteps r (resetDevice 0 s)) := by
  have hrow : exec (.powerOn r) s = execPowerOn r s := rfl
  rw [hrow, execPowerOn, if_pos (by simp [hmode, hvin, hlatched])]

theorem exec_powerOn_of_barred (h : s.mode.mode ≠ .backup ∨ s.pwr.vinGood = false ∨ s.pwr.latched = true) :
    exec (.powerOn r) s = .next s := by
  have hrow : exec (.powerOn r) s = execPowerOn r s := rfl
  rw [hrow, execPowerOn, if_neg]
  rcases h with h | h | h <;> simp [h]

theorem exec_railsGood (h : s.pwr.waitRails = true) : exec (.railsGood r) s =
    .next (bootSteps r { s with pwr := { s.pwr with waitRails := false, railOk := List.replicate 6 true } }) := by
  have hrow : exec (.railsGood r) s = execRailsGood r s := rfl
  rw [hrow, execRailsGood, if_pos h]
  rfl

/-! ### The end of BOOT (R73, R74) -/

theorem exec_bootComplete (hmode : s.mode.mode = .boot) (hfatal : s.mode.fatal = false) (hrails : s.pwr.waitRails = false)
    (hcode : s.mode.bootCode = 9) : exec .bootComplete s = .next (boundary {} { s with mode := { s.mode with bootCode := 0x0A } }) := by
  have hrow : exec .bootComplete s = execBootComplete s := rfl
  have hrun : (s.mode.bootCode == 0) = false := by rw [hcode]; decide
  rw [hrow, execBootComplete, if_neg (by simp [hmode, hfatal, hrails])]
  simp only [hrun, hfatal, Bool.false_eq_true, if_false, setMode]

theorem exec_bootComplete_of_barred (h : s.mode.mode ≠ .boot ∨ s.mode.fatal = true ∨ s.pwr.waitRails = true) :
    exec .bootComplete s = .next s := by
  have hrow : exec .bootComplete s = execBootComplete s := rfl
  rw [hrow, execBootComplete, if_pos]
  rcases h with h | h | h <;> simp [h]

/-- Leaving BOOT enters CONFIGURE with the rings open. -/
theorem clkMode_leaveBoot (hmode : s.mode.mode = .boot) (hfatal : s.mode.fatal = false) (hcode : s.mode.bootCode = 0x0A) :
    clkMode (leaveBoot s) =
      (s.clk, { s.mode with mbReady := true, prev := .boot, mode := .configure, modeMs := s.clk.ms }) := by
  have hsteps : clkMode (pinsLow ((List.range 3).foldl (fun s g => beginStep g (calGroup s g).idx s) s)) = clkMode s :=
    (clkMode_pinsLow _).trans (clkMode_foldl (f := fun s g => beginStep g (calGroup s g).idx s) (fun _ _ => rfl) ..)
  unfold leaveBoot
  rw [if_pos (by simp [hmode, hfatal, hcode]), clkMode_changeMode]
  simp only [setMode_clk, setMode_mode, clk_of_clkMode hsteps, mode_of_clkMode hsteps, hmode]

end

/-- Settles O36: the rows by the boot steps, the steps by what they find, and the end of BOOT. -/
theorem bootRows : Obligations.BootRows := by
  unfold Obligations.BootRows
  refine ⟨fun r s hmode hvin hlatched => ?_, fun r s h => exec_powerOn_of_barred h, fun r s h => exec_railsGood h, fun r s hmode hfatal => ?_,
    fun s hmode hfatal hrails hcode => exec_bootComplete hmode hfatal hrails hcode, fun s h => exec_bootComplete_of_barred h,
    fun s hmode hfatal hcode => ?_⟩
  · obtain ⟨_, _, _, _, hview⟩ := bootView_bootSteps r (resetDevice 0 s)
    obtain ⟨hhead, hrecords, -⟩ := resetDevice_sealedAlike 0 s
    exact ⟨_, exec_powerOn hmode hvin hlatched, rfl, (congrArg BootView.headSeq hview).trans hhead,
      (congrArg BootView.records hview).trans hrecords, (congrArg (·.mem.mbx) hview :)⟩
  · obtain ⟨_, _, _, _, hview⟩ := bootView_bootSteps r s
    refine ⟨_, rfl, (congrArg BootView.mode hview).trans hmode, (congrArg BootView.ready hview :), fun htest => ?_,
      fun htest hactive h0 h1 => ?_, fun htest hslot hddr => ?_, fun htest hslot hddr hpll hmram => ?_⟩
    · rw [bootSteps_of_selfTest htest]
      exact ⟨rfl, rfl⟩
    · rw [bootSteps_of_no_slot htest (bootSlot_of_bad _ (by rwa [bootBackup_active]) h0 h1)]
      exact ⟨rfl, rfl⟩
    · rw [← bootBackup_variant r s] at hslot
      obtain ⟨slot, hslot⟩ := Option.ne_none_iff_exists'.mp hslot
      rw [bootSteps_of_slot htest hslot, if_pos hddr]
      exact ⟨rfl, rfl⟩
    · rw [← bootBackup_variant r s] at hslot
      obtain ⟨slot, hslot⟩ := Option.ne_none_iff_exists'.mp hslot
      obtain ⟨t, rfl, hcode, hnone, hclk, hcycles⟩ := bootSteps_of_good htest hslot hddr hpll hmram
      obtain ⟨hms, hsclk, hlen, hopened⟩ := bootClocks_clk r (bootFound r slot s)
      rw [hclk]
      exact ⟨hcode, hnone.trans hfatal, hms, hsclk, hlen, hopened, hcycles⟩
  · have hleft := clkMode_leaveBoot hmode hfatal hcode
    have hmode' := congrArg Prod.snd hleft
    exact ⟨_, rfl, (congrArg ModeSt.mode hmode' :), (congrArg ModeSt.prev hmode' :), (congrArg ModeSt.mbReady hmode' :),
      (congrArg ModeSt.bootCode hmode').trans hcode, (congrArg Prod.fst hleft :)⟩

end Sys2Proof.Machine.Laws
end

section
/-! SUPPORT. One port of the four: what an update of it changes, what an error of it changes, and how a frame passes it
(R182, R183, R186, R222). -/

namespace Sys2Proof.Machine.Laws
open Sys2Proof Sys2Proof.Machine

/-! ### An update of one port -/

section
variable {s : State} {p k : Nat} (f : NetPort → NetPort)

@[simp] theorem setNetPort_ports_length : (setNetPort p f s).net.ports.length = s.net.ports.length := List.length_modify ..

theorem netPort_setNetPort_same (hp : p < s.net.ports.length) : netPort (setNetPort p f s) p = f (netPort s p) := by
  simp [netPort, setNetPort, modAt, List.getD_eq_getElem?_getD, hp]

theorem netPort_setNetPort_ne (h : k ≠ p) : netPort (setNetPort p f s) k = netPort s k := by
  simp [netPort, setNetPort, modAt, List.getD_eq_getElem?_getD, List.getElem?_modify_ne _ _ h.symm]

/-- An update that leaves the port as it is leaves the state as it is. -/
theorem setNetPort_of_fixed (h : f (netPort s p) = netPort s p) : setNetPort p f s = s := by
  have hports : modAt s.net.ports p f = s.net.ports := by
    refine List.ext_getElem? fun j => ?_
    rw [modAt, List.getElem?_modify]
    split
    · next hj =>
      subst hj
      cases hx : s.net.ports[p]? with
      | none => rfl
      | some x =>
        rw [netPort, getD_of_getElem? hx] at h
        exact congrArg some h
    · exact congrFun Option.map_id _
  unfold setNetPort setNet
  dsimp only
  rw [hports]

end

/-- Some port keeps PORT_LOST raised. -/
theorem ports_any_lost_iff (s : State) : s.net.ports.any (·.lost) = true ↔ ∃ k, k < s.net.ports.length ∧ (netPort s k).lost = true := by
  rw [List.any_eq_true]
  constructor
  · rintro ⟨x, hx, hlost⟩
    obtain ⟨k, hk, rfl⟩ := List.getElem_of_mem hx
    refine ⟨k, hk, ?_⟩
    rwa [netPort, getD_of_getElem? (List.getElem?_eq_getElem hk)]
  · rintro ⟨k, hk, hlost⟩
    refine ⟨s.net.ports[k], List.getElem_mem hk, ?_⟩
    rwa [netPort, getD_of_getElem? (List.getElem?_eq_getElem hk)] at hlost

/-! ### What becomes of a port -/

/-- From `s` to `t` port `p` becomes `x`, and no other port changes. -/
def PortBecomes (p : Nat) (x : NetPort) (s t : State) : Prop := netPort t p = x ∧ ∀ k, k ≠ p → netPort t k = netPort s k

/-- An update of the port of a state whose ports are those of `s`. -/
theorem portBecomes_setNetPort {s u : State} {p : Nat} (f : NetPort → NetPort) (hu : u.net.ports = s.net.ports) (hp : p < s.net.ports.length) :
    PortBecomes p (f (netPort s p)) s (setNetPort p f u) := by
  have hsame : netPort u = netPort s := by
    unfold netPort
    rw [hu]
  rw [← hsame]
  exact ⟨netPort_setNetPort_same f (by rwa [hu]), fun k hk => by rw [netPort_setNetPort_ne f hk, hsame]⟩

theorem PortBecomes.trans {s t u : State} {p : Nat} {x y : NetPort} (h : PortBecomes p x s t) (k : PortBecomes p y t u) : PortBecomes p y s u :=
  ⟨k.1, fun j hj => (k.2 j hj).trans (h.2 j hj)⟩

theorem net_of_unsupervised {s t : State} (h : unsupervised t = unsupervised s) : t.net = s.net := (congrArg State.net h :)
theorem wire_of_unsupervised {s t : State} (h : unsupervised t = unsupervised s) : t.out.wire = s.out.wire := (congrArg (·.out.wire) h :)

/-- The counts of two ports agree: they differ in PORT_LOST and in what it is judged by only. -/
def SameCounts (x y : NetPort) : Prop :=
  y.fcsErr = x.fcsErr ∧ y.other = x.other ∧ y.noMatch = x.noMatch ∧ y.frameLoss = x.frameLoss

/-- A conditional is the one or the other. -/
theorem ite_eq_either {α : Type} (p : Prop) [Decidable p] (a b : α) : (if p then a else b) = b ∨ (if p then a else b) = a := by
  by_cases h : p
  · exact .inr (if_pos h)
  · exact .inl (if_neg h)

/-- A port error is counted and noted at its port, which at the lasting threshold raises PORT_LOST (R85, R222). -/
theorem portError_cases (p : Nat) (s : State) : ∃ f, (∀ x, SameCounts x (f x)) ∧
    (portError p s = setNetPort p f (countEvent 10 p s) ∨
      portError p s = losePortCause p (postEvent Src.net 2 (0x0100 + p) [] (setNetPort p f (countEvent 10 p s)))) := by
  refine ⟨_, ?_, ite_eq_either _ _ _⟩
  exact fun _ => ⟨rfl, rfl, rfl, rfl⟩

/-- What a port error does to the network: its port keeps its counts, the other ports and the entries stay, and nothing is sent (R222). -/
theorem portError_frame {s : State} {p : Nat} (hp : p < s.net.ports.length) : ∃ x, SameCounts (netPort s p) x ∧
    PortBecomes p x s (portError p s) ∧ (portError p s).net.dups = s.net.dups ∧ (portError p s).out.wire = s.out.wire := by
  have hcount := unsupervised_countEvent s 10 p
  have hports := congrArg NetSt.ports (net_of_unsupervised hcount)
  have hdups := congrArg NetSt.dups (net_of_unsupervised hcount)
  have hwire := wire_of_unsupervised hcount
  obtain ⟨f, hf, he | he⟩ := portError_cases p s
  · rw [he]
    exact ⟨_, hf _, portBecomes_setNetPort f hports hp, hdups, hwire⟩
  · have hnoted := portBecomes_setNetPort f hports hp
    have hlost := portBecomes_setNetPort (s := setNetPort p f (countEvent 10 p s)) (fun x => { x with lost := true }) rfl
      (by rwa [setNetPort_ports_length, hports])
    rw [hnoted.1] at hlost
    rw [he]
    exact ⟨{ f (netPort s p) with lost := true }, hf _, hnoted.trans hlost, hdups, hwire⟩

theorem settle_portError_frame {s : State} {p : Nat} (hp : p < s.net.ports.length) : ∃ x, SameCounts (netPort s p) x ∧
    PortBecomes p x s (settle (portError p s)) ∧ (settle (portError p s)).net.dups = s.net.dups ∧
    (settle (portError p s)).out.wire = s.out.wire := by
  have hsettle := unsupervised_settle (portError p s)
  have hnet := net_of_unsupervised hsettle
  unfold PortBecomes netPort
  rw [hnet, wire_of_unsupervised hsettle]
  exact portError_frame hp

end Sys2Proof.Machine.Laws
end

section
/-! SUPPORT. The rows of ports, redundancy and discarded frames (R85, R182-R186). -/

namespace Sys2Proof.Machine.Laws
open Sys2Proof Sys2Proof.Machine

/-! ### Links -/

section
variable {s : State} (port : BitVec 2)

theorem exec_linkDown_of_down (h : (netPort s port.toNat).link = false) : exec (.linkDown port) s = .next s := by
  have hrow : exec (.linkDown port) s = execLinkDown port s := rfl
  rw [hrow, execLinkDown]
  simp only [h, Bool.not_false, if_true]

/-- A port that loses its link raises PORT_LOST (R186). -/
theorem exec_linkDown_of_up (hp : port.toNat < s.net.ports.length) (h : (netPort s port.toNat).link = true) :
    ∃ t, exec (.linkDown port) s = .next t ∧
      PortBecomes port.toNat { netPort s port.toNat with
        link := false, lost := true, soundAt := max (netPort s port.toNat).soundAt s.clk.mono } s t ∧
      t.mode.deg.getLsbD DegCause.portLost = true ∧ t.mode.mode = s.mode.mode := by
  have hrow : exec (.linkDown port) s = execLinkDown port s := rfl
  rw [hrow, execLinkDown]
  simp only [h, Bool.not_true, Bool.false_eq_true, if_false]
  refine ⟨_, rfl, ?_, raiseDeg_deg_getLsbD _ (by decide), rfl⟩
  have hdown := portBecomes_setNetPort (s := s) (fun x => { x with link := false, soundAt := max x.soundAt s.clk.mono }) rfl hp
  have hlost := portBecomes_setNetPort (s := setNetPort port.toNat (fun x => { x with link := false, soundAt := max x.soundAt s.clk.mono }) s)
    (fun x => { x with lost := true }) rfl (by rwa [setNetPort_ports_length])
  rw [hdown.1] at hlost
  exact hdown.trans hlost

theorem exec_linkUp : exec (.linkUp port) s = .next (setNetPort port.toNat (fun x =>
    if x.link then x else { x with link := true, soundAt := max x.soundAt s.clk.mono }) s) := rfl

theorem exec_linkUp_of_up (h : (netPort s port.toNat).link = true) : exec (.linkUp port) s = .next s := by
  rw [exec_linkUp, setNetPort_of_fixed]
  exact if_pos h

/-- The sound time of a port starts with its link (R85). -/
theorem exec_linkUp_of_down (hp : port.toNat < s.net.ports.length) (h : (netPort s port.toNat).link = false) :
    ∃ t, exec (.linkUp port) s = .next t ∧ PortBecomes port.toNat { netPort s port.toNat with
      link := true, soundAt := max (netPort s port.toNat).soundAt s.clk.mono } s t := by
  have hup := portBecomes_setNetPort (s := s) (fun x =>
    if x.link then x else { x with link := true, soundAt := max x.soundAt s.clk.mono }) rfl hp
  simp only [h, Bool.false_eq_true, if_false] at hup
  exact ⟨_, exec_linkUp port, hup⟩

/-! ### PORT_RECOVERED (R85) -/

theorem exec_portRecovered_of_sound (h : (netPort s port.toNat).lost = false ∨ (netPort s port.toNat).link = false) :
    exec (.portRecovered port) s = .next s := by
  have hrow : exec (.portRecovered port) s = execPortRecovered port s := rfl
  rw [hrow, execPortRecovered]
  rcases h with h | h <;> simp [h]

/-- The port is sound again, 10 s after its sound time began. -/
def recovered (p : Nat) (s : State) : State :=
  clearLasting 10 p (setNetPort p (fun x => { x with lost := false }) (setClk (·.advance ((netPort s p).soundAt + secU 10)) s))

/-- The cause is gone unless another port is lost. -/
theorem exec_portRecovered_of_lost (hlost : (netPort s port.toNat).lost = true) (hlink : (netPort s port.toNat).link = true) :
    exec (.portRecovered port) s = .next (if (recovered port.toNat s).net.ports.any (·.lost) = true then recovered port.toNat s
      else clearDeg DegCause.portLost (recovered port.toNat s)) := by
  have hrow : exec (.portRecovered port) s = execPortRecovered port s := rfl
  rw [hrow, execPortRecovered]
  simp only [hlost, hlink, Bool.not_true, Bool.or_self, Bool.false_eq_true, if_false]
  rfl

variable {port} {p : Nat}

theorem unsupervised_recovered : unsupervised (recovered p s) = unsupervised (setNetPort p (fun x => { x with lost := false })
    (setClk (·.advance ((netPort s p).soundAt + secU 10)) s)) := unsupervised_clearLasting ..

theorem recovered_clk : (recovered p s).clk = s.clk.advance ((netPort s p).soundAt + secU 10) :=
  (clk_of_unsupervised unsupervised_recovered :)

theorem recovered_deg : (recovered p s).mode.deg = s.mode.deg := (deg_of_unsupervised unsupervised_recovered :)

theorem portBecomes_recovered (hp : p < s.net.ports.length) : PortBecomes p { netPort s p with lost := false } s (recovered p s) := by
  have hnet := net_of_unsupervised (unsupervised_recovered (s := s) (p := p))
  unfold PortBecomes netPort
  rw [hnet]
  exact portBecomes_setNetPort (s := s) (fun x => { x with lost := false }) rfl hp

theorem recovered_any_lost_iff (hp : p < s.net.ports.length) :
    (recovered p s).net.ports.any (·.lost) = true ↔ ∃ k, k < s.net.ports.length ∧ k ≠ p ∧ (netPort s k).lost = true := by
  have hlen : (recovered p s).net.ports.length = s.net.ports.length := by
    rw [net_of_unsupervised unsupervised_recovered, setNetPort_ports_length]
    rfl
  obtain ⟨hsame, hother⟩ := portBecomes_recovered hp
  rw [ports_any_lost_iff, hlen]
  refine exists_congr fun k => and_congr_right fun _ => ?_
  by_cases hk : k = p
  · subst hk
    simp [hsame]
  · simp [hk, hother k hk]

/-- A DEGRADED cause that is cleared is not set. -/
theorem clearDeg_deg_getLsbD (bit : Nat) (h : bit < 4) : (clearDeg bit s).mode.deg.getLsbD bit = false := by
  simp only [clearDeg, setMode_mode, BitVec.getLsbD_and, BitVec.getLsbD_not, BitVec.getLsbD_ofNat, Nat.testBit_two_pow_self, h, decide_true,
    Bool.and_self, Bool.not_true, Bool.and_false]

end

/-! ### Discarded frames (R182, R183, R185, R186) -/

/-- In an HSR ring a discarded frame goes on, but not one of the device's own. -/
def passOn (p : Nat) (own corrupt : Bool) (s : State) : State := if inRing s p && !own then putFrame (.forward (1 - p) corrupt) s else s

/-- A copy that arrives whole is noted, but not one of the device's own that comes back around its ring. -/
def noteCopy (p src : Nat) (own : Bool) (seq : Option (BitVec 16)) (s : State) : State :=
  if inRing s p && own then s else trackCopy p src seq s

section
variable {s : State} (port : BitVec 2) (src : BitVec 48)

theorem exec_discardedFrameRx_of_disabled (h : portEn s port.toNat = false) (w : Discard) : exec (.discardedFrameRx port src w) s = .next s := by
  have hrow : exec (.discardedFrameRx port src w) s = execDiscardedFrameRx port src w s := rfl
  rw [hrow, execDiscardedFrameRx]
  simp only [h, Bool.not_false, if_true]

/-- What a discarded frame of an enabled port comes to, by its reason. -/
theorem exec_discardedFrameRx (h : portEn s port.toNat = true) (own : Bool) (hown : own = (src.toNat == ownMac s port.toNat)) :
    exec (.discardedFrameRx port src .badFcs) s = .next (settle (portError port.toNat
      (setNetPort port.toNat (fun x => { x with fcsErr := inc x.fcsErr }) (passOn port.toNat own true s)))) ∧
    (∀ seq, exec (.discardedFrameRx port src (.etherType seq)) s = .next (setNetPort port.toNat (fun x => { x with other := inc x.other })
      (noteCopy port.toNat src.toNat own seq (passOn port.toNat own false s)))) ∧
    (∀ seq, exec (.discardedFrameRx port src (.noMatch seq)) s = .next (setNetPort port.toNat (fun x => { x with noMatch := inc x.noMatch })
      (noteCopy port.toNat src.toNat own seq (passOn port.toNat own false s)))) := by
  have hrow (w : Discard) : exec (.discardedFrameRx port src w) s = execDiscardedFrameRx port src w s := rfl
  subst hown
  refine ⟨?_, fun seq => ?_, fun seq => ?_⟩ <;>
  · rw [hrow, execDiscardedFrameRx, if_neg (by simp [h])]
    rfl

variable {p : Nat} (src : Nat) (own corrupt : Bool) (seq : Option (BitVec 16))

@[simp] theorem passOn_net : (passOn p own corrupt s).net = s.net := by
  unfold passOn
  split <;> rfl

theorem passOn_wire (h : pairMode s 0 ≠ 2 ∨ 2 ≤ p) : (passOn p own corrupt s).out.wire = s.out.wire := by
  have hring : inRing s p = false := by
    unfold inRing
    rcases h with h | h
    · simp [h]
    · simp [Nat.not_lt.mpr h]
  unfold passOn
  simp only [hring, Bool.false_and, Bool.false_eq_true, if_false]

/-- Noting a copy changes the duplicate entries only. -/
theorem trackCopy_onlyDups : trackCopy p src seq s = setNet (fun n => { n with dups := (trackCopy p src seq s).net.dups }) s := by
  unfold trackCopy
  split
  · rfl
  · split <;> rfl

@[simp] theorem trackCopy_ports : (trackCopy p src seq s).net.ports = s.net.ports := (congrArg (·.net.ports) (trackCopy_onlyDups src seq) :)
@[simp] theorem trackCopy_nodes : (trackCopy p src seq s).net.nodes = s.net.nodes := (congrArg (·.net.nodes) (trackCopy_onlyDups src seq) :)
@[simp] theorem trackCopy_clk : (trackCopy p src seq s).clk = s.clk := (congrArg State.clk (trackCopy_onlyDups src seq) :)
@[simp] theorem trackCopy_out : (trackCopy p src seq s).out = s.out := (congrArg State.out (trackCopy_onlyDups src seq) :)

@[simp] theorem noteCopy_ports : (noteCopy p src own seq s).net.ports = s.net.ports := by
  unfold noteCopy
  split
  · rfl
  · exact trackCopy_ports src seq

@[simp] theorem noteCopy_out : (noteCopy p src own seq s).out = s.out := by
  unfold noteCopy
  split
  · rfl
  · exact trackCopy_out src seq

end

section
variable {s : State} {port : BitVec 2} (src : BitVec 48) (h : portEn s port.toNat = true) (hp : port.toNat < s.net.ports.length)
include h hp

/-- A frame of another EtherType counts in OTHER. -/
theorem exec_discardedFrameRx_etherType (seq : Option (BitVec 16)) : ∃ t, exec (.discardedFrameRx port src (.etherType seq)) s = .next t ∧
    PortBecomes port.toNat { netPort s port.toNat with other := inc (netPort s port.toNat).other } s t ∧
    (pairMode s 0 ≠ 2 ∨ 2 ≤ port.toNat → t.out.wire = s.out.wire) := by
  obtain ⟨-, hrow, -⟩ := exec_discardedFrameRx port src h _ rfl
  refine ⟨_, hrow seq, portBecomes_setNetPort (fun x => { x with other := inc x.other }) (by simp) hp, fun hring => ?_⟩
  rw [setNetPort, setNet_out, noteCopy_out, passOn_wire _ _ hring]

/-- A frame that no context matches counts in NO_MATCH. -/
theorem exec_discardedFrameRx_noMatch (seq : Option (BitVec 16)) : ∃ t, exec (.discardedFrameRx port src (.noMatch seq)) s = .next t ∧
    PortBecomes port.toNat { netPort s port.toNat with noMatch := inc (netPort s port.toNat).noMatch } s t ∧
    (pairMode s 0 ≠ 2 ∨ 2 ≤ port.toNat → t.out.wire = s.out.wire) := by
  obtain ⟨-, -, hrow⟩ := exec_discardedFrameRx port src h _ rfl
  refine ⟨_, hrow seq, portBecomes_setNetPort (fun x => { x with noMatch := inc x.noMatch }) (by simp) hp, fun hring => ?_⟩
  rw [setNetPort, setNet_out, noteCopy_out, passOn_wire _ _ hring]

/-- A bad FCS counts in FCS_ERR and is an error of its port. -/
theorem exec_discardedFrameRx_badFcs : ∃ t x, exec (.discardedFrameRx port src .badFcs) s = .next t ∧ PortBecomes port.toNat x s t ∧
    SameCounts { netPort s port.toNat with fcsErr := inc (netPort s port.toNat).fcsErr } x ∧
    (pairMode s 0 ≠ 2 ∨ 2 ≤ port.toNat → t.out.wire = s.out.wire) := by
  obtain ⟨hrow, -, -⟩ := exec_discardedFrameRx port src h _ rfl
  have hcounted := portBecomes_setNetPort (s := s) (u := passOn port.toNat (src.toNat == ownMac s port.toNat) true s)
    (fun x => { x with fcsErr := inc x.fcsErr }) (by simp) hp
  obtain ⟨x, hx, hbecomes, -, hwire⟩ := settle_portError_frame (p := port.toNat) (s := setNetPort port.toNat
    (fun x => { x with fcsErr := inc x.fcsErr }) (passOn port.toNat (src.toNat == ownMac s port.toNat) true s))
    (by rwa [setNetPort_ports_length, passOn_net])
  rw [hcounted.1] at hx
  refine ⟨_, x, hrow, hcounted.trans hbecomes, hx, fun hring => hwire.trans ?_⟩
  rw [setNetPort, setNet_out, passOn_wire _ _ hring]

end

/-! ### Duplicate entries (R186) -/

section
variable {s : State} {pair : BitVec 1} {src : BitVec 48} {seq : BitVec 16}

theorem exec_duplicateEntryForget_of_none
    (h : s.net.dups.find? (fun e => e.pair == pair.toNat && e.src == src.toNat && e.seq == seq.toNat) = none) :
    exec (.duplicateEntryForget pair src seq) s = .next s := by
  have hrow : exec (.duplicateEntryForget pair src seq) s = execDuplicateEntryForget pair src seq s := rfl
  rw [hrow, execDuplicateEntryForget, h]

/-- The other port of the pair of a port. -/
def partner (p : Nat) : Nat := 2 * (p / 2) + (1 - p % 2)

theorem partner_lt {p : Nat} (h : p < 4) : partner p < 4 := by
  unfold partner
  omega

theorem ne_partner (p : Nat) : p ≠ partner p := by
  unfold partner
  omega

/-- The state in which the life of entry `e` has ended. -/
def forgotten (e : DupEntry) (s : State) : State :=
  setNet (fun n => { n with dups := n.dups.filter (· != e) }) (setClk (·.advance (e.at_ + msU (entryForget s))) s)

theorem exec_duplicateEntryForget {e : DupEntry}
    (h : s.net.dups.find? (fun e => e.pair == pair.toNat && e.src == src.toNat && e.seq == seq.toNat) = some e) :
    exec (.duplicateEntryForget pair src seq) s = .next (if e.both = true then forgotten e s
      else settle (portError (partner e.port) (setNetPort (partner e.port) (fun x => { x with frameLoss := inc x.frameLoss }) (forgotten e s)))) := by
  have hrow : exec (.duplicateEntryForget pair src seq) s = execDuplicateEntryForget pair src seq s := rfl
  rw [hrow, execDuplicateEntryForget, h]
  rfl

/-- A copy that never came is a frame that the partner port has lost. -/
theorem lostCopy_frame (e : DupEntry) (s : State) (hp : partner e.port < s.net.ports.length) : ∃ t x, settle (portError (partner e.port)
      (setNetPort (partner e.port) (fun x => { x with frameLoss := inc x.frameLoss }) (forgotten e s))) = t ∧
    PortBecomes (partner e.port) x s t ∧
    SameCounts { netPort s (partner e.port) with frameLoss := inc (netPort s (partner e.port)).frameLoss } x ∧
    t.net.dups = s.net.dups.filter (· != e) := by
  have hcounted := portBecomes_setNetPort (s := s) (u := forgotten e s) (fun x => { x with frameLoss := inc x.frameLoss }) rfl hp
  obtain ⟨x, hx, hbecomes, hdups, -⟩ := settle_portError_frame (p := partner e.port) (s := setNetPort (partner e.port)
    (fun x => { x with frameLoss := inc x.frameLoss }) (forgotten e s)) (by rwa [setNetPort_ports_length])
  rw [hcounted.1] at hx
  exact ⟨_, x, rfl, hcounted.trans hbecomes, hx, hdups⟩

end

/-! ### Nodes and supervision frames (R184) -/

section
variable {s : State} {pair : BitVec 1}

theorem exec_nodeForget_of_none {src : BitVec 48} (h : s.net.nodes.find? (fun e => e.pair == pair.toNat && e.src == src.toNat) = none) :
    exec (.nodeForget pair src) s = .next s := by
  have hrow : exec (.nodeForget pair src) s = execNodeForget pair src s := rfl
  rw [hrow, execNodeForget, h]

theorem exec_nodeForget {src : BitVec 48} {e : NodeEntry} (h : s.net.nodes.find? (fun e => e.pair == pair.toNat && e.src == src.toNat) = some e) :
    exec (.nodeForget pair src) s = .next { s with
      clk := s.clk.advance (e.at_ + secU (nodeForgetT s))
      net := { s.net with nodes := s.net.nodes.filter (· != e) } } := by
  have hrow : exec (.nodeForget pair src) s = execNodeForget pair src s := rfl
  rw [hrow, execNodeForget, h]
  rfl

theorem sendFrame_wire (i : Nat) (f : TxFrame) (s : State) : (sendFrame i f s).out.wire = s.out.wire ++ [f] := by
  unfold sendFrame
  split <;> rfl

theorem sendFrame_clk (i : Nat) (f : TxFrame) (s : State) : (sendFrame i f s).clk = s.clk := by
  unfold sendFrame
  split <;> rfl

theorem exec_prpSupervisionTx_of_barred (h : pairMode s pair.toNat ≠ 1 ∨ sendPorts s pair.toNat = []) :
    exec (.prpSupervisionTx pair) s = .next s := by
  have hrow : exec (.prpSupervisionTx pair) s = execPrpSupervisionTx pair s := rfl
  rw [hrow, execPrpSupervisionTx, if_pos]
  rcases h with h | h <;> simp [h]

/-- A supervision frame leaves on the ports of a PRP pair, LIFE_CHECK after the last. -/
theorem exec_prpSupervisionTx (hmode : pairMode s pair.toNat = 1) (hports : sendPorts s pair.toNat ≠ []) :
    ∃ t, exec (.prpSupervisionTx pair) s = .next t ∧ t.out.wire = s.out.wire ++ [.prpSupervision (txHead s pair.toNat 0x88FB superDst)] ∧
      (∀ x, s.net.superTx.getD pair.toNat none = some x → t.clk = s.clk.advance (x + msU (lifeCheck s))) := by
  have hrow : exec (.prpSupervisionTx pair) s = execPrpSupervisionTx pair s := rfl
  rw [hrow, execPrpSupervisionTx, if_neg (by simp [hmode, hports])]
  cases hlast : s.net.superTx.getD pair.toNat none with
  | none => exact ⟨_, rfl, sendFrame_wire .., nofun⟩
  | some x =>
    refine ⟨_, rfl, sendFrame_wire .., fun y hy => ?_⟩
    obtain rfl := Option.some.inj hy
    exact sendFrame_clk ..

theorem exec_prpSupervisionRx_of_none {f : FrameHead} (h : takeIn f s = none) : exec (.prpSupervisionRx f) s = .next s := by
  have hrow : exec (.prpSupervisionRx f) s = execPrpSupervisionRx f s := rfl
  rw [hrow, execPrpSupervisionRx, h]

/-- A frame taken in has moved time on to its stamp, and no node has changed. -/
theorem takeIn_frame {f : FrameHead} {b : State} (h : takeIn f s = some b) :
    b.net.nodes = s.net.nodes ∧ b.clk = s.clk.advance (f.stamp * uPerNs) := by
  unfold takeIn at h
  dsimp only at h
  split at h
  · cases h
  · obtain rfl := Option.some.inj h
    rw [trackCopy_nodes, trackCopy_clk]
    split <;> exact ⟨rfl, rfl⟩

theorem dedup_frame (f : FrameHead) (b : State) : (dedup f b).2.net.nodes = b.net.nodes ∧ (dedup f b).2.clk = b.clk := by
  unfold dedup
  split
  · exact ⟨rfl, rfl⟩
  · dsimp only
    split
    · exact ⟨rfl, rfl⟩
    · split <;> exact ⟨rfl, rfl⟩

/-- The entry of the node that sent it is made or renewed. -/
theorem exec_prpSupervisionRx {f : FrameHead} {b : State} (h : takeIn f s = some b) : ∃ t, exec (.prpSupervisionRx f) s = .next t ∧
    t.net.nodes = s.net.nodes.filter (fun e => !(e.pair == f.port.toNat / 2 && e.src == f.src.toNat)) ++
      [{ pair := f.port.toNat / 2, src := f.src.toNat, at_ := max s.clk.mono (f.stamp * uPerNs) }] := by
  have hrow : exec (.prpSupervisionRx f) s = execPrpSupervisionRx f s := rfl
  obtain ⟨hnodes, hclk⟩ := takeIn_frame h
  obtain ⟨hkept, hnow⟩ := dedup_frame f b
  rw [hrow, execPrpSupervisionRx, h]
  refine ⟨_, rfl, ?_⟩
  simp only [setNet_net, hkept, hnow, hnodes, hclk, Clock.advance]

end

/-- Settles O43: each row by its rule; an update or an error of a port leaves the others. -/
theorem portRows : Obligations.PortRows := by
  unfold Obligations.PortRows
  intro s hlen port
  have hp : port.toNat < s.net.ports.length := by
    rw [hlen]
    exact port.isLt
  refine ⟨exec_linkDown_of_down port, fun hup => ?_, ?_, exec_portRecovered_of_sound port, fun hlost hlink => ?_,
    fun src w h => exec_discardedFrameRx_of_disabled port src h w, ?_, fun pair src seq => ⟨exec_duplicateEntryForget_of_none, fun e he hport => ?_,
      exec_nodeForget_of_none, fun e he => exec_nodeForget he, fun hmode hports => ?_, exec_prpSupervisionTx_of_barred⟩,
    fun f b h => exec_prpSupervisionRx h, fun f h => exec_prpSupervisionRx_of_none h⟩
  · obtain ⟨t, ht, ⟨hsame, hother⟩, hdeg, hmode⟩ := exec_linkDown_of_up port hp hup
    exact ⟨t, ht, by rw [hsame], by rw [hsame], hdeg, hmode, hother⟩
  · cases hlink : (netPort s port.toNat).link with
    | true => exact ⟨s, exec_linkUp_of_up port hlink, hlink, rfl, fun _ => rfl, nofun, fun _ _ => rfl⟩
    | false =>
      obtain ⟨t, ht, hsame, hother⟩ := exec_linkUp_of_down port hp hlink
      exact ⟨t, ht, by rw [hsame], by rw [hsame], nofun, fun _ => by rw [hsame], hother⟩
  · rw [exec_portRecovered_of_lost port hlost hlink]
    obtain ⟨hsame, -⟩ := portBecomes_recovered hp
    have hany := recovered_any_lost_iff hp
    rw [hlen] at hany
    split
    · next hstays =>
      obtain ⟨k, hk, hne, hklost⟩ := hany.mp hstays
      exact ⟨_, rfl, by rw [hsame], recovered_clk, fun hnone => absurd (hnone k hk hne) (ne_false_of_eq_true hklost), fun _ _ _ _ => recovered_deg⟩
    · next hgone =>
      exact ⟨_, rfl, (congrArg NetPort.lost hsame :), (recovered_clk :), fun _ => clearDeg_deg_getLsbD _ (by decide),
        fun k hk hne hklost => absurd (hany.mpr ⟨k, hk, hne, hklost⟩) hgone⟩
  · rintro src seq hen _ rfl
    obtain ⟨t₁, ht₁, hother, -⟩ := exec_discardedFrameRx_etherType src hen hp seq
    obtain ⟨t₂, ht₂, hnomatch, -⟩ := exec_discardedFrameRx_noMatch src hen hp seq
    obtain ⟨t₃, x, ht₃, hfcs, ⟨hxfcs, hxother, hxnomatch, -⟩, -⟩ := exec_discardedFrameRx_badFcs src hen hp
    refine ⟨⟨t₁, ht₁, hother.1⟩, ⟨t₂, ht₂, hnomatch.1⟩, ⟨t₃, ht₃, by rw [hfcs.1, hxfcs], by rw [hfcs.1, hxother], by rw [hfcs.1, hxnomatch]⟩,
      fun w => ?_⟩
    cases w with
    | badFcs =>
      obtain ⟨t, _, ht, hbecomes, -, hwire⟩ := exec_discardedFrameRx_badFcs src hen hp
      exact ⟨t, ht, hbecomes.2, hwire⟩
    | etherType seq =>
      obtain ⟨t, ht, hbecomes, hwire⟩ := exec_discardedFrameRx_etherType src hen hp seq
      exact ⟨t, ht, hbecomes.2, hwire⟩
    | noMatch seq =>
      obtain ⟨t, ht, hbecomes, hwire⟩ := exec_discardedFrameRx_noMatch src hen hp seq
      exact ⟨t, ht, hbecomes.2, hwire⟩
  · rw [exec_duplicateEntryForget he]
    cases hboth : e.both with
    | true => exact ⟨_, rfl, rfl, fun _ => rfl, nofun⟩
    | false =>
      obtain ⟨t, x, ht, ⟨hsame, hother⟩, ⟨-, -, -, hloss⟩, hdups⟩ := lostCopy_frame e s (by rw [hlen]; exact partner_lt hport)
      exact ⟨t, congrArg _ ht, hdups, nofun, fun _ => ⟨(congrArg NetPort.frameLoss hsame).trans hloss, hother _ (ne_partner _)⟩⟩
  · obtain ⟨t, ht, hwire, hclk⟩ := exec_prpSupervisionTx hmode hports
    exact ⟨t, ht, hwire, rfl, hclk⟩

end Sys2Proof.Machine.Laws
end

section
/-! SUPPORT. Events of the grid: what an event changes, and the operations of the grid that enter one (R107, R110-R112, R116, R121). -/

namespace Sys2Proof.Machine.Laws
open Sys2Proof Sys2Proof.Machine

/-! ### What an event changes -/

/-- Nothing but the log, the interrupt status and its messages tells `t` from `s`: what entering an event changes. -/
def OnlyEvents (s t : State) : Prop :=
  t = { s with
    host := { s.host with regs := { s.host.regs with irqStat := t.host.regs.irqStat, pba := t.host.regs.pba } }
    out := { s.out with msix := t.out.msix }
    log := t.log }

section
variable {s t u : State} (h : OnlyEvents s t)
include h
theorem OnlyEvents.variant : t.variant = s.variant := (congrArg State.variant h :)
theorem OnlyEvents.clk : t.clk = s.clk := (congrArg State.clk h :)
theorem OnlyEvents.mode : t.mode = s.mode := (congrArg State.mode h :)
theorem OnlyEvents.acts : t.acts = s.acts := (congrArg State.acts h :)
theorem OnlyEvents.grid : t.grid = s.grid := (congrArg State.grid h :)
theorem OnlyEvents.time : t.time = s.time := (congrArg State.time h :)

theorem OnlyEvents.trans (k : OnlyEvents t u) : OnlyEvents s u := by
  unfold OnlyEvents at *
  rw [k, h]

end

theorem OnlyEvents.refl (s : State) : OnlyEvents s s := rfl

theorem raiseIrq_onlyEvents (k : Nat) (s : State) : OnlyEvents s (raiseIrq k s) := by
  have h := raiseIrq_onlyMessages k s
  unfold OnlyMessages at h
  unfold OnlyEvents
  rw [h]
  rfl

theorem postEvent_onlyEvents (src code unit : Nat) (data : Bytes) (s : State) : OnlyEvents s (postEvent src code unit data s) := rfl

/-! ### Grid events (R121) -/

section
variable (s : State)

theorem gridEvent_onlyEvents (code : Nat) (more : Bytes) : OnlyEvents s (gridEvent code more s) :=
  (postEvent_onlyEvents ..).trans (raiseIrq_onlyEvents ..)

theorem gridEvent_sets_time (code : Nat) (more : Bytes) : (gridEvent code more s).host.regs.irqStat.getLsbD Irq.time = true :=
  raiseIrq_sets_cause _ _ (by decide)

end

/-! ### The sync state -/

section
variable {s : State} {x : SyncState}

theorem setSync_of_same (h : s.grid.sync = x) : setSync x s = s := if_pos h

theorem setSync_of_ne (h : s.grid.sync ≠ x) : setSync x s = gridEvent 1 [] (setGrid (fun g => { g with sync := x }) s) := if_neg h

variable (s x) in
/-- The sync state is set; a change is an event. -/
theorem setSync_onlyEvents : OnlyEvents (setGrid (fun g => { g with sync := x }) s) (setSync x s) := by
  by_cases h : s.grid.sync = x
  · subst h
    rw [setSync_of_same rfl]
    exact .refl s
  · rw [setSync_of_ne h]
    exact gridEvent_onlyEvents ..

theorem setSync_sets_time (h : s.grid.sync ≠ x) : (setSync x s).host.regs.irqStat.getLsbD Irq.time = true := by
  rw [setSync_of_ne h]
  exact gridEvent_sets_time ..

end

/-! ### The reference of the PLLs (R116) -/

section
variable {s : State} {cw : Bool}

theorem setPll_of_ne (h : s.grid.pllCw ≠ cw) : setPll cw s = gridEvent 7 [] (setGrid (fun g => { g with pllCw := cw }) s) := if_neg h

variable (s cw) in
theorem setPll_onlyEvents : OnlyEvents (setGrid (fun g => { g with pllCw := cw }) s) (setPll cw s) := by
  by_cases h : s.grid.pllCw = cw
  · subst h
    rw [setPll, if_pos rfl]
    exact .refl s
  · rw [setPll_of_ne h]
    exact gridEvent_onlyEvents ..

theorem setPll_sets_time (h : s.grid.pllCw ≠ cw) : (setPll cw s).host.regs.irqStat.getLsbD Irq.time = true := by
  rw [setPll_of_ne h]
  exact gridEvent_sets_time ..

theorem loseCwClk_of_none (h : s.grid.relock = none) :
    loseCwClk s = setPll false (setGrid (fun g => { g with cwClkGood := false, relock := none }) s) := by
  simp only [loseCwClk, h]

/-- The GRID.MODE that waits for its relock is refused (R116). -/
theorem loseCwClk_of_waiting {g : GridCfg} {x : CmdRef} (h : s.grid.relock = some (g, x)) : loseCwClk s =
    finishOpen x (Reply.refuse Rsn.state) (setPll false (setGrid (fun g => { g with cwClkGood := false, relock := none }) s)) := by
  simp only [loseCwClk, h]

end

/-! ### The reference in use (R107) -/

section
variable {s : State} {k : Option Nat} (h : s.grid.refSel ≠ k)
include h

theorem setRef_of_ne :
    setRef k s = gridEvent 5 [] (setGrid (fun g => { g with refSel := k, refSwitches := satN 16 (g.refSwitches + 1) }) s) := if_neg h

theorem setRef_onlyEvents :
    OnlyEvents (setGrid (fun g => { g with refSel := k, refSwitches := satN 16 (g.refSwitches + 1) }) s) (setRef k s) := by
  rw [setRef_of_ne h]
  exact gridEvent_onlyEvents ..

theorem setRef_sets_time : (setRef k s).host.regs.irqStat.getLsbD Irq.time = true := by
  rw [setRef_of_ne h]
  exact gridEvent_sets_time ..

end

/-! ### A measurement judged (R111, R112) -/

/-- The grid after a refused measurement. -/
def refusedGrid (e : Int) (g : GridSt) : GridSt :=
  { g with err := some e, lockCount := 0, refused := true, refusals := satN 16 (g.refusals + 1), sync := .acquiring }

/-- The measurements in a row within 100 ns, this one among them where it counts. -/
def goodInRow (e : Int) (counts : Bool) (g : GridSt) : Nat :=
  if e.natAbs ≤ 100 * uPerNs then (if counts then g.lockCount + 1 else g.lockCount) else 0

/-- The grid after an accepted measurement, `n` in a row. -/
def acceptedGrid (e trim : Int) (need n : Nat) (g : GridSt) : GridSt :=
  { g with
    err := some e, refused := false, lockCount := n, corr := e, corrLeft := 0, corrFrame := 0, trim := trim
    sync := if need ≤ n then .locked else .acquiring }

section
variable {s : State} {e : Int} {need : Nat} {counts : Bool}

variable (e s) in
theorem refuseEdge_onlyEvents : OnlyEvents (setGrid (refusedGrid e) s) (refuseEdge e s) := by
  unfold refuseEdge
  extract_lets _ a b
  have hsync : OnlyEvents (setGrid (refusedGrid e) s) b := setSync_onlyEvents a .acquiring
  split
  · exact hsync.trans (gridEvent_onlyEvents ..)
  · exact hsync

/-- A refusal after a refused measurement, the sync state still acquiring, enters no event (R112). -/
theorem refuseEdge_again (hr : s.grid.refused = true) (hs : s.grid.sync = .acquiring) : (refuseEdge e s).log = s.log := by
  unfold refuseEdge
  dsimp only
  rw [hr, Bool.not_true, if_neg Bool.false_ne_true, setSync_of_same (by exact hs)]
  rfl

variable (e s need counts) in
theorem acceptEdge_onlyEvents (trim : Int) :
    OnlyEvents (setGrid (acceptedGrid e trim need (goodInRow e counts s.grid)) s) (acceptEdge e trim need counts s) := by
  unfold acceptEdge goodInRow
  simp only [decide_eq_true_eq]
  exact setSync_onlyEvents ..

theorem judgeEdge_of_large (h : s.clk.len < 4 * e.natAbs) : judgeEdge e need counts s = refuseEdge e s :=
  if_neg fun hsmall => absurd hsmall.1 (Nat.not_le.mpr h)

theorem judgeEdge_of_small (h : 4 * e.natAbs ≤ s.clk.len) (htrim : (trimNeeded s.grid e).natAbs ≤ 100000) :
    judgeEdge e need counts s = acceptEdge e (trimNeeded s.grid e) need counts s :=
  if_pos ⟨h, htrim⟩

variable (e s need counts) in
/-- A measurement is the last measured error, accepted or refused; the edges and the clocks stay. -/
theorem judgeEdge_frame : ∃ f, OnlyEvents (setGrid f s) (judgeEdge e need counts s) ∧
    ∀ g, (f g).err = some e ∧ (f g).lastEdge = g.lastEdge ∧ (f g).lastPulse = g.lastPulse := by
  unfold judgeEdge
  dsimp only
  split
  · exact ⟨_, acceptEdge_onlyEvents .., fun _ => ⟨rfl, rfl, rfl⟩⟩
  · exact ⟨_, refuseEdge_onlyEvents .., fun _ => ⟨rfl, rfl, rfl⟩⟩

end

end Sys2Proof.Machine.Laws
end

section
/-! SUPPORT. The rows of the grid's losses, its references and the relock (R107, R108, R113, R116, R118). -/

namespace Sys2Proof.Machine.Laws
open Sys2Proof Sys2Proof.Machine

/-! ### Losses of synchronisation (R113, R118) -/

section
variable {s : State}

theorem exec_gridSyncLost_of_unwatched (h : s.grid.sync = .none ∨ s.grid.sync = .lost ∨ s.grid.cfg.syncSrc = 0) :
    exec .gridSyncLost s = .next s := by
  have hrow : exec .gridSyncLost s = execGridSyncLost s := rfl
  rw [hrow, execGridSyncLost, if_pos]
  rcases h with h | h | h <;> simp [h]

theorem exec_gridSyncLost_of_watched (h : s.grid.sync = .acquiring ∨ s.grid.sync = .locked)
    (hsrc : s.grid.cfg.syncSrc = 1 ∨ s.grid.cfg.syncSrc = 2) : exec .gridSyncLost s = .next (setSync .lost
      (setGrid (fun g => { g with lockCount := 0 }) (setClk (·.advance (s.grid.lastEdge + msU 2500)) s))) := by
  have hrow : exec .gridSyncLost s = execGridSyncLost s := rfl
  have hedge : (s.grid.cfg.syncSrc == 1 || s.grid.cfg.syncSrc == 2) = true := by simpa only [Bool.or_eq_true, beq_iff_eq] using hsrc
  rw [hrow, execGridSyncLost, if_neg]
  rw [hedge]
  rcases h with h | h <;> rw [h] <;> decide

theorem exec_cwSyncLoss_of_barred (h : s.grid.cfg.gmode ≠ 2 ∨ s.grid.sync = .lost) : exec .cwSyncLoss s = .next s := by
  have hrow : exec .cwSyncLoss s = execCwSyncLoss s := rfl
  rw [hrow, execCwSyncLoss, if_pos]
  rcases h with h | h <;> simp [h]

theorem exec_cwSyncLoss_of_follower (hmode : s.grid.cfg.gmode = 2) (hsync : s.grid.sync ≠ .lost) :
    exec .cwSyncLoss s = .next (setSync .lost (setGrid (fun g => { g with lockCount := 0, lastPulse := none, returning := true })
      (setClk (·.advance (s.grid.lastEdge + 4 * s.clk.len)) s))) := by
  have hrow : exec .cwSyncLoss s = execCwSyncLoss s := rfl
  rw [hrow, execCwSyncLoss, if_neg]
  simp [hmode, hsync]

/-! ### CW_CLK (R116) -/

variable (s) in
theorem exec_cwClkLoss : exec .cwClkLoss s = .next (loseCwClk s) := rfl

theorem exec_gridFollowRelock_of_none (h : s.grid.relock = none) : exec .gridFollowRelock s = .next s := by
  have hrow : exec .gridFollowRelock s = execGridFollowRelock s := rfl
  rw [hrow, execGridFollowRelock, h]

/-- The GRID.MODE that waits for its relock waits for the boundary, the PLLs on CW_CLK. -/
theorem exec_gridFollowRelock_of_waiting {g : GridCfg} {x : CmdRef} (h : s.grid.relock = some (g, x)) :
    ∃ t, exec .gridFollowRelock s = .next t ∧ t.grid = { s.grid with relock := none, cwClkGood := true, pllCw := true } ∧
      t.acts = s.acts ++ [{ cmd := x, detail := gridWarnings s.variant g, act := .gridMode g }] := by
  have hrow : exec .gridFollowRelock s = execGridFollowRelock s := rfl
  have hpll := setPll_onlyEvents (setGrid (fun x => { x with cwClkGood := true, relock := none }) s) true
  rw [hrow, execGridFollowRelock, h]
  refine ⟨_, rfl, hpll.grid, ?_⟩
  dsimp only
  rw [hpll.acts, hpll.variant]
  rfl

/-! ### References (R107, R108) -/

section
variable {k : BitVec 2} {j t : Nat} (hsel : s.grid.refSel = some j) (hsince : s.grid.refValidSince.getD k.toNat none = some t)
include hsel hsince

theorem exec_refPrioritySwitch_of_lower (h : tracking s.grid = false ∨ j ≤ k.toNat) : exec (.refPrioritySwitch k) s = .next s := by
  have hrow : exec (.refPrioritySwitch k) s = execRefPrioritySwitch k s := rfl
  simp only [hrow, execRefPrioritySwitch, hsel, hsince]
  rw [if_neg]
  rcases h with h | h <;> simp [h]

theorem exec_refPrioritySwitch_of_higher (htrack : tracking s.grid = true) (hk : k.toNat < j) :
    exec (.refPrioritySwitch k) s = .next (setRef (some k.toNat) (setClk (·.advance (t + secU 2)) s)) := by
  have hrow : exec (.refPrioritySwitch k) s = execRefPrioritySwitch k s := rfl
  simp only [hrow, execRefPrioritySwitch, hsel, hsince]
  rw [if_pos (by simp [htrack, hk])]

end

theorem exec_gridHoldoverTimeout_of_idle (h : s.grid.hold = false ∨ s.grid.cfg.holdMode = false ∨ s.grid.toNominal = true) :
    exec .gridHoldoverTimeout s = .next s := by
  have hrow : exec .gridHoldoverTimeout s = execGridHoldoverTimeout s := rfl
  rw [hrow, execGridHoldoverTimeout, if_neg]
  rcases h with h | h | h <;> simp [h]

/-- After HOLD_T the return to NOMINAL begins. -/
theorem exec_gridHoldoverTimeout_of_due (hhold : s.grid.hold = true) (hmode : s.grid.cfg.holdMode = true) (hnom : s.grid.toNominal = false) :
    exec .gridHoldoverTimeout s = .next (gridEvent 4 [] (setGrid (fun g => { g with toNominal := true })
      (setClk (·.advance (s.grid.holdSince + secU s.grid.cfg.holdT)) s))) := by
  have hrow : exec .gridHoldoverTimeout s = execGridHoldoverTimeout s := rfl
  have hdue : s.grid.holdSince + secU s.grid.cfg.holdT ≤ (s.clk.advance (s.grid.holdSince + secU s.grid.cfg.holdT)).mono :=
    Nat.le_max_right ..
  rw [hrow, execGridHoldoverTimeout, if_pos (by simp [hhold, hmode, hnom]), startNominal, if_pos]
  simp [hhold, hmode, hnom, hdue]

end

/-- Settles O37: each row by its condition; the event it enters leaves the clocks and the rest of the grid. -/
theorem gridEventRows : Obligations.GridEventRows := by
  unfold Obligations.GridEventRows
  refine fun s => ⟨fun hsync hsrc => ?_, exec_gridSyncLost_of_unwatched, fun hmode hsync => ?_, exec_cwSyncLoss_of_barred, fun hnone => ?_,
    exec_gridFollowRelock_of_none, fun g x hwait => ⟨exec_gridFollowRelock_of_waiting hwait, ?_⟩,
    fun k j t hsel hsince => ⟨fun htrack hk => ?_, exec_refPrioritySwitch_of_lower hsel hsince⟩, fun hhold hmode hnom => ?_,
    exec_gridHoldoverTimeout_of_idle⟩
  · have hne : s.grid.sync ≠ .lost := by rcases hsync with h | h <;> simp [h]
    have hset := setSync_onlyEvents (setGrid (fun g => { g with lockCount := 0 }) (setClk (·.advance (s.grid.lastEdge + msU 2500)) s)) .lost
    exact ⟨_, exec_gridSyncLost_of_watched hsync hsrc, hset.grid, hset.clk, setSync_sets_time hne⟩
  · have hset := setSync_onlyEvents (setGrid (fun g => { g with lockCount := 0, lastPulse := none, returning := true })
      (setClk (·.advance (s.grid.lastEdge + 4 * s.clk.len)) s)) .lost
    exact ⟨_, exec_cwSyncLoss_of_follower hmode hsync, hset.grid, hset.clk, setSync_sets_time hsync⟩
  · have hpll := setPll_onlyEvents (setGrid (fun g => { g with cwClkGood := false, relock := none }) s) false
    refine ⟨_, (exec_cwClkLoss s).trans (congrArg _ (loseCwClk_of_none hnone)), hpll.grid.trans ?_, hpll.clk, hpll.mode,
      fun hcw => setPll_sets_time (ne_false_of_eq_true hcw)⟩
    simp only [setGrid_grid, hnone]
  · exact ⟨_, (exec_cwClkLoss s).trans (congrArg _ (loseCwClk_of_waiting hwait)), (setPll_onlyEvents ..).grid⟩
  · have hne : (setClk (·.advance (t + secU 2)) s).grid.refSel ≠ some k.toNat := by
      rw [setClk_grid, hsel]
      exact fun h => absurd (Option.some.inj h) (Nat.ne_of_gt hk)
    exact ⟨_, exec_refPrioritySwitch_of_higher hsel hsince htrack hk, (setRef_onlyEvents hne).grid, (setRef_onlyEvents hne).clk,
      setRef_sets_time hne⟩
  · exact ⟨_, exec_gridHoldoverTimeout_of_due hhold hmode hnom, (gridEvent_onlyEvents ..).grid, (gridEvent_onlyEvents ..).clk⟩

end Sys2Proof.Machine.Laws
end

section
/-! SUPPORT. The sync error, and the rows that measure it: an edge of the source selected, and a CW_SYNC pulse (R110, R117, R122). -/

namespace Sys2Proof.Machine.Laws
open Sys2Proof Sys2Proof.Machine

/-! ### The sync error (R110) -/

/-- It lies in one Milestone around 0, and differs from the boundary less the edge by whole Milestones. -/
theorem wrapErr_spec (b e : Int) {len : Nat} (h : 0 < len) : -(len : Int) ≤ 2 * wrapErr b e len ∧ 2 * wrapErr b e len < len ∧
    ∃ k : Int, b - e - wrapErr b e len = k * len := by
  have hnonneg := Int.emod_nonneg (b - e) (b := len) (by omega)
  have hlt := Int.emod_lt_of_pos (b - e) (b := len) (by omega)
  have hdiv := Int.emod_add_mul_ediv (b - e) len
  unfold wrapErr
  dsimp only
  split
  · refine ⟨by omega, by omega, (b - e) / len + 1, ?_⟩
    rw [Int.add_mul, Int.mul_comm _ (len : Int)]
    omega
  · refine ⟨by omega, by omega, (b - e) / len, ?_⟩
    rw [Int.mul_comm _ (len : Int)]
    omega

theorem goodInRow_of_far {e : Int} (h : 100 * uPerNs < e.natAbs) (counts : Bool) (g : GridSt) : goodInRow e counts g = 0 :=
  if_neg (Nat.not_le.mpr h)

theorem goodInRow_of_near {e : Int} (h : e.natAbs ≤ 100 * uPerNs) (g : GridSt) : goodInRow e true g = g.lockCount + 1 :=
  if_pos h

/-! ### GRID_SYNC_EDGE -/

section
variable {s : State} {t : Nat}

theorem exec_gridSyncEdge_of_barred
    (h : s.grid.stepNow = true ∨ (s.grid.cfg.syncSrc ≠ 1 ∧ (s.grid.cfg.syncSrc = 2 → s.time.ptpSecond = false))) :
    exec (.gridSyncEdge t) s = .next (setClk (·.advance (t * uPerNs)) s) := by
  have hrow : exec (.gridSyncEdge t) s = execGridSyncEdge t s := rfl
  rw [hrow, execGridSyncEdge]
  dsimp only
  rw [if_pos]
  rcases h with hstep | ⟨hpps, hptp⟩
  · simp [hstep]
  · by_cases hsrc : s.grid.cfg.syncSrc = 2
    · simp [hsrc, hptp hsrc]
    · simp [hpps, hsrc]

/-- An edge of PPS_IN is measured at its own time. -/
theorem exec_gridSyncEdge_of_pps (hstep : s.grid.stepNow = false) (hsrc : s.grid.cfg.syncSrc = 1) : exec (.gridSyncEdge t) s = .next
    (judgeEdge (wrapErr s.clk.openedAt (((t * uPerNs : Nat) : Int) + s.grid.cfg.syncOfs * uPerNs) s.clk.len) 3 true
      (setGrid (fun g => { g with lastEdge := (s.clk.advance (t * uPerNs)).mono }) (setClk (·.advance (t * uPerNs)) s))) := by
  have hrow : exec (.gridSyncEdge t) s = execGridSyncEdge t s := rfl
  rw [hrow, execGridSyncEdge]
  dsimp only
  rw [if_neg (by simp [hstep, hsrc]), if_pos (by simp [hsrc])]
  rfl

/-- The PTP edge is measured at the last TAI second. -/
theorem exec_gridSyncEdge_of_ptp (hstep : s.grid.stepNow = false) (hsrc : s.grid.cfg.syncSrc = 2) (hptp : s.time.ptpSecond = true) :
    exec (.gridSyncEdge t) s = .next
      (judgeEdge (wrapErr s.clk.openedAt (lastSecond (s.clk.advance (t * uPerNs)) + s.grid.cfg.syncOfs * uPerNs) s.clk.len) 3 true
        (setGrid (fun g => { g with lastEdge := (s.clk.advance (t * uPerNs)).mono }) (setClk (·.advance (t * uPerNs)) s))) := by
  have hrow : exec (.gridSyncEdge t) s = execGridSyncEdge t s := rfl
  rw [hrow, execGridSyncEdge]
  dsimp only
  rw [if_neg (by simp [hstep, hsrc, hptp]), if_neg (by simp [hsrc])]
  rfl

end

/-! ### CW_SYNC_PULSE (R117) -/

/-- Leaving the tracking of references keeps the clocks, the mode and the configuration. -/
theorem endTracking_frame (s : State) :
    (endTracking s).clk = s.clk ∧ (endTracking s).mode = s.mode ∧ (endTracking s).grid.cfg = s.grid.cfg := by
  unfold endTracking
  extract_lets a b
  have ha : a.clk = s.clk ∧ a.mode = s.mode ∧ a.grid.cfg = s.grid.cfg := by
    unfold a
    split
    · have h := gridEvent_onlyEvents (setGrid (fun g => { g with hold := false, toNominal := false }) s) 3 []
      exact ⟨h.clk, h.mode, (congrArg GridSt.cfg h.grid :)⟩
    · exact ⟨rfl, rfl, rfl⟩
  obtain ⟨hclk, hmode, hcfg⟩ := ha
  split
  · exact ⟨hclk, hmode, hcfg⟩
  · have h := gridEvent_onlyEvents (setGrid (fun g => { g with refSel := none, refSwitches := satN 16 (g.refSwitches + 1) }) b) 5 []
    exact ⟨h.clk.trans hclk, h.mode.trans hmode, (congrArg GridSt.cfg h.grid :).trans hcfg⟩

/-- A pulse has come: tracking of references ends where CW_SYNC was lost. -/
def heardPulse (t : Nat) (s : State) : State :=
  let b := setClk (·.advance (t * uPerNs)) s
  if b.grid.sync == .lost then endTracking b else b

/-- The rate follows the period since the pulse before. -/
def followPulse (s : State) : State :=
  setGrid (fun g =>
    let g := { g with lastEdge := s.clk.mono, lastPulse := some s.clk.mono }
    match s.grid.lastPulse.map (fun p => s.clk.mono - p) with
    | none => g
    | some p => followPeriod s.mode.mode.runs p g) s

/-- The pulse is nearer to the boundary that opened the Milestone in progress than to the next one. -/
def pulseEarly (c : Clock) : Bool := decide (2 * (c.mono - c.openedAt) < c.len)

/-- The Milestone number at the boundary that a pulse marks. -/
def markedMs (c : Clock) : Nat := if pulseEarly c then c.ms else c.ms + 1

/-- What a pulse does beyond its measurement: the follower's count is checked when it locks, and in CONFIGURE set to the leader's. -/
def matchCount (long wasLocked : Bool) (s : State) : State :=
  if s.grid.sync == .locked && !wasLocked then
    if s.mode.mode == .configure then setGrid (fun g => { g with alignReq := true, frameMismatch := false }) s
    else if long && markedMs s.clk % 96 != 0 then setGrid (fun g => { g with frameMismatch := true }) s
    else s
  else if s.grid.alignReq && long && s.mode.mode == .configure then
    if pulseEarly s.clk then setGrid (fun g => { g with alignReq := false }) (setClk (fun k => { k with ms := alignUp k.ms }) s)
    else setGrid (fun g => { g with alignReq := false, alignNow := true }) s
  else s

section
variable {s : State} {t : Nat} {long : Bool}

theorem exec_cwSyncPulse_of_barred (h : s.grid.cfg.gmode ≠ 2 ∨ s.grid.stepNow = true) :
    exec (.cwSyncPulse t long) s = .next (setClk (·.advance (t * uPerNs)) s) := by
  have hrow : exec (.cwSyncPulse t long) s = execCwSyncPulse t long s := rfl
  rw [hrow, execCwSyncPulse]
  dsimp only
  rw [if_pos]
  rcases h with h | h <;> simp [h]

variable (s t) in
/-- But for the count's advance a pulse that has come leaves the clocks, the mode and the configuration. -/
theorem heardPulse_frame : (heardPulse t s).clk = s.clk.advance (t * uPerNs) ∧ (heardPulse t s).mode = s.mode ∧
    (heardPulse t s).grid.cfg = s.grid.cfg := by
  unfold heardPulse
  extract_lets b
  split
  · exact endTracking_frame b
  · exact ⟨rfl, rfl, rfl⟩

variable (s) in
/-- The pulse is the last edge and the last pulse; the rate that follows it is of the grid alone. -/
theorem followPulse_frame : (followPulse s).clk = s.clk ∧ (followPulse s).mode = s.mode ∧ (followPulse s).grid.lastEdge = s.clk.mono ∧
    (followPulse s).grid.lastPulse = some s.clk.mono := by
  unfold followPulse
  rw [setGrid_grid]
  refine ⟨rfl, rfl, ?_⟩
  cases s.grid.lastPulse with
  | none => exact ⟨rfl, rfl⟩
  | some p =>
    dsimp only [Option.map_some, followPeriod, moveF]
    split <;> exact ⟨rfl, rfl⟩

/-- A follower judges the pulse at its time less the cable's delay. -/
theorem exec_cwSyncPulse_of_follower (hmode : s.grid.cfg.gmode = 2) (hstep : s.grid.stepNow = false) :
    exec (.cwSyncPulse t long) s = .next (matchCount long ((followPulse (heardPulse t s)).grid.sync == .locked)
      (judgeEdge (wrapErr s.clk.openedAt (((t : Int) - s.grid.cfg.cwDlySync) * uPerNs) s.clk.len) 3 long (followPulse (heardPulse t s)))) := by
  have hrow : exec (.cwSyncPulse t long) s = execCwSyncPulse t long s := rfl
  obtain ⟨hclk, -, hcfg⟩ := heardPulse_frame s t
  have hopen : (heardPulse t s).clk.openedAt = s.clk.openedAt := by rw [hclk]; rfl
  have hlen : (heardPulse t s).clk.len = s.clk.len := by rw [hclk]; rfl
  rw [hrow, execCwSyncPulse]
  extract_lets a
  rw [if_neg (by simp [a, hmode, hstep]), ← hopen, ← hlen, ← hcfg]
  rfl

/-- Matching the count moves nothing but the number of the Milestone in progress, and that in CONFIGURE, by less than 96. -/
theorem matchCount_frame (wasLocked : Bool) : ∃ m, (matchCount long wasLocked s).clk = { s.clk with ms := m } ∧ s.clk.ms ≤ m ∧
    m ≤ s.clk.ms + 95 ∧ (s.mode.mode ≠ .configure → m = s.clk.ms) ∧ (matchCount long wasLocked s).grid.lastEdge = s.grid.lastEdge ∧
    (matchCount long wasLocked s).grid.lastPulse = s.grid.lastPulse ∧ (matchCount long wasLocked s).grid.err = s.grid.err := by
  unfold matchCount
  split
  · refine ⟨s.clk.ms, ?_⟩
    split
    · simp
    · split <;> simp
  · split
    · next h =>
      split
      · obtain ⟨-, hle, hge⟩ := alignUp_spec s.clk.ms
        exact ⟨_, rfl, hle, hge, fun hmode => absurd h (by simp [hmode]), rfl, rfl, rfl⟩
      · exact ⟨s.clk.ms, by simp⟩
    · exact ⟨s.clk.ms, by simp⟩

variable (s) in
/-- The same of the measurement and the matching that comes after it. -/
theorem matchCount_judgeEdge_frame (e : Int) (wasLocked : Bool) : ∃ u m, u = matchCount long wasLocked (judgeEdge e 3 long s) ∧
    u.clk = { s.clk with ms := m } ∧ s.clk.ms ≤ m ∧ m ≤ s.clk.ms + 95 ∧ (s.mode.mode ≠ .configure → m = s.clk.ms) ∧
    u.grid.lastEdge = s.grid.lastEdge ∧ u.grid.lastPulse = s.grid.lastPulse ∧ u.grid.err = some e := by
  obtain ⟨f, hjudged, hf⟩ := judgeEdge_frame s e 3 long
  obtain ⟨herr, hedge, hpulse⟩ := hf s.grid
  obtain ⟨m, hm⟩ := matchCount_frame (s := judgeEdge e 3 long s) (long := long) wasLocked
  rw [hjudged.clk, hjudged.mode, hjudged.grid, setGrid_clk, setGrid_mode, setGrid_grid, herr, hedge, hpulse] at hm
  exact ⟨_, m, rfl, hm⟩

/-- A follower's pulse is measured; in CONFIGURE it may set the Milestone number, by less than 96. -/
theorem exec_cwSyncPulse_measures (hmode : s.grid.cfg.gmode = 2) (hstep : s.grid.stepNow = false) : ∃ u m,
    exec (.cwSyncPulse t long) s = .next u ∧ u.clk = { s.clk.advance (t * uPerNs) with ms := m } ∧ s.clk.ms ≤ m ∧ m ≤ s.clk.ms + 95 ∧
    (s.mode.mode ≠ .configure → m = s.clk.ms) ∧ u.grid.lastEdge = (s.clk.advance (t * uPerNs)).mono ∧
    u.grid.lastPulse = some (s.clk.advance (t * uPerNs)).mono ∧
    u.grid.err = some (wrapErr s.clk.openedAt (((t : Int) - s.grid.cfg.cwDlySync) * uPerNs) s.clk.len) := by
  obtain ⟨hheard, hmodes, -⟩ := heardPulse_frame s t
  obtain ⟨hfollow, hfollowed, hedge, hpulse⟩ := followPulse_frame (heardPulse t s)
  obtain ⟨u, m, hu, hm⟩ := matchCount_judgeEdge_frame (followPulse (heardPulse t s)) (long := long)
    (wrapErr s.clk.openedAt (((t : Int) - s.grid.cfg.cwDlySync) * uPerNs) s.clk.len) ((followPulse (heardPulse t s)).grid.sync == .locked)
  rw [hfollow, hfollowed, hedge, hpulse, hheard, hmodes] at hm
  rw [exec_cwSyncPulse_of_follower hmode hstep, ← hu]
  exact ⟨u, m, rfl, hm⟩

end

/-- Settles O38: the error's range, what its size does, and the rows that measure it. -/
theorem syncEdgeRows : Obligations.SyncEdgeRows := by
  unfold Obligations.SyncEdgeRows
  refine ⟨fun b e len => wrapErr_spec b e, fun e need counts s => ⟨fun hlarge => ?_, fun hsmall htrim => ?_⟩, ?_⟩
  · have hevents := refuseEdge_onlyEvents s e
    rw [judgeEdge_of_large hlarge]
    refine ⟨_, rfl, ?_⟩
    rw [hevents.grid, hevents.clk]
    exact ⟨rfl, rfl, rfl, rfl, rfl, rfl, rfl, rfl, refuseEdge_again⟩
  · have hevents := acceptEdge_onlyEvents s e need counts (trimNeeded s.grid e)
    rw [judgeEdge_of_small hsmall htrim]
    refine ⟨_, rfl, ?_⟩
    rw [hevents.grid, hevents.clk]
    refine ⟨rfl, rfl, rfl, rfl, rfl, rfl, fun hfar hneed => ?_, fun hnear hcounts hneed => ?_⟩
    · rw [goodInRow_of_far hfar]
      exact ⟨if_neg (Nat.not_le.mpr hneed), rfl⟩
    · rw [hcounts, goodInRow_of_near hnear, hneed]
      exact if_pos (Nat.le_refl _)
  · rintro t s _ rfl
    refine ⟨exec_gridSyncEdge_of_barred, exec_gridSyncEdge_of_pps, exec_gridSyncEdge_of_ptp, fun long => exec_cwSyncPulse_of_barred,
      fun long hmode hstep => ?_⟩
    obtain ⟨u, m, hrow, hclk, hle, hge, hms, hedge, hpulse, herr⟩ := exec_cwSyncPulse_measures (t := t) (long := long) hmode hstep
    refine ⟨u, hrow, hedge, hpulse, ?_⟩
    rw [hclk]
    exact ⟨rfl, rfl, herr, hle, hge, fun hrun => by rw [hms hrun]; rfl⟩

end Sys2Proof.Machine.Laws
end

section
/-! SUPPORT. GRID.MODE, GRID.SYNC and TIME.STEP, and what a step of TAI moves (R100, R114, R116, R144, R145). -/

namespace Sys2Proof.Machine.Laws
open Sys2Proof Sys2Proof.Machine Sys2Proof.Safety

/-! ### GRID.SYNC (R114) -/

section
variable {frames : Int → Nat → Nat} {act : Int → BAct} {now : Int → State → State} {s : State}

theorem gridSync_of_unmeasured (h : presentErr s.grid = none ∨ s.grid.cfg.syncSrc = 0) :
    gridSync frames act now s = .done (Reply.refuse Rsn.state) s := by
  unfold gridSync
  cases he : presentErr s.grid with
  | none => rfl
  | some e => exact if_pos (by simpa [he] using h)

section
variable {e : Int} (he : presentErr s.grid = some e) (hsrc : s.grid.cfg.syncSrc ≠ 0)
include he hsrc

/-- An error of at most 2 % of a Milestone needs no correction. -/
theorem gridSync_of_small (h : e.natAbs ≤ (frameMove s.clk.len).natAbs) :
    gridSync frames act now s = .done { result := codeOf (inNs e) 32 } s := by
  unfold gridSync
  simp only [he]
  rw [if_neg (by simpa using hsrc), if_pos h]

/-- A larger one waits for the boundary. -/
theorem gridSync_of_large (h : (frameMove s.clk.len).natAbs < e.natAbs) : gridSync frames act now s =
    .atBoundary 0 (codeOf (inNs e) 32 + place (frames e s.clk.len) 32 16) (act e) (now e s) := by
  unfold gridSync
  simp only [he]
  rw [if_neg (by simpa using hsrc), if_neg (Nat.not_le.mpr h)]

end

variable {c : Cmd}

theorem gridSyncAct_slew (h : c.at_ 0x14 0 2 = 1) (s : State) : gridSyncAct c s = gridSync framesNeeded .gridSlew (fun _ s => s) s :=
  if_neg (by simp [h])

theorem gridSyncAct_step (h : c.at_ 0x14 0 2 = 2) (s : State) : gridSyncAct c s = gridSync (fun _ _ => 0) (fun _ => .gridStep) stepNow s :=
  if_pos (by simp [h])

/-- Whatever both OPs come to, the command comes to. -/
theorem gridSyncAct_eq_of_both {a : Action} (h : ∀ frames act now, gridSync frames act now s = a) (c : Cmd) : gridSyncAct c s = a := by
  unfold gridSyncAct
  split <;> exact h ..

end

/-! ### The commands -/

section
variable {c : Cmd} {s : State} {f : InFlight} (h : Starts c s f)
include h

/-- GRID.MODE by whether it leads into FOLLOW (R100, R116). -/
theorem exec_gridMode_runs (hp : Passes (gridJudge c s) c s f) : exec (.gridMode c) s = .next (
    if (gridCfgOf c).gmode = 2 ∧ (gridLatest (begun c s)).gmode ≠ 2 then
      setGrid (fun x => { x with relock := some (gridCfgOf c, refOf c) }) (queuedEntry c (begun c s))
    else waits c (gridWarnings (begun c s).variant (gridCfgOf c)) 0 (.gridMode (gridCfgOf c)) (begun c s)) := by
  have hrow : exec (.gridMode c) s = execGridMode c s := rfl
  rw [hrow, execGridMode, command_cameTo h hp]
  simp only [apply_ite (cameTo c), Bool.and_eq_true, beq_iff_eq, bne_iff_ne]
  rfl

/-- Both rows of GRID.SYNC are the one command. -/
theorem exec_gridSync_runs (hp : Passes (syncJudge c s) c s f) {a : Action} (ha : gridSyncAct c (begun c s) = a) :
    exec (.gridSyncSlew c) s = .next (cameTo c a) ∧ exec (.gridSyncStep c) s = .next (cameTo c a) := by
  have hslew : exec (.gridSyncSlew c) s = execGridSyncSlew c s := rfl
  have hstep : exec (.gridSyncStep c) s = execGridSyncStep c s := rfl
  rw [hslew, hstep, execGridSyncSlew, execGridSyncStep, command_cameTo h hp, ha]
  exact ⟨rfl, rfl⟩

section
variable (hp : Passes (stepJudge c s) c s f)
include hp

/-- TIME.STEP by the pending offset (R144). -/
theorem exec_timeStep_pending (hop : c.at_ 0x14 0 2 = 1) : exec (.timeStep c) s = .next (
    if (begun c s).time.pending = none then answer c (Reply.refuse Rsn.state) (begun c s) else waits c 0 0 (.timeStep 1 0) (begun c s)) := by
  have hrow : exec (.timeStep c) s = execTimeStep c s := rfl
  rw [hrow, execTimeStep, command_cameTo h hp]
  dsimp only
  rw [if_pos (by simp [hop])]
  cases (begun c s).time.pending with
  | none => rfl
  | some _ => rfl

theorem exec_timeStep_absolute (hop : c.at_ 0x14 0 2 = 2) : exec (.timeStep c) s =
    .next (waits c 0 0 (.timeStep 2 ((c.at_ 0x18 0 48 * 1000000000 + c.at_ 0x20 0 30 : Nat) : Int)) (begun c s)) := by
  have hrow : exec (.timeStep c) s = execTimeStep c s := rfl
  rw [hrow, execTimeStep, command_cameTo h hp]
  dsimp only
  rw [if_neg (by simp [hop]), if_pos (by simp [hop])]
  rfl

theorem exec_timeStep_relative (hop : c.at_ 0x14 0 2 = 3) :
    exec (.timeStep c) s = .next (waits c 0 0 (.timeStep 3 (c.sargs 0x18 0 64)) (begun c s)) := by
  have hrow : exec (.timeStep c) s = execTimeStep c s := rfl
  rw [hrow, execTimeStep, command_cameTo h hp]
  dsimp only
  rw [if_neg (by simp [hop]), if_neg (by simp [hop])]
  rfl

end

end

/-! ### A step takes effect (R144, R145) -/

/-- What a time event changes, in a queue or among the records of its Milestone (R149). -/
theorem timeEvent_onlyEvents (code unit : Nat) (data : Bytes) (s : State) : OnlyEvents s (timeEvent code unit data s) := by
  unfold timeEvent postTime
  refine OnlyEvents.trans ?_ (raiseIrq_onlyEvents ..)
  split
  · rfl
  · exact postEvent_onlyEvents ..

/-- What a step is said of: the clocks, STEP_CNT and the pending offset. -/
def stepView (s : State) : Clock × BitVec 8 × Option Int := (s.clk, s.time.stepCnt, s.time.pending)

theorem stepView_timeEvent (code unit : Nat) (data : Bytes) (s : State) : stepView (timeEvent code unit data s) = stepView s := by
  unfold stepView
  rw [(timeEvent_onlyEvents ..).clk, (timeEvent_onlyEvents ..).time]

theorem stepView_setTState (x : TState) (s : State) : stepView (setTState x s) = stepView s := by
  unfold setTState
  split
  · rfl
  · exact stepView_timeEvent ..

/-- The step in ns that a TIME.STEP makes, none where a pending offset is no longer there (R144, R146). -/
def stepOf (op : Nat) (x : Int) (s : State) : Option Int :=
  if op = 1 then (if s.time.pendCut then none else s.time.pending.map (fun p => -p)) else if op = 2 then some (x - s.clk.taiNs) else some x

/-- The clocks after a step: TAI set to an absolute time, or moved. -/
def steppedClk (op : Nat) (x d : Int) (k : Clock) : Clock := if op = 2 then k.setTai x.toNat else k.step d

section
variable {op : Nat} {x : Int} {s : State}

theorem applyTimeStep_of_none (h : stepOf op x s = none) : applyTimeStep op x s = (none, s) := by
  simp only [stepOf] at h
  simp only [applyTimeStep, beq_iff_eq, h]

/-- A step moves TAI, counts, and leaves no offset pending. -/
theorem applyTimeStep_of_some {d : Int} (h : stepOf op x s = some d) : ∃ t, applyTimeStep op x s = (some d, t) ∧
    stepView t = (steppedClk op x d s.clk, s.time.stepCnt + 1, none) := by
  simp only [stepOf] at h
  simp only [applyTimeStep, beq_iff_eq, h]
  refine ⟨_, rfl, ?_⟩
  rw [stepView_setTState, stepView_timeEvent]
  unfold steppedClk
  split <;> rfl

theorem steppedClk_keeps (op : Nat) (x d : Int) (k : Clock) : (steppedClk op x d k).mono = k.mono ∧ (steppedClk op x d k).ms = k.ms ∧
    (steppedClk op x d k).openedAt = k.openedAt ∧ (steppedClk op x d k).len = k.len := by
  unfold steppedClk
  split <;> exact ⟨rfl, rfl, rfl, rfl⟩

/-- TAI set reads what it was set to. -/
theorem setTai_taiNs (k : Clock) (n : Nat) : (k.setTai n).taiNs = n := by
  have hu : (k.setTai n).taiU = n * uPerNs := by
    unfold Clock.taiU Clock.setTai
    dsimp only
    omega
  rw [Clock.taiNs, hu, Nat.mul_div_cancel n (by decide)]

theorem stepOf_pending : stepOf 1 x s = if s.time.pendCut then none else s.time.pending.map (fun p => -p) := if_pos rfl

theorem stepOf_pending_gone (h : s.time.pending = none ∨ s.time.pendCut = true) : stepOf 1 x s = none := by
  rw [stepOf_pending]
  rcases h with h | h <;> simp [h]

/-- What a TIME.STEP that takes effect comes to, by its OP. -/
theorem applyTimeStep_effect {t : State} {e : Int} (h : applyTimeStep op x s = (some e, t)) :
    stepOf op x s = some e ∧ t.clk = steppedClk op x e s.clk ∧ t.time.stepCnt = s.time.stepCnt + 1 ∧ t.time.pending = none := by
  cases hstep : stepOf op x s with
  | none =>
    rw [applyTimeStep_of_none hstep] at h
    cases h
  | some d =>
    obtain ⟨u, hu, hview⟩ := applyTimeStep_of_some hstep
    rw [hu] at h
    cases h
    simpa only [stepView, Prod.mk.injEq, true_and] using hview

end

/-- Settles O19: each command by its operands and what it finds, and the effect of a step by its OP. -/
theorem gridAndTimeCommands : Obligations.GridAndTimeCommands := by
  unfold Obligations.GridAndTimeCommands
  refine ⟨?_, fun op x s t d happly => ⟨?_, ?_⟩⟩
  · rintro c s _ f h rfl
    refine ⟨exec_gridMode_runs h, fun hp => ⟨fun hnone => ?_, fun e he hsrc => ⟨fun hsmall => ?_, fun hlarge hop => ?_, fun hlarge hop => ?_⟩⟩,
      fun hp => ⟨exec_timeStep_pending h hp, exec_timeStep_absolute h hp, exec_timeStep_relative h hp⟩⟩
    · exact exec_gridSync_runs h hp (gridSyncAct_eq_of_both (fun _ _ _ => gridSync_of_unmeasured hnone) c)
    · exact exec_gridSync_runs h hp (gridSyncAct_eq_of_both (fun _ _ _ => gridSync_of_small he hsrc hsmall) c)
    · exact (exec_gridSync_runs h hp ((gridSyncAct_slew hop _).trans (gridSync_of_large he hsrc hlarge))).1
    · exact (exec_gridSync_runs h hp ((gridSyncAct_step hop _).trans (gridSync_of_large he hsrc hlarge))).2
  · rintro ⟨rfl, hgone⟩
    rw [applyTimeStep_of_none (stepOf_pending_gone hgone)] at happly
    cases happly
    exact ⟨rfl, rfl⟩
  · rintro e rfl
    obtain ⟨hstep, hclk, hcnt, hpend⟩ := applyTimeStep_effect happly
    obtain ⟨hmono, hms, hopen, hlen⟩ := steppedClk_keeps op x e s.clk
    rw [hclk]
    refine ⟨hmono, hms, hopen, hlen, hcnt, hpend, fun hop => ?_, ?_, ?_, ?_⟩
    · rw [steppedClk, if_neg hop]
      rfl
    · rintro rfl p hp
      rw [stepOf_pending, hp] at hstep
      cases hcut : s.time.pendCut with
      | true => simp [hcut] at hstep
      | false => simpa [hcut, eq_comm] using hstep
    · rintro rfl
      exact (Option.some.inj hstep).symm
    · rintro rfl -
      exact ⟨setTai_taiNs .., (Option.some.inj hstep).symm⟩

end Sys2Proof.Machine.Laws
end

section
/-! SUPPORT. What the choice of the time source leaves alone, and the source it ends with (R126, R131, R132, R143). -/

namespace Sys2Proof.Machine.Laws
open Sys2Proof Sys2Proof.Machine

/-! ### What the choice of a source leaves alone -/

/-- What every change of source or port in use does: the pending offset and the measurements of the old one are discarded (R131). -/
def measuresAnew (t : TimeSt) : TimeSt :=
  { t with pending := none, pendCut := t.pendCut || t.pending.isSome, offsets := [], srcSwitches := satN 16 (t.srcSwitches + 1) }

section
variable (s : State)

@[simp] theorem timeEvent_time (code unit : Nat) (data : Bytes) : (timeEvent code unit data s).time = s.time := (timeEvent_onlyEvents ..).time

@[simp] theorem timeEvent_clk (code unit : Nat) (data : Bytes) : (timeEvent code unit data s).clk = s.clk := (timeEvent_onlyEvents ..).clk

@[simp] theorem raiseIrq_time (k : Nat) : (raiseIrq k s).time = s.time := (raiseIrq_onlyEvents k s).time

/-- The clocks, the ports, the configuration, and what the edges of PPS_IN have brought: what no choice of a source changes. -/
def timeKept (s : State) : Clock × List PtpPort × TimeCfg × Bool × Option Nat × Nat × Bool × Int :=
  (s.clk, s.time.ports, s.time.cfg, s.time.configured, s.time.ppsInAt, s.time.ppsInDiscards, s.time.pps.live, s.time.pps.offset)

theorem clk_of_timeKept {s t : State} (h : timeKept t = timeKept s) : t.clk = s.clk := congrArg Prod.fst h

theorem ports_of_timeKept {s t : State} (h : timeKept t = timeKept s) : t.time.ports = s.time.ports := congrArg (·.2.1) h

theorem cfg_of_timeKept {s t : State} (h : timeKept t = timeKept s) : t.time.cfg = s.time.cfg := congrArg (·.2.2.1) h

@[simp] theorem timeKept_raiseIrq (k : Nat) : timeKept (raiseIrq k s) = timeKept s := by
  unfold timeKept
  rw [raiseIrq_time, (raiseIrq_onlyEvents k s).clk]

@[simp] theorem timeKept_timeEvent (code unit : Nat) (data : Bytes) : timeKept (timeEvent code unit data s) = timeKept s := by
  unfold timeKept
  rw [timeEvent_time, timeEvent_clk]

@[simp] theorem timeKept_setTState (x : TState) : timeKept (setTState x s) = timeKept s := by
  unfold setTState
  split
  · rfl
  · exact timeKept_timeEvent ..

@[simp] theorem timeKept_setUtc : timeKept (setUtc s) = timeKept s := by
  unfold setUtc
  dsimp only
  split
  · rfl
  · exact timeKept_timeEvent ..

variable {s} in
/-- A change of a source leaves the edges of PPS_IN where it is of another source, or leaves what a source measured. -/
theorem timeKept_setSrc {k : Nat} {f : SrcSt → SrcSt} (h : k = 1 ∨ k = 2 ∨ ∀ x, (f x).live = x.live ∧ (f x).offset = x.offset) :
    timeKept (setTime (setSrc k f) s) = timeKept s := by
  unfold timeKept
  rcases h with rfl | rfl | h
  · rfl
  · rfl
  · rw [setTime_time, setSrc]
    split
    · rfl
    · split
      · rfl
      · simp only [h, setTime_clk]

@[simp] theorem timeKept_unlock (k : Nat) : timeKept (setTime (unlock k) s) = timeKept s := timeKept_setSrc (.inr (.inr fun _ => ⟨rfl, rfl⟩))

@[simp] theorem timeKept_refuseOffset (x : Int) : timeKept (refuseOffset x s) = timeKept s := by
  unfold refuseOffset
  split
  · exact timeKept_unlock s s.time.used
  · exact (timeKept_setTState ..).trans ((timeKept_timeEvent ..).trans (timeKept_unlock s s.time.used))

@[simp] theorem timeKept_judgeChange (old x : Int) (locked : Bool) : timeKept (judgeChange old x locked s) = timeKept s := by
  unfold judgeChange
  split
  · exact timeKept_refuseOffset ..
  · exact timeKept_setTState ..

@[simp] theorem changeUse_time (unit : Nat) (f : TimeSt → TimeSt) : (changeUse unit f s).time = f (measuresAnew s.time) := timeEvent_time ..

theorem timeKept_changeUse (unit : Nat) {f : TimeSt → TimeSt} (hf : ∀ u, timeKept (setTime f u) = timeKept u) :
    timeKept (changeUse unit f s) = timeKept s :=
  (timeKept_timeEvent ..).trans (hf (setTime measuresAnew s))

@[simp] theorem timeKept_takeSource (k : Nat) : timeKept (takeSource k s) = timeKept s := by
  unfold takeSource
  dsimp only
  rw [timeKept_setUtc, timeKept_judgeChange]
  exact timeKept_changeUse s 0 fun _ => rfl

variable {s} in
/-- The loss of PTP or of IRIG-B leaves the edges of PPS_IN. -/
theorem timeKept_loseSource {k : Nat} (h : k = 1 ∨ k = 2) : timeKept (loseSource k s) = timeKept s := by
  have hset : timeKept (setTime (setSrc k (fun x => { x with live := false, locked := false, good := 0, bad := 0 })) s) = timeKept s :=
    timeKept_setSrc (h.imp_right .inl)
  unfold loseSource
  extract_lets t
  split
  · exact hset
  · split
    · exact (timeKept_takeSource ..).trans hset
    · exact (timeKept_raiseIrq ..).trans ((timeKept_setTState ..).trans hset)

@[simp] theorem timeKept_dropIrig : timeKept (dropIrig s) = timeKept s := by
  unfold dropIrig
  split
  · exact timeKept_loseSource (.inr rfl)
  · rfl

@[simp] theorem timeKept_useSource (k : Nat) : timeKept (useSource k s) = timeKept s :=
  (timeKept_dropIrig _).trans (timeKept_takeSource s k)

@[simp] theorem timeKept_decideUtc : timeKept (decideUtc s) = timeKept s :=
  (timeKept_dropIrig _).trans (timeKept_setUtc s)

/-- The choice keeps the source in use or takes another. -/
theorem selectSource_cases : selectSource s = s ∨ ∃ k, selectSource s = useSource k s := by
  unfold selectSource
  extract_lets t cur take higher
  have htake (o : Option Nat) : take o = s ∨ ∃ k, take o = useSource k s := by
    cases o with
    | none => exact .inl rfl
    | some k =>
      unfold take
      dsimp only
      split
      · exact .inl rfl
      · exact .inr ⟨k, rfl⟩
  clear_value higher
  split
  · exact htake _
  · cases higher with
    | some k => exact .inr ⟨k, rfl⟩
    | none =>
      dsimp only
      split
      · exact .inl rfl
      · cases lowestLocked t with
        | none => exact .inl rfl
        | some k =>
          dsimp only
          split
          · split
            · exact .inr ⟨k, rfl⟩
            · exact .inl rfl
          · exact .inl rfl

@[simp] theorem timeKept_selectSource : timeKept (selectSource s) = timeKept s := by
  rcases selectSource_cases s with h | ⟨k, h⟩
  · rw [h]
  · rw [h, timeKept_useSource]

/-- A measured offset steers the clock's addend and nothing else of these. -/
theorem timeKept_measureOffset (k : Nat) (x : Int) (inacc : Nat) :
    (timeKept (measureOffset k x inacc s)).2 = (timeKept (setTime (setSrc k (measured1 k x inacc s.clk.mono)) s)).2 := by
  have hsel := congrArg Prod.snd (timeKept_selectSource (setTime (setSrc k (measured1 k x inacc s.clk.mono)) s))
  unfold measureOffset
  generalize selectSource (setTime (setSrc k (measured1 k x inacc s.clk.mono)) s) = u at *
  rw [← hsel]
  extract_lets b c d e f
  split
  · rfl
  · split
    · rw [timeKept_refuseOffset]
      rfl
    · rw [timeKept_setTState]
      rfl

end

/-! ### The source in use (R131) -/

section
variable (s : State)

@[simp] theorem setTState_used (x : TState) : (setTState x s).time.used = s.time.used := by
  unfold setTState
  split
  · rfl
  · rw [timeEvent_time]
    rfl

/-- The offset's validity is what is decided. -/
theorem setUtc_utcValid : (setUtc s).time.utcValid = (utcDecision s.time).2 := by
  unfold setUtc
  dsimp only
  split
  · next h => rw [h]
  · rw [timeEvent_time]
    rfl

@[simp] theorem setUtc_used : (setUtc s).time.used = s.time.used := by
  unfold setUtc
  dsimp only
  split
  · rfl
  · rw [timeEvent_time]
    rfl

theorem setSrc_used (k : Nat) (f : SrcSt → SrcSt) (t : TimeSt) : (setSrc k f t).used = t.used := by
  unfold setSrc
  split
  · rfl
  · split <;> rfl

@[simp] theorem refuseOffset_used (x : Int) : (refuseOffset x s).time.used = s.time.used := by
  unfold refuseOffset
  split
  · exact setSrc_used ..
  · rw [setTState_used, timeEvent_time]
    exact setSrc_used ..

@[simp] theorem judgeChange_used (old x : Int) (locked : Bool) : (judgeChange old x locked s).time.used = s.time.used := by
  unfold judgeChange
  split
  · exact refuseOffset_used ..
  · exact setTState_used ..

@[simp] theorem takeSource_used (k : Nat) : (takeSource k s).time.used = k := by
  unfold takeSource
  dsimp only
  rw [setUtc_used, judgeChange_used, changeUse_time]

end

section
variable {s : State} {k : Nat}

/-- Away from PTP the UTC offset configured is the valid one. -/
theorem utcDecision_of_configured {t : TimeSt} (hu : t.used ≠ 1) (hc : t.cfg.utcOfsValid = true) : (utcDecision t).2 = true := by
  simp [utcDecision, gmInUse, hu, hc]

/-- IRIG-B taken with a UTC offset that is configured has a valid one. -/
theorem takeSource_irig_utcValid (hc : s.time.cfg.utcOfsValid = true) : (takeSource 2 s).time.utcValid = true := by
  unfold takeSource
  extract_lets old t x
  have hkept : timeKept (judgeChange old x.offset x.locked t) = timeKept s := by
    rw [timeKept_judgeChange]
    exact timeKept_changeUse s 0 fun _ => rfl
  rw [setUtc_utcValid]
  refine utcDecision_of_configured ?_ ?_
  · rw [judgeChange_used, changeUse_time]
    exact (by decide : 2 ≠ 1)
  · rw [cfg_of_timeKept hkept, hc]

/-- A source taken into use stays in use, IRIG-B where a UTC offset is configured. -/
theorem useSource_used (h : k = 2 → s.time.cfg.utcOfsValid = true) : (useSource k s).time.used = k := by
  unfold useSource dropIrig
  rw [if_neg, takeSource_used]
  rw [takeSource_used]
  by_cases hk : k = 2
  · subst hk
    simp [takeSource_irig_utcValid (h rfl)]
  · simp [hk]

/-- A configured source has its place among the three. -/
theorem mem_src_of_srcRank {t : TimeSt} {a : Nat} (h : srcRank t k = some a) (hk : k ≠ 0) : k ∈ t.cfg.src := by
  have ha := List.find?_some h
  rw [beq_iff_eq, List.getD_eq_getElem?_getD] at ha
  cases hget : t.cfg.src[a]? with
  | none =>
    rw [hget] at ha
    exact absurd ha.symm hk
  | some x =>
    rw [hget] at ha
    exact ha ▸ List.mem_of_getElem? hget

theorem mem_srcList_of_srcRank {t : TimeSt} {a : Nat} (h : srcRank t k = some a) (hk : k ≠ 0) (hirig : k = 2 → t.utcValid = true) :
    k ∈ srcList t := by
  refine List.mem_filter.mpr ⟨mem_src_of_srcRank h hk, ?_⟩
  by_cases h2 : k = 2
  · simp [h2, hirig h2]
  · simp [hk, h2]

/-- Source `k` ranks above the one in use and has been locked for 10 s. -/
def lockedAbove (s : State) (k : Nat) : Bool :=
  match srcRank s.time k, srcRank s.time s.time.used with
  | some a, some b => decide (a < b) && (srcSt s.time k).locked && decide ((srcSt s.time k).lockedSince + secU 10 ≤ s.clk.mono)
  | _, _ => false

/-- Where one configured source alone is locked above the live one in use, the choice falls on it. -/
theorem selectSource_of_lockedAbove (hused : s.time.used ∈ srcList s.time) (hne : s.time.used ≠ 0)
    (hlive : (srcSt s.time s.time.used).live = true) (hk : k ∈ srcList s.time) (habove : lockedAbove s k = true)
    (halone : ∀ j, lockedAbove s j = true → j = k) : selectSource s = useSource k s := by
  have hfind : (srcList s.time).find? (lockedAbove s) = some k := by
    cases hf : (srcList s.time).find? (lockedAbove s) with
    | none => exact absurd habove (List.find?_eq_none.mp hf k hk)
    | some j => rw [halone j (List.find?_some hf)]
  unfold selectSource
  dsimp only
  rw [if_neg (by simp [hused, hne, hlive])]
  change (match (srcList s.time).find? (lockedAbove s) with | some k => useSource k s | none => _) = _
  rw [hfind]

end

end Sys2Proof.Machine.Laws
end

section
/-! SUPPORT. PTP: what a port takes, BMCA, what leaves, the timeouts and the change of source (R126, R131-R139). -/

namespace Sys2Proof.Machine.Laws
open Sys2Proof Sys2Proof.Machine

/-! ### What is taken of a port (R133, R139) -/

section
variable {s : State} {port : Nat}

theorem takePtp_of_taken {domain : Nat} {f : State → State} (hon : ptpOn s port = true) (hd : domain = s.time.cfg.domain) :
    takePtp port domain f s = f s :=
  if_pos (by simp [hon, hd])

theorem takePtp_of_left {domain : Nat} {f : State → State} (h : ptpOn s port = false ∨ domain ≠ s.time.cfg.domain) :
    takePtp port domain f s = ringPtp port s :=
  if_neg (by rcases h with h | h <;> simp [h])

variable (s port) in
/-- A frame goes on round an HSR ring, and changes nothing else. -/
theorem ringPtp_cases : ringPtp port s = s ∨ port < 2 ∧ fld s.net.portSet 0 0 2 = 2 ∧
    ringPtp port s = { s with out := { s.out with wire := s.out.wire ++ [.forward (1 - port) false] } } := by
  unfold ringPtp
  split
  · next h =>
    simp only [Bool.and_eq_true, decide_eq_true_eq, beq_iff_eq] at h
    exact .inr ⟨h.1.1, h.1.2, rfl⟩
  · exact .inl rfl

/-- An update of a port of the pair is read there. -/
theorem ptpPort_setPtpPort (h : s.time.ports.length = 2) (f : PtpPort → PtpPort) :
    ptpPort (setPtpPort port f s).time port = f (ptpPort s.time port) := by
  have hlt : port % 2 < s.time.ports.length := by omega
  simp [ptpPort, setPtpPort, modAt, List.getD_eq_getElem?_getD, hlt]

end

section
variable (s : State) (port : BitVec 2) (m : PtpEvent)

theorem exec_ptpSyncRx : exec (.ptpSyncRx port m) s = .next (takePtp port.toNat m.domain.toNat (fun s =>
    if m.twoStep then setPtpPort port.toNat (fun p =>
      { p with twoStep := some (m.seq.toNat, rxTime s port.toNat m.stamp, m.correction), syncAt := s.clk.mono }) s
    else ptpMeasure port.toNat (rxTime s port.toNat m.stamp) m.origin m.correction s) s) := rfl

theorem exec_ptpFollowUpRx : exec (.ptpFollowUpRx port m) s = .next (takePtp port.toNat m.domain.toNat (fun s =>
    match (ptpPort s.time port.toNat).twoStep with
    | some (seq, rx, corr) => if seq == m.seq.toNat then ptpMeasure port.toNat rx m.origin (corr + m.correction) s else s
    | none => s) s) := rfl

theorem exec_ptpPdelayReqRx : exec (.ptpPdelayReqRx port m) s = .next (takePtp port.toNat m.domain.toNat (fun s =>
    sendPtp { ptpMessage s port.toNat 3 m.seq.toNat with
      correction := txTime s port.toNat s.clk.taiNs - rxTime s port.toNat m.stamp + 10 * m.correction } s) s) := rfl

theorem exec_ptpPdelayRespRx : exec (.ptpPdelayRespRx port m) s = .next (takePtp port.toNat m.domain.toNat (fun s =>
    match (ptpPort s.time port.toNat).pdelayReq with
    | some (seq, t1) =>
      if seq == m.seq.toNat then
        setPtpPort port.toNat (fun p => { p with
          linkDelay := roundOpen 15 (rxTime s port.toNat m.stamp - t1 - 10 * m.correction) 20, linkDelayKnown := true, pdelayReq := none }) s
      else s
    | none => s) s) := rfl

/-- A port that has heard an Announce, at a time. -/
def heardFrom (a : PtpAnnounce) (now : Nat) (p : PtpPort) : PtpPort := { p with foreign := some (gmOfAnnounce a), announceAt := now }

/-- What an Announce does where it is taken: the port's foreign data, BMCA, and of the grandmaster in use the UTC data (R126, R134). -/
def hearAnnounce (port : Nat) (a : PtpAnnounce) (s : State) : State :=
  let t := runBmca (setPtpPort port (heardFrom a s.clk.mono) s)
  if t.time.activePort == some port && t.time.used == 1 then
    let u := setTime (fun t => { t with leap61 := a.leap61, leap59 := a.leap59 }) t
    if utcData (gmInUse u.time) == utcData (gmInUse s.time) then u else decideUtc u
  else t

theorem exec_ptpAnnounceRx (a : PtpAnnounce) :
    exec (.ptpAnnounceRx port a) s = .next (takePtp port.toNat a.domain.toNat (hearAnnounce port.toNat a) s) := rfl

end

/-! ### BMCA (R134, R135) -/

section
variable (s : State)

@[simp] theorem timeKept_changePort (a p : Nat) : timeKept (changePort a p s) = timeKept s := by
  have huse : timeKept (changeUse p (fun t => { t with activePort := some p }) s) = timeKept s := timeKept_changeUse s p fun _ => rfl
  unfold changePort
  extract_lets old t u
  rw [timeKept_decideUtc]
  unfold u
  split
  · exact (timeKept_judgeChange ..).trans huse
  · exact huse

/-- BMCA sets the states of the ports and leaves what they have heard. -/
theorem runBmca_ports : ∃ l, timeKept (runBmca s) = (s.clk, l, (timeKept s).2.2) ∧
    ∀ i, i < 2 → (l.getD i {}).foreign = (s.time.ports.getD i {}).foreign ∧ (l.getD i {}).announceAt = (s.time.ports.getD i {}).announceAt := by
  unfold runBmca
  split
  · refine ⟨s.time.ports.map (fun p => { p with portState := 3 }), rfl, fun i _ => ?_⟩
    simp only [List.getD_eq_getElem?_getD, List.getElem?_map]
    cases s.time.ports[i]? <;> exact ⟨rfl, rfl⟩
  · extract_lets master best old t
    refine ⟨t.time.ports, ?_, fun i hi => ?_⟩
    · clear_value old best
      cases old with
      | none => rfl
      | some a =>
        cases best with
        | none => exact timeKept_loseSource (.inl rfl)
        | some b =>
          dsimp only
          split
          · rfl
          · exact timeKept_changePort ..
    · match i, hi with
      | 0, _ | 1, _ => exact ⟨rfl, rfl⟩

end

section
variable {s : State} {port : Nat}

/-- An Announce that is taken is what its port last heard, at this time. -/
theorem hearAnnounce_port (h : s.time.ports.length = 2) (a : PtpAnnounce) :
    (ptpPort (hearAnnounce port a s).time port).foreign = some (gmOfAnnounce a) ∧
    (ptpPort (hearAnnounce port a s).time port).announceAt = s.clk.mono ∧ (hearAnnounce port a s).clk = s.clk := by
  have hset := ptpPort_setPtpPort (port := port) h (heardFrom a s.clk.mono)
  obtain ⟨l, hkept, hheard⟩ := runBmca_ports (setPtpPort port (heardFrom a s.clk.mono) s)
  obtain ⟨hforeign, hat⟩ := hheard (port % 2) (Nat.mod_lt _ Nat.two_pos)
  have hall : timeKept (hearAnnounce port a s) = timeKept (runBmca (setPtpPort port (heardFrom a s.clk.mono) s)) := by
    unfold hearAnnounce
    dsimp only
    split
    · split
      · rfl
      · exact timeKept_decideUtc _
    · rfl
  have hports : (hearAnnounce port a s).time.ports = l := (ports_of_timeKept hall).trans (congrArg (·.2.1) hkept)
  have hclk : (hearAnnounce port a s).clk = s.clk := (clk_of_timeKept hall).trans (congrArg Prod.fst hkept)
  rw [ptpPort, hports]
  unfold ptpPort at hset
  rw [hset] at hforeign hat
  exact ⟨hforeign, hat, hclk⟩

end

/-! ### What leaves (R133, R134, R137) -/

section
variable (s : State) (last : Option Nat)

@[simp] theorem ptpDue_time : (ptpDue last s).time = s.time := by cases last <;> rfl
@[simp] theorem ptpDue_out : (ptpDue last s).out = s.out := by cases last <;> rfl
@[simp] theorem txTime_ptpDue (port stamp : Nat) : txTime (ptpDue last s) port stamp = txTime s port stamp := by cases last <;> rfl

end

/-- When a port last sent a message of a kind. -/
def lastTx : PtpKind → PtpPort → Option Nat
  | .announce, p => p.announceTx
  | .sync, p => p.syncTx
  | .pdelayReq, p => p.pdelayTx

section
variable {s : State} {port : BitVec 2} {kind : PtpKind}

theorem exec_ptpMessageTx_of_barred (h : ptpOn s port.toNat = false ∨ kind ≠ .pdelayReq ∧ isMaster s.time = false) :
    exec (.ptpMessageTx port kind) s = .next s := by
  have hrow : exec (.ptpMessageTx port kind) s = execPtpMessageTx port kind s := rfl
  rw [hrow, execPtpMessageTx]
  dsimp only
  rw [if_pos]
  rcases h with h | ⟨hk, hm⟩
  · simp [h]
  · simp [hk, hm]

theorem exec_ptpMessageTx_of_due (hon : ptpOn s port.toNat = true) (h : kind = .pdelayReq ∨ isMaster s.time = true) :
    exec (.ptpMessageTx port kind) s = .next (sendKind port.toNat kind (ptpDue (lastTx kind (ptpPort s.time port.toNat)) s)) := by
  have hrow : exec (.ptpMessageTx port kind) s = execPtpMessageTx port kind s := rfl
  rw [hrow, execPtpMessageTx]
  dsimp only
  rw [if_neg]
  · cases kind <;> rfl
  · rcases h with h | h <;> simp [hon, h]

end

/-! ### Timeouts (R131) -/

section
variable {s : State} {port : BitVec 2}

theorem exec_ptpTimeouts_of_idle (h : ptpOn s port.toNat = false ∨ (ptpPort s.time port.toNat).foreign = none) :
    exec (.ptpAnnounceTimeout port) s = .next s ∧ exec (.ptpSyncTimeout port) s = .next s := by
  have hannounce : exec (.ptpAnnounceTimeout port) s = execPtpAnnounceTimeout port s := rfl
  have hsync : exec (.ptpSyncTimeout port) s = execPtpSyncTimeout port s := rfl
  have hidle : (!ptpOn s port.toNat || (ptpPort s.time port.toNat).foreign.isNone) = true := by rcases h with h | h <;> simp [h]
  rw [hannounce, hsync, execPtpAnnounceTimeout, execPtpSyncTimeout, if_pos hidle, if_pos hidle]
  exact ⟨rfl, rfl⟩

theorem exec_ptpTimeouts_of_master (hon : ptpOn s port.toNat = true) (h : (ptpPort s.time port.toNat).foreign ≠ none) :
    exec (.ptpAnnounceTimeout port) s =
      .next (losePort port.toNat (setClk (·.advance ((ptpPort s.time port.toNat).announceAt + secU 3)) s)) ∧
    exec (.ptpSyncTimeout port) s = .next (losePort port.toNat (setClk (·.advance ((ptpPort s.time port.toNat).syncAt + secU 3)) s)) := by
  have hannounce : exec (.ptpAnnounceTimeout port) s = execPtpAnnounceTimeout port s := rfl
  have hsync : exec (.ptpSyncTimeout port) s = execPtpSyncTimeout port s := rfl
  have hheard : ¬(!ptpOn s port.toNat || (ptpPort s.time port.toNat).foreign.isNone) = true := by simp [hon, h]
  rw [hannounce, hsync, execPtpAnnounceTimeout, execPtpSyncTimeout, if_neg hheard, if_neg hheard]
  exact ⟨rfl, rfl⟩

end

/-! ### The messages (R133, R134, R137) -/

section
variable {s : State} {port : BitVec 2}

/-- What is not taken of a port comes to the same whatever message it is. -/
theorem exec_ptpRx_of_left {m : PtpEvent} {a : PtpAnnounce} (h : ptpOn s port.toNat = false ∨
    (m.domain.toNat ≠ s.time.cfg.domain ∧ a.domain.toNat ≠ s.time.cfg.domain)) (i : Instr)
    (hi : i ∈ [Instr.ptpSyncRx port m, .ptpFollowUpRx port m, .ptpAnnounceRx port a, .ptpPdelayReqRx port m, .ptpPdelayRespRx port m]) :
    exec i s = .next (ringPtp port.toNat s) := by
  have hm : ptpOn s port.toNat = false ∨ m.domain.toNat ≠ s.time.cfg.domain := h.imp_right And.left
  have ha : ptpOn s port.toNat = false ∨ a.domain.toNat ≠ s.time.cfg.domain := h.imp_right And.right
  simp only [List.mem_cons, List.not_mem_nil, or_false] at hi
  rcases hi with rfl | rfl | rfl | rfl | rfl
  · rw [exec_ptpSyncRx, takePtp_of_left hm]
  · rw [exec_ptpFollowUpRx, takePtp_of_left hm]
  · rw [exec_ptpAnnounceRx, takePtp_of_left ha]
  · rw [exec_ptpPdelayReqRx, takePtp_of_left hm]
  · rw [exec_ptpPdelayRespRx, takePtp_of_left hm]

section
variable {m : PtpEvent} (hon : ptpOn s port.toNat = true) (hd : m.domain.toNat = s.time.cfg.domain)
include hon hd

theorem exec_ptpSyncRx_twoStep (h : m.twoStep = true) : exec (.ptpSyncRx port m) s = .next (setPtpPort port.toNat
    (fun p => { p with twoStep := some (m.seq.toNat, rxTime s port.toNat m.stamp, m.correction), syncAt := s.clk.mono }) s) := by
  rw [exec_ptpSyncRx, takePtp_of_taken hon hd, if_pos h]

theorem exec_ptpSyncRx_oneStep (h : m.twoStep = false) :
    exec (.ptpSyncRx port m) s = .next (ptpMeasure port.toNat (rxTime s port.toNat m.stamp) m.origin m.correction s) := by
  rw [exec_ptpSyncRx, takePtp_of_taken hon hd, if_neg (by simp [h])]

theorem exec_ptpFollowUpRx_of_sync {r c : Int} (h : (ptpPort s.time port.toNat).twoStep = some (m.seq.toNat, r, c)) :
    exec (.ptpFollowUpRx port m) s = .next (ptpMeasure port.toNat r m.origin (c + m.correction) s) := by
  rw [exec_ptpFollowUpRx, takePtp_of_taken hon hd, h]
  exact congrArg _ (if_pos (beq_self_eq_true _))

theorem exec_ptpFollowUpRx_of_none (h : (ptpPort s.time port.toNat).twoStep = none) : exec (.ptpFollowUpRx port m) s = .next s := by
  rw [exec_ptpFollowUpRx, takePtp_of_taken hon hd, h]

theorem exec_ptpPdelayReqRx_answers : exec (.ptpPdelayReqRx port m) s = .next (sendPtp
    { ptpMessage s port.toNat 3 m.seq.toNat with
      correction := txTime s port.toNat s.clk.taiNs - rxTime s port.toNat m.stamp + 10 * m.correction } s) := by
  rw [exec_ptpPdelayReqRx, takePtp_of_taken hon hd]

theorem exec_ptpPdelayRespRx_of_request {t1 : Int} (h : (ptpPort s.time port.toNat).pdelayReq = some (m.seq.toNat, t1)) :
    exec (.ptpPdelayRespRx port m) s = .next (setPtpPort port.toNat (fun p => { p with
      linkDelay := roundOpen 15 (rxTime s port.toNat m.stamp - t1 - 10 * m.correction) 20, linkDelayKnown := true, pdelayReq := none }) s) := by
  rw [exec_ptpPdelayRespRx, takePtp_of_taken hon hd, h]
  exact congrArg _ (if_pos (beq_self_eq_true _))

theorem exec_ptpPdelayRespRx_of_none (h : (ptpPort s.time port.toNat).pdelayReq = none) : exec (.ptpPdelayRespRx port m) s = .next s := by
  rw [exec_ptpPdelayRespRx, takePtp_of_taken hon hd, h]

end

end

section
variable {port : Nat} {u : State}

/-- A Pdelay_Req leaves, and its port awaits the answer to it. -/
theorem sendKind_pdelayReq (h : u.time.ports.length = 2) : ∃ t, sendKind port .pdelayReq u = t ∧ t.clk = u.clk ∧
    (ptpPort t.time port).pdelayReq = some ((ptpPort u.time port).seqPdelay, txTime u port u.clk.taiNs) ∧
    (ptpPort t.time port).seqPdelay = ((ptpPort u.time port).seqPdelay + 1) % 2 ^ 16 ∧
    t.out.ptp = u.out.ptp ++ [{ ptpMessage u port 2 (ptpPort u.time port).seqPdelay with
      correction := -10 * (u.time.cfg.lat.getD port {}).asym }] := by
  refine ⟨_, rfl, rfl, ?_⟩
  unfold sendKind
  dsimp only
  rw [ptpPort_setPtpPort (s := sendPtp _ u) h]
  exact ⟨rfl, rfl, rfl⟩

/-- A Sync carries its own departure at the connector (R137). -/
theorem sendKind_sync : ∃ t, sendKind port .sync u = t ∧ t.clk = u.clk ∧
    t.out.ptp = u.out.ptp ++ [{ ptpMessage u port 0 (ptpPort u.time port).seqSync with
      origin := txTime u port u.clk.taiNs / 10 * 10, correction := txTime u port u.clk.taiNs % 10 }] :=
  ⟨_, rfl, rfl, rfl⟩

/-- An Announce carries the device's own data set, and the TLVs of its profile (R133, R134). -/
theorem sendKind_announce : ∃ t m, sendKind port .announce u = t ∧ t.clk = u.clk ∧ t.out.ptp = u.out.ptp ++ [m] ∧
    m.port = port ∧ m.kind = 11 ∧ m.dst = 0x011B19000000 ∧ m.domain = u.time.cfg.domain ∧ m.seq = (ptpPort u.time port).seqAnnounce ∧
    m.announce = some (ownGm u.time) ∧ (m.c37 = none ↔ u.time.cfg.profile ≠ 1) := by
  refine ⟨_, announceBody u (ptpMessage u port 11 (ptpPort u.time port).seqAnnounce), rfl, rfl, rfl, rfl, rfl, rfl, rfl, rfl, rfl, ?_⟩
  unfold announceBody
  by_cases h : u.time.cfg.profile = 1 <;> simp [h]

end

/-! ### TIME_SOURCE_SWITCH (R131) -/

section
variable {s : State}

/-- TIME_SOURCE_SWITCH of a locked source that alone ranks above the live one in use takes it, 10 s after its lock. -/
theorem exec_timeSourceSwitch_takes {src : BitVec 2} {a b : Nat} (ha : srcRank s.time src.toNat = some a)
    (hb : srcRank s.time s.time.used = some b) (hab : a < b) (hlocked : (srcSt s.time src.toNat).locked = true)
    (halone : ∀ k c, srcRank s.time k = some c → c < b → k ≠ src.toNat → (srcSt s.time k).locked = false) (hsrc : src.toNat ≠ 0)
    (hirig : src.toNat = 2 → s.time.utcValid = true) (hused : s.time.used ≠ 0) (husedIrig : s.time.used = 2 → s.time.utcValid = true)
    (hlive : (srcSt s.time s.time.used).live = true) : exec (.timeSourceSwitch src) s =
      .next (useSource src.toNat (setClk (·.advance ((srcSt s.time src.toNat).lockedSince + secU 10)) s)) := by
  have hrow : exec (.timeSourceSwitch src) s = execTimeSourceSwitch src s := rfl
  rw [hrow, execTimeSourceSwitch]
  dsimp only
  rw [ha, hb]
  dsimp only
  rw [if_pos (by simp [hab, hlocked])]
  refine congrArg _ (selectSource_of_lockedAbove ?_ hused hlive ?_ ?_ fun j hj => ?_)
  · exact mem_srcList_of_srcRank hb hused husedIrig
  · exact mem_srcList_of_srcRank ha hsrc hirig
  · have hdue : (srcSt s.time src.toNat).lockedSince + secU 10 ≤ (s.clk.advance ((srcSt s.time src.toNat).lockedSince + secU 10)).mono :=
      Nat.le_max_right ..
    simp [lockedAbove, ha, hb, hab, hlocked, hdue]
  · refine Decidable.byContradiction fun hne => ?_
    unfold lockedAbove at hj
    rw [setClk_time, hb] at hj
    cases hc : srcRank s.time j with
    | none => simp [hc] at hj
    | some c =>
      simp only [hc, Bool.and_eq_true, decide_eq_true_eq] at hj
      exact absurd hj.1.2 (by simp [halone j c hc hj.1.1 hne])

end

/-- Settles O39: each message by whether it is taken and by what its port waits for; the switch by the one source that ranks above. -/
theorem ptpRows : Obligations.PtpRows := by
  unfold Obligations.PtpRows
  rintro s port p rfl due hdue
  have hdue (last : Option Nat) : due last = ptpDue last s := by
    rw [hdue]
    cases last <;> rfl
  refine ⟨fun m a h => ?_, fun hoff => ⟨fun k => exec_ptpMessageTx_of_barred (.inl hoff), exec_ptpTimeouts_of_idle (.inl hoff)⟩,
    fun hon => ⟨?_, fun a hd hlen => ?_, fun hlen => ?_, fun k hk hm => ?_, fun hm => ?_, fun hm => ?_, exec_ptpTimeouts_of_master hon,
      fun hnone => exec_ptpTimeouts_of_idle (.inr hnone)⟩,
    fun src a b ha hb hab hlocked halone hsrc hirig hused husedIrig hlive => ?_⟩
  · have hrow := exec_ptpRx_of_left h
    refine ⟨_, (ringPtp_cases s port.toNat), hrow _ ?_, hrow _ ?_, hrow _ ?_, hrow _ ?_, hrow _ ?_⟩ <;> simp
  · rintro m hd _ rfl
    refine ⟨exec_ptpSyncRx_twoStep hon hd, exec_ptpSyncRx_oneStep hon hd, fun r c => exec_ptpFollowUpRx_of_sync hon hd,
      exec_ptpFollowUpRx_of_none hon hd, exec_ptpPdelayReqRx_answers hon hd, fun t1 ht1 hlen => ?_, exec_ptpPdelayRespRx_of_none hon hd⟩
    refine ⟨_, exec_ptpPdelayRespRx_of_request hon hd ht1, ?_⟩
    rw [ptpPort_setPtpPort hlen]
    exact ⟨rfl, rfl, rfl, rfl⟩
  · rw [exec_ptpAnnounceRx, takePtp_of_taken hon hd]
    exact ⟨_, rfl, hearAnnounce_port hlen a⟩
  · have hsent := sendKind_pdelayReq (port := port.toNat) (u := ptpDue (ptpPort s.time port.toNat).pdelayTx s) (by rwa [ptpDue_time])
    rw [ptpDue_time, ptpDue_out] at hsent
    obtain ⟨t, rfl, hclk, hreq, hseq, hout⟩ := hsent
    refine ⟨_, exec_ptpMessageTx_of_due hon (.inl rfl), ?_⟩
    rw [hdue]
    refine ⟨hclk, hreq.trans ?_, hseq, hout.trans ?_⟩
    · rw [txTime_ptpDue]
      rfl
    · rw [ptpMessage, ptpDue_time]
      rfl
  · refine exec_ptpMessageTx_of_barred (.inr ⟨?_, hm⟩)
    rcases hk with rfl | rfl <;> decide
  · obtain ⟨t, m, rfl, hclk, hout, hm'⟩ := sendKind_announce (port := port.toNat) (u := ptpDue (ptpPort s.time port.toNat).announceTx s)
    rw [ptpDue_time] at hm'
    rw [ptpDue_out] at hout
    refine ⟨_, m, exec_ptpMessageTx_of_due hon (.inr hm), ?_⟩
    rw [hdue]
    exact ⟨hclk, hout, hm'⟩
  · obtain ⟨t, rfl, hclk, hout⟩ := sendKind_sync (port := port.toNat) (u := ptpDue (ptpPort s.time port.toNat).syncTx s)
    refine ⟨_, exec_ptpMessageTx_of_due hon (.inr hm), ?_⟩
    rw [hdue]
    refine ⟨hclk, hout.trans ?_⟩
    rw [ptpDue_out, ptpMessage, ptpDue_time, txTime_ptpDue]
    rfl
  · have hz : src.toNat ≠ 0 := fun h => hsrc (BitVec.eq_of_toNat_eq h)
    have htwo (h : src.toNat = 2) : src = 2 := BitVec.eq_of_toNat_eq h
    refine ⟨_, exec_timeSourceSwitch_takes ha hb hab hlocked halone hz (fun h => (hirig (htwo h)).1) hused husedIrig hlive,
      useSource_used fun h => (hirig (htwo h)).2, clk_of_timeKept (timeKept_useSource ..)⟩

end Sys2Proof.Machine.Laws
end

section
/-! SUPPORT. IRIG-B, PPS_IN and PPS_OUT, the second, the leap second and the clock monitor (R125, R126, R128, R129, R131, R140-R142,
R570). -/

namespace Sys2Proof.Machine.Laws
open Sys2Proof Sys2Proof.Machine

/-! ### PPS_IN (R141, R570) -/

/-- The offset of an edge at a time in ns, the cable's delay taken away (R141). -/
def edgeOffset (ns : Nat) (dly : Nat) : Int :=
  let f : Int := ((ns : Int) - dly) % 1000000000
  if 500000000 < f then f - 1000000000 else f

theorem edgeOffset_range (ns dly : Nat) : -500000000 < edgeOffset ns dly ∧ edgeOffset ns dly ≤ 500000000 := by
  unfold edgeOffset
  dsimp only
  split <;> omega

/-- An edge has come: the count moves on to it, and it is the last edge. -/
def heardEdge (t : Nat) (s : State) : State :=
  setTime (fun x => { x with ppsInAt := some (s.clk.advance (t * uPerNs)).mono }) (setClk (·.advance (t * uPerNs)) s)

section
variable {s : State} {t : Nat}

theorem exec_ppsInEdge_of_ignored (h : s.mode.mode = .boot ∨ s.mode.mode = .backup) : exec (.ppsInEdge t) s = .next s := by
  have hrow : exec (.ppsInEdge t) s = execPpsInEdge t s := rfl
  rw [hrow, execPpsInEdge, if_pos]
  rcases h with h | h <;> simp [h]

section
variable (hboot : s.mode.mode ≠ .boot) (hbackup : s.mode.mode ≠ .backup)
include hboot hbackup

/-- An edge too soon or too late after the one before is discarded. -/
theorem exec_ppsInEdge_of_discarded {p : Nat} (hp : s.time.ppsInAt = some p)
    (h : max s.clk.mono (t * uPerNs) < p + msU 900 ∨ p + msU 1100 < max s.clk.mono (t * uPerNs)) :
    exec (.ppsInEdge t) s = .next (setTime (fun x => { x with ppsInDiscards := x.ppsInDiscards + 1 }) (heardEdge t s)) := by
  have hrow : exec (.ppsInEdge t) s = execPpsInEdge t s := rfl
  rw [hrow, execPpsInEdge, if_neg (by simp [hboot, hbackup])]
  simp only [setClk_time, hp]
  exact congrArg _ (if_pos (decide_eq_true h))

/-- The first edge is measured where PPS_IN is configured. -/
theorem exec_ppsInEdge_of_first (hp : s.time.ppsInAt = none) : exec (.ppsInEdge t) s = .next (
    if srcRank s.time 3 = none then heardEdge t s
    else measureOffset 3 (edgeOffset (s.clk.advance (t * uPerNs)).taiNs s.time.cfg.ppsInDly) 0 (heardEdge t s)) := by
  have hrow : exec (.ppsInEdge t) s = execPpsInEdge t s := rfl
  rw [hrow, execPpsInEdge, if_neg (by simp [hboot, hbackup])]
  simp only [setClk_time, hp, Option.isNone_iff_eq_none]
  rfl

/-- A measured edge makes PPS_IN live, with an offset of half a second at most; it is the last edge. -/
theorem exec_ppsInEdge_first_view (hp : s.time.ppsInAt = none) : ∃ u, exec (.ppsInEdge t) s = .next u ∧
    u.time.ppsInAt = some (max s.clk.mono (t * uPerNs)) ∧ u.time.ppsInDiscards = s.time.ppsInDiscards ∧
    (srcRank s.time 3 = none → u.time.pps = s.time.pps ∧ u.clk.addend = s.clk.addend) ∧
    (srcRank s.time 3 ≠ none → u.time.pps.live = true ∧ -500000000 < u.time.pps.offset ∧ u.time.pps.offset ≤ 500000000) := by
  refine ⟨_, exec_ppsInEdge_of_first hboot hbackup hp, ?_⟩
  by_cases hrank : srcRank s.time 3 = none
  · rw [if_pos hrank]
    exact ⟨rfl, rfl, fun _ => ⟨rfl, rfl⟩, fun h => absurd hrank h⟩
  · rw [if_neg hrank]
    have hkept := timeKept_measureOffset (heardEdge t s) 3 (edgeOffset (s.clk.advance (t * uPerNs)).taiNs s.time.cfg.ppsInDly) 0
    simp only [timeKept, Prod.mk.injEq] at hkept
    obtain ⟨-, -, -, hat, hdisc, hlive, hofs⟩ := hkept
    refine ⟨hat, hdisc, fun h => absurd h hrank, fun _ => ⟨hlive, ?_⟩⟩
    rw [hofs]
    exact edgeOffset_range ..

end

end

/-! ### IRIG-B (R140) -/

section
variable {s : State} {m : IrigFrame}

theorem exec_irigFrame_of_unconfigured (h : srcRank s.time 2 = none ∨ s.time.utcValid = false) : exec (.irigFrame m) s = .next s := by
  have hrow : exec (.irigFrame m) s = execIrigFrame m s := rfl
  rw [hrow, execIrigFrame]
  dsimp only
  rw [if_pos]
  rcases h with h | h <;> simp [h]

/-- A frame of bad parity, or that does not follow the one before, ends the run of good ones. -/
theorem exec_irigFrame_of_bad (hrank : srcRank s.time 2 ≠ none) (hutc : s.time.utcValid = true)
    (hbad : s.time.cfg.irig1344 = true ∧ m.parityOk = false ∨ ∃ p, s.time.irigPrev = some p ∧ irigUtc s m ≠ p + 1) :
    exec (.irigFrame m) s = .next { s with time := { s.time with
      irigPrev := some (irigUtc s m), irig := { s.time.irig with good := 0 } } } := by
  have hrow : exec (.irigFrame m) s = execIrigFrame m s := rfl
  rw [hrow, execIrigFrame]
  dsimp only
  rw [if_neg (by simp [hrank, hutc]), if_pos]
  · rfl
  · rcases hbad with ⟨h1344, hpar⟩ | ⟨p, hp, hne⟩
    · simp [h1344, hpar]
    · simp [hp, hne]

end

/-! ### The loss of the source in use (R131, R132) -/

/-- What a lost source keeps: neither signal nor lock, and no run of good or bad measurements. -/
def lostSrc (x : SrcSt) : SrcSt := { x with live := false, locked := false, good := 0, bad := 0 }

section
variable {s : State}

theorem lowestLocked_eq_none {t : TimeSt} (hptp : t.ptp.locked = false) (hirig : t.irig.locked = false) (hpps : t.pps.locked = false) :
    lowestLocked t = none := by
  refine List.find?_eq_none.mpr fun k _ => ne_true_of_eq_false ?_
  unfold srcSt
  split
  · exact hptp
  · split
    · exact hirig
    · exact hpps

theorem srcSt_setSrc (k : Nat) (f : SrcSt → SrcSt) (t : TimeSt) : srcSt (setSrc k f t) k = f (srcSt t k) := by
  unfold srcSt setSrc
  split
  · rfl
  · split <;> rfl

@[simp] theorem setTState_state (x : TState) : (setTState x s).time.state = x := by
  unfold setTState
  split
  · assumption
  · rw [timeEvent_time]
    rfl

theorem setTState_srcSt (x : TState) (k : Nat) : srcSt (setTState x s).time k = srcSt s.time k := by
  unfold setTState
  split
  · rfl
  · rw [timeEvent_time]
    rfl

/-- The source in use is lost with no other locked: HOLDOVER, and IRQ_STAT.TIME. -/
theorem loseSource_of_last {k : Nat} (hu : s.time.used = k) (hnone : lowestLocked (setSrc k lostSrc s.time) = none) :
    ∃ t, loseSource k s = t ∧ t.time.state = .holdover ∧ srcSt t.time k = lostSrc (srcSt s.time k) ∧ t.clk = s.clk ∧
      t.host.regs.irqStat.getLsbD Irq.time = true := by
  have hused : (setSrc k lostSrc s.time).used = k := (setSrc_used ..).trans hu
  have hlost : loseSource k s =
      raiseIrq Irq.time (setTState .holdover (setTime (fun t => { t with pending := none }) (setTime (setSrc k lostSrc) s))) := by
    unfold loseSource
    extract_lets t
    have ht : t = setTime (setSrc k lostSrc) s := rfl
    clear_value t
    subst ht
    rw [setTime_time, hused, hnone, if_neg (by simp)]
  refine ⟨_, hlost, ?_⟩
  rw [raiseIrq_time, setTState_state, setTState_srcSt, (raiseIrq_onlyEvents ..).clk]
  exact ⟨rfl, srcSt_setSrc .., (clk_of_timeKept (timeKept_setTState ..)).trans rfl, raiseIrq_sets_cause _ _ (by decide)⟩

theorem exec_irigTimeout : exec .irigTimeout s =
    .next (if s.time.irig.live then loseSource 2 (setClk (·.advance (s.time.irig.lastAt + secU 3)) s) else s) := rfl

theorem exec_ppsInTimeout : exec .ppsInTimeout s =
    .next (if s.time.pps.live then loseSource 3 (setClk (·.advance (s.time.pps.lastAt + msU 2500)) s) else s) := rfl

/-- IRIG-B in use times out with no other source locked. -/
theorem exec_irigTimeout_of_last (hlive : s.time.irig.live = true) (hu : s.time.used = 2)
    (h : ∀ k, k = 1 ∨ k = 3 → (srcSt s.time k).locked = false) : ∃ t, exec .irigTimeout s = .next t ∧ t.time.state = .holdover ∧
      t.time.irig.live = false ∧ t.clk = s.clk.advance (s.time.irig.lastAt + secU 3) ∧ t.host.regs.irqStat.getLsbD Irq.time = true := by
  have hnone : lowestLocked (setSrc 2 lostSrc s.time) = none := lowestLocked_eq_none (h 1 (.inl rfl)) rfl (h 3 (.inr rfl))
  obtain ⟨t, ht, hstate, hsrc, hclk, hirq⟩ := loseSource_of_last (s := setClk (·.advance (s.time.irig.lastAt + secU 3)) s) hu hnone
  refine ⟨t, ?_, hstate, congrArg SrcSt.live hsrc, hclk, hirq⟩
  rw [exec_irigTimeout, if_pos hlive, ht]

/-- PPS_IN in use times out with no other source locked. -/
theorem exec_ppsInTimeout_of_last (hlive : s.time.pps.live = true) (hu : s.time.used = 3)
    (h : ∀ k, k = 1 ∨ k = 2 → (srcSt s.time k).locked = false) : ∃ t, exec .ppsInTimeout s = .next t ∧ t.time.state = .holdover ∧
      t.time.pps.live = false ∧ t.clk = s.clk.advance (s.time.pps.lastAt + msU 2500) ∧ t.host.regs.irqStat.getLsbD Irq.time = true := by
  have hnone : lowestLocked (setSrc 3 lostSrc s.time) = none := lowestLocked_eq_none (h 1 (.inl rfl)) (h 2 (.inr rfl)) rfl
  obtain ⟨t, ht, hstate, hsrc, hclk, hirq⟩ := loseSource_of_last (s := setClk (·.advance (s.time.pps.lastAt + msU 2500)) s) hu hnone
  refine ⟨t, ?_, hstate, congrArg SrcSt.live hsrc, hclk, hirq⟩
  rw [exec_ppsInTimeout, if_pos hlive, ht]

end

/-! ### The second, PPS_OUT and the leap second (R125, R126, R129, R142) -/

section
variable {s : State}

theorem exec_timeSecondTick_of_locked (h : s.time.state = .locked) : exec .timeSecondTick s = .next { s with time := { s.time with
    bound := nextBound s.time, lockedBound := nextBound s.time, rtcSec := s.clk.taiSec, rtcAt := s.clk.mono } } := by
  have hrow : exec .timeSecondTick s = execTimeSecondTick s := rfl
  rw [hrow, execTimeSecondTick, setTime]
  dsimp only
  rw [if_pos (by simp [h])]

theorem exec_timeSecondTick_of_unlocked (h : s.time.state ≠ .locked) :
    exec .timeSecondTick s = .next { s with time := { s.time with bound := nextBound s.time } } := by
  have hrow : exec .timeSecondTick s = execTimeSecondTick s := rfl
  rw [hrow, execTimeSecondTick, setTime]
  dsimp only
  rw [if_neg (by simp [h])]

/-- The clock at its next TAI second, where it stands at one the clock itself. -/
def atSecond (c : Clock) : Clock := if c.taiU % secU 1 == 0 then c else c.advance (c.mono + (secU 1 - c.taiU % secU 1))

theorem atSecond_mono (c : Clock) : c.mono ≤ (atSecond c).mono ∧ (atSecond c).mono < c.mono + secU 1 := by
  have hpos : 0 < secU 1 := by decide
  have hlt := Nat.mod_lt c.taiU hpos
  unfold atSecond
  split
  · omega
  · next h =>
    have hne : c.taiU % secU 1 ≠ 0 := by simpa using h
    unfold Clock.advance
    dsimp only
    omega

/-- There TAI is a whole second. -/
theorem atSecond_taiU {c : Clock} (h : 0 ≤ (c.mono : Int) + c.taiOfs) : (atSecond c).taiU % secU 1 = 0 := by
  have hpos : 0 < secU 1 := by decide
  have hlt := Nat.mod_lt c.taiU hpos
  unfold atSecond
  split
  · next h => simpa using h
  · have htai : (c.advance (c.mono + (secU 1 - c.taiU % secU 1))).taiU = c.taiU + (secU 1 - c.taiU % secU 1) := by
      unfold Clock.advance Clock.taiU at *
      dsimp only at *
      omega
    have hdiv := Nat.div_add_mod c.taiU (secU 1)
    rw [htai, show c.taiU + (secU 1 - c.taiU % secU 1) = secU 1 * (c.taiU / secU 1 + 1) by rw [Nat.mul_succ]; omega]
    exact Nat.mul_mod_right ..

theorem exec_ppsOutEdge_of_idle (h : ppsDriven s = false) : exec .ppsOutEdge s = .next { s with time := { s.time with ppsOut := false } } := by
  have hrow : exec .ppsOutEdge s = execPpsOutEdge s := rfl
  rw [hrow, execPpsOutEdge, if_pos (by simp [h])]
  rfl

/-- What the edge of a second does to PPS_OUT: too soon after the one before it is omitted (R142). -/
def risePps (s : State) : State :=
  match s.time.ppsOutAt with
  | some p =>
    if s.clk.mono < p + msU 500 then setTime (fun t => { t with ppsOmitted := t.ppsOmitted + 1 }) s
    else setTime (fun t => { t with ppsOut := true, ppsOutAt := some s.clk.mono }) s
  | none => setTime (fun t => { t with ppsOut := true, ppsOutAt := some s.clk.mono }) s

theorem exec_ppsOutEdge_of_driven (h : ppsDriven s = true) : exec .ppsOutEdge s = .next (risePps (setClk atSecond s)) := by
  have hrow : exec .ppsOutEdge s = execPpsOutEdge s := rfl
  have hclk : (if s.clk.taiU % secU 1 == 0 then s else setClk (·.advance (s.clk.mono + (secU 1 - s.clk.taiU % secU 1))) s) =
      setClk atSecond s := by
    unfold setClk atSecond
    split <;> rfl
  rw [hrow, execPpsOutEdge, if_neg (by simp [h])]
  dsimp only
  rw [hclk]
  rfl

theorem risePps_of_first (h : s.time.ppsOutAt = none) :
    risePps s = setTime (fun t => { t with ppsOut := true, ppsOutAt := some s.clk.mono }) s := by
  rw [risePps, h]

theorem risePps_of_soon {p : Nat} (h : s.time.ppsOutAt = some p) (hsoon : s.clk.mono < p + msU 500) :
    risePps s = setTime (fun t => { t with ppsOmitted := t.ppsOmitted + 1 }) s := by
  rw [risePps, h]
  exact if_pos hsoon

theorem risePps_of_due {p : Nat} (h : s.time.ppsOutAt = some p) (hdue : p + msU 500 ≤ s.clk.mono) :
    risePps s = setTime (fun t => { t with ppsOut := true, ppsOutAt := some s.clk.mono }) s := by
  rw [risePps, h]
  exact if_neg (Nat.not_lt.mpr hdue)

theorem risePps_clk (s : State) : (risePps s).clk = s.clk := by
  unfold risePps
  split
  · split <;> rfl
  · rfl

theorem exec_leapSecond_of_none (h61 : s.time.leap61 = false) (h59 : s.time.leap59 = false) : exec .leapSecond s = .next s := by
  have hrow : exec .leapSecond s = execLeapSecond s := rfl
  rw [hrow, execLeapSecond]
  simp [h61, h59]

/-- An announced leap second moves the UTC offset by one (R126). -/
theorem exec_leapSecond_of_announced (h : s.time.leap61 = true ∨ s.time.leap59 = true) :
    exec .leapSecond s = .next (timeEvent 5 0 [] (setTime (fun t =>
      { t with utcOfs := t.utcOfs + (if s.time.leap61 = true then 1 else -1), leap61 := false, leap59 := false }) s)) := by
  have hrow : exec .leapSecond s = execLeapSecond s := rfl
  have hd : (if s.time.leap61 then 1 else if s.time.leap59 then -1 else 0 : Int) = if s.time.leap61 = true then 1 else -1 := by
    rcases h with h | h <;> simp [h]
  rw [hrow, execLeapSecond]
  dsimp only
  rw [hd, if_neg (by split <;> decide)]

end

/-! ### The clock monitor (R128) -/

section
variable {s : State}

theorem time_of_unsupervised {t : State} (h : unsupervised t = unsupervised s) : t.time = s.time := (congrArg State.time h :)
theorem grid_of_unsupervised {t : State} (h : unsupervised t = unsupervised s) : t.grid = s.grid := (congrArg State.grid h :)

theorem clockJudged_of_sound (h : clockFailed s = false) : clockJudged s = s := if_neg (by simp [h])

variable (s) in
/-- ClockFailure rises where the clocks have failed, and nothing else of the time or the grid changes. -/
theorem clockJudged_frame :
    (clockJudged s).time = { s.time with clockFailure := s.time.clockFailure || clockFailed s } ∧ (clockJudged s).grid = s.grid := by
  unfold clockJudged
  split
  · next h =>
    have hu := (unsupervised_settle (countEvent 23 0 (timeEvent 6 0 [] (setTime (fun t => { t with clockFailure := true }) s)))).trans
      (unsupervised_countEvent ..)
    simp only [Bool.and_eq_true] at h
    rw [time_of_unsupervised hu, grid_of_unsupervised hu, timeEvent_time, (timeEvent_onlyEvents ..).grid]
    simp [h.1]
  · next h =>
    have hkeeps : (s.time.clockFailure || clockFailed s) = s.time.clockFailure := by
      revert h
      cases clockFailed s <;> cases s.time.clockFailure <;> simp
    rw [hkeeps]
    exact ⟨rfl, rfl⟩

end

/-! ### What the completion of a command leaves -/

/-- The state with all that a completion may write left blank: the host's side, the memories, what leaves, the log, the keys and
supervision. -/
def unanswered (s : State) : State := { s with host := {}, mem := {}, out := {}, log := {}, sec := {}, supv := {} }

theorem grid_of_unanswered {s t : State} (h : unanswered t = unanswered s) : t.grid = s.grid := (congrArg State.grid h :)

section
variable (s : State)

@[simp] theorem unanswered_ite (p : Prop) [Decidable p] (t : State) :
    unanswered (if p then s else t) = if p then unanswered s else unanswered t := apply_ite ..

@[simp] theorem unanswered_memWrite (sp : Space) (a : Nat) (b : Bytes) : unanswered (memWrite sp a b s) = unanswered s := rfl

@[simp] theorem unanswered_clearDenied (c : Cmd) (d : Nat) : unanswered (clearDenied c d s) = unanswered s := rfl

@[simp] theorem unanswered_bumpClass (k : Nat) (f : ClassCount → ClassCount) : unanswered (bumpClass k f s) = unanswered s := rfl

@[simp] theorem unanswered_raiseIrq (k : Nat) : unanswered (raiseIrq k s) = unanswered s := by
  have h := raiseIrq_onlyEvents k s
  unfold OnlyEvents at h
  rw [h]
  rfl

theorem unanswered_complete (x : Completion) : unanswered (complete x s) = unanswered s := by
  unfold complete
  split
  · unfold putCompletion memWriteIf
    rw [unanswered_raiseIrq]
    split <;> rfl
  · exact unanswered_raiseIrq ..

@[simp] theorem unanswered_conclude (c : Cmd) (x : Completion) : unanswered (conclude c x s) = unanswered s := by
  unfold conclude
  split
  · rfl
  · exact unanswered_complete ..

@[simp] theorem unanswered_countAuthFail : unanswered (countAuthFail s) = unanswered s := by
  unfold countAuthFail
  exact (unanswered_ite ..).trans (ite_self _)

theorem unanswered_finish (c : Cmd) (r : Reply) : unanswered (finish c r s) = unanswered s := by
  unfold finish
  dsimp only [delayed]
  split
  · simp
  · split <;> simp

theorem unanswered_consoleReply (r : Reply) : unanswered (consoleReply r s) = unanswered s := by
  unfold consoleReply
  split
  · cases r.out with
    | none =>
      dsimp only
      split <;> rfl
    | some b => rfl
  · rfl

theorem unanswered_finishOpen (x : CmdRef) (r : Reply) : unanswered (finishOpen x r s) = unanswered s := by
  unfold finishOpen
  split
  · exact unanswered_consoleReply ..
  · split
    · exact unanswered_finish ..
    · rfl

end

/-! ### CLOCK_FAILURE (R128) -/

section
variable {s : State}

/-- The loss of CW_CLK is a loss for the grid whether or not a GRID.MODE waits for it. -/
theorem loseCwClk_grid : (loseCwClk s).grid = { s.grid with relock := none, cwClkGood := false, pllCw := false } := by
  have hpll := (setPll_onlyEvents (setGrid (fun g => { g with cwClkGood := false, relock := none }) s) false).grid
  cases h : s.grid.relock with
  | none => rw [loseCwClk_of_none h, hpll]; rfl
  | some x => rw [loseCwClk_of_waiting h, grid_of_unanswered (unanswered_finishOpen ..), hpll]; rfl

theorem exec_clockFailure_counter : exec (.clockFailure .counter) s = .next (clockJudged (setTime (fun t => { t with counterOk := false }) s)) := rfl
theorem exec_clockFailure_refclk : exec (.clockFailure .refclk) s = .next (clockJudged (setGrid (fun g => { g with refclkGood := false }) s)) := rfl
theorem exec_clockFailure_cwClk : exec (.clockFailure .cwClk) s = .next (clockJudged (loseCwClk s)) := rfl

end

/-- Settles O40: each row by its condition; what a change of source, an event and a completion leave alone carries the rest. -/
theorem timeRows : Obligations.TimeRows := by
  unfold Obligations.TimeRows
  refine fun s => ⟨fun t => exec_ppsInEdge_of_ignored, fun t p hboot hbackup hp h => exec_ppsInEdge_of_discarded hboot hbackup hp h,
    fun t => exec_ppsInEdge_first_view, fun m => exec_irigFrame_of_unconfigured, fun m => exec_irigFrame_of_bad, fun hlive => ?_, fun hlive => ?_,
    exec_irigTimeout_of_last, exec_ppsInTimeout_of_last, exec_timeSecondTick_of_locked, exec_timeSecondTick_of_unlocked, exec_ppsOutEdge_of_idle,
    fun hdriven => ⟨_, exec_ppsOutEdge_of_driven hdriven, ?_⟩, exec_leapSecond_of_none,
    fun h => ⟨_, exec_leapSecond_of_announced h, timeEvent_clk .., timeEvent_time ..⟩, ?_, ?_, ?_⟩
  · rw [exec_irigTimeout, if_neg (ne_true_of_eq_false hlive)]
  · rw [exec_ppsInTimeout, if_neg (ne_true_of_eq_false hlive)]
  · obtain ⟨hge, hlt⟩ := atSecond_mono s.clk
    rw [risePps_clk]
    refine ⟨hge, hlt, atSecond_taiU, fun hfirst => ?_, fun p hp => ⟨fun hsoon => ?_, fun hlate => ?_⟩⟩
    · rw [risePps_of_first (s := setClk atSecond s) hfirst]
      exact ⟨rfl, rfl⟩
    · rw [risePps_of_soon (s := setClk atSecond s) hp hsoon]
      rfl
    · rw [risePps_of_due (s := setClk atSecond s) hp hlate]
      rfl
  · obtain ⟨htime, -⟩ := clockJudged_frame (setTime (fun t => { t with counterOk := false }) s)
    refine ⟨_, exec_clockFailure_counter, ?_⟩
    rw [htime]
    simp [clockFailed]
  · obtain ⟨htime, hgrid⟩ := clockJudged_frame (setGrid (fun g => { g with refclkGood := false }) s)
    refine ⟨_, exec_clockFailure_refclk, ?_, fun hcw => ?_, fun hcw hcounter => ?_⟩
    · rw [hgrid]
      rfl
    · rw [htime]
      simp [clockFailed, hcw]
    · rw [clockJudged_of_sound (by simp [clockFailed, hcw, hcounter])]
      rfl
  · obtain ⟨htime, hgrid⟩ := clockJudged_frame (loseCwClk s)
    refine ⟨_, exec_clockFailure_cwClk, ?_⟩
    rw [htime, hgrid, loseCwClk_grid]
    refine ⟨rfl, fun href => ?_⟩
    simp [clockFailed, loseCwClk_grid, href]

end Sys2Proof.Machine.Laws
end

section
/-! SUPPORT. Commands that load a block for the next boundary, and what the block does there (R130, R171, R172, R179-R181, R188, R206,
R216). -/

namespace Sys2Proof.Machine.Laws
open Sys2Proof Sys2Proof.Machine Sys2Proof.Safety

/-! ### Reading a block (R52, R54) -/

section
variable {c : Cmd} {n : Nat} {s : State}

theorem readBlock_of_length (h : c.room ≠ n) : readBlock c n s = .error (Reply.refuse Rsn.buffer) := if_pos (by simp [h])

theorem readBlock_of_unreachable (h : c.room = n) (hreach : reachable s c.bufSpace c.bufAddr n = false) :
    readBlock c n s = .error (Reply.fail St.fault 3) :=
  (if_neg (by simp [h])).trans (if_pos (by simp [hreach]))

theorem readBlock_of_reachable (h : c.room = n) (hreach : reachable s c.bufSpace c.bufAddr n = true) :
    readBlock c n s = .ok (memRead s c.bufSpace c.bufAddr n) :=
  (if_neg (by simp [h])).trans (if_neg (by simp [hreach]))

theorem auxBlock_of_entries (h : c.at_ 0x14 0 7 ≠ 0) : auxBlock c s = readBlock c (8 * c.at_ 0x14 0 7) s := if_neg (by simp [h])

end

/-- The action of a command that loads a block: what stands in the way of the block, its first offending offset, or what is done with it. -/
def loadAction (block : Except Reply Bytes) (bad : Bytes → Option Nat) (t : State) (k : Bytes → Action) : Action :=
  match block with
  | .error r => .done r t
  | .ok b =>
    match bad b with
    | some o => .done (Reply.range o) t
    | none => k b

/-- It comes to what `loads` says. -/
theorem cameTo_loadAction (c : Cmd) (block : Except Reply Bytes) (bad : Bytes → Option Nat) (t : State) (k : Bytes → Action) :
    cameTo c (loadAction block bad t k) = loads c block bad t (fun b => cameTo c (k b)) := by
  unfold loadAction loads
  cases block with
  | error r => rfl
  | ok b =>
    dsimp only
    cases bad b <;> rfl

/-! ### The commands (R130, R171, R179, R181, R206, R216) -/

section
variable {c : Cmd} {s : State} {f : InFlight} (h : Starts c s f)
include h

/-- A command that starts and passes and whose action loads a block. -/
theorem command_loads {j : State → Judge} {act : State → Action} (hp : Passes (j s) c s f) {block : Except Reply Bytes}
    {bad : Bytes → Option Nat} {k : Bytes → Action} (hact : act (begun c s) = loadAction block bad (begun c s) k) :
    command c j act s = loads c block bad (begun c s) (fun b => cameTo c (k b)) := by
  rw [command_cameTo h hp, hact, cameTo_loadAction]

theorem exec_auxSeq (hp : Passes (auxJudge c s) c s f) : exec (.auxSeq c) s =
    .next (loads c (auxBlock c (begun c s)) (fun x => blockRange (auxRange (c.at_ 0x14 0 7) x)) (begun c s)
      (fun x => waits c 0 0 (.auxSeq (auxCfgOf c x)) (begun c s))) := by
  have hrow : exec (.auxSeq c) s = execAuxSeq c s := rfl
  rw [hrow, execAuxSeq, command_loads h hp rfl]
  rfl

theorem exec_svPub_publication (hp : Passes (svPubJudge c s) c s f) (hu : c.unit ≠ 0x0100) : exec (.svPub c) s =
    .next (loads c (readBlock c 128 (begun c s)) (fun x => blockRange (svPubRange (begun c s) x)) (begun c s) (fun x =>
      if pubEn (svPubLatest (begun c s) c.unit) = true ∧ withoutEn (svPubLatest (begun c s) c.unit) ≠ withoutEn x then
        answer c (Reply.fail St.locked 0) (begun c s)
      else waits c (keyWarnings (begun c s) (svPubAuth x) (svPubKey x)) 0 (.svPub c.unit x) (begun c s))) := by
  have hrow : exec (.svPub c) s = execSvPub c s := rfl
  have hact : svPubAct c (begun c s) = loadSvPub c (begun c s) := if_neg (by simp [hu])
  rw [hrow, execSvPub, command_loads h hp (hact.trans rfl)]
  simp only [apply_ite (cameTo c), Bool.and_eq_true, bne_iff_ne]
  rfl

theorem exec_svPubPortSet (hp : Passes (svPubJudge c s) c s f) (hu : c.unit = 0x0100) : exec (.svPubPortSet c) s =
    .next (loads c (readBlock c 64 (begun c s)) (fun x => blockRange (portSetRange (begun c s).variant x)) (begun c s) (fun x =>
      if portSetLocked (portSetLatest (begun c s)) x 0 = true ∨ portSetLocked (portSetLatest (begun c s)) x 1 = true then
        answer c (Reply.fail St.locked 0) (begun c s)
      else if psMode x 0 = 2 ∧ (timeLatest (begun c s)).ptpPorts = 1 then answer c (Reply.refuse Rsn.state) (begun c s)
      else waits c 0 0 (.portSet x) (begun c s))) := by
  have hrow : exec (.svPubPortSet c) s = execSvPubPortSet c s := rfl
  have hact : svPubAct c (begun c s) = loadPortSet c (begun c s) := if_pos (by simp [hu])
  rw [hrow, execSvPubPortSet, command_loads h hp (hact.trans rfl)]
  simp only [apply_ite (cameTo c), Bool.or_eq_true, Bool.and_eq_true, beq_iff_eq]
  rfl

theorem exec_goosePub (hp : Passes { absent := decide (s.variant.goosePubs ≤ c.unit) } c s f) : exec (.goosePub c) s =
    .next (loads c (readBlock c 512 (begun c s)) (fun x => blockRange (goosePubRange x)) (begun c s) (fun x =>
      if pubEn (goosePubLatest (begun c s) c.unit) = true ∧ withoutEn (goosePubLatest (begun c s) c.unit) ≠ withoutEn x then
        answer c (Reply.fail St.locked 0) (begun c s)
      else waits c (keyWarnings (begun c s) (gpAuth x) (gpKey x) + flag (decide ((begun c s).variant.bays ≤ gpBay x))) 0
        (.goosePub c.unit x) (begun c s))) := by
  have hrow : exec (.goosePub c) s = execGoosePub c s := rfl
  rw [hrow, execGoosePub, command_loads h hp rfl]
  simp only [apply_ite (cameTo c), Bool.and_eq_true, bne_iff_ne]
  rfl

theorem exec_timeSource (hp : Passes {} c s f) : exec (.timeSource c) s =
    .next (loads c (readBlock c 64 (begun c s)) (fun x => blockRange (timeReserved x ++ timeRange (begun c s) x)) (begun c s) (fun x =>
      if (begun c s).mode.mode ≠ .configure ∧ timeClassC (timeLatest (begun c s)) (timeCfgOf x) = true then
        answer c (Reply.fail St.locked 0) (begun c s)
      else waits c 0 0 (.timeSource (timeCfgOf x)) (begun c s))) := by
  have hrow : exec (.timeSource c) s = execTimeSource c s := rfl
  rw [hrow, execTimeSource, command_loads h hp rfl]
  simp only [apply_ite (cameTo c), Bool.and_eq_true, bne_iff_ne]
  rfl

end

/-! ### At the boundary -/

section
variable {a : PendAct} {s : State}

theorem runAct_portSet {b : Bytes} (h : a.act = .portSet b) : runAct s a = actDone a (applyPortSet b s) := by rw [runAct, h]
theorem runAct_svPub {i : Nat} {b : Bytes} (h : a.act = .svPub i b) : runAct s a = actDone a (applySvPub i b s) := by rw [runAct, h]
theorem runAct_goosePub {i : Nat} {b : Bytes} (h : a.act = .goosePub i b) : runAct s a = actDone a (applyGoosePub i b s) := by rw [runAct, h]
theorem runAct_auxSeq {x : AuxCfg} (h : a.act = .auxSeq x) : runAct s a = actDone a (applyAuxSeq x s) := by rw [runAct, h]
theorem runAct_timeSource {x : TimeCfg} (h : a.act = .timeSource x) : runAct s a = actDone a (applyTimeSource x s) := by rw [runAct, h]

end

section
variable (s : State)

/-- A new port set leaves every publication its block. -/
theorem applyPortSet_blocks (b : Bytes) : (applyPortSet b s).net.svPubs.map (·.block) = s.net.svPubs.map (·.block) := by
  unfold applyPortSet
  rw [setNet_net, List.map_map]
  refine List.map_congr_left fun p _ => ?_
  dsimp only [Function.comp]
  split <;> rfl

variable {s} {i k : Nat} {b : Bytes}

theorem applySvPub_same (hi : i < s.net.svPubs.length) : ((applySvPub i b s).net.svPubs[i]?).map (·.block) = some b := by
  simp [applySvPub, modAt, hi]

theorem applySvPub_ne (h : k ≠ i) : (applySvPub i b s).net.svPubs[k]? = s.net.svPubs[k]? := List.getElem?_modify_ne _ _ h.symm

theorem applyGoosePub_same (hi : i < s.net.goosePubs.length) : ((applyGoosePub i b s).net.goosePubs[i]?).map (·.block) = some b := by
  simp only [applyGoosePub, setGoosePub, setNet_net, modAt, List.getElem?_modify_eq, List.getElem?_eq_getElem hi, Option.map_eq_map, Option.map_some]
  split <;> rfl

theorem applyGoosePub_ne (h : k ≠ i) : (applyGoosePub i b s).net.goosePubs[k]? = s.net.goosePubs[k]? := List.getElem?_modify_ne _ _ h.symm

variable {cfg : AuxCfg}

/-- Starting an entry moves neither the results nor the mark of a conversion to be discarded. -/
theorem startEntry_frame (j now : Nat) (x : AuxSt) : (startEntry j now x).cfg = x.cfg ∧ (startEntry j now x).results = x.results ∧
    (startEntry j now x).discard = x.discard := by
  unfold startEntry
  split <;> exact ⟨rfl, rfl, rfl⟩

/-- The first entry of a table opens a pass, its result gathered anew. -/
theorem startEntry_first {now : Nat} {x : AuxSt} (h : x.cfg.entries ≠ []) : ∃ y, startEntry 0 now x = y ∧ y.entry = 0 ∧
    y.converting = true ∧ y.cur.n = 0 ∧ y.pass = (x.pass + 1) % 256 := by
  unfold startEntry
  obtain ⟨e, l, he⟩ := List.exists_cons_of_ne_nil h
  rw [he]
  exact ⟨_, rfl, rfl, rfl, rfl, rfl⟩

/-- The sequencer with a new table, before its first entry (R172). -/
def newTable (cfg : AuxCfg) (x : AuxSt) : AuxSt :=
  { x with
    cfg := cfg, discard := (x.converting && !x.aborted) && !cfg.entries.isEmpty, results := List.replicate 64 {}
    wroteMs := List.replicate 66 none, dirty := (List.range 66).map (fun k => decide (k < 64) && cfg.block != 0) }

/-- A new table's first entry starts; a conversion in progress keeps its own times. -/
theorem applyAuxSeq_aux : ∃ u v, (applyAuxSeq cfg s).aux = { startEntry 0 s.clk.mono (newTable cfg s.aux) with convAt := u, convEnd := v } := by
  unfold applyAuxSeq
  rw [setAux_aux]
  dsimp only
  split
  · exact ⟨_, _, rfl⟩
  · exact ⟨_, _, rfl⟩

/-- What the table leaves of the sequencer (R172). -/
theorem applyAuxSeq_view : (applyAuxSeq cfg s).aux.cfg = cfg ∧
    (∀ (k : Nat) (x : AuxResult), (applyAuxSeq cfg s).aux.results[k]? = some x → x.n = 0) ∧
    (cfg.entries ≠ [] → (applyAuxSeq cfg s).aux.entry = 0 ∧ (applyAuxSeq cfg s).aux.converting = true ∧ (applyAuxSeq cfg s).aux.cur.n = 0 ∧
      (applyAuxSeq cfg s).aux.pass = (s.aux.pass + 1) % 256 ∧ (applyAuxSeq cfg s).aux.discard = (s.aux.converting && !s.aux.aborted)) := by
  obtain ⟨u, v, haux⟩ := applyAuxSeq_aux (s := s) (cfg := cfg)
  obtain ⟨hcfg, hres, hdisc⟩ := startEntry_frame 0 s.clk.mono (newTable cfg s.aux)
  rw [haux]
  refine ⟨hcfg, fun k x hx => ?_, fun hne => ?_⟩
  · rw [hres] at hx
    rw [List.eq_of_mem_replicate (List.mem_of_getElem? hx)]
  · obtain ⟨y, hy, hentry, hconv, hn, hpass⟩ := startEntry_first (now := s.clk.mono) (x := newTable cfg s.aux) hne
    rw [hy] at hdisc ⊢
    refine ⟨hentry, hconv, hn, hpass, hdisc.trans ?_⟩
    simp [newTable, hne]

end

/-! ### A time configuration takes effect (R126, R130) -/

theorem timeCfgIn_cfg (c : TimeCfg) (t : TimeSt) : (timeCfgIn c t).cfg = c ∧ (timeCfgIn c t).configured = true := by
  unfold timeCfgIn
  refine List.foldlRecOn (motive := fun u : TimeSt => u.cfg = c ∧ u.configured = true) _ _ ?_ fun u hu i _ => ?_
  · dsimp only
    split <;> exact ⟨rfl, rfl⟩
  · split
    · unfold setSrc
      split
      · exact hu
      · split <;> exact hu
    · exact hu

@[simp] theorem timeKept_dropUsed (s : State) : timeKept (dropUsed s) = timeKept s := by
  unfold dropUsed
  split
  · rfl
  · extract_lets t
    have ht : timeKept t = timeKept s := timeKept_changeUse s 0 fun _ => rfl
    split
    · rw [timeKept_raiseIrq, timeKept_setTState, ht]
    · exact ht

/-- The configuration loaded is in force; no clock has moved. -/
theorem applyTimeSource_frame (c : TimeCfg) (s : State) : (applyTimeSource c s).clk = s.clk ∧ (applyTimeSource c s).time.cfg = c ∧
    (applyTimeSource c s).time.configured = true := by
  obtain ⟨l, hkept, -⟩ := runBmca_ports (setTime (timeCfgIn c) s)
  obtain ⟨hcfg, hconf⟩ := timeCfgIn_cfg c s.time
  have happly : timeKept (applyTimeSource c s) = (s.clk, l, (timeKept (setTime (timeCfgIn c) s)).2.2) := by
    rw [applyTimeSource, timeKept_decideUtc, timeKept_selectSource, timeKept_dropUsed, hkept]
    rfl
  generalize applyTimeSource c s = t at happly ⊢
  exact ⟨congrArg Prod.fst happly, (congrArg (·.2.2.1) happly).trans hcfg, (congrArg (·.2.2.2.1) happly).trans hconf⟩

/-- Settles O15: what stands in the way of a block, each command by it, and what each block does at the boundary. -/
theorem blockLoads : Obligations.BlockLoads := by
  unfold Obligations.BlockLoads
  refine ⟨fun c n s => ⟨readBlock_of_length, readBlock_of_unreachable, readBlock_of_reachable, auxBlock_of_entries⟩, ?_,
    fun a blk s ha => ⟨_, runAct_portSet ha, rfl, applyPortSet_blocks s blk⟩,
    fun a i blk s ha hi => ⟨_, runAct_svPub ha, rfl, applySvPub_same hi, fun k => applySvPub_ne⟩,
    fun a i blk s ha hi => ⟨_, runAct_goosePub ha, rfl, applyGoosePub_same hi, fun k => applyGoosePub_ne⟩,
    fun a cfg s ha => ⟨_, runAct_auxSeq ha, rfl, applyAuxSeq_view⟩, fun a cfg s ha => ?_⟩
  · rintro c s _ f h rfl
    exact ⟨exec_auxSeq h, exec_svPub_publication h, exec_svPubPortSet h, exec_goosePub h, exec_timeSource h⟩
  · obtain ⟨hclk, hcfg, hconf⟩ := applyTimeSource_frame cfg s
    exact ⟨_, runAct_timeSource ha, hcfg, hconf, congrArg Clock.mono hclk, congrArg Clock.ms hclk⟩

end Sys2Proof.Machine.Laws
end

section
/-! SUPPORT. Commands that only read, and the lengths of their blocks (R148, R221, R374, R441, R466, R527, R543, R565). -/

namespace Sys2Proof.Machine.Laws
open Sys2Proof Sys2Proof.Machine Sys2Proof.Safety

/-! ### The commands -/

section
variable {c : Cmd} {s : State} {f : InFlight} (h : Starts c s f)
include h

/-- A command that starts and passes and whose action is done at once. -/
theorem command_answers {j : State → Judge} {act : State → Action} (hp : Passes (j s) c s f) {r : Reply} {t : State}
    (hact : act (begun c s) = .done r t) : command c j act s = answer c r t := by
  rw [command_cameTo h hp, hact]
  rfl

section
variable (hp : Passes {} c s f)
include hp

theorem exec_timeRead : exec (.timeRead c) s = .next (answer c { out := some (timeBlock (begun c s)) } (begun c s)) :=
  congrArg Host.Outcome.next (command_answers h hp rfl)

theorem exec_pwrStatus : exec (.pwrStatus c) s = .next (answer c { out := some (powerBlock (begun c s)) } (begun c s)) :=
  congrArg Host.Outcome.next (command_answers h hp rfl)

theorem exec_keyStatus : exec (.keyStatus c) s = .next (answer c { out := some (keyStatusBlock (begun c s).sec) } (begun c s)) :=
  congrArg Host.Outcome.next (command_answers h hp rfl)

end

theorem exec_testResult (hp : Passes { range := [(c.unit == 0 || decide (15 < c.unit), 0x04)] } c s f) : exec (.testResult c) s =
    .next (answer c { out := some (TestRes.encode c.unit ((begun c s).svc.results.getD c.unit {})) } (begun c s)) :=
  congrArg Host.Outcome.next (command_answers h hp rfl)

/-- What SUPV.COUNT judges of its command (R543). -/
def supvCountJudge (c : Cmd) (s : State) : Judge :=
  { absent := decide (0x200 ≤ c.unit) && decide (c.unit ≤ 0x20F) && decide (s.variant.sections ≤ c.unit - 0x200)
    range := [((supvPart s c.unit).isNone, 4)] }

theorem exec_supvCount (hp : Passes (supvCountJudge c s) c s f) :
    exec (.supvCount c) s = .next (answer c { out := supvPart (begun c s) c.unit } (begun c s)) :=
  congrArg Host.Outcome.next (command_answers (j := supvCountJudge c) h hp rfl)

/-- LOGIC.READ, and the longest execution time where the block is returned (R374). -/
theorem exec_logicRead (hp : Passes (logicJudge c (fun _ => true) [] [] s) c s f) : exec (.logicRead c) s =
    .next (answer c { out := some (logicReadBlock (begun c s) c.unit) }
      (if returns c (logicReadBlock (begun c s) c.unit).length (begun c s) = true then setLogic c.unit (fun x => { x with execMax := 0 }) (begun c s)
       else begun c s)) := by
  have hrow : exec (.logicRead c) s = execLogicRead c s := rfl
  rw [hrow, execLogicRead, command_cameTo h hp]
  dsimp only [cameTo]
  cases returns c (logicReadBlock (begun c s) c.unit).length (begun c s) <;> rfl

/-- What REC.LIST judges of its command (R466). -/
def recListJudge (c : Cmd) (s : State) : Judge :=
  { absent := recAbsent s c.unit, used := (0x14, 0, 2) :: (if c.at_ 0x14 0 2 ≤ 1 then [(0x18, 0, 32)] else [])
    range := [(c.at_ 0x14 0 2 == 2 && c.unit == 0x00FF, 0x04), (c.at_ 0x14 0 2 == 3, 0x14)] }

section
variable (hp : Passes (recListJudge c s) c s f)
include hp

theorem exec_recList_status (hmode : c.at_ 0x14 0 2 = 2) :
    exec (.recList c) s = .next (answer c { out := some (regionStatus (begun c s) c.unit) } (begun c s)) := by
  refine congrArg Host.Outcome.next (command_answers (j := recListJudge c) h hp ?_)
  simp only [hmode]

theorem exec_recList_info (hmode : c.at_ 0x14 0 2 = 1) {x : Nat × Rec}
    (hx : (recsOf (begun c s) (recUnits (begun c s) c.unit)).find? (fun x => x.2.id == c.at_ 0x18 0 32) = some x) :
    exec (.recList c) s = .next (answer c { out := some (x.2.info x.1) } (begun c s)) := by
  refine congrArg Host.Outcome.next (command_answers (j := recListJudge c) h hp ?_)
  simp only [hmode, hx]

theorem exec_recList_unknown (hmode : c.at_ 0x14 0 2 = 1)
    (hx : (recsOf (begun c s) (recUnits (begun c s) c.unit)).find? (fun x => x.2.id == c.at_ 0x18 0 32) = none) :
    exec (.recList c) s = .next (answer c (Reply.refuse Rsn.state) (begun c s)) := by
  refine congrArg Host.Outcome.next (command_answers (j := recListJudge c) h hp ?_)
  simp only [hmode, hx]

/-- The descriptors from a REC_ID on that fit, with their number and the REC_ID that is next. -/
theorem exec_recList_descriptors (hmode : c.at_ 0x14 0 2 = 0) {l : List (Nat × Rec)} {n : Nat}
    (hl : l = (recsOf (begun c s) (recUnits (begun c s) c.unit)).filter (fun x => decide (c.at_ 0x18 0 32 ≤ x.2.id)))
    (hn : n = min l.length (min (c.room / 256) 65535)) : exec (.recList c) s = .next (answer c
      { result := n + place ((l[n]?.map (fun x => x.2.id)).getD 0) 32 32, out := some ((l.take n).flatMap (fun x => x.2.descriptor x.1)) }
      (begun c s)) := by
  refine congrArg Host.Outcome.next (command_answers (j := recListJudge c) h hp ?_)
  simp only [hmode, hn, hl]

end

/-- What SV.STATS judges of its command: the context or publication is there (R221). -/
def svStatsJudge (c : Cmd) (s : State) : Judge :=
  { absent := !(decide (c.unit < s.variant.svSubs) || (decide (0x0100 ≤ c.unit) && decide (c.unit < 0x0106))) }

/-- What GOOSE.STATS judges of its command: the context or publication is there (R221). -/
def gooseStatsJudge (c : Cmd) (s : State) : Judge :=
  { absent := !(decide (c.unit < s.variant.gooseSubs) || (decide (0x0100 ≤ c.unit) && decide (c.unit < 0x0100 + s.variant.goosePubs))) }

/-- SV.STATS of a context starts its extremes anew where its block is returned (R221). -/
theorem exec_svStats (hp : Passes (svStatsJudge c s) c s f) :
    exec (.svStats c) s = .next (
      if c.unit < 0x0100 then answer c { out := some (svStatsBlock (begun c s) c.unit) }
        (if returns c 64 (begun c s) then setSv c.unit (fun x => { x with transitMax := 0, marginMin := none }) (begun c s) else begun c s)
      else answer c { out := some (svPubStats (begun c s) (c.unit - 0x0100)) } (begun c s)) := by
  refine (congrArg Host.Outcome.next (command_cameTo (j := svStatsJudge c) h hp)).trans ?_
  by_cases hu : c.unit < 0x0100
  · rw [if_pos hu, if_pos hu]
    cases returns c 64 (begun c s) <;> rfl
  · rw [if_neg hu, if_neg hu]
    rfl

/-- GOOSE.STATS of a publication starts its largest trip latency anew where its block is returned (R221). -/
theorem exec_gooseStats (hp : Passes (gooseStatsJudge c s) c s f) :
    exec (.gooseStats c) s = .next (
      if c.unit < 0x0100 then answer c { out := some (goStatsBlock (begun c s) c.unit) } (begun c s)
      else answer c { out := some (goPubStats (begun c s) (c.unit - 0x0100)) }
        (if returns c 64 (begun c s) then setGoosePub (c.unit - 0x0100) (fun x => { x with tripLatMax := 0 }) (begun c s) else begun c s)) := by
  refine (congrArg Host.Outcome.next (command_cameTo (j := gooseStatsJudge c) h hp)).trans ?_
  by_cases hu : c.unit < 0x0100
  · rw [if_pos hu, if_pos hu]
    rfl
  · rw [if_neg hu, if_neg hu]
    cases returns c 64 (begun c s) <;> rfl

end

/-! ### The lengths of the blocks -/

section
variable (s : State)

theorem gridBlock_length : (gridBlock s).length = 32 := by
  simp only [gridBlock, List.length_append, leBytes_length]

theorem timeBlock_length : (timeBlock s).length = 128 := by
  simp only [timeBlock, List.length_append, leBytes_length, zeros_length, gridBlock_length]

theorem powerBlock_length : (powerBlock s).length = 64 := by
  simp only [powerBlock, List.length_append, leBytes_length, zeros_length]

theorem keyStatusBlock_length (x : SecSt) : (keyStatusBlock x).length = 576 := by
  have hslots := flatMap_length_const (List.range 32) (fun i =>
    let k := x.slots.getD i {}
    leBytes 4 (k.use + place k.alg 4 1 + place (flag (k.use == 1 || k.use == 2)) 5 1) ++ leBytes 4 k.ctr ++
      leBytes 4 k.kcv ++ leBytes 4 k.loadSec) 16 fun _ _ => by simp only [List.length_append, leBytes_length]
  unfold keyStatusBlock
  rw [List.length_append, padTo_length, hslots, List.length_range]

theorem testResult_length (k : Nat) (x : TestRes) : (TestRes.encode k x).length = 64 := padTo_length ..

theorem logicReadBlock_length (k : Nat) : (logicReadBlock s k).length = 4352 := by
  unfold logicReadBlock
  extract_lets x i d c bank ids bits forced
  have hids (b : Bank) : (ids b).length = 8 := by
    unfold ids
    split
    · rfl
    · simp only [List.length_append, leBytes_length]
  have hbits (n : Nat) (p : Nat → Bool) : (bits n p).length = n / 8 := leBytes_length ..
  simp only [List.length_append, leBytes_length, zeros_length, hids, hbits]
  rw [flatMap_length_const (List.range 64) _ 8, flatMap_length_const (List.range 256) _ 8, flatMap_length_const (List.range 256) _ 4]
  · simp only [List.length_range]
  · exact fun _ _ => leBytes_length ..
  · exact fun _ _ => by simp only [List.length_append, leBytes_length]
  · intro j _
    split
    · simp only [List.length_append, leBytes_length]
    · rfl

theorem capacityBlock_length : (capacityBlock s).length = 256 := by
  unfold capacityBlock
  extract_lets v cost costs err
  have hcosts : costs.length = 8 := by simp only [costs, List.length_map, List.length_range]
  simp only [List.length_append, leBytes_length, zeros_length]
  rw [flatMap_length_const costs _ 4, flatMap_length_const (List.range 7) _ 12, flatMap_length_const (List.range 8) _ 4, hcosts]
  · simp only [List.length_range]
  · exact fun _ _ => leBytes_length ..
  · exact fun _ _ => by simp only [List.length_append, leBytes_length]
  · exact fun _ _ => leBytes_length ..

theorem sourceSummary_length : (sourceSummary s).length = 368 := by
  unfold sourceSummary
  rw [flatMap_length_const (List.range 23) _ 16 fun _ _ => by simp only [List.length_append, leBytes_length], List.length_range]

theorem sliceBlock_length (k : Nat) : (sliceBlock s k).length = 32 := by
  simp only [sliceBlock, List.length_append, leBytes_length, zeros_length]

theorem sectionPart_length (k : Nat) : (sectionPart s k).length = 64 := by
  unfold sectionPart
  extract_lets r b on kir vag cnt counts w0 if_
  have hshown (n : Nat) : (if on then measured n else zeros 4).length = 4 := by
    split
    · exact leBytes_length ..
    · rfl
  simp only [List.length_append, leBytes_length, zeros_length, hshown]
  rw [flatMap_length_const (List.range 3) _ 4 fun _ _ => hshown _, List.length_range]

/-- The parts of SUPV.COUNT by the UNIT that names them. -/
theorem supvPart_length {u : Nat} {p : Bytes} (h : supvPart s u = some p) :
    p.length = if u = 0 then 256 else if u = 1 then 368 else if u = 0x100 then 1632 else 64 := by
  unfold supvPart at h
  simp only [beq_iff_eq] at h
  split at h
  · next hu =>
    rw [if_pos hu, ← Option.some.inj h]
    exact capacityBlock_length s
  · next hu0 =>
    rw [if_neg hu0]
    split at h
    · next hu =>
      rw [if_pos hu, ← Option.some.inj h]
      exact sourceSummary_length s
    · next hu1 =>
      rw [if_neg hu1]
      split at h
      · next hu =>
        rw [if_pos hu, ← Option.some.inj h, flatMap_length_const _ _ 32 fun k _ => sliceBlock_length s k, List.length_range]
      · next hu =>
        rw [if_neg hu]
        split at h
        · rw [← Option.some.inj h]
          exact sectionPart_length ..
        · cases h

theorem statsBlocks_length (k : Nat) : (svStatsBlock s k).length = 64 ∧ (svPubStats s k).length = 64 ∧ (goStatsBlock s k).length = 64 ∧
    (goPubStats s k).length = 64 :=
  ⟨padTo_length .., padTo_length .., padTo_length .., padTo_length ..⟩

end

/-- Settles O17: each command answers its block at once, and the blocks are sums of parts of known length. -/
theorem readingCommands : Obligations.ReadingCommands := by
  unfold Obligations.ReadingCommands
  refine ⟨⟨?_, fun s => ⟨timeBlock_length s, powerBlock_length s, keyStatusBlock_length s.sec, logicReadBlock_length s, testResult_length,
    fun u p => supvPart_length s⟩⟩, ?_, statsBlocks_length⟩
  · rintro c s _ f h rfl
    exact ⟨fun hp => ⟨exec_timeRead h hp, exec_pwrStatus h hp, exec_keyStatus h hp⟩, exec_testResult h, exec_supvCount h, exec_logicRead h,
      fun hp => ⟨exec_recList_status h hp, fun hmode x => exec_recList_info h hp hmode, exec_recList_unknown h hp,
        fun hmode l hl n => exec_recList_descriptors h hp hmode hl⟩⟩
  · rintro c s _ f h rfl
    exact ⟨exec_svStats h, exec_gooseStats h⟩

end Sys2Proof.Machine.Laws
end

section
/-! SUPPORT. The auxiliary converter: what supervision of the trip circuits and the writes of the result block leave of it, the
sequencer, and urgent requests (R173-R178, R383). -/

namespace Sys2Proof.Machine.Laws
open Sys2Proof Sys2Proof.Machine

/-! ### Lists and events -/

section
variable {α β : Type}

theorem getD_modAt_same {l : List α} {i : Nat} (f : α → α) (d : α) (h : i < l.length) : (modAt l i f).getD i d = f (l.getD i d) := by
  simp [modAt, List.getD_eq_getElem?_getD, h]

theorem getD_modAt_ne (l : List α) {i k : Nat} (f : α → α) (d : α) (h : k ≠ i) : (modAt l i f).getD k d = l.getD k d := by
  simp [modAt, List.getD_eq_getElem?_getD, List.getElem?_modify_ne _ _ h.symm]

/-- What the update of one element leaves of every element is left of each place of the list. -/
theorem getD_modAt_of_kept (l : List α) (i : Nat) {f : α → α} (d : α) (p : α → β) (h : ∀ x, p (f x) = p x) (k : Nat) :
    p ((modAt l i f).getD k d) = p (l.getD k d) := by
  by_cases hk : k = i
  · subst hk
    by_cases hlt : k < l.length
    · rw [getD_modAt_same f d hlt, h]
    · have hnone : l[k]? = none := List.getElem?_eq_none (Nat.le_of_not_lt hlt)
      rw [List.getD_eq_getElem?_getD, List.getD_eq_getElem?_getD, modAt, List.getElem?_modify_eq, hnone]
      rfl
  · rw [getD_modAt_ne l f d hk]

end

section
variable {s t : State}
theorem aux_of_unsupervised (h : unsupervised t = unsupervised s) : t.aux = s.aux := (congrArg State.aux h :)
theorem acq_of_unsupervised (h : unsupervised t = unsupervised s) : t.acq = s.acq := (congrArg State.acq h :)
end

/-! ### Supervision of the trip circuits (R383) -/

/-- The clocks and the auxiliary converter. -/
def clkAux (s : State) : Clock × AuxSt := (s.clk, s.aux)

section
variable (s : State)

theorem clkAux_ite (p : Prop) [Decidable p] (t : State) : clkAux (if p then s else t) = if p then clkAux s else clkAux t := apply_ite ..

theorem clkAux_setPin (p : Nat) (f : PinSt → PinSt) : clkAux (setPin p f s) = clkAux s := rfl

theorem clkAux_tcsChange (p : Nat) (alarm : Bool) : clkAux (tcsChange p alarm s) = clkAux s := by
  unfold tcsChange
  rw [clkAux, postEvent_clk, postEvent_aux]
  exact (congrArg clkAux (raiseIrq_onlyEvents Irq.supv _) :)

theorem clkAux_tcsStep (p : Nat) : clkAux (tcsStep p s) = clkAux s := by
  unfold tcsStep
  dsimp only
  cases tcsMean s p with
  | none => simp only [clkAux_ite, clkAux_setPin, ite_self]
  | some m => simp only [clkAux_ite, clkAux_setPin, clkAux_tcsChange, ite_self]

theorem clkAux_tcsAll : clkAux (tcsAll s) = clkAux s :=
  List.foldlRecOn (motive := fun t => clkAux t = clkAux s) _ _ rfl fun t ht p _ => (clkAux_tcsStep t p).trans ht

@[simp] theorem tcsAll_clk : (tcsAll s).clk = s.clk := congrArg Prod.fst (clkAux_tcsAll s)
@[simp] theorem tcsAll_aux : (tcsAll s).aux = s.aux := congrArg Prod.snd (clkAux_tcsAll s)

end

/-! ### The result block (R174) -/

/-- The converter without the marks of which slots of its block have been written. -/
def unmarked (a : AuxSt) : AuxSt := { a with wroteMs := [], dirty := [] }

section
variable {a b : AuxSt} (h : unmarked b = unmarked a)
include h
theorem cfg_of_unmarked : b.cfg = a.cfg := (congrArg AuxSt.cfg h :)
theorem entry_of_unmarked : b.entry = a.entry := (congrArg AuxSt.entry h :)
theorem cur_of_unmarked : b.cur = a.cur := (congrArg AuxSt.cur h :)
theorem pass_of_unmarked : b.pass = a.pass := (congrArg AuxSt.pass h :)
theorem converting_of_unmarked : b.converting = a.converting := (congrArg AuxSt.converting h :)
theorem results_of_unmarked : b.results = a.results := (congrArg AuxSt.results h :)
theorem urgent_of_unmarked : b.urgent = a.urgent := (congrArg AuxSt.urgent h :)
theorem urgRunning_of_unmarked : b.urgRunning = a.urgRunning := (congrArg AuxSt.urgRunning h :)
end

section
variable (s : State) (p6 : Bool) (k : Nat)

@[simp] theorem memWriteIf_clk (sp : Space) (n : Nat) (b : Bytes) : (memWriteIf sp n b s).clk = s.clk :=
  clk_of_clkMode (clkMode_memWriteIf s sp n b)

@[simp] theorem memWriteIf_aux (sp : Space) (n : Nat) (b : Bytes) : (memWriteIf sp n b s).aux = s.aux := by
  simp [memWriteIf, memWrite, apply_ite State.aux]

theorem writeSlot_frame : (writeSlot k s).clk = s.clk ∧ unmarked (writeSlot k s).aux = unmarked s.aux := by
  unfold writeSlot
  dsimp only
  split
  · exact ⟨rfl, rfl⟩
  · rw [memWriteIf_clk, memWriteIf_aux]
    exact ⟨rfl, rfl⟩

theorem dropSlot_frame : (dropSlot k s).clk = s.clk ∧ unmarked (dropSlot k s).aux = unmarked s.aux := by
  unfold dropSlot
  dsimp only
  split <;> exact ⟨rfl, rfl⟩

/-- However a slot is offered, only the marks of the slots and the block in memory change. -/
theorem offerSlot_frame : (offerSlot p6 k s).clk = s.clk ∧ unmarked (offerSlot p6 k s).aux = unmarked s.aux := by
  unfold offerSlot
  split
  · exact ⟨rfl, rfl⟩
  · split
    · exact dropSlot_frame s k
    · exact writeSlot_frame s k

end

/-! ### The sequencer (R173) -/

section
variable {i now : Nat} {a : AuxSt}

theorem startEntry_urgent (i now : Nat) (a : AuxSt) :
    (startEntry i now a).urgent = a.urgent ∧ (startEntry i now a).urgRunning = a.urgRunning := by
  unfold startEntry
  split <;> exact ⟨rfl, rfl⟩

/-- An entry of the table starts with no code gathered, in the pass in progress or, the first one, in a pass more. -/
theorem startEntry_of_lt (h : i < a.cfg.entries.length) : (startEntry i now a).converting = true ∧ (startEntry i now a).delayEnd = none ∧
    (startEntry i now a).entry = i ∧ (startEntry i now a).cur.n = 0 ∧
    (startEntry i now a).pass = if i = 0 then (a.pass + 1) % 256 else a.pass := by
  unfold startEntry
  rw [List.getElem?_eq_getElem h]
  refine ⟨rfl, rfl, rfl, rfl, ?_⟩
  simp only [convFrom, beq_iff_eq]

theorem nextEntry_of_lt (h : a.entry + 1 < a.cfg.entries.length) : nextEntry a = a.entry + 1 := if_pos h

theorem nextEntry_lt (h : a.cfg.entries ≠ []) : nextEntry a < a.cfg.entries.length := by
  unfold nextEntry
  split
  · assumption
  · exact List.length_pos_iff.mpr h

/-- The pass is opened anew exactly where the next entry is the first. -/
theorem pass_nextEntry (a : AuxSt) (x y : Nat) :
    (if nextEntry a = 0 then x else y) = if a.entry + 1 < a.cfg.entries.length then y else x := by
  unfold nextEntry
  split
  · rw [if_neg (Nat.succ_ne_zero _)]
  · rw [if_pos rfl]

end

section
variable (v : Nat) (p6 : Bool) (s : State)

/-- The end of the conversion in progress: its code joins what its entry has gathered, and the next conversion begins. -/
def codeJoined : State :=
  setAux (fun a => convFrom (s.clk.advance s.aux.convEnd).mono { a with
    latest := a.latest.set a.cur.input v
    cur := { a.cur with
      sum := a.cur.sum + v, min := min a.cur.min v, max := max a.cur.max v, last := v, n := a.cur.n + 1
      time := shortAt (setClk (·.advance s.aux.convEnd) s) a.convAt } }) (setClk (·.advance s.aux.convEnd) s)

/-- The converter with the result in progress taken as its entry's, and any means. -/
def withResult (means : List (Option (Nat × Nat))) (a : AuxSt) : AuxSt := { a with results := a.results.set a.entry a.cur, means := means }

/-- A result that is complete becomes its entry's; beyond it only the means and the marks of the slots move. -/
theorem entryDone_frame : (entryDone p6 s).clk = s.clk ∧
    ∃ means, unmarked (entryDone p6 s).aux = unmarked (withResult means s.aux) := by
  unfold entryDone
  simp only [modAt_const]
  rw [(offerSlot_frame _ p6 _).1, (offerSlot_frame _ p6 _).2]
  exact ⟨rfl, _, rfl⟩

variable {v p6 s}

theorem auxConverted_of_none (h : s.aux.converting = false ∨ s.aux.aborted = true ∨ s.aux.urgRunning ≠ none) : auxConverted v p6 s = s := by
  unfold auxConverted
  refine if_pos ?_
  simpa only [Bool.or_eq_true, Bool.not_eq_true', Option.isSome_iff_ne_none, or_assoc] using h

section
variable (hconv : s.aux.converting = true) (habort : s.aux.aborted = false) (hurg : s.aux.urgRunning = none)
include hconv habort hurg

theorem auxConverted_of_discard (h : s.aux.discard = true) : auxConverted v p6 s = { s with
    clk := s.clk.advance s.aux.convEnd
    aux := { s.aux with
      discard := false, convAt := (s.clk.advance s.aux.convEnd).mono
      convEnd := (s.clk.advance s.aux.convEnd).mono + convTime s.aux } } := by
  unfold auxConverted
  dsimp only
  rw [if_neg (by simp [hconv, habort, hurg]), if_pos h]
  rfl

variable (hkeep : s.aux.discard = false) {e : AuxEntry} (he : s.aux.cfg.entries[s.aux.entry]? = some e)
include hkeep he

/-- A code that its entry keeps is one of several, or the last one, which completes the result. -/
theorem auxConverted_of_entry : auxConverted v p6 s =
    if s.aux.cur.n + 1 ≤ e.repeat_ then codeJoined v s
    else if e.delay = 0 then
      setAux (fun a => startEntry (nextEntry a) (entryDone p6 (codeJoined v s)).clk.mono a) (entryDone p6 (codeJoined v s))
    else
      setAux (fun a => { a with converting := false, delayEnd := some ((entryDone p6 (codeJoined v s)).clk.mono + usU e.delay) })
        (entryDone p6 (codeJoined v s)) := by
  simp only [auxConverted, hconv, habort, hurg, hkeep, Option.isSome_none, Bool.not_true, Bool.or_self, Bool.false_eq_true, if_false,
    he, beq_iff_eq]
  rfl

end
end

/-! ### Urgent requests (R175-R177) -/

section
variable {now k : Nat} {a : AuxSt}

theorem nextUrgent_of_brownOut (h : (a.urgent.getD 1 {}).waits = true) : nextUrgent a = some 1 := if_pos h

theorem nextUrgent_of_pin (h : (a.urgent.getD 1 {}).waits = false) (h0 : (a.urgent.getD 0 {}).waits = true) : nextUrgent a = some 0 := by
  rw [nextUrgent, h, h0]
  rfl

theorem nextUrgent_of_none (h : (a.urgent.getD 1 {}).waits = false) (h0 : (a.urgent.getD 0 {}).waits = false) : nextUrgent a = none := by
  rw [nextUrgent, h, h0]
  rfl

/-- Where an urgent conversion runs, or none waits, none starts. -/
theorem startUrgent_of_not (h : a.urgRunning ≠ none ∨ nextUrgent a = none) : startUrgent now a = a := by
  unfold startUrgent
  split
  · next hrun hnext => exact absurd h (by simp [hrun, hnext])
  · rfl

/-- Where none runs the next one starts; it aborts the sequencer's conversion and leaves what its entry has gathered. -/
theorem startUrgent_of_next (hrun : a.urgRunning = none) (hnext : nextUrgent a = some k) : (startUrgent now a).urgRunning = some k ∧
    (startUrgent now a).aborted = (a.aborted || a.converting) ∧ (startUrgent now a).entry = a.entry ∧
    (startUrgent now a).cur.n = a.cur.n := by
  unfold startUrgent
  rw [hrun, hnext]
  refine ⟨rfl, rfl, rfl, ?_⟩
  dsimp only
  split <;> rfl

/-- Serving a request touches no code that has been stored. -/
theorem startUrgent_code (now : Nat) (a : AuxSt) (j : Nat) :
    (((startUrgent now a).urgent.getD j {}).code, ((startUrgent now a).urgent.getD j {}).n) =
      ((a.urgent.getD j {}).code, (a.urgent.getD j {}).n) := by
  unfold startUrgent
  split
  · refine getD_modAt_of_kept _ _ _ (fun u : UrgentSt => (u.code, u.n)) (fun u => ?_) j
    unfold UrgentSt.serve
    split <;> rfl
  · rfl

end

section
variable {k : Nat} {s : State}

/-- A further request of a source whose request waits or runs is latched (R177). -/
theorem urgentRequest_of_first (h : (s.aux.urgent.getD k {}).waits = true ∨ s.aux.urgRunning = some k)
    (hl : (s.aux.urgent.getD k {}).latched = false) : urgentRequest k s =
      setAux (fun a => { a with urgent := modAt a.urgent k (fun u =>
        { u with latched := true, latchedCount := (u.latchedCount + 1) % 256 }) }) s := by
  unfold urgentRequest
  dsimp only
  rw [if_pos (by simpa only [Bool.or_eq_true, beq_iff_eq] using h), if_neg (by simp only [hl, Bool.false_eq_true, not_false_eq_true])]

/-- One beyond the latched request counts an overrun, and nothing else of the converter changes. -/
theorem urgentRequest_of_latched (h : (s.aux.urgent.getD k {}).waits = true ∨ s.aux.urgRunning = some k)
    (hl : (s.aux.urgent.getD k {}).latched = true) : (urgentRequest k s).aux =
      { s.aux with urgent := modAt s.aux.urgent k (fun u => { u with overruns := u.overruns + 1 }) } := by
  have hreq : urgentRequest k s = urgentOverrun k s := by
    unfold urgentRequest
    dsimp only
    rw [if_pos (by simpa only [Bool.or_eq_true, beq_iff_eq] using h), if_pos hl]
  rw [hreq, urgentOverrun, aux_of_unsupervised ((unsupervised_settle _).trans (unsupervised_countEvent _ 8 k))]
  rfl

/-- The converter with a request of a source entered. -/
def withRequest (k : Nat) (a : AuxSt) : AuxSt := { a with urgent := modAt a.urgent k (fun u => { u with pending := true }) }

/-- The first request of a source is entered, and starts where no urgent conversion runs. -/
theorem urgentRequest_of_new (hw : (s.aux.urgent.getD k {}).waits = false) (hr : s.aux.urgRunning ≠ some k) :
    urgentRequest k s = setAux (fun a => startUrgent (urgentStart s) (withRequest k a)) s := by
  unfold urgentRequest
  dsimp only
  rw [if_neg (by simpa only [Bool.or_eq_true, beq_iff_eq, hw, Bool.false_eq_true, false_or] using hr)]
  rfl

theorem withRequest_pending {a : AuxSt} (hk : k < a.urgent.length) : ((withRequest k a).urgent.getD k {}).pending = true := by
  rw [withRequest, getD_modAt_same _ _ hk]

theorem withRequest_waits {a : AuxSt} (hk : k < a.urgent.length) : ((withRequest k a).urgent.getD k {}).waits = true := by
  rw [UrgentSt.waits, withRequest_pending hk, Bool.true_or]

/-- The brown-out sense is served at once, the URG pin where the brown-out sense does not wait (R176). -/
theorem nextUrgent_withRequest {a : AuxSt} (hk : k < 2) (hlen : a.urgent.length = 2) (h : k = 1 ∨ (a.urgent.getD 1 {}).waits = false) :
    nextUrgent (withRequest k a) = some k := by
  have hself : ((withRequest k a).urgent.getD k {}).waits = true := withRequest_waits (by omega)
  rcases (by omega : k = 1 ∨ k = 0) with rfl | rfl
  · exact nextUrgent_of_brownOut hself
  · refine nextUrgent_of_pin ?_ hself
    rw [withRequest, getD_modAt_ne _ _ _ Nat.one_ne_zero]
    exact h.resolve_left Nat.zero_ne_one

/-- The code of the urgent conversion that ends is stored, with N = 1 (R177). -/
def urgentStored (code k : Nat) (s : State) : State :=
  setAux (fun a =>
    { a with
      urgRunning := none, latest := a.latest.set (if k == 1 then 16 else s.aux.cfg.urgInput) code
      urgent := modAt a.urgent k (fun u =>
        { u with code := code, n := 1, time := shortAt (setClk (·.advance s.aux.urgEnd) s) a.urgAt }) })
    (setClk (·.advance s.aux.urgEnd) s)

/-- Where no urgent conversion follows, the aborted conversion starts again, or the entry whose delay has ended (R176). -/
def resumed (now : Nat) (a : AuxSt) : AuxSt :=
  if a.urgRunning.isSome then a
  else if a.converting then convFrom now { a with aborted := false }
  else match a.delayEnd with
    | some t => if t ≤ now then startEntry (nextEntry a) now a else a
    | none => a

theorem resumed_urgent (now : Nat) (a : AuxSt) : (resumed now a).urgent = a.urgent ∧ (resumed now a).urgRunning = a.urgRunning := by
  unfold resumed
  split
  · exact ⟨rfl, rfl⟩
  · split
    · exact ⟨rfl, rfl⟩
    · split
      · split
        · exact startEntry_urgent ..
        · exact ⟨rfl, rfl⟩
      · exact ⟨rfl, rfl⟩

theorem resumed_of_converting {now : Nat} {a : AuxSt} (hr : a.urgRunning = none) (hc : a.converting = true) :
    (resumed now a).aborted = false ∧ (resumed now a).cur = a.cur := by
  unfold resumed
  rw [hr, hc]
  exact ⟨rfl, rfl⟩

variable {x : AuxCode}

theorem exec_urgentConversionDone_of_running (h : s.aux.urgRunning = some k) : exec (.urgentConversionDone x) s = .next
    (setAux (fun a => resumed (s.clk.advance s.aux.urgEnd).mono (startUrgent (s.clk.advance s.aux.urgEnd).mono a))
      (offerSlot x.p6 (64 + k) (urgentStored x.code.toNat k s))) := by
  have hrow : exec (.urgentConversionDone x) s = execUrgentConversionDone x s := rfl
  rw [hrow, execUrgentConversionDone, h]
  rfl

/-- Storing a code leaves every source waiting that waited. -/
theorem urgentStored_waits (code j : Nat) : ((urgentStored code k s).aux.urgent.getD j {}).waits = (s.aux.urgent.getD j {}).waits := by
  unfold urgentStored
  refine getD_modAt_of_kept _ _ _ UrgentSt.waits (fun _ => ?_) j
  rfl

theorem urgentStored_code (code : Nat) (hk : k < s.aux.urgent.length) : ((urgentStored code k s).aux.urgent.getD k {}).code = code ∧
    ((urgentStored code k s).aux.urgent.getD k {}).n = 1 := by
  unfold urgentStored
  rw [setAux_aux, setClk_aux]
  dsimp only
  rw [getD_modAt_same _ _ hk]
  exact ⟨rfl, rfl⟩

/-- What follows an urgent conversion: the state it ends in, with the marks of the slots left open. -/
theorem exec_urgentConversionDone_aux (h : s.aux.urgRunning = some k) : ∃ now b t, exec (.urgentConversionDone x) s = .next t ∧
    t.clk = s.clk.advance s.aux.urgEnd ∧ unmarked b = unmarked (urgentStored x.code.toNat k s).aux ∧
    t.aux = resumed now (startUrgent now b) := by
  obtain ⟨hclk, haux⟩ := offerSlot_frame (urgentStored x.code.toNat k s) x.p6 (64 + k)
  exact ⟨_, _, _, exec_urgentConversionDone_of_running h, hclk, haux, rfl⟩

end
end Sys2Proof.Machine.Laws
end

section
/-! SUPPORT. Background calibration: what an update of one group leaves of the others, what a failure of a unit changes, and where the
end of each phase leads (R160-R165). -/

namespace Sys2Proof.Machine.Laws
open Sys2Proof Sys2Proof.Machine

/-! ### One group of the three -/

/-- From `s` to `t` group `g` becomes `c`, and no other group changes. -/
def GroupBecomes (g : Nat) (c : CalGroup) (s t : State) : Prop :=
  t.acq.groups.length = s.acq.groups.length ∧ calGroup t g = c ∧ ∀ k, k ≠ g → calGroup t k = calGroup s k

section
variable {s t u : State} {g : Nat}

theorem GroupBecomes.of_groups (h : t.acq.groups = s.acq.groups) : GroupBecomes g (calGroup s g) s t := by
  have hsame : calGroup t = calGroup s := by
    unfold calGroup
    rw [h]
  exact ⟨congrArg _ h, congrFun hsame g, fun k _ => congrFun hsame k⟩

theorem GroupBecomes.trans {c d : CalGroup} (h : GroupBecomes g c s t) (k : GroupBecomes g d t u) : GroupBecomes g d s u :=
  ⟨k.1.trans h.1, k.2.1, fun j hj => (k.2.2 j hj).trans (h.2.2 j hj)⟩

theorem groupBecomes_setGroup (hg : g < s.acq.groups.length) (f : CalGroup → CalGroup) :
    GroupBecomes g (f (calGroup s g)) s (setGroup g f s) :=
  ⟨List.length_modify .., getD_modAt_same _ _ hg, fun _ hk => getD_modAt_ne _ _ _ hk⟩

/-- An update of the group goes on from what it became. -/
theorem GroupBecomes.setGroup {c : CalGroup} (h : GroupBecomes g c s t) (hg : g < s.acq.groups.length) (f : CalGroup → CalGroup) :
    GroupBecomes g (f c) s (setGroup g f t) := by
  have hset := groupBecomes_setGroup (s := t) (h.1 ▸ hg) f
  rw [h.2.1] at hset
  exact h.trans hset

/-- What leaves the groups leaves what the group became. -/
theorem GroupBecomes.of_same {c : CalGroup} (h : GroupBecomes g c s t) (hu : u.acq.groups = t.acq.groups) : GroupBecomes g c s u := by
  have hsame := GroupBecomes.of_groups (g := g) hu
  rw [h.2.1] at hsame
  exact h.trans hsame

end

/-! ### A failure of a unit (R162, R164) -/

section
variable {s : State} {g unit : Nat}

theorem noteTest_acq (unit : Nat) (pass : Bool) (s : State) : (noteTest unit pass s).acq = s.acq := by
  unfold noteTest
  split
  · split <;> rfl
  · rfl

theorem retireRecord_acq (unit phase : Nat) (ofs gc : Int) (s : State) : (retireRecord unit phase ofs gc s).acq = s.acq := by
  rw [retireRecord, acq_of_unsupervised ((unsupervised_raiseIrq _ _).trans (unsupervised_postEvent ..))]

/-- A unit of a group: one of its slices, or its spare. -/
def UnitOf (g unit : Nat) : Prop := unit < 48 → unit / 16 = g

theorem unitOf_slice {i : Nat} (hi : i < 16) : UnitOf g (16 * g + i) := fun _ => by omega

theorem unitOf_spare : UnitOf g (spareOf g) := fun h => absurd h (by unfold spareOf; omega)

/-- A group with the slice that its spare serves for good, if any. -/
def boundTo (b : Option Nat) (c : CalGroup) : CalGroup := { c with bound := b }

theorem retireUnit_acq (unit phase : Nat) (ofs gc : Int) (s t : State) (ht : t = setSlice unit (fun u => { u with retired := true }) s) :
    (retireUnit unit phase ofs gc s).acq =
      (if (unit < 48 && groupCals t (unit / 16)) = true then setGroup (unit / 16) (boundTo (some unit)) t else t).acq := by
  unfold retireUnit
  rw [retireRecord_acq, ht]
  split <;> rfl

/-- A unit retired changes at most the slice to which its group's spare is bound. -/
theorem retireUnit_becomes (hunit : UnitOf g unit) (hg : g < s.acq.groups.length) (phase : Nat) (ofs gc : Int) :
    ∃ b, GroupBecomes g (boundTo b (calGroup s g)) s (retireUnit unit phase ofs gc s) := by
  have hslice : GroupBecomes g (calGroup s g) s (setSlice unit (fun u => { u with retired := true }) s) := .of_groups rfl
  have hacq := congrArg AcqSt.groups (retireUnit_acq unit phase ofs gc s _ rfl)
  split at hacq
  · next hfree =>
    simp only [Bool.and_eq_true, decide_eq_true_eq] at hfree
    rw [hunit hfree.1] at hacq
    exact ⟨some unit, (hslice.setGroup hg _).of_same hacq⟩
  · exact ⟨(calGroup s g).bound, hslice.of_same hacq⟩

theorem calFailure_becomes (hunit : UnitOf g unit) (hg : g < s.acq.groups.length) (phase : Nat) (ofs gc : Int) :
    ∃ b, GroupBecomes g (boundTo b (calGroup s g)) s (calFailure unit phase ofs gc s) := by
  have hcount : GroupBecomes g (calGroup s g) s
      (countEvent 7 unit (setSlice unit (fun u => { u with calFails := satN 16 (u.calFails + 1) }) s)) := by
    refine .of_groups ?_
    rw [acq_of_unsupervised (unsupervised_countEvent _ 7 unit)]
    rfl
  unfold calFailure
  dsimp only
  split
  · obtain ⟨b, hb⟩ := retireUnit_becomes hunit (hcount.1 ▸ hg) phase ofs gc
    rw [hcount.2.1] at hb
    exact ⟨b, hcount.trans hb⟩
  · exact ⟨(calGroup s g).bound, hcount⟩

end

/-! ### The end of a phase (R160-R164) -/

/-- Phase `p` of the step in progress begins now. -/
def enterPhase (g p : Nat) (s : State) : State := setGroup g (fun c => { c with phase := p, begun := s.clk.mono, due := none }) s

/-- The results of phase 3, not yet in use. -/
def measured (g : Nat) (m : CalMeas) (s : State) : State :=
  setGroup g (fun c => { c with
    ofsNew := [m.ofs.getD 0 0, m.ofs.getD 1 0, m.ofs.getD 2 0], gcNew := [m.gc.getD 0 0, m.gc.getD 1 0, m.gc.getD 2 0] }) s

/-- The results of the step come into use, and the slice and its spare have passed it (R161). -/
def resultsUsed (g : Nat) (s : State) : State :=
  let passed (u : SliceSt) : SliceSt := { u with calAt := s.clk.mono, calSteps := (u.calSteps + 1) % 65536 }
  setSlice (spareOf g) passed (setSlice (16 * g + (calGroup s g).idx)
    (fun u => { passed u with ofs := (calGroup s g).ofsNew, gc := (calGroup s g).gcNew }) s)

section
variable {s : State} {g : Nat} {m : CalMeas}

/-- Phase 1 of the next slice, or of the slice in progress, begins from what the group became. -/
theorem GroupBecomes.beginStep {t : State} {c : CalGroup} (h : GroupBecomes g c s t) (hg : g < s.acq.groups.length) (idx : Nat) :
    ∃ e, GroupBecomes g e s (beginStep g idx t) ∧ e.phase = 1 ∧ e.idx = idx :=
  ⟨_, h.setGroup hg _, rfl, rfl⟩

theorem GroupBecomes.nextSlice {t : State} {c : CalGroup} (h : GroupBecomes g c s t) (hg : g < s.acq.groups.length) :
    ∃ e, GroupBecomes g e s (nextSlice g t) ∧ e.phase = 1 ∧ e.idx = (c.idx + 1) % 16 := by
  rw [Machine.nextSlice, h.2.1]
  exact h.beginStep hg _

theorem GroupBecomes.enterPhase {t : State} {c : CalGroup} (h : GroupBecomes g c s t) (hg : g < s.acq.groups.length) (p : Nat) :
    ∃ e, GroupBecomes g e s (enterPhase g p t) ∧ e.phase = p ∧ e.idx = c.idx ∧ e.ofsNew = c.ofsNew :=
  ⟨_, h.setGroup hg _, rfl, rfl, rfl⟩

theorem GroupBecomes.noteTest {t : State} {c : CalGroup} (h : GroupBecomes g c s t) (unit : Nat) (pass : Bool) :
    GroupBecomes g c s (noteTest unit pass t) :=
  h.of_same (congrArg AcqSt.groups (noteTest_acq ..))

/-! What the end of each phase is, whatever the record of a failure carries. -/

theorem endPhase_one (h : (calGroup s g).phase = 1) :
    (∃ t, t.acq.groups = s.acq.groups ∧ (endPhase g m s = beginStep g (calGroup s g).idx t ∨ endPhase g m s = enterPhase g 2 t)) ∨
    ∃ ofs gc, endPhase g m s =
      nextSlice g (noteTest (spareOf g) false (noteTest (16 * g + (calGroup s g).idx) false (calFailure (spareOf g) 1 ofs gc s))) := by
  unfold endPhase
  extract_lets c slice spare idle gain ofs gc go
  have hphase : c.phase = 1 := h
  clear_value gain
  simp only [hphase]
  split
  · split
    · refine .inl ⟨_, ?_, .inl rfl⟩
      rw [noteTest_acq]
      rfl
    · exact .inl ⟨_, (rfl : (setSlice _ _ s).acq.groups = _), .inr rfl⟩
  · exact .inr ⟨_, _, rfl⟩

theorem endPhase_two_passed (h : (calGroup s g).phase = 2) (hp : (calGroup s g).idle = true ∨ diffOk m.mean m.rms = true) :
    endPhase g m s = enterPhase g 3 s := by
  unfold endPhase
  simp only [h]
  exact if_pos ((Bool.or_eq_true ..).mpr hp)

theorem endPhase_two_failed (h : (calGroup s g).phase = 2) (hi : (calGroup s g).idle = false) (hd : diffOk m.mean m.rms = false) :
    ∃ ofs gc, endPhase g m s =
      nextSlice g (noteTest (16 * g + (calGroup s g).idx) false (calFailure (spareOf g) 2 ofs gc s)) := by
  unfold endPhase
  simp only [h, hi, hd]
  exact ⟨_, _, rfl⟩

theorem endPhase_three_passed (h : (calGroup s g).phase = 3)
    (hp : [0, 1, 2].all (fun k => calOk (m.ofs.getD k 0) (m.gc.getD k 0)) = true) :
    endPhase g m s = enterPhase g 4 (measured g m s) := by
  unfold endPhase
  simp only [h]
  exact if_pos hp

theorem endPhase_three_failed (h : (calGroup s g).phase = 3)
    (hp : [0, 1, 2].all (fun k => calOk (m.ofs.getD k 0) (m.gc.getD k 0)) = false) :
    ∃ ofs gc, endPhase g m s = enterPhase g 3 (noteTest (16 * g + (calGroup s g).idx) false
      (calFailure (16 * g + (calGroup s g).idx) 3 ofs gc (measured g m s))) := by
  unfold endPhase
  simp only [h, hp]
  exact ⟨_, _, rfl⟩

theorem endPhase_four_passed (h : (calGroup s g).phase = 4) (hp : (calGroup s g).idle = true ∨ diffOk m.mean m.rms = true) :
    endPhase g m s = nextSlice g (noteTest (16 * g + (calGroup s g).idx) true (resultsUsed g s)) := by
  unfold endPhase
  simp only [h]
  exact if_pos ((Bool.or_eq_true ..).mpr hp)

theorem endPhase_four_failed (h : (calGroup s g).phase = 4) (hi : (calGroup s g).idle = false) (hd : diffOk m.mean m.rms = false) :
    ∃ ofs gc, endPhase g m s = enterPhase g 3 (noteTest (16 * g + (calGroup s g).idx) false
      (calFailure (16 * g + (calGroup s g).idx) 4 ofs gc s)) := by
  unfold endPhase
  simp only [h, hi, hd]
  exact ⟨_, _, rfl⟩

/-! ### Where the group goes on -/

section
variable (hg : g < s.acq.groups.length)
include hg

theorem measured_becomes : ∃ e, GroupBecomes g e s (measured g m s) ∧ e.idx = (calGroup s g).idx ∧
    e.ofsNew = [m.ofs.getD 0 0, m.ofs.getD 1 0, m.ofs.getD 2 0] :=
  ⟨_, groupBecomes_setGroup hg _, rfl, rfl⟩

theorem endPhase_two_passed_becomes (h : (calGroup s g).phase = 2) (hp : (calGroup s g).idle = true ∨ diffOk m.mean m.rms = true) :
    ∃ e, GroupBecomes g e s (endPhase g m s) ∧ e.phase = 3 ∧ e.idx = (calGroup s g).idx := by
  obtain ⟨e, he, hphase, hidx, -⟩ := (GroupBecomes.of_groups (t := s) rfl).enterPhase hg 3
  rw [endPhase_two_passed h hp]
  exact ⟨e, he, hphase, hidx⟩

theorem endPhase_two_failed_becomes (h : (calGroup s g).phase = 2) (hi : (calGroup s g).idle = false) (hd : diffOk m.mean m.rms = false) :
    ∃ e, GroupBecomes g e s (endPhase g m s) ∧ e.phase = 1 ∧ e.idx = ((calGroup s g).idx + 1) % 16 := by
  obtain ⟨ofs, gc, hend⟩ := endPhase_two_failed h hi hd
  obtain ⟨b, hfail⟩ := calFailure_becomes unitOf_spare hg 2 ofs gc
  rw [hend]
  exact (hfail.noteTest _ false).nextSlice hg

theorem endPhase_three_passed_becomes (h : (calGroup s g).phase = 3)
    (hp : [0, 1, 2].all (fun k => calOk (m.ofs.getD k 0) (m.gc.getD k 0)) = true) :
    ∃ e, GroupBecomes g e s (endPhase g m s) ∧ e.phase = 4 ∧ e.idx = (calGroup s g).idx ∧
      e.ofsNew = [m.ofs.getD 0 0, m.ofs.getD 1 0, m.ofs.getD 2 0] := by
  obtain ⟨c, hc, hidx, hofs⟩ := measured_becomes (m := m) hg
  rw [endPhase_three_passed h hp, ← hidx, ← hofs]
  exact hc.enterPhase hg 4

theorem endPhase_four_passed_becomes (h : (calGroup s g).phase = 4) (hp : (calGroup s g).idle = true ∨ diffOk m.mean m.rms = true) :
    ∃ e, GroupBecomes g e s (endPhase g m s) ∧ e.phase = 1 ∧ e.idx = ((calGroup s g).idx + 1) % 16 := by
  rw [endPhase_four_passed h hp]
  exact ((GroupBecomes.of_groups (t := resultsUsed g s) rfl).noteTest _ true).nextSlice hg

theorem endPhase_four_failed_becomes (h : (calGroup s g).phase = 4) (hidx : (calGroup s g).idx < 16) (hi : (calGroup s g).idle = false)
    (hd : diffOk m.mean m.rms = false) : ∃ e, GroupBecomes g e s (endPhase g m s) ∧ e.phase = 3 ∧ e.idx = (calGroup s g).idx := by
  obtain ⟨ofs, gc, hend⟩ := endPhase_four_failed h hi hd
  obtain ⟨b, hfail⟩ := calFailure_becomes (unitOf_slice hidx) hg 4 ofs gc
  obtain ⟨e, he, hphase, heidx, -⟩ := (hfail.noteTest (16 * g + (calGroup s g).idx) false).enterPhase hg 3
  rw [hend]
  exact ⟨e, he, hphase, heidx⟩

/-- Whatever a phase of a group ends with, the other groups stay as they are. -/
theorem endPhase_becomes (h1 : 1 ≤ (calGroup s g).phase) (h4 : (calGroup s g).phase ≤ 4) (hidx : (calGroup s g).idx < 16) :
    ∃ e, GroupBecomes g e s (endPhase g m s) := by
  have hdiff : ((calGroup s g).idle = true ∨ diffOk m.mean m.rms = true) ∨ (calGroup s g).idle = false ∧ diffOk m.mean m.rms = false := by
    by_cases hp : (calGroup s g).idle = true ∨ diffOk m.mean m.rms = true
    · exact .inl hp
    · exact .inr (by simpa only [not_or, Bool.not_eq_true] using hp)
  rcases (by omega : (calGroup s g).phase = 1 ∨ (calGroup s g).phase = 2 ∨ (calGroup s g).phase = 3 ∨ (calGroup s g).phase = 4)
    with h | h | h | h
  · rcases endPhase_one (m := m) h with ⟨t, ht, hend | hend⟩ | ⟨ofs, gc, hend⟩
    · rw [hend]
      exact ⟨_, ((GroupBecomes.of_groups ht).beginStep hg _).choose_spec.1⟩
    · rw [hend]
      exact ⟨_, ((GroupBecomes.of_groups ht).enterPhase hg 2).choose_spec.1⟩
    · obtain ⟨b, hfail⟩ := calFailure_becomes unitOf_spare hg 1 ofs gc
      rw [hend]
      exact ⟨_, (((hfail.noteTest _ false).noteTest _ false).nextSlice hg).choose_spec.1⟩
  · rcases hdiff with hp | ⟨hi, hd⟩
    · exact (endPhase_two_passed_becomes hg h hp).imp fun _ he => he.1
    · exact (endPhase_two_failed_becomes hg h hi hd).imp fun _ he => he.1
  · cases hp : [0, 1, 2].all (fun k => calOk (m.ofs.getD k 0) (m.gc.getD k 0)) with
    | true => exact (endPhase_three_passed_becomes hg h hp).imp fun _ he => he.1
    | false =>
      obtain ⟨ofs, gc, hend⟩ := endPhase_three_failed h hp
      obtain ⟨c, hc, -, -⟩ := measured_becomes (m := m) hg
      obtain ⟨b, hfail⟩ := calFailure_becomes (unitOf_slice hidx) (hc.1 ▸ hg) 3 ofs gc
      rw [hend]
      exact (((hc.trans hfail).noteTest _ false).enterPhase hg 3).imp fun _ he => he.1
  · rcases hdiff with hp | ⟨hi, hd⟩
    · exact (endPhase_four_passed_becomes hg h hp).imp fun _ he => he.1
    · exact (endPhase_four_failed_becomes hg h hidx hi hd).imp fun _ he => he.1

end

/-- The results of phase 3 come into use at the end of phase 4. -/
theorem endPhase_four_passed_slice (hg : g < 3) (h : (calGroup s g).phase = 4) (hidx : (calGroup s g).idx < 16)
    (hp : (calGroup s g).idle = true ∨ diffOk m.mean m.rms = true) (hlt : 16 * g + (calGroup s g).idx < s.acq.slices.length) :
    (sliceSt (endPhase g m s) (16 * g + (calGroup s g).idx)).ofs = (calGroup s g).ofsNew ∧
      (sliceSt (endPhase g m s) (16 * g + (calGroup s g).idx)).gc = (calGroup s g).gcNew := by
  have hne : 16 * g + (calGroup s g).idx ≠ spareOf g := by
    unfold spareOf
    omega
  have hslices : (endPhase g m s).acq.slices = (resultsUsed g s).acq.slices := by
    rw [endPhase_four_passed h hp]
    exact (congrArg AcqSt.slices (noteTest_acq (16 * g + (calGroup s g).idx) true (resultsUsed g s)) :)
  unfold sliceSt
  rw [hslices, resultsUsed]
  dsimp only [setSlice, setAcq]
  rw [getD_modAt_ne _ _ _ hne, getD_modAt_same _ _ hlt]
  exact ⟨rfl, rfl⟩

/-- The end of phase 3 puts nothing into use. -/
theorem endPhase_three_passed_slices (h : (calGroup s g).phase = 3)
    (hp : [0, 1, 2].all (fun k => calOk (m.ofs.getD k 0) (m.gc.getD k 0)) = true) : (endPhase g m s).acq.slices = s.acq.slices := by
  rw [endPhase_three_passed h hp]
  rfl

end

/-! ### The rows (R160, R165) -/

section
variable {s : State} {g : BitVec 2} {m : CalMeas}

theorem calRuns_iff {k : Nat} : calRuns s k = true ↔ k < 3 ∧ groupCals s k = true ∧ s.mode.mode ≠ .boot ∧ s.mode.mode ≠ .backup := by
  simp [calRuns, and_assoc]

theorem exec_calPhaseEnd (g : BitVec 2) (m : CalMeas) (s : State) : exec (.calPhaseEnd g m) s =
    .next (if calRuns s g.toNat = true then setGroup g.toNat (fun c => { c with due := some m }) s else s) := rfl

theorem exec_calPhaseEnd_of_none (h : s.mode.mode = .boot ∨ s.mode.mode = .backup ∨ g = 3 ∨ groupCals s g.toNat = false) :
    exec (.calPhaseEnd g m) s = .next s := by
  rw [exec_calPhaseEnd, if_neg]
  rw [calRuns_iff]
  rintro ⟨hlt, hcals, hboot, hbackup⟩
  rcases h with h | h | rfl | h
  · exact hboot h
  · exact hbackup h
  · exact absurd hlt (by decide)
  · exact Bool.false_ne_true (h.symm.trans hcals)

theorem exec_calPhaseEnd_of_runs (hboot : s.mode.mode ≠ .boot) (hbackup : s.mode.mode ≠ .backup) (hlt : g.toNat < 3)
    (hcals : groupCals s g.toNat = true) :
    exec (.calPhaseEnd g m) s = .next (setGroup g.toNat (fun c => { c with due := some m }) s) := by
  rw [exec_calPhaseEnd, if_pos (calRuns_iff.mpr ⟨hlt, hcals, hboot, hbackup⟩)]

/-- Where no phase has come to its nominal end, the boundary ends none (R160). -/
theorem calBoundary_of_none_due (h : ∀ g, g < 3 → (calGroup s g).due = none ∨
    s.clk.openedAt < (calGroup s g).begun + msU (phaseMs (calGroup s g).phase)) : calBoundary s = s := by
  refine List.foldlRecOn (motive := fun t => t = s) _ _ rfl ?_
  rintro _ rfl g hg
  dsimp only
  split
  · next m hm =>
    have hlate := (h g (List.mem_range.mp hg)).resolve_left (by simp [hm])
    exact if_neg (by simp [Nat.not_le.mpr hlate])
  · rfl

end
end Sys2Proof.Machine.Laws
end

section
/-! SUPPORT. The rows of the auxiliary converter and of background calibration (R160-R165, R173, R175-R177). -/

namespace Sys2Proof.Machine.Laws
open Sys2Proof Sys2Proof.Machine

/-! ### AUX_CONVERSION_DONE (R173) -/

section
variable {s : State} {x : AuxCode}

theorem exec_auxConversionDone (x : AuxCode) (s : State) :
    exec (.auxConversionDone x) s = .next (tcsAll (auxConverted x.code.toNat x.p6 s)) := rfl

section
variable (hconv : s.aux.converting = true) (habort : s.aux.aborted = false) (hurg : s.aux.urgRunning = none)
  (hkeep : s.aux.discard = false) {e : AuxEntry} (he : s.aux.cfg.entries[s.aux.entry]? = some e)
include hconv habort hurg hkeep he

/-- A code that is not its entry's last joins the result in progress, and the next conversion of the entry runs. -/
theorem exec_auxConversionDone_of_more (h : s.aux.cur.n + 1 ≤ e.repeat_) : ∃ t, exec (.auxConversionDone x) s = .next t ∧
    (t.clk, t.aux) = ((codeJoined x.code.toNat s).clk, (codeJoined x.code.toNat s).aux) := by
  rw [exec_auxConversionDone, auxConverted_of_entry hconv habort hurg hkeep he, if_pos h]
  exact ⟨_, rfl, clkAux_tcsAll _⟩

/-- The code of an entry's last conversion completes its result; then its delay runs, or the next entry. -/
theorem exec_auxConversionDone_of_last (h : e.repeat_ < s.aux.cur.n + 1) : ∃ t b, exec (.auxConversionDone x) s = .next t ∧
    t.clk = s.clk.advance s.aux.convEnd ∧ (∃ means, unmarked b = unmarked (withResult means (codeJoined x.code.toNat s).aux)) ∧
    t.aux = if e.delay = 0 then startEntry (nextEntry b) t.clk.mono b
      else { b with converting := false, delayEnd := some (t.clk.mono + usU e.delay) } := by
  obtain ⟨hclk, hdone⟩ := entryDone_frame x.p6 (codeJoined x.code.toNat s)
  rw [exec_auxConversionDone, auxConverted_of_entry hconv habort hurg hkeep he, if_neg (Nat.not_le.mpr h)]
  refine ⟨_, _, rfl, ?_, hdone, ?_⟩
  · rw [tcsAll_clk]
    split <;> exact hclk
  · rw [tcsAll_aux, tcsAll_clk]
    split <;> rfl

/-- What the completed result and the sequencer then hold. -/
theorem exec_auxConversionDone_of_last_view (h : e.repeat_ < s.aux.cur.n + 1) : ∃ t, exec (.auxConversionDone x) s = .next t ∧
    t.clk = s.clk.advance s.aux.convEnd ∧
    (s.aux.entry < s.aux.results.length → (t.aux.results.getD s.aux.entry {}).n = s.aux.cur.n + 1 ∧
      (t.aux.results.getD s.aux.entry {}).sum = s.aux.cur.sum + x.code.toNat) ∧
    (e.delay ≠ 0 → t.aux.converting = false ∧ t.aux.delayEnd = some ((s.clk.advance s.aux.convEnd).mono + usU e.delay)) ∧
    (e.delay = 0 → s.aux.entry + 1 < s.aux.cfg.entries.length →
      t.aux.converting = true ∧ t.aux.entry = s.aux.entry + 1 ∧ t.aux.cur.n = 0 ∧ t.aux.pass = s.aux.pass) := by
  obtain ⟨t, b, hexec, hclk, ⟨means, hb⟩, haux⟩ := exec_auxConversionDone_of_last (x := x) hconv habort hurg hkeep he h
  have hresults : t.aux.results = s.aux.results.set s.aux.entry (codeJoined x.code.toNat s).aux.cur := by
    have hb' : b.results = s.aux.results.set s.aux.entry (codeJoined x.code.toNat s).aux.cur := (results_of_unmarked hb :)
    rw [← hb', haux]
    split
    · exact (startEntry_frame ..).2.1
    · rfl
  refine ⟨t, hexec, hclk, fun hlt => ?_, fun hdelay => ?_, fun hdelay hnext => ?_⟩
  · rw [hresults, ← modAt_const, getD_modAt_same _ _ hlt]
    exact ⟨rfl, rfl⟩
  · rw [haux, if_neg hdelay, hclk]
    exact ⟨rfl, rfl⟩
  · have hcfg : b.cfg = s.aux.cfg := (cfg_of_unmarked hb :)
    have hentry : b.entry = s.aux.entry := (entry_of_unmarked hb :)
    have hpass : b.pass = s.aux.pass := (pass_of_unmarked hb :)
    have hi : nextEntry b = s.aux.entry + 1 := by
      rw [nextEntry_of_lt (by rwa [hcfg, hentry]), hentry]
    obtain ⟨hc, -, he', hn, hp⟩ := startEntry_of_lt (i := nextEntry b) (now := t.clk.mono) (a := b) (by rwa [hi, hcfg])
    rw [haux, if_pos hdelay]
    refine ⟨hc, he'.trans hi, hn, hp.trans ?_⟩
    rw [if_neg (by omega), hpass]

end

/-! ### AUX_DELAY_END (R173) -/

theorem exec_auxDelayEnd_of_none (h : s.aux.delayEnd = none) : exec .auxDelayEnd s = .next s := by
  have hrow : exec .auxDelayEnd s = execAuxDelayEnd s := rfl
  rw [hrow, execAuxDelayEnd, h]

theorem exec_auxDelayEnd_of_delay {d : Nat} (h : s.aux.delayEnd = some d) : exec .auxDelayEnd s = .next
    (if s.aux.urgRunning.isSome = true then setClk (·.advance d) s
     else setAux (fun a => startEntry (nextEntry a) (s.clk.advance d).mono a) (setClk (·.advance d) s)) := by
  have hrow : exec .auxDelayEnd s = execAuxDelayEnd s := rfl
  rw [hrow, execAuxDelayEnd, h]
  rfl

/-- The next entry starts at the end of the delay; it waits for an urgent conversion that runs. -/
theorem exec_auxDelayEnd_view {d : Nat} (h : s.aux.delayEnd = some d) : ∃ t, exec .auxDelayEnd s = .next t ∧ t.clk = s.clk.advance d ∧
    (s.aux.urgRunning ≠ none → t.aux = s.aux) ∧
    (s.aux.urgRunning = none → s.aux.cfg.entries ≠ [] → t.aux.converting = true ∧ t.aux.delayEnd = none ∧ t.aux.cur.n = 0 ∧
      t.aux.entry = (if s.aux.entry + 1 < s.aux.cfg.entries.length then s.aux.entry + 1 else 0) ∧
      t.aux.pass = (if s.aux.entry + 1 < s.aux.cfg.entries.length then s.aux.pass else (s.aux.pass + 1) % 256)) := by
  refine ⟨_, exec_auxDelayEnd_of_delay h, ?_, fun hurg => ?_, fun hurg hne => ?_⟩
  · split <;> rfl
  · rw [if_pos (Option.isSome_iff_ne_none.mpr hurg)]
    rfl
  · obtain ⟨hconv, hdelay, hentry, hn, hpass⟩ := startEntry_of_lt (now := (s.clk.advance d).mono) (nextEntry_lt hne)
    rw [if_neg (by simp [hurg]), setAux_aux, setClk_aux]
    exact ⟨hconv, hdelay, hn, hentry, hpass.trans (pass_nextEntry ..)⟩

/-! ### Urgent requests (R175-R177) -/

theorem exec_urgEdge (s : State) : exec .urgEdge s = .next (if s.aux.cfg.urgEn = true then urgentRequest 0 s else s) := rfl

/-- A further request of a source still waiting or running: latched once, then an overrun (R177). -/
theorem urgentRequest_of_further {k : Nat} (hk : k < s.aux.urgent.length)
    (h : (s.aux.urgent.getD k {}).waits = true ∨ s.aux.urgRunning = some k) :
    ((s.aux.urgent.getD k {}).latched = false → ((urgentRequest k s).aux.urgent.getD k {}).latched = true ∧
      ((urgentRequest k s).aux.urgent.getD k {}).latchedCount = ((s.aux.urgent.getD k {}).latchedCount + 1) % 256) ∧
    ((s.aux.urgent.getD k {}).latched = true →
      ((urgentRequest k s).aux.urgent.getD k {}).overruns = (s.aux.urgent.getD k {}).overruns + 1 ∧
      ((urgentRequest k s).aux.urgent.getD k {}).latched = true) := by
  refine ⟨fun hl => ?_, fun hl => ?_⟩
  · rw [urgentRequest_of_first h hl, setAux_aux]
    dsimp only
    rw [getD_modAt_same _ _ hk]
    exact ⟨rfl, rfl⟩
  · rw [urgentRequest_of_latched h hl]
    dsimp only
    rw [getD_modAt_same _ _ hk]
    exact ⟨rfl, hl⟩

/-- A first request while no urgent conversion runs starts at once and aborts the sequencer's conversion. -/
theorem urgentRequest_of_free {k : Nat} (hk : k < 2) (hlen : s.aux.urgent.length = 2) (hw : (s.aux.urgent.getD k {}).waits = false)
    (hr : s.aux.urgRunning = none) (hfirst : k = 1 ∨ (s.aux.urgent.getD 1 {}).waits = false) :
    (urgentRequest k s).aux.urgRunning = some k ∧ (s.aux.converting = true → (urgentRequest k s).aux.aborted = true) ∧
      (urgentRequest k s).aux.entry = s.aux.entry ∧ (urgentRequest k s).aux.cur.n = s.aux.cur.n := by
  obtain ⟨hrun, habort, hentry, hn⟩ := startUrgent_of_next (now := urgentStart s) (a := withRequest k s.aux) hr
    (nextUrgent_withRequest hk hlen hfirst)
  rw [urgentRequest_of_new hw (by simp [hr]), setAux_aux]
  refine ⟨hrun, fun hconv => ?_, hentry, hn⟩
  rw [habort]
  exact (Bool.or_eq_true ..).mpr (.inr hconv)

/-- A first request while the other source's conversion runs waits. -/
theorem urgentRequest_of_other {k : Nat} (hk : k < s.aux.urgent.length) (hw : (s.aux.urgent.getD k {}).waits = false)
    (hr : s.aux.urgRunning ≠ none) (hother : s.aux.urgRunning ≠ some k) : ((urgentRequest k s).aux.urgent.getD k {}).pending = true ∧
      (urgentRequest k s).aux.urgRunning = s.aux.urgRunning := by
  have hstay : startUrgent (urgentStart s) (withRequest k s.aux) = withRequest k s.aux := startUrgent_of_not (.inl hr)
  rw [urgentRequest_of_new hw hother, setAux_aux, hstay]
  exact ⟨withRequest_pending hk, rfl⟩

/-! ### URGENT_CONVERSION_DONE (R177) -/

theorem exec_urgentConversionDone_of_none (h : s.aux.urgRunning = none) : exec (.urgentConversionDone x) s = .next s := by
  have hrow : exec (.urgentConversionDone x) s = execUrgentConversionDone x s := rfl
  rw [hrow, execUrgentConversionDone, h]

/-- The code is stored, and the next request that waits starts, the brown-out sense first; where none waits the sequencer goes on. -/
theorem exec_urgentConversionDone_view {k : Nat} (hk : k < s.aux.urgent.length) (h : s.aux.urgRunning = some k) :
    ∃ t, exec (.urgentConversionDone x) s = .next t ∧
      t.clk = s.clk.advance s.aux.urgEnd ∧ (t.aux.urgent.getD k {}).code = x.code.toNat ∧ (t.aux.urgent.getD k {}).n = 1 ∧
      ((s.aux.urgent.getD 1 {}).waits = true → t.aux.urgRunning = some 1) ∧
      ((s.aux.urgent.getD 1 {}).waits = false → (s.aux.urgent.getD 0 {}).waits = true → t.aux.urgRunning = some 0) ∧
      ((s.aux.urgent.getD 0 {}).waits = false → (s.aux.urgent.getD 1 {}).waits = false → t.aux.urgRunning = none ∧
        (s.aux.converting = true → t.aux.aborted = false ∧ t.aux.cur.n = s.aux.cur.n)) := by
  obtain ⟨now, b, t, hexec, hclk, hb, haux⟩ := exec_urgentConversionDone_aux (x := x) h
  have hwaits (j : Nat) : (b.urgent.getD j {}).waits = (s.aux.urgent.getD j {}).waits := by
    rw [urgent_of_unmarked hb, urgentStored_waits]
  have hfree : b.urgRunning = none := (urgRunning_of_unmarked hb :)
  have hconverting : b.converting = s.aux.converting := (converting_of_unmarked hb :)
  have hcur : b.cur = s.aux.cur := (cur_of_unmarked hb :)
  have hcode := startUrgent_code now b k
  rw [urgent_of_unmarked hb, (urgentStored_code _ hk).1, (urgentStored_code _ hk).2] at hcode
  obtain ⟨hurgent, hrunning⟩ := resumed_urgent now (startUrgent now b)
  rw [← haux] at hurgent hrunning
  rw [← hurgent] at hcode
  simp only [← hwaits]
  have hstarts {j : Nat} (hnext : nextUrgent b = some j) : t.aux.urgRunning = some j :=
    hrunning.trans (startUrgent_of_next hfree hnext).1
  refine ⟨t, hexec, hclk, congrArg Prod.fst hcode, congrArg Prod.snd hcode, fun h1 => hstarts (nextUrgent_of_brownOut h1),
    fun h1 h0 => hstarts (nextUrgent_of_pin h1 h0), fun h0 h1 => ?_⟩
  have hstay : startUrgent now b = b := startUrgent_of_not (.inr (nextUrgent_of_none h1 h0))
  rw [hstay] at haux hrunning
  refine ⟨hrunning.trans hfree, fun hconv => ?_⟩
  rw [haux, ← hcur]
  exact (resumed_of_converting hfree (hconverting.trans hconv)).imp_right (congrArg AuxResult.n)

end

/-- Settles O41: each row of the converter by what it does to the conversion that runs, each end of a phase by what its group becomes. -/
theorem acquisitionRows : Obligations.AcquisitionRows := by
  unfold Obligations.AcquisitionRows
  refine ⟨?_, fun s g m => ⟨exec_calPhaseEnd_of_none, exec_calPhaseEnd_of_runs⟩, fun s => calBoundary_of_none_due, ?_⟩
  · rintro s x _ rfl
    refine ⟨fun h => ?_, ?_, exec_auxDelayEnd_of_none, fun d => exec_auxDelayEnd_view, fun h => ?_, fun h => ?_, ?_,
      exec_urgentConversionDone_of_none, fun k hk hlen => exec_urgentConversionDone_view (by omega)⟩
    · rw [exec_auxConversionDone, auxConverted_of_none h]
    · rintro hconv habort hurg _ rfl
      refine ⟨fun hdiscard => ?_, fun hkeep e he => ⟨fun hmore => ?_, exec_auxConversionDone_of_last_view hconv habort hurg hkeep he⟩⟩
      · rw [exec_auxConversionDone, auxConverted_of_discard hconv habort hurg hdiscard]
      · obtain ⟨t, hexec, ht⟩ := exec_auxConversionDone_of_more (x := x) hconv habort hurg hkeep he hmore
        obtain ⟨hclk, haux⟩ := Prod.mk.inj ht
        refine ⟨t, hexec, hclk, ?_⟩
        rw [haux]
        exact ⟨rfl, hconv, rfl, rfl, rfl, rfl, rfl, rfl, rfl⟩
    · rw [exec_urgEdge, h]
      rfl
    · rw [exec_urgEdge, if_pos h]
    · rintro k _ hk hlen rfl
      exact ⟨_, rfl, urgentRequest_of_further (by omega), fun hw hr hfirst => urgentRequest_of_free hk hlen hw hr hfirst,
        urgentRequest_of_other (by omega)⟩
  · rintro s g m hg3 hlen _ rfl h1 h4 hidx
    have hg : g < s.acq.groups.length := by omega
    obtain ⟨c, hc⟩ := endPhase_becomes (m := m) hg h1 h4 hidx
    have becomes {P : CalGroup → Prop} (h : ∃ e, GroupBecomes g e s (endPhase g m s) ∧ P e) : P (calGroup (endPhase g m s) g) := by
      obtain ⟨e, he, hP⟩ := h
      exact he.2.1 ▸ hP
    refine ⟨_, rfl, hc.2.2, fun h hp => becomes (endPhase_two_passed_becomes hg h hp), fun h hp => ?_, fun h hp => ?_,
      fun h hi hd => becomes (endPhase_two_failed_becomes hg h hi hd), fun h hi hd => becomes (endPhase_four_failed_becomes hg h hidx hi hd)⟩
    · obtain ⟨hphase, hsame, hofs⟩ := becomes (endPhase_three_passed_becomes hg h hp)
      exact ⟨hphase, hsame, hofs, endPhase_three_passed_slices h hp⟩
    · obtain ⟨hphase, hnext⟩ := becomes (endPhase_four_passed_becomes hg h hp)
      exact ⟨hphase, hnext, endPhase_four_passed_slice hg3 h hidx hp⟩

end Sys2Proof.Machine.Laws
end

section
/-! SUPPORT. Publications of sampled values and of GOOSE: what a frame that leaves changes, and the statement that gathers their rows
(R207, R208, R212, R218). -/

namespace Sys2Proof.Machine.Laws
open Sys2Proof Sys2Proof.Machine

/-! ### A frame that leaves -/

/-- A frame that leaves moves on at most the sequence number of its pair's redundancy. -/
theorem sendFrame_pubs (pair : Nat) (f : TxFrame) (s : State) :
    (sendFrame pair f s).net.svPubs = s.net.svPubs ∧ (sendFrame pair f s).net.goosePubs = s.net.goosePubs := by
  unfold sendFrame
  split <;> exact ⟨rfl, rfl⟩

/-! ### Sampled values (R207, R208) -/

/-- The number of the newest sample at 4800 per second whose words have been formed, at the boundary that opened the Milestone. -/
def newestSample (s : State) : Int :=
  ((s.clk.msTai : Int) - (roundOpen 34 (175 * gridLen s : Nat) 128 + ((s.clk.len / 2 : Nat) : Int))) / ((secU 1 / 4800 : Nat) : Int)

/-- The two ASDUs of eight values of a frame of block `b` whose first sample is `n`. -/
def pairValues (s : State) (b : Bytes) (n : Nat) : List (List (Int × Quality61850)) :=
  [0, 1].map (fun j => (List.range 8).map (fun c =>
    svPubValue s (bitsOf (u16At b (0x10 + 2 * c)) 0 9) (((n + j : Nat) : Int) * ((secU 1 / 4800 : Nat) : Int))))

theorem pairValues_shape (s : State) (b : Bytes) (n : Nat) : (pairValues s b n).length = 2 ∧ ∀ v ∈ pairValues s b n, v.length = 8 := by
  refine ⟨rfl, fun v hv => ?_⟩
  obtain ⟨j, -, rfl⟩ := List.mem_map.mp hv
  simp

/-- SmpSynch of a publication (R207). -/
def pubSynch (s : State) : Nat := if notSynchronized s.time = true then 0 else 2

section
variable {s : State} {p : BitVec 3} {n : Nat}

theorem exec_svPubFrameTx_of_barred (h : pubEn (svPubBytes s p.toNat) = false ∨ sendPorts s (fld (svPubBytes s p.toNat) 0 1 1) = [] ∨
    s.mode.mode = .backup ∨ s.mode.mode = .boot) : exec (.svPubFrameTx p) s = .next s := by
  have hrow : exec (.svPubFrameTx p) s = execSvPubFrameTx p s := rfl
  rw [hrow, execSvPubFrameTx]
  rcases h with h | h | h | h <;> simp [h]

section
variable (hen : pubEn (svPubBytes s p.toNat) = true) (hports : sendPorts s (fld (svPubBytes s p.toNat) 0 1 1) ≠ [])
  (hbackup : s.mode.mode ≠ .backup) (hboot : s.mode.mode ≠ .boot) (hnext : (s.net.svPubs.getD p.toNat {}).next = some n)
include hen hports hbackup hboot hnext

theorem exec_svPubFrameTx_of_unformed (h : newestSample s < ((n + 1 : Nat) : Int)) : exec (.svPubFrameTx p) s = .next s := by
  have hrow : exec (.svPubFrameTx p) s = execSvPubFrameTx p s := rfl
  rw [hrow, execSvPubFrameTx]
  simp only [hnext]
  unfold newestSample at h
  rw [if_neg (by simp [hen, hports, hbackup, hboot]), if_pos h]

/-- A pair of samples that has been formed leaves in one frame, and the next pair is two later. -/
theorem exec_svPubFrameTx_of_formed (hp : p.toNat < s.net.svPubs.length) (h : ((n + 1 : Nat) : Int) ≤ newestSample s) :
    ∃ t h, exec (.svPubFrameTx p) s = .next t ∧
      t.out.wire = s.out.wire ++ [.sv h p.toNat (n % 4800) (pubSynch s) (pairValues s (svPubBytes s p.toNat) n)
        (svApdu (svPubBytes s p.toNat) (n % 4800) (pubSynch s) (pairValues s (svPubBytes s p.toNat) n))] ∧
      h.ports = sendPorts s (fld (svPubBytes s p.toNat) 0 1 1) ∧ h.etherType = 0x88BA ∧
      (t.net.svPubs.getD p.toNat {}).next = some (n + 2) ∧
      (t.net.svPubs.getD p.toNat {}).frames = inc (s.net.svPubs.getD p.toNat {}).frames ∧ t.clk = s.clk := by
  have hrow : exec (.svPubFrameTx p) s = execSvPubFrameTx p s := rfl
  rw [hrow, execSvPubFrameTx]
  simp only [hnext]
  unfold newestSample at h
  rw [if_neg (by simp [hen, hports, hbackup, hboot]), if_neg (Int.not_lt.mpr h)]
  refine ⟨_, _, rfl, sendFrame_wire .., rfl, rfl, ?_, ?_, sendFrame_clk ..⟩ <;>
    rw [(sendFrame_pubs ..).1, setNet_net, getD_modAt_same _ _ hp]

end

end

/-! ### GOOSE (R212, R218) -/

theorem goosePub_setGoosePub_same {s : State} {i : Nat} (f : GoosePub → GoosePub) (hi : i < s.net.goosePubs.length) :
    goosePub (setGoosePub i f s) i = f (goosePub s i) := getD_modAt_same f _ hi

theorem setGoosePub_pubs_length (i : Nat) (f : GoosePub → GoosePub) (s : State) :
    (setGoosePub i f s).net.goosePubs.length = s.net.goosePubs.length := List.length_modify ..

/-- One frame leaves; of its publication the counts and the time of the next frame change. -/
theorem sendGoose_frame {s : State} {i : Nat} {p : GoosePub} (hp : goosePub s i = p) (hi : i < s.net.goosePubs.length) (ahead : Nat × Nat) :
    ∃ t, sendGoose i ahead s = t ∧ t.out.wire.length = s.out.wire.length + 1 ∧ t.clk = s.clk ∧
      goosePub t i = { p with
        interval := gpInterval p.block p.step, nextAt := some (s.clk.mono + gpInterval p.block p.step * usU 100), frames := inc p.frames
        lastTx := s.clk.shortTime, tripLatMax := (goosePub t i).tripLatMax, authFail := (goosePub t i).authFail } := by
  subst hp
  refine ⟨_, rfl, ?_, sendFrame_clk .., ?_⟩
  · rw [sendGoose, sendFrame_wire, List.length_append]
    rfl
  · have hpub (pair : Nat) (f : TxFrame) (g : GoosePub → GoosePub) :
        goosePub (sendFrame pair f (setGoosePub i g s)) i = g (goosePub s i) := by
      rw [goosePub, (sendFrame_pubs ..).2]
      exact goosePub_setGoosePub_same g hi
    rw [sendGoose, hpub]

section
variable {s : State} {i : BitVec 6}

theorem exec_gooseRetransmit_of_barred (h : (goosePub s i.toNat).nextAt = none ∨ (goosePub s i.toNat).sending = false ∨ s.mode.mode.runs = false) :
    exec (.gooseRetransmit i) s = .next s := by
  have hrow : exec (.gooseRetransmit i) s = execGooseRetransmit i s := rfl
  rw [hrow, execGooseRetransmit]
  dsimp only
  split
  · next d hnext =>
    rcases h with h | h | h
    · cases hnext.symm.trans h
    · simp [h]
    · simp [h]
  · rfl

/-- The publication whose next frame is sent at the instant it is due. -/
def nextFrame (i d : Nat) (s : State) : State :=
  setGoosePub i (fun p => { p with sqNum := nextNum p.sqNum, step := p.step + 1 }) (setClk (·.advance d) s)

theorem exec_gooseRetransmit {d : Nat} (hnext : (goosePub s i.toNat).nextAt = some d) (hsends : (goosePub s i.toNat).sending = true)
    (hruns : s.mode.mode.runs = true) : exec (.gooseRetransmit i) s = .next (sendGoose i.toNat (0, 0) (nextFrame i.toNat d s)) := by
  have hrow : exec (.gooseRetransmit i) s = execGooseRetransmit i s := rfl
  rw [hrow, execGooseRetransmit]
  simp only [hnext, hsends, hruns, Bool.not_true, Bool.or_self, Bool.false_eq_true, if_false]
  rfl

end

/-- The intervals double from the second frame on, up to the heartbeat (R218). -/
theorem gpInterval_of_le (b : Bytes) {k : Nat} (h : k ≤ 20) : gpInterval b k = min (gpMin b * 2 ^ (k - 1)) (10 * gpHeart b) := by
  rw [gpInterval, Nat.min_eq_left h]

/-- Settles O44: a row that is barred by its guard, else by the frame that leaves and what it changes of its publication. -/
theorem publicationRows : Obligations.PublicationRows := by
  unfold Obligations.PublicationRows
  refine ⟨fun s p => exec_svPubFrameTx_of_barred, ?_, ?_, fun _ => rfl, fun b k => gpInterval_of_le b⟩
  · rintro s p n _ rfl hp hen hports hbackup hboot hnext _ rfl
    refine ⟨exec_svPubFrameTx_of_unformed hen hports hbackup hboot hnext, fun hformed => ?_⟩
    obtain ⟨t, h, hexec, hwire, hhead, htype, hpub⟩ := exec_svPubFrameTx_of_formed hen hports hbackup hboot hnext hp hformed
    obtain ⟨htwo, height⟩ := pairValues_shape s (svPubBytes s p.toNat) n
    exact ⟨t, h, _, hexec, hwire, hhead, htype, htwo, height, hpub⟩
  · rintro s i _ rfl
    refine ⟨exec_gooseRetransmit_of_barred, fun d hnext hsends hruns hlen => ?_⟩
    have hi : i.toNat < s.net.goosePubs.length := by omega
    obtain ⟨t, rfl, hwire, hclk, hpub⟩ := sendGoose_frame (s := nextFrame i.toNat d s) (goosePub_setGoosePub_same _ hi)
      (by rwa [nextFrame, setGoosePub_pubs_length]) (0, 0)
    refine ⟨_, exec_gooseRetransmit hnext hsends hruns, hwire, hclk, ?_⟩
    rw [hpub, hclk]
    exact ⟨rfl, rfl, rfl, rfl, rfl, rfl, rfl⟩

end Sys2Proof.Machine.Laws
end

section
/-! SUPPORT. Contexts that receive: what an update of one of them changes, what missing samples and the resampler leave of it, and what
the steps that every frame passes leave (R183, R196, R200). -/

namespace Sys2Proof.Machine.Laws
open Sys2Proof Sys2Proof.Machine

/-! ### Contexts -/

section
variable {s : State} {k : Nat}

@[simp] theorem setSv_sv_length (k : Nat) (f : SvCtx → SvCtx) (s : State) : (setSv k f s).net.sv.length = s.net.sv.length :=
  List.length_modify ..

theorem svCtx_setSv_same (f : SvCtx → SvCtx) (hk : k < s.net.sv.length) : svCtx (setSv k f s) k = f (svCtx s k) :=
  getD_modAt_same f _ hk

theorem gooseCtx_setGoose_same (f : GooseCtx → GooseCtx) (hk : k < s.net.goose.length) : gooseCtx (setGoose k f s) k = f (gooseCtx s k) :=
  getD_modAt_same f _ hk

end

theorem findIdxBelow_some {n k : Nat} {p : Nat → Bool} (h : findIdxBelow n p = some k) : k < n ∧ p k = true :=
  ⟨List.mem_range.mp (List.mem_of_find?_eq_some h), List.find?_some h⟩

theorem subs_le (v : Variant) : v.svSubs ≤ 256 ∧ v.gooseSubs ≤ 256 := by
  cases v <;> decide

/-- The context a sampled-value frame belongs to is one of the 256, and enabled (R191). -/
theorem svMatch_some {b : State} {f : SvFrame} {k : Nat} (h : svMatch b f = some k) : k < 256 ∧ svEn b k = true := by
  unfold svMatch at h
  split at h
  · cases h
  · obtain ⟨hlt, hmatch⟩ := findIdxBelow_some h
    simp only [Bool.and_eq_true] at hmatch
    obtain ⟨⟨⟨⟨⟨hen, -⟩, -⟩, -⟩, -⟩, -⟩ := hmatch
    exact ⟨Nat.lt_of_lt_of_le hlt (subs_le _).1, hen⟩

theorem goMatch_lt {b : State} {f : GooseFrame} {k : Nat} (h : goMatch b f = some k) : k < 256 :=
  Nat.lt_of_lt_of_le (findIdxBelow_some h).1 (subs_le _).2

/-! ### The steps of every frame (R183) -/

theorem takeIn_of_disabled {h : FrameHead} {s : State} (hport : portEn s h.port.toNat = false) : takeIn h s = none := by
  have hlater : portEn (setClk (·.advance (h.stamp * uPerNs)) s) h.port.toNat = false := hport
  simp only [takeIn, hlater, Bool.not_false, Bool.true_or, if_true]

/-- Whether a frame is a first copy or not, only the entries of duplicate discard change. -/
theorem dedup_onlyDups (h : FrameHead) (b : State) : (dedup h b).2 = setNet (fun n => { n with dups := (dedup h b).2.net.dups }) b := by
  unfold dedup
  split
  · rfl
  · dsimp only
    split
    · rfl
    · split <;> rfl

section
variable (h : FrameHead) (b : State)
@[simp] theorem dedup_sv : (dedup h b).2.net.sv = b.net.sv := (congrArg (·.net.sv) (dedup_onlyDups h b) :)
@[simp] theorem dedup_goose : (dedup h b).2.net.goose = b.net.goose := (congrArg (·.net.goose) (dedup_onlyDups h b) :)
@[simp] theorem dedup_tbl : (dedup h b).2.tbl = b.tbl := (congrArg State.tbl (dedup_onlyDups h b) :)
end

/-! ### Missing samples and the resampler (R196, R200) -/

/-- What only a frame changes in a context: the last count received, and the counts of frames and of frames of a wrong form. -/
structure Received where
  last : Option Nat
  frames : Nat
  confErr : Nat

def received (x : SvCtx) : Received := { last := x.last, frames := x.frames, confErr := x.confErr }

/-- What missing samples and the words of a context leave as it was. -/
structure Unresampled where
  clk : Clock
  tbl : TblSt
  contexts : Nat
  received : Received

def unresampled (k : Nat) (s : State) : Unresampled :=
  { clk := s.clk, tbl := s.tbl, contexts := s.net.sv.length, received := received (svCtx s k) }

section
variable {s t : State} {k : Nat}

section
variable (h : unresampled k t = unresampled k s)
include h
theorem clk_of_unresampled : t.clk = s.clk := (congrArg Unresampled.clk h :)
theorem tbl_of_unresampled : t.tbl = s.tbl := (congrArg Unresampled.tbl h :)
theorem length_of_unresampled : t.net.sv.length = s.net.sv.length := (congrArg Unresampled.contexts h :)
theorem received_of_unresampled : received (svCtx t k) = received (svCtx s k) := (congrArg Unresampled.received h :)
end

theorem unresampled_setSv {f : SvCtx → SvCtx} (h : ∀ x, received (f x) = received x) : unresampled k (setSv k f s) = unresampled k s := by
  have hkept : received (svCtx (setSv k f s) k) = received (svCtx s k) := getD_modAt_of_kept _ _ _ received h k
  simp only [unresampled, setSv_sv_length, hkept]
  rfl

theorem unresampled_of_unsupervised (h : unsupervised t = unsupervised s) : unresampled k t = unresampled k s :=
  (congrArg (unresampled k) h :)

end

section
variable (s : State) (k : Nat)

theorem received_svFillOne (b : Bytes) (x : SvCtx) : received (svFillOne b x) = received x := by
  unfold svFillOne
  split <;> rfl

/-- A loss is counted by supervision alone (R222). -/
@[simp] theorem unsupervised_svLossEvent : unsupervised (svLossEvent k s) = unsupervised s := by
  simp [svLossEvent]

theorem unresampled_svMissOne : unresampled k (svMissOne k s) = unresampled k s := by
  have hfilled : unresampled k (setSv k (svFillOne (streamBytes s k)) s) = unresampled k s := unresampled_setSv (received_svFillOne _)
  unfold svMissOne
  dsimp only
  split
  · exact hfilled
  · exact (unresampled_of_unsupervised (unsupervised_svLossEvent ..)).trans hfilled

theorem unresampled_svMiss (n : Nat) : unresampled k (svMiss k n s) = unresampled k s := by
  induction n generalizing s with
  | zero => rfl
  | succ n ih => exact (ih _).trans (unresampled_svMissOne s k)

theorem unresampled_svSlot (msTai len : Nat) : unresampled k (svSlot k msTai len s) = unresampled k s := by
  unfold svSlot
  refine (unresampled_setSv ?_).trans (unresampled_svMiss s k _)
  exact fun _ => rfl

theorem unresampled_svCatchUp (n : Nat) : unresampled k (svCatchUp k n s) = unresampled k s := by
  induction n generalizing s with
  | zero => rfl
  | succ n ih =>
    unfold svCatchUp
    dsimp only
    split
    · exact (ih _).trans (unresampled_svSlot s k _ _)
    · rfl

end

theorem svT_pos (b : Bytes) : 0 < svT b := by
  have hrate : svRate b ∈ [4800, 14400, 4000, 15360, 12800] := by
    unfold svRate
    split
    · simp
    · simp
    · split <;> simp
    · split <;> simp
  have hall : ∀ r ∈ [4800, 14400, 4000, 15360, 12800], 0 < secU 1 / r := by decide
  exact Int.natCast_pos.mpr (hall _ hrate)

/-- A missing sample stands a period beyond the newest held. -/
theorem svFillOne_head_ne {x : SvCtx} {z : SvSample} {l : List SvSample} (h : x.buf = z :: l) (b : Bytes) :
    (svFillOne b x).buf.head? ≠ some z := by
  have hpos := svT_pos b
  have hhead : (svFillOne b x).buf.head?.map (·.t) = some (z.t + svT b) := by
    simp [svFillOne, h, pushSample]
  intro hsame
  rw [hsame] at hhead
  have hnext : z.t = z.t + svT b := Option.some.inj hhead
  omega

/-- A sample missing from a context that holds some changes its newest. -/
theorem svMissOne_head_ne {s : State} {k : Nat} {z : SvSample} (hk : k < s.net.sv.length) (h : (svCtx s k).buf.head? = some z) :
    (svCtx (svMissOne k s) k).buf.head? ≠ some z := by
  obtain ⟨l, hl⟩ := List.head?_eq_some_iff.mp h
  have hfilled : (svCtx (setSv k (svFillOne (streamBytes s k)) s) k).buf.head? ≠ some z := by
    rw [svCtx_setSv_same _ hk]
    exact svFillOne_head_ne hl _
  unfold svMissOne
  dsimp only
  split
  · exact hfilled
  · rwa [svCtx, net_of_unsupervised (unsupervised_svLossEvent ..)]

end Sys2Proof.Machine.Laws
end

section
/-! SUPPORT. The rows of sampled-value and GOOSE frames and of their timeouts, and the statement that gathers them (R183, R191, R196,
R197, R211, R212, R214). -/

namespace Sys2Proof.Machine.Laws
open Sys2Proof Sys2Proof.Machine

/-! ### SV_FRAME_RX -/

/-- A frame passes the authentication of its sampled-value context (R187). -/
def svAuthentic (b : State) (k : Nat) (f : SvFrame) : Bool :=
  let w := streamBytes b k
  authAccepts b (fld w 0x28 0 2) (bitAt w 0x28 2) (fld w 0x28 8 5) (fld w 0x28 16 5) f.head.auth

section
variable {s b : State} {f : SvFrame} {k : Nat}

theorem exec_svFrameRx_of_none (h : takeIn f.head s = none) : exec (.svFrameRx f) s = .next s := by
  have hrow : exec (.svFrameRx f) s = execSvFrameRx f s := rfl
  rw [hrow, execSvFrameRx, h]

theorem exec_svFrameRx_of_unmatched (h : takeIn f.head s = some b) (hmatch : svMatch b f = none) :
    exec (.svFrameRx f) s = .next (countNoMatch f.head.port.toNat b) := by
  have hrow : exec (.svFrameRx f) s = execSvFrameRx f s := rfl
  rw [hrow, execSvFrameRx, h]
  simp only [hmatch]

/-- A matched frame is verified, then discarded where a copy has been taken, then delivered. -/
theorem exec_svFrameRx_of_matched (h : takeIn f.head s = some b) (hmatch : svMatch b f = some k) : exec (.svFrameRx f) s = .next (
    if !svAuthentic b k f then settle (svLossEvent k (setSv k (fun x => { x with authFail := inc x.authFail }) b))
    else settle (if (dedup f.head b).1 = true then svDeliver k f (svCatchUp k 4 (dedup f.head b).2) else (dedup f.head b).2)) := by
  have hrow : exec (.svFrameRx f) s = execSvFrameRx f s := rfl
  rw [hrow, execSvFrameRx, h]
  simp only [hmatch]
  rfl

theorem exec_svFrameRx_of_unverified (h : takeIn f.head s = some b) (hmatch : svMatch b f = some k) (hauth : svAuthentic b k f = false)
    (hk : k < b.net.sv.length) : ∃ t, exec (.svFrameRx f) s = .next t ∧
      svCtx t k = { svCtx b k with authFail := inc (svCtx b k).authFail } := by
  rw [exec_svFrameRx_of_matched h hmatch, if_pos (by simp [hauth])]
  refine ⟨_, rfl, ?_⟩
  rw [svCtx, net_of_unsupervised ((unsupervised_settle _).trans (unsupervised_svLossEvent ..))]
  exact svCtx_setSv_same _ hk

theorem exec_svFrameRx_of_copy (h : takeIn f.head s = some b) (hmatch : svMatch b f = some k) (hauth : svAuthentic b k f = true)
    (hcopy : (dedup f.head b).1 = false) : ∃ t, exec (.svFrameRx f) s = .next t ∧ t.net.sv = b.net.sv := by
  rw [exec_svFrameRx_of_matched h hmatch, if_neg (by simp [hauth]), if_neg (by simp [hcopy])]
  refine ⟨_, rfl, ?_⟩
  rw [net_of_unsupervised (unsupervised_settle _), dedup_sv]

/-- A frame of another number of ASDUs than the context's is counted in CONF_ERR alone (R189). -/
theorem svDeliver_of_count (h : f.asdus.length ≠ svAsdus (streamBytes s k)) :
    svDeliver k f s = setSv k (fun x => { x with confErr := inc x.confErr }) s := by
  rw [svDeliver, if_pos (by simp [h])]

theorem exec_svFrameRx_of_count (h : takeIn f.head s = some b) (hmatch : svMatch b f = some k) (hauth : svAuthentic b k f = true)
    (hfirst : (dedup f.head b).1 = true) (hk : k < b.net.sv.length) (hcount : f.asdus.length ≠ svAsdus (streamBytes b k)) :
    ∃ t, exec (.svFrameRx f) s = .next t ∧
      received (svCtx t k) = { received (svCtx b k) with confErr := inc (svCtx b k).confErr } := by
  have hslots := unresampled_svCatchUp (dedup f.head b).2 k 4
  have htbl := (tbl_of_unresampled hslots).trans (dedup_tbl f.head b)
  have hlen := length_of_unresampled hslots
  have hctx : svCtx (dedup f.head b).2 k = svCtx b k := by rw [svCtx, dedup_sv]; rfl
  have hreceived := received_of_unresampled hslots
  rw [hctx] at hreceived
  obtain ⟨hlast, hframes, hconf⟩ := Received.mk.inj hreceived
  rw [exec_svFrameRx_of_matched h hmatch, if_neg (by simp [hauth]), if_pos hfirst, svDeliver_of_count (by rwa [streamBytes, htbl])]
  refine ⟨_, rfl, ?_⟩
  rw [svCtx, net_of_unsupervised (unsupervised_settle _)]
  refine (congrArg received (svCtx_setSv_same _ (by rwa [hlen, dedup_sv]))).trans ?_
  rw [received, hlast, hframes, hconf]
  rfl

end

/-! ### GOOSE_FRAME_RX -/

/-- A frame passes the authentication of its GOOSE context (R187). -/
def goAuthentic (b : State) (k : Nat) (f : GooseFrame) : Bool :=
  let w := streamBytes b k
  authAccepts b (fld w 0x98 0 2) (bitAt w 0x98 2) (fld w 0x98 8 5) (fld w 0x98 16 5) f.head.auth

/-- A frame whose confRev, entry count or member types are not the context's (R211). -/
def goMisfit (w : Bytes) (f : GooseFrame) : Prop :=
  f.confRev.toNat ≠ u32At w 0x94 ∨ f.numEntries ≠ byteAt w 0x8A ∨ goTypesOk w f = false

/-- What a frame with a new stNum makes of its context (R212, R214). -/
def goRenewed (w : Bytes) (f : GooseFrame) (s : State) (x : GooseCtx) : GooseCtx :=
  goSupervise w f s { x with
    stNum := f.stNum.toNat, stMissed := if x.seen = true ∧ f.stNum.toNat ≠ nextNum x.stNum then inc x.stMissed else x.stMissed
    inputs := x.inputs.mapIdx (fun m i => goInput w f m i) }

section
variable {s b : State} {f : GooseFrame} {k : Nat}

theorem exec_gooseFrameRx_of_none (h : takeIn f.head s = none) : exec (.gooseFrameRx f) s = .next s := by
  have hrow : exec (.gooseFrameRx f) s = execGooseFrameRx f s := rfl
  rw [hrow, execGooseFrameRx, h]

section
variable (h : takeIn f.head s = some b)
include h

theorem exec_gooseFrameRx_of_unmatched (hmatch : goMatch b f = none) :
    exec (.gooseFrameRx f) s = .next (countNoMatch f.head.port.toNat b) := by
  have hrow : exec (.gooseFrameRx f) s = execGooseFrameRx f s := rfl
  rw [hrow, execGooseFrameRx, h]
  simp only [hmatch]

/-- A matched frame is verified, then discarded where a copy has been taken, then delivered. -/
theorem exec_gooseFrameRx_of_matched (hmatch : goMatch b f = some k) : exec (.gooseFrameRx f) s = .next (
    if !goAuthentic b k f then setGoose k (fun x => { x with authFail := inc x.authFail }) b
    else if (dedup f.head b).1 = true then goDeliver k f (dedup f.head b).2
    else setGoose k (fun x => { x with dup := inc x.dup }) (dedup f.head b).2) := by
  have hrow : exec (.gooseFrameRx f) s = execGooseFrameRx f s := rfl
  rw [hrow, execGooseFrameRx, h]
  simp only [hmatch]
  rfl

section
variable (hmatch : goMatch b f = some k)
include hmatch

theorem exec_gooseFrameRx_of_unverified (hauth : goAuthentic b k f = false) :
    exec (.gooseFrameRx f) s = .next (setGoose k (fun x => { x with authFail := inc x.authFail }) b) := by
  rw [exec_gooseFrameRx_of_matched h hmatch, if_pos (by simp [hauth])]

theorem exec_gooseFrameRx_of_copy (hauth : goAuthentic b k f = true) (hcopy : (dedup f.head b).1 = false) :
    exec (.gooseFrameRx f) s = .next (setGoose k (fun x => { x with dup := inc x.dup }) (dedup f.head b).2) := by
  rw [exec_gooseFrameRx_of_matched h hmatch, if_neg (by simp [hauth]), if_neg (by simp [hcopy])]

theorem exec_gooseFrameRx_of_first (hauth : goAuthentic b k f = true) (hfirst : (dedup f.head b).1 = true) :
    exec (.gooseFrameRx f) s = .next (goDeliver k f (dedup f.head b).2) := by
  rw [exec_gooseFrameRx_of_matched h hmatch, if_neg (by simp [hauth]), if_pos hfirst]

end

end

/-! ### What a verified first copy does to its context (R211, R212, R214) -/

theorem goDeliver_of_misfit (h : goMisfit (streamBytes s k) f) : goDeliver k f s = setGoose k (fun x => { x with confErr := inc x.confErr }) s := by
  unfold goDeliver
  dsimp only
  rw [if_pos]
  rcases h with h | h | h <;> simp [h]

/-- A frame that fits begins a new state, goes on with the last one, or is old. -/
theorem goDeliver_of_fit (h : ¬goMisfit (streamBytes s k) f) (hk : k < s.net.goose.length) : gooseCtx (goDeliver k f s) k =
    if (gooseCtx s k).seen = false ∨ f.stNum.toNat ≠ (gooseCtx s k).stNum then goRenewed (streamBytes s k) f s (gooseCtx s k)
    else if beyond f.sqNum.toNat (gooseCtx s k).sqNum = true then goSupervise (streamBytes s k) f s (gooseCtx s k)
    else { gooseCtx s k with old := inc (gooseCtx s k).old } := by
  obtain ⟨hrev, hcount, htypes⟩ : f.confRev.toNat = u32At (streamBytes s k) 0x94 ∧ f.numEntries = byteAt (streamBytes s k) 0x8A ∧
      goTypesOk (streamBytes s k) f = true := by simpa [goMisfit] using h
  unfold goDeliver
  dsimp only
  rw [if_neg (by simp [hrev, hcount, htypes])]
  simp only [Bool.or_eq_true, Bool.not_eq_true', bne_iff_ne]
  split
  · rw [gooseCtx_setGoose_same _ hk]
    simp only [goRenewed, Bool.and_eq_true, bne_iff_ne]
  · split <;> exact gooseCtx_setGoose_same _ hk

/-- The receive stamp of a frame is not moved by duplicate discard. -/
theorem rxStamp_dedup (h g : FrameHead) (b : State) : rxStamp (dedup h b).2 g = rxStamp b g := by
  rw [dedup_onlyDups]
  rfl

end

/-! ### Deadlines and timeouts (R196, R197, R214) -/

section
variable {s : State} {ctx : BitVec 8}

theorem exec_gooseTalExpiry_of_none (h : (gooseCtx s ctx.toNat).deadline = none) : exec (.gooseTalExpiry ctx) s = .next s := by
  have hrow : exec (.gooseTalExpiry ctx) s = execGooseTalExpiry ctx s := rfl
  rw [hrow, execGooseTalExpiry, h]

/-- The deadline marks its context expired and counts it (R214). -/
theorem exec_gooseTalExpiry {d : Nat} (h : (gooseCtx s ctx.toNat).deadline = some d) (hk : ctx.toNat < s.net.goose.length) :
    ∃ t, exec (.gooseTalExpiry ctx) s = .next t ∧ gooseCtx t ctx.toNat =
      { gooseCtx s ctx.toNat with expired := true, deadline := none, talExp := inc (gooseCtx s ctx.toNat).talExp } ∧
      t.clk = s.clk.advance d := by
  have hrow : exec (.gooseTalExpiry ctx) s = execGooseTalExpiry ctx s := rfl
  rw [hrow, execGooseTalExpiry, h]
  have hcounted := (unsupervised_settle (expireGoose ctx.toNat (setClk (·.advance d) s))).trans (unsupervised_countEvent ..)
  refine ⟨_, rfl, ?_, clk_of_unsupervised hcounted⟩
  rw [gooseCtx, net_of_unsupervised hcounted]
  exact gooseCtx_setGoose_same _ hk

theorem exec_svSampleDeadline_of_idle (h : (svCtx s ctx.toNat).buf = [] ∨ svEn s ctx.toNat = false) :
    exec (.svSampleDeadline ctx) s = .next s := by
  have hrow : exec (.svSampleDeadline ctx) s = execSvSampleDeadline ctx s := rfl
  rw [hrow, execSvSampleDeadline]
  dsimp only
  split
  · rfl
  · next z l hbuf =>
    rw [if_pos]
    have hoff := h.resolve_left (by simp [hbuf])
    simp [hoff]

/-- The instant by which the sample after `z` is due for the resampler's window (R196). -/
def sampleDue (s : State) (k : Nat) (z : SvSample) : Int :=
  z.t + svT (streamBytes s k) + (usU (latBudget s k) : Nat) - 2 * svT (streamBytes s k)

/-- The first record slot of the Milestone in progress, or after it, that lies at or beyond an instant, or the Milestone's opening. -/
def slotAt (s : State) (at_ : Int) : Int :=
  let q : Int := ((s.clk.len / 4 : Nat) : Int)
  (s.clk.msTai : Int) + (if at_ ≤ s.clk.msTai then 0 else (at_ - s.clk.msTai + q - 1) / (max q 1)) * q

/-- No slot lies before the instant it is the slot of. -/
theorem le_slotAt (hlen : 4 ≤ s.clk.len) (at_ : Int) : at_ ≤ slotAt s at_ := by
  have hq : 1 ≤ ((s.clk.len / 4 : Nat) : Int) := by omega
  unfold slotAt
  dsimp only
  generalize ((s.clk.len / 4 : Nat) : Int) = q at hq ⊢
  split
  · omega
  · have hceil := Int.lt_ediv_add_one_mul_self (at_ - s.clk.msTai + q - 1) (b := q) (by omega)
    rw [Int.add_mul] at hceil
    rw [Int.max_eq_left hq]
    omega

/-- The record slots before the deadline of the sample after `z` have their words. -/
def deadlineReached (k : Nat) (z : SvSample) (s : State) : State :=
  svCatchUp k 4 (setClk (·.advance (slotAt s (sampleDue s k z) - s.clk.taiOfs).toNat) s)

theorem exec_svSampleDeadline {z : SvSample} {l : List SvSample} (hbuf : (svCtx s ctx.toNat).buf = z :: l) (hen : svEn s ctx.toNat = true) :
    exec (.svSampleDeadline ctx) s = .next (settle (
      if sampleDue s ctx.toNat z ≤ slotAt s (sampleDue s ctx.toNat z) ∧
        (svCtx (deadlineReached ctx.toNat z s) ctx.toNat).buf.head? = some z
      then svMissOne ctx.toNat (deadlineReached ctx.toNat z s) else deadlineReached ctx.toNat z s)) := by
  have hrow : exec (.svSampleDeadline ctx) s = execSvSampleDeadline ctx s := rfl
  rw [hrow, execSvSampleDeadline]
  simp only [hbuf, hen, Bool.not_true, Bool.false_eq_true, if_false, Bool.and_eq_true, decide_eq_true_eq, beq_iff_eq]
  rfl

/-- A deadline that passes without the sample after the newest puts a missing one there, and what frames alone change stays. -/
theorem exec_svSampleDeadline_frame (hbuf : (svCtx s ctx.toNat).buf ≠ []) (hen : svEn s ctx.toNat = true) (hk : ctx.toNat < s.net.sv.length) :
    ∃ t, exec (.svSampleDeadline ctx) s = .next t ∧ s.clk.mono ≤ t.clk.mono ∧
      received (svCtx t ctx.toNat) = received (svCtx s ctx.toNat) ∧
      (4 ≤ s.clk.len → (svCtx t ctx.toNat).buf.head? ≠ (svCtx s ctx.toNat).buf.head?) := by
  obtain ⟨z, l, hz⟩ := List.exists_cons_of_ne_nil hbuf
  rw [exec_svSampleDeadline hz hen, hz]
  generalize hu : deadlineReached ctx.toNat z s = u
  have hreached : unresampled ctx.toNat u = unresampled ctx.toNat (setClk (·.advance (slotAt s (sampleDue s ctx.toNat z) - s.clk.taiOfs).toNat) s) := by
    rw [← hu]
    exact unresampled_svCatchUp ..
  have hnow : s.clk.mono ≤ u.clk.mono := by
    rw [clk_of_unresampled hreached]
    exact Nat.le_max_left ..
  have hkept : received (svCtx u ctx.toNat) = received (svCtx s ctx.toNat) := (received_of_unresampled hreached :)
  have hlen : ctx.toNat < u.net.sv.length := (length_of_unresampled hreached).symm ▸ hk
  have settled (v : State) : svCtx (settle v) ctx.toNat = svCtx v ctx.toNat := by
    rw [svCtx, net_of_unsupervised (unsupervised_settle v)]
    rfl
  refine ⟨_, rfl, ?_, ?_, fun hq => ?_⟩
  · rw [clk_of_unsupervised (unsupervised_settle _)]
    split
    · rwa [clk_of_unresampled (unresampled_svMissOne u _)]
    · exact hnow
  · rw [settled]
    split
    · exact (received_of_unresampled (unresampled_svMissOne u _)).trans hkept
    · exact hkept
  · rw [settled]
    split
    · next hmissing => exact svMissOne_head_ne hlen hmissing.2
    · next hplaced => exact fun hsame => hplaced ⟨le_slotAt hq _, hsame⟩

theorem exec_svSyncLossTimeout_of_none (h : svEn s ctx.toNat = false ∨ (svCtx s ctx.toNat).seen = false ∨ (svCtx s ctx.toNat).sync = true) :
    exec (.svSyncLossTimeout ctx) s = .next s := by
  have hrow : exec (.svSyncLossTimeout ctx) s = execSvSyncLossTimeout ctx s := rfl
  rw [hrow, execSvSyncLossTimeout, if_pos]
  rcases h with h | h | h <;> simp [h]

theorem exec_svSyncLossTimeout (hen : svEn s ctx.toNat = true) (hseen : (svCtx s ctx.toNat).seen = true) (hsync : (svCtx s ctx.toNat).sync = false) :
    exec (.svSyncLossTimeout ctx) s = .next (setSv ctx.toNat (fun x => { x with lossInv := true }) (svCatchUp ctx.toNat 4
      { s with clk := s.clk.advance ((svCtx s ctx.toNat).unsyncAt + msU (u16At (streamBytes s ctx.toNat) 0x22)) })) := by
  have hrow : exec (.svSyncLossTimeout ctx) s = execSvSyncLossTimeout ctx s := rfl
  rw [hrow, execSvSyncLossTimeout, if_neg (by simp [hen, hseen, hsync])]
  rfl

end

/-- Settles O42: a frame by the step that ends its course, a timeout by whether its context waits for it. -/
theorem subscriptionRows : Obligations.SubscriptionRows := by
  unfold Obligations.SubscriptionRows
  refine ⟨fun s f h => exec_svFrameRx_of_none (takeIn_of_disabled h), fun s f h => exec_gooseFrameRx_of_none (takeIn_of_disabled h),
    fun s b f h => ⟨exec_svFrameRx_of_unmatched h, ?_⟩, fun s b f h => ⟨exec_gooseFrameRx_of_unmatched h, ?_⟩, fun s ctx => ?_⟩
  · rintro k hmatch _ rfl _ rfl
    obtain ⟨hk, hen⟩ := svMatch_some hmatch
    refine ⟨hk, hen, fun hauth hlen => ?_, exec_svFrameRx_of_copy h hmatch, fun hauth hfirst hlen hcount => ?_⟩
    · obtain ⟨t, hexec, hctx⟩ := exec_svFrameRx_of_unverified h hmatch hauth (by omega)
      exact ⟨t, hexec, by rw [hctx], by rw [hctx], by rw [hctx]⟩
    · obtain ⟨t, hexec, hctx⟩ := exec_svFrameRx_of_count h hmatch hauth hfirst (by omega) hcount
      exact ⟨t, hexec, congrArg Received.confErr hctx, congrArg Received.frames hctx, congrArg Received.last hctx⟩
  · rintro k hmatch hlen _ rfl _ rfl
    have hk := goMatch_lt hmatch
    refine ⟨hk, exec_gooseFrameRx_of_unverified h hmatch, ?_⟩
    rintro hauth _ rfl
    refine ⟨exec_gooseFrameRx_of_copy h hmatch hauth, ?_⟩
    rintro hfirst _ rfl
    have hexec := exec_gooseFrameRx_of_first h hmatch hauth hfirst
    have hw : streamBytes (dedup f.head b).2 k = streamBytes b k := by rw [streamBytes, dedup_tbl]; rfl
    have hx : gooseCtx (dedup f.head b).2 k = gooseCtx b k := by rw [gooseCtx, dedup_goose]; rfl
    refine ⟨fun hmisfit => ?_, fun hrev hcount htypes => ⟨_, hexec, ?_⟩⟩
    · rw [hexec, goDeliver_of_misfit (by rw [hw]; exact hmisfit)]
    · have hctx := goDeliver_of_fit (s := (dedup f.head b).2) (f := f) (k := k) (by simp [goMisfit, hw, hrev, hcount, htypes])
        (by rw [dedup_goose]; omega)
      rw [hw, hx] at hctx
      refine ⟨fun hseen hst hold => ?_, fun hseen hst hbeyond => ?_, fun hnew => ?_⟩
      · rw [hctx, if_neg (by simp [hseen, hst]), if_neg (by simp [hold])]
      · rw [hctx, if_neg (by simp [hseen, hst]), if_pos hbeyond, ← rxStamp_dedup f.head]
        exact ⟨rfl, rfl, rfl, rfl, rfl⟩
      · rw [hctx, if_pos hnew]
        exact ⟨rfl, rfl, rfl, rfl⟩
  · have hk : ctx.toNat < 256 := ctx.isLt
    refine ⟨exec_gooseTalExpiry_of_none, fun d h hlen => exec_gooseTalExpiry h (by omega), exec_svSampleDeadline_of_idle,
      fun hbuf hen hlen => ?_, exec_svSyncLossTimeout_of_none, exec_svSyncLossTimeout⟩
    obtain ⟨t, hexec, hnow, hkept, hhead⟩ := exec_svSampleDeadline_frame hbuf hen (by omega)
    exact ⟨t, hexec, hnow, congrArg Received.last hkept, congrArg Received.frames hkept, hhead⟩

end Sys2Proof.Machine.Laws
end

section
/-! SUPPORT. The filter chain of a cluster: what stopping and starting it does to lanes and chains, and the commands that stop it, start
it and load its user sets (R240-R242, R250). -/

namespace Sys2Proof.Machine.Laws
open Sys2Proof Sys2Proof.Machine Sys2Proof.Safety

/-! ### Lanes and chains -/

/-- A place of a list that an update by places leaves as it was, or that the list does not have, reads the same. -/
theorem getD_mapIdx_of_kept {α : Type} {f : Nat → α → α} {l : List α} {i : Nat} (d : α) (h : ∀ x, f i x = x) :
    (l.mapIdx f).getD i d = l.getD i d := by
  rw [List.getD_eq_getElem?_getD, List.getD_eq_getElem?_getD, List.getElem?_mapIdx]
  cases l[i]? with
  | none => rfl
  | some x => exact h x

section
variable (c : Nat) (s : State)

theorem chainSt_setChain_same (f : ChainSt → ChainSt) (h : c < s.filt.chains.length) : chainSt (setChain c f s) c = f (chainSt s c) :=
  getD_modAt_same f _ h

theorem chainSt_setChain_ne (f : ChainSt → ChainSt) {k : Nat} (h : k ≠ c) : chainSt (setChain c f s) k = chainSt s k :=
  getD_modAt_ne _ f _ h

/-- A synchronising reset leaves the lanes that are not in its set (R250). -/
theorem laneSt_syncReset_of_not {p : Nat → Bool} {l : Nat} (h : p l = false) : laneSt (syncReset p s) l = laneSt s l :=
  getD_mapIdx_of_kept _ fun _ => if_neg (by simp [h])

/-- Where a chain stops, a lane of its cluster is a stopped lane (R240). -/
theorem laneSt_applyFiltStop {l : Nat} (hl : l < s.filt.lanes.length) (hc : l / 64 = c) :
    laneSt (applyFiltStop c s) l = stoppedLane (laneSt s l) := by
  simp [laneSt, applyFiltStop, setChain, List.getD_eq_getElem?_getD, hl, hc]

/-- The lanes of another cluster are as before. -/
theorem laneSt_applyFiltStop_ne {l : Nat} (hc : l / 64 ≠ c) : laneSt (applyFiltStop c s) l = laneSt s l :=
  getD_mapIdx_of_kept _ fun _ => if_neg (by simp [hc])

theorem laneSt_startChain_ne (t12 : Bool) {l : Nat} (hc : l / 64 ≠ c) : laneSt (startChain c t12 s) l = laneSt s l :=
  laneSt_syncReset_of_not _ (beq_false_of_ne hc)

/-- The synchronising reset leaves the chain as the start has set it. -/
theorem chainSt_startChain (t12 : Bool) (h : c < s.filt.chains.length) :
    chainSt (startChain c t12 s) c = { chainSt s c with running := true, t12 := t12 } :=
  chainSt_setChain_same _ _ _ h

/-- The same update of several chains, as one of the filter state. -/
theorem foldl_setChain (f : ChainSt → ChainSt) (l : List Nat) : l.foldl (fun s q => setChain q f s) s =
    setFilt (fun x => { x with chains := l.foldl (fun m q => modAt m q f) x.chains }) s := by
  induction l generalizing s with
  | nil => rfl
  | cons q l ih => exact ih (setChain q f s)

end

section
variable {a : PendAct} {n : Nat} (s : State)

theorem runAct_filtStop (h : a.act = .filtStop n) : runAct s a = actDone a (applyFiltStop n s) := by rw [runAct, h]
theorem runAct_filtStart {t12 : Bool} (h : a.act = .filtStart n t12) : runAct s a = actDone a (startChain n t12 s) := by rw [runAct, h]

end

/-- A stopped lane reads 0 with INV wherever an output of it is read (R8, R240). -/
theorem stoppedLane_reads (st : LaneSt) :
    (∀ k, (stoppedLane st).words.getD k {} = { v := 0, q := Qb.inv } ∧ (stoppedLane st).tap.getD k {} = { v := 0, q := Qb.inv }) ∧
    (stoppedLane st).fineDft = { re := 0, im := 0, q := Qb.inv } ∧ (stoppedLane st).fineCos = { re := 0, im := 0, q := Qb.inv } ∧
    (stoppedLane st).fast = List.replicate 4 { re := 0, im := 0, q := Qb.inv } ∧ (stoppedLane st).monitor = [{ v := 0, q := Qb.inv }] :=
  ⟨fun _ => ⟨rfl, rfl⟩, rfl, rfl, rfl, rfl⟩

/-- Settles O14: the acts at the boundary by what stopping and starting leave of the cluster's chain, its lanes and the others. -/
theorem filterEffects : Obligations.FilterEffects := by
  unfold Obligations.FilterEffects
  refine ⟨fun a n s ha hn => ⟨applyFiltStop n s, runAct_filtStop s ha, rfl, ?_, ?_, ?_, ?_⟩,
    fun a n t12 s ha hn => ⟨startChain n t12 s, runAct_filtStart s ha, rfl, ?_, ?_, ?_, ?_⟩⟩
  · exact congrArg ChainSt.running (chainSt_setChain_same n s _ hn)
  · exact fun k hk => chainSt_setChain_ne n s _ hk
  · intro l hl hc
    rw [laneSt_applyFiltStop n s hl hc]
    exact stoppedLane_reads _
  · exact fun l hc => laneSt_applyFiltStop_ne n s hc
  · rw [chainSt_startChain n s t12 hn]
  · rw [chainSt_startChain n s t12 hn]
  · exact fun k hk => chainSt_setChain_ne n s _ hk
  · exact fun l hc => laneSt_startChain_ne n s t12 hc

/-! ### The commands -/

/-- The user set of these coefficients: the delay and the gain at the fundamental are computed at the rate of its stage, and stage 1 has the
delay of a symmetric set (R242). -/
def coefSet (one : Bool) (k : List Int) : CoefSet :=
  let gd := gainDelay k (if one then 768 else 384)
  { c := k, delay := if one then 9 * 256 else gd.2.toNat, gain := gd.1 }

/-- No word of the block offends: its unused byte is 0, and a set for stage 1 is symmetric (R242). -/
def WordsFit (one : Bool) (n : Nat) (blk : Bytes) : Prop :=
  ∀ i, i < n → fld blk (4 * i) 24 8 = 0 ∧ (one = true → (coefsOf blk n).getD i 0 = (coefsOf blk n).getD (18 - i) 0)

/-- A set for stage 3 has a gain of at least one half and a delay of 0 to 62 record slots (R242). -/
def LimitsFit (one : Bool) (gd : Nat × Int) : Prop := one = false → 2 ^ 29 ≤ gd.1 ∧ 0 ≤ gd.2 ∧ gd.2 ≤ 62 * 256

/-- The set is put in every addressed chain, at its place among the user sets. -/
def loadCoefs (c : Cmd) (one : Bool) (set : CoefSet) (s : State) : State :=
  setFilt (fun x => { x with chains := (coefClusters s c.unit).foldl (fun l q => modAt l q (fun ch =>
    { ch with user := modAt ch.user (if one then 0 else c.at_ 0x14 4 4 - 1) (fun _ => set) })) x.chains }) s

/-- The model finds no offending word in such a block. -/
theorem findIdxBelow_of_wordsFit {one : Bool} {n : Nat} {blk : Bytes} (h : WordsFit one n blk) : findIdxBelow n (fun i =>
    fld blk (4 * i) 24 8 != 0 || (one && (coefsOf blk n).getD i 0 != (coefsOf blk n).getD (18 - i) 0)) = none := by
  refine List.find?_eq_none.mpr fun i hi => ?_
  obtain ⟨hzero, hsymm⟩ := h i (List.mem_range.mp hi)
  cases one with
  | false => simp [hzero]
  | true => rw [hzero, hsymm rfl]; simp

/-- The model finds no fault in such a set: one for stage 1 has no limits, one for stage 3 is within them. -/
theorem not_unfit_of_limitsFit {one : Bool} {stage : Nat} {gd : Nat × Int} (hone : one = (stage == 1)) (h : LimitsFit one gd) :
    ¬(stage == 3 && (decide (gd.1 < 2 ^ 29) || decide (gd.2 < 0) || decide (62 * 256 < gd.2))) = true := by
  cases one with
  | true => simp [eq_of_beq hone.symm]
  | false =>
    obtain ⟨hgain, hlow, hhigh⟩ := h rfl
    simp only [Nat.not_lt.mpr hgain, Int.not_lt.mpr hlow, Int.not_lt.mpr hhigh, decide_false, Bool.or_false, Bool.and_false,
      Bool.false_eq_true, not_false_eq_true]

section
variable {c : Cmd} {s : State} {f : InFlight} (h : Starts c s f)
include h

/-- FILT.STOP by whether the chain runs (R240). -/
theorem exec_filtStop (hp : Passes (filtJudge c [] s) c s f) : exec (.filtStop c) s = .next (
    if chainLatest (begun c s) c.unit = true then waits c 0 0 (.filtStop c.unit) (begun c s) else answer c {} (begun c s)) := by
  have hrow : exec (.filtStop c) s = execFiltStop c s := rfl
  rw [hrow, execFiltStop, command_cameTo h hp]
  cases chainLatest (begun c s) c.unit <;> rfl

/-- FILT.START by whether the chain runs and what is in its way (R241). -/
theorem exec_filtStart (hp : Passes (filtJudge c [(0x14, 0, 1)] s) c s f) : exec (.filtStart c) s = .next (
    if chainLatest (begun c s) c.unit = true then answer c (Reply.refuse Rsn.state) (begun c s)
    else match startObstacle (begun c s) sectionNames c.unit (c.at_ 0x14 0 1 == 1) with
      | some (x, cause) => answer c { Reply.refuse Rsn.state with result := x + place cause 16 8 } (begun c s)
      | none => waits c 0 0 (.filtStart c.unit (c.at_ 0x14 0 1 == 1)) (begun c s)) := by
  have hrow : exec (.filtStart c) s = execFiltStart c s := rfl
  rw [hrow, execFiltStart, command_cameTo h hp]
  dsimp only
  cases chainLatest (begun c s) c.unit with
  | true => rfl
  | false => cases startObstacle (begun c s) sectionNames c.unit (c.at_ 0x14 0 1 == 1) <;> rfl

/-- FILT.COEF of a block in which nothing offends: the set is loaded (R242). -/
theorem exec_filtCoef (hp : Passes (coefJudge c s) c s f) {one : Bool} {n : Nat} {blk : Bytes} (hone : one = (c.at_ 0x14 0 4 == 1))
    (hn : n = if one then 19 else 63) (hblk : readBlock c (4 * n) (begun c s) = .ok blk) (hwords : WordsFit one n blk)
    (hlimits : LimitsFit one (gainDelay (coefsOf blk n) (if one then 768 else 384))) :
    exec (.filtCoef c) s = .next (answer c
      { result := (coefSet one (coefsOf blk n)).delay + place (coefSet one (coefsOf blk n)).gain 16 32, effect := some (begun c s).clk.ms }
      (loadCoefs c one (coefSet one (coefsOf blk n)) (begun c s))) := by
  have hrow : exec (.filtCoef c) s = execFiltCoef c s := rfl
  rw [hrow, execFiltCoef, command_cameTo h hp]
  simp only [← hone, ← hn, hblk, findIdxBelow_of_wordsFit hwords]
  rw [if_neg (not_unfit_of_limitsFit hone hlimits), foldl_setChain]
  rfl

end

/-- Settles O13: each command by the state of its chain and what is in its way, and FILT.COEF by its block. -/
theorem filterCommands : Obligations.FilterCommands := by
  unfold Obligations.FilterCommands
  rintro c s _ f h rfl
  refine ⟨exec_filtStop h, exec_filtStart h, ?_⟩
  rintro hp one n blk hone hn hblk hwords _ rfl hlimits _ rfl
  exact exec_filtCoef h hp hone hn hblk hwords hlimits

end Sys2Proof.Machine.Laws
end

section
/-! SUPPORT. One check of the plausibility model: what ends a count, a lasting fault and an episode, and what the rows that judge a bay's
check leave of the bay (R275-R277). -/

namespace Sys2Proof.Machine.Laws
open Sys2Proof Sys2Proof.Machine

/-! ### The parts of an evaluation -/

section
variable (n mono pn pw : Nat) {c : Chk}

/-- A check is made lasting, and its episode ended, by a count that reaches PLB_N (R275). -/
theorem chkLasting_fst (c : Chk) :
    (chkLasting pn c).1 = if c.last = false ∧ pn ≤ c.win.length then { c with last := true, ep := false } else c := by
  simp only [chkLasting, apply_ite Prod.fst, Bool.and_eq_true, Bool.not_eq_true', decide_eq_true_eq]

/-- A lasting check is cleared, and its window emptied, by PLB_W Milestones without an exceedance (R276). -/
theorem chkCleared_fst (c : Chk) :
    (chkCleared pw c).1 = if c.last = true ∧ pw ≤ c.streak then { c with last := false, win := [], streak := 0 } else c := by
  simp only [chkCleared, apply_ite Prod.fst, Bool.and_eq_true, decide_eq_true_eq]

/-- An episode goes on until PLB_W Milestones after its last exceedance (R277). -/
theorem chkEpisode_fst_of_not_over (h : c.ep = false ∨ n < c.lastExc + pw) : (chkEpisode n mono pw c).1 = c := by
  rcases h with h | h
  · simp [chkEpisode, h]
  · simp [chkEpisode, Nat.not_le.mpr h]

section
variable (hep : c.ep = true) (hover : c.lastExc + pw ≤ n)
include hep hover

/-- An episode that is over and whose record is due: none was written, or none in the last 60 s (R277). -/
theorem chkEpisode_fst_of_due (h : c.recAt = none ∨ ∃ a, c.recAt = some a ∧ a + secU 60 ≤ mono) :
    (chkEpisode n mono pw c).1 = { c with ep := false, recAt := some mono, folded := 0 } := by
  rcases h with h | ⟨a, h, ha⟩
  · simp [chkEpisode, hep, hover, h]
  · simp [chkEpisode, hep, hover, h, ha]

/-- An episode that is over within 60 s of the last record is folded into the next (R277). -/
theorem chkEpisode_fst_of_recent {a : Nat} (h : c.recAt = some a) (ha : mono < a + secU 60) :
    (chkEpisode n mono pw c).1 = { c with ep := false, folded := c.folded + 1 } := by
  simp [chkEpisode, hep, hover, h, Nat.not_le.mpr ha]

theorem chkEpisode_fst_ep : (chkEpisode n mono pw c).1.ep = false := by
  simp [chkEpisode, hep, hover]

end

end

/-! ### The bays after the staging of events -/

section
variable (s : State)

@[simp] theorem stageItem_bays (cl : Nat) (i : StagedItem) : (stageItem cl i s).prot.bays = s.prot.bays := rfl

@[simp] theorem stageEvent_bays (cl src code unit : Nat) (data : Bytes) : (stageEvent cl src code unit data s).prot.bays = s.prot.bays := rfl

@[simp] theorem stageChk_bays (cl code ph unit : Nat) (c : Chk) (evs : List ChkEv) :
    (stageChk cl code ph unit c evs s).prot.bays = s.prot.bays := by
  refine List.foldlRecOn (motive := fun t : State => t.prot.bays = s.prot.bays) _ _ rfl fun t ht e _ => ?_
  cases e with
  | exceed | lasting | cleared => exact ht
  | episode peak peakB cnt folded rec_ => cases rec_ <;> exact ht

@[simp] theorem clear12_bays (cl unit : Nat) (lasting : Bool) : (clear12 cl unit lasting s).prot.bays = s.prot.bays := by
  unfold clear12
  split <;> rfl

@[simp] theorem clearSect_bays (k : Nat) : (clearSect k s).prot.bays = s.prot.bays := clear12_bays ..

@[simp] theorem settle_bays : (settle s).prot.bays = s.prot.bays := congrArg ProtSt.bays (prot_of_unsupervised (unsupervised_settle s))

end

section
variable {s t : State} {b : Nat}

theorem bayRun_of_bays (h : t.prot.bays = s.prot.bays) : bayRun t b = bayRun s b := by rw [bayRun, bayProt, h]; rfl

theorem bayRun_setRun_same (f : BayRun → BayRun) (h : b < s.prot.bays.length) : bayRun (setRun b f s) b = f (bayRun s b) :=
  congrArg BayProt.cur (getD_modAt_same _ _ h)

end

/-! ### The rows -/

section
variable {s : State} {unit code ph : Nat} (f : Bytes → Chk → Chk × List ChkEv)

/-- A row of a unit that no check of the code can have changes nothing. -/
theorem chkRow_of_absent (h : chkUnit s unit code = false) : chkRow f unit code ph s = s := by simp [chkRow, h]

/-- A row of a bay's check of I_N changes that check as the part it judges does, and nothing else of the bay. -/
theorem bayRun_chkRow_inChk {bay : Nat} (hunit : chkUnit s bay 1 = true) (hbay : bay < s.prot.bays.length) :
    bayRun (chkRow f bay 1 ph s) bay = { bayRun s bay with inChk := (f (bayBytes s bay) (bayRun s bay).inChk).1 } := by
  have hrow : (chkRow f bay 1 ph s).prot.bays =
      (setRun bay (fun r => { r with inChk := (f (bayBytes s bay) (bayRun s bay).inChk).1 }) s).prot.bays := by
    unfold chkRow
    rw [hunit, Bool.not_true, if_neg Bool.false_ne_true]
    exact (settle_bays _).trans (stageChk_bays ..)
  rw [bayRun_of_bays hrow, bayRun_setRun_same _ hbay]

end

section
variable {s : State} (unit : BitVec 16) (code : BitVec 3) (ph : BitVec 2)

theorem exec_plausibilityLasting : exec (.plausibilityLasting unit code ph) s =
    .next (chkRow (fun b c => chkLasting (plbN b) c) unit.toNat code.toNat ph.toNat s) := rfl

theorem exec_plausibilityEpisodeEnd : exec (.plausibilityEpisodeEnd unit code ph) s =
    .next (chkRow (fun b c => chkEpisode s.clk.ms s.clk.mono (plbW b) c) unit.toNat code.toNat ph.toNat s) := rfl

theorem exec_plausibilityCleared_of_absent (h : chkUnit s unit.toNat code.toNat = false) :
    exec (.plausibilityCleared unit code ph) s = .next s := by
  have hrow : exec (.plausibilityCleared unit code ph) s = execPlausibilityCleared unit code ph s := rfl
  simp only [hrow, execPlausibilityCleared, chkRow_of_absent _ h, h, Bool.not_false, if_true]

/-- Clearing source 12 leaves the bays as the row has left them. -/
theorem exec_plausibilityCleared_bays : ∃ t, exec (.plausibilityCleared unit code ph) s = .next t ∧
    t.prot.bays = (chkRow (fun b c => chkCleared (plbW b) c) unit.toNat code.toNat ph.toNat s).prot.bays := by
  refine ⟨_, rfl, ?_⟩
  dsimp only
  split
  · rfl
  · split
    · exact clear12_bays ..
    · exact clearSect_bays ..

end

section
variable {s : State} {bay : Nat} (ph : BitVec 2) (hbay : bay < 2 ^ 16) (hlen : bay < s.prot.bays.length) (hunit : chkUnit s bay 1 = true)
include hbay hlen hunit

theorem bayRun_plausibilityLasting : ∃ t, exec (.plausibilityLasting (BitVec.ofNat 16 bay) 1 ph) s = .next t ∧
    bayRun t bay = { bayRun s bay with inChk := (chkLasting (plbN (bayBytes s bay)) (bayRun s bay).inChk).1 } := by
  refine ⟨_, exec_plausibilityLasting .., ?_⟩
  rw [BitVec.toNat_ofNat, Nat.mod_eq_of_lt hbay]
  exact bayRun_chkRow_inChk _ hunit hlen

theorem bayRun_plausibilityCleared : ∃ t, exec (.plausibilityCleared (BitVec.ofNat 16 bay) 1 ph) s = .next t ∧
    bayRun t bay = { bayRun s bay with inChk := (chkCleared (plbW (bayBytes s bay)) (bayRun s bay).inChk).1 } := by
  obtain ⟨t, ht, hbays⟩ := exec_plausibilityCleared_bays (s := s) (BitVec.ofNat 16 bay) 1 ph
  rw [BitVec.toNat_ofNat, Nat.mod_eq_of_lt hbay] at hbays
  exact ⟨t, ht, (bayRun_of_bays hbays).trans (bayRun_chkRow_inChk _ hunit hlen)⟩

theorem bayRun_plausibilityEpisodeEnd : ∃ t, exec (.plausibilityEpisodeEnd (BitVec.ofNat 16 bay) 1 ph) s = .next t ∧
    bayRun t bay =
      { bayRun s bay with inChk := (chkEpisode s.clk.ms s.clk.mono (plbW (bayBytes s bay)) (bayRun s bay).inChk).1 } := by
  refine ⟨_, exec_plausibilityEpisodeEnd .., ?_⟩
  rw [BitVec.toNat_ofNat, Nat.mod_eq_of_lt hbay]
  exact bayRun_chkRow_inChk _ hunit hlen

end

/-- Settles O49: each row leaves of the bay what its part of the evaluation makes of the check, and the parts go by their conditions. -/
theorem plausibilityRows : Obligations.PlausibilityRows := by
  unfold Obligations.PlausibilityRows
  refine ⟨fun s unit code ph h => ⟨congrArg _ (chkRow_of_absent _ h), exec_plausibilityCleared_of_absent unit code ph h,
    congrArg _ (chkRow_of_absent _ h)⟩, ?_⟩
  rintro s bay ph _ hlt hlen hunit rfl
  have hbay : bay < 2 ^ 16 := by omega
  refine ⟨?_, ?_, ?_⟩
  · obtain ⟨t, ht, hrun⟩ := bayRun_plausibilityLasting ph hbay hlen hunit
    rw [chkLasting_fst] at hrun
    exact ⟨t, ht, by rw [hrun], by rw [hrun], by rw [hrun]⟩
  · obtain ⟨t, ht, hrun⟩ := bayRun_plausibilityCleared ph hbay hlen hunit
    rw [chkCleared_fst] at hrun
    exact ⟨t, ht, by rw [hrun], by rw [hrun]⟩
  · obtain ⟨t, ht, hrun⟩ := bayRun_plausibilityEpisodeEnd ph hbay hlen hunit
    refine ⟨t, ht, ?_⟩
    rw [hrun]
    refine ⟨fun hep hover => ⟨chkEpisode_fst_ep _ _ _ hep hover, fun hdue => ?_, fun a hrec hrecent => ?_⟩,
      chkEpisode_fst_of_not_over _ _ _⟩
    · simp only [chkEpisode_fst_of_due _ _ _ hep hover hdue, and_self]
    · simp only [chkEpisode_fst_of_recent _ _ _ hep hover hrec hrecent, hrec, and_self]

end Sys2Proof.Machine.Laws
end

section
/-! SUPPORT. BAY.READ of the trip status: the length of its block, which goes by the inputs whose edges were noted when the pins were last
set (R386). -/

namespace Sys2Proof.Machine.Laws
open Sys2Proof Sys2Proof.Machine Sys2Proof.Safety

theorem pinStatus_length (s : State) (p : Nat) : (pinStatus s p).length = 16 := by
  simp only [pinStatus, List.length_append, leBytes_length]

/-- The block is of 800 bytes where the edges of 64 inputs are noted, and of no other length. -/
theorem tripStatusBlock_length (s : State) : (tripStatusBlock s).length = 544 + 4 * s.trip.edgeAtSet.length := by
  have hpins := flatMap_length_const (List.range 32) (pinStatus s) 16 fun p _ => pinStatus_length s p
  have hedges := flatMap_length_const s.trip.edgeAtSet (leBytes 4) 4 fun e _ => leBytes_length 4 e
  simp only [tripStatusBlock, List.length_append, leBytes_length, hpins, hedges, List.length_range]

/-- BAY.READ of the trip status. -/
def tripRead : Cmd := consoleCmd 0x0303 0x0200 []

/-- A device in SERVICE with that command in flight and the edge of no input noted. -/
def edgesUnnoted : State :=
  { mode := { mode := .service, mbReady := true }, host := { inflight := [{ cmd := tripRead }] }, trip := { edgeAtSet := [] } }

theorem starts_tripRead : Starts tripRead edgesUnnoted { cmd := tripRead } :=
  ⟨by decide, by decide +kernel, rfl, by decide +kernel⟩

theorem passes_tripRead : Passes (readJudge tripRead edgesUnnoted) tripRead edgesUnnoted { cmd := tripRead } :=
  Option.isNone_iff_eq_none.mp (by decide +kernel)

/-- Refutes O12: the trip status block ends with 4 bytes for each noted edge, so that it is of 544 bytes, not 800, in a state that notes none.
Every list of 64 edges, which is what reset and the setting of the pins leave, gives 800. -/
theorem not_bayReads : ¬ Obligations.BayReads := by
  unfold Obligations.BayReads
  intro h
  obtain ⟨-, -, -, htrip, -, -⟩ := h tripRead edgesUnnoted { cmd := tripRead } starts_tripRead passes_tripRead _ rfl
  obtain ⟨-, hlength⟩ := htrip (by decide +kernel)
  rw [tripStatusBlock_length] at hlength
  exact absurd hlength (by decide)

end Sys2Proof.Machine.Laws
end

section
/-! SUPPORT. What a timer of a bay or a section changes: the count moved on to its deadline, and a bay whose stages or elements it has
changed (R292, log entry 2). -/

namespace Sys2Proof.Machine.Laws
open Sys2Proof Sys2Proof.Machine

/-! ### The count moved on to a deadline -/

section
variable {s : State} {d : Nat}

theorem reach_of_le (h : d ≤ endOfMs s) : reach d s = setClk (·.advance d) s := if_pos h

theorem reach_of_lt (h : endOfMs s < d) : reach d s = s := if_neg (Nat.not_le.mpr h)

@[simp] theorem reach_prot : (reach d s).prot = s.prot := by
  unfold reach
  split <;> rfl

@[simp] theorem endOfMs_reach : endOfMs (reach d s) = endOfMs s := by
  unfold reach
  split <;> rfl

@[simp] theorem bayLive_reach (b : Nat) : bayLive (reach d s) b = bayLive s b := by
  unfold reach
  split <;> rfl

end

/-! ### One element of a list, one bay, one section -/

section
variable {α : Type} {l : List α} {i : Nat} {f : α → α} {d : α}

theorem getD_eq_of_lt (d : α) (h : i < l.length) : l.getD i d = l[i] := by
  rw [List.getD_eq_getElem?_getD, List.getElem?_eq_getElem h, Option.getD_some]

theorem modAt_eq_set (d : α) (h : i < l.length) : modAt l i f = l.set i (f (l.getD i d)) := by
  refine List.ext_getElem? fun j => ?_
  rw [modAt, getD_eq_of_lt d h]
  by_cases hj : i = j
  · subst hj
    rw [List.getElem?_modify_eq, List.getElem?_set_self h, List.getElem?_eq_getElem h]
    rfl
  · rw [List.getElem?_modify_ne _ _ hj, List.getElem?_set_ne hj]

theorem modAt_of_fixed (h : f (l.getD i d) = l.getD i d) (hi : i < l.length) : modAt l i f = l := by
  rw [modAt_eq_set d hi, h, getD_eq_of_lt d hi, List.set_getElem_self]

end

section
variable {s t : State} {b k : Nat}

@[simp] theorem setRun_clk (f : BayRun → BayRun) : (setRun b f s).clk = s.clk := rfl

@[simp] theorem setSect_clk (f : SectRun → SectRun) : (setSect k f s).clk = s.clk := rfl

theorem bayRun_of_prot (h : t.prot = s.prot) : bayRun t b = bayRun s b := bayRun_of_bays (congrArg ProtSt.bays h)

theorem bayRun_setRun_reach (f : BayRun → BayRun) (d : Nat) (h : b < s.prot.bays.length) :
    bayRun (setRun b f (reach d s)) b = f (bayRun s b) := by
  rw [bayRun_setRun_same f (by rwa [reach_prot]), bayRun_of_prot reach_prot]

theorem sectRun_of_sects (h : t.prot.sects = s.prot.sects) : sectRun t k = sectRun s k := by
  rw [sectRun, h]
  rfl

theorem sectRun_setSect_same (f : SectRun → SectRun) (h : k < s.prot.sects.length) : sectRun (setSect k f s) k = f (sectRun s k) :=
  getD_modAt_same f _ h

/-- What an update of a bay leaves of every run is left of the run of each bay. -/
theorem bayRun_setRun_of_kept {β : Type} (p : BayRun → β) {f : BayRun → BayRun} (h : ∀ r, p (f r) = p r) (i : Nat) :
    p (bayRun (setRun i f s) b) = p (bayRun s b) :=
  getD_modAt_of_kept s.prot.bays i {} (fun x => p x.cur) (fun x => h x.cur) b

theorem lt_length_of_bayLive (h : bayLive s b = true) : b < s.prot.bays.length := by
  refine Nat.lt_of_not_le fun hb => ?_
  have hrun : bayRun s b = {} := by
    rw [bayRun, bayProt, List.getD_eq_getElem?_getD, List.getElem?_eq_none hb, Option.getD_none]
  rw [bayLive, hrun] at h
  exact Bool.noConfusion h

/-- What each step of a walk over the running bays leaves, the walk leaves. -/
theorem forBays_kept {β : Type} (p : State → β) {f : Nat → State → State} (h : ∀ i s, p (f i s) = p s) (s : State) :
    p (forBays f s) = p s :=
  List.foldlRecOn (motive := fun t => p t = p s) _ _ rfl fun t ht i _ => (h i t).trans ht

end

/-! ### BAY_TRIP and a bay that a timer has changed -/

/-- The run of a bay without its status words, BAY_TRIP and what follows from BAY_TRIP (R289, R318). -/
def sansStatus (r : BayRun) : BayRun :=
  { r with el := { r.el with
    ar := {}, bayTrip := false, tripPrev := false, btSect := 0, tripAt := none, flTrip := false, pu := 0, op := 0, blk := 0, qblk := 0 } }

section
variable (i b : Nat) (s : State)

/-- BAY_TRIP judged: an event of 79 may be staged, then the status, BAY_TRIP and what follows from it are set. -/
theorem tripStep_shape : ∃ (changed : Bool) (data : Bytes) (f : BayRun → BayRun), (∀ r, sansStatus (f r) = sansStatus r) ∧
    tripStep i s = setRun i f (if changed then stageEvent (clusterOf i) Src.prot 1 i data s else s) := by
  unfold tripStep
  extract_lets c g run e bt bus optrip trip rise ar s'
  refine ⟨ar.st != e.ar.st, arRecord e.ar ar, _, ?_, Eq.refl (setRun i _ s')⟩
  clear_value ar trip rise bt e
  exact fun _ => rfl

theorem tripStep_frame : (tripStep i s).clk = s.clk ∧ (tripStep i s).prot.sects = s.prot.sects ∧
    sansStatus (bayRun (tripStep i s) b) = sansStatus (bayRun s b) := by
  obtain ⟨changed, data, f, hf, hstep⟩ := tripStep_shape i s
  rw [hstep, bayRun_setRun_of_kept sansStatus hf i]
  cases changed <;> exact ⟨rfl, rfl, rfl⟩

/-- A bay's BAY_TRIP leaves the clocks, the sections and every bay but for its status, BAY_TRIP and what follows. -/
theorem raiseTrip_frame : (raiseTrip i s).clk = s.clk ∧ (raiseTrip i s).prot.sects = s.prot.sects ∧
    sansStatus (bayRun (raiseTrip i s) b) = sansStatus (bayRun s b) := by
  unfold raiseTrip
  split
  · exact ⟨rfl, rfl, rfl⟩
  · exact tripStep_frame i b s

@[simp] theorem raiseTrip_clk : (raiseTrip i s).clk = s.clk := (raiseTrip_frame i 0 s).1
@[simp] theorem raiseTrip_sects : (raiseTrip i s).prot.sects = s.prot.sects := (raiseTrip_frame i 0 s).2.1
theorem sansStatus_raiseTrip : sansStatus (bayRun (raiseTrip i s) b) = sansStatus (bayRun s b) := (raiseTrip_frame i b s).2.2

end

/-- BAY_TRIP raised in every running bay that a bus trip reaches. -/
def raiseBusTrips (s : State) : State := forBays (fun i s => if busTrips s i != 0 then raiseTrip i s else s) s

section
variable (b : Nat) (s : State)

@[simp] theorem raiseBusTrips_clk : (raiseBusTrips s).clk = s.clk :=
  forBays_kept State.clk (fun i s => by split <;> simp) s

@[simp] theorem raiseBusTrips_sects : (raiseBusTrips s).prot.sects = s.prot.sects :=
  forBays_kept (fun s => s.prot.sects) (fun i s => by split <;> simp) s

/-- Bus trips leave of every bay what is no status, BAY_TRIP or what follows. -/
theorem raiseBusTrips_part {β : Type} (p : BayRun → β) (hp : ∀ r, p (sansStatus r) = p r) :
    p (bayRun (raiseBusTrips s) b) = p (bayRun s b) := by
  have hframe : sansStatus (bayRun (raiseBusTrips s) b) = sansStatus (bayRun s b) :=
    forBays_kept (fun s => sansStatus (bayRun s b)) (fun i s => by
      split
      · exact sansStatus_raiseTrip i b s
      · rfl) s
  rw [← hp, hframe, hp]

end

section
variable {s : State} {b : Nat} {f : BCtx → BayRun → BayRun}

theorem afterTimer_of_idle (h : bayLive s b = false) : afterTimer b f s = s := by simp [afterTimer, h]

theorem afterTimer_frame (h : bayLive s b = true) : (afterTimer b f s).clk = s.clk ∧
    sansStatus (bayRun (afterTimer b f s) b) = sansStatus (f (timerCtx s b) (bayRun s b)) := by
  unfold afterTimer
  rw [h, Bool.not_true, if_neg Bool.false_ne_true]
  have hrun (g : BayProt → BayProt) : sansStatus (bayRun (setBay b g s) b) = sansStatus (g (bayProt s b)).cur :=
    congrArg (fun x : BayProt => sansStatus x.cur) (getD_modAt_same g {} (lt_length_of_bayLive h))
  dsimp only
  split
  · exact ⟨raiseTrip_clk .., (sansStatus_raiseTrip ..).trans (hrun _)⟩
  · exact ⟨rfl, hrun _⟩

@[simp] theorem afterTimer_clk : (afterTimer b f s).clk = s.clk := by
  cases h : bayLive s b with
  | false => rw [afterTimer_of_idle h]
  | true => exact (afterTimer_frame h).1

/-- Apart from status and BAY_TRIP, a running bay is what its timer has made of it. -/
theorem afterTimer_part {β : Type} (p : BayRun → β) (hp : ∀ r, p (sansStatus r) = p r) (h : bayLive s b = true) :
    p (bayRun (afterTimer b f s) b) = p (f (timerCtx s b) (bayRun s b)) := by
  rw [← hp, (afterTimer_frame h).2, hp]

end

end Sys2Proof.Machine.Laws
end

section
/-! SUPPORT. The delays and resets of stages and curves (R292, R324, R325). -/

namespace Sys2Proof.Machine.Laws
open Sys2Proof Sys2Proof.Machine

/-! ### The end of a held time and of a curve's reset -/

section
variable {now d : Nat} {g : Bytes} {x : StageSt}

theorem heldEnd_of_due (hheld : x.held ≠ 0) (hdue : x.heldTo ≤ now) : heldEnd now x = { x with held := 0 } := by
  simp [heldEnd, hheld, hdue]

theorem heldEnd_of_not_due (h : x.held = 0 ∨ now < x.heldTo) : heldEnd now x = x := by
  rcases h with h | h
  · simp [heldEnd, h]
  · simp [heldEnd, Nat.not_le.mpr h]

theorem curveResetEnd_of_due (hat : x.rstAt = some d) (hrst : recRst g = 1) (hpu : x.pu = false) (hdue : d + usU (recResetT g) ≤ now) :
    curveResetEnd g now x = { x with h := 0, phase := 0, rstAt := none } := by
  simp [curveResetEnd, hat, hrst, hpu, hdue]

theorem curveResetEnd_of_not_due
    (h : x.rstAt = none ∨ x.pu = true ∨ recRst g ≠ 1 ∨ ∃ d, x.rstAt = some d ∧ now < d + usU (recResetT g)) : curveResetEnd g now x = x := by
  cases hat : x.rstAt with
  | none => simp [curveResetEnd, hat]
  | some a =>
    have hstays : (recRst g == 1 && !x.pu && decide (a + usU (recResetT g) ≤ now)) = false := by
      rcases h with h | h | h | ⟨d, hd, hlt⟩
      · simp [hat] at h
      · simp [h]
      · simp [h]
      · obtain rfl : a = d := Option.some.inj (hat.symm.trans hd)
        simp [Nat.not_le.mpr hlt]
    simp [curveResetEnd, hat, hstays]

end

/-! ### The rows -/

section
variable {s : State} {bay : BitVec 6} {i : BitVec 5} {x : StageSt}

/-- STAGE_RESET_TIMEOUT judges the held time of its stage against the release boundary and leaves the rest of the bay. -/
theorem exec_stageResetTimeout (hx : x = (bayRun s bay.toNat).stages.getD i.toNat {}) (hbay : bay.toNat < s.prot.bays.length) :
    ∃ t, exec (.stageResetTimeout bay i) s = .next t ∧ t.clk = (if x.held != 0 then reach x.heldTo s else s).clk ∧
      bayRun t bay.toNat = { bayRun s bay.toNat with stages := modAt (bayRun s bay.toNat).stages i.toNat (heldEnd (endOfMs s)) } := by
  subst hx
  refine ⟨_, rfl, rfl, ?_⟩
  dsimp only
  split
  · rw [endOfMs_reach]
    exact bayRun_setRun_reach _ _ hbay
  · exact bayRun_setRun_same _ hbay

theorem exec_curveResetTimeout_of_stage (h : isCurve i.toNat = false) : exec (.curveResetTimeout bay i) s = .next s := by
  have hrow : exec (.curveResetTimeout bay i) s = execCurveResetTimeout bay i s := rfl
  simp [hrow, execCurveResetTimeout, h]

/-- CURVE_RESET_TIMEOUT moves the count on to the end of a definite reset time, where a curve has one. -/
theorem exec_curveResetTimeout {g : Bytes} (hx : x = (bayRun s bay.toNat).stages.getD i.toNat {})
    (hg : g = recBytes (grpBytes s bay.toNat) i.toNat) (hi : isCurve i.toNat = true) (hbay : bay.toNat < s.prot.bays.length) :
    ∃ t, exec (.curveResetTimeout bay i) s = .next t ∧
      (∀ d, x.rstAt = some d → recRst g = 1 → t.clk = (reach (d + usU (recResetT g)) s).clk) ∧
      bayRun t bay.toNat = { bayRun s bay.toNat with stages := modAt (bayRun s bay.toNat).stages i.toNat (curveResetEnd g (endOfMs s)) } := by
  have hrow : exec (.curveResetTimeout bay i) s = execCurveResetTimeout bay i s := rfl
  simp only [hrow, execCurveResetTimeout, hi, Bool.not_true, Bool.false_eq_true, if_false, ← hx, ← hg]
  cases hat : x.rstAt with
  | none =>
    refine ⟨_, rfl, ?_, bayRun_setRun_same _ hbay⟩
    rintro d ⟨⟩
  | some a =>
    by_cases hrst : recRst g = 1
    · simp only [hrst, beq_self_eq_true, if_true]
      rw [endOfMs_reach]
      refine ⟨_, rfl, ?_, bayRun_setRun_reach _ _ hbay⟩
      rintro d ⟨⟩ -
      exact setRun_clk _
    · simp only [beq_iff_eq, hrst, if_false]
      exact ⟨_, rfl, fun _ _ h => h.elim, bayRun_setRun_same _ hbay⟩

theorem exec_curveOperate_of_stage (h : isCurve i.toNat = false) : exec (.curveOperate bay i) s = .next s := by
  have hrow : exec (.curveOperate bay i) s = execCurveOperate bay i s := rfl
  simp [hrow, execCurveOperate, h]

/-- CURVE_OPERATE of a curve whose integrator is full moves the count on to the end of its TMIN (R324). -/
theorem exec_curveOperate (hx : x = (bayRun s bay.toNat).stages.getD i.toNat {}) (h : isCurve i.toNat = true) :
    exec (.curveOperate bay i) s = .next (stageTimer bay.toNat i.toNat (fun c r x => curveOut c r x.op x)
      (if x.pu = true ∧ x.h = hOne then reach (x.tPu + usU (recTmin (recBytes (grpBytes s bay.toNat) i.toNat))) s else s)) := by
  have hrow : exec (.curveOperate bay i) s = execCurveOperate bay i s := rfl
  simp only [hrow, execCurveOperate, h, Bool.not_true, Bool.false_eq_true, if_false, ← hx, Bool.and_eq_true, beq_iff_eq]

end

section
variable {s : State} {bay e : BitVec 6}

/-- STAGE_TD_EXPIRY of a definite-time stage that is picked up moves the count on to the end of its TD (R292). -/
theorem exec_stageTdExpiry {x : StageSt} (hx : x = (bayRun s bay.toNat).stages.getD e.toNat {}) (he : e.toNat ≤ 24)
    (hcurve : isCurve e.toNat = false) : exec (.stageTdExpiry bay e) s = .next (stageTimer bay.toNat e.toNat stageOperate
      (if x.pu = true then reach (x.tPu + usU (recTd (recBytes (grpBytes s bay.toNat) e.toNat))) s else s)) := by
  have hrow : exec (.stageTdExpiry bay e) s = execStageTdExpiry bay e s := rfl
  have hstage : (e.toNat == 27) = false ∧ (e.toNat == 34) = false ∧ ¬ 24 < e.toNat := by
    refine ⟨beq_false_of_ne ?_, beq_false_of_ne ?_, ?_⟩ <;> omega
  obtain ⟨hbc, hhif, hlow⟩ := hstage
  simp only [hrow, execStageTdExpiry, hbc, hhif, hlow, hcurve, decide_false, Bool.or_false, Bool.false_eq_true, if_false, ← hx]

/-- An element that has no definite delay. -/
theorem exec_stageTdExpiry_of_other (h : (24 < e.toNat ∧ e.toNat ≠ 27 ∧ e.toNat ≠ 34) ∨ isCurve e.toNat = true) :
    exec (.stageTdExpiry bay e) s = .next s := by
  have hrow : exec (.stageTdExpiry bay e) s = execStageTdExpiry bay e s := rfl
  have hother : (e.toNat == 27) = false ∧ (e.toNat == 34) = false ∧ (decide (24 < e.toNat) || isCurve e.toNat) = true := by
    rcases h with ⟨hlow, hbc, hhif⟩ | hcurve
    · exact ⟨beq_false_of_ne hbc, beq_false_of_ne hhif, by simp [hlow]⟩
    · have hle : e.toNat ≤ 12 := by
        simp only [isCurve, Bool.and_eq_true, decide_eq_true_eq] at hcurve
        exact hcurve.2
      exact ⟨beq_false_of_ne (by omega), beq_false_of_ne (by omega), by simp [hcurve]⟩
  obtain ⟨hbc, hhif, hnone⟩ := hother
  simp only [hrow, execStageTdExpiry, hbc, hhif, hnone, Bool.false_eq_true, if_false, if_true]

end

/-! ### What a stage's timer leaves -/

section
variable {s : State} {b i : Nat} {f : BCtx → Bytes → StageSt → StageSt}

theorem stageTimer_of_idle (h : bayLive s b = false) : stageTimer b i f s = s := afterTimer_of_idle h

/-- A stage's timer leaves every other stage of its bay. -/
theorem stageTimer_other {k : Nat} (hk : k ≠ i) : (bayRun (stageTimer b i f s) b).stages.getD k {} = (bayRun s b).stages.getD k {} := by
  cases h : bayLive s b with
  | false => rw [stageTimer_of_idle h]
  | true => exact (afterTimer_part (fun r => r.stages.getD k {}) (fun _ => rfl) h).trans (getD_modAt_ne _ _ _ hk)

end

/-- Settles O45: each row is the judging of its own stage at the release boundary, and what ends a held time and a curve's reset goes by
the deadline. -/
theorem stageTimers : Obligations.StageTimers := by
  unfold Obligations.StageTimers
  rintro s bay b rfl r rfl
  refine ⟨fun i x hx hbay hlen => ?_, fun i h => ⟨exec_curveOperate_of_stage h, exec_curveResetTimeout_of_stage h⟩,
    fun i hi hbay hlen x g hx hg => ?_, fun i hi x hx => exec_curveOperate hx hi, fun e he hcurve x hx => exec_stageTdExpiry hx he hcurve,
    fun e h => exec_stageTdExpiry_of_other h, fun d i f hd hidle => ?_, fun d i f hd hidle => ?_, fun i f k hk => stageTimer_other hk⟩
  · obtain ⟨t, ht, hclk, hrun⟩ := exec_stageResetTimeout hx hbay
    refine ⟨t, ht, fun hheld hdue => ⟨?_, ?_⟩, fun h => ⟨?_, ?_⟩, by rw [hrun]⟩
    · rw [hrun, modAt_eq_set {} hlen, ← hx, heldEnd_of_due hheld hdue]
    · rw [hclk, if_pos (bne_iff_ne.mpr hheld), reach_of_le hdue, setClk_clk]
    · rw [hrun]
      exact modAt_of_fixed (d := {}) (by rw [← hx, heldEnd_of_not_due h]) hlen
    · rcases h with h | h
      · simp [hclk, h]
      · rw [hclk, reach_of_lt h, ite_self]
  · obtain ⟨t, ht, hclk, hrun⟩ := exec_curveResetTimeout hx hg hi hbay
    have hstage : (bayRun t bay.toNat).stages.getD i.toNat {} = curveResetEnd g (endOfMs s) x := by
      rw [hrun, hx]
      exact getD_modAt_same _ _ hlen
    refine ⟨t, ht, fun d hat hrst hpu hdue => ⟨?_, ?_⟩, fun h => ?_, fun k hk => ?_⟩
    · rw [hstage, curveResetEnd_of_due hat hrst hpu hdue]
    · rw [hclk d hat hrst, reach_of_le hdue, setClk_clk]
    · rw [hstage, curveResetEnd_of_not_due h]
    · rw [hrun]
      exact getD_modAt_ne _ _ _ hk
  · rw [stageTimer_of_idle (by rwa [bayLive_reach]), reach_of_le hd]
    rfl
  · rw [reach_of_lt hd, stageTimer_of_idle hidle]

end Sys2Proof.Machine.Laws
end

section
/-! SUPPORT. The delays of 46BC and HIF, and the times of 50BF, SOTF, cold-load pickup and inrush (R292, R300-R302, R304). -/

namespace Sys2Proof.Machine.Laws
open Sys2Proof Sys2Proof.Machine

/-! ### An element whose time ends -/

/-- The elements of a bay changed by f at the end of a time d that runs since `since`, where `enabled` lets it end. -/
def elementTimer (b : Nat) (since : Option Nat) (d : Nat) (enabled : Bool) (f : Elems → Elems) (s : State) : State :=
  match since with
  | some a => if enabled && decide (a + d ≤ endOfMs s) then setRun b (fun r => { r with el := f r.el }) (reach (a + d) s) else s
  | none => s

section
variable {s : State} {b a d : Nat} {since : Option Nat} {enabled : Bool} {f : Elems → Elems}

theorem elementTimer_of_due (hsince : since = some a) (henabled : enabled = true) (hdue : a + d ≤ endOfMs s)
    (hb : b < s.prot.bays.length) : (elementTimer b since d enabled f s).clk = s.clk.advance (a + d) ∧
      (bayRun (elementTimer b since d enabled f s) b).el = f (bayRun s b).el := by
  have hends : elementTimer b since d enabled f s = setRun b (fun r => { r with el := f r.el }) (reach (a + d) s) := by
    simp [elementTimer, hsince, henabled, hdue]
  rw [hends, setRun_clk, bayRun_setRun_reach _ _ hb, reach_of_le hdue, setClk_clk]
  exact ⟨rfl, rfl⟩

theorem elementTimer_of_none (h : since = none) : elementTimer b since d enabled f s = s := by
  rw [h, elementTimer]

theorem elementTimer_of_not_due (hsince : since = some a) (h : enabled = false ∨ endOfMs s < a + d) :
    elementTimer b since d enabled f s = s := by
  rcases h with h | h
  · simp [elementTimer, hsince, h]
  · simp [elementTimer, hsince, Nat.not_le.mpr h]

end

section
variable {s : State} {bay : BitVec 6}

theorem exec_sotfArmed : exec (.sotfArmed bay) s = .next (elementTimer bay.toNat (bayRun s bay.toNat).el.armSince
    (usU (u32At (grpBytes s bay.toNat) 0x908)) (bitAt (grpBytes s bay.toNat) 0x900 0) (fun e => { e with armed := true }) s) := rfl

theorem exec_sotfWindowEnd : exec (.sotfWindowEnd bay) s = .next (elementTimer bay.toNat (bayRun s bay.toNat).el.sotfAt
    (usU (u32At (grpBytes s bay.toNat) 0x90C)) true (fun e => { e with sotfAt := none, sotfWin := false }) s) := by
  simp only [elementTimer, Bool.true_and, decide_eq_true_eq]
  rfl

theorem exec_clpDeenergised : exec (.clpDeenergised bay) s = .next (elementTimer bay.toNat (bayRun s bay.toNat).el.deadSince
    (secU (u16At (grpBytes s bay.toNat) 0x984)) true (fun e => { e with dead := true }) s) := by
  simp only [elementTimer, Bool.true_and, decide_eq_true_eq]
  rfl

theorem exec_clpActEnd : exec (.clpActEnd bay) s = .next (elementTimer bay.toNat (bayRun s bay.toNat).el.clpAt
    (secU (u16At (grpBytes s bay.toNat) 0x986)) true (fun e => { e with clpAt := none, clp := false }) s) := by
  simp only [elementTimer, Bool.true_and, decide_eq_true_eq]
  rfl

end

/-! ### 46BC and HIF -/

section
variable {s : State} {b d : Nat}

@[simp] theorem grpBytes_reach : grpBytes (reach d s) b = grpBytes s b := by
  unfold reach
  split <;> rfl

theorem timerCtx_g : (timerCtx s b).g = grpBytes s b := rfl

theorem timerCtx_tRel : (timerCtx s b).tRel = endOfMs s := rfl

theorem delayDue_of_due {c : BCtx} {x : DelaySt} (hpu : x.pu = true) (hblk : x.blk = false) (hdue : x.tPu + usU d ≤ c.tRel) :
    delayDue c d x = { x with op := true } := by
  simp [delayDue, hpu, hblk, hdue]

end

/-- 46BC of a bay judged at the release boundary. -/
def bcJudged (c : BCtx) (r : BayRun) : BayRun := { r with el := { r.el with bc := delayDue c (u32At c.g 0x708) r.el.bc } }

/-- HIF of a bay judged at the release boundary. -/
def hifJudged (c : BCtx) (r : BayRun) : BayRun := { r with el := { r.el with hif := delayDue c (u32At c.g 0x9CC) r.el.hif } }

section
variable {s : State} {bay : BitVec 6}

theorem exec_stageTdExpiry_bc : exec (.stageTdExpiry bay 27) s = .next (afterTimer bay.toNat bcJudged
    (if (bayRun s bay.toNat).el.bc.pu then
      reach ((bayRun s bay.toNat).el.bc.tPu + usU (u32At (grpBytes s bay.toNat) 0x708)) s else s)) := rfl

theorem exec_stageTdExpiry_hif : exec (.stageTdExpiry bay 34) s = .next (afterTimer bay.toNat hifJudged
    (if (bayRun s bay.toNat).el.hif.pu then
      reach ((bayRun s bay.toNat).el.hif.tPu + usU (u32At (grpBytes s bay.toNat) 0x9CC)) s else s)) := rfl

section
variable (hlive : bayLive s bay.toNat = true)
include hlive

/-- 46BC, picked up and not blocked, operates at the end of its delay and leaves the stages (R292). -/
theorem exec_stageTdExpiry_bc_of_due (hpu : (bayRun s bay.toNat).el.bc.pu = true) (hblk : (bayRun s bay.toNat).el.bc.blk = false)
    (hdue : (bayRun s bay.toNat).el.bc.tPu + usU (u32At (grpBytes s bay.toNat) 0x708) ≤ endOfMs s) :
    ∃ t, exec (.stageTdExpiry bay 27) s = .next t ∧ (bayRun t bay.toNat).el.bc = { (bayRun s bay.toNat).el.bc with op := true } ∧
      (bayRun t bay.toNat).stages = (bayRun s bay.toNat).stages := by
  refine ⟨_, exec_stageTdExpiry_bc, ?_⟩
  rw [if_pos hpu, afterTimer_part (fun r => r.el.bc) (fun _ => rfl) (by rwa [bayLive_reach]),
    afterTimer_part BayRun.stages (fun _ => rfl) (by rwa [bayLive_reach]), bayRun_of_prot reach_prot]
  refine ⟨delayDue_of_due hpu hblk ?_, rfl⟩
  rwa [timerCtx_g, timerCtx_tRel, grpBytes_reach, endOfMs_reach]

/-- HIF, picked up and not blocked, operates at the end of its delay (R292). -/
theorem exec_stageTdExpiry_hif_of_due (hpu : (bayRun s bay.toNat).el.hif.pu = true) (hblk : (bayRun s bay.toNat).el.hif.blk = false)
    (hdue : (bayRun s bay.toNat).el.hif.tPu + usU (u32At (grpBytes s bay.toNat) 0x9CC) ≤ endOfMs s) :
    ∃ t, exec (.stageTdExpiry bay 34) s = .next t ∧
      (bayRun t bay.toNat).el.hif = { (bayRun s bay.toNat).el.hif with op := true } := by
  refine ⟨_, exec_stageTdExpiry_hif, ?_⟩
  rw [if_pos hpu, afterTimer_part (fun r => r.el.hif) (fun _ => rfl) (by rwa [bayLive_reach]), bayRun_of_prot reach_prot]
  refine delayDue_of_due hpu hblk ?_
  rwa [timerCtx_g, timerCtx_tRel, grpBytes_reach, endOfMs_reach]

end

end

/-! ### 50BF -/

section
variable {s : State} {b off a : Nat} {bay : BitVec 6}

theorem bfDue_of_some (hat : (bayRun s b).el.bfAt = some a) : bfDue s b off = decide (a + usU (u32At (grpBytes s b) off) ≤ endOfMs s) := by
  rw [bfDue, hat]

theorem bfReach_of_some (hat : (bayRun s b).el.bfAt = some a) : bfReach b off s = reach (a + usU (u32At (grpBytes s b) off)) s := by
  rw [bfReach, hat]

theorem exec_bfRetrip : exec (.bfRetrip bay) s = .next (if bfDue s bay.toNat 0x788 then
    afterTimer bay.toNat (fun _ r => { r with el := { r.el with bfRe := true } }) (bfReach bay.toNat 0x788 s) else s) := rfl

theorem exec_bfBktrip : exec (.bfBktrip bay) s = .next (if bfDue s bay.toNat 0x78C && bayLive s bay.toNat then
    raiseBusTrips (afterTimer bay.toNat (fun _ r => { r with el := { r.el with bfBk := true } }) (bfReach bay.toNat 0x78C s)) else s) := rfl

/-- RETRIP is set when T1 has passed (R304). -/
theorem exec_bfRetrip_of_due (hlive : bayLive s bay.toNat = true) (hat : (bayRun s bay.toNat).el.bfAt = some a)
    (hdue : a + usU (u32At (grpBytes s bay.toNat) 0x788) ≤ endOfMs s) :
    ∃ t, exec (.bfRetrip bay) s = .next t ∧ (bayRun t bay.toNat).el.bfRe = true ∧
      t.clk = s.clk.advance (a + usU (u32At (grpBytes s bay.toNat) 0x788)) := by
  refine ⟨_, exec_bfRetrip, ?_⟩
  rw [bfDue_of_some hat, decide_eq_true hdue, if_pos rfl, bfReach_of_some hat, afterTimer_clk]
  refine ⟨?_, ?_⟩
  · rw [afterTimer_part (fun r => r.el.bfRe) (fun _ => rfl) (by rwa [bayLive_reach])]
  · rw [reach_of_le hdue, setClk_clk]

/-- BKTRIP is set when T2 has passed (R304). -/
theorem exec_bfBktrip_of_due (hlive : bayLive s bay.toNat = true) (hat : (bayRun s bay.toNat).el.bfAt = some a)
    (hdue : a + usU (u32At (grpBytes s bay.toNat) 0x78C) ≤ endOfMs s) :
    ∃ t, exec (.bfBktrip bay) s = .next t ∧ (bayRun t bay.toNat).el.bfBk = true := by
  refine ⟨_, exec_bfBktrip, ?_⟩
  rw [bfDue_of_some hat, decide_eq_true hdue, hlive, Bool.true_and, if_pos rfl, bfReach_of_some hat]
  rw [raiseBusTrips_part _ _ (fun r => r.el.bfBk) (fun _ => rfl), afterTimer_part (fun r => r.el.bfBk) (fun _ => rfl) (by rwa [bayLive_reach])]

theorem bfDue_of_not_due (h : (bayRun s b).el.bfAt = none ∨ ∃ a, (bayRun s b).el.bfAt = some a ∧ endOfMs s < a + usU (u32At (grpBytes s b) off)) :
    bfDue s b off = false := by
  rcases h with h | ⟨a, h, hlt⟩
  · rw [bfDue, h]
  · rw [bfDue_of_some h, decide_eq_false (Nat.not_le.mpr hlt)]

theorem exec_bfRetrip_of_not_due (h : bfDue s bay.toNat 0x788 = false) : exec (.bfRetrip bay) s = .next s := by
  rw [exec_bfRetrip, h, if_neg Bool.false_ne_true]

theorem exec_bfBktrip_of_not_due (h : bfDue s bay.toNat 0x78C = false) : exec (.bfBktrip bay) s = .next s := by
  rw [exec_bfBktrip, h, Bool.false_and, if_neg Bool.false_ne_true]

end

/-! ### Inrush -/

section
variable {s : State} {bay : BitVec 6} {p : BitVec 2} {m : Nat}

/-- What INRUSH_WINDOW_END makes of a bay: its energisation window is over. -/
def windowEnded (c : BCtx) (r : BayRun) : BayRun := { r with el := inrushEnd c { r.el with winAt := none, win := false } }

/-- What INRUSH_HOLD_END makes of a bay: the hold of phase p is over. -/
def holdEnded (p : Nat) (c : BCtx) (r : BayRun) : BayRun :=
  { r with el := inrushEnd c { r.el with ratioMs := modAt r.el.ratioMs p (fun _ => none) } }

theorem exec_inrushWindowEnd (h : (bayRun s bay.toNat).el.winAt = some m) : exec (.inrushWindowEnd bay) s =
    .next (if m + inrWin (grpBytes s bay.toNat) ≤ s.clk.ms then afterTimer bay.toNat windowEnded s else s) := by
  have hrow : exec (.inrushWindowEnd bay) s = execInrushWindowEnd bay s := rfl
  rw [hrow, execInrushWindowEnd, h]
  rfl

theorem exec_inrushHoldEnd (h : (bayRun s bay.toNat).el.ratioMs.getD p.toNat none = some m) : exec (.inrushHoldEnd bay p) s =
    .next (if m + u16At (grpBytes s bay.toNat) 0x94C < s.clk.ms then afterTimer bay.toNat (holdEnded p.toNat) s else s) := by
  have hrow : exec (.inrushHoldEnd bay p) s = execInrushHoldEnd bay p s := rfl
  simp only [hrow, execInrushHoldEnd, h]
  rfl

theorem holdEnded_ratioMs (p : Nat) (c : BCtx) (r : BayRun) : (holdEnded p c r).el.ratioMs = r.el.ratioMs.set p none := modAt_const ..

end

/-- Settles O46: each row acts where its time has ended at the release boundary, or its Milestones have passed, and is no step of the
element before. -/
theorem elementDelays : Obligations.ElementDelays := by
  unfold Obligations.ElementDelays
  rintro s bay b rfl hb e g rfl rfl
  refine ⟨fun hlive hpu hblk hdue => exec_stageTdExpiry_bc_of_due hlive hpu hblk hdue, fun hlive hpu hblk hdue => exec_stageTdExpiry_hif_of_due hlive hpu hblk hdue,
    fun hlive a hat => ⟨exec_bfRetrip_of_due hlive hat, fun hlt => exec_bfRetrip_of_not_due (bfDue_of_not_due (.inr ⟨a, hat, hlt⟩)),
      exec_bfBktrip_of_due hlive hat, fun hlt => exec_bfBktrip_of_not_due (bfDue_of_not_due (.inr ⟨a, hat, hlt⟩))⟩,
    fun hat => ⟨exec_bfRetrip_of_not_due (bfDue_of_not_due (.inl hat)), exec_bfBktrip_of_not_due (bfDue_of_not_due (.inl hat))⟩,
    fun a hat => ⟨fun hen hdue => ?_, fun h => by rw [exec_sotfArmed, elementTimer_of_not_due hat h]⟩,
    fun hat => by rw [exec_sotfArmed, elementTimer_of_none hat],
    fun a hat => ⟨fun hdue => ?_, fun hlt => ?_⟩, fun a hat => ⟨fun hdue => ?_, fun hlt => ?_⟩, fun a hat => ⟨fun hdue => ?_, fun hlt => ?_⟩,
    fun m hat => ⟨fun hlive hle => ?_, fun hlt => ?_⟩, fun p m hat => ⟨fun hlive hlt => ?_, fun hle => ?_⟩⟩
  · obtain ⟨hclk, hel⟩ := elementTimer_of_due hat hen hdue hb
    exact ⟨_, exec_sotfArmed, hel, hclk⟩
  · exact ⟨_, exec_sotfWindowEnd, (elementTimer_of_due hat rfl hdue hb).2⟩
  · rw [exec_sotfWindowEnd, elementTimer_of_not_due hat (.inr hlt)]
  · exact ⟨_, exec_clpDeenergised, (elementTimer_of_due hat rfl hdue hb).2⟩
  · rw [exec_clpDeenergised, elementTimer_of_not_due hat (.inr hlt)]
  · exact ⟨_, exec_clpActEnd, (elementTimer_of_due hat rfl hdue hb).2⟩
  · rw [exec_clpActEnd, elementTimer_of_not_due hat (.inr hlt)]
  · rw [exec_inrushWindowEnd hat, if_pos hle]
    exact ⟨_, rfl, afterTimer_part (fun r => r.el.winAt) (fun _ => rfl) hlive, afterTimer_part (fun r => r.el.win) (fun _ => rfl) hlive,
      afterTimer_clk⟩
  · rw [exec_inrushWindowEnd hat, if_neg (Nat.not_le.mpr hlt)]
  · rw [exec_inrushHoldEnd hat, if_pos hlt]
    have hratio := (afterTimer_part (f := holdEnded p.toNat) (fun r => r.el.ratioMs) (fun _ => rfl) hlive).trans (holdEnded_ratioMs ..)
    refine ⟨_, rfl, ?_, fun q hq => ?_⟩
    · rw [hratio, List.getD_eq_getElem?_getD, List.getElem?_set_self']
      cases (bayRun s bay.toNat).el.ratioMs[p.toNat]? <;> rfl
    · rw [hratio]
      simp [List.getD_eq_getElem?_getD, List.getElem?_set_ne hq.symm]
  · rw [exec_inrushHoldEnd hat, if_neg (Nat.not_lt.mpr hle)]

end Sys2Proof.Machine.Laws
end

section
/-! SUPPORT. 79 judged while it is in a state that has a time limit (R305). -/

namespace Sys2Proof.Machine.Laws
open Sys2Proof Sys2Proof.Machine

/-- What 79 of a bay is stepped with when a time limit of it ends: no trip, and the bay's inputs as they stand. -/
def arTimerInput (s : State) (b : Nat) : ArIn :=
  let g := (bayCtx s b).g
  let e := (bayRun s b).el
  { run := !inMask (eblkMask s b) 30, trip := false, reclosable := false
    arBlk := arBlkIn s b || (bitAt g 0x740 2 && bitAt g 0x740 0 && e.thPu), bfOn := e.bfAt.isSome && !e.bfPrev
    cb := (bayCtx s b).cb, open_ := (bayCtx s b).tOpen, rel := (bayCtx s b).tRel }

/-- The run of a bay with 79 in another state. -/
def withAr (a : ArSt) (r : BayRun) : BayRun := { r with el := { r.el with ar := a } }

section
variable {s : State} {b st : Nat}

theorem arTimer_eq : arTimer st b s =
    if !bayLive s b || (bayRun s b).el.ar.st != st ||
      endOfMs s < (bayRun s b).el.ar.at_ + usU (arLimit (bayCtx s b).g (bayRun s b).el.ar) then s
    else setRun b (withAr (arStep (bayCtx s b).g (arTimerInput s b) (bayRun s b).el.ar))
      (if (arStep (bayCtx s b).g (arTimerInput s b) (bayRun s b).el.ar).st != (bayRun s b).el.ar.st then
        stageEvent (clusterOf b) Src.prot 1 b
          (arRecord (bayRun s b).el.ar (arStep (bayCtx s b).g (arTimerInput s b) (bayRun s b).el.ar))
          (reach ((bayRun s b).el.ar.at_ + usU (arLimit (bayCtx s b).g (bayRun s b).el.ar)) s)
      else reach ((bayRun s b).el.ar.at_ + usU (arLimit (bayCtx s b).g (bayRun s b).el.ar)) s) := rfl

theorem arTimer_of_not_due (h : bayLive s b = false ∨ (bayRun s b).el.ar.st ≠ st ∨
    endOfMs s < (bayRun s b).el.ar.at_ + usU (arLimit (bayCtx s b).g (bayRun s b).el.ar)) : arTimer st b s = s := by
  rw [arTimer_eq, if_pos]
  rcases h with h | h | h
  · simp [h]
  · simp [h]
  · simp [h]

/-- 79 at the end of its time limit takes one step, and the rest of the bay stays. -/
theorem arTimer_of_due (hlive : bayLive s b = true) (hst : (bayRun s b).el.ar.st = st)
    (hdue : (bayRun s b).el.ar.at_ + usU (arLimit (bayCtx s b).g (bayRun s b).el.ar) ≤ endOfMs s) :
    (arTimer st b s).clk = s.clk.advance ((bayRun s b).el.ar.at_ + usU (arLimit (bayCtx s b).g (bayRun s b).el.ar)) ∧
      bayRun (arTimer st b s) b = withAr (arStep (bayCtx s b).g (arTimerInput s b) (bayRun s b).el.ar) (bayRun s b) := by
  have hnot : ¬ (!bayLive s b || (bayRun s b).el.ar.st != st ||
      endOfMs s < (bayRun s b).el.ar.at_ + usU (arLimit (bayCtx s b).g (bayRun s b).el.ar)) = true := by
    simp [hlive, hst, Nat.not_lt.mpr hdue]
  have hb := lt_length_of_bayLive hlive
  rw [arTimer_eq, if_neg hnot, reach_of_le hdue, setRun_clk]
  split
  · exact ⟨rfl, bayRun_setRun_same _ hb⟩
  · exact ⟨rfl, bayRun_setRun_same _ hb⟩

end

/-- The rows of 79, each with the state whose limit it is. -/
theorem exec_arRow {s : State} {bay : BitVec 6} {c : Instr} {st : Nat}
    (h : (c, st) ∈ [(Instr.trippedTimeout bay, 2), (Instr.deadTimeEnd bay, 3), (Instr.closeTEnd bay, 4), (Instr.reclaimEnd bay, 5)]) :
    exec c s = .next (arTimer st bay.toNat s) := by
  simp only [List.mem_cons, Prod.mk.injEq, List.not_mem_nil, or_false] at h
  rcases h with ⟨rfl, rfl⟩ | ⟨rfl, rfl⟩ | ⟨rfl, rfl⟩ | ⟨rfl, rfl⟩ <;> rfl

/-- Settles O47: each row is 79 judged in one of its states, which is a step of 79 alone or nothing. -/
theorem reclosingTimers : Obligations.ReclosingTimers := by
  unfold Obligations.ReclosingTimers
  rintro s bay b rfl e g rfl rfl c st hrow
  rw [exec_arRow hrow]
  refine ⟨fun h => congrArg _ (arTimer_of_not_due h), fun hlive hst hdue _ => ?_⟩
  obtain ⟨hclk, hrun⟩ := arTimer_of_due hlive hst hdue
  exact ⟨_, rfl, hclk, by rw [hrun]; rfl, by rw [hrun]; rfl, by rw [hrun]; rfl⟩

end Sys2Proof.Machine.Laws
end

section
/-! SUPPORT. The times of a bus section: RI, the block of 87B and the held feeders (R311, R312). -/

namespace Sys2Proof.Machine.Laws
open Sys2Proof Sys2Proof.Machine

section
variable {s : State} {k a : Nat} {sect : BitVec 4}

theorem sectRun_setSect_reach (f : SectRun → SectRun) (d : Nat) (h : k < s.prot.sects.length) :
    sectRun (setSect k f (reach d s)) k = f (sectRun s k) := by
  rw [sectRun_setSect_same f (by rwa [reach_prot]), sectRun_of_sects (congrArg ProtSt.sects reach_prot)]

theorem stageEvent_sects (cl src code unit : Nat) (data : Bytes) :
    (stageEvent cl src code unit data s).prot.sects = s.prot.sects := rfl

theorem stageEvent_clk (cl src code unit : Nat) (data : Bytes) : (stageEvent cl src code unit data s).clk = s.clk := rfl

/-! ### RI -/

/-- The instant at which RI of a section operates (R312). -/
def riDeadline (s : State) (k : Nat) : Nat := (sectRun s k).riAt + msU (riTd (sectionBytes s k))

/-- RI of a section has operated: the operate counted. -/
def riOperated (r : SectRun) : SectRun := { r with riOp := true, riOps := satN 16 (r.riOps + 1) }

theorem exec_riTdExpiry : exec (.riTdExpiry sect) s = .next
    (if sectionEn s sect.toNat && (sectRun s sect.toNat).ran && (sectRun s sect.toNat).riPu && !(sectRun s sect.toNat).riOp &&
        decide (riDeadline s sect.toNat ≤ endOfMs s) then
      raiseBusTrips (stageEvent (sectCluster (setSect sect.toNat riOperated (reach (riDeadline s sect.toNat) s)) sect.toNat) Src.prot 2
        (0x0100 + sect.toNat) (dCode 2 ++ dCode 0) (setSect sect.toNat riOperated (reach (riDeadline s sect.toNat) s)))
    else s) := rfl

/-- RI operates at RI_TD: its event is staged and the bus trips it makes are raised (R312). -/
theorem exec_riTdExpiry_of_due (hen : sectionEn s sect.toNat = true) (hran : (sectRun s sect.toNat).ran = true)
    (hpu : (sectRun s sect.toNat).riPu = true) (hop : (sectRun s sect.toNat).riOp = false) (hdue : riDeadline s sect.toNat ≤ endOfMs s)
    (hk : sect.toNat < s.prot.sects.length) : ∃ t, exec (.riTdExpiry sect) s = .next t ∧
      sectRun t sect.toNat = riOperated (sectRun s sect.toNat) ∧ t.clk = s.clk.advance (riDeadline s sect.toNat) := by
  refine ⟨_, exec_riTdExpiry, ?_⟩
  rw [if_pos (by simp [hen, hran, hpu, hop, hdue])]
  refine ⟨?_, ?_⟩
  · rw [sectRun_of_sects (raiseBusTrips_sects _), sectRun_of_sects (stageEvent_sects ..), sectRun_setSect_reach _ _ hk]
  · rw [raiseBusTrips_clk, stageEvent_clk, setSect_clk, reach_of_le hdue, setClk_clk]

theorem exec_riTdExpiry_of_not_due (h : sectionEn s sect.toNat = false ∨ (sectRun s sect.toNat).ran = false ∨
    (sectRun s sect.toNat).riPu = false ∨ (sectRun s sect.toNat).riOp = true ∨ endOfMs s < riDeadline s sect.toNat) :
    exec (.riTdExpiry sect) s = .next s := by
  rw [exec_riTdExpiry, if_neg]
  rcases h with h | h | h | h | h
  case inr.inr.inr.inr => simp [Nat.not_le.mpr h]
  all_goals simp [h]

/-! ### The block of 87B -/

theorem exec_satBlkEnd (h : (sectRun s sect.toNat).satEnd = some a) : exec (.satBlkEnd sect) s = .next
    (if a ≤ endOfMs s then setSect sect.toNat (fun r => { r with satEnd := none, satIn := 0 }) (reach a s) else s) := by
  have hrow : exec (.satBlkEnd sect) s = execSatBlkEnd sect s := rfl
  rw [hrow, execSatBlkEnd, h]

theorem exec_satBlkEnd_of_none (h : (sectRun s sect.toNat).satEnd = none) : exec (.satBlkEnd sect) s = .next s := by
  have hrow : exec (.satBlkEnd sect) s = execSatBlkEnd sect s := rfl
  rw [hrow, execSatBlkEnd, h]

/-- The block of 87B ends at its instant (R311). -/
theorem exec_satBlkEnd_of_due (h : (sectRun s sect.toNat).satEnd = some a) (hdue : a ≤ endOfMs s) (hk : sect.toNat < s.prot.sects.length) :
    ∃ t, exec (.satBlkEnd sect) s = .next t ∧ sectRun t sect.toNat = { sectRun s sect.toNat with satEnd := none, satIn := 0 } ∧
      t.clk = s.clk.advance a := by
  refine ⟨_, exec_satBlkEnd h, ?_⟩
  rw [if_pos hdue, sectRun_setSect_reach _ _ hk, setSect_clk, reach_of_le hdue, setClk_clk]
  exact ⟨rfl, rfl⟩

/-! ### Held feeders -/

theorem foldl_reach_prot (l : List Nat) (h : Nat) : (l.foldl (fun s t => reach (t + h) s) s).prot = s.prot :=
  List.foldlRecOn (motive := fun t : State => t.prot = s.prot) _ _ rfl fun _ ht _ _ => reach_prot.trans ht

/-- A feeder leaves the list when its hold has ended at the release boundary (R312). -/
theorem exec_riHoldEnd (hk : sect.toNat < s.prot.sects.length) : ∃ t, exec (.riHoldEnd sect) s = .next t ∧ sectRun t sect.toNat =
    { sectRun s sect.toNat with
      riHold := (sectRun s sect.toNat).riHold.filter (fun x => decide (endOfMs s < x.2 + msU (riHold (sectionBytes s sect.toNat)))) } := by
  refine ⟨_, rfl, ?_⟩
  rw [sectRun_setSect_same _ (by rwa [foldl_reach_prot]), sectRun_of_sects (congrArg ProtSt.sects (foldl_reach_prot _ _))]

end

end Sys2Proof.Machine.Laws
end

section
/-! SUPPORT. The freeze after a trip, the voltage memory, the HIF background, the logic timers, the cycle frame and the energy counters
(R264, R270, R297, R341, R346, R355), and the statement that gathers them with the sections. -/

namespace Sys2Proof.Machine.Laws
open Sys2Proof Sys2Proof.Machine

/-! ### The freeze after a trip -/

section
variable (x : Nat)

/-- The freeze causes without the one of a trip (R341). -/
def clearTripFreeze (x : Nat) : Nat := x - place (bitsOf x 2 1) 2 1

theorem clearTripFreeze_eq : clearTripFreeze x = x - x / 4 % 2 * 4 := by
  simp [clearTripFreeze, place, bitsOf, Nat.shiftRight_eq_div_pow, Nat.shiftLeft_eq]

theorem bitsOf_clearTripFreeze : bitsOf (clearTripFreeze x) 2 1 = 0 := by
  rw [clearTripFreeze_eq, bitsOf, Nat.shiftRight_eq_div_pow]
  omega

/-- No other cause falls. -/
theorem bitsOf_clearTripFreeze_other {k : Nat} (hk : k < 8) (hne : k ≠ 2) : bitsOf (clearTripFreeze x) k 1 = bitsOf x k 1 := by
  rw [clearTripFreeze_eq, bitsOf, bitsOf, Nat.shiftRight_eq_div_pow, Nat.shiftRight_eq_div_pow]
  have hcases : k = 0 ∨ k = 1 ∨ k = 3 ∨ k = 4 ∨ k = 5 ∨ k = 6 ∨ k = 7 := by omega
  rcases hcases with rfl | rfl | rfl | rfl | rfl | rfl | rfl <;> omega

end

/-! ### Times of a bay's elements -/

section
variable {s : State} {bay : BitVec 6}

theorem exec_frzTripEnd : exec (.frzTripEnd bay) s = .next (elementTimer bay.toNat (bayRun s bay.toNat).el.tripAt
    (frzTrip (bayBytes s bay.toNat)) (!(bayRun s bay.toNat).el.bayTrip)
    (fun e => { e with tripAt := none, frz := clearTripFreeze e.frz }) s) := rfl

theorem exec_hifBackgroundValid {lane : BitVec 2} : exec (.hifBackgroundValid bay lane) s = .next
    (if hifWarm (bayBytes s bay.toNat) ≤ (bayRun s bay.toNat).el.bkgAge.getD lane.toNat 0 then
      setRun bay.toNat (fun r => { r with el := { r.el with bkgOk := r.el.bkgOk.set lane.toNat true } }) s else s) := by
  have hrow : exec (.hifBackgroundValid bay lane) s = execHifBackgroundValid bay lane s := rfl
  simp only [hrow, execHifBackgroundValid, decide_eq_true_eq, modAt_const]

theorem exec_memTEnd {m : Int × Int × Nat} (h : (bayRun s bay.toNat).el.vmem = some m) : exec (.memTEnd bay) s = .next
    (if m.2.2 + msU (u16At ((grpBytes s bay.toNat).drop 0x680) 0xC) < endOfMs s then
      setRun bay.toNat (fun r => { r with el := { r.el with vmem := none, memUse := false } })
        (reach (m.2.2 + msU (u16At ((grpBytes s bay.toNat).drop 0x680) 0xC)) s) else s) := by
  have hrow : exec (.memTEnd bay) s = execMemTEnd bay s := rfl
  simp only [hrow, execMemTEnd, h]

theorem exec_memTEnd_of_none (h : (bayRun s bay.toNat).el.vmem = none) : exec (.memTEnd bay) s = .next s := by
  have hrow : exec (.memTEnd bay) s = execMemTEnd bay s := rfl
  simp only [hrow, execMemTEnd, h]

end

/-! ### Logic timers -/

section
variable {s : State} {b : Nat} {bay : BitVec 6} {i : BitVec 8} {img : Bytes} {y : LTimer}

theorem logicBay_setLogic_same (f : LogicBay → LogicBay) (h : b < s.prot.bays.length) : logicBay (setLogic b f s) b = f (logicBay s b) :=
  congrArg BayProt.logic (getD_modAt_same _ _ h)

/-- A running TON whose preset the release time reaches is stepped with its last input (R355). -/
theorem exec_logicTimerExpiry_of_ton (hy : y = (logicBay s bay.toNat).data.tmr.getD i.toNat {})
    (himg : img = (activeImage (logicBay s bay.toNat)).getD []) (hb : bay.toNat < s.prot.bays.length)
    (hran : (logicBay s bay.toNat).ran = true) (hrun : y.run = true) (hdue : y.start + tmrPt img i.toNat ≤ (logicBay s bay.toNat).exec.rn)
    (hi : i.toNat < (logicBay s bay.toNat).data.tmr.length) (hop : timerOp img i.toNat = some 0x40) :
    ∃ t, exec (.logicTimerExpiry bay i) s = .next t ∧ (logicBay t bay.toNat).data = { (logicBay s bay.toNat).data with
      tmr := (logicBay s bay.toNat).data.tmr.set i.toNat
        (tonStep (tmrPt img i.toNat) (logicBay s bay.toNat).exec.tn (logicBay s bay.toNat).exec.rn y.inn y) } := by
  have hrow : exec (.logicTimerExpiry bay i) s = execLogicTimerExpiry bay i s := rfl
  simp only [hrow, execLogicTimerExpiry, ← himg, ← hy, hop, hran, hrun, hdue, decide_true, Bool.and_self, if_true]
  refine ⟨_, rfl, ?_⟩
  rw [logicBay_setLogic_same _ hb, modAt_eq_set {} hi, ← hy]

theorem exec_logicTimerExpiry_of_not_due (hy : y = (logicBay s bay.toNat).data.tmr.getD i.toNat {})
    (himg : img = (activeImage (logicBay s bay.toNat)).getD [])
    (h : (logicBay s bay.toNat).ran = false ∨ y.run = false ∨ (logicBay s bay.toNat).exec.rn < y.start + tmrPt img i.toNat ∨
      timerOp img i.toNat = none) : exec (.logicTimerExpiry bay i) s = .next s := by
  have hrow : exec (.logicTimerExpiry bay i) s = execLogicTimerExpiry bay i s := rfl
  by_cases hop : timerOp img i.toNat = none
  · simp only [hrow, execLogicTimerExpiry, ← himg, hop]
  · have hstays : ((logicBay s bay.toNat).ran && y.run &&
        decide (y.start + tmrPt img i.toNat ≤ (logicBay s bay.toNat).exec.rn)) = false := by
      rcases h with h | h | h | h
      · simp [h]
      · simp [h]
      · simp [Nat.not_le.mpr h]
      · exact absurd h hop
    simp only [hrow, execLogicTimerExpiry, ← himg, ← hy, hstays, Bool.false_eq_true, if_false]
    split <;> rfl

end

/-! ### The cycle frame and the energy counters -/

section
variable {s : State} {b : Nat}

theorem frameEnd_of_closed (h : (bayCtx s b).frame = false) : frameEnd b s = s := by simp [frameEnd, h]

theorem frameEnd_frameMs (h : (bayCtx s b).frame = true) (hb : b < s.prot.bays.length) :
    (bayRun (frameEnd b s) b).frameMs = some s.clk.ms := by
  unfold frameEnd
  extract_lets c r hist e
  rw [h, Bool.not_true, if_neg Bool.false_ne_true, bayRun_setRun_same _ hb]

theorem exec_energyCountersSave : exec .energyCountersSave s =
    .next { s with prot := { s.prot with bays := s.prot.bays.map (fun x => { x with energySaved := x.energy }) } } := rfl

end

/-- Settles O48: each row acts at its own deadline or count, on its own part of a section or a bay, and is no step before it. -/
theorem sectionAndFreezeTimers : Obligations.SectionAndFreezeTimers := by
  unfold Obligations.SectionAndFreezeTimers
  intro s
  refine ⟨?_, ?_, rfl, fun b h hb => frameEnd_frameMs h hb, fun b h => frameEnd_of_closed h, ?_⟩
  · rintro sect k r d rfl rfl rfl
    refine ⟨fun hen hran hpu hop hdue hk => ?_, exec_riTdExpiry_of_not_due,
      fun a hat hk => ⟨fun hdue => exec_satBlkEnd_of_due hat hdue hk, fun hlt => ?_⟩, exec_satBlkEnd_of_none, exec_riHoldEnd⟩
    · obtain ⟨t, ht, hrun, hclk⟩ := exec_riTdExpiry_of_due hen hran hpu hop hdue hk
      exact ⟨t, ht, by rw [hrun]; rfl, by rw [hrun]; rfl, hclk⟩
    · rw [exec_satBlkEnd hat, if_neg (Nat.not_le.mpr hlt)]
  · rintro bay b e rfl rfl hb
    refine ⟨fun a hat => ⟨fun htrip hdue => ?_, fun h => ?_⟩, fun hat => ?_, fun lane => ⟨fun hwarm hlane => ?_, fun hlt => ?_⟩,
      fun p q a hmem d hd => ⟨fun hlt => ?_, fun hle => ?_⟩, exec_memTEnd_of_none, ?_⟩
    · have hends : (!(bayRun s bay.toNat).el.bayTrip) = true := by rw [htrip, Bool.not_false]
      obtain ⟨-, hel⟩ := elementTimer_of_due hat hends hdue hb
      refine ⟨_, exec_frzTripEnd, ?_⟩
      rw [hel]
      exact ⟨rfl, bitsOf_clearTripFreeze _, fun k hk hne => bitsOf_clearTripFreeze_other _ hk hne⟩
    · rw [exec_frzTripEnd, elementTimer_of_not_due hat (h.imp_left fun htrip => by rw [htrip]; rfl)]
    · rw [exec_frzTripEnd, elementTimer_of_none hat]
    · rw [exec_hifBackgroundValid, if_pos hwarm]
      exact ⟨_, rfl, by rw [bayRun_setRun_same _ hb]⟩
    · rw [exec_hifBackgroundValid, if_neg (Nat.not_le.mpr hlt)]
    · subst hd
      rw [exec_memTEnd hmem, if_pos hlt]
      refine ⟨_, rfl, by rw [bayRun_setRun_reach _ _ hb], ?_⟩
      rw [setRun_clk, reach_of_le (Nat.le_of_lt hlt), setClk_clk]
    · subst hd
      rw [exec_memTEnd hmem, if_neg (Nat.not_lt.mpr hle)]
    · rintro i x y rfl hy img himg
      exact ⟨exec_logicTimerExpiry_of_ton hy himg hb, exec_logicTimerExpiry_of_not_due hy himg⟩
  · refine ⟨_, exec_energyCountersSave, List.length_map _, rfl, fun i x hx => ?_⟩
    simp [hx]

end Sys2Proof.Machine.Laws
end

section
/-! SUPPORT. CURVE.LOAD: a user curve slot of the addressed compute dies (R328, R329). -/

namespace Sys2Proof.Machine.Laws
open Sys2Proof Sys2Proof.Machine Sys2Proof.Safety

/-! ### A slot of several dies -/

/-- An update that is the same done twice, made at every listed place, is made once at each place that is listed and at no other. -/
theorem getElem?_foldl_modAt {α : Type} {f : α → α} (hf : ∀ x, f (f x) = f x) (ks : List Nat) (l : List α) (i : Nat) :
    (ks.foldl (fun l k => modAt l k f) l)[i]? = if i ∈ ks then l[i]?.map f else l[i]? := by
  induction ks generalizing l with
  | nil => rfl
  | cons k ks ih =>
    rw [List.foldl_cons, ih, modAt]
    by_cases hk : k = i
    · subst hk
      simp [Function.comp_def, hf]
    · simp [List.getElem?_modify_ne _ _ hk, Ne.symm hk]

/-- The slots of the dies, with the block written in one slot of every listed die. -/
def loadedCurves (dies : List Nat) (slot : Nat) (blk : Bytes) (l : List (List Bytes)) : List (List Bytes) :=
  dies.foldl (fun l d => modAt l d (fun x => modAt x slot (fun _ => blk))) l

section
variable {dies : List Nat} {slot : Nat} {blk : Bytes} {l : List (List Bytes)} {d j : Nat}

theorem loadedCurves_die : (loadedCurves dies slot blk l)[d]? =
    if d ∈ dies then l[d]?.map (fun x => modAt x slot (fun _ => blk)) else l[d]? :=
  getElem?_foldl_modAt (fun x => by simp only [modAt_const, List.set_set]) dies l d

/-- The slots of a die that is not listed stay. -/
theorem loadedCurves_die_of_not_mem (h : d ∉ dies) : (loadedCurves dies slot blk l)[d]? = l[d]? := by
  rw [loadedCurves_die, if_neg h]

theorem loadedCurves_die_of_mem (h : d ∈ dies) :
    (loadedCurves dies slot blk l).getD d [] = modAt (l.getD d []) slot (fun _ => blk) := by
  rw [List.getD_eq_getElem?_getD, List.getD_eq_getElem?_getD, loadedCurves_die, if_pos h]
  cases l[d]? with
  | none => simp [modAt]
  | some x => rfl

/-- A slot holds the block where it is the one named and its die is listed, and else what it held. -/
theorem loadedCurves_slot (hj : j < (l.getD d []).length) : ((loadedCurves dies slot blk l).getD d []).getD j [] =
    if d ∈ dies ∧ j = slot then blk else (l.getD d []).getD j [] := by
  by_cases hd : d ∈ dies
  · rw [loadedCurves_die_of_mem hd]
    by_cases hslot : j = slot
    · subst hslot
      rw [getD_modAt_same _ _ hj, if_pos ⟨hd, rfl⟩]
    · rw [getD_modAt_ne _ _ _ hslot, if_neg fun h => hslot h.2]
  · have hdie : (loadedCurves dies slot blk l).getD d [] = l.getD d [] := congrArg (Option.getD · []) (loadedCurves_die_of_not_mem hd)
    rw [hdie, if_neg fun h => hd h.1]

end

/-! ### The command -/

/-- The slot that a CURVE.LOAD names is named by an enabled stage of an addressed die while protection cycles run (R329). -/
def curveInUse (c : Cmd) (s : State) : Bool :=
  s.mode.mode.runs && (curveDies s c.unit).any (fun d => slotNamed s d (c.at_ 0x14 0 2))

/-- The state with a CURVE.LOAD's block in the slot it names, on every die it addresses. -/
def loadCurve (c : Cmd) (blk : Bytes) (s : State) : State :=
  { s with prot := { s.prot with curves := loadedCurves (curveDies s c.unit) (c.at_ 0x14 0 2) blk s.prot.curves } }

/-- CURVE.LOAD by its block, and by whether the slot is in use (R329). -/
theorem exec_curveLoad {c : Cmd} {s : State} {f : InFlight} (h : Starts c s f)
    (hp : Passes { absent := c.unit != 0x00FF && decide (dieCount s.variant ≤ c.unit), used := [(0x14, 0, 2)] } c s f) :
    exec (.curveLoad c) s = .next (loads c (readBlock c 272 (begun c s)) curveBad (begun c s) (fun blk =>
      if curveInUse c (begun c s) = true then answer c (Reply.fail St.locked 0) (begun c s)
      else answer c { result := (crc32c blk).toNat, effect := some (begun c s).clk.ms } (loadCurve c blk (begun c s)))) := by
  have hrow : exec (.curveLoad c) s = execCurveLoad c s := rfl
  rw [hrow, execCurveLoad, command_loads h hp rfl]
  simp only [apply_ite (cameTo c)]
  rfl

section
variable {c : Cmd} {block : Except Reply Bytes} {bad : Bytes → Option Nat} {t : State} {k : Bytes → State}

theorem loads_of_error {r : Reply} (h : block = .error r) : loads c block bad t k = answer c r t := by rw [h, loads]

theorem loads_of_bad {blk : Bytes} {o : Nat} (h : block = .ok blk) (hbad : bad blk = some o) :
    loads c block bad t k = answer c (Reply.range o) t := by simp only [h, loads, hbad]

theorem loads_of_good {blk : Bytes} (h : block = .ok blk) (hbad : bad blk = none) : loads c block bad t k = k blk := by
  simp only [h, loads, hbad]

end

/-- Settles O16: the command by its block and by whether the slot is in use; writing it is one update of each addressed die. -/
theorem curveLoads : Obligations.CurveLoads := by
  unfold Obligations.CurveLoads
  rintro c s _ f h rfl hp
  rw [exec_curveLoad h hp]
  refine ⟨fun r hr => by rw [loads_of_error hr], fun blk hblk => ⟨fun o ho => by rw [loads_of_bad hblk ho], fun hgood => ?_⟩⟩
  rw [loads_of_good hblk hgood]
  refine ⟨fun huse => congrArg _ (if_pos huse), fun hfree => ⟨_, congrArg _ (if_neg (Bool.eq_false_iff.mp hfree)), ?_, ?_⟩⟩
  · exact fun d j _ hj => loadedCurves_slot hj
  · exact fun d hd => loadedCurves_die_of_not_mem hd

end Sys2Proof.Machine.Laws
end

section
/-! SUPPORT. What every step keeps (R496, R498, R501), and the sealing of a record (R493, R496, R507). -/

namespace Sys2Proof.Machine.Laws
open Sys2Proof Sys2Proof.Machine Sys2Proof.Safety

/-! ### Every command and every step -/

/-- Every command answers a next state that keeps what no operation spoils: one case per row, by the lemma of its meaning. -/
theorem exec_keeps {s₀ s : State} (hk : Keeps s₀ s) (i : Instr) : OutKeeps s₀ (exec i s) :=
  match i with
  | .sysCaps c => execSysCaps_keeps c hk
  | .sysMode c => execSysMode_keeps c hk
  | .sysStatus c => execSysStatus_keeps c hk
  | .sysRestartWarm c => execSysRestartWarm_keeps c hk
  | .sysRestartCold c => execSysRestartCold_keeps c hk
  | .tblBase c => execTblBase_keeps c hk
  | .tblSync c => execTblSync_keeps c hk
  | .tblRead c => execTblRead_keeps c hk
  | .bayGroup c => execBayGroup_keeps c hk
  | .bayBeh c => execBayBeh_keeps c hk
  | .bayRead c => execBayRead_keeps c hk
  | .bayReadSection c => execBayReadSection_keeps c hk
  | .bayReadTripStatus c => execBayReadTripStatus_keeps c hk
  | .bayReadLoop c => execBayReadLoop_keeps c hk
  | .bayReset c => execBayReset_keeps c hk
  | .filtStop c => execFiltStop_keeps c hk
  | .filtStart c => execFiltStart_keeps c hk
  | .filtCoef c => execFiltCoef_keeps c hk
  | .auxSeq c => execAuxSeq_keeps c hk
  | .svPub c => execSvPub_keeps c hk
  | .svPubPortSet c => execSvPubPortSet_keeps c hk
  | .svStats c => execSvStats_keeps c hk
  | .goosePub c => execGoosePub_keeps c hk
  | .gooseStats c => execGooseStats_keeps c hk
  | .curveLoad c => execCurveLoad_keeps c hk
  | .logicLoad c => execLogicLoad_keeps c hk
  | .logicVerify c => execLogicVerify_keeps c hk
  | .logicSwitch c => execLogicSwitch_keeps c hk
  | .logicForce c => execLogicForce_keeps c hk
  | .logicUnforce c => execLogicUnforce_keeps c hk
  | .logicRestart c => execLogicRestart_keeps c hk
  | .logicRead c => execLogicRead_keeps c hk
  | .gridMode c => execGridMode_keeps c hk
  | .gridSyncSlew c => execGridSyncSlew_keeps c hk
  | .gridSyncStep c => execGridSyncStep_keeps c hk
  | .timeStep c => execTimeStep_keeps c hk
  | .timeSource c => execTimeSource_keeps c hk
  | .timeRead c => execTimeRead_keeps c hk
  | .recArm c => execRecArm_keeps c hk
  | .recDisarm c => execRecDisarm_keeps c hk
  | .recForce c => execRecForce_keeps c hk
  | .recList c => execRecList_keeps c hk
  | .recCfg c => execRecCfg_keeps c hk
  | .recFree c => execRecFree_keeps c hk
  | .dmaStart c => execDmaStart_keeps c hk
  | .dmaHalt c => execDmaHalt_keeps c hk
  | .dmaStat c => execDmaStat_keeps c hk
  | .evtRead c => execEvtRead_keeps c hk
  | .evtReadStatus c => execEvtReadStatus_keeps c hk
  | .evtClear c => execEvtClear_keeps c hk
  | .loopXfer c => execLoopXfer_keeps c hk
  | .loopBank c => execLoopBank_keeps c hk
  | .loopSetpt c => execLoopSetpt_keeps c hk
  | .loopInject c => execLoopInject_keeps c hk
  | .loopInjectStop c => execLoopInjectStop_keeps c hk
  | .loopTrace c => execLoopTrace_keeps c hk
  | .loopTraceStop c => execLoopTraceStop_keeps c hk
  | .pwrStatus c => execPwrStatus_keeps c hk
  | .keyLoad c => execKeyLoad_keeps c hk
  | .keyLoadTamperPolicy c => execKeyLoadTamperPolicy_keeps c hk
  | .keyErase c => execKeyErase_keeps c hk
  | .keyEraseTamperLatch c => execKeyEraseTamperLatch_keeps c hk
  | .keyStatus c => execKeyStatus_keeps c hk
  | .fwLoad c => execFwLoad_keeps c hk
  | .fwActivate c => execFwActivate_keeps c hk
  | .testRun c => execTestRun_keeps c hk
  | .testRunStop c => execTestRunStop_keeps c hk
  | .testResult c => execTestResult_keeps c hk
  | .wmkSel c => execWmkSel_keeps c hk
  | .supvCount c => execSupvCount_keeps c hk
  | .unknownCommand c => execUnknownCommand_keeps c hk
  | .commandFetch => execCommandFetch_keeps hk
  | .commandStartTimeout tag => execCommandStartTimeout_keeps tag hk
  | .tblSyncCheckDone => execTblSyncCheckDone_keeps hk
  | .fwVerifyDone => execFwVerifyDone_keeps hk
  | .gridFollowRelock => execGridFollowRelock_keeps hk
  | .mbDoorbell k tail => execMbDoorbell_keeps k tail hk
  | .ringEnable k log2n => execRingEnable_keeps k log2n hk
  | .cqHeadWrite head => execCqHeadWrite_keeps head hk
  | .cqEnable log2n => execCqEnable_keeps log2n hk
  | .cqDisable => execCqDisable_keeps hk
  | .irqStatWrite v => execIrqStatWrite_keeps v hk
  | .irqMaskWrite v => execIrqMaskWrite_keeps v hk
  | .taiSecLoRead => execTaiSecLoRead_keeps hk
  | .registerWrite off w => execRegisterWrite_keeps off w hk
  | .qspiRead addr len mhz => execQspiRead_keeps addr len mhz hk
  | .qspiWrite addr data => execQspiWrite_keeps addr data hk
  | .qspiStat => execQspiStat_keeps hk
  | .perstN low => execPerstN_keeps low hk
  | .powerOn r => execPowerOn_keeps r hk
  | .rstN r => execRstN_keeps r hk
  | .brownOut rail => execBrownOut_keeps rail hk
  | .brownOutLatch => execBrownOutLatch_keeps hk
  | .railOvervoltage rail => execRailOvervoltage_keeps rail hk
  | .vinLoss => execVinLoss_keeps hk
  | .vinGood => execVinGood_keeps hk
  | .vinGood50ms => execVinGood50ms_keeps hk
  | .vinOv => execVinOv_keeps hk
  | .holdFull => execHoldFull_keeps hk
  | .holdCapMeasured us => execHoldCapMeasured_keeps us hk
  | .hold30v => execHold30v_keeps hk
  | .hold20v => execHold20v_keeps hk
  | .hold10v => execHold10v_keeps hk
  | .tjHigh above => execTjHigh_keeps above hk
  | .overtempPowerDown => execOvertempPowerDown_keeps hk
  | .vbatCheck low => execVbatCheck_keeps low hk
  | .vaux18Changeover => execVaux18Changeover_keeps hk
  | .opMinuteTick => execOpMinuteTick_keeps hk
  | .deviceLoopUpdate idx y => execDeviceLoopUpdate_keeps idx y hk
  | .milestoneBoundary m => execMilestoneBoundary_keeps m hk
  | .cycleFrameEnd => execCycleFrameEnd_keeps hk
  | .stageTdExpiry bay elem => execStageTdExpiry_keeps bay elem hk
  | .stageResetTimeout bay idx => execStageResetTimeout_keeps bay idx hk
  | .curveOperate bay idx => execCurveOperate_keeps bay idx hk
  | .curveResetTimeout bay idx => execCurveResetTimeout_keeps bay idx hk
  | .deadTimeEnd bay => execDeadTimeEnd_keeps bay hk
  | .reclaimEnd bay => execReclaimEnd_keeps bay hk
  | .closeTEnd bay => execCloseTEnd_keeps bay hk
  | .trippedTimeout bay => execTrippedTimeout_keeps bay hk
  | .bfRetrip bay => execBfRetrip_keeps bay hk
  | .bfBktrip bay => execBfBktrip_keeps bay hk
  | .sotfArmed bay => execSotfArmed_keeps bay hk
  | .sotfWindowEnd bay => execSotfWindowEnd_keeps bay hk
  | .clpDeenergised bay => execClpDeenergised_keeps bay hk
  | .clpActEnd bay => execClpActEnd_keeps bay hk
  | .inrushWindowEnd bay => execInrushWindowEnd_keeps bay hk
  | .inrushHoldEnd bay phase => execInrushHoldEnd_keeps bay phase hk
  | .riTdExpiry sect => execRiTdExpiry_keeps sect hk
  | .satBlkEnd sect => execSatBlkEnd_keeps sect hk
  | .frzTripEnd bay => execFrzTripEnd_keeps bay hk
  | .hifBackgroundValid bay lane => execHifBackgroundValid_keeps bay lane hk
  | .plausibilityLasting unit code phase => execPlausibilityLasting_keeps unit code phase hk
  | .plausibilityCleared unit code phase => execPlausibilityCleared_keeps unit code phase hk
  | .plausibilityEpisodeEnd unit code phase => execPlausibilityEpisodeEnd_keeps unit code phase hk
  | .minPulseEnd p => execMinPulseEnd_keeps p hk
  | .sealMaxEnd p => execSealMaxEnd_keeps p hk
  | .logicOverrun bay => execLogicOverrun_keeps bay hk
  | .logicAbort bay => execLogicAbort_keeps bay hk
  | .logicTimerExpiry bay t => execLogicTimerExpiry_keeps bay t hk
  | .opNop bay => execOpNop_keeps bay hk
  | .opLd bay a => execOpLd_keeps bay a hk
  | .opLdn bay a => execOpLdn_keeps bay a hk
  | .opAnd bay a => execOpAnd_keeps bay a hk
  | .opAndn bay a => execOpAndn_keeps bay a hk
  | .opOr bay a => execOpOr_keeps bay a hk
  | .opOrn bay a => execOpOrn_keeps bay a hk
  | .opXor bay a => execOpXor_keeps bay a hk
  | .opNot bay => execOpNot_keeps bay hk
  | .opApush bay => execOpApush_keeps bay hk
  | .opOpush bay => execOpOpush_keeps bay hk
  | .opPop bay => execOpPop_keeps bay hk
  | .opDup bay => execOpDup_keeps bay hk
  | .opRds bay => execOpRds_keeps bay hk
  | .opDrop bay => execOpDrop_keeps bay hk
  | .opSt bay a => execOpSt_keeps bay a hk
  | .opStn bay a => execOpStn_keeps bay a hk
  | .opSet bay a => execOpSet_keeps bay a hk
  | .opRst bay a => execOpRst_keeps bay a hk
  | .opRise bay a => execOpRise_keeps bay a hk
  | .opFall bay a => execOpFall_keeps bay a hk
  | .opTon bay a => execOpTon_keeps bay a hk
  | .opTof bay a => execOpTof_keeps bay a hk
  | .opTp bay a => execOpTp_keeps bay a hk
  | .opTrst bay a => execOpTrst_keeps bay a hk
  | .opCtu bay a => execOpCtu_keeps bay a hk
  | .opCtd bay a => execOpCtd_keeps bay a hk
  | .opCrst bay a => execOpCrst_keeps bay a hk
  | .opCld bay a => execOpCld_keeps bay a hk
  | .opCge bay a => execOpCge_keeps bay a hk
  | .opJmpc bay a => execOpJmpc_keeps bay a hk
  | .opJmpnc bay a => execOpJmpnc_keeps bay a hk
  | .opJmp bay a => execOpJmp_keeps bay a hk
  | .opEnd bay => execOpEnd_keeps bay hk
  | .lockstepMismatch c => execLockstepMismatch_keeps c hk
  | .sramEccCorrected u => execSramEccCorrected_keeps u hk
  | .sramEccUncorrectable u => execSramEccUncorrectable_keeps u hk
  | .standbyTakeover c => execStandbyTakeover_keeps c hk
  | .standbyReplayMismatch r => execStandbyReplayMismatch_keeps r hk
  | .standbySelftestMismatch r => execStandbySelftestMismatch_keeps r hk
  | .supvWatchdogExpiry => execSupvWatchdogExpiry_keeps hk
  | .warmRestart => execWarmRestart_keeps hk
  | .warmRestartDone ok => execWarmRestartDone_keeps ok hk
  | .supvLockstepRestart => execSupvLockstepRestart_keeps hk
  | .coldRestart r => execColdRestart_keeps r hk
  | .lastingFaultDeclared id inst => execLastingFaultDeclared_keeps id inst hk
  | .lastingFaultCleared id inst => execLastingFaultCleared_keeps id inst hk
  | .transientEpisodeEnd id inst => execTransientEpisodeEnd_keeps id inst hk
  | .faultHandler => execFaultHandler_keeps hk
  | .ptpSyncRx port m => execPtpSyncRx_keeps port m hk
  | .ptpAnnounceRx port m => execPtpAnnounceRx_keeps port m hk
  | .ptpPdelayReqRx port m => execPtpPdelayReqRx_keeps port m hk
  | .ptpPdelayRespRx port m => execPtpPdelayRespRx_keeps port m hk
  | .ptpMessageTx port kind => execPtpMessageTx_keeps port kind hk
  | .ptpAnnounceTimeout port => execPtpAnnounceTimeout_keeps port hk
  | .ptpSyncTimeout port => execPtpSyncTimeout_keeps port hk
  | .irigFrame m => execIrigFrame_keeps m hk
  | .irigTimeout => execIrigTimeout_keeps hk
  | .ppsInEdge t => execPpsInEdge_keeps t hk
  | .ppsInTimeout => execPpsInTimeout_keeps hk
  | .timeSourceSwitch src => execTimeSourceSwitch_keeps src hk
  | .timeSecondTick => execTimeSecondTick_keeps hk
  | .ppsOutEdge => execPpsOutEdge_keeps hk
  | .leapSecond => execLeapSecond_keeps hk
  | .gridSyncEdge t => execGridSyncEdge_keeps t hk
  | .gridSyncLost => execGridSyncLost_keeps hk
  | .cwSyncPulse t long => execCwSyncPulse_keeps t long hk
  | .cwSyncLoss => execCwSyncLoss_keeps hk
  | .cwClkLoss => execCwClkLoss_keeps hk
  | .refPrioritySwitch k => execRefPrioritySwitch_keeps k hk
  | .gridHoldoverTimeout => execGridHoldoverTimeout_keeps hk
  | .calPhaseEnd g m => execCalPhaseEnd_keeps g m hk
  | .auxConversionDone code => execAuxConversionDone_keeps code hk
  | .auxDelayEnd => execAuxDelayEnd_keeps hk
  | .urgEdge => execUrgEdge_keeps hk
  | .urgentConversionDone code => execUrgentConversionDone_keeps code hk
  | .svFrameRx f => execSvFrameRx_keeps f hk
  | .svSampleDeadline ctx => execSvSampleDeadline_keeps ctx hk
  | .svSyncLossTimeout ctx => execSvSyncLossTimeout_keeps ctx hk
  | .svPubFrameTx p => execSvPubFrameTx_keeps p hk
  | .gooseFrameRx f => execGooseFrameRx_keeps f hk
  | .gooseTalExpiry ctx => execGooseTalExpiry_keeps ctx hk
  | .gooseRetransmit idx => execGooseRetransmit_keeps idx hk
  | .prpSupervisionTx pair => execPrpSupervisionTx_keeps pair hk
  | .prpSupervisionRx h => execPrpSupervisionRx_keeps h hk
  | .duplicateEntryForget pair src seq => execDuplicateEntryForget_keeps pair src seq hk
  | .nodeForget pair src => execNodeForget_keeps pair src hk
  | .linkDown port => execLinkDown_keeps port hk
  | .linkUp port => execLinkUp_keeps port hk
  | .portRecovered port => execPortRecovered_keeps port hk
  | .biEdge idx level t => execBiEdge_keeps idx level t hk
  | .biDebounceEnd idx => execBiDebounceEnd_keeps idx hk
  | .rbMismatchStart p level => execRbMismatchStart_keeps p level hk
  | .rbMismatchEnd p level => execRbMismatchEnd_keeps p level hk
  | .tcsAlarm p => execTcsAlarm_keeps p hk
  | .tcsClear p => execTcsClear_keeps p hk
  | .tcsStale p => execTcsStale_keeps p hk
  | .systemTriggerEdge j rising t => execSystemTriggerEdge_keeps j rising t hk
  | .triggerTimeout bay c => execTriggerTimeout_keeps bay c hk
  | .recordClose r => execRecordClose_keeps r hk
  | .autoRecord r => execAutoRecord_keeps r hk
  | .cairnSeal => execCairnSeal_keeps hk
  | .queueOverflowRecord => execQueueOverflowRecord_keeps hk
  | .logChainVerify => execLogChainVerify_keeps hk
  | .userLoopUpdate idx => execUserLoopUpdate_keeps idx hk
  | .injectionCaptureDone => execInjectionCaptureDone_keeps hk
  | .traceTrigger => execTraceTrigger_keeps hk
  | .traceDone overrun => execTraceDone_keeps overrun hk
  | .dmaDescriptorFetched ch err => execDmaDescriptorFetched_keeps ch err hk
  | .dmaBeatDone ch write pos err => execDmaBeatDone_keeps ch write pos err hk
  | .dmaWriteback ch err => execDmaWriteback_keeps ch err hk
  | .dmaAccessTimeout ch a => execDmaAccessTimeout_keeps ch a hk
  | .dmaAccessRetry ch a => execDmaAccessRetry_keeps ch a hk
  | .dmaPacePoll ch err => execDmaPacePoll_keeps ch err hk
  | .tamperFire j => execTamperFire_keeps j hk
  | .tamperRearm j => execTamperRearm_keeps j hk
  | .testEnd m => execTestEnd_keeps m hk
  | .testTripPulseEnd => execTestTripPulseEnd_keeps hk
  | .komirHelp => execKomirHelp_keeps hk
  | .komirId => execKomirId_keeps hk
  | .komirStatus => execKomirStatus_keeps hk
  | .komirBaud n => execKomirBaud_keeps n hk
  | .komirEcho on => execKomirEcho_keeps on hk
  | .komirUnlockNonce => execKomirUnlockNonce_keeps hk
  | .komirUnlockToken slot token => execKomirUnlockToken_keeps slot token hk
  | .komirLock => execKomirLock_keeps hk
  | .komirCaps => execKomirCaps_keeps hk
  | .komirLog seq n => execKomirLog_keeps seq n hk
  | .komirSlice x => execKomirSlice_keeps x hk
  | .komirBay b => execKomirBay_keeps b hk
  | .komirPins => execKomirPins_keeps hk
  | .komirTime => execKomirTime_keeps hk
  | .komirSupv => execKomirSupv_keeps hk
  | .komirWmk ch kind unit sel e diff level => execKomirWmk_keeps ch kind unit sel e diff level hk
  | .komirTest t => execKomirTest_keeps t hk
  | .komirLoop l man => execKomirLoop_keeps l man hk
  | .komirRestartWarm => execKomirRestartWarm_keeps hk
  | .komirRestartCold => execKomirRestartCold_keeps hk
  | .komirFwd off data => execKomirFwd_keeps off data hk
  | .komirFwe => execKomirFwe_keeps hk
  | .komirBreak => execKomirBreak_keeps hk
  | .komirIdleTimeout => execKomirIdleTimeout_keeps hk
  | .komirNonceExpiry => execKomirNonceExpiry_keeps hk
  | .bootComplete => execBootComplete_keeps hk
  | .railsGood r => execRailsGood_keeps r hk
  | .supvLockstepRestartDone => execSupvLockstepRestartDone_keeps hk
  | .clockFailure part => execClockFailure_keeps part hk
  | .pcieLinkTrained => execPcieLinkTrained_keeps hk
  | .pcieLinkLost => execPcieLinkLost_keeps hk
  | .discardedFrameRx port src why => execDiscardedFrameRx_keeps port src why hk
  | .ptpFollowUpRx port m => execPtpFollowUpRx_keeps port m hk
  | .energyCountersSave => execEnergyCountersSave_keeps hk
  | .memTEnd bay => execMemTEnd_keeps bay hk
  | .riHoldEnd sect => execRiHoldEnd_keeps sect hk
  | .dieToDieLinkRetry die => execDieToDieLinkRetry_keeps die hk
  | .komirSyntaxError => execKomirSyntaxError_keeps hk

theorem step_of_pending {c : Instr} {cs : List Instr} {s : State} (h : s.pending = c :: cs) : step s = exec c { s with pending := cs } := by
  rw [step, h]

theorem step_of_idle {s : State} (h : s.pending = []) : step s = .next { s with clk := s.clk.tick } := by
  rw [step, h]

/-- Every step answers a next state, in which the memories and the log have been kept as every command keeps them. -/
theorem step_next (s : State) : ∃ t, step s = .next t ∧ (s.mem.wf = true → t.mem.wf = true) ∧ LogKeeps s.log t.log := by
  cases h : s.pending with
  | nil => exact ⟨_, step_of_idle h, id, .refl _⟩
  | cons c cs =>
    obtain ⟨t, ht, hkeeps⟩ := exec_keeps (Keeps.refl { s with pending := cs }) c
    exact ⟨t, (step_of_pending h).trans ht, hkeeps.mem, hkeeps.log⟩

/-- Settles O1: a step by what the queue holds. -/
theorem stepRunsFront : Obligations.StepRunsFront := by
  unfold Obligations.StepRunsFront
  exact ⟨fun _ _ _ => step_of_pending, fun _ => step_of_idle⟩

/-- Settles O5: what every command keeps holds the queue and the variant. -/
theorem execKeepsQueue : Obligations.ExecKeepsQueue := by
  unfold Obligations.ExecKeepsQueue
  intro i s
  obtain ⟨t, ht, hkeeps⟩ := exec_keeps (Keeps.refl s) i
  exact ⟨t, ht, hkeeps.pending, hkeeps.variant⟩

/-- Settles O3: what every step keeps of the memories and of the log is what makes a state sound. -/
theorem stepKeepsSound : Obligations.StepKeepsSound := by
  unfold Obligations.StepKeepsSound
  intro s hs
  obtain ⟨t, ht, hmem, hlog⟩ := step_next s
  exact ⟨t, ht, hmem hs.mem, hlog.queue hs.queue, hlog.ring hs.ring⟩

/-! ### What a completion leaves of the log -/

section
variable (s : State)

@[simp] theorem raiseIrq_log (k : Nat) : (raiseIrq k s).log = s.log := (congrArg State.log (raiseIrq_onlyMessages k s) :)

@[simp] theorem putCompletion_log (x : Completion) : (putCompletion x s).log = s.log := by
  unfold putCompletion memWriteIf
  rw [raiseIrq_log]
  split <;> rfl

@[simp] theorem complete_log (x : Completion) : (complete x s).log = s.log := by
  unfold complete
  split
  · exact putCompletion_log ..
  · exact raiseIrq_log ..

@[simp] theorem conclude_log (c : Cmd) (x : Completion) : (conclude c x s).log = s.log := by
  unfold conclude
  split
  · rfl
  · exact complete_log ..

omit s in
theorem SealedAlike.ite {l : LogSt} {t u : State} (p : Prop) [Decidable p] (ht : SealedAlike l t.log) (hu : SealedAlike l u.log) :
    SealedAlike l (if p then t else u).log := by
  split
  · exact ht
  · exact hu

theorem countAuthFail_sealedAlike : SealedAlike s.log (countAuthFail s).log := SealedAlike.ite _ (enqueue_sealedAlike ..) ⟨rfl, rfl, rfl⟩

theorem clearDenied_sealedAlike (c : Cmd) (d : Nat) : SealedAlike s.log (clearDenied c d s).log :=
  SealedAlike.trans (m := { s.log with clearDenied := satN 32 (s.log.clearDenied + 1) }) ⟨rfl, rfl, rfl⟩ (enqueue_sealedAlike ..)

theorem denials_sealedAlike (c : Cmd) (d : Nat) (p q : Prop) [Decidable p] [Decidable q] : SealedAlike s.log
    (if q then clearDenied c d (if p then countAuthFail s else s) else if p then countAuthFail s else s).log := by
  have hp : SealedAlike s.log (if p then countAuthFail s else s).log := SealedAlike.ite p (countAuthFail_sealedAlike s) ⟨rfl, rfl, rfl⟩
  exact SealedAlike.ite q (hp.trans (clearDenied_sealedAlike ..)) hp

/-- A completion seals nothing. -/
theorem finish_sealedAlike (c : Cmd) (r : Reply) : SealedAlike s.log (finish c r s).log := by
  have hlate (p : Prop) [Decidable p] : SealedAlike s.log (if p then bumpClass 5 ClassCount.delay s else s).log :=
    SealedAlike.ite p ⟨rfl, rfl, rfl⟩ ⟨rfl, rfl, rfl⟩
  unfold finish
  dsimp only [delayed]
  split
  · rw [conclude_log]
    exact (hlate _).trans (denials_sealedAlike ..)
  · refine SealedAlike.ite _ ?_ ?_
    · rw [conclude_log]
      exact (hlate _).trans (denials_sealedAlike ..)
    · rw [conclude_log]
      exact (hlate _).trans (denials_sealedAlike ..)

theorem consoleReply_log (r : Reply) : (consoleReply r s).log = s.log := by
  unfold consoleReply
  split
  · cases r.out with
    | none =>
      dsimp only
      split <;> rfl
    | some b => rfl
  · rfl

theorem finishOpen_sealedAlike (x : CmdRef) (r : Reply) : SealedAlike s.log (finishOpen x r s).log := by
  unfold finishOpen
  split
  · exact (consoleReply_log s r).symm ▸ ⟨rfl, rfl, rfl⟩
  · split
    · exact finish_sealedAlike ..
    · exact ⟨rfl, rfl, rfl⟩

theorem enterOverflow_sealedAlike : SealedAlike s.log (enterOverflow s).log := by
  unfold enterOverflow
  split
  · exact ⟨rfl, rfl, rfl⟩
  · split <;> exact ⟨rfl, rfl, rfl⟩

theorem watermark_log (before : LogSt) : (watermark before s).log = s.log := by
  unfold watermark
  split
  · exact raiseIrq_log ..
  · rfl

end

/-! ### Sealing -/

/-- The sequence number is the first field of a record (Table: Cairn record). -/
theorem recSeq_record {seq : Nat} (h : seq < 2 ^ 64) (e : Event) (tail : Bytes) : recSeq (recordBody seq e ++ tail) = seq := by
  unfold recordBody recSeq u64At
  simp only [List.append_assoc]
  rw [← List.append_assoc]
  exact (leAt_leBytes [] _ 8 seq).trans (Nat.mod_eq_of_lt h)

/-- The newest record and its number, which it bears while numbers have 64 bits (R496). -/
def NewestIs (seq : Nat) (l : LogSt) : Prop :=
  l.headSeq = seq ∧ ∃ r, l.records.head? = some r ∧ (seq < 2 ^ 64 → recSeq r = seq)

theorem newestIs_appendRecord (e : Event) (l : LogSt) : NewestIs (l.headSeq + 1) (appendRecord e l) :=
  ⟨rfl, _, rfl, fun h => recSeq_record h e _⟩

theorem NewestIs.of_sealedAlike {seq : Nat} {l m : LogSt} (h : NewestIs seq l) (k : SealedAlike l m) : NewestIs seq m := by
  obtain ⟨hhead, hrecords, -⟩ := k
  rwa [NewestIs, hhead, hrecords]

/-- Sealing the first event of the queue appends its record; a cleared record is then the only one kept (R493, R507). -/
theorem sealOne_newest {s : State} (h : s.log.queue ≠ []) : NewestIs (s.log.headSeq + 1) (sealOne s).log := by
  unfold sealOne
  split
  · next hq => exact absurd hq h
  · next e q _ =>
    dsimp only
    split
    · refine NewestIs.of_sealedAlike ?_ (enterOverflow_sealedAlike _)
      rw [watermark_log]
      exact newestIs_appendRecord e { s.log with queue := q }
    · refine NewestIs.of_sealedAlike ?_ (enterOverflow_sealedAlike _)
      refine NewestIs.of_sealedAlike ?_ (finishOpen_sealedAlike ..)
      rw [watermark_log]
      exact newestIs_appendRecord _ { s.log with queue := q, overflow := none }

theorem exec_cairnSeal {s : State} (h : sealing s = true) : exec .cairnSeal s = .next (sealOne s) := congrArg Host.Outcome.next (if_pos h)

/-- Settles O4: every step keeps the head from falling, and an appended record bears the number after it. -/
theorem seqNeverFalls : Obligations.SeqNeverFalls := by
  unfold Obligations.SeqNeverFalls
  refine ⟨fun s t hst => ?_, fun s hseal hq => ?_, fun _ _ _ => rfl, rfl⟩
  · obtain ⟨u, hu, -, hlog⟩ := step_next s
    obtain rfl : u = t := Host.Outcome.next.inj (hu.symm.trans hst)
    exact hlog.head
  · exact ⟨_, exec_cairnSeal hseal, sealOne_newest hq⟩

end Sys2Proof.Machine.Laws
end

section
/-! SUPPORT. The commands of scheme logic, what forces do at the boundary, and the failures of a logic cycle (R359-R363, R366-R372). -/

namespace Sys2Proof.Machine.Laws
open Sys2Proof Sys2Proof.Machine Sys2Proof.Safety

/-! ### The data of one bay -/

section
variable {s : State} {b : Nat}

theorem bayProt_setLogic_ne (f : LogicBay → LogicBay) {k : Nat} (h : k ≠ b) : bayProt (setLogic b f s) k = bayProt s k := getD_modAt_ne _ _ _ h

theorem logicBay_setLogic_ne (f : LogicBay → LogicBay) {k : Nat} (h : k ≠ b) : logicBay (setLogic b f s) k = logicBay s k :=
  congrArg BayProt.logic (bayProt_setLogic_ne f h)

end

/-! ### Forces at the boundary (R371, R372) -/

section
variable {f : Force} {l : List Force}

/-- The forces of a bay once LOGIC.FORCE has acted on them. -/
def forcesWith (f : Force) (l : List Force) : List Force := if l.any f.same then l.map (fun g => if f.same g then f else g) else l ++ [f]

/-- The force asked for is there alone of its place, and every force of another place stays. -/
theorem mem_forcesWith {g : Force} : g ∈ forcesWith f l ↔ g = f ∨ (g ∈ l ∧ f.same g = false) := by
  unfold forcesWith
  split
  · next had =>
    simp only [List.any_eq_true] at had
    obtain ⟨x, hx, hsame⟩ := had
    rw [List.mem_map]
    constructor
    · rintro ⟨y, hy, rfl⟩
      cases hxy : f.same y with
      | true => exact .inl (if_pos rfl)
      | false => exact .inr ⟨by simpa using hy, by simpa using hxy⟩
    · rintro (rfl | ⟨hg, hother⟩)
      · exact ⟨x, hx, if_pos hsame⟩
      · exact ⟨g, hg, by simp [hother]⟩
  · next hnone =>
    simp only [List.any_eq_true, not_exists, not_and, Bool.not_eq_true] at hnone
    rw [List.mem_append, List.mem_singleton]
    exact ⟨fun h => h.elim (fun hg => .inr ⟨hg, hnone g hg⟩) .inl, fun h => h.elim .inr fun hg => .inl hg.1⟩

theorem forcesWith_length : (forcesWith f l).length ≤ l.length + 1 := by
  unfold forcesWith
  split <;> simp

end

section
variable {s : State} {b : Nat} {f : Force}

theorem applyLogicForce_prot : (applyLogicForce b f s).1.prot = (setLogic b (fun x =>
    { x with forces :=
        if (logicBay s b).forces.any f.same = true then x.forces.map (fun g => if f.same g = true then f else g) else x.forces ++ [f] }) s).prot := rfl

theorem forceRecords_prot (l : List Force) (op : Nat) : ∀ s : State, (l.foldl (fun s g => forceRecord b op g s) s).prot = s.prot := by
  intro s
  exact List.foldlRecOn (motive := fun t : State => t.prot = s.prot) _ _ rfl fun _ ht _ _ => ht

theorem applyLogicUnforce_prot {all : Bool} : (applyLogicUnforce b f all s).1.prot =
    (setLogic b (fun x => { x with forces := x.forces.filter (fun g => !(all || f.same g)) }) s).prot := forceRecords_prot ..

theorem logicBay_of_prot {t : State} (h : t.prot = s.prot) (k : Nat) : logicBay t k = logicBay s k := by
  rw [logicBay, bayProt, h]
  rfl

end

/-! ### The commands -/

section
variable {c : Cmd} {s : State} {f : InFlight} (h : Starts c s f)
include h

section
variable (hp : Passes (logicJudge c logicModes [] [] s) c s f)
include hp

/-- LOGIC.LOAD of an image that fits puts it into the inactive bank (R359). -/
theorem exec_logicLoad_of_fits {img : Bytes} (himg : img = memRead (begun c s) c.bufSpace c.bufAddr c.room)
    (hreach : reachable (begun c s) c.bufSpace c.bufAddr c.room = true) (hroom : 64 ≤ c.room) (hfmt : u16At img 0 = 1)
    (hlen : u32At img 0x38 = c.room) (hparts : pLength img = c.room)
    (hcrc : (crc32c (img.take 0x3C ++ img.drop 0x40)).toNat = u32At img 0x3C)
    (hpool : poolUsed (begun c s) c.unit + bankKib { image := img } ≤ 512) :
    exec (.logicLoad c) s = .next (answer c { effect := some (begun c s).clk.ms } (setLogic c.unit (fun x =>
      { x with
        banks := modAt x.banks (1 - x.act) (fun _ => { image := img, verified := false, wcet := 0, depth := 0 })
        lastBank := if x.lastBank = some (1 - x.act) then none else x.lastBank }) (begun c s))) := by
  refine congrArg Host.Outcome.next (command_answers h hp ?_)
  simp only [← himg, hreach, hfmt, hlen, hparts, hcrc, Nat.not_lt.mpr hroom, Nat.not_lt.mpr hpool, bne_self_eq_false, Bool.not_true, Bool.and_false,
    decide_false, Bool.or_self, Bool.false_eq_true, if_false, beq_iff_eq]
  rfl

variable {k : Bank} (hk : k = idleBank (logicBay (begun c s) c.unit))
include hk

theorem exec_logicVerify_of_empty (hempty : k.image = []) :
    exec (.logicVerify c) s = .next (answer c (Reply.refuse Rsn.state) (begun c s)) := by
  refine congrArg Host.Outcome.next (command_answers h hp ?_)
  simp only [← hk, hempty, List.isEmpty_nil, if_true]

/-- LOGIC.VERIFY of an image that fails names the cause and the index (R360). -/
theorem exec_logicVerify_of_bad (hsome : k.image ≠ []) {cause i : Nat} (hbad : (verify k.image).bad = some (cause, i)) :
    exec (.logicVerify c) s = .next (answer c { Reply.refuse Rsn.check with result := i + place cause 16 8 } (begun c s)) := by
  refine congrArg Host.Outcome.next (command_answers h hp ?_)
  simp only [← hk, List.isEmpty_eq_false_iff.mpr hsome, Bool.false_eq_true, if_false, hbad]

/-- LOGIC.VERIFY of a good image marks the bank with its worst case (R360, R361). -/
theorem exec_logicVerify_of_good (hsome : k.image ≠ []) {v : Verdict} (hv : v = verify k.image) (hgood : v.bad = none) {t : State}
    (ht : t = setLogic c.unit (fun x =>
      { x with banks := modAt x.banks (1 - x.act) (fun k => { k with verified := true, wcet := v.wcet, depth := v.depth }) }) (begun c s)) :
    exec (.logicVerify c) s = .next (answer c
      { result := v.wcet + place v.depth 32 5 + place (flag (loadsWithin t c.unit k.image v.wcet logicBudget)) 37 1 +
          place (flag (loadsWithin t c.unit k.image v.wcet takeoverBudget)) 38 1 } t) := by
  refine congrArg Host.Outcome.next (command_answers h hp ?_)
  simp only [← hk, List.isEmpty_eq_false_iff.mpr hsome, Bool.false_eq_true, if_false, ← hv, hgood, ← ht]

/-- LOGIC.SWITCH by whether the bank is verified and fits (R367). -/
theorem exec_logicSwitch : exec (.logicSwitch c) s = .next (
    if k.verified = false then answer c (Reply.refuse Rsn.state) (begun c s)
    else if loadsWithin (begun c s) c.unit k.image k.wcet logicBudget = false then
      answer c (Reply.refuse Rsn.capacity) (bumpClass 2 ClassCount.refuse (begun c s))
    else waits c 0 0 (.logicSwitch c.unit) (begun c s)) := by
  have hrow : exec (.logicSwitch c) s = execLogicSwitch c s := rfl
  rw [hrow, execLogicSwitch, command_cameTo h hp]
  simp only [← hk, apply_ite (cameTo c), Bool.not_eq_true']
  rfl

end

/-- LOGIC.FORCE of a place that exists and finds room waits for the boundary (R372). -/
theorem exec_logicForce (hp : Passes (logicJudge c logicModes (forceUsed c false) (forceRange c) s) c s f)
    (hplace : (forceOf c).ident = false ∨
      ((activeImage (logicBay (begun c s) c.unit)).bind (fun i => varSlot i (forceOf c).where_)).isSome = true)
    (hroom : (logicBay (begun c s) c.unit).forces.any (forceOf c).same = true ∨ (logicBay (begun c s) c.unit).forces.length < 64) :
    exec (.logicForce c) s = .next (waits c 0 0 (.logicForce c.unit (forceOf c)) (begun c s)) := by
  have hrow : exec (.logicForce c) s = execLogicForce c s := rfl
  rw [hrow, execLogicForce, command_cameTo h hp]
  dsimp only
  rw [if_neg, if_neg]
  · rfl
  · rcases hroom with hroom | hroom
    · simp [hroom]
    · simp [Nat.not_le.mpr hroom]
  · rcases hplace with hplace | hplace
    · simp [hplace]
    · simp [Option.isNone_iff_eq_none, Option.isSome_iff_ne_none.mp hplace]

/-- LOGIC.UNFORCE by whether it names a force (R372). -/
theorem exec_logicUnforce {all : Bool} (hall : all = (c.at_ 0x14 2 1 == 1))
    (hp : Passes (logicJudge c logicModes (forceUsed c true) (if all then [] else forceRange c) s) c s f) :
    exec (.logicUnforce c) s = .next (
      if (logicBay (begun c s) c.unit).forces.any (fun g => all || (forceOf c).same g) = true then
        waits c 0 0 (.logicUnforce c.unit (forceOf c) all) (begun c s)
      else answer c {} (begun c s)) := by
  subst hall
  have hrow : exec (.logicUnforce c) s = execLogicUnforce c s := rfl
  rw [hrow, execLogicUnforce]
  dsimp only
  rw [command_cameTo h hp]
  cases hany : (logicBay (begun c s) c.unit).forces.any (fun g => c.at_ 0x14 2 1 == 1 || (forceOf c).same g) <;> rfl

end

/-- Settles O18: each command by what stands in its way, and what a force and its removal leave of the bay's forces. -/
theorem logicCommands : Obligations.LogicCommands := by
  unfold Obligations.LogicCommands
  refine ⟨?_, fun b f s hb t ht => ?_, fun b f all s hb t ht => ?_⟩
  · rintro c s _ f h rfl
    refine ⟨fun hp => ⟨fun img himg hreach hroom hfmt hlen hparts hcrc hpool => exec_logicLoad_of_fits h hp himg hreach hroom hfmt hlen hparts hcrc hpool,
      fun k hk => ⟨exec_logicVerify_of_empty h hp hk, fun hsome _ _ => exec_logicVerify_of_bad h hp hk hsome,
        fun hsome hgood _ _ hv ht => exec_logicVerify_of_good h hp hk hsome hv (hv ▸ hgood) ht, ?_, ?_, ?_⟩⟩, ?_, ?_, ?_⟩
    · intro hver
      rw [exec_logicSwitch h hp hk, if_pos hver]
    · intro hver hfits
      rw [exec_logicSwitch h hp hk, if_neg (by simp [hver]), if_pos hfits]
    · intro hver hfits
      rw [exec_logicSwitch h hp hk, if_neg (by simp [hver]), if_neg (by simp [hfits])]
    · rintro hp _ rfl hplace hroom
      exact exec_logicForce h hp hplace hroom
    · exact fun all hall hp => exec_logicUnforce h hall hp
    · exact fun hp => congrArg Host.Outcome.next (command_cameTo h hp)
  · have hprot := (congrArg State.prot ht).trans applyLogicForce_prot
    rw [logicBay_of_prot hprot, logicBay_setLogic_same _ hb]
    exact ⟨fun _ => mem_forcesWith, forcesWith_length, fun k hk => (logicBay_of_prot hprot k).trans (logicBay_setLogic_ne _ hk)⟩
  · have hprot := (congrArg State.prot ht).trans applyLogicUnforce_prot
    rw [logicBay_of_prot hprot, logicBay_setLogic_same _ hb]
    refine ⟨fun g => ?_, fun k hk => (logicBay_of_prot hprot k).trans (logicBay_setLogic_ne _ hk)⟩
    simp [List.mem_filter]

/-! ### Overrun and abort (R362, R363) -/

section
variable {s : State} {bay : BitVec 6}

theorem failCluster_prot (c kind : Nat) (s : State) : (failCluster c kind s).prot = s.prot := by
  unfold failCluster
  split <;> rfl

/-- A cycle that has run in this Milestone without an overrun is marked, and its overrun counted. -/
theorem exec_logicOverrun_of_ran (hran : (logicBay s bay.toNat).ran = true) (hms : (logicBay s bay.toNat).exec.ms = s.clk.ms)
    (hfirst : (logicBay s bay.toNat).overrunState = 0) : ∃ t, exec (.logicOverrun bay) s = .next t ∧
      t.prot = (setLogic bay.toNat (fun x => { x with overrunState := 1, overruns := satN 32 (x.overruns + 1) }) s).prot ∧
      t.mode.mode = s.mode.mode := by
  have hacts : logicOverrun bay.toNat s = _ := if_pos (by simp [hran, hms, hfirst])
  have hu := (unsupervised_settle _).trans (unsupervised_countEvent (bumpClass 2 ClassCount.delay (setLogic bay.toNat
    (fun x => { x with overrunState := 1, overruns := satN 32 (x.overruns + 1) }) s)) 13 bay.toNat)
  exact ⟨_, (exec_logicOverrun s bay).trans (congrArg _ hacts), (prot_of_unsupervised hu :), (mode_of_unsupervised hu :)⟩

theorem exec_logicOverrun_of_not (h : (logicBay s bay.toNat).ran = false ∨ (logicBay s bay.toNat).exec.ms ≠ s.clk.ms ∨
    (logicBay s bay.toNat).overrunState ≠ 0) : exec (.logicOverrun bay) s = .next s :=
  (exec_logicOverrun s bay).trans (congrArg _ (if_neg (by rcases h with h | h | h <;> simp [h])))

/-- A cycle that goes on past its second Milestone gives back its data, and its cluster fails. -/
theorem exec_logicAbort_of_late (hran : (logicBay s bay.toNat).ran = true) (hlate : (logicBay s bay.toNat).overrunState = 2) :
    ∃ t, exec (.logicAbort bay) s = .next t ∧
      t.prot = (setLogic bay.toNat (fun x => { x with data := x.chk, ran := false, overrunState := 0 }) s).prot ∧
      t.mode.tko = (failCluster (clusterOf bay.toNat) 3 (setLogic bay.toNat
        (fun x => { x with data := x.chk, ran := false, overrunState := 0 }) s)).mode.tko := by
  have hacts : logicAbort bay.toNat s = _ := if_pos (by simp [hran, hlate])
  have hu := (unsupervised_settle _).trans (unsupervised_countEvent (failCluster (clusterOf bay.toNat) 3 (setLogic bay.toNat
    (fun x => { x with data := x.chk, ran := false, overrunState := 0 }) s)) 3 bay.toNat)
  exact ⟨_, (exec_logicAbort s bay).trans (congrArg _ hacts), (prot_of_unsupervised hu).trans (failCluster_prot ..), tko_of_unsupervised hu⟩

theorem exec_logicAbort_of_not (h : (logicBay s bay.toNat).ran = false ∨ (logicBay s bay.toNat).overrunState ≠ 2) :
    exec (.logicAbort bay) s = .next s :=
  (exec_logicAbort s bay).trans (congrArg _ (if_neg (by rcases h with h | h <;> simp [h])))

end

/-- Settles O51: each row by whether its cycle is the one it is for. -/
theorem logicFailures : Obligations.LogicFailures := by
  unfold Obligations.LogicFailures
  rintro s bay _ _ rfl rfl
  refine ⟨fun hran hms hfirst hb => ?_, exec_logicOverrun_of_not, fun hran hlate hb => ?_, exec_logicAbort_of_not⟩
  · obtain ⟨t, ht, hprot, hmode⟩ := exec_logicOverrun_of_ran hran hms hfirst
    refine ⟨t, ht, ?_, fun k hk => ?_, hmode⟩
    · rw [logicBay_of_prot hprot, logicBay_setLogic_same _ hb]
    · rw [bayProt, hprot]
      exact bayProt_setLogic_ne _ hk
  · obtain ⟨t, ht, hprot, htko⟩ := exec_logicAbort_of_late hran hlate
    refine ⟨t, ht, ?_, fun k hk => ?_, fun hactive hnone hlen => ?_⟩
    · rw [logicBay_of_prot hprot, logicBay_setLogic_same _ hb]
    · rw [bayProt, hprot]
      exact bayProt_setLogic_ne _ hk
    · rw [htko, failCluster_active (s := setLogic _ _ s) hactive hnone]
      exact getD_of_getElem? (List.getElem?_set_self hlen) _

end Sys2Proof.Machine.Laws
end

section
/-! SUPPORT. The instructions of the accumulator machine: a row runs its instruction or refuses its operand (R353, R355, R356, R371). -/

namespace Sys2Proof.Machine.Laws
open Sys2Proof Sys2Proof.Machine Sys2Proof.Safety

/-! ### A row -/

section
variable {i : Instr} {b n a : Nat} {k : OpKind} {f : LCtx → Nat → LM → LM} {s : State}

/-- The machine of a bay with its index moved on and the clocks of the instruction spent. -/
def nextInstr (s : State) (b n : Nat) : LExec :=
  { (logicBay s b).exec with idx := (logicBay s b).exec.idx + 1, clocks := (logicBay s b).exec.clocks + n }

/-- A row whose operand verification accepts leaves what its instruction makes of the machine. -/
theorem logicRuns_of_row {e : LExec} {d : LData} (hrow : exec i s = .next (instrRow b k n f a s))
    (hok : operandOk (logicCtx s b).img (logicBay s b).exec.idx k a = true)
    (hm : f (logicCtx s b) a ⟨nextInstr s b n, (logicBay s b).data⟩ = ⟨e, d⟩) : LogicRuns i s b e d := by
  unfold nextInstr at hm
  rw [LogicRuns, hrow, instrRow]
  dsimp only
  rw [if_pos hok, logicInstr, hm]

/-- One whose operand verification refuses changes nothing (log entry 43). -/
theorem row_of_refused (hrow : exec i s = .next (instrRow b k n f a s))
    (hbad : operandOk (logicCtx s b).img (logicBay s b).exec.idx k a = false) : exec i s = .next s := by
  rw [hrow, instrRow]
  exact congrArg _ (if_neg (by simp [hbad]))

end

/-! ### What the instructions do -/

section
variable {c : LCtx} {a : Nat} {m : LM}

/-- A store to a forced bit leaves it (R371). -/
theorem write_of_forced {v : Bool} (h : forcedAt c a = some v) (w : Bool) : m.write c a w = m := by
  rw [LM.write, h]
  rfl

/-- A store to a bit that is not forced changes it in its own space. -/
theorem write_of_free {n : Nat} (hw : mayWrite n a = true) (h : forcedAt c a = none) (v : Bool) : m.write c a v = ⟨m.x,
    if opSpace a = 4 then { m.d with out := modAt m.d.out (opIndex a) (fun _ => v) }
    else { m.d with var := modAt m.d.var (opIndex a) (fun _ => v) }⟩ := by
  rw [LM.write, h]
  simp only [mayWrite, Bool.and_eq_true, Bool.or_eq_true, beq_iff_eq] at hw
  obtain ⟨hspace | hspace, -⟩ := hw <;> simp [hspace]

theorem lopSet_of_forced {v : Bool} (h : forcedAt c a = some v) : lopSet c a m = m := by
  rw [lopSet, write_of_forced h, ite_self]

theorem lopRst_of_forced {v : Bool} (h : forcedAt c a = some v) : lopRst c a m = m := by
  rw [lopRst, write_of_forced h, ite_self]

theorem lopSet_of_free {n : Nat} (hw : mayWrite n a = true) (h : forcedAt c a = none) : lopSet c a m = ⟨m.x,
    if m.x.acc = true then
      if opSpace a = 4 then { m.d with out := modAt m.d.out (opIndex a) (fun _ => true) }
      else { m.d with var := modAt m.d.var (opIndex a) (fun _ => true) }
    else m.d⟩ := by
  unfold lopSet
  split
  · exact write_of_free hw h true
  · rfl

theorem lopRst_of_free {n : Nat} (hw : mayWrite n a = true) (h : forcedAt c a = none) : lopRst c a m = ⟨m.x,
    if m.x.acc = true then
      if opSpace a = 4 then { m.d with out := modAt m.d.out (opIndex a) (fun _ => false) }
      else { m.d with var := modAt m.d.var (opIndex a) (fun _ => false) }
    else m.d⟩ := by
  unfold lopRst
  split
  · exact write_of_free hw h false
  · rfl

theorem lopTrst_eq : lopTrst c a m = ⟨m.x, if m.x.acc = true then { m.d with tmr := modAt m.d.tmr (opIndex a) (fun t =>
    { t with q := false, run := false, inn := false, et := 0, resume := false }) } else m.d⟩ := by
  unfold lopTrst
  split <;> rfl

/-- A counter counts up on a rise of ACC, to 65535 (R356). -/
theorem ctuStep_eq (pv : Nat) (i : Bool) (y : LCounter) : ctuStep pv i y =
    ({ y with cv := if i = true ∧ y.cu = false then min (y.cv + 1) 65535 else y.cv, cu := i },
      decide (pv ≤ if i = true ∧ y.cu = false then min (y.cv + 1) 65535 else y.cv)) := by
  simp [ctuStep]

/-- A counter counts down on a rise of ACC, to 0 (R356). -/
theorem ctdStep_eq (pv : Nat) (i : Bool) (y : LCounter) : ctdStep pv i y =
    ({ y with cv := if i = true ∧ y.cd = false then y.cv - 1 else y.cv, cd := i },
      decide ((if i = true ∧ y.cd = false then y.cv - 1 else y.cv) = 0)) := by
  simp [ctdStep]
  rfl

/-- A jump forward goes from the instruction that the index has left. -/
theorem jump_of_forward {idx : Nat} (hidx : m.x.idx = idx + 1) (ha : a < 2 ^ 23) : jump a m = ⟨{ m.x with idx := idx + a }, m.d⟩ := by
  have hofs : signedOf a 24 = (a : Int) := by
    rw [signedOf, Nat.mod_eq_of_lt (by omega), if_pos ha]
  have hto : (((idx + 1 : Nat) : Int) - 1 + (a : Int)).toNat = idx + a := by omega
  rw [jump, hidx, hofs, hto]

theorem lopJmpc_of_forward {idx : Nat} (hidx : m.x.idx = idx + 1) (ha : a < 2 ^ 23) :
    lopJmpc c a m = ⟨if m.x.acc = true then { m.x with idx := idx + a } else m.x, m.d⟩ := by
  unfold lopJmpc
  split
  · exact jump_of_forward hidx ha
  · rfl

theorem lopJmpnc_of_forward {idx : Nat} (hidx : m.x.idx = idx + 1) (ha : a < 2 ^ 23) :
    lopJmpnc c a m = ⟨if m.x.acc = true then m.x else { m.x with idx := idx + a }, m.d⟩ := by
  unfold lopJmpnc
  split
  · rfl
  · exact jump_of_forward hidx ha

theorem operandOk_offset {img : Bytes} {idx : Nat} (hpos : 0 < a) (ha : a < 2 ^ 23) (hend : idx + a + 1 ≤ pNinstr img) :
    operandOk img idx .offset a = true := by
  have hofs : signedOf a 24 = (a : Int) := by
    rw [signedOf, Nat.mod_eq_of_lt (by omega), if_pos ha]
  simp only [operandOk, hofs, Bool.and_eq_true, decide_eq_true_eq]
  omega

theorem operandOk_offset_of_refused {img : Bytes} {idx : Nat} (ha : a < 2 ^ 24) (h : a = 0 ∨ 2 ^ 23 ≤ a ∨ pNinstr img < idx + a + 1) :
    operandOk img idx .offset a = false := by
  have hofs : signedOf a 24 = if a < 2 ^ 23 then (a : Int) else a - 2 ^ 24 := by
    rw [signedOf, Nat.mod_eq_of_lt ha]
    rfl
  simp only [operandOk, hofs, Bool.and_eq_false_iff, decide_eq_false_iff_not]
  split <;> omega

end

/-! ### Timers (R355) -/

section
variable {pt tn rn : Nat} {t : LTimer} (h : t.resume = false)
include h

omit h in
theorem tonStep_off : (tonStep pt tn rn false t).q = false ∧ (tonStep pt tn rn false t).run = false := by
  simp [tonStep]

theorem tonStep_rise (hin : t.inn = false) (hq : t.q = false) :
    (tonStep pt tn rn true t).start = tn ∧ (tonStep pt tn rn true t).q = decide (tn + pt ≤ rn) := by
  by_cases hdue : tn + pt ≤ rn <;> simp [tonStep, Machine.resumed, h, hin, hq, hdue]

theorem tonStep_runs (hin : t.inn = true) (hrun : t.run = true) (hq : t.q = false) :
    (tonStep pt tn rn true t).start = t.start ∧ (tonStep pt tn rn true t).q = decide (t.start + pt ≤ rn) := by
  by_cases hdue : t.start + pt ≤ rn <;> simp [tonStep, Machine.resumed, h, hin, hrun, hq, hdue]

omit h in
theorem tofStep_on : (tofStep pt tn rn true t).q = true ∧ (tofStep pt tn rn true t).run = false := by
  simp [tofStep, elapsed]

theorem tofStep_fall (hin : t.inn = true) (hq : t.q = true) :
    (tofStep pt tn rn false t).start = tn ∧ (tofStep pt tn rn false t).q = decide (rn < tn + pt) := by
  rcases Nat.lt_or_ge rn (tn + pt) with hdue | hdue
  · simp [tofStep, elapsed, Machine.resumed, h, hin, hq, hdue, Nat.not_le.mpr hdue]
  · simp [tofStep, elapsed, Machine.resumed, h, hin, hq, hdue, Nat.not_lt.mpr hdue]

theorem tpStep_rise (hin : t.inn = false) (hq : t.q = false) :
    (tpStep pt tn rn true t).start = tn ∧ (tpStep pt tn rn true t).q = decide (rn < tn + pt) := by
  rcases Nat.lt_or_ge rn (tn + pt) with hdue | hdue
  · simp [tpStep, elapsed, Machine.resumed, h, hin, hq, hdue, Nat.not_le.mpr hdue]
  · simp [tpStep, elapsed, Machine.resumed, h, hin, hq, hdue, Nat.not_lt.mpr hdue]

/-- A pulse runs its time whatever its input does. -/
theorem tpStep_runs (hrun : t.run = true) (hq : t.q = true) (i : Bool) : (tpStep pt tn rn i t).q = decide (rn < t.start + pt) := by
  rcases Nat.lt_or_ge rn (t.start + pt) with hdue | hdue
  · simp [tpStep, elapsed, Machine.resumed, h, hrun, hq, hdue, Nat.not_le.mpr hdue]
  · simp [tpStep, elapsed, Machine.resumed, h, hrun, hq, hdue, Nat.not_lt.mpr hdue]

end

/-- Settles O50: each row is its instruction where its operand is accepted, and no step where it is not; the timers by their input. -/
theorem logicInstructions : Obligations.LogicInstructions := by
  unfold Obligations.LogicInstructions
  refine ⟨?_, fun pt tn rn t h => ⟨tonStep_off, tonStep_rise h, tonStep_runs h, tofStep_on, tofStep_fall h, tpStep_rise h, tpStep_runs h⟩⟩
  rintro s bay a _ _ _ _ _ _ rfl rfl rfl rfl rfl rfl
  refine ⟨⟨logicRuns_of_row rfl rfl rfl, logicRuns_of_row rfl rfl rfl, logicRuns_of_row rfl rfl rfl, logicRuns_of_row rfl rfl rfl,
    logicRuns_of_row rfl rfl rfl, fun v r hst => logicRuns_of_row rfl rfl ?_, fun v r hst => logicRuns_of_row rfl rfl ?_,
    fun v t r hst => ⟨logicRuns_of_row rfl rfl ?_, logicRuns_of_row rfl rfl ?_⟩, logicRuns_of_row rfl rfl rfl⟩,
    ?_, ?_, ?_, ?_, ?_, ?_, ?_⟩
  · simp only [lopPop, nextInstr, hst]
  · simp only [lopPop, nextInstr, hst]
  · simp only [lopRds, nextInstr, hst]
    rfl
  · simp only [lopDrop, nextInstr, hst]
  · rintro hok _ rfl
    exact ⟨logicRuns_of_row rfl hok rfl, logicRuns_of_row rfl hok rfl, logicRuns_of_row rfl hok rfl, logicRuns_of_row rfl hok rfl,
      logicRuns_of_row rfl hok rfl, logicRuns_of_row rfl hok rfl, logicRuns_of_row rfl hok rfl⟩
  · intro hbad
    have hbad : operandOk (logicCtx s bay.toNat).img (logicBay s bay.toNat).exec.idx .read a.toNat = false := hbad
    simp only [List.forall_mem_cons, List.not_mem_nil, false_imp_iff, implies_true, and_true]
    exact ⟨row_of_refused rfl hbad, row_of_refused rfl hbad, row_of_refused rfl hbad, row_of_refused rfl hbad, row_of_refused rfl hbad,
      row_of_refused rfl hbad, row_of_refused rfl hbad⟩
  · intro hbad
    have hbad : operandOk (logicCtx s bay.toNat).img (logicBay s bay.toNat).exec.idx .write a.toNat = false := hbad
    simp only [List.forall_mem_cons, List.not_mem_nil, false_imp_iff, implies_true, and_true]
    exact ⟨row_of_refused rfl hbad, row_of_refused rfl hbad, row_of_refused rfl hbad, row_of_refused rfl hbad⟩
  · intro hw
    have hok : operandOk (logicCtx s bay.toNat).img (logicBay s bay.toNat).exec.idx .write a.toNat = true := hw
    refine ⟨fun v hv => ?_, ?_⟩
    · simp only [List.forall_mem_cons, List.not_mem_nil, false_imp_iff, implies_true, and_true]
      exact ⟨logicRuns_of_row rfl hok (write_of_forced hv _), logicRuns_of_row rfl hok (write_of_forced hv _),
        logicRuns_of_row rfl hok (lopSet_of_forced hv), logicRuns_of_row rfl hok (lopRst_of_forced hv)⟩
    · rintro hfree _ rfl _ rfl
      exact ⟨logicRuns_of_row rfl hok (write_of_free hw hfree _), logicRuns_of_row rfl hok (write_of_free hw hfree _),
        logicRuns_of_row rfl hok (lopSet_of_free hw hfree), logicRuns_of_row rfl hok (lopRst_of_free hw hfree)⟩
  · rintro _ rfl
    refine ⟨fun hspace hlt => ?_, fun hbad => ?_, fun hspace hlt => ?_, fun hbad => ?_, fun hspace hlt => ?_, fun hbad => ?_⟩
    · have hok : operandOk (logicCtx s bay.toNat).img (logicBay s bay.toNat).exec.idx .edge a.toNat = true := by simp [operandOk, hspace, hlt]
      exact ⟨logicRuns_of_row rfl hok rfl, logicRuns_of_row rfl hok rfl⟩
    · have hbad : operandOk (logicCtx s bay.toNat).img (logicBay s bay.toNat).exec.idx .edge a.toNat = false := by
        simpa [operandOk, Classical.or_iff_not_imp_left] using hbad
      exact ⟨row_of_refused rfl hbad, row_of_refused rfl hbad⟩
    · have hok : operandOk (logicCtx s bay.toNat).img (logicBay s bay.toNat).exec.idx .timer a.toNat = true := by simp [operandOk, hspace, hlt]
      refine ⟨fun i f hi => ?_, logicRuns_of_row rfl hok lopTrst_eq⟩
      simp only [List.mem_cons, Prod.mk.injEq, List.not_mem_nil, or_false] at hi
      obtain ⟨rfl, rfl⟩ | ⟨rfl, rfl⟩ | ⟨rfl, rfl⟩ := hi
      · exact logicRuns_of_row rfl hok rfl
      · exact logicRuns_of_row rfl hok rfl
      · exact logicRuns_of_row rfl hok rfl
    · have hbad : operandOk (logicCtx s bay.toNat).img (logicBay s bay.toNat).exec.idx .timer a.toNat = false := by
        simpa [operandOk, Classical.or_iff_not_imp_left] using hbad
      simp only [List.forall_mem_cons, List.not_mem_nil, false_imp_iff, implies_true, and_true]
      exact ⟨row_of_refused rfl hbad, row_of_refused rfl hbad, row_of_refused rfl hbad, row_of_refused rfl hbad⟩
    · have hok : operandOk (logicCtx s bay.toNat).img (logicBay s bay.toNat).exec.idx .counter a.toNat = true := by simp [operandOk, hspace, hlt]
      rintro _ rfl
      refine ⟨?_, ?_, logicRuns_of_row rfl hok rfl, logicRuns_of_row rfl hok rfl, logicRuns_of_row rfl hok rfl⟩
      · rintro _ rfl
        exact logicRuns_of_row rfl hok (by rw [lopCtu, counter, ctuStep_eq]; rfl)
      · rintro _ rfl
        exact logicRuns_of_row rfl hok (by rw [lopCtd, counter, ctdStep_eq]; rfl)
    · have hbad : operandOk (logicCtx s bay.toNat).img (logicBay s bay.toNat).exec.idx .counter a.toNat = false := by
        simpa [operandOk, Classical.or_iff_not_imp_left] using hbad
      simp only [List.forall_mem_cons, List.not_mem_nil, false_imp_iff, implies_true, and_true]
      exact ⟨row_of_refused rfl hbad, row_of_refused rfl hbad, row_of_refused rfl hbad, row_of_refused rfl hbad, row_of_refused rfl hbad⟩
  · rintro hpos hlt hend _ rfl
    have hok := operandOk_offset hpos hlt hend
    exact ⟨logicRuns_of_row rfl hok (jump_of_forward rfl hlt), logicRuns_of_row rfl hok (lopJmpc_of_forward rfl hlt),
      logicRuns_of_row rfl hok (lopJmpnc_of_forward rfl hlt)⟩
  · intro h
    have hbad := operandOk_offset_of_refused (img := (logicCtx s bay.toNat).img) (idx := (logicBay s bay.toNat).exec.idx) a.isLt h
    exact ⟨row_of_refused rfl hbad, row_of_refused rfl hbad, row_of_refused rfl hbad⟩

end Sys2Proof.Machine.Laws
end

section
/-! SUPPORT. The trip outputs and the binary inputs: a pin set at a boundary, the ends of its times, its readback and its circuit, and the
debouncing of an input (R378, R379, R381-R383, R385). -/

namespace Sys2Proof.Machine.Laws
open Sys2Proof Sys2Proof.Machine

/-! ### One pin -/

/-- Pin `p` has become `y`, and nothing else of the trip outputs and inputs has changed. -/
def PinBecomes (p : Nat) (y : PinSt) (s t : State) : Prop := t.trip = { s.trip with pins := s.trip.pins.set p y }

section
variable {s t u : State} {p : Nat} {y : PinSt}

theorem pinSt_of_trip (h : t.trip = s.trip) (k : Nat) : pinSt t k = pinSt s k := by rw [pinSt, h, pinSt]

theorem pinLevel_of_trip (h : t.trip = s.trip) (k : Nat) : pinLevel t k = pinLevel s k := by rw [pinLevel, pinSt, h]; rfl

theorem pinSt_setPin_same (f : PinSt → PinSt) (hp : p < s.trip.pins.length) : pinSt (setPin p f s) p = f (pinSt s p) := getD_modAt_same _ _ hp

theorem pinSt_setPin_ne (f : PinSt → PinSt) {k : Nat} (h : k ≠ p) : pinSt (setPin p f s) k = pinSt s k := getD_modAt_ne _ _ _ h

/-- What leaves the level of a pin leaves the level of every pin. -/
theorem pinLevel_setPin {f : PinSt → PinSt} (h : ∀ x, (f x).level = x.level) (k : Nat) : pinLevel (setPin p f s) k = pinLevel s k :=
  congrArg (· || _) (getD_modAt_of_kept _ _ _ PinSt.level h k)

theorem PinBecomes.start (hp : p < s.trip.pins.length) : PinBecomes p (pinSt s p) s s := by
  have hself : s.trip.pins.set p (pinSt s p) = s.trip.pins := by
    rw [pinSt, List.getD_eq_getElem _ _ hp, List.set_getElem_self]
  rw [PinBecomes, hself]

theorem PinBecomes.of_trip (h : PinBecomes p y s t) (hu : u.trip = t.trip) : PinBecomes p y s u := hu.trans h

theorem PinBecomes.setPin (h : PinBecomes p y s t) (f : PinSt → PinSt) : PinBecomes p (f y) s (Machine.setPin p f t) := by
  have hset : modAt (s.trip.pins.set p y) p f = s.trip.pins.set p (f y) := by
    refine List.ext_getElem? fun k => ?_
    rw [modAt, List.getElem?_modify, List.getElem?_set', List.getElem?_set']
    by_cases hk : p = k <;> simp [hk]
  simp only [PinBecomes, Machine.setPin, setTrip_trip, show t.trip = _ from h, hset]

theorem PinBecomes.pin (h : PinBecomes p y s t) (hp : p < s.trip.pins.length) : pinSt t p = y := by
  rw [pinSt, h]
  exact getD_of_getElem? (List.getElem?_set_self hp) _

theorem PinBecomes.others (h : PinBecomes p y s t) {k : Nat} (hk : k ≠ p) : pinSt t k = pinSt s k := by
  rw [pinSt, h, pinSt]
  simp only [List.getD_eq_getElem?_getD, List.getElem?_set_ne hk.symm]

theorem PinBecomes.bi (h : PinBecomes p y s t) : t.trip.bi = s.trip.bi := by rw [h]

/-- Its level is its own, or that of a test pulse (R564). -/
theorem PinBecomes.level_eq (h : PinBecomes p y s t) (hp : p < s.trip.pins.length) (hy : y.level = (pinSt s p).level) : pinLevel t p = pinLevel s p := by
  rw [pinLevel, pinLevel, h.pin hp, hy, h]

end

/-! ### A change of level (R381) -/

section
variable (how : PinRec) (p code : Nat) (data : Bytes) (s : State)

theorem pinRecord_trip : (pinRecord how p code data s).trip = s.trip := by cases how <;> rfl
theorem pinRecord_host : (pinRecord how p code data s).host = s.host := by cases how <;> rfl

end

theorem raiseIrq_trip (k : Nat) (s : State) : (raiseIrq k s).trip = s.trip := (congrArg State.trip (raiseIrq_onlyMessages k s) :)

section
variable {how : PinRec} {p cause a : Nat} {v : Bool} {s t : State} {y : PinSt}

/-- A level that is set is the pin's; where the pin's own level changes it raises IRQ_STAT.TRIP and notes the instant. -/
theorem setLevel_becomes (h : PinBecomes p y s t) :
    ∃ z, PinBecomes p z s (setLevel how p v cause a t) ∧ z.level = v ∧ z.demand = y.demand ∧ z.tOn = y.tOn ∧ z.tOff = y.tOff ∧
      (pinLevel (setLevel how p v cause a t) p ≠ pinLevel t p →
        (setLevel how p v cause a t).host.regs.irqStat.getLsbD Irq.trip = true ∧ z.changedAt = a) := by
  have hset := h.setPin (fun x => { x with level := v })
  unfold setLevel pinChangedBy
  dsimp only
  split
  · next hsame => exact ⟨_, hset, rfl, rfl, rfl, rfl, fun hne => absurd (beq_iff_eq.mp hsame) hne⟩
  · refine ⟨_, (hset.setPin _).of_trip ((pinRecord_trip ..).trans (raiseIrq_trip ..)), rfl, rfl, rfl, rfl, fun _ => ⟨?_, rfl⟩⟩
    rw [pinRecord_host]
    exact raiseIrq_sets_cause _ _ (by decide)

end

/-! ### The boundary (R378) -/

section
variable (how : PinRec) {p b : Nat} {s : State}

/-- A demand asserts the pin, with the instant kept where it was asserted. -/
theorem pinStep_of_demand (hdem : demandOf s p = true) (hp : p < s.trip.pins.length) :
    ∃ t, PinBecomes p { pinSt s p with
        demand := true, fs := false, tOff := none, minp := false, sealed := false
        tOn := if (pinSt s p).level = true then (pinSt s p).tOn else b } s t ∧
      pinStep how p b s = if (pinSt s p).level = true then t else setLevel how p true 1 b t := by
  refine ⟨_, ((PinBecomes.start hp).setPin (fun x => { x with demand := true, fs := false })).setPin
    (fun x => { x with tOff := none, minp := false, sealed := false, tOn := if x.level then x.tOn else b }), ?_⟩
  unfold pinStep
  simp only [hdem, if_true]

theorem pinStep_of_low (hdem : demandOf s p = false) (hlevel : (pinSt s p).level = false) (hp : p < s.trip.pins.length) :
    PinBecomes p { pinSt s p with demand := false, fs := false, minp := false, sealed := false } s (pinStep how p b s) := by
  have heq : pinStep how p b s = setPin p (fun x => { x with minp := false, sealed := false })
      (setPin p (fun x => { x with demand := false, fs := false }) s) := by
    unfold pinStep
    simp only [hdem, hlevel, Bool.false_eq_true, if_false, Bool.not_false, if_true]
  exact heq ▸ ((PinBecomes.start hp).setPin _).setPin _

/-- A pin without a demand is held by its minimum pulse or by its seal-in. -/
def pinHeld (x : PinSt) (b : Nat) : Bool :=
  decide (b < x.tOn + msU (tsMinPulse x.cfg)) || (x.sealCond && decide (b < x.tOff.getD b + msU (tsSealMax x.cfg)))

theorem pinStep_of_held (hdem : demandOf s p = false) (hlevel : (pinSt s p).level = true) (hheld : pinHeld (pinSt s p) b = true)
    (hp : p < s.trip.pins.length) : ∃ m l, PinBecomes p { pinSt s p with
      demand := false, fs := false, tOff := some ((pinSt s p).tOff.getD b), minp := m, sealed := l } s (pinStep how p b s) := by
  unfold pinHeld at hheld
  have heq : ∃ m l, pinStep how p b s = setPin p (fun x => { x with tOff := some ((pinSt s p).tOff.getD b), minp := m, sealed := l })
      (setPin p (fun x => { x with demand := false, fs := false }) s) := by
    unfold pinStep
    simp only [hdem, hlevel, hheld, Bool.false_eq_true, if_false, Bool.not_true, if_true]
    exact ⟨_, _, rfl⟩
  obtain ⟨m, l, heq⟩ := heq
  exact ⟨m, l, heq ▸ ((PinBecomes.start hp).setPin _).setPin _⟩

/-- The cause of a fall: the end of seal-in by its condition or by its time, of the minimum pulse, of the slot, or of the demand (R381). -/
def fallCause (x : PinSt) : Nat :=
  if x.sealCond && tsSeal x.cfg != 0 then 4 else if x.sealed then 3 else if x.minp then 2 else if x.slotGone.isSome then 6 else 1

theorem pinStep_of_falling (hdem : demandOf s p = false) (hlevel : (pinSt s p).level = true) (hheld : pinHeld (pinSt s p) b = false)
    (hp : p < s.trip.pins.length) :
    ∃ t, PinBecomes p { pinSt s p with demand := false, fs := false, tOff := none, minp := false, sealed := false } s t ∧
      (pinStep how p b s).trip = (setLevel how p false (fallCause (pinSt s p)) b t).trip ∧
      (pinStep how p b s).host = (setLevel how p false (fallCause (pinSt s p)) b t).host := by
  refine ⟨_, ((PinBecomes.start hp).setPin (fun x => { x with demand := false, fs := false })).setPin
    (fun x => { x with tOff := none, minp := false, sealed := false }), ?_⟩
  have hfalls : ∀ u v : State, (if fallCause (pinSt s p) == 4 then pinRecord how p 2 (dUnit (pinOwner (pinSt s p))) u else u) = v →
      v.trip = u.trip ∧ v.host = u.host := by
    rintro u _ rfl
    rw [apply_ite State.trip, apply_ite State.host, pinRecord_trip, pinRecord_host, ite_self, ite_self]
    exact ⟨rfl, rfl⟩
  refine hfalls _ _ ?_
  unfold pinHeld at hheld
  unfold pinStep
  simp only [hdem, hlevel, hheld, Bool.false_eq_true, if_false, Bool.not_true]
  rfl

/-- A change of the pin's level in the step that sets it raises IRQ_STAT.TRIP and notes the boundary. -/
def NotesChange (p b : Nat) (s t : State) : Prop :=
  pinLevel t p ≠ pinLevel s p → t.host.regs.irqStat.getLsbD Irq.trip = true ∧ (pinSt t p).changedAt = b

/-- The pin after the step, by its demand, its level and whether it is held. -/
theorem pinStep_becomes (hp : p < s.trip.pins.length) : ∃ y, PinBecomes p y s (pinStep how p b s) ∧ y.demand = demandOf s p ∧
    NotesChange p b s (pinStep how p b s) ∧
    (demandOf s p = true → y.level = true ∧ y.tOff = none ∧ y.tOn = if (pinSt s p).level = true then (pinSt s p).tOn else b) ∧
    (demandOf s p = false → y.level = ((pinSt s p).level && pinHeld (pinSt s p) b)) ∧
    (demandOf s p = false → (pinSt s p).level = true → pinHeld (pinSt s p) b = true →
      y.tOff = some ((pinSt s p).tOff.getD b) ∧ y.tOn = (pinSt s p).tOn) := by
  cases hdem : demandOf s p with
  | true =>
    cases hlevel : (pinSt s p).level with
    | true =>
      obtain ⟨t, ht, heq⟩ := pinStep_of_demand how (b := b) hdem hp
      rw [if_pos hlevel] at heq
      rw [heq]
      exact ⟨_, ht, rfl, fun hne => absurd (ht.level_eq hp rfl) hne, fun _ => ⟨hlevel, rfl, by rw [hlevel]⟩, nofun, nofun⟩
    | false =>
      obtain ⟨t, ht, heq⟩ := pinStep_of_demand how (b := b) hdem hp
      rw [if_neg (by simp [hlevel])] at heq
      obtain ⟨z, hz, hzlevel, hzdem, hzon, hzoff, hchange⟩ := setLevel_becomes (how := how) (v := true) (cause := 1) (a := b) ht
      rw [heq]
      refine ⟨z, hz, hzdem, fun hne => ?_, fun _ => ⟨hzlevel, hzoff, by rw [hzon, hlevel]⟩, nofun, nofun⟩
      rw [hz.pin hp]
      exact hchange (by rwa [ht.level_eq hp rfl])
  | false =>
    cases hlevel : (pinSt s p).level with
    | false =>
      have hb := pinStep_of_low how (b := b) hdem hlevel hp
      exact ⟨_, hb, rfl, fun hne => absurd (hb.level_eq hp rfl) hne, nofun, fun _ => hlevel, nofun⟩
    | true =>
      cases hheld : pinHeld (pinSt s p) b with
      | true =>
        obtain ⟨m, l, hb⟩ := pinStep_of_held how hdem hlevel hheld hp
        exact ⟨_, hb, rfl, fun hne => absurd (hb.level_eq hp rfl) hne, nofun, fun _ => hlevel, fun _ _ _ => ⟨rfl, rfl⟩⟩
      | false =>
        obtain ⟨t, ht, htrip, hhost⟩ := pinStep_of_falling how hdem hlevel hheld hp
        obtain ⟨z, hz, hzlevel, hzdem, -, -, hchange⟩ := setLevel_becomes (how := how) (v := false) (cause := fallCause (pinSt s p)) (a := b) ht
        have hb := hz.of_trip htrip
        refine ⟨z, hb, hzdem, fun hne => ?_, nofun, fun _ => hzlevel, nofun⟩
        rw [hb.pin hp, hhost]
        rw [pinLevel_of_trip htrip] at hne
        exact hchange (by rwa [ht.level_eq hp rfl])

end

/-! ### The ends of a pin's times (R378, R379) -/

section
variable {s : State} {p : Nat}

theorem pinEnds_of_free {bay : Nat} (hbay : sealBay (pinSt s p) = some bay) (hruns : s.mode.mode.runs = true)
    (hfs : s.mode.fsActive.getD bay false = false) (htko : s.mode.tko.getD (clusterOf bay) .none = .none) (hdem : (pinSt s p).demand = false)
    (hnext : demandNext s p = false) {b : State}
    (hb : b = setPin p (fun y => { y with sealCond := sealCondOf s p }) { s with clk := s.clk.advance (endOfMs s) }) :
    pinEnds p s = adoptSlot p (pinStep (recordOf b p) p (endOfMs s) b) := by
  have hclk : setClk (·.advance (endOfMs s)) s = { s with clk := s.clk.advance (endOfMs s) } := rfl
  unfold pinEnds
  simp only [hbay, hruns, hfs, htko, hdem, hnext, hclk, hb, bne_self_eq_false, Bool.not_true, Bool.or_self, Bool.false_eq_true, if_false]

theorem pinEnds_of_barred (h : (pinSt s p).demand = true ∨ demandNext s p = true ∨ s.mode.mode.runs = false ∨ sealBay (pinSt s p) = none) :
    pinEnds p s = s := by
  unfold pinEnds
  cases hbay : sealBay (pinSt s p) with
  | none => simp only [hbay]
  | some bay =>
    simp only [hbay]
    rcases h with h | h | h | h
    · simp [h]
    · simp [h]
    · simp [h]
    · exact absurd (h.symm.trans hbay) nofun

variable {p : BitVec 5}

theorem exec_minPulseEnd : exec (.minPulseEnd p) s = .next
    (if (pinSt s p.toNat).level = true ∧ (pinSt s p.toNat).minp = true ∧
        (pinSt s p.toNat).tOn + msU (tsMinPulse (pinSt s p.toNat).cfg) ≤ endOfMs s then pinEnds p.toNat s else s) := by
  have hrow : exec (.minPulseEnd p) s = execMinPulseEnd p s := rfl
  simp only [hrow, execMinPulseEnd, Bool.and_eq_true, decide_eq_true_eq, and_assoc]

theorem exec_sealMaxEnd {o : Nat} (ho : (pinSt s p.toNat).tOff = some o) : exec (.sealMaxEnd p) s = .next
    (if (pinSt s p.toNat).level = true ∧ (pinSt s p.toNat).sealed = true ∧
        o + msU (tsSealMax (pinSt s p.toNat).cfg) ≤ endOfMs s then pinEnds p.toNat s else s) := by
  have hrow : exec (.sealMaxEnd p) s = execSealMaxEnd p s := rfl
  simp only [hrow, execSealMaxEnd, ho, Bool.and_eq_true, decide_eq_true_eq, and_assoc]

theorem exec_sealMaxEnd_of_none (ho : (pinSt s p.toNat).tOff = none) : exec (.sealMaxEnd p) s = .next s := by
  have hrow : exec (.sealMaxEnd p) s = execSealMaxEnd p s := rfl
  simp only [hrow, execSealMaxEnd, ho]

theorem exec_pinEnds_of_barred
    (h : (pinSt s p.toNat).demand = true ∨ demandNext s p.toNat = true ∨ s.mode.mode.runs = false ∨ sealBay (pinSt s p.toNat) = none) :
    exec (.minPulseEnd p) s = .next s ∧ exec (.sealMaxEnd p) s = .next s := by
  constructor
  · rw [exec_minPulseEnd, pinEnds_of_barred h, ite_self]
  · cases ho : (pinSt s p.toNat).tOff with
    | none => exact exec_sealMaxEnd_of_none ho
    | some o => rw [exec_sealMaxEnd ho, pinEnds_of_barred h, ite_self]

end

/-! ### Readback (R382) -/

section
variable {s : State} {p : Nat} {lv : Bool}

/-- TRB of a pin told to read a level. -/
def toldTrb (p : Nat) (lv : Bool) (s : State) : State := setTrip (fun t => { t with trb := modAt t.trb p (fun _ => some lv) }) s

theorem rbDiffers_toldTrb (hp : p < s.trip.trb.length) : rbDiffers (toldTrb p lv s) p = (lv != rbExpected s p) := by
  have htrb : (toldTrb p lv s).trip.trb.getD p none = some lv := getD_modAt_same _ _ hp
  rw [rbDiffers, trbLevel, htrb]
  rfl

/-- An episode starts, or nothing of the pins changes. -/
theorem mismatchEpisode_trip : (mismatchEpisode p s).trip =
    if ((tsRbEn (pinSt s p).cfg && (sealBay (pinSt s p)).isSome) || testedPin s p) && !(pinSt s p).rbFail && rbDiffers s p &&
        decide ((pinSt s p).changedAt + usU 120 < s.clk.mono) then
      (setPin p (fun x => { x with rbFail := true, rbAt := s.clk.mono, rbEpis := satN 16 (x.rbEpis + 1) }) s).trip
    else s.trip := by
  unfold mismatchEpisode
  rw [apply_ite State.trip, trip_of_unsupervised ((unsupervised_settle _).trans (unsupervised_countEvent ..))]
  rfl

theorem mismatchEpisode_levels (k : Nat) : pinLevel (mismatchEpisode p s) k = pinLevel s k := by
  have h := mismatchEpisode_trip (s := s) (p := p)
  split at h
  · rw [pinLevel_of_trip h]
    exact pinLevel_setPin (f := fun x => { x with rbFail := true, rbAt := s.clk.mono, rbEpis := satN 16 (x.rbEpis + 1) }) (fun _ => rfl) k
  · exact pinLevel_of_trip h k

theorem mismatchEpisode_of_differing (hen : tsRbEn (pinSt s p).cfg = true) (hbay : (sealBay (pinSt s p)).isSome = true)
    (hfail : (pinSt s p).rbFail = false) (hdiff : rbDiffers s p = true) (hlate : (pinSt s p).changedAt + usU 120 < s.clk.mono)
    (hp : p < s.trip.pins.length) : pinSt (mismatchEpisode p s) p =
      { pinSt s p with rbFail := true, rbAt := s.clk.mono, rbEpis := satN 16 ((pinSt s p).rbEpis + 1) } := by
  have h := mismatchEpisode_trip (s := s) (p := p)
  rw [if_pos (by simp [hen, hbay, hfail, hdiff, hlate])] at h
  rw [pinSt_of_trip h, pinSt_setPin_same _ hp]

theorem mismatchEpisode_of_none
    (h : (pinSt s p).rbFail = true ∨ rbDiffers s p = false ∨ s.clk.mono ≤ (pinSt s p).changedAt + usU 120) : mismatchEpisode p s = s :=
  if_neg (by rcases h with h | h | h <;> simp [h])

variable {p : BitVec 5}

theorem exec_rbMismatchStart : exec (.rbMismatchStart p lv) s = .next (mismatchEpisode p.toNat (toldTrb p.toNat lv s)) := rfl

/-- TRB that agrees again follows its pin. -/
def trbAgrees (p : Nat) (lv : Bool) (s : State) : State := setTrip (fun t => { t with trb := modAt t.trb p (fun _ => none) }) (toldTrb p lv s)

theorem exec_rbMismatchEnd : exec (.rbMismatchEnd p lv) s = .next (
    if rbDiffers (toldTrb p.toNat lv s) p.toNat = true then toldTrb p.toNat lv s
    else if (pinSt s p.toNat).rbFail = true then rbRecord p.toNat 4 (dDur (s.clk.mono - (pinSt s p.toNat).rbAt))
      (setPin p.toNat (fun x => { x with rbFail := false }) (trbAgrees p.toNat lv s))
    else trbAgrees p.toNat lv s) := rfl

/-- The end of an episode needs the levels to agree, and changes no level. -/
theorem exec_rbMismatchEnd_frame (hp : p.toNat < s.trip.pins.length) (htrb : p.toNat < s.trip.trb.length) :
    ∃ t, exec (.rbMismatchEnd p lv) s = .next t ∧ (∀ k, pinLevel t k = pinLevel s k) ∧
      (lv = rbExpected s p.toNat → pinSt t p.toNat = { pinSt s p.toNat with rbFail := false }) ∧
      (lv ≠ rbExpected s p.toNat → pinSt t p.toNat = pinSt s p.toNat) := by
  refine ⟨_, exec_rbMismatchEnd, ?_⟩
  rw [rbDiffers_toldTrb htrb]
  by_cases hlv : lv = rbExpected s p.toNat
  · rw [if_neg (by simp [hlv])]
    cases hfail : (pinSt s p.toNat).rbFail with
    | true => exact ⟨pinLevel_setPin (f := fun x => { x with rbFail := false }) (s := trbAgrees p.toNat lv s) fun _ => rfl,
        fun _ => pinSt_setPin_same (s := trbAgrees p.toNat lv s) _ hp, fun hne => absurd hlv hne⟩
    | false =>
      rw [if_neg nofun]
      refine ⟨fun _ => rfl, fun _ => ?_, fun _ => rfl⟩
      rw [← hfail]
      rfl
  · rw [if_pos (by simp [hlv])]
    exact ⟨fun _ => rfl, fun heq => absurd heq hlv, fun _ => rfl⟩

end

/-! ### Supervision of the trip circuits (R383) -/

section
variable {s : State} {p : Nat}

/-- The circuit of the pin is supervised, and not suspended. -/
def TcsRuns (s : State) (p : Nat) : Prop :=
  tsTcsEn (pinSt s p).cfg = true ∧ (sealBay (pinSt s p)).isNone = false ∧ tcsSuspended s p = false

theorem tcsStep_of_stale (h : TcsRuns s p) (hmean : tcsMean s p = none) :
    tcsStep p s = setPin p (fun x => { x with tcs := .stale, tcsSince := none }) s := by
  obtain ⟨hen, hbay, hsusp⟩ := h
  simp [tcsStep, hen, hbay, hsusp, hmean]

/-- The circuit noted to be as its result says since `a` (R383). -/
def tcsNoted (p m a : Nat) (ok : Bool) (s : State) : State :=
  setPin p (fun x => { x with tcsCode := m / 16, tcsSince := some (ok, a), tcs := if x.tcsAlarm then .alarm else .healthy }) s

/-- A circuit that has been as its result says since `a` changes its alarm once TCS_T has passed. -/
theorem tcsStep_of_mean (h : TcsRuns s p) {m a : Nat} {ok : Bool} (hmean : tcsMean s p = some m)
    (hok : ok = (decide (tsTcsLo (pinSt s p).cfg * 16 ≤ m) && decide (m ≤ tsTcsHi (pinSt s p).cfg * 16)))
    (hsince : (pinSt s p).tcsSince = some (ok, a)) : tcsStep p s =
      if a + msU (tsTcsT (pinSt s p).cfg) ≤ s.clk.mono ∧ ok = (pinSt s p).tcsAlarm then tcsChange p (!ok) (tcsNoted p m a ok s)
      else tcsNoted p m a ok s := by
  obtain ⟨hen, hbay, hsusp⟩ := h
  have hclk (f : PinSt → PinSt) : (setPin p f s).clk = s.clk := rfl
  unfold tcsStep tcsNoted
  simp only [hen, hbay, hsusp, hmean, ← hok, hsince, hclk, beq_self_eq_true, if_true, Bool.not_true, Bool.or_self, Bool.false_eq_true, if_false,
    Bool.and_eq_true, decide_eq_true_eq, beq_iff_eq]

theorem tcsChange_trip (alarm : Bool) :
    (tcsChange p alarm s).trip = (setPin p (fun x => { x with tcsAlarm := alarm, tcs := if alarm then .alarm else .healthy }) s).trip := by
  unfold tcsChange
  rw [postEvent_trip, raiseIrq_trip]

theorem tcsChange_levels (alarm : Bool) (k : Nat) : pinLevel (tcsChange p alarm s) k = pinLevel s k :=
  (pinLevel_of_trip (tcsChange_trip alarm) k).trans
    (pinLevel_setPin (f := fun x => { x with tcsAlarm := alarm, tcs := if alarm then .alarm else .healthy }) (fun _ => rfl) k)

/-- Supervision of a circuit updates its pin at the level it has, and may then change its alarm. -/
theorem tcsStep_cases : ∃ f : PinSt → PinSt, (∀ x, (f x).level = x.level) ∧
    (tcsStep p s = setPin p f s ∨ ∃ alarm, tcsStep p s = tcsChange p alarm (setPin p f s)) := by
  unfold tcsStep
  dsimp only
  split
  · exact ⟨fun x => { x with tcs := .off, tcsAlarm := false, tcsSince := none }, fun _ => rfl, .inl rfl⟩
  · split
    · exact ⟨fun x => { x with tcs := .off, tcsSince := none }, fun _ => rfl, .inl rfl⟩
    · cases tcsMean s p with
      | none => exact ⟨fun x => { x with tcs := .stale, tcsSince := none }, fun _ => rfl, .inl rfl⟩
      | some m =>
        refine dite _ (fun h => ⟨_, ?_, .inr ⟨_, if_pos h⟩⟩) (fun h => ⟨_, ?_, .inl (if_neg h)⟩)
        · exact fun _ => rfl
        · exact fun _ => rfl

/-- Supervision of a circuit changes no level. -/
theorem tcsStep_levels (k : Nat) : pinLevel (tcsStep p s) k = pinLevel s k := by
  obtain ⟨f, hf, heq | ⟨alarm, heq⟩⟩ := tcsStep_cases (s := s) (p := p)
  · rw [heq, pinLevel_setPin hf]
  · rw [heq, tcsChange_levels, pinLevel_setPin hf]

/-- With a result the alarm is what the circuit has been for TCS_T, and stays before. -/
theorem tcsStep_alarm (h : TcsRuns s p) {m a : Nat} {ok : Bool} (hmean : tcsMean s p = some m)
    (hok : ok = (decide (tsTcsLo (pinSt s p).cfg * 16 ≤ m) && decide (m ≤ tsTcsHi (pinSt s p).cfg * 16)))
    (hsince : (pinSt s p).tcsSince = some (ok, a)) (hp : p < s.trip.pins.length) :
    (a + msU (tsTcsT (pinSt s p).cfg) ≤ s.clk.mono → (pinSt (tcsStep p s) p).tcsAlarm = !ok) ∧
    (s.clk.mono < a + msU (tsTcsT (pinSt s p).cfg) → (pinSt (tcsStep p s) p).tcsAlarm = (pinSt s p).tcsAlarm) := by
  have hnoted := pinSt_setPin_same (s := s) (fun x => { x with
    tcsCode := m / 16, tcsSince := some (ok, a), tcs := if x.tcsAlarm then .alarm else .healthy }) hp
  have hlen : p < (tcsNoted p m a ok s).trip.pins.length := by simpa [tcsNoted, setPin, modAt] using hp
  rw [tcsStep_of_mean h hmean hok hsince]
  refine ⟨fun hdue => ?_, fun hearly => ?_⟩
  · by_cases hold : ok = (pinSt s p).tcsAlarm
    · rw [if_pos ⟨hdue, hold⟩, pinSt_of_trip (tcsChange_trip _), pinSt_setPin_same _ hlen]
    · rw [if_neg fun hx => hold hx.2, tcsNoted, hnoted]
      exact Bool.eq_not.mpr (Ne.symm hold)
  · rw [if_neg fun hx => absurd hx.1 (Nat.not_le.mpr hearly), tcsNoted, hnoted]

/-- A result of 1 s ago is no result. -/
theorem tcsMean_of_late {m a : Nat} (h : s.aux.means.getD (tsTcsIn (pinSt s p).cfg) none = some (m, a)) (hlate : a + secU 1 ≤ s.clk.mono) :
    tcsMean s p = none := by
  unfold tcsMean
  simp only [h]
  exact if_neg (by simp [Nat.not_lt.mpr hlate])

variable {p : BitVec 5}

theorem exec_tcsStale : ∃ k, exec (.tcsStale p) s = .next (tcsStep p.toNat (setClk (·.advance k) s)) ∧
    tcsMean (setClk (·.advance k) s) p.toNat = none := by
  have hrow : exec (.tcsStale p) s = execTcsStale p s := rfl
  rw [hrow, execTcsStale]
  cases h : s.aux.means.getD (tsTcsIn (pinSt s p.toNat).cfg) none with
  | none =>
    refine ⟨s.clk.mono, ?_, ?_⟩
    · have hclk : setClk (·.advance s.clk.mono) s = s := by simp [setClk, Clock.advance]
      rw [hclk]
    · have hm : (setClk (·.advance s.clk.mono) s).aux.means.getD (tsTcsIn (pinSt (setClk (·.advance s.clk.mono) s) p.toNat).cfg) none = none := h
      unfold tcsMean
      simp only [hm]
  | some x => exact ⟨x.2 + secU 1, rfl, tcsMean_of_late (m := x.1) (a := x.2) h (Nat.le_max_right ..)⟩

/-- TCS_STALE leaves the circuit without a result, its alarm as it was. -/
theorem exec_tcsStale_frame (hp : p.toNat < s.trip.pins.length) : ∃ t, exec (.tcsStale p) s = .next t ∧ (∀ k, pinLevel t k = pinLevel s k) ∧
    (TcsRuns s p.toNat → (pinSt t p.toNat).tcs = .stale ∧ (pinSt t p.toNat).tcsAlarm = (pinSt s p.toNat).tcsAlarm ∧
      (pinSt t p.toNat).tcsSince = none) := by
  obtain ⟨k, heq, hmean⟩ := exec_tcsStale (s := s) (p := p)
  refine ⟨_, heq, tcsStep_levels, fun hruns => ?_⟩
  rw [tcsStep_of_stale (s := setClk (·.advance k) s) hruns hmean, pinSt_setPin_same (s := setClk (·.advance k) s) _ hp]
  exact ⟨rfl, rfl, rfl⟩

theorem exec_tcsDelay {i : Instr} {ok : Bool} (hi : (i, ok) ∈ [(Instr.tcsAlarm p, false), (Instr.tcsClear p, true)]) :
    exec i s = .next (tcsDelay p.toNat ok s) := by
  simp only [List.mem_cons, Prod.mk.injEq, List.not_mem_nil, or_false] at hi
  obtain ⟨rfl, rfl⟩ | ⟨rfl, rfl⟩ := hi <;> rfl

theorem tcsDelay_of_since {o ok : Bool} {p a : Nat} (h : (pinSt s p).tcsSince = some (o, a)) : tcsDelay p ok s =
    if o = ok then tcsStep p { s with clk := s.clk.advance (a + msU (tsTcsT (pinSt s p).cfg)) } else s := by
  unfold tcsDelay
  simp only [h, beq_iff_eq]
  rfl

theorem tcsDelay_of_none {ok : Bool} {p : Nat} (h : (pinSt s p).tcsSince = none) : tcsDelay p ok s = tcsStep p s := by
  unfold tcsDelay
  simp only [h]

end

/-! ### Binary inputs (R385) -/

/-- Input `i`. -/
def biSt (s : State) (i : Nat) : BiSt := s.trip.bi.getD i {}

section
variable {s : State} {i : Nat}

theorem biSt_setBi_same (f : BiSt → BiSt) (hi : i < s.trip.bi.length) : biSt (setBi i f s) i = f (biSt s i) := getD_modAt_same _ _ hi

theorem biSt_setBi_ne (f : BiSt → BiSt) {k : Nat} (h : k ≠ i) : biSt (setBi i f s) k = biSt s k := getD_modAt_ne _ _ _ h

theorem noteEdge_frame (up : Bool) : (noteEdge i up s).trip = s.trip ∧ (noteEdge i up s).clk = s.clk := by
  unfold noteEdge
  split
  · split <;> exact ⟨rfl, rfl⟩
  · exact ⟨rfl, rfl⟩

theorem biAccept_eq : biAccept i s = if (biSt s i).raw ≠ (biSt s i).accepted ∧ (biSt s i).rawAt + debounce s i ≤ s.clk.mono then
    setBi i (fun x => { x with accepted := x.raw, edge := x.rawShort }) (noteEdge i (biSt s i).raw s) else s := by
  unfold biAccept biSt
  simp only [Bool.and_eq_true, bne_iff_ne, decide_eq_true_eq]

theorem biAccept_of_held (h : (biSt s i).raw = (biSt s i).accepted ∨ s.clk.mono < (biSt s i).rawAt + debounce s i) : biAccept i s = s :=
  biAccept_eq.trans (if_neg fun hx => h.elim hx.1 (Nat.not_lt.mpr hx.2))

theorem biAccept_of_due (hraw : (biSt s i).raw ≠ (biSt s i).accepted) (hdue : (biSt s i).rawAt + debounce s i ≤ s.clk.mono)
    (hi : i < s.trip.bi.length) : biSt (biAccept i s) i = { biSt s i with accepted := (biSt s i).raw, edge := (biSt s i).rawShort } ∧
      (∀ k, k ≠ i → biSt (biAccept i s) k = biSt s k) ∧ (biAccept i s).clk = s.clk := by
  obtain ⟨htrip, hclk⟩ := noteEdge_frame (s := s) (i := i) (biSt s i).raw
  have hbi (k : Nat) : biSt (noteEdge i (biSt s i).raw s) k = biSt s k := by rw [biSt, htrip, biSt]
  rw [biAccept_eq, if_pos ⟨hraw, hdue⟩, biSt_setBi_same _ (htrip ▸ hi), hbi]
  exact ⟨rfl, fun k hk => (biSt_setBi_ne _ hk).trans (hbi k), hclk⟩

variable {i : BitVec 6} {lv : Bool} {a : Nat}

/-- An input with no level to accept at the edge meets it as it is. -/
theorem exec_biEdge_of_held (h : (biSt s i.toNat).raw = (biSt s i.toNat).accepted ∨
    max s.clk.mono (a * uPerNs) < (biSt s i.toNat).rawAt + debounce s i.toNat) : exec (.biEdge i lv a) s = .next (
    if (biSt s i.toNat).raw = lv then { s with clk := s.clk.advance (a * uPerNs) }
    else biAccept i.toNat (setBi i.toNat (fun x => { x with
      raw := lv, rawAt := (s.clk.advance (a * uPerNs)).mono, rawShort := (s.clk.advance (a * uPerNs)).shortTime })
      { s with clk := s.clk.advance (a * uPerNs) })) := by
  have hrow : exec (.biEdge i lv a) s = execBiEdge i lv a s := rfl
  have hheld : biAccept i.toNat (setClk (·.advance (a * uPerNs)) s) = { s with clk := s.clk.advance (a * uPerNs) } := biAccept_of_held h
  rw [hrow, execBiEdge]
  simp only [hheld, beq_iff_eq]
  rfl

/-- A new level is accepted at once where the debounce time is 0, and not before it has passed where it is not. -/
theorem exec_biEdge_of_new (h : (biSt s i.toNat).raw = (biSt s i.toNat).accepted) (hlv : lv ≠ (biSt s i.toNat).raw)
    (hi : i.toNat < s.trip.bi.length) : ∃ t, exec (.biEdge i lv a) s = .next t ∧ t.clk = s.clk.advance (a * uPerNs) ∧
      (biSt t i.toNat).raw = lv ∧ (biSt t i.toNat).rawAt = (s.clk.advance (a * uPerNs)).mono ∧
      (biSt t i.toNat).accepted = (if debounce s i.toNat = 0 then lv else (biSt s i.toNat).accepted) ∧
      (∀ k, k ≠ i.toNat → biSt t k = biSt s k) := by
  have hset := biSt_setBi_same (s := { s with clk := s.clk.advance (a * uPerNs) }) (i := i.toNat) (fun x => { x with
      raw := lv, rawAt := (s.clk.advance (a * uPerNs)).mono, rawShort := (s.clk.advance (a * uPerNs)).shortTime }) hi
  have hne (k : Nat) (hk : k ≠ i.toNat) := biSt_setBi_ne (s := { s with clk := s.clk.advance (a * uPerNs) }) (fun x => { x with
      raw := lv, rawAt := (s.clk.advance (a * uPerNs)).mono, rawShort := (s.clk.advance (a * uPerNs)).shortTime }) hk
  rw [exec_biEdge_of_held (.inl h), if_neg (Ne.symm hlv)]
  refine ⟨_, rfl, ?_⟩
  generalize hu : setBi i.toNat _ _ = u at hset hne ⊢
  have hclk : u.clk = s.clk.advance (a * uPerNs) := hu ▸ rfl
  have hdeb : debounce u i.toNat = debounce s i.toNat := hu ▸ rfl
  have hlen : i.toNat < u.trip.bi.length := by
    rw [← hu]
    simpa [setBi, modAt] using hi
  by_cases hzero : debounce s i.toNat = 0
  · have hraw : (biSt u i.toNat).raw ≠ (biSt u i.toNat).accepted := by
      rw [hset]
      exact fun he => hlv (he.trans h.symm)
    obtain ⟨hbi, hothers, hclk'⟩ := biAccept_of_due hraw (by rw [hset, hdeb, hzero, hclk]; exact Nat.le_refl _) hlen
    rw [hbi, hset, if_pos hzero]
    exact ⟨hclk'.trans hclk, rfl, rfl, rfl, fun k hk => (hothers k hk).trans (hne k hk)⟩
  · rw [biAccept_of_held (.inr (by rw [hset, hdeb, hclk]; dsimp only; omega)), hset, if_neg hzero]
    exact ⟨hclk, rfl, rfl, rfl, hne⟩

/-- A raw level that goes back before its debounce time is not accepted. -/
theorem exec_biEdge_of_back (h : (biSt s i.toNat).raw ≠ (biSt s i.toNat).accepted) (hlv : lv = (biSt s i.toNat).accepted)
    (hearly : max s.clk.mono (a * uPerNs) < (biSt s i.toNat).rawAt + debounce s i.toNat) (hi : i.toNat < s.trip.bi.length) :
    ∃ t, exec (.biEdge i lv a) s = .next t ∧ (biSt t i.toNat).accepted = (biSt s i.toNat).accepted ∧
      (biSt t i.toNat).raw = (biSt s i.toNat).accepted := by
  have hset := biSt_setBi_same (s := { s with clk := s.clk.advance (a * uPerNs) }) (i := i.toNat) (fun x => { x with
      raw := lv, rawAt := (s.clk.advance (a * uPerNs)).mono, rawShort := (s.clk.advance (a * uPerNs)).shortTime }) hi
  refine ⟨_, exec_biEdge_of_held (.inr hearly), ?_⟩
  rw [if_neg fun he => h (he.trans hlv), biAccept_of_held (.inl (by rw [hset]; exact hlv)), hset]
  exact ⟨rfl, hlv⟩

theorem exec_biDebounceEnd_of_settled (h : (biSt s i.toNat).raw = (biSt s i.toNat).accepted) : exec (.biDebounceEnd i) s = .next s := by
  have hrow : exec (.biDebounceEnd i) s = execBiDebounceEnd i s := rfl
  rw [hrow, execBiDebounceEnd]
  exact congrArg _ (if_pos (beq_iff_eq.mpr h))

/-- At the end of its debounce time the raw level is accepted, with its own instant. -/
theorem exec_biDebounceEnd_of_new (h : (biSt s i.toNat).raw ≠ (biSt s i.toNat).accepted) (hi : i.toNat < s.trip.bi.length) :
    ∃ t, exec (.biDebounceEnd i) s = .next t ∧ (biSt t i.toNat).accepted = (biSt s i.toNat).raw ∧
      (biSt t i.toNat).edge = (biSt s i.toNat).rawShort ∧ t.clk = s.clk.advance ((biSt s i.toNat).rawAt + debounce s i.toNat) := by
  have hrow : exec (.biDebounceEnd i) s = execBiDebounceEnd i s := rfl
  obtain ⟨hbi, -, hclk⟩ := biAccept_of_due (s := setClk (·.advance ((biSt s i.toNat).rawAt + debounce s i.toNat)) s) h (Nat.le_max_right ..) hi
  rw [hrow, execBiDebounceEnd]
  refine ⟨_, congrArg _ (if_neg fun he => h (beq_iff_eq.mp he)), ?_, ?_, hclk⟩
  · exact congrArg BiSt.accepted hbi
  · exact congrArg BiSt.edge hbi

end

/-- Settles O52: a pin by its step, its times by whether they hold it, and readback, circuits and inputs each by its own rule. -/
theorem tripRows : Obligations.TripRows := by
  unfold Obligations.TripRows
  refine ⟨?_, ?_, ?_⟩
  · rintro how p b s _ _ hp rfl rfl
    obtain ⟨y, hy, hdem, hchange, hon, hlevel, hhold⟩ := pinStep_becomes how (b := b) hp
    refine ⟨_, y, rfl, (hy.pin hp).symm, hdem, fun k hk => hy.others hk, hy.bi, hon, fun hd hl => by rw [hlevel hd, hl]; rfl, ?_, fun hne => ?_⟩
    · rintro hd hl _ rfl
      have hheld : y.level = pinHeld (pinSt s p) b := by rw [hlevel hd, hl, Bool.true_and]
      unfold pinHeld at hheld hhold
      refine ⟨fun h => ?_, fun hmin hseal => ?_⟩
      · have hh := (hheld ▸ hhold hd hl : y.level = true → _)
        have hlv : y.level = true := by
          rw [hheld]
          simpa using h
        exact ⟨hlv, hh hlv⟩
      · rw [hheld]
        rcases hseal with hseal | hseal
        · simp [hmin, hseal]
        · simp [hmin, hseal]
    · have hc := hchange hne
      rwa [hy.pin hp] at hc
  · rintro s p _ rfl
    have hp32 : p.toNat < 32 := p.isLt
    refine ⟨fun bay b hbay hruns hfs htko hdem hnext hb => ⟨fun hl hm hdue => ?_, fun o ho hl hs hdue => ?_⟩, exec_pinEnds_of_barred, fun h => ?_,
      fun o ho h => ?_, exec_sealMaxEnd_of_none, fun hpins htrb => ?_⟩
    · rw [exec_minPulseEnd, if_pos ⟨hl, hm, hdue⟩, pinEnds_of_free hbay hruns hfs htko hdem hnext hb]
    · rw [exec_sealMaxEnd ho, if_pos ⟨hl, hs, hdue⟩, pinEnds_of_free hbay hruns hfs htko hdem hnext hb]
    · rw [exec_minPulseEnd, if_neg]
      rintro ⟨hl, hm, hdue⟩
      rcases h with h | h | h
      · simp [hl] at h
      · simp [hm] at h
      · omega
    · rw [exec_sealMaxEnd ho, if_neg]
      rintro ⟨hl, hs, hdue⟩
      rcases h with h | h | h
      · simp [hl] at h
      · simp [hs] at h
      · omega
    · have hp : p.toNat < s.trip.pins.length := hpins ▸ hp32
      have htrb : p.toNat < s.trip.trb.length := htrb ▸ hp32
      have hruns (hen : tsTcsEn (pinSt s p.toNat).cfg = true) (hbay : (sealBay (pinSt s p.toNat)).isSome = true)
          (hsusp : tcsSuspended s p.toNat = false) : TcsRuns s p.toNat := ⟨hen, by simpa using hbay, hsusp⟩
      refine ⟨fun lv => ⟨_, exec_rbMismatchStart, fun k => mismatchEpisode_levels k, fun hen hbay hfail hlv hlate => ?_, fun h => ?_⟩,
        fun lv => exec_rbMismatchEnd_frame hp htrb, fun c ok hi => ?_, ?_, ?_⟩
      · have heq := mismatchEpisode_of_differing (s := toldTrb p.toNat lv s) hen hbay hfail (by rw [rbDiffers_toldTrb htrb]; simpa using hlv) hlate hp
        rw [heq]
        exact ⟨rfl, rfl, rfl⟩
      · rw [mismatchEpisode_of_none (s := toldTrb p.toNat lv s)]
        · rfl
        · exact h.imp id (Or.imp (fun hlv => by rw [rbDiffers_toldTrb htrb]; simpa using hlv) id)
      · rw [exec_tcsDelay hi]
        refine ⟨fun o a ho => ?_, fun hnone => by rw [tcsDelay_of_none hnone]⟩
        rw [tcsDelay_of_since ho]
        exact ⟨fun hne => by rw [if_neg hne], fun heq => by rw [if_pos heq]⟩
      · obtain ⟨t, ht, hlevels, hstale⟩ := exec_tcsStale_frame (s := s) hp
        exact ⟨t, ht, hlevels, fun hen hbay hsusp => hstale (hruns hen hbay hsusp)⟩
      · exact ⟨_, rfl, tcsStep_levels, fun hen hbay hsusp m hmean a ok hok hsince => tcsStep_alarm (hruns hen hbay hsusp) hmean hok hsince hp⟩
  · rintro s i _ hlen rfl
    have hi : i.toNat < s.trip.bi.length := hlen ▸ i.isLt
    refine ⟨?_, fun lv a h hlv => ?_, fun lv a h hlv hearly => exec_biEdge_of_back h hlv hearly hi, exec_biDebounceEnd_of_settled,
      fun h => exec_biDebounceEnd_of_new h hi⟩
    · rintro lv a h hlv _ rfl
      obtain ⟨t, ht, hclk, hraw, hat, hacc, hothers⟩ := exec_biEdge_of_new (a := a) h hlv hi
      exact ⟨t, ht, congrArg Clock.mono hclk, hraw, hat, hacc, hothers⟩
    · exact (exec_biEdge_of_held (.inl h)).trans (congrArg _ (if_pos hlv.symm))

end Sys2Proof.Machine.Laws
end

section
/-! SUPPORT. The loop and trace commands (R410-R412, R416, R419). -/

namespace Sys2Proof.Machine.Laws
open Sys2Proof Sys2Proof.Machine Sys2Proof.Safety

section
variable {c : Cmd} {s : State} {f : InFlight}

theorem absent_of_passes {j : Judge} (hp : Passes j c s f) : j.absent = false := by
  by_contra ha
  exact nomatch (verdict_absent (Bool.not_eq_false _ ▸ ha)).symm.trans hp

variable (h : Starts c s f)
include h

/-- A request to a user loop that runs joins its queue; another loop refuses it (R410-R412). -/
theorem command_loopAct {j : State → Judge} (hp : Passes (j s) c s f) (q : LoopReq) :
    command c j (loopAct c q) s = if isUserLoop c.unit = true ∧ (loopSt (begun c s) c.unit).on = true then
      setLoop c.unit (fun x => { x with req := x.req ++ [(some (refOf c), q)] }) (queuedEntry c (begun c s))
    else answer c (Reply.refuse Rsn.state) (begun c s) := by
  rw [command_cameTo h hp, loopAct, apply_ite (cameTo c)]
  by_cases hrun : isUserLoop c.unit = true ∧ (loopSt (begun c s) c.unit).on = true
  · rw [if_neg (by simp [hrun]), if_pos hrun]
    rfl
  · rw [if_pos (by simpa [Bool.not_eq_true, imp_iff_not_or] using hrun), if_neg hrun]
    rfl

section
variable (hp : Passes (loopJudge c [(0x14, 0, 1)] [] s) c s f)
include hp

theorem exec_loopInjectStop (hstop : c.at_ 0x14 0 1 = 1) : exec (.loopInjectStop c) s = .next (answer c {}
    { begun c s with loops := { (begun c s).loops with inj := (begun c s).loops.inj.map (fun x => { x with stop := true }) } }) :=
  congrArg Host.Outcome.next (command_answers h hp (by rw [injectAct, hstop]; rfl))

/-- LOOP.INJECT of a good block begins where none runs and the loop is a user loop that runs, in automatic for an injection into
the setpoint. -/
theorem exec_loopInject (hstart : c.at_ 0x14 0 1 = 0) {blk : Bytes} (hblk : readBlock c 64 (begun c s) = .ok blk)
    (hgood : injBad (begun c s) c.unit blk = none) : exec (.loopInject c) s = .next (
      if (begun c s).loops.inj = none ∧ isUserLoop c.unit = true ∧ (loopSt (begun c s) c.unit).on = true ∧
        (bitAt blk 0 0 = true ∨ (loopSt (begun c s) c.unit).auto = true)
      then setLoops (fun l => { l with inj := some { loop := c.unit, cmd := refOf c, block := blk, reg := List.replicate (prbsTaps blk).1 true } })
        (queuedEntry c (begun c s))
      else answer c (Reply.refuse Rsn.state) (begun c s)) := by
  have hrow : exec (.loopInject c) s = .next (injectRun c s) := rfl
  have hact : injectAct c (begun c s) = if ((begun c s).loops.inj.isSome || !isUserLoop c.unit || !(loopSt (begun c s) c.unit).on ||
        (!bitAt blk 0 0 && !(loopSt (begun c s) c.unit).auto)) = true then .done (Reply.refuse Rsn.state) (begun c s)
      else .goesOn (setLoops (fun l =>
        { l with inj := some { loop := c.unit, cmd := refOf c, block := blk, reg := List.replicate (prbsTaps blk).1 true } })
          (queuedEntry c (begun c s))) := by
    simp only [injectAct, hstart, hblk, hgood]
    rfl
  rw [hrow, injectRun, command_cameTo h hp, hact, apply_ite (cameTo c)]
  refine congrArg Host.Outcome.next ?_
  by_cases hok : (begun c s).loops.inj = none ∧ isUserLoop c.unit = true ∧ (loopSt (begun c s) c.unit).on = true ∧
    (bitAt blk 0 0 = true ∨ (loopSt (begun c s) c.unit).auto = true)
  · rw [if_pos hok, if_neg]
    · rfl
    · obtain ⟨hnone, huser, hon, hauto⟩ := hok
      simpa [hnone, huser, hon, Bool.not_eq_true, imp_iff_not_or] using hauto
  · rw [if_neg hok, if_pos]
    · rfl
    · by_contra hno
      simp only [Bool.or_eq_true, Bool.and_eq_true, Bool.not_eq_true', not_or, not_and, Bool.not_eq_false, Bool.not_eq_true,
        Option.isSome_eq_false_iff, Option.isNone_iff_eq_none] at hno
      obtain ⟨⟨⟨hnone, huser⟩, hon⟩, hauto⟩ := hno
      refine hok ⟨hnone, huser, hon, ?_⟩
      cases hb : bitAt blk 0 0 with
      | true => exact .inl rfl
      | false => exact .inr (hauto hb)

end

section
variable (hp : Passes (traceJudge c s) c s f)
include hp

omit h in
theorem k64_of_passes_trace : s.variant = .k64 := by simpa [traceJudge] using absent_of_passes hp

theorem exec_loopTraceStop (hstop : c.at_ 0x14 0 1 = 1) : exec (.loopTraceStop c) s = .next (answer c {} (endTrace 1 (begun c s))) :=
  congrArg Host.Outcome.next (command_answers h hp (by rw [traceAct, hstop]; rfl))

theorem exec_loopTrace (hstart : c.at_ 0x14 0 1 = 0) {blk : Bytes} (hblk : readBlock c 192 (begun c s) = .ok blk)
    (hgood : traceBad blk = none) (hreach : reachable (begun c s) .ddr (u64At blk 0) 0x400100 = true) :
    exec (.loopTrace c) s = .next (if (begun c s).loops.trace = none then
        setLoops (fun l => { l with trace := some { cmd := refOf c, block := blk } }) (queuedEntry c (begun c s))
      else answer c (Reply.refuse Rsn.state) (begun c s)) := by
  have hrow : exec (.loopTrace c) s = .next (traceRun c s) := rfl
  have hact : traceAct c (begun c s) = if (begun c s).loops.trace.isSome = true then .done (Reply.refuse Rsn.state) (begun c s)
      else .goesOn (setLoops (fun l => { l with trace := some { cmd := refOf c, block := blk } }) (queuedEntry c (begun c s))) := by
    simp only [traceAct, hstart, hblk, hgood, hreach]
    rfl
  rw [hrow, traceRun, command_cameTo h hp, hact]
  cases (begun c s).loops.trace <;> rfl

end

end

/-- Settles O23: the requests by whether their loop runs, the injection and the trace by whether one is there. -/
theorem loopCommands : Obligations.LoopCommands := by
  unfold Obligations.LoopCommands
  rintro c s _ f h rfl
  refine ⟨fun q => ⟨?_, ?_, ?_⟩, fun hp => ⟨exec_loopInjectStop h hp, fun hstart _ => exec_loopInject h hp hstart⟩,
    fun hp => ⟨k64_of_passes_trace hp, exec_loopTraceStop h hp, fun hstart _ => exec_loopTrace h hp hstart⟩⟩
  · rintro rfl hp
    exact congrArg Host.Outcome.next (command_loopAct h hp _)
  · rintro rfl hp
    exact congrArg Host.Outcome.next (command_loopAct h hp _)
  · rintro rfl hp
    exact congrArg Host.Outcome.next (command_loopAct h hp _)

end Sys2Proof.Machine.Laws
end

section
/-! SUPPORT. The updates of the loops, the end of an injection's capture and the trace (R396, R404, R416-R421). -/

namespace Sys2Proof.Machine.Laws
open Sys2Proof Sys2Proof.Machine Sys2Proof.Safety

section
variable {s : State}

theorem loops_of_unanswered {s t : State} (h : unanswered t = unanswered s) : t.loops = s.loops := (congrArg State.loops h :)

theorem finishOpen_loops (x : CmdRef) (r : Reply) (s : State) : (finishOpen x r s).loops = s.loops :=
  loops_of_unanswered (unanswered_finishOpen s x r)

/-! ### The loops (R396, R404) -/

theorem loopSt_setLoop_ne {i k : Nat} (h : k ≠ i) (f : LoopSt → LoopSt) (s : State) : loopSt (setLoop i f s) k = loopSt s k :=
  getD_modAt_ne _ _ _ h

theorem loopDue_iff {i : Nat} : loopDue s i = true ↔ isUserLoop i = true ∧ (loopSt s i).on = true ∧
    s.clk.ms % 2 ^ rateDiv (loopBytes s i) = 0 ∧ (loopSt s i).servedMs ≠ some s.clk.ms := by
  simp [loopDue, and_assoc]

theorem exec_userLoopUpdate (i : BitVec 5) :
    exec (.userLoopUpdate i) s = .next (if loopDue s i.toNat then loopUpdate i.toNat s else s) := rfl

theorem exec_userLoopUpdate_of_not_due {i : BitVec 5} (h : ¬ loopDue s i.toNat = true) : exec (.userLoopUpdate i) s = .next s := by
  rw [exec_userLoopUpdate, if_neg h]

/-- A device loop as it shows feedback y and output u. -/
def loopShown (u y : Int) (s : State) (x : LoopSt) : LoopSt :=
  { x with on := true, auto := true, y := lim32 y, u := lim32 u, lastMs := s.clk.ms, lastAt := s.clk.mono }

/-- The free value loop i gives out (log entry 4). -/
def deviceOutput (i : Nat) (y : Int) (s : State) : Int := satZ 32 (Config.freeInt 54 [i, s.loops.device.getD i 0, y])

/-- The variant has no such device loop, or the device is in BACKUP. -/
def DeviceLoopAbsent (i : Nat) (s : State) : Prop := 7 < i ∨ (i = 1 ∧ s.variant ≠ .k64) ∨ s.mode.mode = .backup

theorem servoAddend_bounds (a x : Int) : -3435973 ≤ servoAddend a x ∧ servoAddend a x ≤ 3435973 := by
  unfold servoAddend
  omega

theorem exec_timeLoop (y : Int) : exec (.deviceLoopUpdate 9 y) s = .next (if steers s.time = true then
    setLoop 9 (loopShown (servoAddend s.clk.addend y) y s) (setClk (fun c => { c with addend := servoAddend s.clk.addend y }) s) else s) := rfl

theorem exec_deviceLoopUpdate_of_absent {i : BitVec 5} (hi : i ≠ 9) (y : Int) (h : DeviceLoopAbsent i.toNat s) :
    exec (.deviceLoopUpdate i y) s = .next s := by
  have hne : i.toNat ≠ 9 := fun h9 => hi (BitVec.eq_of_toNat_eq h9)
  refine congrArg Host.Outcome.next ((if_neg (by simpa using hne)).trans (if_pos ?_))
  simpa [DeviceLoopAbsent, or_assoc] using h

theorem exec_deviceLoopUpdate_of_present {i : BitVec 5} (hi : i ≠ 9) (y : Int) (h : ¬ DeviceLoopAbsent i.toNat s) :
    exec (.deviceLoopUpdate i y) s = .next (setLoop i.toNat (loopShown (deviceOutput i.toNat y s) y s)
      (setLoops (fun l => { l with device := modAt l.device i.toNat (fun _ => deviceOutput i.toNat y s) }) s)) := by
  have hne : i.toNat ≠ 9 := fun h9 => hi (BitVec.eq_of_toNat_eq h9)
  refine congrArg Host.Outcome.next ((if_neg (by simpa using hne)).trans (if_neg ?_))
  simpa [DeviceLoopAbsent, or_assoc] using h

/-! ### The capture of an injection (R418) -/

theorem exec_injectionCaptureDone_of_none (h : s.loops.inj = none) : exec .injectionCaptureDone s = .next s := by
  have hrow : exec .injectionCaptureDone s = execInjectionCaptureDone s := rfl
  rw [hrow, execInjectionCaptureDone, h]

section
variable {x : InjSt} (hx : s.loops.inj = some x)
include hx

theorem exec_injectionCaptureDone_of_waiting (h : x.capDone = false ∨ x.written = true) : exec .injectionCaptureDone s = .next s := by
  have hrow : exec .injectionCaptureDone s = execInjectionCaptureDone s := rfl
  rw [hrow, execInjectionCaptureDone, hx]
  exact congrArg Host.Outcome.next (if_pos (by simpa using h))

theorem exec_injectionCaptureDone (hdone : x.capDone = true) (hnew : x.written = false) {a : Nat} (ha : a = u64At x.block 0x20)
    {sp : Space} (hsp : sp = if a % 2 = 1 then Space.mbx else Space.host) {t : State}
    (ht : t = { s with loops := { s.loops with
      inj := if x.stop = true ∨ injPre x.block + injDur x.block ≤ x.k then none else some { x with written := true } } }) :
    exec .injectionCaptureDone s = .next (if reachable s sp (a / 64 * 64) (captureBytes x).length = true then
      finishOpen x.cmd { result := x.pts.length + place (flag x.early) 16 1 } (memWrite sp (a / 64 * 64) (captureBytes x) t)
    else finishOpen x.cmd (Reply.fail St.fault 3) t) := by
  have hrow : exec .injectionCaptureDone s = execInjectionCaptureDone s := rfl
  subst ha hsp ht
  rw [hrow, execInjectionCaptureDone, hx]
  simp only [hdone, hnew, Bool.not_true, Bool.or_self, Bool.false_eq_true, if_false, Bool.or_eq_true, decide_eq_true_eq, beq_iff_eq]
  rfl

end

/-! ### The trace (R420, R421) -/

theorem exec_traceTrigger_of_none (h : s.loops.trace = none) : exec .traceTrigger s = .next s := by
  have hrow : exec .traceTrigger s = execTraceTrigger s := rfl
  rw [hrow, execTraceTrigger, h]

theorem exec_traceDone_of_none (h : s.loops.trace = none) (o : Bool) : exec (.traceDone o) s = .next s := by
  have hrow : exec (.traceDone o) s = execTraceDone o s := rfl
  rw [hrow, execTraceDone]
  simp only [h, Bool.and_false, Bool.false_eq_true, if_false]

section
variable {x : TraceSt} (hx : s.loops.trace = some x)
include hx

theorem exec_traceTrigger : exec .traceTrigger s = .next (if (x.ended || x.trig.isSome || !trigComes s x) = true then s
    else { s with loops := { s.loops with trace := some { x with trig := some (x.count, s.clk.ms) } } }) := by
  have hrow : exec .traceTrigger s = execTraceTrigger s := rfl
  rw [hrow, execTraceTrigger, hx]
  simp only [setTrace, setLoops, hx, Option.map_some]

/-- The header of an ended trace written, and its command answered. -/
def traceWritten (x : TraceSt) (s : State) : State :=
  finishOpen x.cmd { result := (traceHead x).1 + place (traceHead x).2 32 32 }
    (memWrite .ddr (u64At x.block 0) (leBytes 8 (match x.trig with | some (_, m) => m | none => 0) ++ leBytes 4 (traceHead x).1 ++ leBytes 4 (traceHead x).2)
      { s with loops := { s.loops with trace := none } })

theorem exec_traceDone_of_running (h : x.ended = false) : exec (.traceDone false) s = .next s := by
  have hrow : exec (.traceDone false) s = execTraceDone false s := rfl
  rw [hrow, execTraceDone]
  simp only [hx, h, Bool.false_and, Bool.not_false, Bool.false_eq_true, if_false, if_true]

theorem exec_traceDone_of_ended (h : x.ended = true) (o : Bool) : exec (.traceDone o) s = .next (traceWritten x s) := by
  have hrow : exec (.traceDone o) s = execTraceDone o s := rfl
  rw [hrow, execTraceDone]
  simp only [hx, h, Bool.not_true, Bool.and_false, Bool.false_eq_true, if_false]
  rfl

/-- An overrun ends the trace with cause 2 before its header is written. -/
theorem exec_traceDone_of_overrun (h : x.ended = false) : exec (.traceDone true) s =
    .next (traceWritten { x with ended := true, cause := 2 } (bumpClass 6 ClassCount.drop (endTrace 2 s))) := by
  have hended : (bumpClass 6 ClassCount.drop (endTrace 2 s)).loops.trace = some { x with ended := true, cause := 2 } := by
    simp only [bumpClass, endTrace, setTrace, setLoops, hx, Option.map_some, h, Bool.false_eq_true, if_false]
  rw [← exec_traceDone_of_ended hended rfl false]
  have hrow (o : Bool) (u : State) : exec (.traceDone o) u = execTraceDone o u := rfl
  rw [hrow, hrow, execTraceDone, execTraceDone]
  simp only [hx, h, Bool.not_false, Bool.and_self, Bool.false_and, Bool.false_eq_true, if_false, if_true]

end

theorem traceWritten_trace (x : TraceSt) (s : State) : (traceWritten x s).loops.trace = none :=
  congrArg LoopsSt.trace (finishOpen_loops ..)

theorem traceHead_trunc (x : TraceSt) : (traceHead { x with ended := true, cause := 2 }).2 / 2 ^ 17 % 2 = 1 := by
  have htrunc : place (flag true) 17 1 = 2 ^ 17 := rfl
  have hcause : place 2 18 2 = 2 ^ 19 := rfl
  simp only [traceHead, beq_self_eq_true, Bool.true_or, htrunc, hcause]
  omega

end

/-- Settles O55: each row by whether its loop is due or there, its capture complete, its trace ended. -/
theorem loopAndTraceRows : Obligations.LoopAndTraceRows := by
  unfold Obligations.LoopAndTraceRows
  intro s
  refine ⟨fun i => ⟨fun h => exec_userLoopUpdate_of_not_due ?_, fun huser hon hms hnew => ?_⟩, fun i y => ⟨?_, ?_, fun hi => ?_⟩,
    exec_injectionCaptureDone_of_none, fun x hx => ⟨exec_injectionCaptureDone_of_waiting hx, fun hdone hnew a sp t ha hsp ht => ?_⟩,
    fun hnone => ⟨exec_traceTrigger_of_none hnone, exec_traceDone_of_none hnone⟩, fun x hx => ⟨?_, ?_, exec_traceDone_of_running hx,
      exec_traceDone_of_ended hx, fun hrun => ⟨_, exec_traceDone_of_overrun hx hrun, traceWritten_trace .., traceHead_trunc x⟩⟩⟩
  · rw [loopDue_iff]
    rintro ⟨huser, hon, hms, hnew⟩
    rcases h with h | h | h | h
    · exact Bool.false_ne_true (h.symm.trans huser)
    · exact Bool.false_ne_true (h.symm.trans hon)
    · exact h hms
    · exact hnew h
  · rw [exec_userLoopUpdate, if_pos (loopDue_iff.mpr ⟨huser, hon, hms, hnew⟩)]
  · rintro rfl hsteers
    rw [exec_timeLoop, if_pos hsteers]
    have hbounds := servoAddend_bounds s.clk.addend y
    exact ⟨_, rfl, rfl, hbounds.1, hbounds.2, rfl, rfl, fun k hk => loopSt_setLoop_ne hk ..⟩
  · rintro rfl hsteers
    rw [exec_timeLoop, if_neg (by simp [hsteers])]
  · by_cases habsent : DeviceLoopAbsent i.toNat s
    · exact ⟨s, exec_deviceLoopUpdate_of_absent hi y habsent, rfl, rfl, fun _ _ => ⟨rfl, rfl⟩, fun _ => rfl⟩
    · refine ⟨_, exec_deviceLoopUpdate_of_present hi y habsent, rfl, rfl, fun k hk => ⟨loopSt_setLoop_ne hk .., getD_modAt_ne _ _ _ hk⟩, fun h => ?_⟩
      exact absurd (h.imp_right (.imp_left (.imp_left fun h1 => congrArg BitVec.toNat h1))) habsent
  · rw [exec_injectionCaptureDone hx hdone hnew ha hsp ht]
    exact ⟨fun hreach => by rw [if_pos hreach], fun hreach => by rw [if_neg (by simp [hreach])]⟩
  · intro h
    rw [exec_traceTrigger hx, if_pos]
    simpa [Option.isSome_iff_ne_none, or_assoc] using h
  · intro hrun hnone hcomes
    rw [exec_traceTrigger hx, if_neg (by simp [hrun, hnone, hcomes])]

end Sys2Proof.Machine.Laws
end

section
/-! SUPPORT. The channels of the DMA engine, and its commands (R477, R478, R490). -/

namespace Sys2Proof.Machine.Laws
open Sys2Proof Sys2Proof.Machine Sys2Proof.Safety

/-! ### One channel -/

section
variable {s : State} {k : Nat}

theorem dmaCh_setCh_same (f : DmaCh → DmaCh) (h : k < s.dma.ch.length) : dmaCh (setCh k f s) k = f (dmaCh s k) := getD_modAt_same f _ h

theorem dmaCh_setCh_ne {j : Nat} (h : j ≠ k) (f : DmaCh → DmaCh) : dmaCh (setCh k f s) j = dmaCh s j := getD_modAt_ne _ _ _ h

theorem setCh_ch_length (f : DmaCh → DmaCh) : (setCh k f s).dma.ch.length = s.dma.ch.length := List.length_modify ..

/-- One update of each channel of a list. -/
def setChs (l : List Nat) (f : DmaCh → DmaCh) (s : State) : State := l.foldl (fun s k => setCh k f s) s

theorem setChs_eq (l : List Nat) (f : DmaCh → DmaCh) (s : State) :
    setChs l f s = { s with dma := { s.dma with ch := l.foldl (fun c k => modAt c k f) s.dma.ch } } := by
  induction l generalizing s with
  | nil => rfl
  | cons k l ih => exact ih (setCh k f s)

theorem dmaCh_setChs {f : DmaCh → DmaCh} (hf : ∀ c, f (f c) = f c) (l : List Nat) (h : k < s.dma.ch.length) :
    dmaCh (setChs l f s) k = if k ∈ l then f (dmaCh s k) else dmaCh s k := by
  rw [setChs_eq, dmaCh, List.getD_eq_getElem?_getD, getElem?_foldl_modAt hf, dmaCh, List.getD_eq_getElem?_getD]
  split <;> simp [h]

theorem queuedEntry_dma (c : Cmd) (s : State) : (queuedEntry c s).dma = s.dma := by
  rw [queuedEntry]
  split
  · exact (congrArg State.dma (unanswered_complete s _) :)
  · rfl

end

/-! ### The commands -/

/-- A channel that DMA.HALT stops: what it has issued completes, and no more is issued (R478). -/
def haltBegins (c : DmaCh) : DmaCh :=
  { c with halting := some (c.halting.getD 2), ops := c.ops.filter (fun o => match o.a with | .read _ => true | .write _ => true | _ => false) }

theorem dmaStop_of_halt (k : Nat) (s : State) : dmaStop k 2 none s = setCh k haltBegins s := rfl

theorem haltBegins_again (c : DmaCh) : haltBegins (haltBegins c) = haltBegins c := by
  simp [haltBegins, List.filter_filter]

/-- A channel whose interrupts DMA.STAT has taken. -/
def pendTaken (c : DmaCh) : DmaCh := { c with pend := 0, pendOvf := false }

section
variable {c : Cmd} {s : State} {f : InFlight} (h : Starts c s f)
include h

section
variable (hp : Passes (dmaStartJudge c s) c s f)
include hp

theorem exec_dmaStart_of_active (hactive : dmaActive (begun c s) c.unit = true) :
    exec (.dmaStart c) s = .next (answer c (Reply.refuse Rsn.state) (begun c s)) :=
  congrArg Host.Outcome.next (command_answers h hp (if_pos hactive))

/-- A channel as DMA.START leaves it (R477). -/
def startedCh (c : Cmd) (now : Nat) : DmaCh :=
  { st := .running, prio := c.at_ 0x1C 0 2, retry := c.at_ 0x1C 2 3, pace := c.at_ 0x1C 5 2, paceSp := c.at_ 0x20 0 2
    paceAddr := c.at_ 0x20 2 46 * 4, hi := c.at_ 0x28 0 32, lo := c.at_ 0x2C 0 32
    chainMax := if c.at_ 0x1C 16 16 == 0 then 4096 else c.at_ 0x1C 16 16, descSp := c.at_ 0x14 0 2, desc := c.at_ 0x14 5 43 * 32
    sinceCount := if c.at_ 0x1C 5 2 == 0 then 0 else 512, ops := [{ a := .fetch, at_ := now }] }

theorem exec_dmaStart_of_idle (hactive : dmaActive (begun c s) c.unit = false) (hunit : c.unit < (begun c s).dma.ch.length) :
    ∃ t, exec (.dmaStart c) s = .next (answer c {} t) ∧ t = { begun c s with dma := { (begun c s).dma with ch := t.dma.ch } } ∧
      (∀ k, k ≠ c.unit → dmaCh t k = dmaCh (begun c s) k) ∧ dmaCh t c.unit = startedCh c (begun c s).clk.mono := by
  refine ⟨_, congrArg Host.Outcome.next (command_answers h hp (if_neg (by simp [hactive]))), rfl, fun k hk => ?_, ?_⟩
  · rw [startFetch, dmaCh_setCh_ne hk, dmaCh_setCh_ne hk]
  · rw [startFetch, dmaCh_setCh_same _ ((setCh_ch_length _).symm ▸ hunit), dmaCh_setCh_same _ hunit]
    rfl

end

variable (hp : Passes { range := [(c.unit != 0x00FF && decide (31 < c.unit), 0x04)] } c s f) {l : List Nat}
  (hl : l = if c.unit = 0x00FF then List.range 32 else [c.unit])
include hp hl

theorem exec_dmaStat_of_short (hroom : c.room < 32 * l.length) :
    exec (.dmaStat c) s = .next (answer c (Reply.refuse Rsn.buffer) (begun c s)) := by
  refine congrArg Host.Outcome.next (command_answers h hp ?_)
  simp only [beq_iff_eq, ← hl, hroom, if_true]

theorem exec_dmaStat (hroom : 32 * l.length ≤ c.room) : exec (.dmaStat c) s = .next (answer c
    { out := some (l.flatMap (fun k => dmaStatus (dmaCh (begun c s) k))) }
    (if returns c (32 * l.length) (begun c s) = false then begun c s else setChs l pendTaken (begun c s))) := by
  refine congrArg Host.Outcome.next (command_answers h hp ?_)
  simp only [beq_iff_eq, ← hl, Nat.not_lt.mpr hroom, if_false, Bool.not_eq_true']
  rfl

theorem exec_dmaHalt : exec (.dmaHalt c) s = .next (dmaRun (
    if l.filter (dmaActive (begun c s)) = [] then answer c {} (begun c s)
    else setDma (fun d => { d with halts := d.halts ++ [(refOf c, l.filter (dmaActive (begun c s)))] })
      (setChs (l.filter (dmaActive (begun c s))) haltBegins (queuedEntry c (begun c s))))) := by
  have hrow : exec (.dmaHalt c) s = execDmaHalt c s := rfl
  rw [hrow, execDmaHalt, command_cameTo h hp]
  simp only [beq_iff_eq, ← hl, List.isEmpty_iff, apply_ite (cameTo c)]
  rfl

end

/-- Settles O21: each command by whether its channels are active. -/
theorem dmaCommands : Obligations.DmaCommands := by
  unfold Obligations.DmaCommands
  rintro c s _ f h rfl
  refine ⟨fun hp => ⟨exec_dmaStart_of_active h hp, fun hidle hunit => ?_⟩,
    fun hp l hl => ⟨exec_dmaStat_of_short h hp hl, fun hroom => ?_, fun hnone => ?_, fun hsome => ?_⟩⟩
  · obtain ⟨t, ht, hframe, hother, hch⟩ := exec_dmaStart_of_idle h hp hidle hunit
    refine ⟨t, ht, hframe, hother, ?_⟩
    rw [hch]
    exact ⟨rfl, rfl, rfl, rfl, rfl, rfl, rfl, rfl, rfl, by simp only [startedCh, beq_iff_eq], rfl⟩
  · refine ⟨_, exec_dmaStat h hp hl hroom, ?_, fun hret => if_pos hret, fun hret k hk => ?_⟩
    · split
      · rfl
      · rw [setChs_eq]
    · rw [if_neg (by simp [hret])]
      exact dmaCh_setChs (f := pendTaken) (fun _ => rfl) l hk
  · rw [exec_dmaHalt h hp hl, if_pos hnone]
  · rw [exec_dmaHalt h hp hl, if_neg hsome]
    refine ⟨_, rfl, ?_, ?_, fun k hk hlen => ?_⟩
    · rw [setChs_eq, setDma_dma, queuedEntry_dma]
    · rw [setChs_eq]
      rfl
    · have hch := dmaCh_setChs (s := queuedEntry c (begun c s)) haltBegins_again (l.filter (dmaActive (begun c s))) ((queuedEntry_dma ..).symm ▸ hlen)
      exact (congrArg (fun x => x.halting.isSome) (hch.trans (if_pos hk)) :)

end Sys2Proof.Machine.Laws
end

section
/-! SUPPORT. The accesses of the DMA engine: their answers, timeouts, retries and the halt of a channel (R475-R480, R485-R488). -/

namespace Sys2Proof.Machine.Laws
open Sys2Proof Sys2Proof.Machine Sys2Proof.Safety

section
variable {s : State} {k : Nat} {a : DmaAccess}

theorem dmaCh_of_dma {s t : State} (h : t.dma = s.dma) (k : Nat) : dmaCh t k = dmaCh s k := by
  rw [dmaCh, h]
  rfl

theorem dmaCh_dropOp (h : k < s.dma.ch.length) (a : DmaAccess) :
    dmaCh (dropOp k a s) k = { dmaCh s k with ops := (dmaCh s k).ops.filter (fun o => o.a != a) } := dmaCh_setCh_same _ h

theorem setCh_congr {f g : DmaCh → DmaCh} (h : f (dmaCh s k) = g (dmaCh s k)) : setCh k f s = setCh k g s := by
  have hch : modAt s.dma.ch k f = modAt s.dma.ch k g := by
    by_cases hk : k < s.dma.ch.length
    · rw [modAt_eq_set {} hk, modAt_eq_set {} hk]
      exact congrArg _ h
    · rw [modAt, modAt, List.modify_eq_self (Nat.not_lt.mp hk), List.modify_eq_self (Nat.not_lt.mp hk)]
  simp only [setCh, setDma, hch]

/-- A channel that is not there is idle. -/
theorem dmaCh_of_length_le (h : s.dma.ch.length ≤ k) : dmaCh s k = {} := by
  rw [dmaCh, List.getD_eq_getElem?_getD, List.getElem?_eq_none h]
  rfl

theorem lt_length_of_waiting (h : waiting (dmaCh s k) a ≠ none) : k < s.dma.ch.length := by
  by_contra hge
  exact h (by rw [dmaCh_of_length_le (Nat.not_lt.mp hge)]; rfl)

/-! ### The answer to an access -/

theorem dmaAnswer_of_none (h : waiting (dmaCh s k) a = none) (err : Bool) (f : State → State) : dmaAnswer k a err f s = s := by
  simp only [dmaAnswer, h]

section
variable (h : waiting (dmaCh s k) a ≠ none) {sp ad n : Nat} (hat : (sp, ad, n) = accessAt (dmaCh s k) a)
include h hat

theorem dmaAnswer_of_failed {err : Bool} (hbad : err = true ∨ dmaReach s sp ad n = false) (f : State → State) :
    dmaAnswer k a err f s = accessFail k a true s := by
  obtain ⟨o, ho⟩ := Option.ne_none_iff_exists'.mp h
  simp only [dmaAnswer, ho, ← hat]
  exact if_pos (by simpa using hbad)

theorem dmaAnswer_of_reached {err : Bool} (herr : err = false) (hreach : dmaReach s sp ad n = true) (f : State → State) :
    dmaAnswer k a err f s = dmaRun (f (dropOp k a s)) := by
  obtain ⟨o, ho⟩ := Option.ne_none_iff_exists'.mp h
  simp only [dmaAnswer, ho, ← hat]
  exact if_neg (by simp [herr, hreach])

end

/-! ### The rows -/

/-- The descriptor fetched acts: R476 refuses it, or it is the channel's. -/
def fetched (k : Nat) (s : State) : State :=
  let d := memRead s (dmaSpace (dmaCh s k).descSp) (dmaCh s k).desc 32
  if descBad d then dmaHalted k 6 s else setCh k (fun c => { c with d := some d, down := dOverlap d && decide (dSrc d < dDst d) }) s

/-- The write-back acts: word 0x10 with DONE, STAMP after it, and the next descriptor (R475, R479). -/
def writtenBack (k : Nat) (s : State) : State :=
  let d := (dmaCh s k).d.getD []
  let t := memWrite (dmaSpace (dmaCh s k).descSp) ((dmaCh s k).desc + 0x10) (leBytes 4 (u32At d 0x10 ||| 2 ^ 31) ++ leBytes 4 (dmaCh s k).stamp) s
  nextDesc k (if dIrqFull d then dmaPend k 1 t else t)

theorem fetched_dropOp (h : k < s.dma.ch.length) (a : DmaAccess) {d : Bytes}
    (hd : d = memRead s (dmaSpace (dmaCh s k).descSp) (dmaCh s k).desc 32) : fetched k (dropOp k a s) =
    if descBad d = true then dmaHalted k 6 (dropOp k a s)
    else setCh k (fun c => { c with d := some d, down := dOverlap d && decide (dSrc d < dDst d) }) (dropOp k a s) := by
  subst hd
  rw [fetched, dmaCh_dropOp h]
  rfl

theorem writtenBack_dropOp (h : k < s.dma.ch.length) (a : DmaAccess) {d : Bytes} (hd : d = (dmaCh s k).d.getD []) {t : State}
    (ht : t = memWrite (dmaSpace (dmaCh s k).descSp) ((dmaCh s k).desc + 0x10)
      (leBytes 4 (u32At d 0x10 ||| 2 ^ 31) ++ leBytes 4 (dmaCh s k).stamp) (dropOp k a s)) :
    writtenBack k (dropOp k a s) = nextDesc k (if dIrqFull d = true then dmaPend k 1 t else t) := by
  subst hd ht
  rw [writtenBack, dmaCh_dropOp h]

/-- The count word is kept, and its next poll set (R485). -/
def counted (k : Nat) (s : State) : State :=
  let x := leAt (memRead s (dmaSpace (dmaCh s k).paceSp) (dmaCh s k).paceAddr 4) 0 4
  setCh k (fun c => { c with lastCount := x, sinceCount := 0, pollAt := s.clk.mono + usU 1 }) s

/-- A paced channel that reads no count word and does not halt: its poll issues the read (R485). -/
def pollIssues (c : DmaCh) : Bool := c.st == .paced && c.halting.isNone && !c.ops.any (·.a == .count)

/-- The read of the count word issued. -/
def pollIssued (k : Nat) (s : State) : State :=
  setCh k (fun c => { c with ops := c.ops ++ [{ a := .count, at_ := max s.clk.mono (dmaCh s k).pollAt }] })
    { s with clk := s.clk.advance (dmaCh s k).pollAt }

theorem exec_dmaDescriptorFetched (ch : BitVec 5) (err : Bool) :
    exec (.dmaDescriptorFetched ch err) s = .next (dmaAnswer ch.toNat .fetch err (fetched ch.toNat) s) := rfl

theorem exec_dmaWriteback (ch : BitVec 5) (err : Bool) :
    exec (.dmaWriteback ch err) s = .next (dmaAnswer ch.toNat .back err (writtenBack ch.toNat) s) := rfl

theorem exec_dmaBeatDone_read (ch : BitVec 5) (pos : Nat) (err : Bool) :
    exec (.dmaBeatDone ch false pos err) s = .next (dmaAnswer ch.toNat (.read pos) err (readDone ch.toNat pos) s) := rfl

theorem exec_dmaBeatDone_write (ch : BitVec 5) (pos : Nat) (err : Bool) :
    exec (.dmaBeatDone ch true pos err) s = .next (dmaAnswer ch.toNat (.write pos) err (writeDone ch.toNat pos) s) := rfl

theorem exec_dmaPacePoll (ch : BitVec 5) (err : Bool) : exec (.dmaPacePoll ch err) s =
    .next (dmaAnswer ch.toNat .count err (counted ch.toNat) (if pollIssues (dmaCh s ch.toNat) then pollIssued ch.toNat s else s)) := rfl

theorem pollIssues_iff {c : DmaCh} : pollIssues c = true ↔ c.st = .paced ∧ c.halting = none ∧ ∀ o ∈ c.ops, o.a ≠ .count := by
  simp [pollIssues, and_assoc]

theorem pollIssues_of_not {c : DmaCh} (h : c.st ≠ .paced ∨ c.halting ≠ none ∨ ∃ o ∈ c.ops, o.a = .count) : ¬ pollIssues c = true := by
  rw [pollIssues_iff]
  rintro ⟨hst, hhalt, hops⟩
  rcases h with h | h | ⟨o, ho, h⟩
  · exact h hst
  · exact h hhalt
  · exact hops o ho h

/-- Once the read is issued the poll issues no other. -/
theorem pollIssues_pollIssued (h : k < s.dma.ch.length) : ¬ pollIssues (dmaCh (pollIssued k s) k) = true := by
  rw [pollIssued, dmaCh_setCh_same _ (by exact h)]
  exact pollIssues_of_not (.inr (.inr ⟨_, List.mem_append_right _ (List.mem_singleton_self _), rfl⟩))

theorem exec_dmaPacePoll_of_issues {ch : BitVec 5} (h : pollIssues (dmaCh s ch.toNat) = true) (err : Bool) :
    exec (.dmaPacePoll ch err) s = exec (.dmaPacePoll ch err) (pollIssued ch.toNat s) := by
  have hlen : ch.toNat < s.dma.ch.length := by
    by_contra hge
    rw [dmaCh_of_length_le (Nat.not_lt.mp hge)] at h
    exact absurd h (by decide)
  rw [exec_dmaPacePoll, exec_dmaPacePoll, if_pos h, if_neg (pollIssues_pollIssued hlen)]

theorem dmaCh_counted (h : k < s.dma.ch.length) : dmaCh (counted k s) k = { dmaCh s k with
    lastCount := leAt (memRead s (dmaSpace (dmaCh s k).paceSp) (dmaCh s k).paceAddr 4) 0 4, sinceCount := 0, pollAt := s.clk.mono + usU 1 } :=
  dmaCh_setCh_same _ h

theorem exec_dmaAccessTimeout_of_none {ch : BitVec 5} (h : waiting (dmaCh s ch.toNat) a = none) : exec (.dmaAccessTimeout ch a) s = .next s := by
  have hrow : exec (.dmaAccessTimeout ch a) s = execDmaAccessTimeout ch a s := rfl
  rw [hrow, execDmaAccessTimeout]
  simp only [h]

theorem exec_dmaAccessTimeout_of_some {ch : BitVec 5} {o : DmaOp} (h : waiting (dmaCh s ch.toNat) a = some o) :
    exec (.dmaAccessTimeout ch a) s = .next (accessFail ch.toNat a false
      { s with clk := s.clk.advance (o.at_ + dmaTimeout (accessAt (dmaCh s ch.toNat) a).1) }) := by
  have hrow : exec (.dmaAccessTimeout ch a) s = execDmaAccessTimeout ch a s := rfl
  rw [hrow, execDmaAccessTimeout]
  simp only [h]
  rfl

/-- A retry is due where a failed access waits for its next issue. -/
def retryDue (c : DmaCh) (a : DmaAccess) : Option Nat := (c.ops.find? (fun o => o.a == a)).bind (·.retryAt)

/-- The failed access issued again at an instant. -/
def issuedAgain (a : DmaAccess) (now : Nat) (c : DmaCh) : DmaCh :=
  { c with ops := c.ops.map (fun o => if o.a == a then { o with at_ := now, retryAt := none } else o) }

theorem exec_dmaAccessRetry_of_none {ch : BitVec 5} (h : retryDue (dmaCh s ch.toNat) a = none) : exec (.dmaAccessRetry ch a) s = .next s := by
  have hrow : exec (.dmaAccessRetry ch a) s = execDmaAccessRetry ch a s := rfl
  rw [hrow, execDmaAccessRetry]
  cases hfind : (dmaCh s ch.toNat).ops.find? (fun o => o.a == a) with
  | none => simp only [hfind]
  | some o =>
    have ho : o.retryAt = none := by simpa [retryDue, hfind] using h
    simp only [hfind, ho]

theorem exec_dmaAccessRetry_of_due {ch : BitVec 5} {t : Nat} (h : retryDue (dmaCh s ch.toNat) a = some t) : exec (.dmaAccessRetry ch a) s =
    .next (setCh ch.toNat (issuedAgain a (s.clk.advance t).mono) (setClk (·.advance t) s)) := by
  obtain ⟨o, hfind, ho⟩ := Option.bind_eq_some_iff.mp h
  have hrow : exec (.dmaAccessRetry ch a) s = execDmaAccessRetry ch a s := rfl
  rw [hrow, execDmaAccessRetry]
  simp only [hfind, ho]
  rfl

/-! ### Failure and halt -/

theorem dma_of_unsupervised {s t : State} (h : unsupervised t = unsupervised s) : t.dma = s.dma := (congrArg State.dma h :)

/-- A failure counted, its address kept (R487). -/
def failureNoted (k : Nat) (a : DmaAccess) (s : State) : State :=
  settle (countEvent 16 k (setCh k (fun c =>
    { c with failAddr := (accessAt (dmaCh s k) a).2.1, failSp := (accessAt (dmaCh s k) a).1 }) s))

/-- An access that waits 1 µs for its next issue. -/
def awaitsRetry (a : DmaAccess) (now : Nat) (c : DmaCh) : DmaCh :=
  { c with ops := c.ops.map (fun o => if o.a == a then { o with fails := o.fails + 1, retryAt := some (now + usU 1) } else o) }

theorem unsupervised_failureNoted : unsupervised (failureNoted k a s) = unsupervised (setCh k (fun c =>
    { c with failAddr := (accessAt (dmaCh s k) a).2.1, failSp := (accessAt (dmaCh s k) a).1 }) s) :=
  (unsupervised_settle _).trans (unsupervised_countEvent ..)

/-- A failure by whether the access waits and has retries left (R487). -/
theorem accessFail_eq (bus : Bool) : accessFail k a bus s = (match waiting (dmaCh s k) a with
    | none => failureNoted k a s
    | some o => if (dmaCh s k).retry < o.fails + 1 then
        dmaRun (dmaStop k (if bus then 3 else 4) (some (match a with | .read p => p | .write p => p | _ => (dmaCh s k).issued)) (dropOp k a (failureNoted k a s)))
      else setCh k (awaitsRetry a (failureNoted k a s).clk.mono) (failureNoted k a s)) := by
  unfold accessFail
  rfl

theorem accessFail_of_retry {o : DmaOp} (h : waiting (dmaCh s k) a = some o) (hleft : o.fails + 1 ≤ (dmaCh s k).retry) (bus : Bool) :
    accessFail k a bus s = setCh k (awaitsRetry a s.clk.mono) (failureNoted k a s) := by
  have hclk : (failureNoted k a s).clk = s.clk :=
    (clk_of_unsupervised (unsupervised_failureNoted (s := s) (k := k) (a := a))).trans rfl
  rw [accessFail_eq, h]
  dsimp only
  rw [if_neg (Nat.not_lt.mpr hleft), hclk]

/-- The channel drained: halted with its cause, no access left (R478, R488). -/
def haltedCh (cause now : Nat) (c : DmaCh) : DmaCh :=
  { c with st := .halted, cause := cause, haltNs := now, halting := none, reads := [], staged := [], writes := [], ops := [] }

/-- PEND bit i set, its overflow noted (R486). -/
def pended (i : Nat) (c : DmaCh) : DmaCh := { c with pend := c.pend ||| 2 ^ i, pendOvf := c.pendOvf || bitsOf c.pend i 1 == 1 }

theorem sendMsix_dma (v : Nat) (s : State) : (sendMsix v s).dma = s.dma := dma_of_unsupervised (unsupervised_sendMsix s v)

theorem raiseIrq_dma (i : Nat) (s : State) : (raiseIrq i s).dma = s.dma := dma_of_unsupervised (unsupervised_raiseIrq s i)

theorem dmaPend_dma (i : Nat) : (dmaPend k i s).dma = (setCh k (pended i) s).dma := by
  unfold dmaPend
  dsimp only
  split
  · rw [sendMsix_dma, raiseIrq_dma]
    rfl
  · rfl

theorem dmaHaltsDone_ch : (dmaHaltsDone s).dma.ch = s.dma.ch := by
  rw [dmaHaltsDone]
  refine List.foldlRecOn (motive := fun t : State => t.dma.ch = s.dma.ch) _ _ rfl fun t ht x _ => ?_
  exact ((congrArg State.dma (unanswered_finishOpen t x.1 {}) :) ▸ ht)

theorem dmaHalted_ch (cause : Nat) :
    (dmaHalted k cause s).dma.ch = (setCh k (pended 2) (setCh k (haltedCh cause s.clk.shortTime) s)).dma.ch := by
  unfold dmaHalted
  dsimp only
  rw [dmaHaltsDone_ch]
  split
  · exact congrArg DmaSt.ch (dmaPend_dma ..)
  · exact congrArg DmaSt.ch (dmaPend_dma ..)

theorem dmaCh_dmaHalted (h : k < s.dma.ch.length) (cause : Nat) :
    dmaCh (dmaHalted k cause s) k = pended 2 (haltedCh cause s.clk.shortTime (dmaCh s k)) := by
  rw [dmaCh, dmaHalted_ch]
  exact (dmaCh_setCh_same _ ((setCh_ch_length _).symm ▸ h)).trans (congrArg _ (dmaCh_setCh_same _ h))

theorem pended_halt (c : DmaCh) : (pended 2 c).pend / 4 % 2 = 1 := by
  have hbit : (c.pend ||| 2 ^ 2).testBit 2 = true := by rw [Nat.testBit_or, Nat.testBit_two_pow_self, Bool.or_true]
  simpa [pended, Nat.testBit_eq_decide_div_mod_eq] using hbit

end

/-- Settles O56: each row by whether its access waits, is answered and reached; then failure, halt and retry. -/
theorem dmaRows : Obligations.DmaRows := by
  unfold Obligations.DmaRows
  refine ⟨?_, ?_, fun k cause s hk => ⟨_, rfl, ?_⟩⟩
  · rintro s ch _ rfl _ rfl
    refine ⟨fun err hw => ?_, fun err pos => ⟨fun hw => ?_, fun hw => ?_⟩, fun err hw => ?_, fun a => exec_dmaAccessTimeout_of_none,
      fun a o => exec_dmaAccessTimeout_of_some, fun a => ⟨fun hfind => ?_, fun o hfind hno => ?_, fun o t hfind ht hlen => ?_⟩,
      fun err hidle hw => ?_, fun err hidle hw sp ad n hat => ⟨fun hbad => ?_, fun herr hreach => ?_⟩,
      fun err b hst hhalt hops hb => ?_, fun a i hmem hw sp ad n err hat hbad => ?_,
      fun pos w a err ha hw sp ad n hat => ⟨fun hbad => ?_, fun herr hreach => ?_⟩, fun hw hreach d hd => ⟨fun hbad => ?_, fun hgood => ?_⟩,
      fun hw hreach d hd u hu => ?_⟩
    · rw [exec_dmaDescriptorFetched, dmaAnswer_of_none hw]
    · rw [exec_dmaBeatDone_read, dmaAnswer_of_none hw]
    · rw [exec_dmaBeatDone_write, dmaAnswer_of_none hw]
    · rw [exec_dmaWriteback, dmaAnswer_of_none hw]
    · exact exec_dmaAccessRetry_of_none (by rw [retryDue, hfind]; rfl)
    · exact exec_dmaAccessRetry_of_none (by rw [retryDue, hfind]; exact hno)
    · exact ⟨_, exec_dmaAccessRetry_of_due (by rw [retryDue, hfind]; exact ht), rfl, dmaCh_setCh_same _ hlen, fun j hj => dmaCh_setCh_ne hj _⟩
    · rw [exec_dmaPacePoll, if_neg (pollIssues_of_not hidle), dmaAnswer_of_none hw]
    · rw [exec_dmaPacePoll, if_neg (pollIssues_of_not hidle), dmaAnswer_of_failed hw hat hbad]
    · rw [exec_dmaPacePoll, if_neg (pollIssues_of_not hidle), dmaAnswer_of_reached hw hat herr hreach]
      refine ⟨_, rfl, fun hlen => ?_⟩
      rw [dmaCh_counted ((setCh_ch_length _).symm ▸ hlen), dmaCh_dropOp hlen]
      exact ⟨rfl, rfl, rfl⟩
    · rw [exec_dmaPacePoll_of_issues (pollIssues_iff.mpr ⟨hst, hhalt, hops⟩), hb]
      exact congrArg (exec (.dmaPacePoll ch err)) (setCh_congr rfl)
    · simp only [List.mem_cons, Prod.mk.injEq, List.not_mem_nil, or_false] at hmem
      obtain ⟨rfl, rfl⟩ | ⟨rfl, rfl⟩ := hmem
      · rw [exec_dmaDescriptorFetched, dmaAnswer_of_failed hw hat hbad]
      · rw [exec_dmaWriteback, dmaAnswer_of_failed hw hat hbad]
    · cases w with
      | true =>
        have ha : a = .write pos := ha
        subst ha
        rw [exec_dmaBeatDone_write, dmaAnswer_of_failed hw hat hbad]
      | false =>
        have ha : a = .read pos := ha
        subst ha
        rw [exec_dmaBeatDone_read, dmaAnswer_of_failed hw hat hbad]
    · cases w with
      | true =>
        have ha : a = .write pos := ha
        subst ha
        exact (exec_dmaBeatDone_write ch pos err).trans (congrArg _ (dmaAnswer_of_reached hw hat herr hreach _))
      | false =>
        have ha : a = .read pos := ha
        subst ha
        exact (exec_dmaBeatDone_read ch pos err).trans (congrArg _ (dmaAnswer_of_reached hw hat herr hreach _))
    · rw [exec_dmaDescriptorFetched, dmaAnswer_of_reached hw rfl rfl hreach, fetched_dropOp (lt_length_of_waiting hw) _ hd, if_pos hbad]
    · rw [exec_dmaDescriptorFetched, dmaAnswer_of_reached hw rfl rfl hreach, fetched_dropOp (lt_length_of_waiting hw) _ hd,
        if_neg (by simp [hgood])]
    · rw [exec_dmaWriteback, dmaAnswer_of_reached hw rfl rfl hreach, writtenBack_dropOp (lt_length_of_waiting hw) _ hd hu]
  · rintro k a bus s _ o rfl hw hk hleft
    refine ⟨_, accessFail_of_retry hw hleft bus, ?_⟩
    have hnoted (j : Nat) := dmaCh_of_dma (dma_of_unsupervised (unsupervised_failureNoted (s := s) (k := k) (a := a))) j
    rw [dmaCh_setCh_same, hnoted, dmaCh_setCh_same _ hk]
    · exact ⟨rfl, rfl, rfl, fun j hj => ((dmaCh_setCh_ne hj _).trans (hnoted j)).trans (dmaCh_setCh_ne hj _), rfl⟩
    · rw [dma_of_unsupervised unsupervised_failureNoted, setCh_ch_length]
      exact hk
  · rw [dmaCh_dmaHalted hk]
    exact ⟨rfl, rfl, rfl, rfl, rfl, pended_halt _⟩

end Sys2Proof.Machine.Laws
end

section
/-! SUPPORT. EVT.READ and EVT.CLEAR (R503-R507). -/

namespace Sys2Proof.Machine.Laws
open Sys2Proof Sys2Proof.Machine Sys2Proof.Safety

section
variable {c : Cmd} {s : State} {f : InFlight}

/-- The log with the watermark an EVT.READ of n bytes leaves (R503). -/
def markedLog (c : Cmd) (s : State) (n : Nat) : State :=
  { s with log := { s.log with wm := if c.at_ 0x20 0 16 = 0 ∨ returns c n s = false then s.log.wm else c.at_ 0x20 0 16 } }

theorem setMark_eq (n : Nat) : setMark c n s = markedLog c s n := by
  by_cases hkeep : c.at_ 0x20 0 16 = 0 ∨ returns c n s = false
  · rw [markedLog, if_pos hkeep]
    exact if_neg (by rcases hkeep with hkeep | hkeep <;> simp [hkeep])
  · rw [markedLog, if_neg hkeep]
    exact if_pos (by simpa using hkeep)

theorem returns_markedLog (n k : Nat) : returns c n (markedLog c s k) = returns c n s := rfl

theorem evtReadAct_of_short (hroom : c.room < 64) : evtReadAct c s = .done (Reply.refuse Rsn.buffer) s := if_pos hroom

theorem evtReadAct_of_status (hroom : 64 ≤ c.room) (hmode : c.at_ 0x1C 0 2 = 1) :
    evtReadAct c s = .done { out := some (logStatus (markedLog c s 64).log) } (markedLog c s 64) := by
  rw [evtReadAct, if_neg (Nat.not_lt.mpr hroom), if_pos (by simp [hmode]), setMark_eq]

/-- The first record EVT.READ answers, and how many (R503). -/
def readFirst (c : Cmd) (s : State) : Nat := max (c.at_ 0x14 0 64) (oldestSeq s.log)

def readCount (c : Cmd) (s : State) : Nat := min (c.room / 64) (s.log.headSeq + 1 - readFirst c s)

/-- Where no record is named the first is the oldest kept. -/
theorem readFirst_eq : (if c.at_ 0x14 0 64 = 0 then oldestSeq s.log else max (c.at_ 0x14 0 64) (oldestSeq s.log)) = readFirst c s := by
  rw [readFirst]
  split
  · next hzero => rw [hzero, Nat.zero_max]
  · rfl

/-- READ_MARK raised where that is asked for and the records are returned (R504). -/
def readMarked (c : Cmd) (s : State) : State :=
  if c.at_ 0x1C 2 1 = 1 ∧ returns c (64 * readCount c s) s = true then raiseMark (readFirst c s + readCount c s) (markedLog c s (64 * readCount c s))
  else markedLog c s (64 * readCount c s)

theorem evtReadAct_of_records (hroom : 64 ≤ c.room) (hmode : c.at_ 0x1C 0 2 = 0) : evtReadAct c s = .done
    { detail := if c.at_ 0x14 0 64 = 0 then 0 else satN 16 (readFirst c s - c.at_ 0x14 0 64), result := readFirst c s + readCount c s
      out := some ((List.range (readCount c s)).flatMap (fun i => recordAt s.log (readFirst c s + i))) } (readMarked c s) := by
  rw [evtReadAct, if_neg (Nat.not_lt.mpr hroom), if_neg (by simp [hmode])]
  dsimp only
  simp only [beq_iff_eq, readFirst_eq, setMark_eq, returns_markedLog, Bool.and_eq_true]
  rfl

theorem readMarked_frame : readMarked c s = { markedLog c s (64 * readCount c s) with
    log := { (markedLog c s (64 * readCount c s)).log with readMark := (readMarked c s).log.readMark } } := by
  rw [readMarked]
  split <;> rfl

theorem readMarked_readMark : (readMarked c s).log.readMark =
    if c.at_ 0x1C 2 1 = 1 ∧ returns c (64 * readCount c s) s = true then max s.log.readMark (readFirst c s + readCount c s) else s.log.readMark := by
  rw [readMarked]
  split <;> rfl

/-- An event with the reserve joins the end of a queue that is not full (R498). -/
theorem enqueue_of_reserve {ms : Nat} {e : Event} {l : LogSt} (hres : hasReserve e.source = true) (hroom : l.queue.length < 1024) :
    (enqueue ms e l).queue = l.queue ++ [e] := by
  rw [enqueue, if_pos hres, if_pos hroom]

variable (h : Starts c s f)
include h

theorem exec_evtClear (hp : Passes { range := [(c.unit != 0, 0x04)] } c s f) {e : Event}
    (he : e = { mkEventAt (begun c s) (begun c s).clk.taiU Src.log 2 0 [] with clear := some (refOf c, c.keySlot) }) :
    exec (.evtClear c) s = .next (
      if (begun c s).log.queue.length < 1024 then
        queuedEntry c { begun c s with log := enqueue (begun c s).clk.ms e (begun c s).log }
      else answer c (Reply.refuse Rsn.state) { begun c s with log := enqueue (begun c s).clk.ms e (begun c s).log }) := by
  have hrow : exec (.evtClear c) s = execEvtClear c s := rfl
  rw [hrow, execEvtClear, command_cameTo h hp]
  dsimp only
  rw [← ite_not]
  simp only [← he, decide_eq_true_eq, Nat.not_le, apply_ite (cameTo c)]
  rfl

end

/-- Settles O22: EVT.READ by its mode and its room, EVT.CLEAR by the room of the queue. -/
theorem eventCommands : Obligations.EventCommands := by
  unfold Obligations.EventCommands
  rintro c s _ f h rfl
  refine ⟨fun hp => ⟨fun hshort => ?_, fun hroom m hm => ?_⟩, fun hp e he => ⟨exec_evtClear h hp he, enqueue_of_reserve ?_⟩⟩
  · exact congrArg Host.Outcome.next (command_answers h hp (evtReadAct_of_short hshort))
  · obtain rfl : m = markedLog c (begun c s) := funext hm
    refine ⟨fun hmode => ?_, fun hmode => ⟨_, _, readMarked c (begun c s), rfl, rfl, ?_, readMarked_frame, readMarked_readMark⟩⟩
    · exact congrArg Host.Outcome.next (command_answers h hp (evtReadAct_of_status hroom hmode))
    · exact congrArg Host.Outcome.next (command_answers h hp (evtReadAct_of_records hroom hmode))
  · rw [he]
    rfl

end Sys2Proof.Machine.Laws
end

section
/-! SUPPORT. The REC commands (R451-R454, R458, R464, R467). -/

namespace Sys2Proof.Machine.Laws
open Sys2Proof Sys2Proof.Machine Sys2Proof.Safety

section
variable {c : Cmd} {s : State} {f : InFlight} (h : Starts c s f)
include h

section
variable (hp : Passes { absent := recAbsent s c.unit } c s f)
include hp

theorem exec_recArm_of_error {r : Reply} (hblk : readBlock c 128 (begun c s) = .error r) : exec (.recArm c) s = .next (answer c r (begun c s)) := by
  refine congrArg Host.Outcome.next (command_answers (j := armJudge c) h hp ?_)
  simp only [hblk]

section
variable {blk : Bytes} (hblk : readBlock c 128 (begun c s) = .ok blk) (hgood : armRange (begun c s) (recUnits (begun c s) c.unit) blk = none)
include hblk hgood

theorem exec_recArm_of_running (hrun : (recUnits (begun c s) c.unit).any (recUnitRuns (begun c s)) = true) :
    exec (.recArm c) s = .next (answer c (Reply.fail St.locked 0) (begun c s)) := by
  refine congrArg Host.Outcome.next (command_answers (j := armJudge c) h hp ?_)
  simp only [hblk, hgood, hrun, if_true]

/-- REC.ARM of regions that do not run, with areas that hold what R452 and R453 need, waits for the boundary. -/
theorem exec_recArm (hidle : (recUnits (begun c s) c.unit).any (recUnitRuns (begun c s)) = false)
    (hhist : ∀ x, x ∈ armsOf (begun c s) (recUnits (begun c s) c.unit) blk → histKibNeed x.2 ≤ x.2.histKib)
    (hrings : ∀ x, x ∈ armsOf (begun c s) (recUnits (begun c s) c.unit) blk → ringsSmall x.2 = false) :
    exec (.recArm c) s = .next (waits c 0 0 (.recArm (armsOf (begun c s) (recUnits (begun c s) c.unit) blk)) (begun c s)) := by
  have hrow : exec (.recArm c) s = execRecArm c s := rfl
  have hfits : (armsOf (begun c s) (recUnits (begun c s) c.unit) blk).find? (fun x => decide (x.2.histKib < histKibNeed x.2)) = none :=
    List.find?_eq_none.mpr fun x hx => by simpa using hhist x hx
  have hlarge : (armsOf (begun c s) (recUnits (begun c s) c.unit) blk).any (fun x => ringsSmall x.2) = false :=
    List.any_eq_false.mpr fun x hx => by simp [hrings x hx]
  rw [hrow, execRecArm, command_cameTo (j := armJudge c) h hp]
  simp only [hblk, hgood, hidle, hfits, hlarge, Bool.false_eq_true, if_false]
  rfl

end

theorem exec_recDisarm : exec (.recDisarm c) s = .next (
    if (recUnits (begun c s) c.unit).filter (recUnitRuns (begun c s)) = [] then answer c {} (begun c s)
    else waits c 0 0 (.recDisarm ((recUnits (begun c s) c.unit).filter (recUnitRuns (begun c s)))) (begun c s)) := by
  have hrow : exec (.recDisarm c) s = execRecDisarm c s := rfl
  rw [hrow, execRecDisarm, command_cameTo h hp]
  simp only [List.isEmpty_iff, apply_ite (cameTo c)]
  rfl

theorem exec_recForce {l : List Nat} (hl : l = (recUnits (begun c s) c.unit).filter (fun r => (region (begun c s) r).armed.isSome)) :
    exec (.recForce c) s = .next (if l = [] then answer c (Reply.refuse Rsn.state) (begun c s)
      else if ∀ r ∈ l, (region (begun c s) r).full = true then answer c (Reply.refuse Rsn.capacity) (begun c s)
      else waits c 0 0 (.recForce l) (begun c s)) := by
  have hrow : exec (.recForce c) s = execRecForce c s := rfl
  rw [hrow, execRecForce, command_cameTo h hp]
  simp only [← hl, List.isEmpty_iff, List.all_eq_true, apply_ite (cameTo c)]
  rfl

end

section
variable (hp : Passes { absent := decide (s.variant.regions ≤ c.unit), used := [(0x14, 0, 32), (0x18, 0, 1)] } c s f)
include hp

theorem exec_recFree_of_none (hfind : findRec (begun c s) c.unit (c.at_ 0x14 0 32) = none) :
    exec (.recFree c) s = .next (answer c (Reply.refuse Rsn.state) (begun c s)) := by
  refine congrArg Host.Outcome.next (command_answers h hp ?_)
  simp only [hfind]

variable {x : Rec} (hfind : findRec (begun c s) c.unit (c.at_ 0x14 0 32) = some x)
include hfind

theorem exec_recFree_of_open (hopen : x.state = .open_) : exec (.recFree c) s = .next (answer c (Reply.refuse Rsn.state) (begun c s)) := by
  refine congrArg Host.Outcome.next (command_answers h hp ?_)
  simp only [hfind, hopen, beq_self_eq_true, if_true]

theorem exec_recFree (hopen : x.state ≠ .open_) {l : List Nat}
    (hl : l = freeable (region (begun c s) c.unit) (c.at_ 0x14 0 32) (c.at_ 0x18 0 1 == 1)) :
    exec (.recFree c) s = .next (answer c { result := l.length } (setRegion c.unit (fun g =>
      { g with freed := true, recs := g.recs.map (fun x => if x.id ∈ l then { x with state := .freed } else x) }) (begun c s))) := by
  refine congrArg Host.Outcome.next (command_answers h hp ?_)
  simp only [hfind, beq_iff_eq, hopen, if_false, ← hl, List.contains_iff_mem]

end

/-- REC.CFG of a closed record: the text of the reduction named, if the record has it (R467). -/
theorem exec_recCfg (hp : Passes { used := [(0x14, 0, 32), (0x18, 0, 3)] } c s f) {x : Rec}
    (hfind : ((recsOf (begun c s) (List.range 4)).map (·.2)).find? (fun x => x.id == c.at_ 0x14 0 32) = some x) (hopen : x.state ≠ .open_) :
    exec (.recCfg c) s = .next (if x.red / 2 ^ c.at_ 0x18 0 2 % 2 = 0 then answer c (Reply.range 0x18) (begun c s)
      else answer c { result := (cfgBytes (cfgLines x (c.at_ 0x18 0 2) (c.at_ 0x18 2 1 == 1))).length
                      out := some (cfgBytes (cfgLines x (c.at_ 0x18 0 2) (c.at_ 0x18 2 1 == 1))) } (begun c s)) := by
  have hrow : exec (.recCfg c) s = execRecCfg c s := rfl
  rw [hrow, execRecCfg, command_cameTo h hp]
  simp only [hfind, beq_iff_eq, hopen, if_false, apply_ite (cameTo c)]
  rfl

end

/-- Settles O20: each command by the regions it addresses and the records it names. -/
theorem recordCommands : Obligations.RecordCommands := by
  unfold Obligations.RecordCommands
  rintro c s _ f h rfl
  exact ⟨fun hp => ⟨fun _ => exec_recArm_of_error h hp,
      fun _ hblk hgood => ⟨exec_recArm_of_running h hp hblk hgood, exec_recArm h hp hblk hgood⟩, exec_recDisarm h hp, fun _ => exec_recForce h hp⟩,
    fun hp => ⟨exec_recFree_of_none h hp, fun _ hfind => ⟨exec_recFree_of_open h hp hfind, fun hopen _ => exec_recFree h hp hfind hopen⟩⟩,
    fun hp _ => exec_recCfg h hp⟩

end Sys2Proof.Machine.Laws
end

section
/-! SUPPORT. FW.LOAD, its verification and FW.ACTIVATE (R519-R521). -/

namespace Sys2Proof.Machine.Laws
open Sys2Proof Sys2Proof.Machine Sys2Proof.Safety

section
variable {c : Cmd} {s : State} {f : InFlight}

/-- A buffer FW.LOAD takes: 4 KiB to 64 KiB in steps of 4 KiB. -/
def PartSized (c : Cmd) : Prop := c.room % 4096 = 0 ∧ 4096 ≤ c.room ∧ c.room ≤ 65536

/-- The part follows the one before, inside the slot, and no verification runs. -/
def PartFollows (c : Cmd) (s : State) : Prop :=
  s.sec.verify = none ∧
    (c.at_ 0x14 0 32 = 0 ∨ (s.sec.fw.getD (1 - s.sec.active) {}).loading = true ∧
      (s.sec.fw.getD (1 - s.sec.active) {}).image.length = c.at_ 0x14 0 32) ∧
    c.at_ 0x14 0 32 + c.room ≤ slotSize

theorem fwLoadAct_of_unsized (h : ¬ PartSized c) : fwLoadAct c s = .done (Reply.refuse Rsn.buffer) s := by
  refine if_pos ?_
  by_contra hno
  simp only [Bool.or_eq_true, bne_iff_ne, decide_eq_true_eq, not_or, not_not, Nat.not_lt] at hno
  exact h (and_assoc.mp hno)

section
variable (hsize : PartSized c)
include hsize

theorem fwLoadAct_of_sized : fwLoadAct c s =
    if ((s.sec.verify.isSome || (c.at_ 0x14 0 32 != 0 && (!(s.sec.fw.getD (inactive s.sec) {}).loading ||
      (s.sec.fw.getD (inactive s.sec) {}).image.length != c.at_ 0x14 0 32)) || decide (slotSize < c.at_ 0x14 0 32 + c.room)) = true) then
      .done (Reply.refuse Rsn.state) s
    else match readBlock c c.room s with
      | .error r => .done r s
      | .ok b =>
        if (c.at_ 0x18 0 1 == 1) = true then
          .goesOn (setSec (fun x => { x with verify := some (refOf c) }) (queuedEntry c (setFw (inactive s.sec) (fun _ =>
            { image := if c.at_ 0x14 0 32 == 0 then b else (s.sec.fw.getD (inactive s.sec) {}).image ++ b, valid := false, loading := true }) s)))
        else .done {} (setFw (inactive s.sec) (fun _ =>
          { image := if c.at_ 0x14 0 32 == 0 then b else (s.sec.fw.getD (inactive s.sec) {}).image ++ b, valid := false, loading := true }) s) := by
  obtain ⟨hstep, hlow, hhigh⟩ := hsize
  rw [fwLoadAct, if_neg (by simp [hstep, hlow, hhigh])] <;> rfl

theorem fwLoadAct_of_astray (h : ¬ PartFollows c s) : fwLoadAct c s = .done (Reply.refuse Rsn.state) s := by
  rw [fwLoadAct_of_sized hsize, if_pos]
  by_contra hno
  simp only [Bool.or_eq_true, Bool.and_eq_true, Bool.not_eq_true', bne_iff_ne, decide_eq_true_eq, not_or, not_and, not_not, Nat.not_lt,
    Bool.not_eq_true, Option.isSome_eq_false_iff, Option.isNone_iff_eq_none, Bool.not_eq_false] at hno
  obtain ⟨⟨hidle, hnext⟩, hfit⟩ := hno
  exact h ⟨hidle, or_iff_not_imp_left.mpr hnext, hfit⟩

theorem fwLoadAct_of_next (h : PartFollows c s) {blk : Bytes} (hblk : readBlock c c.room s = .ok blk) {t : State}
    (ht : t = setFw (1 - s.sec.active) (fun _ =>
      { image := if c.at_ 0x14 0 32 = 0 then blk else (s.sec.fw.getD (1 - s.sec.active) {}).image ++ blk, valid := false, loading := true }) s) :
    fwLoadAct c s = if c.at_ 0x18 0 1 = 1 then .goesOn (setSec (fun x => { x with verify := some (refOf c) }) (queuedEntry c t)) else .done {} t := by
  obtain ⟨hidle, hnext, hfit⟩ := h
  subst ht
  rw [fwLoadAct_of_sized hsize, if_neg]
  · simp only [hblk, beq_iff_eq]
    rfl
  · simp only [inactive, hidle, Option.isSome_none, Bool.false_or, Bool.or_eq_true, Bool.and_eq_true, Bool.not_eq_true', bne_iff_ne,
      decide_eq_true_eq, not_or, not_and, not_not, Nat.not_lt, Bool.not_eq_false]
    exact ⟨or_iff_not_imp_left.mp hnext, hfit⟩

end

variable (h : Starts c s f)
include h

section
variable (hp : Passes (fwLoadJudge c s) c s f)
include hp

theorem exec_fwLoad_cameTo : exec (.fwLoad c) s = .next (cameTo c (fwLoadAct c (begun c s))) := congrArg Host.Outcome.next (command_cameTo h hp)

end

theorem exec_fwActivate (hp : Passes { used := [(0x14, 0, 1)] } c s f) {x : FwSlot}
    (hx : x = (begun c s).sec.fw.getD (1 - (begun c s).sec.active) {}) : exec (.fwActivate c) s = .next (
      if x.valid = false then answer c (Reply.refuse Rsn.state) (begun c s)
      else answer c {} (secRecord 9 0 (leBytes 2 (u16At x.image 8) ++ leBytes 1 (c.at_ 0x14 0 1))
        { begun c s with
          sec := { (begun c s).sec with active := 1 - (begun c s).sec.active, commit := c.at_ 0x14 0 1 == 1 }
          mode := { (begun c s).mode with restart := some { src := 5, cmd := some (refOf c) } } })) := by
  have hrow : exec (.fwActivate c) s = execFwActivate c s := rfl
  subst hx
  rw [hrow, execFwActivate, command_cameTo h hp]
  simp only [apply_ite (cameTo c), Bool.not_eq_true']
  rfl

end

section
variable {s : State}

theorem exec_fwVerifyDone_of_none (h : s.sec.verify = none) : exec .fwVerifyDone s = .next s := by
  have hrow : exec .fwVerifyDone s = execFwVerifyDone s := rfl
  rw [hrow, execFwVerifyDone, h]

/-- The end of a verification: the slot valid, or the number of the rule its image fails (R520). -/
theorem exec_fwVerifyDone {x : CmdRef} (hx : s.sec.verify = some x) {i : Nat} (hi : i = 1 - s.sec.active) {f : FwSlot}
    (hf : f = s.sec.fw.getD i {}) {t : State} (ht : t = { s with sec := { s.sec with verify := none } }) :
    exec .fwVerifyDone s = .next (match imageFault s.variant s.sec.minSvn f.image with
      | none => finishOpen x {}
          (secRecord 8 0 (leBytes 2 (u16At f.image 8) ++ leBytes 1 (imageSvn f)) (setFw i (fun f => { f with valid := true, loading := false }) t))
      | some k => finishOpen x { status := St.refused, detail := Rsn.check, result := k }
          (secRecord 7 0 (dCode k) (setFw i (fun f => { f with loading := false }) t))) := by
  have hrow : exec .fwVerifyDone s = execFwVerifyDone s := rfl
  subst hi hf ht
  rw [hrow, execFwVerifyDone, hx]
  rfl

end

/-- Settles O31: FW.LOAD by its buffer and whether its part follows, the verification by its outcome, FW.ACTIVATE by the slot. -/
theorem firmwareCommands : Obligations.FirmwareCommands := by
  unfold Obligations.FirmwareCommands
  refine ⟨?_, fun s => ⟨exec_fwVerifyDone_of_none, fun x hx i f t hi hf ht => ?_⟩⟩
  · rintro c s _ f h rfl
    refine ⟨?_, fun hp x hx => ⟨fun hvalid => by rw [exec_fwActivate h hp hx, if_pos hvalid],
      fun hvalid => by rw [exec_fwActivate h hp hx, if_neg (by simp [hvalid])]⟩⟩
    rintro hp _ _ _ rfl rfl rfl
    refine ⟨fun hbad => ?_, fun hstep hlow hhigh => ⟨fun hastray => ?_, fun hidle hnext hfit blk hblk t ht => ?_⟩⟩
    · rw [exec_fwLoad_cameTo h hp, fwLoadAct_of_unsized]
      · rfl
      · rintro ⟨hstep, hlow, hhigh⟩
        omega
    · rw [exec_fwLoad_cameTo h hp, fwLoadAct_of_astray ⟨hstep, hlow, hhigh⟩]
      · rfl
      · rintro ⟨hidle, hnext, hfit⟩
        rcases hastray with hrun | ⟨ho, hbad⟩ | hlong
        · exact hrun hidle
        · obtain ⟨hload, hlen⟩ := hnext.resolve_left ho
          exact hbad.elim (fun hno => Bool.false_ne_true (hno.symm.trans hload)) fun hne => hne hlen
        · exact absurd hfit (Nat.not_le.mpr hlong)
    · rw [exec_fwLoad_cameTo h hp, fwLoadAct_of_next ⟨hstep, hlow, hhigh⟩ ⟨hidle, hnext, hfit⟩ hblk ht, apply_ite (cameTo c)]
      rfl
  · rw [exec_fwVerifyDone hx hi hf ht]
    exact ⟨fun hgood => by rw [hgood], fun k hbad => by rw [hbad]⟩

end Sys2Proof.Machine.Laws
end

section
/-! SUPPORT. KEY.LOAD, the tamper policy, KEY.ERASE and the tamper latch (R515, R517, R523, R526). -/

namespace Sys2Proof.Machine.Laws
open Sys2Proof Sys2Proof.Machine Sys2Proof.Safety

section
variable {s : State}

/-! ### Key slots -/

/-- A slot erased by a condition on its place, or as it was. -/
theorem getD_mapIdx_erase (p : Nat → KeySlot → Bool) (l : List KeySlot) (i : Nat) :
    (l.mapIdx (fun i k => if p i k then eraseSlot k else k)).getD i {} = if p i (l.getD i {}) = true then eraseSlot (l.getD i {}) else l.getD i {} := by
  rw [List.getD_eq_getElem?_getD, List.getElem?_mapIdx, List.getD_eq_getElem?_getD]
  cases l[i]? with
  | none => exact (ite_self _).symm
  | some k => rfl

theorem secRecord_sec (code unit : Nat) (data : Bytes) (s : State) : (secRecord code unit data s).sec = s.sec := rfl

theorem foldl_secRecord_sec (code : Nat) (l : List Nat) (s : State) : (l.foldl (fun s i => secRecord code i [] s) s).sec = s.sec := by
  exact List.foldlRecOn (motive := fun t : State => t.sec = s.sec) _ _ rfl fun _ ht _ _ => ht

theorem eraseKeys_slots (p : Nat → Bool) (i : Nat) : (eraseKeys p s).sec.slots.getD i {} =
    if p i = true then eraseSlot (s.sec.slots.getD i {}) else s.sec.slots.getD i {} := by
  rw [eraseKeys]
  dsimp only
  rw [foldl_secRecord_sec]
  exact getD_mapIdx_erase (fun i _ => p i) s.sec.slots i

/-! ### SAFE causes -/

theorem clearLatch_safe_tamper : (clearLatch s).mode.safe.getLsbD 2 = false := by
  have hsafe : (clearLatch s).mode.safe = s.mode.safe &&& ~~~(BitVec.ofNat 5 4) := rfl
  rw [hsafe, BitVec.getLsbD_and]
  exact (congrArg _ (by decide)).trans (Bool.and_false _)

theorem clearLatch_safe_other {k : Nat} (hk : k < 5) (hne : k ≠ 2) : (clearLatch s).mode.safe.getLsbD k = s.mode.safe.getLsbD k := by
  have hsafe : (clearLatch s).mode.safe = s.mode.safe &&& ~~~(BitVec.ofNat 5 4) := rfl
  have hmask : (~~~(BitVec.ofNat 5 4)).getLsbD k = true := by
    rw [BitVec.getLsbD_not, BitVec.getLsbD_ofNat, Nat.testBit_two_pow (n := 2)]
    simp [hk, hne.symm]
  rw [hsafe, BitVec.getLsbD_and, hmask, Bool.and_true]

end

/-! ### Blocks in range -/

theorem blockRange_ne_none {l : List (Bool × Nat)} {x : Bool × Nat} (hx : x ∈ l) (hbad : x.1 = true) : blockRange l ≠ none := by
  cases hfil : l.filter (·.1) with
  | nil => exact absurd (List.mem_filter.mpr ⟨hx, hbad⟩) (hfil ▸ List.not_mem_nil)
  | cons y ys =>
    rw [blockRange, hfil, List.foldl_cons]
    refine List.foldlRecOn (motive := fun m : Option Nat => m ≠ none) _ _ (Option.some_ne_none _) fun m hm z _ => ?_
    cases m with
    | none => exact absurd rfl hm
    | some m => exact Option.some_ne_none _

/-- Outside provisioning a block in range carries no clear key (R516). -/
theorem wrapped_of_inRange {blk : Bytes} (h : blockRange (keyBlockRange false blk) = none) : bitAt blk 0 5 = false := by
  by_contra hclear
  exact blockRange_ne_none (List.mem_append_left _ (List.mem_append_left _ (List.mem_cons_self ..))) (by simp [hclear]) h

/-! ### The commands -/

section
variable {c : Cmd} {s : State} {f : InFlight} (h : Starts c s f)
include h

theorem runCommand_cameTo {j : State → Judge} {act : State → TokenVerdict → Action} (hp : Passes (j s) c s f) :
    runCommand c j act s = cameTo c (act (begun c s) f.token) := by
  rw [runCommand_runs h hp]
  cases act (begun c s) f.token <;> rfl

theorem runCommand_answers {j : State → Judge} {act : State → TokenVerdict → Action} (hp : Passes (j s) c s f) {r : Reply} {t : State}
    (hact : act (begun c s) f.token = .done r t) : runCommand c j act s = answer c r t := by
  rw [runCommand_cameTo h hp, hact]
  rfl

section
variable (hp : Passes (keyLoadJudge c s) c s f) (htok : f.token ≠ .provisioning)
include hp htok

theorem exec_keyLoadTamperPolicy (hunit : c.unit = 0x0100) {blk : Bytes} (hblk : readBlock c 16 (begun c s) = .ok blk)
    (hgood : blockRange (policyRange blk) = none) : exec (.keyLoadTamperPolicy c) s = .next (answer c {}
      (secRecord 6 0 (blk.take 4) { begun c s with sec := { (begun c s).sec with policy := policyOf blk } })) := by
  refine congrArg Host.Outcome.next (runCommand_answers h hp ?_)
  simp only [keyLoadAct, hunit, beq_iff_eq, hblk, hgood, Bool.false_and, beq_eq_false_iff_ne.mpr htok, Bool.false_eq_true,
    if_false, if_true]
  rfl

section
variable (hunit : c.unit ≠ 0x0100) {blk : Bytes} (hblk : readBlock c 64 (begun c s) = .ok blk)
include hunit hblk

omit h hp in
theorem keyLoadAct_eq_slot : keyLoadAct c (begun c s) f.token = keyLoadSlot c false blk (begun c s) := by
  simp only [keyLoadAct, beq_eq_false_iff_ne.mpr hunit, hblk, beq_eq_false_iff_ne.mpr htok, Bool.false_and, Bool.false_eq_true, if_false]

variable (hgood : blockRange (keyBlockRange false blk) = none) (hsafe : ((findInFlight (begun c s) c).map (·.tampered)).getD false = false)
include hgood hsafe

theorem exec_keyLoad_of_unwrapped
    (hkey : keyUnwrap ((begun c s).sec.slots.getD c.keySlot {}).key ((blk.drop 8).take (fld blk 4 0 8 + 8)) = none) :
    exec (.keyLoad c) s = .next (answer c (Reply.refuse Rsn.check) (begun c s)) := by
  refine congrArg Host.Outcome.next (runCommand_answers h hp ((keyLoadAct_eq_slot htok hunit hblk).trans ?_))
  simp only [keyLoadSlot, hgood, wrapped_of_inRange hgood, hsafe, hkey, Bool.false_eq_true, if_false]

variable {k : Bytes} (hkey : keyUnwrap ((begun c s).sec.slots.getD c.keySlot {}).key ((blk.drop 8).take (fld blk 4 0 8 + 8)) = some k)
include hkey

/-- KEY.LOAD of a key that unwraps: stored, or of another length or KCV than stated (R515). -/
theorem exec_keyLoad_of_key : exec (.keyLoad c) s = .next (
    if fld blk 4 0 8 ≠ keyLength (fld blk 0 0 4) (fld blk 0 4 1) ∨ kcvOf k ≠ u32At blk 0x30 then answer c (Reply.refuse Rsn.check) (begun c s)
    else answer c { effect := some ((begun c s).clk.ms + 1) }
      (storeKey c.unit (fld blk 0 0 4) (fld blk 0 4 1) k (u32At blk 0x30) (begun c s))) := by
  have hrow : exec (.keyLoad c) s = .next (runCommand c (keyLoadJudge c) (keyLoadAct c) s) := rfl
  rw [hrow, runCommand_cameTo h hp, keyLoadAct_eq_slot htok hunit hblk]
  simp only [keyLoadSlot, hgood, wrapped_of_inRange hgood, hsafe, hkey, Bool.false_eq_true, if_false, Bool.or_eq_true, bne_iff_ne,
    apply_ite (cameTo c)]
  rfl

end

end

section
variable (hp : Passes (keyEraseJudge c s) c s f)
include hp

theorem exec_keyEraseTamperLatch (hunit : c.unit = 0x0100) :
    exec (.keyEraseTamperLatch c) s = .next (answer c {} (clearLatch (begun c s))) :=
  congrArg Host.Outcome.next (command_answers h hp (if_pos (by simp [hunit])))

theorem exec_keyErase_of_none (hunit : c.unit ≠ 0x0100)
    (hnone : ∀ i, i < 32 → c.unit = 0x00FF ∨ i = c.unit → ((begun c s).sec.slots.getD i {}).use = 0) :
    exec (.keyErase c) s = .next (answer c {} (begun c s)) := by
  refine congrArg Host.Outcome.next (command_answers h hp ?_)
  rw [keyEraseAct, if_neg (by simpa using hunit)]
  refine if_neg ?_
  simpa using hnone

theorem exec_keyErase_of_some (hunit : c.unit ≠ 0x0100)
    (hsome : ∃ i, i < 32 ∧ (c.unit = 0x00FF ∨ i = c.unit) ∧ ((begun c s).sec.slots.getD i {}).use ≠ 0) :
    exec (.keyErase c) s = .next (answer c { effect := some ((begun c s).clk.ms + 1) }
      (eraseKeys (fun i => c.unit == 0x00FF || i == c.unit) (begun c s))) := by
  refine congrArg Host.Outcome.next (command_answers h hp ?_)
  rw [keyEraseAct, if_neg (by simpa using hunit)]
  refine if_pos ?_
  simpa using hsome

end

end

/-- Settles O30: KEY.LOAD by its block and key, KEY.ERASE by what it names. -/
theorem keyCommands : Obligations.KeyCommands := by
  unfold Obligations.KeyCommands
  rintro c s _ f h rfl
  refine ⟨fun hp htok => ⟨fun hunit _ => exec_keyLoadTamperPolicy h hp htok hunit, fun hunit blk hblk hgood hsafe =>
      ⟨exec_keyLoad_of_unwrapped h hp htok hunit hblk hgood hsafe, fun k hkey => ⟨fun hbad => ?_, fun hlen hkcv hslot => ?_⟩⟩⟩,
    fun hp => ⟨fun hunit => ?_, exec_keyErase_of_none h hp, fun hunit hsome => ?_⟩⟩
  · rw [exec_keyLoad_of_key h hp htok hunit hblk hgood hsafe hkey, if_pos hbad]
  · rw [exec_keyLoad_of_key h hp htok hunit hblk hgood hsafe hkey, if_neg (by simp [hlen, hkcv])]
    exact ⟨_, rfl, getD_modAt_same _ _ hslot, fun i hi => getD_modAt_ne _ _ _ hi, rfl, rfl, rfl⟩
  · exact ⟨_, exec_keyEraseTamperLatch h hp hunit, rfl, rfl, rfl, rfl, clearLatch_safe_tamper, fun k hk hne => clearLatch_safe_other hk hne, rfl⟩
  · refine ⟨_, exec_keyErase_of_some h hp hunit hsome, fun i hnamed => ?_, fun i hall hother => ?_⟩
    · rw [eraseKeys_slots, if_pos (by simpa using hnamed)]
      rfl
    · rw [eraseKeys_slots, if_neg (by simp [hall, hother])]

end Sys2Proof.Machine.Laws
end

section
/-! SUPPORT. The tamper sources: firing at each level, and arming again (R522-R525). -/

namespace Sys2Proof.Machine.Laws
open Sys2Proof Sys2Proof.Machine Sys2Proof.Safety

section
variable {s : State}

/-! ### The response at a level (R524) -/

theorem raiseSafe_safe (bit : Nat) : (raiseSafe bit s).mode.safe = s.mode.safe ||| BitVec.ofNat 5 (2 ^ bit) := rfl

theorem tamperAct_level0 : tamperAct 0 s = s := rfl

/-- The response leaves the latch, what is armed, and the mode. -/
theorem tamperAct_kept (level : Nat) : (tamperAct level s).sec.tlatch = s.sec.tlatch ∧ (tamperAct level s).sec.tarmed = s.sec.tarmed ∧
    (tamperAct level s).mode.mode = s.mode.mode := by
  unfold tamperAct
  dsimp only
  split
  · exact ⟨rfl, rfl, rfl⟩
  · split <;> exact ⟨rfl, rfl, rfl⟩

/-- At level 1 the keys of use 1 and 2 are erased, and no others. -/
theorem tamperAct_level1_slots (i : Nat) : (tamperAct 1 s).sec.slots.getD i {} =
    if (s.sec.slots.getD i {}).use = 1 ∨ (s.sec.slots.getD i {}).use = 2 then eraseSlot (s.sec.slots.getD i {}) else s.sec.slots.getD i {} := by
  refine (getD_mapIdx_erase _ s.sec.slots i).trans (if_congr ?_ rfl rfl)
  simp only [Nat.reduceBEq, Bool.false_or, Bool.and_eq_true, bne_iff_ne, Bool.or_eq_true, beq_iff_eq]
  omega

theorem tamperAct_level1_mode : (tamperAct 1 s).mode = s.mode := rfl

theorem tamperAct_level2_slots (i : Nat) : (tamperAct 2 s).sec.slots.getD i {} = eraseSlot (s.sec.slots.getD i {}) :=
  (getD_mapIdx_erase _ s.sec.slots i).trans (if_pos rfl)

theorem tamperAct_level2_lineKeys (i : Nat) : (tamperAct 2 s).sec.lineKeys.getD i {} = eraseSlot (s.sec.lineKeys.getD i {}) :=
  (getD_mapIdx_erase _ s.sec.lineKeys i).trans (if_pos rfl)

theorem tamperAct_level2_l2 : (tamperAct 2 s).sec.l2 = true := Bool.or_true _

theorem tamperAct_level2_safe : (tamperAct 2 s).mode.safe.getLsbD 2 = true := by
  have hsafe : (tamperAct 2 s).mode.safe = s.mode.safe ||| BitVec.ofNat 5 (2 ^ SafeCause.tamper) := rfl
  rw [hsafe, BitVec.getLsbD_or]
  exact (congrArg _ (by decide)).trans (Bool.or_true _)

/-! ### Firing (R522) -/

theorem raiseIrq_sec (k : Nat) (s : State) : (raiseIrq k s).sec = s.sec := (congrArg State.sec (raiseIrq_onlyMessages k s) :)

theorem secRecord_mode (code unit : Nat) (data : Bytes) (s : State) : (secRecord code unit data s).mode = s.mode := rfl

theorem raiseIrq_mode (k : Nat) (s : State) : (raiseIrq k s).mode = s.mode := (raiseIrq_onlyEvents k s).mode

theorem fireTamper_of_barred {j : Nat} (h : s.sec.policy.en.getD j false = false ∨ s.sec.tarmed.getD j false = false) : fireTamper j s = s :=
  if_pos (by rcases h with h | h <;> simp only [h, Bool.not_false, Bool.true_or, Bool.or_true])

/-- The source latched and disarmed, its time the first one's. -/
def tamperLatched (j : Nat) (s : State) : State :=
  setSec (fun x => { x with
    tlatch := modAt x.tlatch j (fun _ => true), tactive := modAt x.tactive j (fun _ => true), tarmed := modAt x.tarmed j (fun _ => false)
    tfirst := if s.sec.tlatch.contains true then s.sec.tfirst else rtcNow (setClk (·.advance (s.sec.tnotBefore.getD j 0)) s) % 2 ^ 32 })
    (setClk (·.advance (s.sec.tnotBefore.getD j 0)) s)

/-- Outside BACKUP a source that may fire is latched, answered at its level and recorded. -/
theorem fireTamper_of_armed {j : Nat} (hen : s.sec.policy.en.getD j false = true) (harmed : s.sec.tarmed.getD j false = true)
    (hmode : s.mode.mode ≠ .backup) : ∃ data, fireTamper j s =
      secRecord 4 j data (raiseIrq Irq.tamper (tamperAct (s.sec.policy.level.getD j 0) (tamperLatched j s))) := by
  have hbackup : ((tamperAct (s.sec.policy.level.getD j 0) (tamperLatched j s)).mode.mode == .backup) = false :=
    beq_eq_false_iff_ne.mpr (by rw [(tamperAct_kept _).2.2]; exact hmode)
  refine ⟨_, (if_neg ?_).trans (if_neg ?_)⟩
  · simp only [hen, harmed, beq_eq_false_iff_ne.mpr hmode, Bool.not_true, Bool.false_and, Bool.or_self, Bool.false_eq_true, not_false_eq_true]
  · exact Bool.not_eq_true _ ▸ hbackup

theorem exec_tamperFire (j : BitVec 3) : exec (.tamperFire j) s = .next (fireTamper j.toNat s) := rfl

theorem exec_tamperRearm (j : BitVec 3) : exec (.tamperRearm j) s = .next { s with sec := { s.sec with
    tactive := modAt s.sec.tactive j.toNat (fun _ => false), tarmed := modAt s.sec.tarmed j.toNat (fun _ => true) } } := rfl

end

/-- Settles O32: a source by whether it may fire, its answer by its level. -/
theorem tamperRows : Obligations.TamperRows := by
  unfold Obligations.TamperRows
  refine ⟨fun j s h => by rw [exec_tamperFire, fireTamper_of_barred h], ?_, fun j s => exec_tamperRearm j⟩
  rintro j s _ hen harmed hmode rfl hlatch harmedLen hj
  obtain ⟨data, hfire⟩ := fireTamper_of_armed hen harmed hmode
  obtain ⟨hlatchKept, harmedKept, -⟩ := tamperAct_kept (s := tamperLatched j.toNat s) (s.sec.policy.level.getD j.toNat 0)
  refine ⟨_, (exec_tamperFire j).trans (congrArg _ hfire), ?_, ?_, raiseIrq_sets_cause _ _ (by decide), fun hlv => ?_, fun hlv => ?_, fun hlv => ?_⟩
  · rw [secRecord_sec, raiseIrq_sec, hlatchKept]
    exact getD_modAt_same _ _ (hlatch ▸ hj)
  · rw [secRecord_sec, raiseIrq_sec, harmedKept]
    exact getD_modAt_same _ _ (harmedLen ▸ hj)
  · rw [hlv, tamperAct_level0, secRecord_sec, raiseIrq_sec, secRecord_mode, raiseIrq_mode]
    exact ⟨rfl, rfl⟩
  · rw [hlv, secRecord_sec, raiseIrq_sec, secRecord_mode, raiseIrq_mode, tamperAct_level1_mode]
    exact ⟨tamperAct_level1_slots, rfl⟩
  · rw [hlv, secRecord_sec, raiseIrq_sec, secRecord_mode, raiseIrq_mode]
    exact ⟨tamperAct_level2_slots, tamperAct_level2_lineKeys, tamperAct_level2_l2, tamperAct_level2_safe⟩

end Sys2Proof.Machine.Laws
end

section
/-! SUPPORT. Brown-out and power-down (R425, R435-R437, R500). -/

namespace Sys2Proof.Machine.Laws
open Sys2Proof Sys2Proof.Machine Sys2Proof.Safety

section
variable {s : State}

theorem railsUp_iff : railsUp s = true ↔ s.mode.mode ≠ .backup := bne_iff_ne

/-! ### A reset into BOOT -/

theorem endSession_keeps_rest (cause : Nat) (s : State) : (endSession cause s).pwr = s.pwr ∧ (endSession cause s).mem = s.mem ∧
    (endSession cause s).sec = s.sec := by
  unfold endSession
  dsimp only
  split <;> exact ⟨rfl, rfl, rfl⟩

theorem resetDevice_pwr (src : Nat) (s : State) : ∃ m, (resetDevice src s).pwr = resetPower src m s.pwr :=
  ⟨_, congrArg (resetPower src _) (endSession_keeps_rest 3 s).1⟩

theorem resetDevice_mem (src : Nat) (s : State) : (resetDevice src s).mem = resetMem src s.mem :=
  congrArg (resetMem src) (endSession_keeps_rest 3 s).2.1

theorem resetDevice_slots (src : Nat) (s : State) : (resetDevice src s).sec.slots = s.sec.slots := by
  have hsec : ∃ m, (resetDevice src s).sec = resetSec src m s.sec := ⟨_, congrArg (resetSec src _) (endSession_keeps_rest 3 s).2.2⟩
  obtain ⟨m, hm⟩ := hsec
  rw [hm, resetSec]
  dsimp only
  split <;> split <;> rfl

/-! ### The power-down (R435, R436, R500) -/

theorem powerDown_eq (code : Nat) (s : State) : ∃ data, powerDown code s =
    { resetDevice 0 (writeDirect 11 data s) with
      mode := { (resetDevice 0 (writeDirect 11 data s)).mode with mode := .backup }
      pwr := { (resetDevice 0 (writeDirect 11 data s)).pwr with
        pfault := code, hu := .off, vinGood := s.pwr.vinGood, railOk := List.replicate 6 false, onVbat := true
        latched := code == 2 || code == 3, vinFell := !s.pwr.vinGood } } := ⟨_, rfl⟩

theorem powerDown_log (code : Nat) (s : State) : (powerDown code s).log.queue = [] ∧ (powerDown code s).log.overflow = none ∧
    (powerDown code s).log.headSeq = s.log.headSeq + 1 := by
  obtain ⟨data, h⟩ := powerDown_eq code s
  rw [h]
  obtain ⟨hhead, -⟩ := resetDevice_sealedAlike 0 (writeDirect 11 data s)
  exact ⟨rfl, rfl, hhead⟩

theorem powerDown_power (code : Nat) (s : State) : (powerDown code s).pwr.pfault = code ∧
    (powerDown code s).pwr.railOk = List.replicate 6 false ∧ (powerDown code s).pwr.latched = (code == 2 || code == 3) := by
  obtain ⟨data, h⟩ := powerDown_eq code s
  rw [h]
  exact ⟨rfl, rfl, rfl⟩

theorem powerDown_mode (code : Nat) (s : State) : (powerDown code s).mode.mode = .backup ∧ (powerDown code s).mode.resetSrc = 0 ∧
    (powerDown code s).trip.driven = false ∧ (powerDown code s).host.inflight = [] := by
  obtain ⟨data, h⟩ := powerDown_eq code s
  rw [h]
  exact ⟨rfl, rfl, rfl, rfl⟩

theorem powerDown_mem (code : Nat) (s : State) : (powerDown code s).mem.mbx = [] ∧ (powerDown code s).mem.ddr = [] ∧
    (powerDown code s).mem.host = s.mem.host := by
  obtain ⟨data, h⟩ := powerDown_eq code s
  rw [h, resetDevice_mem]
  exact ⟨rfl, rfl, rfl⟩

theorem powerDown_slots (code : Nat) (s : State) : (powerDown code s).sec.slots = s.sec.slots := by
  obtain ⟨data, h⟩ := powerDown_eq code s
  rw [h]
  exact resetDevice_slots ..

/-! ### The rows -/

theorem exec_railOvervoltage (rail : BitVec 3) :
    exec (.railOvervoltage rail) s = .next (if railsUp s && hasRail s rail.toNat then powerDown 3 s else s) := rfl

theorem exec_hold10v : exec .hold10v s = .next (if railsUp s && !s.pwr.vinGood then powerDown 1 s else s) := rfl

theorem exec_overtempPowerDown : exec .overtempPowerDown s = .next (if railsUp s then powerDown 4 s else s) := rfl

/-- A rail in brown-out for 10 ms since the latest one began. -/
def latchedClk (s : State) : State := setClk (·.advance ((s.pwr.boTimes.foldl (fun m t => max m t) 0).toNat + msU 10)) s

theorem exec_brownOutLatch : exec .brownOutLatch s = .next (if railsUp s && s.pwr.waitRails then powerDown 2 (latchedClk s) else s) := rfl

/-- The brown-outs of the last 60 s. -/
def recentBrownOuts (s : State) : List Int := s.pwr.boTimes.filter (fun t => decide ((s.clk.mono : Int) < t + (secU 60 : Nat)))

/-- A brown-out noted: the rail is down and its flag latched. -/
def brownOutNoted (k : Nat) (s : State) : State :=
  setPwr (fun p => { p with
    railOk := modAt p.railOk k (fun _ => false), railBo := modAt p.railBo k (fun _ => true), boTimes := (s.clk.mono : Int) :: recentBrownOuts s }) s

theorem exec_brownOut {rail : BitVec 3} (hrail : hasRail s rail.toNat = true) (hmode : s.mode.mode ≠ .backup) :
    exec (.brownOut rail) s = .next (if 3 ≤ (recentBrownOuts s).length + 1 then powerDown 2 (brownOutNoted rail.toNat s)
      else setPwr (fun p => { p with waitRails := true }) (resetDevice 1 (brownOutNoted rail.toNat s))) := by
  have hrow : exec (.brownOut rail) s = execBrownOut rail s := rfl
  have hup : railsUp s = true := railsUp_iff.mpr hmode
  have hup' : railsUp (brownOutNoted rail.toNat s) = true := railsUp_iff.mpr hmode
  rw [hrow, execBrownOut]
  simp only [hrail, hup, Bool.not_true, Bool.false_and, Bool.or_self, Bool.false_eq_true, if_false]
  refine congrArg Host.Outcome.next (if_congr Iff.rfl rfl ((if_neg ?_).trans rfl))
  exact fun h => Bool.false_ne_true ((congrArg (!·) hup').symm.trans h)

end

/-- Settles O34: each row by whether it powers down, and what a power-down and a brown-out reset leave. -/
theorem powerDownRows : Obligations.PowerDownRows := by
  unfold Obligations.PowerDownRows
  refine ⟨fun s hmode => ?_, fun code s => ?_⟩
  · have hup : railsUp s = true := railsUp_iff.mpr hmode
    refine ⟨fun rail hrail => ?_, fun hvin => ?_, ?_, fun hwait => ⟨latchedClk s, ?_, rfl, Nat.le_max_left ..⟩, fun rail hrail recent hrecent => ?_⟩
    · rw [exec_railOvervoltage, hup, hrail]
      rfl
    · rw [exec_hold10v, hup, hvin]
      rfl
    · rw [exec_overtempPowerDown, hup]
      rfl
    · rw [exec_brownOutLatch, hup, hwait]
      rfl
    · obtain rfl : recent = recentBrownOuts s := hrecent
      refine ⟨_, exec_brownOut hrail hmode, ?_⟩
      by_cases hfew : (recentBrownOuts s).length < 2
      · rw [if_neg (by omega)]
        obtain ⟨m, hpwr⟩ := resetDevice_pwr 1 (brownOutNoted rail.toNat s)
        refine ⟨Nat.le_refl 1, rfl, fun _ => ⟨rfl, rfl, rfl, rfl, ?_, fun hlen => ?_⟩, fun h => absurd h (by omega)⟩
        · rw [setPwr_pwr, hpwr]
          exact List.length_map ..
        · rw [setPwr_pwr, hpwr]
          exact getD_modAt_same _ _ hlen
      · rw [if_pos (by omega)]
        obtain ⟨hback, hsrc, hdriven, -⟩ := powerDown_mode 2 (brownOutNoted rail.toNat s)
        obtain ⟨hfault, -, hlatched⟩ := powerDown_power 2 (brownOutNoted rail.toNat s)
        exact ⟨hsrc ▸ Nat.zero_le 1, hdriven, fun h => absurd h hfew, fun _ => ⟨hback, hfault, hlatched⟩⟩
  · obtain ⟨hback, -, hdriven, hflight⟩ := powerDown_mode code s
    obtain ⟨hfault, hrails, hlatched⟩ := powerDown_power code s
    obtain ⟨hqueue, hover, hhead⟩ := powerDown_log code s
    obtain ⟨hmbx, hddr, hhost⟩ := powerDown_mem code s
    exact ⟨_, rfl, hback, hfault, hdriven, hrails, by simp [hlatched], hqueue, hover, hhead, hmbx, hddr, hhost, hflight, powerDown_slots ..⟩

end Sys2Proof.Machine.Laws
end

section
/-! SUPPORT. VIN, the hold-up store, temperature, VBAT and the operating minutes (R427-R434, R437-R440). -/

namespace Sys2Proof.Machine.Laws
open Sys2Proof Sys2Proof.Machine Sys2Proof.Safety

section
variable {s : State}

/-! ### What records and urgent requests leave of the supply -/

/-- The supply, the mode and the pins. -/
def supplyView (s : State) : PowerSt × Mode × TripSt := (s.pwr, s.mode.mode, s.trip)

theorem pwr_of_unsupervised {s t : State} (h : unsupervised t = unsupervised s) : t.pwr = s.pwr := (congrArg State.pwr h :)

theorem powerEvent_onlyEvents (code unit : Nat) (s : State) : OnlyEvents s (powerEvent code unit s) :=
  (postEvent_onlyEvents ..).trans (raiseIrq_onlyEvents ..)

theorem powerEvent_pwr (code unit : Nat) (s : State) : (powerEvent code unit s).pwr = s.pwr :=
  (congrArg State.pwr (powerEvent_onlyEvents code unit s) :)

theorem powerEvent_rec (code unit : Nat) (s : State) : (powerEvent code unit s).rec_ = s.rec_ :=
  (congrArg State.rec_ (powerEvent_onlyEvents code unit s) :)

theorem supplyView_powerEvent (code unit : Nat) (s : State) : supplyView (powerEvent code unit s) = supplyView s :=
  (congrArg supplyView (powerEvent_onlyEvents code unit s) :)

theorem supplyView_urgentRequest (k : Nat) (s : State) : supplyView (urgentRequest k s) = supplyView s := by
  unfold urgentRequest urgentOverrun
  dsimp only
  split
  · split
    · next =>
      have hu := (unsupervised_settle _).trans (unsupervised_countEvent (setAux (fun a =>
        { a with urgent := modAt a.urgent k (fun u => { u with overruns := u.overruns + 1 }) }) s) 8 k)
      rw [supplyView, pwr_of_unsupervised hu, mode_of_unsupervised hu, trip_of_unsupervised hu]
      rfl
    · rfl
  · rfl

theorem stopRegions_pwr (cause : Nat) (s : State) : (stopRegions cause s).pwr = s.pwr := by
  refine List.foldlRecOn (motive := fun t : State => t.pwr = s.pwr) _ _ rfl fun t ht r _ => ?_
  exact List.foldlRecOn (motive := fun u : State => u.pwr = s.pwr) (liveRecs t r) (fun u x => endRecord r x.id cause u) ht fun _ hu _ _ => hu

theorem shedRecording_pwr (s : State) : (shedRecording s).pwr = s.pwr := by
  rw [shedRecording, setRec_pwr, stopRegions_pwr]

/-- The log once one more operating minute is counted; each hour copies the counts. -/
def minuteCounted (l : LogSt) : LogSt :=
  if satN 32 (l.opMin + 1) % 60 = 0 then
    { l with opMin := satN 32 (l.opMin + 1), opCopy := satN 32 (l.opMin + 1), pwrCopy := l.pwrCycles }
  else { l with opMin := satN 32 (l.opMin + 1) }

theorem minuteCounted_opMin (l : LogSt) : (minuteCounted l).opMin = satN 32 (l.opMin + 1) := by
  unfold minuteCounted
  split <;> rfl

theorem minuteCounted_opCopy {l : LogSt} (h : (minuteCounted l).opMin % 60 ≠ 0) : (minuteCounted l).opCopy = l.opCopy := by
  rw [minuteCounted_opMin] at h
  rw [minuteCounted, if_neg h]

/-! ### VIN (R427, R428, R430, R434) -/

/-- The supply once VIN is lost with the rails up. -/
def vinLost (s : State) : State :=
  { s with pwr := { s.pwr with
      vinGood := false, vinOv := false, vinFell := true, lostAt := s.clk.mono, backPend := false, hu := .discharging
      rtCount := satN 32 (s.pwr.rtCount + 1), ridePend := s.mode.mode == .service || s.mode.mode == .degraded } }

/-- The loss recorded, the trace ended, the brown-out sense converted. -/
def vinLossNoted (s : State) : State := powerEvent 1 0 (endTrace 3 (urgentRequest 1 (vinLost s)))

theorem supplyView_vinLossNoted : supplyView (vinLossNoted s) = supplyView (vinLost s) := by
  rw [vinLossNoted, supplyView_powerEvent]
  exact supplyView_urgentRequest 1 (vinLost s)

theorem exec_vinLoss_of_good (hvin : s.pwr.vinGood = true) (hmode : s.mode.mode ≠ .backup) : exec .vinLoss s = .next (
    if (vinLossNoted s).pwr.shed1 = true then vinLossNoted s
    else powerEvent 3 1 (setPwr (fun p => { p with shed1 := true }) (vinLossNoted s))) := by
  have hrow : exec .vinLoss s = execVinLoss s := rfl
  have hup (p : PowerSt) : railsUp { s with pwr := p } = true := railsUp_iff.mpr hmode
  rw [hrow, execVinLoss]
  simp only [hvin, setPwr, hup, Bool.not_true, Bool.false_eq_true, if_false]
  rfl

theorem exec_vinLoss_of_lost (hvin : s.pwr.vinGood = false) : exec .vinLoss s = .next s :=
  congrArg Host.Outcome.next (if_pos (by simp [hvin]))

/-- VIN_LOSS leaves step 1 shed and the rest of the supply as the loss set it. -/
theorem exec_vinLoss (hvin : s.pwr.vinGood = true) (hmode : s.mode.mode ≠ .backup) : ∃ t, exec .vinLoss s = .next t ∧
    supplyView t = ({ (vinLost s).pwr with shed1 := true }, s.mode.mode, s.trip) := by
  have hview : supplyView (vinLossNoted s) = ((vinLost s).pwr, s.mode.mode, s.trip) := supplyView_vinLossNoted
  have hpwr : (vinLossNoted s).pwr = (vinLost s).pwr := congrArg Prod.fst hview
  have hrest : ((vinLossNoted s).mode.mode, (vinLossNoted s).trip) = (s.mode.mode, s.trip) := congrArg Prod.snd hview
  refine ⟨_, exec_vinLoss_of_good hvin hmode, ?_⟩
  split
  · next hshed =>
    have hshed' : (vinLost s).pwr.shed1 = true := hpwr ▸ hshed
    rw [hview, ← hshed']
  · rw [supplyView_powerEvent]
    exact congrArg₂ Prod.mk (congrArg (fun p : PowerSt => { p with shed1 := true }) hpwr) hrest

theorem exec_vinGood (hvin : s.pwr.vinGood = false) (hmode : s.mode.mode ≠ .backup) : exec .vinGood s = .next (powerEvent 2 0
    { s with pwr := { s.pwr with
        vinGood := true, goodAt := s.clk.mono, rtLast := satN 32 (((s.clk.mono : Int) - s.pwr.lostAt).toNat / usU 1)
        latched := s.pwr.latched && !s.pwr.vinFell, hu := .charging } }) := by
  have hrow : exec .vinGood s = execVinGood s := rfl
  have hup (p : PowerSt) : railsUp { s with pwr := p } = true := railsUp_iff.mpr hmode
  rw [hrow, execVinGood]
  simp only [hvin, setPwr, hup, Bool.false_eq_true, if_false, if_true]
  rfl

section
variable (hmode : s.mode.mode ≠ .backup)
include hmode

theorem exec_vinGood50ms (hvin : s.pwr.vinGood = true) (hshed : s.pwr.shed1 = true) : exec .vinGood50ms s = .next
    (setPwr (fun p => { p with backPend := true }) (setClk (·.advance (s.pwr.goodAt + (msU 50 : Nat)).toNat) s)) :=
  congrArg Host.Outcome.next (if_pos (by simp [railsUp_iff.mpr hmode, hvin, hshed]))

theorem exec_vinOv (hvin : s.pwr.vinGood = true) : exec .vinOv s = .next (powerEvent 6 0 { s with pwr := { s.pwr with vinOv := true } }) :=
  congrArg Host.Outcome.next (if_pos (by simp [railsUp_iff.mpr hmode, hvin]))

/-! ### HOLD (R428, R429, R432, R433) -/

/-- The capacitance shown, and whether it is low (R429). -/
def capMeasured (us : Nat) (s : State) : State :=
  setPwr (fun p => { p with holdCap := satN 32 (roundOpen 57 us 160).toNat, capLow := decide (us < 3000 * 160) }) s

section
variable (hhu : s.pwr.hu = .charging)
include hhu

theorem exec_holdFull : exec .holdFull s = .next (powerEvent 5 0 { s with pwr := { s.pwr with hu := .full } }) :=
  congrArg Host.Outcome.next (if_pos (by simp [railsUp_iff.mpr hmode, hhu]))

theorem exec_holdCapMeasured (us : Nat) : exec (.holdCapMeasured us) s = .next (
    if us < 480000 then powerEvent 7 0 (capMeasured us s) else capMeasured us s) :=
  congrArg Host.Outcome.next ((if_neg (by simp [railsUp_iff.mpr hmode, hhu])).trans (if_congr decide_eq_true_iff rfl rfl))

end

theorem exec_hold30v (hvin : s.pwr.vinGood = false) (hshed : s.pwr.shed2 = false) : exec .hold30v s = .next
    (powerEvent 3 2 (shedRecording (setPwr (fun p => { p with shed2 := true }) s))) :=
  congrArg Host.Outcome.next (if_pos (by simp [railsUp_iff.mpr hmode, hvin, hshed]))

theorem exec_hold20v (hvin : s.pwr.vinGood = false) (hshed : s.pwr.shed3 = false) (hpark : ∃ r, r < 4 ∧ mayPark s r = true) :
    exec .hold20v s = .next (powerEvent 3 3
      { s with pwr := { s.pwr with shed3 := true }, mode := { s.mode with parked := (List.range 4).map (mayPark s) } }) := by
  have hany : (List.range 4).any (mayPark s) = true := by simpa [List.any_eq_true] using hpark
  exact congrArg Host.Outcome.next (if_pos (by simp only [railsUp_iff.mpr hmode, hvin, hshed, hany]; rfl))

/-! ### Temperature, VBAT and minutes (R437, R438, R440) -/

theorem exec_tjHigh (above : Bool) : exec (.tjHigh above) s = .next (
    if above = true ∧ s.pwr.tjHigh = false then powerEvent 8 0 { s with pwr := { s.pwr with tjHigh := true } }
    else { s with pwr := { s.pwr with tjHigh := above } }) :=
  congrArg Host.Outcome.next ((if_neg (by simp [railsUp_iff.mpr hmode])).trans (if_congr (by simp) rfl rfl))

theorem exec_vbatCheck (low : Bool) : exec (.vbatCheck low) s = .next (
    if low = true ∧ s.pwr.vbatLow = false then powerEvent 9 0 { s with pwr := { s.pwr with vbatLow := true } }
    else { s with pwr := { s.pwr with vbatLow := low } }) :=
  congrArg Host.Outcome.next ((if_neg (by simp [railsUp_iff.mpr hmode])).trans (if_congr (by simp) rfl rfl))

theorem exec_opMinuteTick : ∃ t, exec .opMinuteTick s = .next t ∧ t.log = minuteCounted s.log ∧ t.pwr.minAt = s.pwr.minAt + secU 60 ∧
    t.clk.mono = max s.clk.mono (s.pwr.minAt + secU 60) :=
  ⟨_, congrArg Host.Outcome.next (if_neg (by simp [railsUp_iff.mpr hmode])), if_congr beq_iff_eq rfl rfl, rfl, rfl⟩

end

theorem holdCap_of_exact {us : Nat} (hdiv : us % 160 = 0) (hlt : us / 160 < 2 ^ 32) : satN 32 (roundOpen 57 us 160).toNat = us / 160 := by
  have hround : (roundOpen 57 us 160).toNat = us / 160 := by
    rw [roundOpen, if_pos (by omega)]
    omega
  rw [hround, satN]
  omega

end

/-- Settles O33: each row by what it sets, and what it records. -/
theorem supplyRows : Obligations.SupplyRows := by
  unfold Obligations.SupplyRows
  intro s
  refine ⟨fun hvin hmode => ?_, exec_vinLoss_of_lost, exec_vinGood, fun hmode hvin hshed => ⟨_, exec_vinGood50ms hmode hvin hshed, rfl, rfl, rfl⟩,
    fun hmode => exec_vinOv hmode, fun hmode => exec_holdFull hmode, fun hmode hhu us => ?_,
    fun hmode hvin => ⟨fun hshed => ⟨_, exec_hold30v hmode hvin hshed, ?_, ?_⟩, exec_hold20v hmode hvin⟩,
    fun hmode => ⟨fun above h => ?_, fun h => ?_, fun low h => ?_, fun h => ?_, ?_⟩, rfl⟩
  · obtain ⟨t, ht, hview⟩ := exec_vinLoss hvin hmode
    have hpwr : t.pwr = { (vinLost s).pwr with shed1 := true } := congrArg Prod.fst hview
    refine ⟨t, ht, ?_, ?_, ?_, ?_, ?_, ?_, (congrArg (·.2.1) hview :), (congrArg (·.2.2) hview :)⟩
    · rw [hpwr, vinLost]
    · rw [hpwr, vinLost]
    · rw [hpwr, vinLost]
    · rw [hpwr, vinLost]
    · rw [hpwr]
    · rw [hpwr, vinLost]
      simp
  · refine ⟨_, exec_holdCapMeasured hmode hhu us, ?_⟩
    rw [apply_ite State.pwr, powerEvent_pwr, ite_self]
    exact ⟨decide_eq_true_iff, holdCap_of_exact⟩
  · rw [powerEvent_pwr, shedRecording_pwr]
    rfl
  · rw [powerEvent_rec]
    rfl
  · rw [exec_tjHigh hmode, if_neg]
    rintro ⟨rfl, hlow⟩
    exact Bool.false_ne_true (hlow.symm.trans (h.resolve_left (by decide)))
  · rw [exec_tjHigh hmode, if_pos ⟨rfl, h⟩]
  · rw [exec_vbatCheck hmode, if_neg]
    rintro ⟨rfl, hlow⟩
    exact Bool.false_ne_true (hlow.symm.trans (h.resolve_left (by decide)))
  · rw [exec_vbatCheck hmode, if_pos ⟨rfl, h⟩]
  · obtain ⟨t, ht, hlog, hmin, hmono⟩ := exec_opMinuteTick hmode
    rw [← hmin] at hmono
    exact ⟨t, ht, hlog ▸ minuteCounted_opMin s.log, hmin, hmin ▸ hmono, fun h => hlog ▸ minuteCounted_opCopy (hlog ▸ h)⟩

end Sys2Proof.Machine.Laws
end

section
/-! SUPPORT. WMK.SEL, TEST.RUN, the start and the end of a self-test, and its pulse (R558, R562-R564). -/

namespace Sys2Proof.Machine.Laws
open Sys2Proof Sys2Proof.Machine Sys2Proof.Safety

/-! ### The commands (R558, R562) -/

section
variable {c : Cmd} {s : State} {f : InFlight} (h : Starts c s f)
include h

/-- WMK.SEL waits for the boundary but for WMK1 while it is the reference of WMK0. -/
theorem exec_wmkSel (hp : Passes (wmkJudge c s) c s f) : exec (.wmkSel c) s = .next (
    if c.unit = 1 ∧ (wmk0Latest (begun c s)).diff = true then answer c (Reply.refuse Rsn.state) (begun c s)
    else waits c 0 0 (.wmkSel c.unit (wmkOf c)) (begun c s)) := by
  have hrow : exec (.wmkSel c) s = execWmkSel c s := rfl
  rw [hrow, execWmkSel, command_cameTo h hp, wmkAct, apply_ite (cameTo c)]
  exact congrArg Host.Outcome.next (if_congr (by simp) rfl rfl)

section
variable (hp : Passes (testJudge c s) c s f)
include hp

theorem testRunRow_of_stop (hstop : c.at_ 0x14 8 1 = 1) : testRunRow c s =
    if (begun c s).svc.test = none then answer c {} (begun c s) else waits c 0 0 .testStop (begun c s) := by
  rw [testRunRow, command_cameTo h hp, testAct, if_pos (by simp [hstop]), apply_ite (cameTo c), ← ite_not]
  exact if_congr (by simp) rfl rfl

/-- TEST.RUN starts a test where none runs and it has what it needs. -/
theorem testRunRow_of_start (hstart : c.at_ 0x14 8 1 = 0) : testRunRow c s =
    if (begun c s).svc.test ≠ none ∨ testReady (begun c s) (c.at_ 0x14 0 8) c.unit = false then answer c (Reply.refuse Rsn.state) (begun c s)
    else startTest { id := c.at_ 0x14 0 8, unit := c.unit, param := c.at_ 0x18 0 32, cmd := some (refOf c) } (queuedEntry c (begun c s)) := by
  rw [testRunRow, command_cameTo h hp, testAct, if_neg (by simp [hstart]), apply_ite (cameTo c)]
  exact if_congr (by simp [Option.isSome_iff_ne_none]) rfl rfl

end

end

/-! ### The start and the end of a test (R562, R563) -/

section
variable {s : State} {t : TestRun}

/-- The test as it runs. -/
def begunTest (t : TestRun) (s : State) : TestRun :=
  { t with startMs := s.clk.ms, at_ := s.clk.mono, base := match t.id with | 4 => (pinSt s t.unit).rbEpis | _ => s.rec_.nextId }

theorem startTest_test : (startTest t s).svc.test = some (begunTest t s) := by
  unfold startTest
  dsimp only
  split
  · split <;> rfl
  · rfl
  · rfl

theorem svc_of_unanswered {s t : State} (h : unanswered t = unanswered s) : t.svc = s.svc := (congrArg State.svc h :)

/-- A test that ends leaves its result under its identifier, and no test runs. -/
theorem endTest_svc (ht : s.svc.test = some t) (outcome fail : Nat) (vals : List Nat) : (endTest outcome fail vals s).svc =
    { s.svc with
      test := none, pulseStart := false, testStop := false
      results := modAt s.svc.results t.id (fun _ => { outcome := outcome, unit := t.unit, fail := fail, console := t.console
                                                      startMs := t.startMs, endMs := s.clk.ms, vals := vals }) } := by
  unfold endTest
  rw [ht]
  dsimp only
  split
  · next x _ => exact (svc_of_unanswered (unanswered_finishOpen _ x _)).trans rfl
  · rfl

theorem exec_testEnd_of_none (m : List Int) (h : s.svc.test = none) : exec (.testEnd m) s = .next s := by
  have hrow : exec (.testEnd m) s = execTestEnd m s := rfl
  rw [hrow, execTestEnd, h]

theorem exec_testEnd_of_waiting (m : List Int) (ht : s.svc.test = some t) (hwait : testWaits s t = true) : exec (.testEnd m) s = .next s := by
  have hrow : exec (.testEnd m) s = execTestEnd m s := rfl
  rw [hrow, execTestEnd, ht]
  exact congrArg Host.Outcome.next (if_pos hwait)

theorem exec_testEnd (m : List Int) (ht : s.svc.test = some t) (hwait : testWaits s t = false) {b : State}
    (hb : b = { s with clk := s.clk.advance (t.at_ + testSpan t) }) : exec (.testEnd m) s =
    .next (endTest (testVerdict t m b).1 (testVerdict t m b).2.1 (testVerdict t m b).2.2 b) := by
  have hrow : exec (.testEnd m) s = execTestEnd m s := rfl
  subst hb
  rw [hrow, execTestEnd, ht]
  exact congrArg Host.Outcome.next (if_neg (by simp [hwait]))

/-! ### The pulse of test 4 (R564) -/

/-- A change of a pin's physical level leaves the pulse and every level as they are. -/
theorem pinChanged_frame (p : Nat) (was : Bool) (cause at_ : Nat) (s : State) : (pinChanged p was cause at_ s).trip.pulse = s.trip.pulse ∧
    ∀ k, (pinSt (pinChanged p was cause at_ s) k).level = (pinSt s k).level := by
  unfold pinChanged pinChangedBy
  dsimp only
  split
  · exact ⟨rfl, fun _ => rfl⟩
  · rw [pinRecord_trip, raiseIrq_trip]
    refine ⟨rfl, fun k => ?_⟩
    rw [pinSt_of_trip (pinRecord_trip ..), pinSt_of_trip (raiseIrq_trip ..)]
    refine getD_modAt_of_kept s.trip.pins p _ PinSt.level ?_ k
    exact fun _ => rfl

theorem exec_testTripPulseEnd_of_none (h : s.trip.pulse = none) : exec .testTripPulseEnd s = .next s := by
  have hrow : exec .testTripPulseEnd s = execTestTripPulseEnd s := rfl
  rw [hrow, execTestTripPulseEnd, h]

section
variable {p e : Nat} (h : s.trip.pulse = some (p, e))
include h

theorem exec_testTripPulseEnd_of_early (hearly : endOfMs s < e) : exec .testTripPulseEnd s = .next s := by
  have hrow : exec .testTripPulseEnd s = execTestTripPulseEnd s := rfl
  rw [hrow, execTestTripPulseEnd, h]
  exact congrArg Host.Outcome.next (if_neg (Nat.not_le.mpr hearly))

theorem endPulse_eq (b : Nat) : endPulse b s = pinChanged p (pinLevel s p) 7 b (setTrip (fun t => { t with pulse := none }) s) := by
  rw [endPulse, h]

theorem exec_testTripPulseEnd (hdue : e ≤ endOfMs s) : ∃ t, exec .testTripPulseEnd s = .next t ∧ t.trip.pulse = none ∧
    t.clk = s.clk.advance (endOfMs s) ∧ ∀ k, (pinSt t k).level = (pinSt s k).level := by
  have hrow : exec .testTripPulseEnd s = execTestTripPulseEnd s := rfl
  have hpulse : (setClk (·.advance (endOfMs s)) s).trip.pulse = some (p, e) := h
  rw [hrow, execTestTripPulseEnd, h]
  refine ⟨_, congrArg Host.Outcome.next (if_pos hdue), ?_⟩
  rw [endPulse_eq hpulse]
  have hframe := pinChanged_frame p (pinLevel (setClk (·.advance (endOfMs s)) s) p) 7 (endOfMs s)
    (setTrip (fun t => { t with pulse := none }) (setClk (·.advance (endOfMs s)) s))
  exact ⟨hframe.1, clk_of_clkMode (clkMode_pinChanged ..), hframe.2⟩

end

end

/-- Settles O57: the commands by what runs and what is needed, the test by its start, its end and its pulse. -/
theorem testRows : Obligations.TestRows := by
  unfold Obligations.TestRows
  refine ⟨?_, fun t s => ⟨_, _, rfl, startTest_test, rfl, rfl, rfl, rfl, rfl, rfl⟩,
    fun m s => ⟨exec_testEnd_of_none m, fun t ht => exec_testEnd_of_waiting m ht, fun t ht hwait hid b o f v hb hv => ?_⟩,
    fun s => ⟨exec_testTripPulseEnd_of_none, fun p e h => ⟨exec_testTripPulseEnd_of_early h, exec_testTripPulseEnd h⟩⟩⟩
  · rintro c s f h _ rfl
    refine ⟨fun hp => ⟨fun hunit hdiff => ?_, fun hfree => ?_⟩, ?_⟩
    · rw [exec_wmkSel h hp, if_pos ⟨hunit, hdiff⟩]
    · rw [exec_wmkSel h hp, if_neg]
      rintro ⟨hunit, hdiff⟩
      exact hfree.elim (fun hne => hne hunit) fun hno => Bool.false_ne_true (hno.symm.trans hdiff)
    · rintro hp _ rfl
      refine ⟨fun hstop i hi => ?_, fun hstart hbar => ?_, fun hstart hnone hready => ?_⟩
      · have hrow : exec i s = .next (testRunRow c s) := by
          simp only [List.mem_cons, List.not_mem_nil, or_false] at hi
          obtain rfl | rfl := hi <;> rfl
        rw [hrow, testRunRow_of_stop h hp hstop]
      · exact congrArg Host.Outcome.next ((testRunRow_of_start h hp hstart).trans (if_pos hbar))
      · exact congrArg Host.Outcome.next ((testRunRow_of_start h hp hstart).trans (if_neg (by simp [hnone, hready])))
  · obtain ⟨rfl, rfl, rfl⟩ : o = (testVerdict t m b).1 ∧ f = (testVerdict t m b).2.1 ∧ v = (testVerdict t m b).2.2 := by simp [← hv]
    have htest : b.svc.test = some t := hb ▸ ht
    have hms : b.clk.ms = s.clk.ms := hb ▸ rfl
    have hres : b.svc.results = s.svc.results := hb ▸ rfl
    refine ⟨_, exec_testEnd m ht hwait hb, ?_⟩
    rw [endTest_svc htest, hms, hres]
    exact ⟨rfl, getD_modAt_same _ _ hid, fun k hk => getD_modAt_ne _ _ _ hk⟩

end Sys2Proof.Machine.Laws
end

section
/-! SUPPORT. A line of the console: who answers it, and what a locked session accepts (R549, R551-R553). -/

namespace Sys2Proof.Machine.Laws
open Sys2Proof Sys2Proof.Machine Sys2Proof.Safety

section
variable {s : State}

/-! ### One line -/

/-- Lines sent to the console. -/
def said (l : List UartLine) (s : State) : State := { s with out := { s.out with uart := s.out.uart ++ l } }

theorem uartLine_eq (l : UartLine) (s : State) : uartLine l s = said [l] s := rfl

theorem uartLine_said (l : UartLine) (ls : List UartLine) (s : State) : uartLine l (said ls s) = said (ls ++ [l]) s := by
  simp [said, uartLine]

theorem okText_eq (t : String) (s : State) : okText t s = said [.text t, .ok] s := uartLine_said ..

theorem okVals_eq (b : Bytes) (s : State) : okVals b s = said [.vals b, .ok] s := uartLine_said ..

/-- No earlier refusal waits, and the session has not been idle for 900 s. -/
def Quiet (s : State) : Prop := s.svc.late = none ∧ (s.svc.unlocked = false ∨ s.clk.mono < s.svc.lineAt + secU 900)

/-- The time of the line noted. -/
def lineNoted (s : State) : State := { s with svc := { s.svc with lineAt := s.clk.mono } }

theorem komirLine_of_quiet (h : Quiet s) (inRecovery free : Bool) (f : State → State) : komirLine inRecovery free f s =
    if recoveryMode s = true then (if inRecovery = true then f (lineNoted s) else said [.er 1] (lineNoted s))
    else if xarikRuns s = false then lineNoted s
    else if (s.mode.warm.isSome || s.mode.supvRst) = true then said [.er 9] (lineNoted s)
    else if (!s.svc.unlocked && !free) = true then said [.er 2] (lineNoted s)
    else f (lineNoted s) := by
  obtain ⟨hlate, hidle⟩ := h
  have hflush : flushLate s = s := by rw [flushLate, hlate]
  have hsweep : sweepIdle s = s := if_neg (by rcases hidle with hidle | hidle <;> simp [hidle])
  rw [komirLine, hflush, hsweep]
  exact if_congr Iff.rfl rfl (if_congr (by rw [Bool.not_eq_true']; rfl) rfl rfl)

theorem komirLine_of_recovery (h : Quiet s) (hrec : recoveryMode s = true) (inRecovery free : Bool) (f : State → State) :
    komirLine inRecovery free f s = if inRecovery = true then f (lineNoted s) else said [.er 1] (lineNoted s) := by
  rw [komirLine_of_quiet h, if_pos hrec]

section
variable (hruns : xarikRuns s = true)
include hruns

theorem recoveryMode_of_xarikRuns : recoveryMode s = false := by
  have hboot : (s.mode.mode == .boot) = false := by
    rw [xarikRuns, Bool.not_eq_true', Bool.or_eq_false_iff] at hruns
    exact hruns.1
  rw [recoveryMode, hboot]
  rfl

theorem komirLine_of_restarting (h : Quiet s) (hrestart : s.mode.warm ≠ none ∨ s.mode.supvRst = true) (inRecovery free : Bool)
    (f : State → State) : komirLine inRecovery free f s = said [.er 9] (lineNoted s) := by
  rw [komirLine_of_quiet h, if_neg (by simp [recoveryMode_of_xarikRuns hruns]), if_neg (by simp [hruns]), if_pos]
  simpa [Option.isSome_iff_ne_none] using hrestart

end

/-- Xarik serves the console. -/
structure Serves (s : State) : Prop where
  runs : xarikRuns s = true
  noWarm : s.mode.warm = none
  noRestart : s.mode.supvRst = false
  quiet : Quiet s

section
variable (h : Serves s)
include h

theorem komirLine_of_serves (inRecovery free : Bool) (f : State → State) : komirLine inRecovery free f s =
    if (!s.svc.unlocked && !free) = true then said [.er 2] (lineNoted s) else f (lineNoted s) := by
  rw [komirLine_of_quiet h.quiet, if_neg (by simp [recoveryMode_of_xarikRuns h.runs]), if_neg (by simp [h.runs]),
    if_neg (by simp [h.noWarm, h.noRestart])]

theorem komirLine_of_free (inRecovery : Bool) (f : State → State) : komirLine inRecovery true f s = f (lineNoted s) := by
  rw [komirLine_of_serves h, if_neg (by simp)]

theorem komirLine_of_unlocked (hunlocked : s.svc.unlocked = true) (inRecovery free : Bool) (f : State → State) :
    komirLine inRecovery free f s = f (lineNoted s) := by
  rw [komirLine_of_serves h, if_neg (by simp [hunlocked])]

theorem komirLine_of_locked (hlocked : s.svc.unlocked = false) (inRecovery : Bool) (f : State → State) :
    komirLine inRecovery false f s = said [.er 2] (lineNoted s) := by
  rw [komirLine_of_serves h, if_pos (by simp [hlocked])]

/-! ### The lines a locked session accepts (R551, R552) -/

theorem exec_komirHelp : exec .komirHelp s = .next (said [.text (helpText (lineNoted s)), .ok] (lineNoted s)) :=
  congrArg Host.Outcome.next ((komirLine_of_free h ..).trans (okText_eq ..))

theorem exec_komirId : exec .komirId s = .next (said [.vals (idBytes (lineNoted s)), .ok] (lineNoted s)) :=
  congrArg Host.Outcome.next ((komirLine_of_free h ..).trans (okVals_eq ..))

theorem exec_komirStatus : exec .komirStatus s = .next (said [.vals (statusBytes' (lineNoted s)), .ok] (lineNoted s)) :=
  congrArg Host.Outcome.next ((komirLine_of_free h ..).trans (okVals_eq ..))

theorem exec_komirBaud (n : Nat) : exec (.komirBaud n) s = .next (if baudRates.contains n = true then
    setSvc (fun x => { x with baud := n }) (said [.ok] (lineNoted s)) else said [.er 6] (lineNoted s)) :=
  congrArg Host.Outcome.next (komirLine_of_free h ..)

theorem exec_komirEcho (on : Bool) : exec (.komirEcho on) s = .next (said [.ok] (setSvc (fun x => { x with echo := on }) (lineNoted s))) :=
  congrArg Host.Outcome.next (komirLine_of_free h ..)

theorem exec_komirLock : exec .komirLock s = .next (said [.ok] (endSession 0 (lineNoted s))) :=
  congrArg Host.Outcome.next (komirLine_of_free h ..)

theorem exec_komirUnlockNonce_of_none (hslot : serviceSlot s = none) : exec .komirUnlockNonce s = .next (said [.er 3] (lineNoted s)) := by
  refine congrArg Host.Outcome.next ((komirLine_of_free h ..).trans ?_)
  have hslot' : serviceSlot (lineNoted s) = none := hslot
  simp only [hslot', uartLine_eq]

/-- A nonce given for a service slot with its CTR. -/
def nonceGiven (n k : Nat) (s : State) : State :=
  said [.text ("= NONCE " ++ hexGroups n ++ " SLOT " ++ toString k ++ " CTR " ++ toString (s.sec.slots.getD k {}).ctr), .ok]
    (setSvc (fun x => { x with nonce := some (n, k, s.clk.mono), nonces := x.nonces + 1 }) s)

/-- UNLOCK gives a fresh nonce for the lowest service slot. -/
theorem exec_komirUnlockNonce {k : Nat} (hslot : serviceSlot s = some k) :
    ∃ n, exec .komirUnlockNonce s = .next (nonceGiven n k (lineNoted s)) := by
  refine ⟨openNat 60 64 [(s.svc.nonces : Int)], congrArg Host.Outcome.next ((komirLine_of_free h ..).trans ?_)⟩
  have hslot' : serviceSlot (lineNoted s) = some k := hslot
  simp only [hslot', okText_eq]
  rfl

theorem exec_komirUnlockToken (slot : BitVec 8) (token : BitVec 64) : exec (.komirUnlockToken slot token) s = .next (
    if unlockOk (lineNoted s) slot.toNat token = true then said [.ok] (secRecord 10 slot.toNat [] (setSvc (fun x => { x with unlocked := true })
      (setSec (fun x => raiseCtr x slot.toNat) (setSvc (fun x => { x with nonce := none }) (lineNoted s)))))
    else unlockFailed slot.toNat (setSvc (fun x => { x with nonce := none }) (lineNoted s))) :=
  congrArg Host.Outcome.next (komirLine_of_free h ..)

end

theorem endSession_unlocked (cause : Nat) (s : State) : (endSession cause s).svc.unlocked = false := by
  unfold endSession
  dsimp only
  split <;> rfl

theorem endSession_out (cause : Nat) (s : State) : (endSession cause s).out = s.out := by
  unfold endSession
  dsimp only
  split <;> rfl

theorem raiseIrq_svc (k : Nat) (s : State) : (raiseIrq k s).svc = s.svc := (congrArg State.svc (raiseIrq_onlyMessages k s) :)

theorem tamperAct_svc (level : Nat) (s : State) : (tamperAct level s).svc = s.svc := by
  unfold tamperAct
  dsimp only
  split
  · rfl
  · split <;> rfl

theorem secRecord_svc (code unit : Nat) (data : Bytes) (s : State) : (secRecord code unit data s).svc = s.svc := rfl

theorem fireTamper_svc (j : Nat) (s : State) : (fireTamper j s).svc = s.svc := by
  unfold fireTamper
  dsimp only
  split
  · rfl
  · rw [apply_ite State.svc, setSec_svc, secRecord_svc, raiseIrq_svc, ite_self, tamperAct_svc]
    rfl

/-- A failed attempt has its answer come 1 s later. -/
theorem unlockFailed_svc (slot : Nat) (s : State) : (unlockFailed slot s).svc = { s.svc with late := some (s.clk.mono + secU 1) } := by
  unfold unlockFailed
  dsimp only
  split
  · exact fireTamper_svc ..
  · rfl

/-- A line that neither the recovery set nor a locked session has. -/
theorem exec_guarded (s : State) {q : Option (BitVec 64)} {n : Option (BitVec 16)} {x : BitVec 8} {ch : BitVec 16} {kind : BitVec 4}
    {unit : BitVec 9} {sel e : BitVec 8} {diff : Bool} {level : BitVec 12} {k : KomirTest} {man : Option (BitVec 32)} {i : Instr}
    (hi : i ∈ [Instr.komirCaps, .komirLog q n, .komirSlice x, .komirBay x, .komirPins, .komirTime, .komirSupv,
      .komirWmk ch kind unit sel e diff level, .komirTest k, .komirLoop ch man, .komirRestartWarm, .komirRestartCold]) :
    ∃ f, exec i s = .next (komirLine false false f s) := by
  simp only [List.mem_cons, List.not_mem_nil, or_false] at hi
  rcases hi with rfl | rfl | rfl | rfl | rfl | rfl | rfl | rfl | rfl | rfl | rfl | rfl <;> exact ⟨_, rfl⟩

end

/-- Settles O58: a line is refused with ER 02 or carried out, by whether a locked session has it. -/
theorem consoleLocked : Obligations.ConsoleLocked := by
  unfold Obligations.ConsoleLocked
  rintro s b hruns hwarm hrst hlate hidle hb say hsay
  obtain rfl : b = lineNoted s := hb
  obtain rfl : say = said := hsay
  have h : Serves s := ⟨hruns, hwarm, hrst, hlate, hidle⟩
  refine ⟨Bool.eq_false_or_eq_true _, fun hlocked q n x ch kind unit sel e diff level k man i hi => ?_, exec_komirHelp h, exec_komirId h,
    exec_komirStatus h, exec_komirBaud h, exec_komirEcho h, exec_komirUnlockNonce_of_none h, fun k hslot => ?_, fun slot token hok => ?_,
    fun slot token hbad => ?_, ?_⟩
  · obtain ⟨f, hf⟩ := exec_guarded s hi
    rw [hf, komirLine_of_locked h hlocked]
  · obtain ⟨n, hrow⟩ := exec_komirUnlockNonce h hslot
    exact ⟨_, n, hrow, rfl, rfl, rfl⟩
  · rw [exec_komirUnlockToken h, if_pos hok]
    exact ⟨_, rfl, rfl, rfl⟩
  · rw [exec_komirUnlockToken h, if_neg (by simp [hbad])]
    refine ⟨_, rfl, ?_⟩
    rw [unlockFailed_svc]
    exact ⟨rfl, rfl, rfl⟩
  · refine ⟨_, exec_komirLock h, endSession_unlocked .., ?_⟩
    exact (congrArg (fun o => o.uart ++ [UartLine.ok]) (endSession_out 0 (lineNoted s)) :)

end Sys2Proof.Machine.Laws
end

section
/-! SUPPORT. The command entries the console makes up, and its lines and events (R548-R557). -/

namespace Sys2Proof.Machine.Laws
open Sys2Proof Sys2Proof.Machine Sys2Proof.Safety

/-! ### Fields of a number -/

section
variable {x y k lo w : Nat}

theorem low_add_lt {m : Nat} (hx : x < 2 ^ k) (hy : y < 2 ^ m) : x + 2 ^ k * y < 2 ^ (k + m) := by
  calc x + 2 ^ k * y < 2 ^ k * (y + 1) := by rw [Nat.mul_add_one]; omega
    _ ≤ 2 ^ k * 2 ^ m := Nat.mul_le_mul_left _ hy
    _ = 2 ^ (k + m) := (Nat.pow_add ..).symm

theorem bitsOf_low_add (hx : x < 2 ^ k) (h : lo + w ≤ k) : bitsOf (x + 2 ^ k * y) lo w = bitsOf x lo w := by
  refine Nat.eq_of_testBit_eq fun i => ?_
  simp only [bitsOf, Nat.testBit_mod_two_pow, Nat.testBit_shiftRight, Nat.add_comm x, Nat.testBit_two_pow_mul_add y hx]
  by_cases hi : i < w
  · rw [if_pos (by omega)]
  · simp [hi]

theorem bitsOf_high_add (hx : x < 2 ^ k) : bitsOf (x + 2 ^ k * y) (k + lo) w = bitsOf y lo w := by
  refine Nat.eq_of_testBit_eq fun i => ?_
  simp only [bitsOf, Nat.testBit_mod_two_pow, Nat.testBit_shiftRight, Nat.add_comm x, Nat.testBit_two_pow_mul_add y hx]
  rw [if_neg (by omega), Nat.add_assoc, Nat.add_sub_cancel_left]

theorem place_of_lt (h : x < 2 ^ w) : place x lo w = x * 2 ^ lo := by rw [place, Nat.mod_eq_of_lt h, Nat.shiftLeft_eq]

theorem bitsOf_self (hx : x < 2 ^ w) : bitsOf x 0 w = x := Nat.mod_eq_of_lt hx

/-- A field inside a word of 32 bits is a field of that word. -/
theorem bitsOf_bitsOf_word {o : Nat} (x lo : Nat) (h : o + w ≤ 32) : bitsOf (bitsOf x lo 32) o w = bitsOf x (lo + o) w := by
  refine Nat.eq_of_testBit_eq fun i => ?_
  simp only [bitsOf, Nat.testBit_mod_two_pow, Nat.testBit_shiftRight]
  by_cases hi : i < w
  · rw [decide_eq_true (show o + i < 32 by omega), Bool.true_and, Nat.add_assoc]
  · simp [hi]

end

/-! ### Fields of a console command -/

section
variable {code unit a b d : Nat} (hunit : unit < 2 ^ 16) (ha : a < 2 ^ 32) (hb : b < 2 ^ 32) (hd : d < 2 ^ 32)

/-- The command entry of three words of ARGS, its parts from the lowest up. -/
def entryNat (code unit a b d : Nat) : Nat :=
  (2 ^ 8 * (code / 256 % 2 ^ 8) + 2 ^ 16 * (code % 256 % 2 ^ 8)) + 2 ^ 32 * (unit + 2 ^ 128 * (a + 2 ^ 32 * (b + 2 ^ 32 * d)))

theorem entryHead_lt : 2 ^ 8 * (code / 256 % 2 ^ 8) + 2 ^ 16 * (code % 256 % 2 ^ 8) < 2 ^ 32 := by omega

include hunit ha hb hd

theorem entryNat_lt : entryNat code unit a b d < 2 ^ 512 := by
  have hargs := low_add_lt ha (low_add_lt hb hd)
  have hrest := low_add_lt (Nat.lt_trans hunit (Nat.pow_lt_pow_right Nat.one_lt_two (by decide) : 2 ^ 16 < 2 ^ 128)) hargs
  exact Nat.lt_trans (low_add_lt entryHead_lt hrest) (Nat.pow_lt_pow_right Nat.one_lt_two (by decide))

theorem entrySum_eq : place (code / 256) 8 8 + place (code % 256) 16 8 + place unit 32 16 +
    (place a 160 32 + place b 192 32 + place d 224 32) = entryNat code unit a b d := by
  rw [place_of_lt hunit, place_of_lt ha, place_of_lt hb, place_of_lt hd, place, place, Nat.shiftLeft_eq, Nat.shiftLeft_eq, entryNat]
  ring

theorem consoleCmd_toNat : (consoleCmd code unit [(0x14, a), (0x18, b), (0x1C, d)]).bits.toNat = entryNat code unit a b d := by
  have hbits : (consoleCmd code unit [(0x14, a), (0x18, b), (0x1C, d)]).bits = BitVec.ofNat 512 (entryNat code unit a b d) := by
    rw [← entrySum_eq hunit ha hb hd, consoleCmd, List.foldl_cons, List.foldl_cons, List.foldl_cons, List.foldl_nil, Nat.zero_add]
    simp only [Nat.reduceMul]
  rw [hbits, BitVec.toNat_ofNat, Nat.mod_eq_of_lt (entryNat_lt hunit ha hb hd)]

theorem consoleCmd_unit : (consoleCmd code unit [(0x14, a), (0x18, b), (0x1C, d)]).unit = unit := by
  rw [Cmd.unit, Cmd.at_, consoleCmd_toNat hunit ha hb hd, entryNat]
  exact (bitsOf_high_add (lo := 0) entryHead_lt).trans
    ((bitsOf_low_add (Nat.lt_trans hunit (Nat.pow_lt_pow_right Nat.one_lt_two (by decide))) (by decide)).trans (bitsOf_self hunit))

/-- The words of ARGS, above the header. -/
theorem consoleCmd_args (lo w : Nat) : bitsOf (consoleCmd code unit [(0x14, a), (0x18, b), (0x1C, d)]).bits.toNat (32 + (128 + lo)) w =
    bitsOf (a + 2 ^ 32 * (b + 2 ^ 32 * d)) lo w := by
  rw [consoleCmd_toNat hunit ha hb hd, entryNat, bitsOf_high_add entryHead_lt,
    bitsOf_high_add (Nat.lt_trans hunit (Nat.pow_lt_pow_right Nat.one_lt_two (by decide)))]

/-- A field of the first word of ARGS. -/
theorem consoleCmd_at0 {o w : Nat} (h : o + w ≤ 32) : (consoleCmd code unit [(0x14, a), (0x18, b), (0x1C, d)]).at_ 0x14 o w = bitsOf a o w := by
  have hpos : 8 * 0x14 + o = 32 + (128 + o) := by omega
  rw [Cmd.at_, hpos, consoleCmd_args hunit ha hb hd, bitsOf_low_add ha h]

theorem consoleCmd_at1 {o w : Nat} (h : o + w ≤ 32) : (consoleCmd code unit [(0x14, a), (0x18, b), (0x1C, d)]).at_ 0x18 o w = bitsOf b o w := by
  have hpos : 8 * 0x18 + o = 32 + (128 + (32 + o)) := by omega
  rw [Cmd.at_, hpos, consoleCmd_args hunit ha hb hd, bitsOf_high_add ha, bitsOf_low_add hb h]

theorem consoleCmd_at2 (o w : Nat) : (consoleCmd code unit [(0x14, a), (0x18, b), (0x1C, d)]).at_ 0x1C o w = bitsOf d o w := by
  have hpos : 8 * 0x1C + o = 32 + (128 + (32 + (32 + o))) := by omega
  rw [Cmd.at_, hpos, consoleCmd_args hunit ha hb hd, bitsOf_high_add ha, bitsOf_high_add hb]

end

/-- A third word of 0 is no word. -/
theorem consoleCmd_two (code unit a b : Nat) :
    consoleCmd code unit [(0x14, a), (0x18, b)] = consoleCmd code unit [(0x14, a), (0x18, b), (0x1C, 0)] := by
  have hzero : place 0 (8 * 0x1C) 32 = 0 := Nat.zero_shiftLeft _
  simp only [consoleCmd, List.foldl_cons, List.foldl_nil, hzero, Nat.add_zero]

/-- The first word of ARGS of a Waymark selection. -/
def wmkWord (kind unit sel : Nat) (diff : Bool) : Nat := kind + place unit 4 9 + place sel 13 8 + place (flag diff) 21 1

theorem flag_lt (b : Bool) : flag b < 2 := by cases b <;> decide

theorem flag_beq_one (b : Bool) : (flag b == 1) = b := by cases b <;> rfl

section
variable {kind unit sel : Nat} (hkind : kind < 2 ^ 4) (hunit : unit < 2 ^ 9) (hsel : sel < 2 ^ 8) (diff : Bool)
include hkind hunit hsel

omit hkind in
theorem wmkWord_eq : wmkWord kind unit sel diff = kind + unit * 2 ^ 4 + sel * 2 ^ 13 + flag diff * 2 ^ 21 := by
  rw [wmkWord, place_of_lt hunit, place_of_lt hsel, place_of_lt (flag_lt diff)]

theorem wmkWord_fields : wmkWord kind unit sel diff < 2 ^ 32 ∧ bitsOf (wmkWord kind unit sel diff) 0 4 = kind ∧
    bitsOf (wmkWord kind unit sel diff) 4 9 = unit ∧ bitsOf (wmkWord kind unit sel diff) 13 8 = sel ∧
    bitsOf (wmkWord kind unit sel diff) 21 1 = flag diff := by
  have hflag := flag_lt diff
  simp only [bitsOf, Nat.shiftRight_eq_div_pow, wmkWord_eq hunit hsel]
  omega

end

/-- The command of a WMK line selects what the line names. -/
theorem wmkOf_consoleCmd {code ch : Nat} {kind : BitVec 4} {unit : BitVec 9} {sel e : BitVec 8} {diff : Bool} {level : BitVec 12} (hch : ch < 2 ^ 16) :
    wmkOf (consoleCmd code ch [(0x14, wmkWord kind.toNat unit.toNat sel.toNat diff), (0x18, e.toNat), (0x1C, level.toNat)]) =
    { kind := kind.toNat, unit := unit.toNat, sel := sel.toNat, diff := diff, e := signedOf e.toNat 8, level := level.toNat } := by
  obtain ⟨hword, hk, hu, hs, hf⟩ := wmkWord_fields kind.isLt unit.isLt sel.isLt diff
  have he : e.toNat < 2 ^ 32 := Nat.lt_trans e.isLt (by decide)
  have hl : level.toNat < 2 ^ 32 := Nat.lt_trans level.isLt (by decide)
  have h0 {o w : Nat} (h : o + w ≤ 32) := consoleCmd_at0 (code := code) hch hword he hl h
  rw [wmkOf, h0 (by decide), h0 (by decide), h0 (by decide), h0 (by decide), consoleCmd_at1 hch hword he hl (by decide),
    consoleCmd_at2 hch hword he hl, hk, hu, hs, hf, flag_beq_one, bitsOf_self e.isLt, bitsOf_self level.isLt]

/-! ### The lines of an unlocked session (R551, R554, R557) -/

section
variable {s : State} (h : Serves s) (hopen : s.svc.unlocked = true)
include h hopen

theorem exec_komirCaps : exec .komirCaps s = .next (said [.vals (sysCapsBlock (lineNoted s)), .ok] (lineNoted s)) :=
  congrArg Host.Outcome.next ((komirLine_of_unlocked h hopen ..).trans (okVals_eq ..))

theorem exec_komirPins : exec .komirPins s = .next (said [.vals (tripStatusBlock (lineNoted s)), .ok] (lineNoted s)) :=
  congrArg Host.Outcome.next ((komirLine_of_unlocked h hopen ..).trans (okVals_eq ..))

theorem exec_komirTime : exec .komirTime s = .next (said [.vals (timeBlock (lineNoted s) ++ gridBlock (lineNoted s)), .ok] (lineNoted s)) :=
  congrArg Host.Outcome.next ((komirLine_of_unlocked h hopen ..).trans (okVals_eq ..))

theorem exec_komirSupv :
    exec .komirSupv s = .next (said [.vals (capacityBlock (lineNoted s) ++ sourceSummary (lineNoted s)), .ok] (lineNoted s)) :=
  congrArg Host.Outcome.next ((komirLine_of_unlocked h hopen ..).trans (okVals_eq ..))

theorem exec_komirSlice (x : BitVec 8) : exec (.komirSlice x) s = .next (
    if x.toNat < 51 then said [.vals (sliceBlock (lineNoted s) x.toNat), .ok] (lineNoted s) else said [.er 6] (lineNoted s)) :=
  congrArg Host.Outcome.next ((komirLine_of_unlocked h hopen ..).trans (if_congr Iff.rfl (okVals_eq ..) rfl))

/-- LOG moves the console's own position and nothing of the log. -/
theorem exec_komirLog (q : Option (BitVec 64)) (n : Option (BitVec 16)) : ∃ t, exec (.komirLog q n) s = .next t ∧ t.log = s.log ∧
    t.svc = { (lineNoted s).svc with logPos := t.svc.logPos } := by
  refine ⟨_, congrArg Host.Outcome.next (komirLine_of_unlocked h hopen ..), ?_⟩
  dsimp only
  split_ifs <;> exact ⟨rfl, rfl⟩

theorem exec_komirBay {x : BitVec 8} {c : Cmd} (hc : c = consoleCmd 0x0303 x.toNat []) :
    exec (.komirBay x) s = .next (consoleRun c (readJudge c) (readAct c) (lineNoted s)) := by
  subst hc
  exact congrArg Host.Outcome.next (komirLine_of_unlocked h hopen ..)

theorem exec_komirWmk (ch : BitVec 16) (kind : BitVec 4) (unit : BitVec 9) (sel e : BitVec 8) (diff : Bool) (level : BitVec 12) {c : Cmd}
    (hc : c = consoleCmd 0x1401 ch.toNat [(0x14, wmkWord kind.toNat unit.toNat sel.toNat diff), (0x18, e.toNat), (0x1C, level.toNat)]) :
    exec (.komirWmk ch kind unit sel e diff level) s = .next (consoleRun c (wmkJudge c) (wmkAct c) (lineNoted s)) := by
  subst hc
  exact congrArg Host.Outcome.next (komirLine_of_unlocked h hopen ..)

theorem exec_komirTest_start {id : BitVec 8} {unit : BitVec 16} {param : BitVec 32} {c : Cmd}
    (hc : c = consoleCmd 0x1301 unit.toNat [(0x14, id.toNat), (0x18, param.toNat)]) :
    exec (.komirTest (.start id unit param)) s = .next (consoleRun c (testJudge c) (consoleTest c) (lineNoted s)) := by
  subst hc
  exact congrArg Host.Outcome.next (komirLine_of_unlocked h hopen ..)

theorem exec_komirTest_result {id : BitVec 8} (hlow : 1 ≤ id.toNat) (hhigh : id.toNat ≤ 15) : exec (.komirTest (.result id)) s =
    .next (said [.vals (TestRes.encode id.toNat (s.svc.results.getD id.toNat {})), .ok] (lineNoted s)) :=
  congrArg Host.Outcome.next ((komirLine_of_unlocked h hopen ..).trans
    ((if_neg (by simp [Nat.ne_of_gt hlow, Nat.not_lt.mpr hhigh])).trans (okVals_eq ..)))

/-- The first word of ARGS of a LOOP line. -/
def xferWord (man : Option (BitVec 32)) : Nat := (match man with | some _ => 1 | none => 2) + place (flag man.isSome) 2 1

omit h hopen in
theorem xferWord_lt (man : Option (BitVec 32)) : xferWord man < 2 ^ 32 := by
  cases man with
  | none => decide
  | some x => exact (by decide : 1 + place (flag true) 2 1 < 2 ^ 32)

/-- The set-point of a LOOP line. -/
def xferValue (man : Option (BitVec 32)) : Nat := match man with | some x => x.toNat | none => 0

omit h hopen in
theorem xferValue_lt (man : Option (BitVec 32)) : xferValue man < 2 ^ 32 := by
  cases man with
  | none => decide
  | some x => exact x.isLt

theorem exec_komirLoop (l : BitVec 16) (man : Option (BitVec 32)) {c : Cmd}
    (hc : c = consoleCmd 0x0F01 l.toNat [(0x14, xferWord man), (0x18, xferValue man)]) : ∃ q, exec (.komirLoop l man) s =
    .next (consoleRun c (loopJudge c [(0x14, 0, 3), (0x18, 0, 32)] []) (consoleXfer c q) (lineNoted s)) := by
  subst hc
  exact ⟨_, congrArg Host.Outcome.next (komirLine_of_unlocked h hopen ..)⟩

theorem exec_komirRestartWarm (hnone : s.mode.restart = none) : exec .komirRestartWarm s =
    .next (said [.ok] (svcRecord 4 0 (dCode 1) (setMode (fun m => { m with restart := some { src := 7 } }) (lineNoted s)))) :=
  congrArg Host.Outcome.next ((komirLine_of_unlocked h hopen ..).trans (if_neg (by simp [lineNoted, hnone])))

theorem exec_komirRestartCold_first (hnone : s.svc.confirmTo = none) : exec .komirRestartCold s = .next (said [.text "= CONFIRM", .ok]
    (setSvc (fun x => { x with confirmTo := some (s.clk.mono + secU 10) }) (lineNoted s))) := by
  refine congrArg Host.Outcome.next ((komirLine_of_unlocked h hopen ..).trans ((if_neg ?_).trans (okText_eq ..)))
  simp [lineNoted, hnone]

theorem exec_komirRestartCold_again {a : Nat} (ha : s.svc.confirmTo = some a) (hwithin : s.clk.mono ≤ a) : exec .komirRestartCold s =
    .next (said [.ok] (svcRecord 4 0 (dCode 2) (setMode (fun m => { m with restart := some { src := 4 } })
      (setSvc (fun x => { x with confirmTo := none }) (lineNoted s))))) := by
  refine congrArg Host.Outcome.next ((komirLine_of_unlocked h hopen ..).trans (if_pos ?_))
  simp [lineNoted, ha, hwithin]

end

/-! ### The recovery set (R556) -/

section
variable {s : State}

theorem exec_komirSyntaxError (s : State) : exec .komirSyntaxError s = .next (komirLine true true (fun s => uartLine (.er 1) s) s) := rfl

section
variable (h : Serves s)
include h

theorem exec_komirFwe_of_serves : exec .komirFwe s = .next (said [.er 1] (lineNoted s)) :=
  congrArg Host.Outcome.next ((komirLine_of_free h ..).trans
    (if_pos (congrArg (!·) (recoveryMode_of_xarikRuns h.runs : recoveryMode (lineNoted s) = false))))

theorem exec_komirFwd_of_serves (off : Nat) (d : Bytes) : exec (.komirFwd off d) s = .next (said [.er 1] (lineNoted s)) :=
  congrArg Host.Outcome.next ((komirLine_of_free h ..).trans (if_pos (by
    rw [(recoveryMode_of_xarikRuns h.runs : recoveryMode (lineNoted s) = false)]
    rfl)))

end

section
variable (hquiet : Quiet s) (hrec : recoveryMode s = true)
include hquiet hrec

/-- FWD of a line at its place extends the active slot's image. -/
theorem exec_komirFwd {off : Nat} {d : Bytes} (hlen : d.length = 64) (hstep : off % 64 = 0) (hfit : off + 64 ≤ slotSize)
    (hnext : off = 0 ∨ off = s.svc.fwdEnd) : exec (.komirFwd off d) s = .next (said [.ok] (setSvc (fun x => { x with fwdEnd := off + 64 })
      (setFw s.sec.active (fun _ => { image := if off = 0 then d else (s.sec.fw.getD s.sec.active {}).image ++ d, loading := true })
        (lineNoted s)))) := by
  have hrec' : recoveryMode (lineNoted s) = true := hrec
  have hrow : exec (.komirFwd off d) s = execKomirFwd off d s := rfl
  have hplace : ¬ ((off != 0 && off != (lineNoted s).svc.fwdEnd) = true) := by
    simp only [Bool.and_eq_true, bne_iff_ne, not_and, not_not]
    exact or_iff_not_imp_left.mp hnext
  have himage : (if (off == 0) = true then [] else ((lineNoted s).sec.fw.getD (lineNoted s).sec.active {}).image) ++ d =
      if off = 0 then d else (s.sec.fw.getD s.sec.active {}).image ++ d := by
    by_cases hzero : off = 0
    · rw [if_pos (beq_iff_eq.mpr hzero), if_pos hzero, List.nil_append]
    · rw [if_neg (by simpa using hzero), if_neg hzero]
      rfl
  rw [hrow, execKomirFwd, komirLine_of_recovery hquiet hrec, if_pos rfl, if_neg (by simp [hrec', hlen]),
    if_neg (by simp [hstep, Nat.not_lt.mpr hfit]), if_neg hplace]
  dsimp only
  rw [himage]
  rfl

theorem exec_komirFwe {x : FwSlot} (hx : x = s.sec.fw.getD s.sec.active {}) : exec .komirFwe s = .next (
    match imageFault s.variant s.sec.minSvn x.image with
    | some k => said [.vals (leBytes 1 k), .er 8] (lineNoted s)
    | none => said [.ok] (setSvc (fun y => { y with recovery := some (u16At x.image 8, imageSvn x) })
        (setFw s.sec.active (fun f => { f with valid := true, loading := false }) (lineNoted s)))) := by
  have hrec' : recoveryMode (lineNoted s) = true := hrec
  have hrow : exec .komirFwe s = execKomirFwe s := rfl
  subst hx
  rw [hrow, execKomirFwe, komirLine_of_recovery hquiet hrec, if_pos rfl, if_neg (by simp [hrec'])]
  refine congrArg Host.Outcome.next ?_
  cases hfault : imageFault s.variant s.sec.minSvn (s.sec.fw.getD s.sec.active {}).image with
  | none => simp only [lineNoted, hfault, uartLine_eq]
  | some k => simp only [lineNoted, hfault, uartLine_eq (.vals _), uartLine_said, List.cons_append, List.nil_append]

theorem exec_komirCaps_of_recovery : exec .komirCaps s = .next (said [.er 1] (lineNoted s)) :=
  congrArg Host.Outcome.next (komirLine_of_recovery hquiet hrec ..)

end

/-! ### The events of a session (R548, R552, R553) -/

theorem exec_komirBreak (hruns : xarikRuns s = true) : exec .komirBreak s = .next (endSession 2 (setSvc (fun x => { x with baud := 115200 }) s)) :=
  congrArg Host.Outcome.next (if_pos (by simp [hruns]))

theorem endSession_baud (cause : Nat) (s : State) : (endSession cause s).svc.baud = s.svc.baud := by
  unfold endSession
  dsimp only
  split <;> rfl

theorem endSession_clk (cause : Nat) (s : State) : (endSession cause s).clk = s.clk := by
  unfold endSession
  dsimp only
  split <;> rfl

theorem exec_komirIdleTimeout : exec .komirIdleTimeout s = .next (
    if s.svc.unlocked = true then endSession 1 (setClk (·.advance (s.svc.lineAt + secU 900)) s) else s) := rfl

theorem exec_komirNonceExpiry_of_none (h : s.svc.nonce = none) : exec .komirNonceExpiry s = .next s := by
  have hrow : exec .komirNonceExpiry s = execKomirNonceExpiry s := rfl
  rw [hrow, execKomirNonceExpiry, h]

theorem exec_komirNonceExpiry {n k a : Nat} (h : s.svc.nonce = some (n, k, a)) : exec .komirNonceExpiry s = .next
    { s with svc := { s.svc with nonce := none }, clk := s.clk.advance (a + secU 60) } := by
  have hrow : exec .komirNonceExpiry s = execKomirNonceExpiry s := rfl
  rw [hrow, execKomirNonceExpiry, h]
  rfl

end

/-- Settles O59: the lines by who answers them, then the events of the session. -/
theorem consoleRows : Obligations.ConsoleRows := by
  unfold Obligations.ConsoleRows
  rintro s b hlate hidle hb say hsay
  obtain rfl : b = lineNoted s := hb
  obtain rfl : say = said := hsay
  have hquiet : Quiet s := ⟨hlate, hidle⟩
  refine ⟨fun hruns hwarm hrst hopen => ?_, fun hruns hrestart => ?_, fun hruns hwarm hrst => ?_, fun hrec x hx => ?_, fun hruns => ?_,
    fun hlocked => ?_, fun hopen => ?_, exec_komirNonceExpiry_of_none, fun n k a => exec_komirNonceExpiry⟩
  · have h : Serves s := ⟨hruns, hwarm, hrst, hquiet⟩
    refine ⟨exec_komirCaps h hopen, exec_komirPins h hopen, exec_komirTime h hopen, exec_komirSupv h hopen, exec_komirSlice h hopen,
      exec_komirLog h hopen, fun x c => exec_komirBay h hopen, fun ch kind unit sel e diff level => ⟨_, exec_komirWmk h hopen ch kind unit sel e diff level rfl, ?_, ?_⟩,
      fun id unit param => ⟨_, exec_komirTest_start h hopen rfl, ?_⟩, fun id => exec_komirTest_result h hopen, fun l man => ?_,
      fun hnone => ⟨_, exec_komirRestartWarm h hopen hnone, rfl, rfl⟩, exec_komirRestartCold_first h hopen,
      fun a ha hwithin => ⟨_, exec_komirRestartCold_again h hopen ha hwithin, rfl, rfl⟩⟩
    · exact consoleCmd_unit ch.isLt (wmkWord_fields kind.isLt unit.isLt sel.isLt diff).1 (Nat.lt_trans e.isLt (by decide))
        (Nat.lt_trans level.isLt (by decide))
    · exact wmkOf_consoleCmd ch.isLt
    · have hid : id.toNat < 2 ^ 32 := Nat.lt_trans id.isLt (by decide)
      rw [consoleCmd_two, consoleCmd_unit unit.isLt hid param.isLt (by decide), consoleCmd_at0 unit.isLt hid param.isLt (by decide) (by decide),
        consoleCmd_at0 unit.isLt hid param.isLt (by decide) (by decide), consoleCmd_at1 unit.isLt hid param.isLt (by decide) (by decide),
        bitsOf_self id.isLt, bitsOf_self param.isLt]
      refine ⟨rfl, rfl, ?_, rfl⟩
      rw [bitsOf, Nat.shiftRight_eq_div_pow, Nat.div_eq_of_lt id.isLt, Nat.zero_mod]
    · obtain ⟨q, hq⟩ := exec_komirLoop h hopen l man rfl
      refine ⟨_, q, hq, ?_⟩
      rw [consoleCmd_two, consoleCmd_unit l.isLt (xferWord_lt man) (xferValue_lt man) (by decide)]
  · exact ⟨congrArg Host.Outcome.next (komirLine_of_restarting hruns hquiet hrestart ..),
      congrArg Host.Outcome.next (komirLine_of_restarting hruns hquiet hrestart ..),
      congrArg Host.Outcome.next (komirLine_of_restarting hruns hquiet hrestart ..)⟩
  · have h : Serves s := ⟨hruns, hwarm, hrst, hquiet⟩
    exact ⟨congrArg Host.Outcome.next (komirLine_of_free h ..), exec_komirFwe_of_serves h, exec_komirFwd_of_serves h⟩
  · refine ⟨fun off d hlen hstep hfit hnext hslot => ?_, fun hgood hslot => ?_, fun k hbad => ?_, exec_komirCaps_of_recovery hquiet hrec⟩
    · refine ⟨_, exec_komirFwd hquiet hrec hlen hstep hfit hnext, ?_⟩
      have hfw : ∀ f : FwSlot → FwSlot, (setFw s.sec.active f (lineNoted s)).sec.fw.getD s.sec.active {} = f (s.sec.fw.getD s.sec.active {}) :=
        fun f => getD_modAt_same _ _ hslot
      exact ⟨(congrArg FwSlot.image (hfw _)).trans (by rw [hx]), congrArg FwSlot.valid (hfw _), rfl, rfl⟩
    · rw [exec_komirFwe hquiet hrec hx, hgood]
      refine ⟨_, rfl, ?_, rfl, rfl⟩
      exact congrArg FwSlot.valid (getD_modAt_same (fun f : FwSlot => { f with valid := true, loading := false }) _ hslot)
    · rw [exec_komirFwe hquiet hrec hx, hbad]
  · exact ⟨_, exec_komirBreak hruns, endSession_baud .., endSession_unlocked ..⟩
  · rw [exec_komirIdleTimeout, if_neg (by simp [hlocked])]
  · rw [exec_komirIdleTimeout, if_pos hopen]
    exact ⟨_, rfl, endSession_unlocked .., endSession_clk ..⟩

end Sys2Proof.Machine.Laws
end

section
/-! SUPPORT. System triggers, the end of a record, automatic records, the overflow record and the check of the chain (R445-R457, R465,
R499, R502). -/

namespace Sys2Proof.Machine.Laws
open Sys2Proof Sys2Proof.Machine Sys2Proof.Safety

/-! ### Regions and their triggers -/

theorem region_setRegion (r k : Nat) (f : RegionRec → RegionRec) (s : State) :
    region (setRegion r f s) k = if k = r ∧ r < s.rec_.regions.length then f (region s r) else region s k := by
  change (modAt s.rec_.regions r f).getD k {} = _
  by_cases hk : k = r
  · subst hk
    by_cases hlt : k < s.rec_.regions.length
    · rw [if_pos ⟨rfl, hlt⟩, getD_modAt_same f _ hlt, region]
    · rw [if_neg (fun h => hlt h.2), modAt, List.modify_eq_self (Nat.le_of_not_lt hlt), region]
  · rw [if_neg (fun h => hk h.1), getD_modAt_ne _ f _ hk, region]

theorem region_setRegion_same {r : Nat} (f : RegionRec → RegionRec) {s : State} (h : r < s.rec_.regions.length) :
    region (setRegion r f s) r = f (region s r) := by
  rw [region_setRegion, if_pos ⟨rfl, h⟩]

/-- Nothing but triggers that wait has been added to the regions. -/
structure Waits (s t : State) : Prop where
  clk : t.clk = s.clk
  size : t.rec_.regions.length = s.rec_.regions.length
  armed : ∀ r, (region t r).armed = (region s r).armed
  takes : ∀ r, recording t r = recording s r
  pend : ∀ r p, p ∈ (region s r).pend → p ∈ (region t r).pend

theorem Waits.refl (s : State) : Waits s s := ⟨rfl, rfl, fun _ => rfl, fun _ => rfl, fun _ _ h => h⟩

theorem Waits.trans {s t u : State} (h : Waits s t) (k : Waits t u) : Waits s u :=
  ⟨k.clk.trans h.clk, k.size.trans h.size, fun r => (k.armed r).trans (h.armed r), fun r => (k.takes r).trans (h.takes r),
    fun r p hp => k.pend r p (h.pend r p hp)⟩

/-- A trigger added to those that wait in a region. -/
def waitingWith (x : Nat × Nat × Nat) (g : RegionRec) : RegionRec := { g with pend := g.pend ++ [x] }

theorem setRegion_waitingWith_waits (r : Nat) (x : Nat × Nat × Nat) (s : State) : Waits s (setRegion r (waitingWith x) s) := by
  have harmed (k : Nat) : (region (setRegion r (waitingWith x) s) k).armed = (region s k).armed := by
    rw [region_setRegion]
    split_ifs with h
    · rw [h.1, waitingWith]
    · rfl
  refine ⟨rfl, List.length_modify .., harmed, fun k => ?_, fun k p hp => ?_⟩
  · unfold recording
    rw [harmed]
    rfl
  · rw [region_setRegion]
    split_ifs with h
    · exact List.mem_append_left _ (h.1 ▸ hp)
    · exact hp

theorem addPend_waits (r : Nat) (x : Nat × Nat × Nat) (s : State) : Waits s (addPend r x s) := by
  unfold addPend
  split_ifs
  · exact setRegion_waitingWith_waits r x s
  · exact .refl s

theorem region_addPend_ne {r k : Nat} (x : Nat × Nat × Nat) (s : State) (h : k ≠ r) : region (addPend r x s) k = region s k := by
  unfold addPend
  split_ifs
  · rw [region_setRegion, if_neg (fun hk => h hk.1)]
  · rfl

theorem mem_pend_addPend {r : Nat} {x : Nat × Nat × Nat} {s : State} (hrec : recording s r = true) (hlt : r < s.rec_.regions.length) :
    x ∈ (region (addPend r x s) r).pend := by
  unfold addPend
  rw [hrec, Bool.true_and]
  split_ifs with hnew
  · rw [region_setRegion_same _ hlt]
    exact List.mem_append_right _ (List.mem_singleton_self x)
  · simpa using hnew

/-! ### System triggers -/

section
variable (j : Nat) (up : Bool) (x : Nat × Nat)

/-- A system trigger edge at a region. -/
def sysReach (s : State) (r : Nat) : State :=
  match (region s r).armed with
  | some a => if sysTakes a j up then addPend r (x.1, j, x.2) s else s
  | none => s

variable {j up x} {s : State} {r : Nat}

theorem sysReach_of_takes {m : ArmSt} (ha : (region s r).armed = some m) (ht : sysTakes m j up = true) :
    sysReach j up x s r = addPend r (x.1, j, x.2) s := by
  rw [sysReach, ha]
  exact if_pos ht

theorem sysReach_of_not_takes (h : ∀ m, (region s r).armed = some m → sysTakes m j up = false) : sysReach j up x s r = s := by
  unfold sysReach
  split
  · next m ha => rw [h m ha, if_neg Bool.false_ne_true]
  · rfl

theorem sysReach_waits : Waits s (sysReach j up x s r) := by
  unfold sysReach
  split
  · split_ifs
    · exact addPend_waits ..
    · exact .refl s
  · exact .refl s

theorem region_sysReach_ne {k : Nat} (h : k ≠ r) : region (sysReach j up x s r) k = region s k := by
  unfold sysReach
  split
  · split_ifs
    · exact region_addPend_ne _ s h
    · rfl
  · rfl

theorem foldl_sysReach_waits (l : List Nat) (s : State) : Waits s (l.foldl (sysReach j up x) s) :=
  List.foldlRecOn (motive := Waits s) _ _ (.refl s) fun _ ht _ _ => ht.trans sysReach_waits

theorem mem_pend_foldl_sysReach {l : List Nat} (hr : r ∈ l) (hlt : r < s.rec_.regions.length) {m : ArmSt} (ha : (region s r).armed = some m)
    (ht : sysTakes m j up = true) (hrec : recording s r = true) : (x.1, j, x.2) ∈ (region (l.foldl (sysReach j up x) s) r).pend := by
  obtain ⟨before, after, rfl⟩ := List.append_of_mem hr
  rw [List.foldl_append, List.foldl_cons]
  have hw := foldl_sysReach_waits (j := j) (up := up) (x := x) before s
  refine (foldl_sysReach_waits after _).pend r _ ?_
  rw [sysReach_of_takes ((hw.armed r).trans ha) ht]
  exact mem_pend_addPend ((hw.takes r).trans hrec) (hw.size ▸ hlt)

theorem region_foldl_sysReach_of_not_takes (l : List Nat) (h : ∀ m, (region s r).armed = some m → sysTakes m j up = false) :
    region (l.foldl (sysReach j up x) s) r = region s r := by
  refine List.foldlRecOn (motive := fun t : State => region t r = region s r) _ _ rfl fun t ht k _ => ?_
  by_cases hk : r = k
  · subst hk
    rw [sysReach_of_not_takes (ht ▸ h), ht]
  · rw [region_sysReach_ne hk, ht]

end

theorem exec_systemTriggerEdge (j : BitVec 3) (up : Bool) (a : Nat) (s : State) :
    exec (.systemTriggerEdge j up a) s = .next (
      if 4 ≤ j.toNat ∧ a * uPerNs < s.rec_.cwIgnore.getD (j.toNat - 4) 0 then setClk (·.advance (a * uPerNs)) s
      else (List.range s.variant.regions).foldl
        (sysReach j.toNat up (sysPlace (setClk (·.advance (a * uPerNs)) s) (a * uPerNs - sysDelay s j.toNat)))
        (setClk (·.advance (a * uPerNs)) s)) := by
  have hrow : exec (.systemTriggerEdge j up a) s = execSystemTriggerEdge j up a s := rfl
  rw [hrow, execSystemTriggerEdge]
  simp only [Bool.and_eq_true, decide_eq_true_eq]
  rfl

/-! ### The end of a record -/

theorem region_setRecord {r : Nat} (id : Nat) (f : Rec → Rec) {s : State} (h : r < s.rec_.regions.length) :
    (region (setRecord r id f s) r).recs = (region s r).recs.map (fun x => if x.id == id then f x else x) := by
  rw [setRecord, region_setRegion_same _ h]

/-- An update of the records of one identifier leaves the others. -/
theorem mem_map_update_of_ne {l : List Rec} {id : Nat} {f : Rec → Rec} (hf : ∀ x, (f x).id = x.id) {y : Rec} (hy : y.id ≠ id) :
    y ∈ l.map (fun x => if x.id == id then f x else x) ↔ y ∈ l := by
  rw [List.mem_map]
  constructor
  · rintro ⟨x, hx, rfl⟩
    split_ifs at hy ⊢ with hid
    · exact absurd ((hf x).trans (beq_iff_eq.mp hid)) hy
    · exact hx
  · exact fun h => ⟨y, h, if_neg (by simpa using hy)⟩

theorem eq_update_of_mem_map {l : List Rec} {id : Nat} {f : Rec → Rec} {y : Rec}
    (h : y ∈ l.map (fun x => if x.id == id then f x else x)) (hy : y.id = id) : ∃ x, y = f x := by
  obtain ⟨x, -, rfl⟩ := List.mem_map.mp h
  split_ifs at hy ⊢ with hid
  · exact ⟨x, rfl⟩
  · exact absurd (beq_iff_eq.mpr hy) hid

/-- A record measured, closed, its rows dropped. -/
def closedRec (x : Rec) : Rec := { x with state := .closed, meas := (List.range x.bays.length).flatMap (measBlockOf x), rows := [] }

theorem exec_recordClose_of_none {r : BitVec 2} {s : State} (h : (region s r.toNat).recs.find? (fun x => x.state == .open_ && x.ended) = none) :
    exec (.recordClose r) s = .next s := by
  have hrow : exec (.recordClose r) s = execRecordClose r s := rfl
  rw [hrow, execRecordClose]
  simp only [h]

theorem exec_recordClose_of_some {r : BitVec 2} {s : State} {x : Rec}
    (h : (region s r.toNat).recs.find? (fun x => x.state == .open_ && x.ended) = some x) :
    exec (.recordClose r) s =
      .next (raiseIrq Irq.rec (recEvent 2 r.toNat (dCount x.id ++ dCode x.trunc) (setRecord r.toNat x.id closedRec s))) := by
  have hrow : exec (.recordClose r) s = execRecordClose r s := rfl
  rw [hrow, execRecordClose]
  simp only [h]
  rfl

theorem region_raiseIrq_recEvent (k code unit : Nat) (data : Bytes) (s : State) (r : Nat) :
    region (raiseIrq k (recEvent code unit data s)) r = region s r := by
  rw [region, (congrArg State.rec_ (raiseIrq_onlyEvents k (recEvent code unit data s)) :), recEvent, region]
  rfl

/-! ### Automatic records and the overflow record -/

theorem exec_autoRecord_of_armed {r : BitVec 2} {s : State} {m : ArmSt} (ha : (region s r.toNat).armed = some m) :
    exec (.autoRecord r) s = .next (if armAuto m && recording s r.toNat then
      setRegion r.toNat (fun g => { g with autoPend := true }) (setClk (·.advance ((region s r.toNat).autoAt + secU (60 * armAutoT m))) s)
      else s) := by
  have hrow : exec (.autoRecord r) s = execAutoRecord r s := rfl
  rw [hrow, execAutoRecord]
  simp only [ha]

theorem exec_autoRecord_of_disarmed {r : BitVec 2} {s : State} (ha : (region s r.toNat).armed = none) : exec (.autoRecord r) s = .next s := by
  have hrow : exec (.autoRecord r) s = execAutoRecord r s := rfl
  rw [hrow, execAutoRecord]
  simp only [ha]

/-- The event of an overflow (R499). -/
def overflowEvent (o : Overflow) : Event :=
  { o.first with source := Src.log, code := 1, unit := o.firstSource, replay := false, clear := none,
                 data := dCount o.count ++ dMs o.firstMs ++ dMs o.lastMs }

theorem enterOverflow_of_none {s : State} (h : s.log.overflow = none) : enterOverflow s = s := by
  rw [enterOverflow, h]

theorem enterOverflow_of_some {s : State} {o : Overflow} (h : s.log.overflow = some o) :
    enterOverflow s = if 768 < s.log.queue.length then s
      else setLog (fun l => { l with queue := l.queue ++ [overflowEvent o], overflow := none, ovfRecords := satN 32 (l.ovfRecords + 1) }) s := by
  rw [enterOverflow, h]
  rfl

/-! ### The check of the chain -/

/-- One failing seal counted and recorded. -/
def breakFound (s : State) (q : Nat) : State :=
  postEvent Src.log 4 0 (dMs q) (setLog (fun l => { l with chainBreaks := satN 32 (l.chainBreaks + 1) }) s)

theorem enqueue_chainBreaks (ms : Nat) (e : Event) (l : LogSt) : (enqueue ms e l).chainBreaks = l.chainBreaks := by
  unfold enqueue loseEvent
  split_ifs <;> rfl

theorem breakFound_chainBreaks (s : State) (q : Nat) : (breakFound s q).log.chainBreaks = satN 32 (s.log.chainBreaks + 1) :=
  enqueue_chainBreaks ..

theorem breakFound_sealedAlike (s : State) (q : Nat) : SealedAlike s.log (breakFound s q).log :=
  SealedAlike.trans (m := { s.log with chainBreaks := satN 32 (s.log.chainBreaks + 1) }) ⟨rfl, rfl, rfl⟩ (enqueue_sealedAlike ..)

theorem foldl_breakFound_sealedAlike (l : List Nat) (s : State) : SealedAlike s.log (l.foldl breakFound s).log :=
  List.foldlRecOn (motive := fun t : State => SealedAlike s.log t.log) _ _ ⟨rfl, rfl, rfl⟩ fun t ht q _ => ht.trans (breakFound_sealedAlike t q)

theorem foldl_breakFound_chainBreaks (l : List Nat) (s : State) (h : s.log.chainBreaks + l.length < 2 ^ 32) :
    (l.foldl breakFound s).log.chainBreaks = s.log.chainBreaks + l.length := by
  induction l generalizing s with
  | nil => rfl
  | cons q l ih =>
    rw [List.length_cons] at h
    have hone : (breakFound s q).log.chainBreaks = s.log.chainBreaks + 1 := by
      rw [breakFound_chainBreaks, satN]
      omega
    rw [List.foldl_cons, ih _ (by omega), hone, List.length_cons]
    omega

theorem exec_logChainVerify (s : State) :
    exec .logChainVerify s = .next (if s.mode.mode = .boot ∨ s.mode.mode = .backup then s else (brokenSeals s.log.records).foldl breakFound s) := by
  have hrow : exec .logChainVerify s = execLogChainVerify s := rfl
  rw [hrow, execLogChainVerify]
  simp only [Bool.or_eq_true, beq_iff_eq]
  rfl

/-! ### The obligation -/

/-- Settles O54: each row by its equation; the edge by what reaching one region after another adds to those that wait. -/
theorem recordAndLogRows : Obligations.RecordAndLogRows := by
  unfold Obligations.RecordAndLogRows
  intro s
  refine ⟨fun j up a => ⟨fun hline hearly => ?_, fun hline x hx => ?_⟩, fun bay c b hb => ⟨fun h => ?_, fun hkind hruns hrec hcycle => ?_⟩,
    fun r g hg => ⟨fun hnone => ?_, fun x hx hlt => ?_⟩, fun r => ⟨fun m ha hauto hrec hlt => ?_, fun h => ?_⟩, fun h => ?_,
    fun o ho hroom => ?_, fun h => ?_, fun hboot hbackup => ?_⟩
  case refine_1 =>
    rw [exec_systemTriggerEdge, if_pos ⟨hline, hearly⟩]
    rfl
  case refine_2 =>
    subst hx
    refine ⟨_, (exec_systemTriggerEdge j up a s).trans (congrArg Host.Outcome.next (if_neg (by omega))), (foldl_sysReach_waits _ _).clk,
      fun r hr hlt => ⟨fun m ha ht hrec => ?_, fun h => ?_⟩⟩
    · exact mem_pend_foldl_sysReach (List.mem_range.mpr hr) hlt ha ht hrec
    · exact region_foldl_sysReach_of_not_takes _ h
  case refine_3 =>
    subst hb
    refine congrArg Host.Outcome.next (if_neg ?_)
    simp only [Bool.and_eq_true, beq_iff_eq, List.contains_iff_mem]
    rintro ⟨⟨⟨hkind, hruns⟩, hrec⟩, hcycle⟩
    rcases h with h | h | h | h
    · exact h hkind
    · exact h hruns
    · exact Bool.false_ne_true (h.symm.trans hrec)
    · exact Bool.false_ne_true (h.symm.trans hcycle)
  case refine_4 =>
    subst hb
    refine congrArg Host.Outcome.next (if_pos ?_)
    simp only [Bool.and_eq_true, beq_iff_eq, List.contains_iff_mem]
    exact ⟨⟨⟨hkind, hruns⟩, hrec⟩, hcycle⟩
  case refine_5 => exact exec_recordClose_of_none (hg ▸ hnone)
  case refine_6 =>
    have hrecs := (congrArg RegionRec.recs (region_raiseIrq_recEvent Irq.rec 2 r.toNat (dCount x.id ++ dCode x.trunc)
      (setRecord r.toNat x.id closedRec s) r.toNat)).trans (region_setRecord x.id closedRec hlt)
    refine ⟨_, exec_recordClose_of_some (hg ▸ hx), raiseIrq_sets_cause _ _ (by decide), ?_, fun y hy hid => ?_, fun y hid => ?_⟩
    · rw [hrecs, List.length_map, hg]
    · obtain ⟨z, rfl⟩ := eq_update_of_mem_map (hrecs ▸ hy) hid
      exact ⟨rfl, rfl⟩
    · rw [hrecs, hg]
      exact mem_map_update_of_ne (f := closedRec) (fun _ => rfl) hid
  case refine_7 =>
    refine ⟨_, (exec_autoRecord_of_armed ha).trans (congrArg Host.Outcome.next (if_pos (Bool.and_eq_true_iff.mpr ⟨hauto, hrec⟩))), region_setRegion_same _ hlt, rfl⟩
  case refine_8 =>
    cases ha : (region s r.toNat).armed with
    | none => exact exec_autoRecord_of_disarmed ha
    | some m =>
      rw [exec_autoRecord_of_armed ha, if_neg]
      rintro hboth
      obtain ⟨hauto, hrec⟩ := Bool.and_eq_true_iff.mp hboth
      rcases h with h | h | h
      · exact Option.some_ne_none m (ha.symm.trans h)
      · exact Bool.false_ne_true (h.symm.trans hrec)
      · exact Bool.false_ne_true ((h m ha).symm.trans hauto)
  case refine_9 =>
    refine congrArg Host.Outcome.next (?_ : enterOverflow s = s)
    rcases ho : s.log.overflow with _ | o
    · exact enterOverflow_of_none ho
    · rw [enterOverflow_of_some ho, if_pos (h.resolve_left (by simp [ho]))]
  case refine_10 =>
    exact ⟨_, overflowEvent o, congrArg Host.Outcome.next ((enterOverflow_of_some ho).trans (if_neg (Nat.not_lt.mpr hroom))), rfl, rfl, rfl, rfl,
      rfl, rfl, rfl, rfl, rfl⟩
  case refine_11 => rw [exec_logChainVerify, if_pos h]
  case refine_12 =>
    obtain ⟨hhead, hrecords, -⟩ := foldl_breakFound_sealedAlike (brokenSeals s.log.records) s
    refine ⟨_, (exec_logChainVerify s).trans (congrArg Host.Outcome.next (if_neg (not_or.mpr ⟨hboot, hbackup⟩))), hrecords, hhead, fun h => ?_,
      foldl_breakFound_chainBreaks _ s⟩
    rw [h, List.foldl_nil]

end Sys2Proof.Machine.Laws
end
